-- ==== Sys2Proof/Word.lean ====
section
/-!
DEFINITION. Words, bytes and their plainest arithmetic (R5: little-endian; R7: unsigned fields).
-/
namespace Sys2Proof

/-- A byte (R5). -/
abbrev Byte := BitVec 8

/-- A 64-bit word: a scalar register, a control-space register, an instruction word (R176, R178, R393). -/
abbrev Word := BitVec 64

/-- A die-local address of 40 bits (R129). -/
abbrev Dla := BitVec 40

/-- A 16-byte control slot as one number, byte 0 in the low bits (R71, R5). -/
abbrev Slot := BitVec 128

/-- Bits lo and up of a word, as a w-bit field (R7). -/
def field {n : Nat} (x : BitVec n) (lo w : Nat) : BitVec w := x.extractLsb' lo w

/-- One bit of a word (R7). -/
def bit {n : Nat} (x : BitVec n) (i : Nat) : Bool := x.getLsbD i

/-- One bit as a field of width 1. -/
def bit1 (b : Bool) : BitVec 1 := if b then 1 else 0

/-- The little-endian number that a list of bytes spells (R5). -/
def leNat : List Byte → Nat
  | [] => 0
  | b :: t => b.toNat + 256 * leNat t

/-- The first n bytes of a number, little-endian (R5). -/
def leBytes : Nat → Nat → List Byte
  | 0, _ => []
  | n + 1, v => BitVec.ofNat 8 v :: leBytes n (v / 256)

/-- The first n bytes of a list, zero-extended to n. -/
def takePad (n : Nat) (l : List Byte) : List Byte :=
  (l ++ List.replicate (n - l.length) 0).take n

/-- Bytes lo to lo + n − 1 of a list (zero where the list ends), as a little-endian number (R5). -/
def leField (l : List Byte) (lo n : Nat) : Nat := leNat (takePad n (l.drop lo))

/-- Round up to a multiple of m. -/
def roundUp (x m : Nat) : Nat := (x + m - 1) / m * m

/-- Ceiling division. -/
def ceilDiv (x m : Nat) : Nat := (x + m - 1) / m

/-- Signed value of the low bits of a number: two's complement of width w (R7). -/
def sext (w x : Nat) : Int := if x % 2 ^ w < 2 ^ (w - 1) then (x % 2 ^ w : Nat) else (x % 2 ^ w : Nat) - (2 ^ w : Nat)

/-- Population count of the low n bits. -/
def popcountTo : Nat → Nat → Nat
  | 0, _ => 0
  | n + 1, x => x % 2 + popcountTo n (x / 2)

/-- Population count of a bit vector. -/
def popcount {n : Nat} (x : BitVec n) : Nat := popcountTo n x.toNat

/-- The indices below n whose bit of x is set, ascending. -/
def bitsSet {n : Nat} (x : BitVec n) : List Nat := (List.range n).filter (fun i => x.getLsbD i)

/-- A word with bit i set. -/
def setBit {n : Nat} (x : BitVec n) (i : Nat) : BitVec n := x ||| BitVec.ofNat n (2 ^ i)

/-- A word with bit i cleared. -/
def clearBit {n : Nat} (x : BitVec n) (i : Nat) : BitVec n := x &&& ~~~ BitVec.ofNat n (2 ^ i)

end Sys2Proof
end

