-- ==== Sys2Proof/Syntax.lean ====
section
/-!
DEFINITION. The commands of the die: one constructor of Instr per row of the opcode table, with the row's operands.
The table gives no bits to any row, so the operands are those the spec's text gives the step (assumption 2).
-/
namespace Sys2Proof

/-- A core number 0 to 47 (R6). -/
abbrev CoreId := Fin 48

/-- A Halyard port H0 to H3 (R63). -/
abbrev PortId := Fin 4

/-- The two paths of a port that carry flits: the mainband and the UCIe sideband (R84). -/
inductive Path where
  | main
  | side
deriving DecidableEq, Repr

/-- What a partner asks for in the sideband parameter exchange, as far as Table 4-2 sorts it (R62). -/
inductive PartnerOption where
  | width (lanes : Nat)
  | rate (gts : Nat)
  | standardPackage
  | multiModule
  | adapter
  | retimer
  | lowPower
deriving DecidableEq, Repr

/-- The supported option that a port offers instead (R62). -/
inductive LinkOffer where
  | x64
  | x32
  | rate32
  | rate16
  | oneModule
  | raw
deriving DecidableEq, Repr

/-- How one attempt of a mainband training goes on: the partner asks for an option; the rate did not train; or it trained,
with the failing data lanes of each direction and whether the lanes meet in reverse order (R62, R63, R409). -/
inductive TrainResult where
  | asked (o : PartnerOption)
  | failed
  | trained (rx tx : Word) (reversed : Bool)
deriving DecidableEq, Repr

/-- The data lanes that fail in each direction of a port, as a retrain or a training tests them (R409). -/
structure Lanes where
  rx : Word
  tx : Word
deriving DecidableEq, Repr

/-- The operand for what a step takes from another die's answers: an image or granules read by colour 0, the delivery of a
report, the answers of lender dies (R314, R322, R340, R347, R358). It arrives over the ports in messages of its own and is
in State when the step runs, so the command brings none of it: there is one value (assumption 2). -/
inductive Carried where
  | overPorts
deriving DecidableEq, Repr

/-- What a partner's sideband message asks or reports (R64, Table 4-3). -/
inductive PartnerAsk where
  | train
  | retrain
  | down
deriving DecidableEq, Repr

/-- Why Skovi restarts (R320, R329, R352). -/
inductive RestartCause where
  | watchdog
  | parity
  | activation
deriving DecidableEq, Repr

/-- The six engine queues, in the order of QDEPTH and CU_CTRL (Table 9-2, R406). -/
inductive Engine where
  | ma0
  | ma1
  | ve
  | ru
  | su
  | mv
deriving DecidableEq, Repr

/-- The operand fields of an instruction's word 0; the row gives MAJ and MIN (Table 9-3). -/
structure Fields where
  d : BitVec 5
  a : BitVec 5
  b : BitVec 5
  x : BitVec 3
  imm : BitVec 32
deriving DecidableEq, Repr

/-- The acknowledgement and credit returns of a flit's trailer (Table 4-6). -/
structure Trailer where
  ackSeq : BitVec 10
  ackV : Bool
  freed : BitVec 48
deriving DecidableEq, Repr

/-- A flit: header (Table 4-4), payload of 224 bytes and trailer (Table 4-6). -/
structure Flit where
  ftype : BitVec 4
  vc : BitVec 2
  seq : BitVec 10
  dst : BitVec 6
  src : BitVec 6
  colour : BitVec 4
  op : BitVec 4
  len : BitVec 8
  first : Bool
  last : Bool
  rsvA : BitVec 2
  addr : Dla
  tag : BitVec 12
  win : BitVec 8
  winv : Bool
  hops : BitVec 3
  status : BitVec 4
  ll : Bool
  rsvB : BitVec 11
  payload : List Byte
  trailer : Trailer
  rsvT : BitVec 5
  crc : Word
deriving DecidableEq, Repr

/-- A message: the header facts of its flits and its payload stream (R66, R68, R78).
bad says that it broke a rule of R68 after the bytes that data holds. -/
structure Msg where
  src : BitVec 6
  dst : BitVec 6
  colour : BitVec 4
  op : BitVec 4
  addr : Dla
  tag : BitVec 12
  win : BitVec 8
  winv : Bool
  status : BitVec 4
  ll : Bool
  data : List Byte
  bad : Bool
deriving DecidableEq, Repr

/-- A Pennant's payload (Table 5-2). rsv gathers every reserved bit of the table. -/
structure Pennant where
  kind : BitVec 3
  part : BitVec 16
  stepping : Byte
  role : BitVec 2
  assigner : Bool
  idV : Bool
  dieId : BitVec 6
  health : BitVec 4
  uid : Word
  ifLevel : BitVec 16
  fwBuild : BitVec 32
  nonce : BitVec 16
  epoch : BitVec 32
  mask : Word
  route : BitVec 192
  peerUid : Word
  leaderUid : Word
  targetId : BitVec 6
  targetV : Bool
  port : BitVec 2
  rsv : BitVec 128
deriving DecidableEq, Repr

/-- A range of bytes: first DLA and length. -/
structure Range where
  base : Nat
  len : Nat
deriving DecidableEq, Repr

/-- A region the image declares for launch: range and attribute byte as in Table 7-4 (byte 8). -/
structure DeclRegion where
  range : Range
  attrs : Byte
deriving DecidableEq, Repr

/-- A window the image declares: number, owner core, range, occupancy record and senders with shares (R163). -/
structure DeclWindow where
  win : BitVec 8
  owner : CoreId
  range : Range
  occ : Nat
  senders : List (BitVec 6 × BitVec 6 × BitVec 20)
deriving DecidableEq, Repr

/-- A credit entry the image declares for a sender core: destination die, window, its range (R163). -/
structure DeclCredit where
  core : CoreId
  die : BitVec 6
  win : BitVec 8
  range : Range
deriving DecidableEq, Repr

/-- A declared booking: index, and the 16 bytes of Table 3-4 with STROKE counted from the launch stroke. -/
structure DeclBooking where
  core : Option CoreId
  index : Byte
  bits : BitVec 128
deriving DecidableEq, Repr

/-- A declared counter configuration: offset among the partition's counters, the 32 bytes of Table 13-2. -/
structure DeclCounter where
  index : BitVec 7
  bits : BitVec 256
deriving DecidableEq, Repr

/-- A borrowable weight range of the image (R340). -/
structure DeclWeights where
  range : Range
  borrowable : Bool
deriving DecidableEq, Repr

/-- The share of one die role of an image, decoded from the manifest (R338, R348). -/
structure Role where
  number : BitVec 6
  cores : BitVec 48
  layers : BitVec 12
  minWidth : Nat
  shareSha : BitVec 384
  stepTime : Nat
  image : List DeclWeights
  state : List Range
  initCm : List (Nat × List Byte)
  directory : Option Nat
  entries : List (CoreId × Dla)
  regions : List DeclRegion
  windows : List DeclWindow
  credits : List DeclCredit
  counters : List DeclCounter
  bookings : List DeclBooking
  arrays : List (CoreId × Fin 2)
  queues : List (BitVec 6)
  indices : List (BitVec 4)
  replica : Option (BitVec 6)
deriving DecidableEq, Repr

/-- A decoded manifest (R338). The spec gives no byte format: the bytes are carried beside the decoded facts. -/
structure Manifest where
  bytes : List Byte
  sig : List Byte
  digest : BitVec 256
  modelDigest : BitVec 256
  numerics : BitVec 32
  accepts : List (BitVec 16 × Byte × BitVec 16)
  roles : List Role
deriving DecidableEq, Repr

/-- One lender's answer to LEND_REQ: the granules it reserved (R340, R321). -/
structure Lend where
  die : BitVec 6
  granules : List Nat
deriving DecidableEq, Repr

/-- The result of an array's self-test or retest: bad physical columns, row-path fault (R217, R218). -/
structure ArrayReport where
  core : CoreId
  array : Fin 2
  bad : BitVec 32
  rowFault : Bool
deriving DecidableEq, Repr

/-- What a boot stage reports: failed layers and cores, failed rows of memory as the model numbers them, array self-tests, failure
of the stage (R123, R386, R387). -/
structure BootReport where
  layersFailed : BitVec 12
  coresFailed : BitVec 48
  rows : List Nat
  arrays : List ArrayReport
  ok : Bool
deriving DecidableEq, Repr

/-- One constructor per row of the opcode table. -/
inductive Instr where
  /-- MAST_FRAME (R42). -/
  | mastFrame (src : BitVec 6) (colour : BitVec 4) (slot : Slot)
  /-- HOLDOVER_ENTRY (R44). -/
  | holdoverEntry
  /-- EXTRAPOLATED_STROKE (R47). -/
  | extrapolatedStroke
  /-- MAST_LOST_ENTRY (R45). -/
  | mastLostEntry
  /-- PERIOD_CHANGE_EFFECTIVE (R61). -/
  | periodChangeEffective
  /-- BOOKING_FIRE (R56). -/
  | bookingFire
  /-- REFRESH_SLICE (R114). -/
  | refreshSlice (v : Fin 48) (upper : Bool)
  /-- PORT_ENABLE (R63). -/
  | portEnable (p : PortId)
  /-- TRAINING_COMPLETE (R410). -/
  | trainingComplete (p : PortId) (r : TrainResult)
  /-- INIT_RESEND (R64). -/
  | initResend (p : PortId) (path : Path)
  /-- INIT_RECEIVE (R65). -/
  | initReceive (p : PortId) (path : Path) (counts : Word) (echo : Bool)
  /-- MSG_FLIT_RECEIVE (R79). -/
  | msgFlitReceive (p : PortId) (path : Path) (flit : Flit)
  /-- NAK_RECEIVE (R80). -/
  | nakReceive (p : PortId) (path : Path) (seq : BitVec 10) (t : Trailer)
  /-- NOP_RECEIVE (R80). -/
  | nopReceive (p : PortId) (path : Path) (t : Trailer)
  /-- REPLAY_TIMER (R80). -/
  | replayTimer (p : PortId) (path : Path)
  /-- ACK_TRAILER_DUE (R72). -/
  | ackTrailerDue (p : PortId) (path : Path)
  /-- IDLE_NOP (R92). -/
  | idleNop (p : PortId)
  /-- FLIT_TRANSMIT (R75). -/
  | flitTransmit (p : PortId) (path : Path)
  /-- RETRAIN_ENTRY (R81). -/
  | retrainEntry (p : PortId)
  /-- RETRAIN_ATTEMPT_DONE (R81). -/
  | retrainAttemptDone (p : PortId) (ok : Bool) (lanes : Lanes)
  /-- LINK_DOWN (R87). -/
  | linkDown (p : PortId)
  /-- QUEUED_MESSAGE_REROUTE (R87). -/
  | queuedMessageReroute
  /-- SIDEBAND_UP (R85). -/
  | sidebandUp (p : PortId)
  /-- SIDEBAND_DOWN (R66). -/
  | sidebandDown (p : PortId)
  /-- SIDEBAND_SILENCE (R66). -/
  | sidebandSilence (p : PortId)
  /-- LINK_STATE_MESSAGE (R92). -/
  | linkStateMessage (p : PortId)
  /-- VC3_PATH_MOVE (R85). -/
  | vc3PathMove (p : PortId)
  /-- REQUEST_TIMEOUT (R88). -/
  | requestTimeout (tag : BitVec 12)
  /-- WRITE_MESSAGE (R78). -/
  | writeMessage (m : Msg)
  /-- READ_MESSAGE (R78). -/
  | readMessage (m : Msg)
  /-- LEDGER_MESSAGE (R220). -/
  | ledgerMessage (m : Msg)
  /-- READ_DATA_RECEIVE (R88). -/
  | readDataReceive (m : Msg)
  /-- WRITE_ACK_RECEIVE (R143). -/
  | writeAckReceive (m : Msg)
  /-- FENCE_PROBE (R144). -/
  | fenceProbe (m : Msg)
  /-- CTRL_FLIT_RECEIVE (R71). -/
  | ctrlFlitReceive (m : Msg)
  /-- PENNANT_LINK_RECEIVE (R93). -/
  | pennantLinkReceive (p : PortId) (ll : Bool) (pn : Pennant)
  /-- CONFIRM_REQ_RECEIVE (R94). -/
  | confirmReqReceive (p : PortId) (src : BitVec 6) (pn : Pennant)
  /-- CONFIRM_ACK_RECEIVE (R94). -/
  | confirmAckReceive (p : PortId) (src : BitVec 6) (pn : Pennant)
  /-- FENCE_PENNANT_RECEIVE (R104). -/
  | fencePennantReceive (pn : Pennant)
  /-- REINSTATE_PENNANT_RECEIVE (R104). -/
  | reinstatePennantReceive (pn : Pennant)
  /-- PENNANT_PERIODIC_SEND (R91). -/
  | pennantPeriodicSend (p : PortId)
  /-- PENNANT_TRIGGERED_SEND (R91). -/
  | pennantTriggeredSend (p : PortId)
  /-- PARTNER_SILENCE (R92). -/
  | partnerSilence (p : PortId)
  /-- HANDSHAKE_TIMEOUT (R94). -/
  | handshakeTimeout (id : BitVec 6)
  /-- CONFIRM_HOLD_EXPIRY (R94). -/
  | confirmHoldExpiry (id : BitVec 6)
  /-- EPOCH_INCREMENT (R101). -/
  | epochIncrement
  /-- ASSIGNER_TAKEOVER (R97). -/
  | assignerTakeover
  /-- ID_ASSIGN_ROUND (R97). -/
  | idAssignRound
  /-- ROUTE_RECOMPUTE (R99). -/
  | routeRecompute
  /-- CORE_POWER_UP_DONE (R126). -/
  | corePowerUpDone (c : CoreId)
  /-- LAYER_POWER_UP_DONE (R126). -/
  | layerPowerUpDone (l : Fin 12)
  /-- ICACHE_FILL (R180). -/
  | icacheFill (c : CoreId)
  /-- ADD (R181). -/
  | add (c : CoreId) (f : Fields)
  /-- SUB (R181). -/
  | sub (c : CoreId) (f : Fields)
  /-- AND (R181). -/
  | and (c : CoreId) (f : Fields)
  /-- OR (R181). -/
  | or (c : CoreId) (f : Fields)
  /-- XOR (R181). -/
  | xor (c : CoreId) (f : Fields)
  /-- SHL (R181). -/
  | shl (c : CoreId) (f : Fields)
  /-- SHR (R181). -/
  | shr (c : CoreId) (f : Fields)
  /-- SRA (R181). -/
  | sra (c : CoreId) (f : Fields)
  /-- MIN (R181). -/
  | min (c : CoreId) (f : Fields)
  /-- MAX (R181). -/
  | max (c : CoreId) (f : Fields)
  /-- MINU (R181). -/
  | minu (c : CoreId) (f : Fields)
  /-- MAXU (R181). -/
  | maxu (c : CoreId) (f : Fields)
  /-- SEQ (R181). -/
  | seq (c : CoreId) (f : Fields)
  /-- SLT (R181). -/
  | slt (c : CoreId) (f : Fields)
  /-- SLTU (R181). -/
  | sltu (c : CoreId) (f : Fields)
  /-- LIH (R181). -/
  | lih (c : CoreId) (f : Fields)
  /-- SLD (R183). -/
  | sld (c : CoreId) (f : Fields)
  /-- SST (R183). -/
  | sst (c : CoreId) (f : Fields)
  /-- SLDC (R183). -/
  | sldc (c : CoreId) (f : Fields)
  /-- BEQ (R182). -/
  | beq (c : CoreId) (f : Fields)
  /-- BNE (R182). -/
  | bne (c : CoreId) (f : Fields)
  /-- BLT (R182). -/
  | blt (c : CoreId) (f : Fields)
  /-- BGE (R182). -/
  | bge (c : CoreId) (f : Fields)
  /-- BLTU (R182). -/
  | bltu (c : CoreId) (f : Fields)
  /-- BGEU (R182). -/
  | bgeu (c : CoreId) (f : Fields)
  /-- JMP (R182). -/
  | jmp (c : CoreId) (f : Fields)
  /-- JMPR (R182). -/
  | jmpr (c : CoreId) (f : Fields)
  /-- LOOP (R182). -/
  | loop (c : CoreId) (f : Fields)
  /-- CSRR (R177). -/
  | csrr (c : CoreId) (f : Fields)
  /-- CSRW (R177). -/
  | csrw (c : CoreId) (f : Fields)
  /-- WAIT_ALL (R189). -/
  | waitAll (c : CoreId) (f : Fields)
  /-- WAIT_ANY (R189). -/
  | waitAny (c : CoreId) (f : Fields)
  /-- WAIT_BAR (R268). -/
  | waitBar (c : CoreId) (f : Fields)
  /-- WAIT_BOOK (R58). -/
  | waitBook (c : CoreId) (f : Fields)
  /-- WAIT_FILL (R189). -/
  | waitFill (c : CoreId) (f : Fields)
  /-- WAIT_COMPLETE (R190). -/
  | waitComplete (c : CoreId)
  /-- SIGNAL (R273). -/
  | signal (c : CoreId) (f : Fields)
  /-- ARRIVE (R264). -/
  | arrive (c : CoreId) (f : Fields)
  /-- FENCE_C (R145). -/
  | fenceC (c : CoreId) (f : Fields)
  /-- FENCE_D (R145). -/
  | fenceD (c : CoreId) (f : Fields)
  /-- FENCE_P (R145). -/
  | fenceP (c : CoreId) (f : Fields)
  /-- FENCE_COMPLETE (R146). -/
  | fenceComplete (c : CoreId)
  /-- CINV (R149). -/
  | cinv (c : CoreId) (f : Fields)
  /-- BOOK (R192). -/
  | book (c : CoreId) (f : Fields)
  /-- BOOKRD (R192). -/
  | bookrd (c : CoreId) (f : Fields)
  /-- BOOKRDS (R192). -/
  | bookrds (c : CoreId) (f : Fields)
  /-- STEP_BEGIN (R194). -/
  | stepBegin (c : CoreId) (f : Fields)
  /-- STEP_END (R196). -/
  | stepEnd (c : CoreId) (f : Fields)
  /-- HALT (R184). -/
  | halt (c : CoreId) (f : Fields)
  /-- HALT_SETTLE (R184). -/
  | haltSettle (c : CoreId)
  /-- MAT_ACC (R210). -/
  | matAcc (c : CoreId) (f : Fields) (w1 : Word)
  /-- MAT_FULL (R211). -/
  | matFull (c : CoreId) (f : Fields) (w1 : Word)
  /-- MACLR (R212). -/
  | maclr (c : CoreId) (f : Fields)
  /-- MADRAIN (R212). -/
  | madrain (c : CoreId) (f : Fields)
  /-- MAADD (R212). -/
  | maadd (c : CoreId) (f : Fields)
  /-- MASTAT (R212). -/
  | mastat (c : CoreId) (f : Fields)
  /-- MA_TILE_START (R216). -/
  | maTileStart (c : CoreId) (a : Fin 2)
  /-- MA_DRAIN (R216). -/
  | maDrain (c : CoreId) (a : Fin 2)
  /-- SETVL (R224). -/
  | setvl (c : CoreId) (f : Fields)
  /-- VLD (R234). -/
  | vld (c : CoreId) (f : Fields)
  /-- VST (R234). -/
  | vst (c : CoreId) (f : Fields)
  /-- VMOV (R228). -/
  | vmov (c : CoreId) (f : Fields)
  /-- VADD (R229). -/
  | vadd (c : CoreId) (f : Fields)
  /-- VSUB (R229). -/
  | vsub (c : CoreId) (f : Fields)
  /-- VMUL (R229). -/
  | vmul (c : CoreId) (f : Fields)
  /-- VFMA (R229). -/
  | vfma (c : CoreId) (f : Fields)
  /-- VDIV (R229). -/
  | vdiv (c : CoreId) (f : Fields)
  /-- VSQRT (R229). -/
  | vsqrt (c : CoreId) (f : Fields)
  /-- VMIN (R231). -/
  | vmin (c : CoreId) (f : Fields)
  /-- VMAX (R231). -/
  | vmax (c : CoreId) (f : Fields)
  /-- VAND (R228). -/
  | vand (c : CoreId) (f : Fields)
  /-- VOR (R228). -/
  | vor (c : CoreId) (f : Fields)
  /-- VXOR (R228). -/
  | vxor (c : CoreId) (f : Fields)
  /-- VSHL (R228). -/
  | vshl (c : CoreId) (f : Fields)
  /-- VSHR (R228). -/
  | vshr (c : CoreId) (f : Fields)
  /-- VCMP (R228). -/
  | vcmp (c : CoreId) (f : Fields)
  /-- VMASK (R228). -/
  | vmask (c : CoreId) (f : Fields)
  /-- VPOPC (R228). -/
  | vpopc (c : CoreId) (f : Fields)
  /-- VCVT (R230). -/
  | vcvt (c : CoreId) (f : Fields)
  /-- VCOMPRESS (R235). -/
  | vcompress (c : CoreId) (f : Fields)
  /-- VEXPAND (R235). -/
  | vexpand (c : CoreId) (f : Fields)
  /-- VSCAN (R236). -/
  | vscan (c : CoreId) (f : Fields)
  /-- VSCANSEG (R237). -/
  | vscanseg (c : CoreId) (f : Fields)
  /-- VTRN (R239). -/
  | vtrn (c : CoreId) (f : Fields)
  /-- VACC (R238). -/
  | vacc (c : CoreId) (f : Fields)
  /-- VE_START (R243). -/
  | veStart (c : CoreId)
  /-- RCLR (R241). -/
  | rclr (c : CoreId) (f : Fields)
  /-- RSUM (R240). -/
  | rsum (c : CoreId) (f : Fields)
  /-- RRD (R241). -/
  | rrd (c : CoreId) (f : Fields)
  /-- RXST (R242). -/
  | rxst (c : CoreId) (f : Fields)
  /-- RXADD (R242). -/
  | rxadd (c : CoreId) (f : Fields)
  /-- RMAX (R241). -/
  | rmax (c : CoreId) (f : Fields)
  /-- RMIN (R241). -/
  | rmin (c : CoreId) (f : Fields)
  /-- ROR (R241). -/
  | ror (c : CoreId) (f : Fields)
  /-- RU_START (R243). -/
  | ruStart (c : CoreId)
  /-- SUCFG (R247). -/
  | sucfg (c : CoreId) (f : Fields)
  /-- SUTAB (R251). -/
  | sutab (c : CoreId) (f : Fields)
  /-- SUFLT (R255). -/
  | suflt (c : CoreId) (f : Fields)
  /-- SUSEL (R249). -/
  | susel (c : CoreId) (f : Fields)
  /-- SUTOPK (R250). -/
  | sutopk (c : CoreId) (f : Fields)
  /-- SUSCAN (R254). -/
  | suscan (c : CoreId) (f : Fields) (w1 : Word)
  /-- SU_START (R260). -/
  | suStart (c : CoreId)
  /-- ENGINE_INSTRUCTION_COMPLETE (R173). -/
  | engineInstructionComplete (c : CoreId) (e : Engine)
  /-- MVCFG (R153). -/
  | mvcfg (c : CoreId) (f : Fields)
  /-- MVPOST (R154). -/
  | mvpost (c : CoreId) (f : Fields)
  /-- MVREL (R166). -/
  | mvrel (c : CoreId) (f : Fields)
  /-- DESCRIPTOR_START (R152). -/
  | descriptorStart (c : CoreId) (ch : Fin 16)
  /-- MOVER_PIECE_START (R160). -/
  | moverPieceStart (c : CoreId) (ch : Fin 16)
  /-- DESCRIPTOR_COMPLETE (R161). -/
  | descriptorComplete (c : CoreId) (ch : Fin 16)
  /-- DESCRIPTOR_HALT (R162). -/
  | descriptorHalt (c : CoreId) (ch : Fin 16)
  /-- WINDOW_GRANT (R165). -/
  | windowGrant (w : BitVec 8)
  /-- WINDOW_GRANT_SLOT (R164). -/
  | windowGrantSlot (src : BitVec 6) (colour : BitVec 4) (slot : Slot)
  /-- WINDOW_RELEASE_SLOT (R168). -/
  | windowReleaseSlot (src : BitVec 6) (colour : BitVec 4) (slot : Slot)
  /-- PIECE_PERFORMED (R166). -/
  | piecePerformed
  /-- BARRIER_ARRIVAL_SLOT (R265). -/
  | barrierArrivalSlot (c : CoreId) (colour : BitVec 4) (slot : Slot)
  /-- COUNTER_LOCAL_COMPLETE (R266). -/
  | counterLocalComplete (n : Fin 128)
  /-- DIE_ARRIVAL_SLOT (R269). -/
  | dieArrivalSlot (src : BitVec 6) (colour : BitVec 4) (slot : Slot)
  /-- HOIST_SLOT_MEMBER (R270). -/
  | hoistSlotMember (src : BitVec 6) (colour : BitVec 4) (slot : Slot)
  /-- HOIST_RECEIVE (R268). -/
  | hoistReceive (c : CoreId) (slot : Slot)
  /-- SIGNAL_SLOT_RECEIVE (R274). -/
  | signalSlotReceive (src : BitVec 6) (colour : BitVec 4) (slot : Slot)
  /-- INTERRUPT_COALESCE (R286). -/
  | interruptCoalesce
  /-- INTERRUPT_SEND (R287). -/
  | interruptSend
  /-- PARTITION_DRAIN_END (R292). -/
  | partitionDrainEnd (colour : BitVec 4)
  /-- MB_WRITE (R305). -/
  | mbWrite (m : Msg)
  /-- MB_READ (R304). -/
  | mbRead (m : Msg)
  /-- REQ_TAIL_WRITE (R307). -/
  | reqTailWrite (mb : Fin 16) (v : Word)
  /-- RSP_HEAD_WRITE (R307). -/
  | rspHeadWrite (mb : Fin 16) (v : Word)
  /-- DOORBELL (R317). -/
  | doorbell (mb : Fin 16)
  /-- MAILBOX_POLL (R317). -/
  | mailboxPoll (mb : Fin 16)
  /-- COMMAND_ACCEPT (R310). -/
  | commandAccept (mb : Fin 16)
  /-- MB_NOTIFY (R317). -/
  | mbNotify (mb : Fin 16)
  /-- MB_POST (R397). -/
  | mbPost (mb : Fin 16) (slot : BitVec 6)
  /-- HEARTBEAT_TICK (R319). -/
  | heartbeatTick
  /-- SKOVI_RESTART (R320). -/
  | skoviRestart (cause : RestartCause)
  /-- SKOVI_RESTART_DONE (R320). -/
  | skoviRestartDone
  /-- IDENTIFY (R327). -/
  | identify (mb : Fin 16) (i : BitVec 16)
  /-- FW_INFO (R327). -/
  | fwInfo (mb : Fin 16) (i : BitVec 16)
  /-- FW_STAGE (R329). -/
  | fwStage (mb : Fin 16) (i : BitVec 16) (image : Carried)
  /-- FW_ACTIVATE (R329). -/
  | fwActivate (mb : Fin 16) (i : BitVec 16)
  /-- FW_ACTIVATE_FALLBACK (R329). -/
  | fwActivateFallback
  /-- DIE_STATE (R327). -/
  | dieState (mb : Fin 16) (i : BitVec 16)
  /-- WARM_RESET (R330). -/
  | warmReset (mb : Fin 16) (i : BitVec 16)
  /-- WARM_RESET_PERFORM (R330). -/
  | warmResetPerform
  /-- MAST_CONFIG (R331). -/
  | mastConfig (mb : Fin 16) (i : BitVec 16)
  /-- MAST_STATUS (R331). -/
  | mastStatus (mb : Fin 16) (i : BitVec 16)
  /-- LINK_STATUS (R327). -/
  | linkStatus (mb : Fin 16) (i : BitVec 16)
  /-- LINK_RESET (R87). -/
  | linkReset (mb : Fin 16) (i : BitVec 16)
  /-- PEER_TABLE (R328). -/
  | peerTable (mb : Fin 16) (i : BitVec 16) (sent : Carried)
  /-- DIE_FENCE (R332). -/
  | dieFence (mb : Fin 16) (i : BitVec 16)
  /-- DIE_REINSTATE (R332). -/
  | dieReinstate (mb : Fin 16) (i : BitVec 16)
  /-- PART_CREATE (R333). -/
  | partCreate (mb : Fin 16) (i : BitVec 16)
  /-- PART_DESTROY (R334). -/
  | partDestroy (mb : Fin 16) (i : BitVec 16)
  /-- PART_RESET (R290). -/
  | partReset (mb : Fin 16) (i : BitVec 16)
  /-- PART_QUERY (R327). -/
  | partQuery (mb : Fin 16) (i : BitVec 16)
  /-- QOS_SET (R296). -/
  | qosSet (mb : Fin 16) (i : BitVec 16)
  /-- POWER_PLAN (R335). -/
  | powerPlan (mb : Fin 16) (i : BitVec 16)
  /-- TELEMETRY (R327). -/
  | telemetry (mb : Fin 16) (i : BitVec 16) (sent : Carried)
  /-- ERRLOG_READ (R356). -/
  | errlogRead (mb : Fin 16) (i : BitVec 16) (sent : Carried)
  /-- ERRLOG_CLEAR (R356). -/
  | errlogClear (mb : Fin 16) (i : BitVec 16)
  /-- ARRAY_MAP (R327). -/
  | arrayMap (mb : Fin 16) (i : BitVec 16)
  /-- DEBUG_CHALLENGE (R336). -/
  | debugChallenge (mb : Fin 16) (i : BitVec 16)
  /-- DEBUG_UNLOCK (R336). -/
  | debugUnlock (mb : Fin 16) (i : BitVec 16)
  /-- DEBUG_CHALLENGE_EXPIRY (R336). -/
  | debugChallengeExpiry
  /-- IMAGE_STAGE (R338). -/
  | imageStage (mb : Fin 16) (i : BitVec 16) (man : Option Manifest) (share lends : Carried)
  /-- IMAGE_COMMIT (R343). -/
  | imageCommit (mb : Fin 16) (i : BitVec 16)
  /-- IMAGE_QUERY (R327). -/
  | imageQuery (mb : Fin 16) (i : BitVec 16)
  /-- IMAGE_EVICT (R343). -/
  | imageEvict (mb : Fin 16) (i : BitVec 16)
  /-- RQ_CREATE (R344). -/
  | rqCreate (mb : Fin 16) (i : BitVec 16)
  /-- RQ_BIND (R345). -/
  | rqBind (mb : Fin 16) (i : BitVec 16)
  /-- JOB_LAUNCH (R348). -/
  | jobLaunch (mb : Fin 16) (i : BitVec 16) (checks : Carried) (retests : List ArrayReport)
  /-- JOB_ABORT (R350). -/
  | jobAbort (mb : Fin 16) (i : BitVec 16)
  /-- JOB_STATUS (R350). -/
  | jobStatus (mb : Fin 16) (i : BitVec 16)
  /-- INDEX_ATTACH (R346). -/
  | indexAttach (mb : Fin 16) (i : BitVec 16)
  /-- INDEX_DETACH (R346). -/
  | indexDetach (mb : Fin 16) (i : BitVec 16)
  /-- INTR_CONFIG (R284). -/
  | intrConfig (mb : Fin 16) (i : BitVec 16)
  /-- REPLAY_POLICY (R349). -/
  | replayPolicy (mb : Fin 16) (i : BitVec 16)
  /-- PART_TELEMETRY (R327). -/
  | partTelemetry (mb : Fin 16) (i : BitVec 16) (sent : Carried)
  /-- PEER_REPLY (R322). -/
  | peerReply (m : Msg)
  /-- LEND_REQ (R340). -/
  | lendReq (m : Msg)
  /-- LEND_RELEASE (R342). -/
  | lendRelease (m : Msg)
  /-- AUDIT_SNAP (R171). -/
  | auditSnap (m : Msg)
  /-- LAUNCH_CHECK (R347). -/
  | launchCheck (m : Msg)
  /-- JOB_EVENT (R323). -/
  | jobEvent (m : Msg)
  /-- PEER_REQUEST_RESEND (R322). -/
  | peerRequestResend (die : BitVec 6) (seqno : BitVec 16)
  /-- STEP_REPAIR (R357). -/
  | stepRepair (colour : BitVec 4) (refetch : Carried)
  /-- CAPQ_POP (R396). -/
  | capqPop
  /-- HL_CTRL_RESET (R400). -/
  | hlCtrlReset (p : PortId)
  /-- HL_CTRL_DISABLE (R400). -/
  | hlCtrlDisable (p : PortId)
  /-- HL_CTRL_ENABLE (R400). -/
  | hlCtrlEnable (p : PortId)
  /-- MAST_PERIOD_WRITE (R401). -/
  | mastPeriodWrite (period : Word) (effective : Word)
  /-- DBG_READ (R403). -/
  | dbgRead (ctrl : Word)
  /-- DBG_WRITE (R403). -/
  | dbgWrite (ctrl : Word)
  /-- CU_RUN (R406). -/
  | cuRun (c : CoreId)
  /-- CU_STOP (R406). -/
  | cuStop (c : CoreId)
  /-- CU_CORE_RESET (R198). -/
  | cuCoreReset (c : CoreId)
  /-- CU_ENGINE_RESET (R198). -/
  | cuEngineReset (c : CoreId) (e : BitVec 3)
  /-- CU_REPLAY (R406). -/
  | cuReplay (c : CoreId)
  /-- REGISTER_WRITE (R393). -/
  | registerWrite (addr : Dla) (data : List Byte)
  /-- PORST_ASSERT (R374). -/
  | porstAssert
  /-- PORST_RELEASE (R382). -/
  | porstRelease (testMode : Bool)
  /-- FW_REQ (R383). -/
  | fwReq (p : PortId) (m : Msg)
  /-- FW_DATA (R383). -/
  | fwData (p : PortId) (m : Msg)
  /-- FW_REQ_RESEND (R383). -/
  | fwReqResend
  /-- BOOT_SOURCE_RETRY (R386). -/
  | bootSourceRetry
  /-- BOOT_STAGE_DONE (R382). -/
  | bootStageDone (r : BootReport)
  /-- REFCLK_LOSS (R373). -/
  | refclkLoss
  /-- REFCLK_RETURN (R373). -/
  | refclkReturn
  /-- THERMAL_UPDATE (R377). -/
  | thermalUpdate (temps : List (BitVec 16)) (power : BitVec 16)
  /-- THERMTRIP (R380). -/
  | thermtrip (sensor : Fin 64)
  /-- RAILS_RETURN (R381). -/
  | railsReturn
  /-- BYPASS (R390). -/
  | bypass
  /-- IDCODE (R390). -/
  | idcode
  /-- SAMPLE (R390). -/
  | sample
  /-- BOOTSTAT (R390). -/
  | bootstat
  /-- PRELOAD (R390). -/
  | preload
  /-- EXTEST (R390). -/
  | extest
  /-- HLLOOP (R390). -/
  | hlloop
  /-- STACKSEL (R390). -/
  | stacksel (l : Fin 12)
  /-- MBIST (R390). -/
  | mbist
  /-- CORESCAN (R390). -/
  | corescan
  /-- PARTNER_TRAINING_REQUEST (R64). -/
  | partnerTrainingRequest (p : PortId) (ask : PartnerAsk)
  /-- CONSTANT_CACHE_FILL (R183). -/
  | constantCacheFill (c : CoreId)
  /-- DEBUG_ACCESS_COMPLETE (R403). -/
  | debugAccessComplete
  /-- ILLEGAL_OPCODE (R179). -/
  | illegalOpcode (c : CoreId) (w0 : Word) (w1 : Word)
  /-- UNKNOWN_OPCODE_COMMAND (R313). -/
  | unknownOpcodeCommand (mb : Fin 16) (i : BitVec 16)
deriving DecidableEq, Repr

end Sys2Proof
end

