-- ==== Sys2Proof/WellFormed.lean ====
section
/-!
DEFINITION. Which commands a wire or pin can carry: the lengths that the spec fixes for an operand's byte and number lists.
The rest of an operand is bounded by its type.
-/
namespace Sys2Proof

/-- A flit carries a payload of 224 bytes whatever LEN says (Table 4-4, R66). -/
def Flit.wf (f : Flit) : Bool := f.payload.length == 224

/-- The sampled temperatures are one per sensor: 48 cores, 12 layers and 4 ports (R376). -/
def wfTemps (l : List (BitVec 16)) : Bool := l.length == 64

/-- A register write carries at least one byte (R393). -/
def wfBytes (l : List Byte) : Bool := !l.isEmpty

/-- A command that its wire, pin or port can carry. -/
def Instr.wf : Instr → Bool
  | .msgFlitReceive _ _ f => f.wf
  | .thermalUpdate t _ => wfTemps t
  | .registerWrite _ d => wfBytes d
  | _ => true

end Sys2Proof
end

