-- ==== Sys2Proof/Decode.lean ====
section
/-!
DEFINITION. The command that a word spells by the table's bits, and the decoder of core instructions. The opcode table gives
no bits to any row (every row's fields list is empty), so no word spells a command and no encoder exists (assumption 2). The
words of a core program are decoded by Tables 9-3 and 9-4 and the tables of minors.
-/
namespace Sys2Proof

/-- The command spelled by a word of the table's bits: none, since no row gives bits. -/
def decodeTableWord (_nbits _w : Nat) : Option Instr := none

/-! ### Core instructions (R178, R179) -/

/-- Bits lo + n − 1 to lo of a word, as a number. -/
def wordBits (w : Word) (lo n : Nat) : Nat := w.toNat / 2 ^ lo % 2 ^ n

/-- The major opcode of word 0 (Table 9-3). -/
def majOf (w : Word) : Nat := wordBits w 58 6
/-- The minor opcode of word 0 (Table 9-3). -/
def minOf (w : Word) : Nat := wordBits w 50 8

/-- The fields of word 0 (Table 9-3). -/
def Fields.ofWord (w : Word) : Fields :=
  { d := BitVec.ofNat 5 (wordBits w 45 5), a := BitVec.ofNat 5 (wordBits w 40 5), b := BitVec.ofNat 5 (wordBits w 35 5)
    x := BitVec.ofNat 3 (wordBits w 32 3), imm := BitVec.ofNat 32 (wordBits w 0 32) }

/-- Whether a major opcode has the long form: MAT and SUL (Table 9-4). -/
def longMaj (maj : Nat) : Bool := maj == 0x11 || maj == 0x21

/-- The minors of major 0x01 SCALAR (Table 9-8). -/
def decodeScalar (c : CoreId) (f : Fields) : Nat → Option Instr
  | 0x00 => some (.add c f)
  | 0x01 => some (.sub c f)
  | 0x02 => some (.and c f)
  | 0x03 => some (.or c f)
  | 0x04 => some (.xor c f)
  | 0x05 => some (.shl c f)
  | 0x06 => some (.shr c f)
  | 0x07 => some (.sra c f)
  | 0x08 => some (.min c f)
  | 0x09 => some (.max c f)
  | 0x0A => some (.minu c f)
  | 0x0B => some (.maxu c f)
  | 0x0C => some (.seq c f)
  | 0x0D => some (.slt c f)
  | 0x0E => some (.sltu c f)
  | 0x0F => some (.lih c f)
  | _ => none

/-- The minors of major 0x02 SMEM (Table 9-8). -/
def decodeSmem (c : CoreId) (f : Fields) : Nat → Option Instr
  | 0x00 => some (.sld c f)
  | 0x01 => some (.sst c f)
  | 0x02 => some (.sldc c f)
  | _ => none

/-- The minors of major 0x03 BRANCH (Table 9-8). -/
def decodeBranch (c : CoreId) (f : Fields) : Nat → Option Instr
  | 0x00 => some (.beq c f)
  | 0x01 => some (.bne c f)
  | 0x02 => some (.blt c f)
  | 0x03 => some (.bge c f)
  | 0x04 => some (.bltu c f)
  | 0x05 => some (.bgeu c f)
  | 0x08 => some (.jmp c f)
  | 0x09 => some (.jmpr c f)
  | 0x0A => some (.loop c f)
  | _ => none

/-- The minors of major 0x04 CSR (Table 9-8). -/
def decodeCsr (c : CoreId) (f : Fields) : Nat → Option Instr
  | 0x00 => some (.csrr c f)
  | 0x01 => some (.csrw c f)
  | _ => none

/-- The minors of major 0x05 WAIT (Table 9-6). -/
def decodeWait (c : CoreId) (f : Fields) : Nat → Option Instr
  | 0x00 => some (.waitAll c f)
  | 0x01 => some (.waitAny c f)
  | 0x02 => some (.waitBar c f)
  | 0x03 => some (.waitBook c f)
  | 0x04 => some (.waitFill c f)
  | _ => none

/-- The minors of major 0x06 SYNC (R271). -/
def decodeSync (c : CoreId) (f : Fields) : Nat → Option Instr
  | 0x00 => some (.signal c f)
  | 0x01 => some (.arrive c f)
  | _ => none

/-- The minors of major 0x07 ORDER (Table 9-8). -/
def decodeOrder (c : CoreId) (f : Fields) : Nat → Option Instr
  | 0x00 => some (.fenceC c f)
  | 0x01 => some (.fenceD c f)
  | 0x02 => some (.fenceP c f)
  | 0x03 => some (.cinv c f)
  | _ => none

/-- The minors of major 0x08 BOOK (Table 9-8). -/
def decodeBook (c : CoreId) (f : Fields) : Nat → Option Instr
  | 0x00 => some (.book c f)
  | 0x01 => some (.bookrd c f)
  | 0x02 => some (.bookrds c f)
  | _ => none

/-- The minors of major 0x09 STEP (Table 9-8). -/
def decodeStep (c : CoreId) (f : Fields) : Nat → Option Instr
  | 0x00 => some (.stepBegin c f)
  | 0x01 => some (.stepEnd c f)
  | 0x02 => some (.halt c f)
  | _ => none

/-- The minors of major 0x10 MA (Table 10-8). -/
def decodeMa (c : CoreId) (f : Fields) : Nat → Option Instr
  | 0x00 => some (.maclr c f)
  | 0x01 => some (.madrain c f)
  | 0x02 => some (.maadd c f)
  | 0x03 => some (.mastat c f)
  | _ => none

/-- The minors of major 0x18 VE (Table 11-4). -/
def decodeVe (c : CoreId) (f : Fields) : Nat → Option Instr
  | 0x00 => some (.setvl c f)
  | 0x01 => some (.vld c f)
  | 0x02 => some (.vst c f)
  | 0x03 => some (.vmov c f)
  | 0x08 => some (.vadd c f)
  | 0x09 => some (.vsub c f)
  | 0x0A => some (.vmul c f)
  | 0x0B => some (.vfma c f)
  | 0x0C => some (.vdiv c f)
  | 0x0D => some (.vsqrt c f)
  | 0x0E => some (.vmin c f)
  | 0x0F => some (.vmax c f)
  | 0x10 => some (.vand c f)
  | 0x11 => some (.vor c f)
  | 0x12 => some (.vxor c f)
  | 0x13 => some (.vshl c f)
  | 0x14 => some (.vshr c f)
  | 0x18 => some (.vcmp c f)
  | 0x19 => some (.vmask c f)
  | 0x1A => some (.vpopc c f)
  | 0x20 => some (.vcvt c f)
  | 0x21 => some (.vcompress c f)
  | 0x22 => some (.vexpand c f)
  | 0x28 => some (.vscan c f)
  | 0x29 => some (.vscanseg c f)
  | 0x30 => some (.vtrn c f)
  | 0x38 => some (.vacc c f)
  | _ => none

/-- The minors of major 0x1C RU (Table 11-7). -/
def decodeRu (c : CoreId) (f : Fields) : Nat → Option Instr
  | 0x00 => some (.rclr c f)
  | 0x01 => some (.rsum c f)
  | 0x02 => some (.rrd c f)
  | 0x03 => some (.rxst c f)
  | 0x04 => some (.rxadd c f)
  | 0x08 => some (.rmax c f)
  | 0x09 => some (.rmin c f)
  | 0x0A => some (.ror c f)
  | _ => none

/-- The minors of major 0x20 SU (Table 12-4). -/
def decodeSu (c : CoreId) (f : Fields) : Nat → Option Instr
  | 0x00 => some (.sucfg c f)
  | 0x01 => some (.sutab c f)
  | 0x02 => some (.suflt c f)
  | 0x03 => some (.susel c f)
  | 0x04 => some (.sutopk c f)
  | _ => none

/-- The minors of major 0x28 MV (Table 8-2). -/
def decodeMv (c : CoreId) (f : Fields) : Nat → Option Instr
  | 0x00 => some (.mvcfg c f)
  | 0x01 => some (.mvpost c f)
  | 0x02 => some (.mvrel c f)
  | _ => none

/-- The instruction of word 0, and word 1 of a long form, by the major and minor opcode; none for a reserved one (R178, R179,
Table 9-4). FULL of a MAT's word 1 picks its mode (Table 10-7). -/
def decodeCore (c : CoreId) (w0 w1 : Word) : Option Instr :=
  let f := Fields.ofWord w0
  let min := minOf w0
  match majOf w0 with
  | 0x01 => decodeScalar c f min
  | 0x02 => decodeSmem c f min
  | 0x03 => decodeBranch c f min
  | 0x04 => decodeCsr c f min
  | 0x05 => decodeWait c f min
  | 0x06 => decodeSync c f min
  | 0x07 => decodeOrder c f min
  | 0x08 => decodeBook c f min
  | 0x09 => decodeStep c f min
  | 0x10 => decodeMa c f min
  | 0x11 => if min = 0 then some (if wordBits w1 57 1 = 1 then .matFull c f w1 else .matAcc c f w1) else none
  | 0x18 => decodeVe c f min
  | 0x1C => decodeRu c f min
  | 0x20 => decodeSu c f min
  | 0x21 => if min = 0 then some (.suscan c f w1) else none
  | 0x28 => decodeMv c f min
  | _ => none

end Sys2Proof
end

