-- ==== Sys2Proof/Config.lean ====
section
/-!
DEFINITION. What an implementation fixes and the spec leaves open: fuses, cryptography and free values.
Every constant here is opaque: nothing in Lean can see a value of it.
-/
namespace Sys2Proof.Config

/-- The die's fused 64-bit unique ID (R90, R395). Free: assumption 6. -/
opaque uid : Word

/-- The fused minimum firmware build (R385, R395). Free: assumption 6. -/
opaque minBuild : BitVec 32

/-- The fused firmware key hash (R395). Free: assumption 6. -/
opaque fwKeyHash : BitVec 384

/-- The fused image key hash (R395). Free: assumption 6. -/
opaque imgKeyHash : BitVec 384

/-- The fused debug key hash (R395). Free: assumption 6. -/
opaque dbgKeyHash : BitVec 384

/-- The Twiell manufacturer code of IDCODE[11:1] (R390). Free: assumption 6. -/
opaque manufacturer : BitVec 11

/-- The ROM or firmware build number with which an image reports itself is in the image; this is FW_BUILD of the ROM's
own Pennants while no firmware runs (R90). Free: assumption 6. -/
opaque romBuild : BitVec 32

/-- SHA-384 of a byte string (R329, R338, R385). Uninterpreted: assumption 7. -/
opaque sha384 : List Byte → BitVec 384

/-- ECDSA P-384 verification: public key bytes, digest, signature bytes (R329, R385). Uninterpreted: assumption 7. -/
opaque ecdsaVerify : List Byte → BitVec 384 → List Byte → Bool

/-- Whether a 96-byte signature over a digest verifies against a key hash held in fuses (R336, R338). Uninterpreted: assumption 7. -/
opaque keyHashVerify : BitVec 384 → BitVec 384 → List Byte → Bool

/-- TS1: how many places the fp32 result of function fn lies from the correct rounding (R239). Free within the bound of
R239: assumption 8. -/
opaque ts1Offset : Nat → BitVec 32 → Int

/-- TS1: whether an exact zero that function fn gives is −0, by the sign of the input (R239). Free: assumption 8. -/
opaque ts1ZeroNeg : Nat → Bool → Bool

/-- TS1: the result bits of RSQRT at +∞ for an element type, which Table 11-6 leaves out (R239). Free: assumption 8. -/
opaque ts1RsqrtInf : Nat → BitVec 32

/-- Whether VCMP's total order puts NaN below every number, as for max, or above, as for min (R231 leaves it open).
Free: assumption 22. -/
opaque vcmpNanBelow : Bool

/-- A free 64-bit value: the n-th value that the spec leaves undefined, a fresh one for each n. Assumption 9. -/
opaque freeWord : Nat → Word

/-- The ID of candidate n of a SUSEL whose base plus n passes 40 bits: the same for the same operands (R29, R249). Free:
assumption 9. -/
opaque wideId : Word → Nat → BitVec 40

/-- A free 128-bit value (R220: a LEDGER total outside the finite range). Assumption 9. -/
opaque freeLedger : Nat → BitVec 128

/-- A free 32-byte value: the entropy source's draws (R336, R37). Assumption 9. -/
opaque freeNonce : Nat → BitVec 256

end Sys2Proof.Config
end

