-- ==== Sys2Proof/Machine/Table.lean ====
section
/-!
DEFINITION. Sparse tables: a list of (key, value) pairs with keys strictly rising and no value equal to the default.
Memory, register files and the 48 cores are tables, so a reset state is short and equal contents are equal data.
-/
namespace Sys2Proof.Machine

/-- A sparse table from Nat keys. An unlisted key holds the table's default. -/
abbrev Table (α : Type) := List (Nat × α)

namespace Table

/-- The value at a key, d where the key is unlisted. -/
def get {α : Type} (d : α) : Table α → Nat → α
  | [], _ => d
  | (k, v) :: t, j => if j = k then v else get d t j

/-- Put a value at a key, keeping the order of keys. -/
def put {α : Type} : Table α → Nat → α → Table α
  | [], j, w => [(j, w)]
  | (k, v) :: t, j, w =>
    if j < k then (j, w) :: (k, v) :: t
    else if j = k then (j, w) :: t
    else (k, v) :: put t j w

/-- Remove a key. -/
def drop {α : Type} (t : Table α) (j : Nat) : Table α := t.filter (fun e => e.1 != j)

/-- Write a value: writing the default removes the entry, so the form stays canonical. -/
def set {α : Type} [DecidableEq α] (d : α) (t : Table α) (j : Nat) (w : α) : Table α :=
  if w = d then drop t j else put t j w

/-- Keys strictly rising, each above lo. -/
def rising {α : Type} : Nat → Table α → Bool
  | _, [] => true
  | lo, (k, _) :: t => decide (lo ≤ k) && rising (k + 1) t

/-- The canonical form: keys strictly rising, no entry equal to the default. -/
def wf {α : Type} [DecidableEq α] (d : α) (t : Table α) : Bool :=
  rising 0 t && t.all (fun e => decide (e.2 ≠ d))

/-- Apply a function at each of a list of keys. -/
def update {α : Type} [DecidableEq α] (d : α) (f : Nat → α → α) : List Nat → Table α → Table α
  | [], t => t
  | j :: js, t => update d f js (set d t j (f j (get d t j)))

end Table

/-- Insert a number into a sorted list without repeats. -/
def insertNat (x : Nat) : List Nat → List Nat
  | [] => [x]
  | y :: t => if x < y then x :: y :: t else if x = y then y :: t else y :: insertNat x t

/-- Insert into a list sorted by a key, after entries of equal key. -/
def insertBy {α : Type} (key : α → List Nat) (x : α) : List α → List α
  | [] => [x]
  | y :: t => if (compare (key x) (key y)).isLT then x :: y :: t else y :: insertBy key x t

/-- Sort a list by a lexicographic key; entries of equal key keep their order. -/
def sortBy {α : Type} (key : α → List Nat) (l : List α) : List α := l.foldl (fun acc x => insertBy key x acc) []

/-- Replace the element at a position. -/
def setAt {α : Type} : List α → Nat → α → List α
  | [], _, _ => []
  | _ :: t, 0, w => w :: t
  | x :: t, n + 1, w => x :: setAt t n w

/-- Replace the first element that satisfies p by its image under f. -/
def mapFirst {α : Type} (p : α → Bool) (f : α → α) : List α → List α
  | [] => []
  | x :: t => if p x then f x :: t else x :: mapFirst p f t

/-- Remove the first element that satisfies p. -/
def removeFirst {α : Type} (p : α → Bool) : List α → List α
  | [] => []
  | x :: t => if p x then t else x :: removeFirst p t

end Sys2Proof.Machine
end

