-- ==== Sys2Proof/Machine/State.lean ====
section
/-!
DEFINITION. The state of one PX40 die as plain data, and the state after reset (PORST_N low, R374).
A comment after a field names its rule and its reset value; numbered assumptions are in notes/assumptions.
-/
namespace Sys2Proof.Machine

/-- Mast states, in the order of Table 3-3 (R44). -/
inductive MastState where
  | unlocked
  | locked
  | holdover
  | lost
deriving DecidableEq, Repr

/-- Port states, in the order of Table 4-3 (R63, R399). -/
inductive PortState where
  | disabled
  | training
  | active
  | retrain
  | down
deriving DecidableEq, Repr

/-- Die-table entry states (Table 5-3). -/
inductive EntryState where
  | absent
  | provisional
  | verified
deriving DecidableEq, Repr

/-- CU STATE, in the order of Table 9-2 (R177). -/
inductive CoreState where
  | stopped
  | run
  | wait
  | stepHalt
  | halted
deriving DecidableEq, Repr

/-- Mailbox states, in the order of MB_STATE (R303). -/
inductive MbState where
  | offline
  | ready
  | restarting
  | resetting
deriving DecidableEq, Repr

/-- Job states, in the order of Table 16-5 (R337). -/
inductive JobState where
  | none
  | launching
  | running
  | replaying
  | restarting
  | ended
  | aborted
deriving DecidableEq, Repr

/-- Image states, 1 to 4 of IMAGE_QUERY (Table 16-4). -/
inductive ImageState where
  | staging
  | staged
  | committed
  | broken
deriving DecidableEq, Repr

/-- The RESULT codes of BOOT_STATUS (R386). -/
inductive BootResult where
  | inProgress
  | complete
  | authFailed
  | noSource
  | layerFailed
  | coreFailed
  | portFailed
deriving DecidableEq, Repr

/-- The instructions of the die wrapper (Table 18-9). -/
inductive TestInstr where
  | bypass
  | idcode
  | sample
  | bootstat
  | preload
  | extest
  | hlloop
  | stacksel (layer : Fin 12)
  | mbist
  | corescan
deriving DecidableEq, Repr

/-- A Bunting table entry (Table 3-4), with the model's two marks: past (R54) and catchup (R42, first case). -/
structure Booking where
  stroke : Word := 0            -- 64; 03 R48; 0
  phase : BitVec 16 := 0        -- 16; 03 R48; 0
  period : BitVec 24 := 0       -- 24; 03 R48; 0
  action : BitVec 4 := 0        -- 4; 03 R48; 0
  colour : BitVec 4 := 0        -- 4; 03 R48; 0
  param : BitVec 12 := 0        -- 12; 03 R48; 0
  valid : Bool := false         -- 1; 03 R48; 0
  drop : Bool := false          -- 1; 03 R48; 0
  late : Bool := false          -- 1; 03 R48; 0
  past : Bool := false          -- 1; 03 R54 (an occurrence is in the past); 0
  catchup : Bool := false       -- 1; 03 R42 (due on the frame of the next stroke); 0
  firedAt : Nat := 0            -- 1 more than the CCLK of the last firing, 0 for none, for R58; 0
deriving DecidableEq, Repr

/-- Mast time (chapter 3, R401). -/
structure Mast where
  st : MastState := .unlocked   -- 2; 03 R44, 19 R401; UNLOCKED
  stroke : Word := 0            -- 64, L; 03 R42, R47; 0
  c : Nat := 0                  -- PLL cycles since the stroke began; 03 R41; 0
  capC : Nat := 25000           -- C, 32; 03 R41, 19 R401; 25,000
  lastStroke : Option Word := none  -- stroke of the last accepted frame; 03 R41; none
  lastAge : Nat := 0            -- PLL cycles since that frame; 03 R41; 0
  satur : Bool := false         -- phase held at 0xFFFF after a repeated stroke; 03 R42, R47; 0
  hold : Nat := 0               -- strokes in HOLDOVER; 03 R44; 0
  holdC : Nat := 0              -- c at the entry of HOLDOVER; 03 R44, R47; 0
  lost : Bool := false          -- MAST_LOST; 03 R45; 0
  mismatch : Bool := false      -- PERIOD_MISMATCH; 03 R43; 0
  regress : Bool := false       -- MAST_REGRESS; 03 R42; 0
  hubHold : Bool := false       -- HUB_HOLDOVER of the last accepted frame; 03 R39, 19 R401; 0
  src : BitVec 2 := 0           -- SRC of the last accepted frame; 03 R39, 19 R401; 0
  period : BitVec 10 := 20      -- PERIOD_US now; 19 R401; 20
  next : BitVec 10 := 0         -- the period scheduled; 03 R61; 0
  pend : Bool := false          -- PENDING; 19 R401; 0
  effective : Word := 0         -- its stroke E; 03 R61; 0
  regNext : BitVec 10 := 0      -- MAST_NEXT; 19 R401; 0
  regEffective : Word := 0      -- MAST_EFFECTIVE; 19 R401; 0
  changedAt : Word := 0         -- stroke E of the last change in force; 03 R61; 0
  stepFwd : BitVec 32 := 0      -- 32; 03 R42, 19 R401; 0
  missed : BitVec 32 := 0       -- 32; 03 R55, 19 R401; 0
  discarded : BitVec 32 := 0    -- 32; 03 R39, R42, 19 R401; 0
  wrap : BitVec 3 := 0          -- MAST_WRAP; 19 R401; 0
  newFlags : BitVec 3 := 0      -- bits of MAST_LOST, PERIOD_MISMATCH, MAST_REGRESS set in this CCLK; 00 R11; 0
  newWrap : BitVec 3 := 0       -- bits of MAST_WRAP set in this CCLK; 00 R11; 0
  beats : Nat := 0              -- strokes passed, or 25,000-CCLK periods while UNLOCKED; 05 R91; 0
  beatC : Nat := 0              -- CCLK of the present period while UNLOCKED; 05 R91; 0
deriving DecidableEq, Repr

/-- The link layer of one path of a port: one sequence space with its retry buffer (R65, R72, R79, R80, R84). -/
structure Link where
  txSeq : BitVec 10 := 0        -- next transmit SEQ; 04 R65, R79; 0
  expect : BitVec 10 := 0       -- expected E; 04 R79; 0
  retry : List Flit := []       -- unacknowledged flits, oldest first, at most 256; 04 R80; empty
  credits : List Nat := [0, 0, 0, 0]   -- link credits held per VC; 04 R64, R65; 0
  freedTx : List (BitVec 12) := [0, 0, 0, 0]  -- FREED counts this side reports; 04 R70; 0
  freedRx : List (BitVec 12) := [0, 0, 0, 0]  -- FREED counts last taken from the partner; 04 R70; 0
  gotInit : Bool := false       -- an INIT received since this training began; 04 R65; 0
  confirmed : Bool := false     -- the partner confirmed one of ours; 04 R64; 0
  initDone : Bool := false      -- initialised (mainband: ACTIVE reached; sideband: R85); 04 R64, R85; 0
  lastInit : Option Nat := none -- clock of the last INIT sent, none before link initialisation starts; 04 R64; none
  lastNak : Option (BitVec 10 × Nat) := none  -- E and clock of the last NAK sent; 04 R79; none
  lastProgress : Nat := 0       -- clock of the last acknowledgement progress or replay; 04 R80; 0
  lastSent : Nat := 0           -- clock of the last flit sent; 04 R72, R92; 0
  ackDue : Bool := false        -- an acknowledgement is owed; 04 R80; 0
  freeDue : Bool := false       -- a buffer free is not yet reported; 04 R72; 0
  replays : Nat := 0            -- replays of the same oldest flit without progress; 04 R81; 0
  resend : Nat := 0             -- flits of the retry buffer still to be replayed, from its end; 04 R80; 0
deriving DecidableEq, Repr

/-- A message waiting in a transmit queue, with the flits already sent (R66, R69, R75, R87). -/
structure TxMsg where
  msg : Msg
  port : Option PortId          -- the port chosen when its first flit was sent (R76); none before
  sent : Nat := 0               -- flits already sent
  fwd : Option (PortId × Path × Flit) := none  -- one flit being forwarded, with its input; none for a message of this die (R77, R87)
  num : Nat := 0                -- the message that a forwarded flit belongs to, as its input numbered it (R69)
deriving DecidableEq, Repr

/-- A message being received on a link and VC (R69). -/
structure RxPart where
  msg : Msg
  nextAddr : Nat                -- ADDR the next flit must carry (R68)
  fwd : Bool                    -- being forwarded (R77)
  dropRest : Bool := false      -- its later flits are dropped without answer (R77)
  num : Nat := 0                -- the number of a forwarded message (R69)
  done : Nat := 0               -- bytes already performed here (R68, R69)
  total : Nat := 0              -- bytes that its flits named in LEN (R144, R170)
  hurt : Bool := false          -- a check failed in what was performed (R220)
deriving DecidableEq, Repr

/-- The error counters of a port, in the order of HL_WRAP (Table 4-10, R399). -/
structure PortCounts where
  crcErr : BitVec 32 := 0       -- 32; 04 R86; 0
  seqErr : BitVec 32 := 0       -- 32; 04 R86; 0
  dup : BitVec 32 := 0          -- 32; 04 R86; 0
  nakTx : BitVec 32 := 0        -- 32; 04 R86; 0
  nakRx : BitVec 32 := 0        -- 32; 04 R86; 0
  replayed : BitVec 32 := 0     -- 32; 04 R86; 0
  timerReplay : BitVec 32 := 0  -- 32; 04 R86; 0
  protocol : BitVec 32 := 0     -- 32; 04 R86; 0
  wrap : BitVec 8 := 0          -- HL_WRAP, 8; 04 R86, 19 R399; 0
  newWrap : BitVec 8 := 0       -- bits of HL_WRAP set in this CCLK; 00 R11; 0
  retrain : BitVec 16 := 0      -- 16, saturating; 04 R86; 0
  stepdown : BitVec 4 := 0      -- 4, saturating; 04 R86; 0
deriving DecidableEq, Repr

/-- A Halyard port (chapter 4). -/
structure Port where
  st : PortState := .disabled   -- 3; 04 R63, 19 R399; DISABLED
  x64 : Bool := false           -- 1; 19 R399; 0
  rate32 : Bool := false        -- 1; 19 R399; 0
  reversed : Bool := false      -- 1; 04 R409; 0
  repairMap : Byte := 0         -- 8; 04 R409; 0
  sbUp : Bool := false          -- sideband up; 04 R66, 19 R399; 0
  held : Bool := false          -- held DOWN after flaps; 05 R105, 19 R399; 0
  counts : PortCounts := (PortCounts.mk 0 0 0 0 0 0 0 0 0 0 0 0)  -- 04 R86; 0
  main : Link := ({} : Link)    -- mainband link layer; 04 R65; empty
  side : Link := ({} : Link)    -- sideband link layer (VC3 only); 04 R85; empty
  rx : Table (Option RxPart) := []  -- message in progress per path and VC (key path * 4 + vc); 04 R69; none
  rxHeld : List Nat := [0, 0, 0, 0] -- receive buffers occupied per VC; 04 R72; 0
  vc3Side : Bool := true        -- VC3 credits are held on the sideband; 04 R84, R85; 1 (no mainband)
  failedRetrains : Nat := 0     -- retrains failed in a row; 04 R81; 0
  capX64 : Bool := true         -- no step down to x32 since the last port reset; 04 R81; 1
  capRate32 : Bool := true      -- no step down to 16 GT/s since the last port reset; 04 R81; 1
  askX64 : Bool := true         -- this training may end at x64, by the parameter exchange; 04 R62; 1
  askRate32 : Bool := true      -- this training may run at 32 GT/s, by the parameter exchange; 04 R62; 1
  slow : Bool := false          -- this training fell back to 16 GT/s; 04 R63; 0
  attempts : Nat := 0           -- attempts failed at the present rate; 04 R63; 0
  asks : Nat := 0               -- attempts counted because no supported option exists; 04 R62; 0
  upper : Bool := false         -- at x32, the upper half is the one in use; 04 R63, R409; 0
  downBeat : Nat := 0           -- beat at which the port last went DOWN; 17 R361; 0
  flaps : List Nat := []        -- beats of the downs that count; 05 R105, 19 R399 HL_FLAP; empty
  vc2Run : Nat := 0             -- VC2 flits sent in a row while another VC waits; 04 R75; 0
  shares : List Nat := [3, 4, 1]  -- remaining round of VC0, VC1, VC3 (3, 4, 1); 04 R75; full round
  grants : Table Nat := []      -- class grants taken in the round (key vc * 4 + class); 14 R301; 0
  lastColour : Table Nat := []  -- colour last served (key vc * 4 + class); 14 R301; 0
  fwdOpen : Table Nat := []     -- input whose message is in progress on this output (key path * 4 + vc; 1 + 2 * port + path); 04 R69; 0
  fwdNum : Table Nat := []      -- number of that message; 04 R69; 0
  vc3Total : Nat := 0           -- the partner's VC3 receive buffers; 04 R85; 0
  lastHeard : Nat := 0          -- beat of the last thing accepted from the partner; 05 R92; 0
  lastFlit : Nat := 0           -- beat of the last flit accepted on the mainband; 17 R364 subcode 5; 0
  silentSeen : Bool := false    -- the present silence has been acted on; 05 R92; 0
  lastSb : Nat := 0             -- clock of the last sideband message accepted; 04 R66; 0
  lastLinkState : Nat := 0      -- clock of the last link-state message sent; 05 R92; 0
  stChanged : Bool := false     -- a state change not yet told by a link-state message; 05 R92; 0
  penBeat : Option Nat := none  -- beat of the last Pennant sent; 05 R91; none
  trig : Nat := 0               -- TRIGGERED Pennants still to send (1 at once, then 3 strokes); 05 R91; 0
  assign : Option (Word × BitVec 6) := none  -- PEER_UID and TARGET_ID to place in the next Pennant; 05 R96; none
  partner : Option (BitVec 6 × Bool × BitVec 2 × BitVec 2 × Word) := none  -- HL_PARTNER: id, ID_V, port, role, UID; 19 R399; none
deriving DecidableEq, Repr

/-- One die-table entry (chapter 5). -/
structure DieEntry where
  st : EntryState := .absent    -- 2; 05 R93; ABSENT
  uid : Word := 0               -- 64; 05 R93; 0
  part : BitVec 16 := 0         -- 16; 05 R93; 0
  stepping : Byte := 0          -- 8; 05 R93; 0
  role : BitVec 2 := 0          -- 2; 05 R93; 0
  ifLevel : BitVec 16 := 0      -- 16; 05 R93; 0
  health : BitVec 4 := 0        -- 4; 05 R93; 0
  fenced : Bool := false        -- 1; 05 R93, R104; 0
  port : PortId := 0            -- 2; 05 R93, R99; 0
  dist : BitVec 3 := 0          -- 3; 05 R93, R99; 0
  sbReach : Bool := false       -- SB_REACH; 05 R93, R103; 0
  count : Nat := 0              -- consecutive consistent Pennants; 05 R93; 0
  direct : Bool := false        -- learned from a Pennant on a port, not from a ROUTE; 05 R93, R94; 0
  assigner : Bool := false      -- ASSIGNER bit last heard; 05 R96; 0
deriving DecidableEq, Repr

/-- A handshake in progress: target, NONCE and stroke of the CONFIRM_REQ (R94). -/
structure Handshake where
  id : BitVec 6
  nonce : BitVec 16
  beat : Nat
deriving DecidableEq, Repr

/-- A CONFIRM_REQ held until its requester's entry is known (R94). -/
structure HeldReq where
  src : BitVec 6
  pn : Pennant
  beat : Nat
deriving DecidableEq, Repr

/-- An ID-less die reported to the assigner: its UID and the relay that reported it, or the own port that sees it (R96). -/
structure Want where
  uid : Word
  relay : Option (BitVec 6)
  port : PortId
deriving DecidableEq, Repr

/-- Membership (chapter 5). -/
structure Member where
  id : Option (BitVec 6) := none     -- DIE_ID and ID_V; 05 R96, 19 R395; none
  health : BitVec 4 := 3             -- own HEALTH: 0 OK, 1 DEGRADED, 2 FENCED, 3 BOOTING; 05 R90, 18 R386; BOOTING
  fenced : Bool := false             -- this die is fenced; 05 R104, 19 R395; 0
  epoch : BitVec 32 := 0             -- 32; 05 R101, 19 R395; 0
  mask : Word := 0                   -- CHANGE_MASK of the epoch; 05 R101; 0
  dies : Table DieEntry := []        -- 64 entries; 05 R93; ABSENT
  routes : Table (BitVec 192) := []  -- ROUTE last heard from the partner on each port; 05 R99; all zero bits unread
  heardRoute : BitVec 4 := 0         -- ports on which a ROUTE was heard; 05 R99; 0
  handshakes : List Handshake := []  -- 05 R94; empty
  held : List HeldReq := []          -- 05 R94; empty
  changed : Word := 0                -- IDs changed here and not yet reported; 05 R101; 0
  reports : Word := 0                -- assigner: union of accepted reports; 05 R101; 0
  reported : Bool := false           -- assigner: a report was accepted since the last increment; 05 R101; 0
  owe : Bool := false                -- a membership change here is not yet reported; 05 R101, R105; 0
  reportBeat : Nat := 0              -- beat of the first report since the last increment; 05 R101; 0
  assigner : Bool := false           -- this die is the assigner; 05 R97; 0
  leader : Word := 0                 -- lowest compute UID heard from others, 0 for none; 05 R97; 0
  leaderSince : Nat := 0             -- beat since which LEADER_UID equals the own UID; 05 R97; 0
  wanting : List Want := []          -- assigner: reported ID-less dies; 05 R96, R97; empty
  given : List (Word × BitVec 6) := [] -- assigner: IDs handed out; 05 R97; empty
  firstRound : Bool := true          -- assigner: the first round is still open; 05 R97; 1
  wantBeat : Nat := 0                -- beat of the last new report of an ID-less die; 05 R97; 0
deriving DecidableEq, Repr

/-- What a scoreboard entry covers: an operand buffer of the core, or die memory (R172). -/
inductive Space where
  | ob (buf : Nat)
  | mem
deriving DecidableEq, Repr

/-- A scoreboard entry (R172, R173). owner: 0 to 5 an engine queue, 16 + n mover channel n, 32 the
transfers that a partition reset cut (R290). -/
structure SbEntry where
  space : Space
  first : Nat
  last : Nat
  write : Bool
  owner : Nat
deriving DecidableEq, Repr

/-- The engine instructions that wait in queues. -/
inductive EOp where
  | mat | maclr | madrain | maadd | mastat
  | vld | vst | vmov | vadd | vsub | vmul | vfma | vdiv | vsqrt | vmin | vmax
  | vand | vor | vxor | vshl | vshr | vcmp | vmask | vpopc | vcvt
  | vcompress | vexpand | vscan | vscanseg | vtrn | vacc
  | rclr | rsum | rrd | rxst | rxadd | rmax | rmin | ror
  | sucfg | sutab | suflt | susel | sutopk | suscan
  | mvcfg | mvpost | mvrel
deriving DecidableEq, Repr

/-- An issued engine instruction with the scalars, VL and scoreboard entries it captured (R176, R173, R224). -/
structure QInstr where
  op : EOp
  f : Fields
  w1 : Word := 0
  sa : Word := 0
  sb : Word := 0
  sd : Word := 0
  vl : Nat := 0
  entries : List SbEntry := []
  sdest : Option Nat := none    -- scalar register it will write
  mdest : Option Nat := none    -- mask register it will write
  sres : Word := 0              -- the scalar result, once started
deriving DecidableEq, Repr

/-- One cell of an accumulator bank (R201, R203, R205). -/
structure Cell where
  a : BitVec 128 := 0
  nan : Bool := false
  pinf : Bool := false
  ninf : Bool := false
  filled : Bool := false        -- a term has been placed (MAXPLUS and MINPLUS: not EMPTY)
deriving DecidableEq, Repr

/-- One accumulator bank of an array (R201, R202, R210). -/
structure Bank where
  cells : Table Cell := []      -- key row * 128 + logical column; 10 R201; 0
  we : BitVec 10 := 0           -- 10, signed; 10 R210; none recorded
  opc : BitVec 3 := 0           -- 3; 10 R210; none recorded
  strip : Bool := false         -- 1; 10 R210; none recorded
  recorded : Bool := false      -- records are set; 10 R223; 0
  count : Nat := 0              -- terms, saturating at 2^24 + 1; 10 R202; 0
  lossLo : BitVec 32 := 0       -- per row; 10 R201; 0
  lossHi : BitVec 32 := 0       -- per row; 10 R201; 0
  poison : BitVec 32 := 0       -- poisoned rows; 10 R222; 0
  mat : Nat := 0                -- number of the FULL MAT that wrote the bank last, 0 for none; 10 R211; 0
  matLo : BitVec 32 := 0        -- LOSS_LO in that MAT's status; 10 R211; 0
  matHi : BitVec 32 := 0        -- LOSS_HI in that MAT's status; 10 R211; 0
  row0 : Nat := 0               -- logical row of that MAT in row 0 of the bank; 10 R211; 0
deriving DecidableEq, Repr

/-- A FULL-mode MAT in progress: instruction and the next physical tile (R211). -/
structure TileRun where
  q : QInstr
  rowBlk : Nat := 0
  colBlk : Nat := 0
deriving DecidableEq, Repr

/-- A bank drain that is due (R216): rows, columns, format and where element (0, 0) goes. -/
structure Drain where
  bank : Nat
  rows : Nat
  cols : Nat
  df : BitVec 3
  dst : Word                    -- form of the FULL-mode destination (R207)
  off : Nat                     -- byte offset of element (0, 0) from dst
  stride : Nat
  q : QInstr                    -- the instruction it belongs to
  final : Bool                  -- its last drain: the instruction may complete after it
deriving DecidableEq, Repr

/-- A matrix array (chapter 10). -/
structure MArray where
  banks : Table Bank := []      -- acc0, acc1; 10 R201; cleared
  nextBank : Nat := 0           -- NEXT; 10 R211; acc0
  cur : Option TileRun := none  -- FULL MAT in progress; 10 R211; none
  drains : List Drain := []     -- due drains, oldest first; 10 R216; empty
  bad : BitVec 32 := 0          -- bypassed physical columns; 10 R217; 0 (before self-test)
  retired : Bool := false       -- 1; 10 R217; 0
  retest : Bool := false        -- marked for retest; 10 R222; 0
  residues : Table Nat := []    -- F_MA_RESIDUE per column since die reset; 10 R222; 0
  faulty : Table Nat := []      -- cells (key row * 32 + physical column) whose next accumulate mismatches its residue; 10 R222; none
  mats : Nat := 0               -- FULL MATs started, which number their banks; 10 R211; 0
deriving DecidableEq, Repr

/-- A 320-bit exact sum with its flags (R236, R240). -/
structure Exact where
  x : BitVec 320 := 0
  nan : Bool := false
  pinf : Bool := false
  ninf : Bool := false
  lossHi : Bool := false
  count : Nat := 0              -- 40 bits
deriving DecidableEq, Repr

/-- The vector engine (R224, R225, R236). -/
structure Ve where
  vl : Nat := 0                       -- VL, 16; 11 R224, R225; 0
  masks : Table (BitVec 4096) := []   -- m0 to m7; 11 R225; 0
  carry : Exact := ({} : Exact)       -- scan carry; 11 R225, R236; cleared
  carryType : Option (BitVec 4) := none  -- ET of the carry; 11 R236; none
deriving DecidableEq, Repr

/-- One held selector entry (R248, Table 12-5). -/
structure SelEntry where
  key : BitVec 32
  id : BitVec 40
deriving DecidableEq, Repr

/-- One selector slot and its filter program (R247, R250, R255). -/
structure SuSlot where
  entries : List SelEntry := []       -- best first; 12 R248; empty
  rejections : BitVec 32 := 0         -- 32, saturating; 12 R250; 0
  filter : List Byte := []            -- the 72-byte record, empty for NT = 0; 12 R255, R262; NT = 0
  rejectAll : Bool := false           -- a bad record: reject every vector; 12 R255; 0
  bad : Bool := false                 -- a selector entry's parity fails; 12 R261; 0
deriving DecidableEq, Repr

/-- The selector configuration (R247). -/
structure SuCfg where
  k : Nat
  kt : BitVec 2
  desc : Bool
deriving DecidableEq, Repr

/-- The scan unit (chapter 12). -/
structure Su where
  cuCfg : Option SuCfg := none        -- the CU's copy; 12 R247, R262; none
  cfg : Option SuCfg := none          -- the selector's own; 12 R247; none
  slots : Table SuSlot := []          -- slots 0 to 7; 12 R247; empty
deriving DecidableEq, Repr

/-- What a wait holds issue on (R189, R196, R145, R184, R180, R183). -/
inductive Hold where
  | all (mask : Word) (clr : Bool)
  | any (mask : Word) (clr : Bool)
  | bar (n : Nat) (first : Bool) (owned : Bool) (at_ : Nat)
  | book (i : Nat) (at_ : Nat)
  | fill (w : Nat) (target : BitVec 32)
  | fenceC
  | fenceD
  | fenceP
  | stepEnd (n : Nat) (sense : Bool)
  | halt
deriving DecidableEq, Repr

/-- Barrier state a core keeps for one counter: NS and outstanding arrivals, oldest first (R263). -/
structure BarSide where
  ns : Bool := false
  out : List Bool := []
deriving DecidableEq, Repr

/-- A sender's credit entry (R163, R171). -/
structure Credit where
  die : BitVec 6
  win : BitVec 8
  base : Nat
  len : Nat
  held : Nat := 0               -- HELD, 20
  barred : Bool := false        -- takes no grant until the next launch (R170)
  received : BitVec 32 := 0
  spent : BitVec 32 := 0
  returned : BitVec 32 := 0
  snap : List (BitVec 32) := [] -- counts at the last AUDIT
deriving DecidableEq, Repr

/-- A decoded mover descriptor (Table 8-3). -/
structure Desc where
  op : BitVec 4
  winv : Bool
  sigv : Bool
  probe : Bool
  win : BitVec 8
  sigCore : BitVec 6
  sigFlag : BitVec 6
  count2 : BitVec 16
  count3 : BitVec 16
  src : Word
  dst : Word
  len : BitVec 32
  sstride2 : BitVec 32
  dstride2 : BitVec 32
  sstride3 : BitVec 32
  dstride3 : BitVec 32
  tag : BitVec 32
  rsv : Bool                    -- a reserved field is nonzero
deriving DecidableEq, Repr

/-- A posted descriptor and its progress (R152, R159, R161, R162). -/
structure Posted where
  index : BitVec 16
  desc : Desc
  entries : List SbEntry
  started : Bool := false
  r2 : Nat := 0
  r3 : Nat := 0
  off : Nat := 0
  allSent : Bool := false
  outst : Nat := 0              -- pieces and probes not yet settled
  bytesOk : Nat := 0
  fail : Option Byte := none    -- first failing STATUS of Table 8-5
  dies : Word := 0              -- dies it wrote, for PROBE
  probed : Bool := false        -- probes sent
  waited : Bool := false        -- its next piece waits for credits (R164)
deriving DecidableEq, Repr

/-- One mover channel (R152, R153, R162). -/
structure Chan where
  set : Bool := false           -- configured
  ring : Nat := 0               -- descriptor ring base (PGA); 08 R153; 0
  cring : Nat := 0              -- completion ring base (PGA); 08 R153; 0
  depthLog2 : Nat := 0          -- 08 R153; 0
  head : BitVec 16 := 0         -- 08 R153; 0
  tail : BitVec 16 := 0         -- 08 R153; 0
  posted : List Posted := []    -- in ring order; 08 R154; empty
  halted : Bool := false        -- 08 R162; 0
deriving DecidableEq, Repr

/-- The CU's control and status registers (Table 9-2, Table 19-5). -/
structure Csr where
  fault : BitVec 16 := 0        -- FAULT, 16; 09 R177, 19 R405; 0
  pc : Dla := 0                 -- PC; 09 R177, 19 R405; 0
  stepPc : Dla := 0             -- STEP_PC; 09 R177, 19 R405; 0
  step : BitVec 32 := 0         -- STEP; 09 R177, 19 R405; 0
  committed : BitVec 32 := 0    -- STEP_COMMITTED; 09 R177, 19 R405; 0
  stepFail : Bool := false      -- STEP_FAIL; 09 R195, 19 R405; 0
  stepOpen : Bool := false      -- a step is open; 09 R194; 0
  cycle : BitVec 48 := 0        -- CYCLE; 09 R177, 19 R405; 0
  issued : BitVec 48 := 0       -- ISSUED; 09 R177, 19 R405; 0
  heldData : BitVec 32 := 0     -- HELD_DATA; 09 R177, 19 R405; 0
  heldQueue : BitVec 32 := 0    -- HELD_QUEUE; 09 R177, 19 R405; 0
  heldWait : BitVec 32 := 0     -- HELD_WAIT; 09 R177, 19 R405; 0
  wrap : BitVec 5 := 0          -- WRAP; 09 R177, 19 R405; 0
  newWrap : BitVec 5 := 0       -- bits of WRAP set in this CCLK; 00 R11; 0
  newFault : BitVec 16 := 0     -- first code raised in this CCLK; 00 R11; 0
  newCut : Bool := false        -- ADMIT_CUT set in this CCLK; 00 R11; 0
  flags : Word := 0             -- FLAGS; 09 R190, 19 R405; 0
  admitCut : Word := 0          -- ADMIT_CUT; 09 R193, 19 R405; 0
deriving DecidableEq, Repr

/-- One compute core. -/
structure Core where
  on : Bool := false                  -- powered; 06 R125, 18 R370; off until a boot stage or plan powers it
  colour : BitVec 4 := 0              -- COLOUR; 14 R281, 19 R405; 0
  st : CoreState := .stopped          -- STATE; 09 R177, 19 R405; STOPPED
  csr : Csr := ({} : Csr)             -- 19 R405
  sregs : Table Word := []            -- s1 to s31; 09 R176, R198; 0
  shadow : Table Word := []           -- SHADOW; 09 R194, R198; 0
  pendS : List Nat := []              -- pending scalar registers; 09 R176; none
  pendM : List Nat := []              -- pending mask registers; 11 R233; none
  hold : Option Hold := none          -- the wait in progress; 09 R189; none
  drainStop : Bool := false           -- STOP asked, queues draining; 19 R406; 0
  flagSets : Word := 0                -- flags set in the cycle in progress; 09 R190; 0
  bookings : Table Booking := []      -- 32 core bookings; 03 R48, 09 R192; zero
  owed : List (Nat × Booking) := []   -- bookings written while due: index and old contents, still to fire; 03 R57; none
  queues : Table (List QInstr) := []  -- 6 engine queues of 16; 09 R187; empty
  running : Table (List QInstr) := [] -- started and not completed, per engine; 09 R173; empty
  sb : List SbEntry := []             -- scoreboard, at most 64; 08 R172; empty
  eaMask : Word := 0                  -- dies with early-acknowledged writes since FENCE.P; 07 R145; 0
  fenceBad : Bool := false            -- a write or probe failed while a fence waits; 07 R146; 0
  probesSent : Bool := false          -- FENCE.P has sent its probes; 07 R145; 0
  bars : Table BarSide := []          -- NS and outstanding arrivals per counter; 13 R263; 0
  ob : Table Byte := []               -- operand buffer bytes, key buf * 2^18 + offset; 06 R106; 0
  obBad : List Nat := []              -- operand buffer bytes with inverted parity; 06 R107, 10 R222; none
  arrays : Table MArray := []         -- MA0, MA1; 10; cleared
  ve : Ve := ({} : Ve)                -- 11 R225
  ru : Table Exact := []              -- x0 to x7; 11 R240; 0
  su : Su := ({} : Su)                -- 12
  chans : Table Chan := []            -- 16 mover channels; 08 R152; idle
  lastChan : Nat := 15                -- channel last served; 08 R160; DESIGN CHOICE 15 (assumption 12)
  credits : List Credit := []         -- at most 32; 08 R163; none
  icache : List Nat := []             -- instruction cache lines present (DLA / 64), newest first; 07 R148; empty
  icFill : Option (Nat × Bool) := none  -- line asked for, and whether a CINV discards it; 07 R149, 09 R180; none
  icBad : List Nat := []              -- instruction cache lines whose parity fails; 07 R148; none
  ccache : Table (List Byte) := []    -- constant cache lines; 07 R148, 09 R183; empty
  ccFill : Option (Nat × Nat × Nat × Bool) := none  -- line, address, sD, discard; 07 R149, 09 R183; none
  ccBad : List Nat := []              -- constant cache lines whose parity fails; 07 R148; none
  lineErrors : Nat := 0               -- cache lines discarded for their parity; 07 R148; 0
  committedSince : BitVec 256 := 0    -- per die booking: committed a step since its last firing and since entering RUN; 03 R50; 0
deriving DecidableEq, Repr

/-- A barrier counter (Table 13-2, R263). -/
structure Counter where
  valid : Bool := false         -- 13 R263; 0
  modeB : Bool := false         -- 13 R263; 0
  role : BitVec 2 := 0          -- 13 R263; 0
  colour : BitVec 4 := 0        -- 13 R263; 0
  root : BitVec 6 := 0          -- 13 R263; 0
  inc : Byte := 0               -- 13 R263, R278; 0
  pmask : BitVec 48 := 0        -- 13 R263; 0
  dmask : Word := 0             -- 13 R263; 0
  sense : Bool := false         -- SENSE; 13 R263; 0
  arr : BitVec 48 := 0          -- ARR; 13 R263; 0
  next : BitVec 48 := 0         -- NEXT; 13 R263; 0
  fail : Bool := false          -- FAIL; 13 R263; 0
  nextFail : Bool := false      -- NEXT_FAIL; 13 R263; 0
  darr : Word := 0              -- DARR; 13 R263; 0
  releases : BitVec 32 := 0     -- RELEASES; 13 R263; 0
  releasedAt : Nat := 0         -- 1 more than the CCLK of the last release, 0 for none; 13 R268; 0
  told : Bool := false          -- member: the die arrival of this episode is sent; root: own bit added; 13 R266; 0
  stale : BitVec 32 := 0        -- stale slots discarded; 13 R269, R270; 0
deriving DecidableEq, Repr

/-- A receive window (R163). -/
structure Window where
  valid : Bool := false         -- installed; 08 R163; 0
  colour : BitVec 4 := 0
  owner : Nat := 0
  base : Nat := 0
  len : Nat := 0
  occ : Nat := 0                -- DLA of OCC
  free : Nat := 0               -- FREE, 20
  filled : BitVec 32 := 0       -- FILLED
  released : BitVec 32 := 0     -- RELEASED
  rr : Nat := 0                 -- sender-table position after the last grant (R165)
deriving DecidableEq, Repr

/-- A receiver-side sender entry (R163, R171). -/
structure Sender where
  win : BitVec 8
  die : BitVec 6
  core : BitVec 6
  share : Nat
  out : Nat := 0                -- OUT, 20
  granted : BitVec 32 := 0
  settled : BitVec 32 := 0
  returned : BitVec 32 := 0
  snap : List (BitVec 32) := [] -- granted, settled, returned at the last AUDIT
  lastD : Option (BitVec 32 × List (BitVec 32) × Nat) := none  -- D, six counts and clock of the last comparison
  compared : Bool := false      -- the present AUDIT has compared the entry; 08 R171; 0
  correction : BitVec 32 := 0   -- D already repaired
  forfeit : Nat := 0            -- OUT as its die last became ABSENT, until the AUDIT after it (R103)
deriving DecidableEq, Repr

/-- A region table entry (Table 7-4). attrs is byte 8: VALID, RD, WR, EA, GUARD, CRED, PRIV. -/
structure Region where
  base : Nat                    -- first page
  last : Nat                    -- last page
  attrs : Byte
deriving DecidableEq, Repr

/-- An interrupt vector (Table 14-4, R285, R286). -/
structure Vector where
  src : BitVec 2 := 0
  mask : Bool := false
  coal : Bool := false
  core : BitVec 6 := 0
  flag : BitVec 6 := 0
  event : Byte := 0
  count : BitVec 32 := 0        -- COUNT, saturating
  stroke : Word := 0            -- stroke of the first event
  fresh : Word := 0             -- stroke at which a coalesced message may form
deriving DecidableEq, Repr

/-- A QoS bucket (Table 14-8, R297, R299). -/
structure Bucket where
  budget : BitVec 28 := 0
  cls : BitVec 2 := 1
  unlim : Bool := true
  cap : BitVec 28 := 0
  nextEntry : Option (BitVec 64) := none  -- an entry that takes effect at the next refill (R298)
  level : Int := 0
  lately : Nat × Nat := (0, 0)  -- the CCLK of the last charge and what was charged in it (R298)
  wait : BitVec 32 := 0         -- QOS_WAIT
  waitWrap : Bool := false
  refilled : Word := 0
  clipped : Word := 0
  charged : Word := 0
deriving DecidableEq, Repr

/-- A staged image (R338, R340, R343). -/
structure Image where
  digest : BitVec 256
  st : ImageState
  man : Manifest
  role : Role
  need : Nat
  granules : List Nat           -- granules it occupies
  borrowed : Nat := 0           -- BORROWED bytes
  lends : List Lend := []       -- lent granules, per lender
  passNs : Nat := 0
  golden : List Byte := []      -- reference of the golden share (bulk reference bytes)
deriving DecidableEq, Repr

/-- The job record (Table 16-5, R350). -/
structure Job where
  id : BitVec 32 := 0
  st : JobState := .none
  reason : Byte := 0
  digest : BitVec 256 := 0
  dieSet : Word := 0
  epoch : BitVec 32 := 0
  replays : BitVec 32 := 0      -- cumulative
  restarts : BitVec 32 := 0
  stepReplays : Nat := 0        -- replays of the open step (R360)
  lastFault : BitVec 16 := 0
  launchStroke : Word := 0
  ends : Word := 0              -- dies that have sent END (R184)
  failed : Bool := false        -- an F_STEP_FAILED or watchdog awaits repair (R357)
  fromWatch : Bool := false     -- it is a watchdog: firmware stops the cores itself (R197)
  watchdog : Option (BitVec 32) := none  -- STEP for which a WATCHDOG has been taken (R323)
deriving DecidableEq, Repr

/-- A request queue (R344, R345). -/
structure ReqQueue where
  used : Bool := false
  colour : BitVec 4 := 0
  core : Nat := 0
  base : Nat := 0
  entryLog2 : Nat := 0
  depthLog2 : Nat := 0
  rows : Nat := 0               -- ROWS, 0 unbound
  bound : Bool := false
  cut : BitVec 16 := 0          -- CUT
  tailWas : BitVec 16 := 0      -- TAIL as the last cycle ended; 03 R51; 0
deriving DecidableEq, Repr

/-- The repair of a failed step while weights are fetched again (R357, R358): whether the step had detected errors here, the
granules still to come, each from its golden share or its replica, and whether one could not be had. -/
structure Repair where
  own : Bool
  todo : List (Nat × Bool)
  failed : Bool := false
deriving DecidableEq, Repr

/-- A partition: what colour c owns on the die (Table 14-2). -/
structure Partn where
  present : Bool := false       -- 14 R281; absent
  cores : BitVec 48 := 0        -- 14 R281; none
  granules : List Nat := []     -- 14 R281, 06 R112; none
  counters : BitVec 128 := 0    -- 14 R281; none
  bookFirst : Nat := 0          -- first die booking; 03 R59; none
  bookCount : Nat := 0          -- die bookings; 03 R59; none
  vectors : Table Vector := []  -- 64; 14 R284; SRC NONE
  images : List Image := []     -- at most 4; 16 R338; none
  job : Job := ({} : Job)       -- 16 R350; NONE
  repair : Option Repair := none  -- a step repair that waits for weights; 17 R357, R358; none
  replay : Bool := true         -- REPLAY_POLICY MODE; 16 Table 16-5 text; REPLAY
  maxReplay : Nat := 3          -- 3
  restartsMax : Nat := 0        -- 0
  policyNext : Option (Bool × Nat × Nat) := none  -- a policy that takes effect at the next step boundary; 16 R337; none
  indices : Table (List Byte) := []  -- attached index headers, empty list unattached; 12 R245, 16 R346; none
  buckets : Table Bucket := []  -- key bucket * 64 + instance; 14 R295, R296; UNLIM 1, CLASS 1
  lent : List (Nat × BitVec 6 × BitVec 256) := []  -- granule, borrower, digest; 16 R340, R342; none
  resetting : Bool := false     -- in partition reset; 14 R290; 0
  resetBy : List (BitVec 4 × BitVec 16 × BitVec 16) := []  -- mailbox, index and final status of the commands that wait for it
  resetReason : Byte := 0       -- end reason the job takes; 16 Table 16-5
  resetJob : Bool := false      -- the job ends with the reset in progress; 16 R349
  resetPolicy : Bool := false   -- the reset is the fault policy's abort; 16 R349
  resetRestart : Bool := false  -- a restart may follow; 16 R349
  resetNotify : Bool := false   -- an abort without a restart is told to the other dies; 15 R323
  destroying : Bool := false    -- the reset is step 1 of a destroy; 16 R334
deriving DecidableEq, Repr

/-- An accepted command (R310, R312). -/
structure Cmd where
  idx : BitVec 16
  bytes : List Byte             -- the copy of the request slot
  running : Bool := false       -- started and waiting (a reset, a plan, a transfer, another die)
  phase : Nat := 0              -- how far a command has come that waits for transfers or other dies; 0 before
  report : List Byte := []      -- what its response will tell
  asks : List Nat := []         -- lenders that IMAGE_STAGE may still ask (R340)
  awaited : List (BitVec 6) := []  -- dies whose PEER_REPLY it waits for (R340, R347)
  replies : List (BitVec 6 × BitVec 16 × List Nat) := []  -- STATUS and granules that they answered (R321)
  resp : Option (BitVec 16 × List Byte) := none  -- STATUS and payload, once performed
deriving DecidableEq, Repr

/-- A mailbox window (Table 15-2) and firmware's accepted commands. -/
structure Mailbox where
  st : MbState := .offline      -- MB_STATE; 15 R303; OFFLINE
  info : BitVec 24 := 0         -- MB_INFO; 15 R303, 19 R398; 0
  mbEpoch : BitVec 32 := 0      -- MB_EPOCH; 15 R303; 0
  reqTail : BitVec 16 := 0      -- 15 R303; 0
  reqSeen : BitVec 16 := 0      -- 15 R303; 0
  reqHead : BitVec 16 := 0      -- 15 R303; 0
  rspTail : BitVec 16 := 0      -- 15 R303; 0
  rspHead : BitVec 16 := 0      -- 15 R303; 0
  done : Word := 0              -- DONE; 15 R303; 0
  heartbeat : BitVec 32 := 0    -- 15 R303; 0
  err : BitVec 4 := 0           -- MB_ERR; 15 R303; 0
  newErr : BitVec 4 := 0        -- bits of MB_ERR set in this CCLK; 00 R11; 0
  ram : Table Byte := []        -- rings, offsets 0 to 0x7FFF; 15 R303; 0
  accepted : List Cmd := []     -- accepted and not posted, in acceptance order; 15 R310; none
  finished : List (BitVec 16) := []  -- commands performed and not posted, in completion order; 15 R315; none
  bell : Bool := false          -- a doorbell not yet examined; 15 R317; 0
  notify : Bool := false        -- a notification is owed; 15 R317; 0
  lastNotify : Option Nat := none  -- clock of the last MB_NOTIFY; 15 R317; none
deriving DecidableEq, Repr

/-- A request sent to another die and not yet answered (R88, R143, R145). -/
inductive ReqKind where
  | read (core ch : Nat) (index : BitVec 16) (dst : Word) (len units : Nat)
  | write (core ch : Nat) (index : BitVec 16) (len units : Nat)
  | probeDesc (core ch : Nat) (index : BitVec 16)
  | fence (core : Nat)
  | orphan (core : Nat)
  | bulk (num off len : Nat) (write : Bool)
deriving DecidableEq, Repr

/-- One outstanding request (R88). -/
structure Req where
  tag : BitVec 12
  die : BitVec 6
  colour : BitVec 4
  kind : ReqKind
  win : Option (BitVec 8)
  sentAt : Option Nat := none   -- CCLK at which its first flit left (R88)
  port : Option PortId := none
deriving DecidableEq, Repr

/-- A slot travelling the mesh of this die (R272): its type, colour, source die, core at the core end, content, and the
core of this die that sent it, 64 where none did (R275). -/
structure MeshSlot where
  stype : Byte
  colour : BitVec 4
  src : BitVec 6
  core : Nat
  slot : Slot
  sender : Nat := 64
deriving DecidableEq, Repr

/-- A window piece all of whose granules are performed, not yet booked (R166). -/
structure Landed where
  win : BitVec 8
  die : BitVec 6
  core : BitVec 6
  units : Nat
deriving DecidableEq, Repr

/-- A message that arrived whole and waits for the step that performs it (R66). -/
structure Arrived where
  msg : Msg
  port : PortId
  path : Path
  flits : Nat
  vc : Nat                      -- the VC whose buffers it occupies (R72)
  done : Nat := 0               -- bytes performed while it arrived (R69)
  total : Nat := 0              -- bytes that its flits named in LEN (R144, R170)
  hurt : Bool := false          -- a check failed in what was performed (R220)
  acked : Bool := false         -- acknowledged early (R143)
deriving DecidableEq, Repr

/-- An interrupt message in the die's queue (R286, R287). -/
structure IntrMsg where
  colour : BitVec 4
  vector : BitVec 6
  withdraw : Bool
  count : BitVec 32
  stroke : Word
deriving DecidableEq, Repr

/-- A capture record or error-log entry (Table 17-2). -/
structure LogRec where
  index : BitVec 16 := 0
  code : BitVec 16
  colour : BitVec 4 := 0
  core : Option (BitVec 6) := none
  unit : Byte := 0
  repeats : Byte := 0
  stroke : Word := 0
  addr : Dla := 0
  peer : Option (BitVec 6) := none
  detail : BitVec 16 := 0
  jobId : BitVec 32 := 0
  step : BitVec 32 := 0
deriving DecidableEq, Repr

/-- Capture queue, fault summary and error log (R354, R356, R395, R396). -/
structure Log where
  capq : List LogRec := []      -- at most 64, oldest first; 17 R354; empty
  waiting : List LogRec := []   -- class D and M records waiting in their units; 17 R354; empty
  entries : List LogRec := []   -- at most 512, oldest first; 17 R356; empty
  nextIndex : BitVec 16 := 0    -- INDEX the next entry takes; 17 R356; 0
  overflow : BitVec 16 := 0     -- 16, saturating; 17 R356; 0
  faultSum : BitVec 5 := 0      -- FAULT_SUM [4:0]; 19 R395; 0
  capqDrop : Bool := false      -- CAPQ_DROP; 19 R395; 0
  newSum : BitVec 5 := 0        -- bits of FAULT_SUM set in this CCLK; 00 R11; 0
  newDrop : Bool := false       -- CAPQ_DROP set in this CCLK; 00 R11; 0
deriving DecidableEq, Repr

/-- Boot, pins and clocks (chapter 18). -/
structure Boot where
  porstLow : Bool := true       -- PORST_N is low; 18 R374; 1 (reset)
  testState : Bool := false     -- the test state of R391; 18 R391; 0
  testReady : Bool := false     -- test-state instructions enabled; 18 R391; 0
  stage : Nat := 0              -- BOOT_STATUS STAGE; 18 R386, 19 R395; 0
  result : BootResult := .inProgress  -- BOOT_STATUS RESULT; 18 R386, 19 R395; 0
  warm : Bool := false          -- the boot in progress is warm; 18 R388; 0
  layerFailed : Bool := false   -- sticky; 19 R395; 0
  coreFailed : Bool := false    -- sticky; 19 R395; 0
  portFailed : Bool := false    -- sticky; 19 R395; 0
  refclkLost : Bool := false    -- REFCLK stopped; 18 R373; 0
  tripped : Bool := false       -- THERMTRIP_N asserted; 18 R380, 19 R395; 0
  image : List Byte := []       -- firmware image held or being pulled; 18 R383, R388; empty
  imageOk : Bool := false       -- the held image is authenticated; 18 R385; 0
  imageHash : BitVec 384 := 0   -- its recorded SHA-384; 18 R385; 0
  sources : List PortId := []   -- firmware sources still to try; 18 R383; empty
  fwOut : List Nat := []        -- offsets of outstanding FW_REQ; 18 R383; empty
  fwTries : Nat := 0            -- failures at the present source; 18 R383; 0
  fwNext : Nat := 0             -- next offset to ask for; 18 R383; 0
  fwSentAt : Nat := 0           -- clock of the last FW_REQ or FW_DATA; 18 R383; 0
  fwRejected : Bool := false    -- an image of this round failed authentication; 18 R386; 0
  failedAt : Nat := 0           -- clock at which every source had failed; 18 R386; 0
  savedTraining : Bool := false -- training parameters saved; 18 R388; 0
  warmAt : Option (BitVec 4 × BitVec 16 × Nat) := none  -- WARM_RESET answered: mailbox, response index, clock; 16 R330; none
deriving DecidableEq, Repr

/-- Thermal and power state (R376, R377, R379). -/
structure Therm where
  ratio : Nat := 16             -- stretch ratio n; 18 R377, 19 R395; 16
  throttling : Bool := false    -- THROTTLING; 19 R395; 0
  temps : Table (BitVec 16) := []  -- THERM[i], unread as 0x8000; 19 R395; 0x8000
  power : BitVec 16 := 0        -- POWER_EST; 19 R395; 0
deriving DecidableEq, Repr

/-- Debug access (R336, R402, R403). -/
structure Debug where
  level : BitVec 2 := 0         -- LEVEL; 19 R402; 0
  fails : BitVec 2 := 0         -- FAILS; 19 R402; 0
  locked : Bool := false        -- LOCKED; 19 R402; 0
  challenge : Bool := false     -- OPEN; 19 R402; 0
  mask : BitVec 16 := 0         -- colour mask; 19 R402; 0
  seq : BitVec 32 := 0          -- DBG_SEQ; 19 R402; 0
  nonce : BitVec 256 := 0       -- DBG_NONCE; 19 R402; 0
  issuedAt : Nat := 0           -- clock of the challenge; 16 R336; 0
  addr : Word := 0              -- DBG_ADDR; 19 R403; DESIGN CHOICE 0 (assumption 12)
  busy : Bool := false          -- BUSY; 19 R403; DESIGN CHOICE 0 (assumption 12)
  result : BitVec 3 := 0        -- RESULT; 19 R403; DESIGN CHOICE 0 (assumption 12)
  settle : BitVec 3 := 0        -- RESULT the access in progress ends with; 19 R403; 0
  data : Table Word := []       -- DBG_DATA0 to 31; 19 R403; DESIGN CHOICE 0 (assumption 12)
deriving DecidableEq, Repr

/-- What a transfer of Skovi serves: a mailbox command, or the refetch of a granule from a replica or the golden share (R314,
R358). -/
inductive Purpose where
  | cmd (mb : Nat) (i : BitVec 16)
  | refetch (col granule : Nat) (golden : Bool)
deriving DecidableEq, Repr

/-- A transfer of Skovi by READs or WRITEs of colour 0 (R18, R314, R358): its place, its bytes sent so far, and what a WRITE
carries or a READ has brought. -/
structure Transfer where
  num : Nat
  who : Purpose
  write : Bool
  die : BitVec 6
  addr : Nat
  len : Nat
  data : List Byte := []
  sent : Nat := 0
  out : Nat := 0                -- messages not yet answered
  got : List (Nat × List Byte) := []  -- offset and bytes of each READ answered
  failed : Bool := false        -- an answer other than OK, or none in time
deriving DecidableEq, Repr

/-- A firmware request to another die awaiting PEER_REPLY (R322), and the command that waits for it. -/
structure PeerReq where
  die : BitVec 6
  seqno : BitVec 16
  mtype : Byte
  body : List Byte
  colour : BitVec 4
  jobId : BitVec 32
  resends : Nat := 0
  sentAt : Nat := 0
  who : Option (Nat × BitVec 16) := none
deriving DecidableEq, Repr

/-- Skovi firmware's own records. -/
structure Skovi where
  up : Bool := false            -- firmware runs (not ROM, not restarting); 15 R320, 18 R382; 0
  restarting : Bool := false    -- in a restart; 15 R320; 0
  mbEpoch : BitVec 32 := 0      -- starts since die reset; 15 R303; 0
  active : BitVec 32 := 0       -- FW_ACTIVE; 16 R329, 19 R395; 0
  activeSha : BitVec 384 := 0   -- its SHA-384; 16 R327; 0
  prev : BitVec 32 := 0         -- build before the last activation; 16 R329; 0
  prevSha : BitVec 384 := 0     -- 16 R329; 0
  prevImage : List Byte := []   -- image before the last activation; 16 R329; empty
  activating : Bool := false    -- the restart is an activation; 16 R329; 0
  restartAt : Nat := 0          -- PLL cycle at which the restart began; 16 R329; 0
  staged : Option (List Byte) := none  -- staged firmware image; 16 R329; none
  peers : List PeerReq := []    -- unanswered firmware requests; 15 R322; none
  transfers : List Transfer := []  -- bulk transfers and refetches at work; 15 R314, 17 R358; none
  nextTransfer : Nat := 0       -- the number the next one takes, the model's; 15 R314; 0
  replies : List (BitVec 6 × BitVec 16 × List Byte) := []  -- stored replies, newest first; 15 R322; none
  seqno : BitVec 16 := 0        -- next SEQNO; 15 R321; DESIGN CHOICE 0 (assumption 12)
  auditStroke : Word := 0       -- stroke of the last AUDIT firing; 08 R171; 0
  rowHits : Table Nat := []     -- detections per repair row since die reset; 06 R121; 0
  retired : List Nat := []      -- rows remapped to spares; 06 R121, R123; none
  rowLast : Table (BitVec 32 × BitVec 32 × BitVec 32) := []  -- job, step and replay of a row's last counted detection; 17 R357; none
  records : List LogRec := []   -- class D records of jobs that no repair has taken; 17 R357; none
  lastMb : Nat := 0             -- partition mailbox served last; 15 R315; DESIGN CHOICE 0 (assumption 12)
  restarts : List Word := []    -- strokes of restarts on watchdog or parity; 17 R361; none
  aborts : List Word := []      -- strokes of job aborts charged to this die; 17 R361; none
  trips : List Word := []       -- strokes of thermal trips; 17 R361; none
  persistent : Bool := false    -- F_DIE_PERSISTENT raised; 17 R362; 0
  weights : List (BitVec 4) := [4, 2, 1]  -- W1 to W3; 14 R301; 4, 2, 1
  telemetry : Table (Word × Word × Bool) := []  -- 64-bit extension, last value and INEXACT per counter; 17 R366; 0
  snapshots : Table (Word × Nat × List Word) := []  -- stroke, clock and extended values of the last snapshot per set; 03 R50; none
  mismatch : List (Nat × Nat) := []  -- disagreements seen at the last AUDIT: subcode, unit; 17 R364; none
  touched : List (Nat × Nat) := []  -- cores (0), ports (1) and counters (2) a command has touched since the last AUDIT; 17 R364; none
  portsUp : BitVec 4 := 0       -- firmware's record of the ports that are ACTIVE; 17 R364; none
deriving DecidableEq, Repr

/-- Test access (R389, R390). -/
structure TestPort where
  ir : TestInstr := .bypass     -- instruction in force; 18 R390; DESIGN CHOICE BYPASS (assumption 12)
  boundary : Word := 0          -- preloaded boundary contents: count of PRELOADs taken; 18 R390; DESIGN CHOICE 0 (assumption 12)
deriving DecidableEq, Repr

/-- What leaves the die, as the model's own record of it, newest first. -/
inductive Out where
  | flit (p : PortId) (path : Path) (f : Flit)
  | linkState (p : PortId) (st : PortState)
  | offer (p : PortId) (o : LinkOffer)
  | tdo (w : Word)
deriving DecidableEq, Repr

/-- Power and test state of memory (chapter 6). -/
structure MemSys where
  cells : List Host.Cell := []  -- stack and core memory, DLA to byte; 06 R108, R112; zero (R128)
  bad : List Nat := []          -- SM granules (DLA / 64) whose CRC-16 fails; 06 R118, R119, 10 R220; none
  cmBad : List Nat := []        -- CM bytes whose parity fails; 06 R118, 10 R220, R222; none
  layersOn : BitVec 12 := 0     -- 06 R124, 18 R370; off until a boot stage or plan powers them
  sliceDue : Table Nat := []    -- refresh slices due per vault; 03 R52, 06 R114; 0
  sliceNext : Table Nat := []   -- the half that the vault's next slice blocks, 0 lower, 1 upper; 06 R114; 0
  sliceRow : Table Nat := []    -- next repair row per vault half; 06 R114; 0
  stalls : Table (BitVec 32) := []  -- conflict counters of R117 (key bank); 06 R117; 0
  refreshWait : Table (BitVec 32) := []  -- refresh wait counters per vault; 06 R117; 0
  conflictWrap : Table Bool := []  -- wrap flags of these counters, in their order; 06 R117; 0
  countedAt : Nat := 0          -- CCLK up to which they have counted; 06 R117; 0
  layersUp : BitVec 12 := 0     -- layers training under a plan; 06 R126; none
  coresUp : BitVec 48 := 0      -- cores powering up under a plan; 06 R126; none
deriving DecidableEq, Repr

/-- The die. -/
structure State where
  pending : List Instr := []          -- commands waiting, first in first out; the model's (assumption 1); empty
  now : Nat := 0                      -- the model's clock in PLL cycles (assumption 3); 0
  cclk : Nat := 0                     -- CCLK edges delivered (assumption 3); 00 R13, 18 R377; 0
  free : Nat := 0                     -- the model's count of free values taken (assumption 9); DESIGN CHOICE 0
  boot : Boot := ({} : Boot)          -- chapter 18
  mast : Mast := ({} : Mast)          -- chapter 3
  dieBookings : Table Booking := []   -- 256 die bookings; 03 R48; zero
  owed : List (Nat × Booking) := []   -- die bookings written while due: index and old contents, still to fire; 03 R57; none
  ports : Table Port := []            -- H0 to H3; chapter 4
  mem : MemSys := ({} : MemSys)       -- chapter 6
  member : Member := ({} : Member)    -- chapter 5
  cores : Table Core := []            -- 48 cores
  counters : Table Counter := []      -- 128 barrier counters; 13 R263
  windows : Table Window := []        -- 256 windows; 08 R163
  senders : List Sender := []         -- at most 1,024; 08 R163
  regions : Table (List Region) := [] -- region tables of colours 1 to 15; 07 R133
  parts : Table Partn := []           -- partitions 1 to 15; 14 R281
  queues : Table ReqQueue := []       -- 64 request queues; 16 R344
  mailboxes : Table Mailbox := []     -- 16 mailboxes; 15 R303
  skovi : Skovi := ({} : Skovi)       -- firmware records
  log : Log := ({} : Log)             -- 17 R354
  therm : Therm := ({} : Therm)       -- 18 R376
  dbg : Debug := ({} : Debug)         -- 19 R402
  test : TestPort := ({} : TestPort)  -- 18 R390
  intrs : List IntrMsg := []          -- interrupt queue; 14 R286; empty
  reqs : List Req := []               -- outstanding requests; 04 R88; none
  mesh : List MeshSlot := []          -- slots on the mesh; 13 R272; none
  landed : List Landed := []          -- performed window pieces; 08 R166; none
  arrived : List Arrived := []        -- messages received whole; 04 R66; none
  tx : List TxMsg := []               -- messages to send, oldest first; 04 R75; none
  msgs : Nat := 0                     -- messages begun by forwarding, the model's numbering; 04 R69; 0
  late : List (BitVec 12 × BitVec 6) := []  -- TAGs and dies whose response may still come late; 04 R88; none
  slotsDropped : BitVec 32 := 0       -- VC2 slots discarded and counted; 14 R283, R291; 0
  out : List Out := []                -- what left the die, newest first; the model's record (assumption 17); empty
deriving DecidableEq, Repr

/-- Why a step stops. -/
inductive Fault where
  /-- A command's operand is outside what any wire can carry (a flit whose payload is not 224 bytes, a sensor list that
  is not 64 long). Raised by the meaning that reads the operand; safe: nothing is concluded of such a command. -/
  | illFormed (mnemonic : String)
deriving DecidableEq, Repr

/-- Why a command is refused. -/
inductive Refusal where
  /-- The command has no meaning yet. Raised by exec's arms only; safe. -/
  | notModelled (mnemonic : String)
deriving DecidableEq, Repr

/-- The outcome of a step of this machine. -/
abbrev Result := Host.Outcome State Fault Refusal

/-- The die right after reset: PORST_N low, every field at the value its comment names (R374). -/
def State.reset : State := {}

end Sys2Proof.Machine
end

