-- ==== Sys2Proof/Machine/Numerics.lean ====
section
/-!
DEFINITION. Exact numbers and the single rounding: float formats, IEEE operations on bf16 and fp32, window placement,
RAW128 codes and 320-bit exact sums (chapters 10 and 11).
-/
namespace Sys2Proof.Machine

/-- A number as an engine sees it: a signed magnitude times a power of two, an infinity or a NaN (R203, R229). -/
inductive Num where
  | nan
  | inf (neg : Bool)
  | fin (neg : Bool) (m : Nat) (e : Int)
deriving DecidableEq, Repr

/-- A float format: exponent and fraction widths, bias, and the patterns of its specials (Table 10-9). -/
structure FFmt where
  eb : Nat
  mb : Nat
  bias : Nat
  maxFin : Nat       -- largest finite magnitude pattern
  infPat : Nat       -- what an infinity becomes
  ovfPat : Nat       -- what a finite overflow becomes
  nanPat : Nat       -- the canonical NaN
  hasInf : Bool      -- IEEE specials in an input (else only the all-ones pattern is NaN)
deriving DecidableEq, Repr

/-- fp32 (Table 10-9). -/
def fp32 : FFmt := ⟨8, 23, 127, 0x7F7FFFFF, 0x7F800000, 0x7F800000, 0x7FC00000, true⟩
/-- bf16 (Table 10-9). -/
def bf16 : FFmt := ⟨8, 7, 127, 0x7F7F, 0x7F80, 0x7F80, 0x7FC0, true⟩
/-- E4M3 (Table 10-9): no infinity, overflow saturates to 448. -/
def e4m3 : FFmt := ⟨4, 3, 7, 0x7E, 0x7E, 0x7E, 0x7F, false⟩
/-- E5M2 (Table 10-9): finite overflow saturates to 57,344. -/
def e5m2 : FFmt := ⟨5, 2, 15, 0x7B, 0x7C, 0x7B, 0x7E, true⟩

/-- The sign bit of a format as a number. -/
def FFmt.signPat (f : FFmt) : Nat := 2 ^ (f.eb + f.mb)

/-- Decode a pattern exactly; subnormals are kept (R200, R229). -/
def FFmt.decode (f : FFmt) (x : Nat) : Num :=
  let neg := x / f.signPat % 2 == 1
  let ex := x / 2 ^ f.mb % 2 ^ f.eb
  let fr := x % 2 ^ f.mb
  if f.hasInf && ex == 2 ^ f.eb - 1 then (if fr == 0 then .inf neg else .nan)
  else if !f.hasInf && ex == 2 ^ f.eb - 1 && fr == 2 ^ f.mb - 1 then .nan
  else if ex == 0 then .fin neg fr (1 - (f.bias : Int) - f.mb)
  else .fin neg (2 ^ f.mb + fr) ((ex : Int) - f.bias - f.mb)

/-- m × 2^e rounded to a multiple of 2^q, round to nearest even, as a count of 2^q. -/
def rneAt (m : Nat) (e q : Int) : Nat :=
  if q ≤ e then m * 2 ^ (e - q).toNat
  else
    let k := (q - e).toNat
    let d := m / 2 ^ k
    let r := m % 2 ^ k
    if 2 ^ k < 2 * r || (2 * r == 2 ^ k && d % 2 == 1) then d + 1 else d

/-- The magnitude pattern of m × 2^e in a format, before overflow is looked at. -/
def FFmt.pattern (f : FFmt) (m : Nat) (e : Int) : Nat :=
  let emin : Int := 1 - (f.bias : Int) - f.mb
  let top : Int := e + (Nat.log2 m : Int) - f.mb
  let q := if top < emin then emin else top
  (q - emin).toNat * 2 ^ f.mb + rneAt m e q

/-- One round-to-nearest-even step to a format: the pattern, and whether the output saturated or overflowed (R213). -/
def FFmt.round (f : FFmt) : Num → Nat × Bool
  | .nan => (f.nanPat, false)
  | .inf neg => ((if neg then f.signPat else 0) + f.infPat, !f.hasInf)
  | .fin neg m e =>
    let sgn := if neg then f.signPat else 0
    if m == 0 then (sgn, false)
    else
      let p := f.pattern m e
      if f.maxFin < p then (sgn + f.ovfPat, true) else (sgn + p, false)

/-- The integer nearest a finite value, ties to even (R213, R230). -/
def rneInt (neg : Bool) (m : Nat) (e : Int) : Int := if neg then - (rneAt m e 0 : Int) else rneAt m e 0

/-- Clamp an integer to a range; the flag says that it was outside. -/
def clampInt (lo hi v : Int) : Int × Bool := if v < lo then (lo, true) else if hi < v then (hi, true) else (v, false)

/-- The least value of a w-bit integer type. -/
def intMin (w : Nat) (signed : Bool) : Int := if signed then - (2 ^ (w - 1) : Nat) else 0
/-- The greatest value of a w-bit integer type. -/
def intMax (w : Nat) (signed : Bool) : Int := (if signed then (2 ^ (w - 1) : Nat) else (2 ^ w : Nat)) - 1

/-- Round a number to a saturated integer; a NaN becomes 0 and counts as a loss (Table 10-9 row 3, R230). -/
def Num.toIntSat (w : Nat) (signed : Bool) : Num → Int × Bool
  | .nan => (0, true)
  | .inf neg => (if neg then intMin w signed else intMax w signed, true)
  | .fin neg m e => clampInt (intMin w signed) (intMax w signed) (rneInt neg m e)

/-- An integer's two's-complement pattern of w bits. -/
def intPat (w : Nat) (v : Int) : Nat := (v % (2 ^ w : Nat)).toNat

/-- An integer as a number. -/
def Num.ofInt (v : Int) : Num := .fin (v < 0) v.natAbs 0

/-- The signed count of 2^e0 in a finite value (e0 at or below its exponent). -/
def scaled (e0 : Int) (neg : Bool) (m : Nat) (e : Int) : Int :=
  if neg then - (m * 2 ^ (e - e0).toNat : Nat) else (m * 2 ^ (e - e0).toNat : Nat)

/-- The exact negation. -/
def Num.neg : Num → Num
  | .nan => .nan
  | .inf n => .inf (!n)
  | .fin n m e => .fin (!n) m e

/-- The exact sum, with IEEE's sign of zero and invalid cases (R229, R203). -/
def Num.add : Num → Num → Num
  | .nan, _ => .nan
  | _, .nan => .nan
  | .inf a, .inf b => if a == b then .inf a else .nan
  | .inf a, _ => .inf a
  | _, .inf b => .inf b
  | .fin n1 m1 e1, .fin n2 m2 e2 =>
    let e := if e1 < e2 then e1 else e2
    let v := scaled e n1 m1 e1 + scaled e n2 m2 e2
    if v = 0 then .fin (n1 && n2) 0 e else .fin (v < 0) v.natAbs e

/-- The exact difference. -/
def Num.sub (a b : Num) : Num := a.add b.neg

/-- The exact product; infinity times zero is invalid (R203, R229). -/
def Num.mul : Num → Num → Num
  | .nan, _ => .nan
  | _, .nan => .nan
  | .inf a, .inf b => .inf (a != b)
  | .inf a, .fin n m _ => if m == 0 then .nan else .inf (a != n)
  | .fin n m _, .inf b => if m == 0 then .nan else .inf (n != b)
  | .fin n1 m1 e1, .fin n2 m2 e2 => .fin (n1 != n2) (m1 * m2) (e1 + e2)

/-- The magnitude of a number. -/
def Num.abs : Num → Num
  | .nan => .nan
  | .inf _ => .inf false
  | .fin _ m e => .fin false m e

/-- The quotient with a sticky low bit below every rounding position (R229: correctly rounded VDIV). -/
def Num.div : Num → Num → Num
  | .nan, _ => .nan
  | _, .nan => .nan
  | .inf _, .inf _ => .nan
  | .inf a, .fin n _ _ => .inf (a != n)
  | .fin n _ e, .inf b => .fin (n != b) 0 e
  | .fin n1 m1 e1, .fin n2 m2 e2 =>
    if m2 == 0 then (if m1 == 0 then .nan else .inf (n1 != n2))
    else
      let x := m1 * 2 ^ 64
      .fin (n1 != n2) (2 * (x / m2) + (if x % m2 == 0 then 0 else 1)) (e1 - e2 - 65)

/-- The integer square root of n, found bit by bit from bit k − 1 down, above a partial root r. -/
def isqrtFrom : Nat → Nat → Nat → Nat
  | 0, _, r => r
  | k + 1, n, r => isqrtFrom k n (if (r + 2 ^ k) * (r + 2 ^ k) ≤ n then r + 2 ^ k else r)

/-- The square root with a sticky low bit (R229: correctly rounded VSQRT). -/
def Num.sqrt : Num → Num
  | .nan => .nan
  | .inf neg => if neg then .nan else .inf false
  | .fin neg m e =>
    if m == 0 then .fin neg 0 e
    else if neg then .nan
    else
      let k : Nat := if e % 2 == 0 then 64 else 65
      let n := m * 2 ^ k
      let r := isqrtFrom 60 n 0
      .fin false (2 * r + (if r * r == n then 0 else 1)) ((e - (k : Int)) / 2 - 1)

/-- The numerical order of two numbers that are not NaN: a < b. -/
def Num.ltNum : Num → Num → Bool
  | .inf a, .inf b => a && !b
  | .inf a, .fin _ _ _ => a
  | .fin _ _ _, .inf b => !b
  | .fin n1 m1 e1, .fin n2 m2 e2 =>
    let e := if e1 < e2 then e1 else e2
    decide (scaled e n1 m1 e1 < scaled e n2 m2 e2)
  | _, _ => false

/-- Whether a number is NaN. -/
def Num.isNan : Num → Bool
  | .nan => true
  | _ => false

/-- Whether a number has a minus sign (used for the order of zeros, R231). -/
def Num.isNeg : Num → Bool
  | .nan => false
  | .inf n => n
  | .fin n _ _ => n

/-- The total order of R231 with NaN below every number (nanLow) or above every number: a < b; −0 is below +0. -/
def Num.ltTotal (nanLow : Bool) (a b : Num) : Bool :=
  match a, b with
  | .nan, .nan => false
  | .nan, _ => nanLow
  | _, .nan => !nanLow
  | a, b => a.ltNum b || (!(b.ltNum a) && a.isNeg && !b.isNeg)

/-- The pair's larger element in R231's order for max (ties keep the first). -/
def Num.max2 (a b : Num) : Num := if Num.ltTotal true a b then b else a
/-- The pair's smaller element in R231's order for min (ties keep the first). -/
def Num.min2 (a b : Num) : Num := if Num.ltTotal false b a then b else a

/-- Bits of |p| below 2^WE are discarded and too large a magnitude is replaced (R201):
the placed integer, LOSS_LO and LOSS_HI. -/
def placeTerm (we : Int) (neg : Bool) (m : Nat) (e : Int) : Int × Bool × Bool :=
  let u := if we ≤ e then m * 2 ^ (e - we).toNat else m / 2 ^ (we - e).toNat
  let lo := if we ≤ e then false else m % 2 ^ (we - e).toNat != 0
  let hi := decide (2 ^ 102 ≤ u)
  let v : Nat := if hi then 2 ^ 102 - 1 else u
  (if neg then - (v : Int) else v, lo, hi)

/-- The RAW128 special codes (R214). -/
def rawNan : BitVec 128 := BitVec.ofNat 128 (2 ^ 127)
/-- RAW128 code of +∞ (R214). -/
def rawPinf : BitVec 128 := BitVec.ofNat 128 (2 ^ 127 - 1)
/-- RAW128 code of −∞ (R214). -/
def rawNinf : BitVec 128 := BitVec.ofNat 128 (2 ^ 127 + 1)

/-- The code that flags give at a drain (R203), none where no flag is set. -/
def flagCode (nan pinf ninf : Bool) : Option (BitVec 128) :=
  if nan || (pinf && ninf) then some rawNan
  else if pinf then some rawPinf
  else if ninf then some rawNinf
  else none

/-- The flags (NAN, PINF, NINF) that a RAW128 code stands for (R214). -/
def rawFlags (x : BitVec 128) : Bool × Bool × Bool := (x == rawNan, x == rawPinf, x == rawNinf)

/-- Whether a RAW128 value is a special code (R214). -/
def rawSpecial (x : BitVec 128) : Bool := x == rawNan || x == rawPinf || x == rawNinf

/-- The addition of a LEDGER slot (R220); a finite total outside the range of R202 is the free value given. -/
def ledgerAdd (free : BitVec 128) (a b : BitVec 128) : BitVec 128 :=
  if rawSpecial a || rawSpecial b then
    (flagCode ((rawFlags a).1 || (rawFlags b).1) ((rawFlags a).2.1 || (rawFlags b).2.1) ((rawFlags a).2.2 || (rawFlags b).2.2)).getD rawNan
  else if (a.toInt + b.toInt).natAbs < 2 ^ 126 then a + b else free

/-- The number that a bank cell represents at a window exponent, with its flags and the empty value of MAXPLUS and
MINPLUS (R203, R205, R213). -/
def Cell.num (c : Cell) (we : Int) (opc : BitVec 3) : Num :=
  if c.nan || (c.pinf && c.ninf) then .nan
  else if c.pinf then .inf false
  else if c.ninf then .inf true
  else if !c.filled && opc == 4 then .inf true
  else if !c.filled && opc == 5 then .inf false
  else .fin (decide (c.a.toInt < 0)) c.a.toInt.natAbs we

/-- The RAW128 value of a bank cell (R214). -/
def Cell.raw (c : Cell) (opc : BitVec 3) : BitVec 128 :=
  match flagCode c.nan c.pinf c.ninf with
  | some x => x
  | none => if !c.filled && opc == 4 then rawNinf else if !c.filled && opc == 5 then rawPinf else c.a

/-- A number in a drain format: its bytes, and whether it saturated, overflowed or was lost (R213). -/
def drainBytes (df : Nat) (x : Num) (raw : BitVec 128) : List Byte × Bool :=
  match df with
  | 0 => (leBytes 16 raw.toNat, false)
  | 1 => (leBytes 4 (fp32.round x).1, (fp32.round x).2)
  | 2 => (leBytes 2 (bf16.round x).1, (bf16.round x).2)
  | 3 => (leBytes 4 (intPat 32 (x.toIntSat 32 true).1), (x.toIntSat 32 true).2)
  | 4 => (leBytes 1 (e4m3.round x).1, (e4m3.round x).2)
  | _ => (leBytes 1 (e5m2.round x).1, (e5m2.round x).2)

/-- The element size of a drain format in bytes (Table 10-9). -/
def drainSize (df : Nat) : Nat := match df with | 0 => 16 | 1 => 4 | 2 => 2 | 3 => 4 | _ => 1

/-- A number added exactly to a 320-bit sum: finite values in units of 2^-149, specials as flags (R236, R240). -/
def Exact.addNum (x : Exact) : Num → Exact
  | .nan => { x with nan := true }
  | .inf neg => if neg then { x with ninf := true } else { x with pinf := true }
  | .fin neg m e => { x with x := x.x + BitVec.ofInt 320 (scaled (-149) neg m e) }

/-- The number a 320-bit sum stands for (R240, R241). -/
def Exact.num (x : Exact) : Num :=
  if x.nan || (x.pinf && x.ninf) then .nan
  else if x.pinf then .inf false
  else if x.ninf then .inf true
  else .fin (decide (x.x.toInt < 0)) x.x.toInt.natAbs (-149)

/-- Element size in bytes of a type of Table 11-3 (int4 counted as one byte for two). -/
def etSize (et : Nat) : Nat :=
  match et with
  | 0 | 1 | 8 | 9 | 10 => 1
  | 2 | 3 | 6 => 2
  | 4 | 5 | 7 => 4
  | _ => 16

/-- Whether a type is one of the integer types 0 to 5. -/
def etInt (et : Nat) : Bool := et < 6
/-- Whether an integer type is signed. -/
def etSigned (et : Nat) : Bool := et % 2 == 0
/-- Whether a type is bf16 or fp32. -/
def etFloat (et : Nat) : Bool := et == 6 || et == 7

/-- The value of an element's pattern (Table 11-3). -/
def etNum (et : Nat) (x : Nat) : Num :=
  match et with
  | 6 => bf16.decode x
  | 7 => fp32.decode x
  | 8 => e4m3.decode x
  | 9 => e5m2.decode x
  | 10 => Num.ofInt (sext 4 x)
  | _ => if etSigned et then Num.ofInt (sext (8 * etSize et) x) else Num.ofInt (x % 2 ^ (8 * etSize et) : Nat)

/-- A value rounded once to an element type (R229, R230). -/
def etPat (et : Nat) (x : Num) : Nat :=
  match et with
  | 6 => (bf16.round x).1
  | 7 => (fp32.round x).1
  | 8 => (e4m3.round x).1
  | 9 => (e5m2.round x).1
  | 10 => intPat 4 (x.toIntSat 4 true).1
  | _ => intPat (8 * etSize et) (x.toIntSat (8 * etSize et) (etSigned et)).1

/-- An integer result that wraps or saturates (R229). -/
def etIntPat (et : Nat) (sat : Bool) (v : Int) : Nat :=
  let w := 8 * etSize et
  if sat then intPat w (clampInt (intMin w (etSigned et)) (intMax w (etSigned et)) v).1 else intPat w v

/-- The integer value of an element's pattern. -/
def etVal (et : Nat) (x : Nat) : Int :=
  if etSigned et then sext (8 * etSize et) x else (x % 2 ^ (8 * etSize et) : Nat)

end Sys2Proof.Machine
end

