-- ==== Sys2Proof/Machine/Ops.lean ====
section
/-!
DEFINITION. The named operations of the die: its parts by number, free values, faults and their log, memory with its
detection, region checks, and sending.
-/
namespace Sys2Proof.Machine

/-! ### The parts of the die by number -/

/-- Core c (R6). -/
def State.core (s : State) (c : Nat) : Core := Table.get {} s.cores c
/-- The die with core c replaced. -/
def State.setCore (s : State) (c : Nat) (k : Core) : State := { s with cores := Table.set {} s.cores c k }
/-- The die with core c changed by f. -/
def State.modCore (s : State) (c : Nat) (f : Core → Core) : State := s.setCore c (f (s.core c))
/-- Port p (R63). -/
def State.port (s : State) (p : Nat) : Port := Table.get {} s.ports p
/-- The die with port p replaced. -/
def State.setPort (s : State) (p : Nat) (x : Port) : State := { s with ports := Table.set {} s.ports p x }
/-- The die with port p changed by f. -/
def State.modPort (s : State) (p : Nat) (f : Port → Port) : State := s.setPort p (f (s.port p))
/-- Barrier counter n (R263). -/
def State.counter (s : State) (n : Nat) : Counter := Table.get {} s.counters n
/-- The die with counter n replaced. -/
def State.setCounter (s : State) (n : Nat) (x : Counter) : State := { s with counters := Table.set {} s.counters n x }
/-- Window w (R163). -/
def State.window (s : State) (w : Nat) : Window := Table.get {} s.windows w
/-- The die with window w replaced. -/
def State.setWindow (s : State) (w : Nat) (x : Window) : State := { s with windows := Table.set {} s.windows w x }
/-- The partition of colour c (R281). -/
def State.part (s : State) (c : Nat) : Partn := Table.get {} s.parts c
/-- The die with the partition of colour c replaced. -/
def State.setPart (s : State) (c : Nat) (x : Partn) : State := { s with parts := Table.set {} s.parts c x }
/-- The die with the partition of colour c changed by f. -/
def State.modPart (s : State) (c : Nat) (f : Partn → Partn) : State := s.setPart c (f (s.part c))
/-- Request queue q (R344). -/
def State.rqueue (s : State) (q : Nat) : ReqQueue := Table.get {} s.queues q
/-- The die with request queue q replaced. -/
def State.setRqueue (s : State) (q : Nat) (x : ReqQueue) : State := { s with queues := Table.set {} s.queues q x }
/-- Mailbox m (R303). -/
def State.mailbox (s : State) (m : Nat) : Mailbox := Table.get {} s.mailboxes m
/-- The die with mailbox m replaced. -/
def State.setMailbox (s : State) (m : Nat) (x : Mailbox) : State := { s with mailboxes := Table.set {} s.mailboxes m x }
/-- The die with mailbox m changed by f. -/
def State.modMailbox (s : State) (m : Nat) (f : Mailbox → Mailbox) : State := s.setMailbox m (f (s.mailbox m))
/-- The die-table entry of a die ID (Table 5-3). -/
def State.die (s : State) (d : Nat) : DieEntry := Table.get {} s.member.dies d
/-- The die with a die-table entry replaced. -/
def State.setDie (s : State) (d : Nat) (x : DieEntry) : State :=
  { s with member := { s.member with dies := Table.set {} s.member.dies d x } }
/-- This die's ID, 0 while it has none (R395: ID_DIE resets to 0). -/
def State.ownId (s : State) : BitVec 6 := s.member.id.getD 0
/-- The region table of a colour (R133). -/
def State.regionsOf (s : State) (c : Nat) : List Region := Table.get [] s.regions c
/-- The colour that core c carries (R281). -/
def State.colourOf (s : State) (c : Nat) : BitVec 4 := (s.core c).colour

/-- Whether CCLK is stopped: REFCLK is lost, or THERMTRIP_N is asserted (R373, R380). -/
def State.halted (s : State) : Bool := s.boot.refclkLost || s.boot.tripped

/-- Whether this PLL cycle delivers a CCLK edge: n of every 16 do, at stretch ratio n (R377). -/
def State.edge (s : State) : Bool := (s.now + 1) * s.therm.ratio / 16 != s.now * s.therm.ratio / 16

/-- A command that needs only the AUX domain (the sideband, Pennants, the log) has its effect on a die out of reset and out
of the test state (R373, R374, R391); else nothing changes. -/
def awake (s : State) (f : State → State) : Result := .next (if s.boot.porstLow || s.boot.testState then s else f s)

/-- Any other command also needs CCLK (R373, R380). -/
def live (s : State) (f : State → State) : Result := .next (if s.boot.porstLow || s.boot.testState || s.halted then s else f s)

/-! ### Free values (assumption 9) -/

/-- The free word for this step and the die with the count advanced. -/
def takeFree (s : State) : Word × State := (Config.freeWord s.free, { s with free := s.free + 1 })

/-- n free bytes and the die with the count advanced. -/
def takeFreeBytes (s : State) (n : Nat) : List Byte × State :=
  ((List.range n).map (fun i => (Config.freeWord (s.free + i)).setWidth 8), { s with free := s.free + n })

/-! ### Counters (R365) -/

/-- A 32-bit count plus one, and whether it wrapped. -/
def bump32 (x : BitVec 32) : BitVec 32 × Bool := (x + 1, x == 0xFFFFFFFF)
/-- A saturating 16-bit count plus one. -/
def satInc16 (x : BitVec 16) : BitVec 16 := if x = 0xFFFF then x else x + 1
/-- A saturating 32-bit count plus one. -/
def satInc32 (x : BitVec 32) : BitVec 32 := if x = 0xFFFFFFFF then x else x + 1

/-- A W1C register after a write of v: a bit that hardware sets in the same CCLK ends it set (R11). -/
def w1c {n : Nat} (x set v : BitVec n) : BitVec n := x &&& ~~~ (v &&& ~~~ set)

/-! ### Faults (R352 to R356) -/

/-- F_CM_PARITY. -/
def fCmParity : BitVec 16 := 0x0101
/-- F_SM_CRC. -/
def fSmCrc : BitVec 16 := 0x0102
/-- F_OB_PARITY. -/
def fObParity : BitVec 16 := 0x0103
/-- F_MA_RESIDUE. -/
def fMaResidue : BitVec 16 := 0x0104
/-- F_ROW_RETIRED. -/
def fRowRetired : BitVec 16 := 0x0105
/-- F_SPARE_EXHAUSTED. -/
def fSpareExhausted : BitVec 16 := 0x0106
/-- F_REFETCH_FAILED. -/
def fRefetchFailed : BitVec 16 := 0x0107
/-- F_RESERVED_SET. -/
def fReservedSet : BitVec 16 := 0x0201
/-- F_ILLEGAL_OP. -/
def fIllegalOp : BitVec 16 := 0x0202
/-- F_ADDR_UNMAPPED. -/
def fAddrUnmapped : BitVec 16 := 0x0203
/-- F_COLOUR_REFUSED. -/
def fColourRefused : BitVec 16 := 0x0204
/-- F_CSR_ACCESS. -/
def fCsrAccess : BitVec 16 := 0x0205
/-- F_TILE_INVALID. -/
def fTileInvalid : BitVec 16 := 0x0206
/-- F_ARRAY_RETIRED. -/
def fArrayRetired : BitVec 16 := 0x0207
/-- F_SCAN_INVALID. -/
def fScanInvalid : BitVec 16 := 0x0208
/-- F_STEP_FAILED. -/
def fStepFailed : BitVec 16 := 0x0209
/-- F_WATCHDOG. -/
def fWatchdog : BitVec 16 := 0x020A
/-- F_MV_CONFIG. -/
def fMvConfig : BitVec 16 := 0x0301
/-- F_DESC_INVALID. -/
def fDescInvalid : BitVec 16 := 0x0302
/-- F_WINDOW_OVERRUN. -/
def fWindowOverrun : BitVec 16 := 0x0303
/-- F_CREDIT_UNDERFLOW. -/
def fCreditUnderflow : BitVec 16 := 0x0304
/-- F_CREDIT_AUDIT. -/
def fCreditAudit : BitVec 16 := 0x0305
/-- F_QUEUE_OVERRUN. -/
def fQueueOverrun : BitVec 16 := 0x0306
/-- F_BARRIER_REFUSED. -/
def fBarrierRefused : BitVec 16 := 0x0401
/-- F_BARRIER_OVERRUN. -/
def fBarrierOverrun : BitVec 16 := 0x0402
/-- F_SIGNAL_REFUSED. -/
def fSignalRefused : BitVec 16 := 0x0403
/-- F_INTR_DROPPED. -/
def fIntrDropped : BitVec 16 := 0x0404
/-- F_LINK_DOWN. -/
def fLinkDown : BitVec 16 := 0x0501
/-- F_LINK_DEGRADED. -/
def fLinkDegraded : BitVec 16 := 0x0502
/-- F_LINK_FLAP. -/
def fLinkFlap : BitVec 16 := 0x0503
/-- F_HALYARD_PROTOCOL. -/
def fHalyardProtocol : BitVec 16 := 0x0504
/-- F_HALYARD_TIMEOUT. -/
def fHalyardTimeout : BitVec 16 := 0x0505
/-- F_PENNANT_CONFLICT. -/
def fPennantConflict : BitVec 16 := 0x0506
/-- F_PEER_INCOMPATIBLE. -/
def fPeerIncompatible : BitVec 16 := 0x0507
/-- F_ABSENT_SOURCE. -/
def fAbsentSource : BitVec 16 := 0x0508
/-- F_MAST_LOST. -/
def fMastLost : BitVec 16 := 0x0601
/-- F_MAST_PERIOD. -/
def fMastPeriod : BitVec 16 := 0x0602
/-- F_MAILBOX_PROTOCOL. -/
def fMailboxProtocol : BitVec 16 := 0x0701
/-- F_SKOVI_WATCHDOG. -/
def fSkoviWatchdog : BitVec 16 := 0x0702
/-- F_STATE_MISMATCH. -/
def fStateMismatch : BitVec 16 := 0x0703
/-- F_DIE_PERSISTENT. -/
def fDiePersistent : BitVec 16 := 0x0704
/-- F_SKOVI_PARITY. -/
def fSkoviParity : BitVec 16 := 0x0705
/-- F_THERMAL_THROTTLE. -/
def fThermalThrottle : BitVec 16 := 0x0801
/-- F_THERMTRIP. -/
def fThermtrip : BitVec 16 := 0x0802

/-- The class of a fault code as its bit in FAULT_SUM: 0 D, 1 P, 2 T, 3 L, 4 M (Table 17-1, R395). -/
def faultClass (code : BitVec 16) : Nat :=
  match code.toNat with
  | 0x0101 | 0x0102 | 0x0103 | 0x0104 | 0x020A | 0x0401 | 0x0402 | 0x0505 => 0
  | 0x0201 | 0x0202 | 0x0203 | 0x0204 | 0x0205 | 0x0206 | 0x0207 | 0x0208 | 0x0301 | 0x0302 | 0x0303 | 0x0304 => 1
  | 0x0306 | 0x0403 | 0x0504 | 0x0508 | 0x0701 => 2
  | 0x0501 | 0x0502 | 0x0503 | 0x0506 | 0x0507 | 0x0601 | 0x0602 | 0x0801 | 0x0802 => 3
  | _ => 4

/-- Whether a job exists: launched and neither ended nor aborted (Table 16-5). -/
def Job.live (j : Job) : Bool :=
  j.st == .launching || j.st == .running || j.st == .replaying || j.st == .restarting

/-- The JOB_ID of a colour's job, or 0 (Table 17-2). -/
def State.jobId (s : State) (colour : Nat) : BitVec 32 :=
  let j := (s.part colour).job
  if j.live then j.id else 0

/-- A capture record of this moment (Table 17-2): stroke, job of the colour, and the core's open step. -/
def mkRec (s : State) (code : BitVec 16) (colour : BitVec 4) (core : Option Nat) (unit : Nat) : LogRec :=
  { code := code, colour := colour, core := core.map (BitVec.ofNat 6), unit := BitVec.ofNat 8 unit,
    stroke := s.mast.stroke, jobId := s.jobId colour.toNat,
    step := match core with
      | some c => if (s.core c).csr.stepOpen then (s.core c).csr.step else 0
      | none => 0 }

/-- The error log with one record entered: merged into the newest entry, or added, overwriting the oldest of 512 (R356). -/
def Log.enter (l : Log) (r : LogRec) : Log :=
  match l.entries.getLast? with
  | some e =>
    if e.code = r.code && e.colour = r.colour && e.core = r.core && e.unit = r.unit && e.detail = r.detail && e.stroke = r.stroke then
      { l with entries := l.entries.dropLast ++ [{ e with repeats := if e.repeats = 0xFF then 0xFF else e.repeats + 1 }] }
    else
      { l with
        entries := (if l.entries.length < 512 then l.entries else l.entries.drop 1) ++ [{ r with index := l.nextIndex, repeats := 0 }]
        nextIndex := l.nextIndex + 1
        overflow := if l.entries.length < 512 then l.overflow else satInc16 l.overflow }
  | none => { l with entries := [{ r with index := l.nextIndex, repeats := 0 }], nextIndex := l.nextIndex + 1 }

/-- The capture queue with one record pushed: a full queue drops classes T, L and P and keeps D and M waiting (R354). -/
def Log.push (l : Log) (r : LogRec) : Log :=
  let k := faultClass r.code
  let l := { l with faultSum := setBit l.faultSum k, newSum := setBit l.newSum k }
  if l.capq.length < 64 then { l with capq := l.capq ++ [r] }
  else if k == 0 || k == 4 then { l with waiting := l.waiting ++ [r] }
  else { l with capqDrop := true, newDrop := true, overflow := satInc16 l.overflow }

/-- The capture queue with its oldest record popped into the log, and the oldest waiting record pushed (R354, R396). -/
def Log.pop (l : Log) : Log :=
  match l.capq with
  | [] => l
  | r :: t =>
    match l.waiting with
    | [] => ({ l with capq := t }).enter r
    | w :: ws => ({ l with capq := t ++ [w], waiting := ws }).enter r

/-- Set the FAULT CSR of core c if it is clear, and note the first code of this cycle, which outlasts a clear in it (R11,
R354). -/
def setFault (s : State) (c : Nat) (code : BitVec 16) : State :=
  s.modCore c (fun k => { k with csr := { k.csr with
    fault := if k.csr.fault = 0 then code else k.csr.fault
    newFault := if k.csr.newFault = 0 then code else k.csr.newFault } })

/-- A unit raises a fault: its core's FAULT CSR is set if clear, and a record is pushed (R354). -/
def raiseRec (s : State) (r : LogRec) : State :=
  let s := match r.core with
    | some c => setFault s c.toNat r.code
    | none => s
  { s with log := s.log.push r }

/-- Raise a fault of a core's unit with the core's colour. -/
def raiseCore (s : State) (c : Nat) (code : BitVec 16) (unit : Nat) (detail : BitVec 16) : State :=
  raiseRec s { mkRec s code (s.colourOf c) (some c) unit with detail := detail }

/-- Raise a fault of a unit outside the cores. -/
def raiseUnit (s : State) (code : BitVec 16) (colour : BitVec 4) (unit : Nat) (peer : Option (BitVec 6)) (detail : BitVec 16) : State :=
  raiseRec s { mkRec s code colour none unit with peer := peer, detail := detail }

/-- Skovi firmware enters its own fault at the moment it raises it (R354). -/
def fwLog (s : State) (r : LogRec) : State :=
  { s with log := { (s.log.enter r) with faultSum := setBit s.log.faultSum (faultClass r.code), newSum := setBit s.log.newSum (faultClass r.code) } }

/-- Firmware's record of a fault of its own (unit 15). -/
def fwRaise (s : State) (code : BitVec 16) (colour : BitVec 4) (detail : BitVec 16) : State :=
  fwLog s { mkRec s code colour none 15 with detail := detail }

/-- Set STEP_FAIL of core c (R195, R353 class D). -/
def failStep (s : State) (c : Nat) : State := s.modCore c (fun k => { k with csr := { k.csr with stepFail := true } })

/-- A detected error charged to core c (class D, R353). -/
def raiseD (s : State) (c : Nat) (code : BitVec 16) (unit : Nat) (detail : BitVec 16) (addr : Nat) : State :=
  failStep (raiseRec s { mkRec s code (s.colourOf c) (some c) unit with detail := detail, addr := BitVec.ofNat 40 addr }) c

/-- A program fault of core c (class P, R353): recorded, STEP_FAIL set, the core HALTED. -/
def raiseP (s : State) (c : Nat) (code : BitVec 16) (unit : Nat) (detail : BitVec 16) : State :=
  (failStep (raiseCore s c code unit detail) c).modCore c (fun k => { k with st := .halted, hold := none })

/-! ### Memory (R108, R112, R118 to R120, R129) -/

/-- What an address range of one access is. -/
inductive Place where
  | sm
  | cm (c : Nat)
  | ctl
  | unmapped
deriving DecidableEq, Repr

/-- The first byte of core memory of core c (R108). -/
def cmBase (c : Nat) : Nat := 0x8000000000 + c * 0x800000

/-- The stack layers that bytes a to a + n − 1 touch (R112). -/
def layersOf (a n : Nat) : List Nat := (List.range (((a + n - 1) / 0x180000000) + 1 - a / 0x180000000)).map (· + a / 0x180000000)

/-- Where an access of n bytes at a lies, as powered now (R109, R129, R132). -/
def State.place (s : State) (a n : Nat) : Place :=
  if a + n ≤ 0x1200000000 then
    if (layersOf a n).all (fun l => bit s.mem.layersOn l) then .sm else .unmapped
  else if 0x8000000000 ≤ a && a + n ≤ 0x8018000000 then
    let c := (a - 0x8000000000) / 0x800000
    if a - cmBase c + n ≤ 0x600000 && (s.core c).on then .cm c else .unmapped
  else if 0xF000000000 ≤ a && a + n ≤ 0xF001400000 then .ctl
  else .unmapped

/-- One byte of stack or core memory (zero where nothing was written, R128). -/
def State.byteAt (s : State) (a : Nat) : Byte := Table.get 0 s.mem.cells a

/-- n bytes from address a. -/
def State.bytesAt (s : State) (a : Nat) : Nat → List Byte
  | 0 => []
  | n + 1 => s.byteAt a :: s.bytesAt (a + 1) n

/-- Write bytes into a table of bytes from address a. -/
def putBytes (t : Table Byte) (a : Nat) : List Byte → Table Byte
  | [] => t
  | b :: bs => putBytes (Table.set 0 t a b) (a + 1) bs

/-- Whether a read of n bytes at a detects an error (R118). -/
def State.detects (s : State) (a n : Nat) : Bool :=
  s.mem.bad.any (fun g => g * 64 < a + n && a < g * 64 + 64) || s.mem.cmBad.any (fun b => a ≤ b && b < a + n)

/-- The granules that n bytes at a touch. -/
def granulesOf (a n : Nat) : List Nat := if n = 0 then [] else (List.range ((a + n - 1) / 64 + 1 - a / 64)).map (· + a / 64)

/-- Write bytes to memory: whole granules get a fresh check; a partial write of a failed SM granule leaves its CRC
inverted; CM bytes get fresh parity (R118, R119). The flag says that a merge met a failed granule. -/
def memWrite (s : State) (a : Nat) (data : List Byte) : State × Bool :=
  let n := data.length
  let whole := fun g => decide (a ≤ g * 64) && decide (g * 64 + 64 ≤ a + n)
  let met := s.mem.bad.any (fun g => !whole g && g * 64 < a + n && a < g * 64 + 64)
  ({ s with mem := { s.mem with
      cells := putBytes s.mem.cells a data
      bad := s.mem.bad.filter (fun g => !whole g)
      cmBad := s.mem.cmBad.filter (fun b => !(a ≤ b && b < a + n)) } }, met)

/-- Zero a range with a valid check (R126 to R128). -/
def zeroRange (s : State) (a n : Nat) : State :=
  { s with mem := { s.mem with
      cells := s.mem.cells.filter (fun e => !(a ≤ e.1 && e.1 < a + n))
      bad := s.mem.bad.filter (fun g => !(a ≤ g * 64 && g * 64 + 64 ≤ a + n))
      cmBad := s.mem.cmBad.filter (fun b => !(a ≤ b && b < a + n)) } }

/-- The unit that logs a detection at an address: 7 CM, 8 vault (Table 17-2), with its fault code (R120). -/
def detectCode (a : Nat) : BitVec 16 × Nat := if a < 0x1200000000 then (fSmCrc, 8) else (fCmParity, 7)

/-- The granules, or rows of core memory, among n bytes at a that fail their check (R118). -/
def State.failedIn (s : State) (a n : Nat) : List Nat :=
  ((s.mem.bad.filter (fun g => g * 64 < a + n && a < g * 64 + 64)) ++
   ((s.mem.cmBad.filter (fun b => a ≤ b && b < a + n)).map (· / 64))).foldl (fun l g => insertNat g l) []

/-- A read or merge of n bytes at a on behalf of core c detected an error: each failed granule is logged with its DLA, the
colour and the core, and the step fails (R119, R120). -/
def detectFor (s : State) (c : Nat) (a n : Nat) : State :=
  (s.failedIn a n).foldl (fun s g => raiseD s c (detectCode a).1 (detectCode a).2 0 (g * 64)) s

/-- A detection of a read or merge for no local core: logged with the DLA and colour, charging no step here (R120). -/
def detectRemote (s : State) (colour : BitVec 4) (a n : Nat) (peer : Option (BitVec 6)) : State :=
  (s.failedIn a n).foldl (fun s g =>
    raiseRec s { mkRec s (detectCode a).1 colour none (detectCode a).2 with addr := BitVec.ofNat 40 (g * 64), peer := peer }) s

/-! ### Check bits and rows (R108, R112, R118) -/

/-- One byte of a CRC-16, polynomial 0x1021, most significant bit first (R118). -/
def crcByte (c : BitVec 16) (b : Byte) : BitVec 16 :=
  (List.range 8).foldl (fun c _ => (c <<< 1) ^^^ (if c.msb then 0x1021 else 0)) (c ^^^ (b.setWidth 16 <<< 8))

/-- CRC-16 with polynomial 0x1021, initial value 0xFFFF and no final XOR (R118). -/
def crc16 (l : List Byte) : BitVec 16 := l.foldl crcByte 0xFFFF

/-- The CRC-16 of granule g with 64 data bytes: the data, then DLA[39:6] in five bytes (R118). -/
def granuleCrc (g : Nat) (data : List Byte) : BitVec 16 := crc16 (data ++ leBytes 5 g)

/-- The CRC-16 that a granule of stack memory holds: that of its content, inverted where its check fails (R118, R119). -/
def State.storedCrc (s : State) (g : Nat) : BitVec 16 :=
  let c := granuleCrc g (s.bytesAt (g * 64) 64)
  if s.mem.bad.contains g then ~~~ c else c

/-- The vault of a DLA of stack memory (R112). -/
def vaultOf (a : Nat) : Nat := a % 0x180000000 / 0x8000000

/-- The repair row of a DLA of stack memory, or the row of core memory, as one number. -/
def rowOf (a : Nat) : Nat :=
  if a < 0x1200000000 then
    let o := a % 0x8000000
    (((a / 0x180000000) * 48 + vaultOf a) * 16 + o / 64 % 16) * 4096 + o / 0x8000 % 4096
  else
    let o := (a - 0x8000000000) % 0x800000
    2 ^ 30 + (((a - 0x8000000000) / 0x800000) * 32 + o / 64 % 32) * 3072 + o / 2048

/-- The bank of a row number, and the spare rows it has (R122). -/
def bankOfRow (r : Nat) : Nat × Nat := if r < 2 ^ 30 then (r / 4096, 62) else (2 ^ 30 + (r - 2 ^ 30) / 3072, 46)

/-! ### Region checks (R133 to R137) -/

/-- The RD attribute (Table 7-4). -/
def Region.rd (r : Region) : Bool := bit r.attrs 1
/-- The WR attribute. -/
def Region.wr (r : Region) : Bool := bit r.attrs 2
/-- The EA attribute. -/
def Region.ea (r : Region) : Bool := bit r.attrs 3
/-- The GUARD attribute. -/
def Region.guard (r : Region) : Bool := bit r.attrs 4
/-- The CRED attribute. -/
def Region.cred (r : Region) : Bool := bit r.attrs 5
/-- The PRIV attribute. -/
def Region.priv (r : Region) : Bool := bit r.attrs 6

/-- Whether a valid entry covers all of n bytes at a (R135 check 3). -/
def Region.covers (r : Region) (a n : Nat) : Bool := bit r.attrs 0 && r.base * 4096 ≤ a && a + n ≤ (r.last + 1) * 4096

/-- The entry of a colour's table that covers an access whole. -/
def State.regionAt (s : State) (colour a n : Nat) : Option Region := (s.regionsOf colour).find? (·.covers a n)

/-- How a target answers an access. -/
inductive Access where
  | ok
  | unmapped
  | refused
deriving DecidableEq, Repr

/-- Whether a write to a CRED entry may pass: the owner core's own engines and mover, or a window that covers every byte
(R135 check 6). -/
def State.credOk (s : State) (agent : Option Nat) (win : Option Nat) (colour a n : Nat) : Bool :=
  (match win with
   | some w => (s.window w).valid && (s.window w).colour.toNat == colour && (s.window w).base ≤ a && a + n ≤ (s.window w).base + (s.window w).len
   | none => false) ||
  (match agent with
   | some c => s.windows.any (fun e => e.2.valid && e.2.owner == c && e.2.base ≤ a && a + n ≤ e.2.base + e.2.len)
   | none => false)

/-- The checks of R135 on an access to stack or core memory, in order; control space is refused (R136). -/
def State.check (s : State) (colour : Nat) (agent win : Option Nat) (write : Bool) (a n : Nat) : Access :=
  if n = 0 then .ok else
  match s.place a n with
  | .unmapped => .unmapped
  | .ctl => .refused
  | _ =>
    if colour = 0 then .ok else
    match s.regionAt colour a n with
    | none => .refused
    | some r =>
      if write then
        if !r.wr || r.priv then .refused
        else if r.cred && !s.credOk agent win colour a n then .refused
        else .ok
      else if r.rd then .ok else .refused

/-- The check of a WRITE or LEDGER message: the whole page that holds ADDR (R78). -/
def checkPage (s : State) (m : Msg) : Access :=
  s.check m.colour.toNat none (if m.winv then some m.win.toNat else none) true (m.addr.toNat / 4096 * 4096) 4096

/-- The fault of a locally refused access (R109, R135). -/
def Access.code : Access → BitVec 16
  | .unmapped => fAddrUnmapped
  | _ => fColourRefused

/-! ### Addresses (R131) -/

/-- The DLA of a package global address. -/
def pgaDla (x : Word) : Nat := x.toNat % 2 ^ 40
/-- The die ID of a package global address. -/
def pgaDie (x : Word) : BitVec 6 := field x 40 6
/-- Whether the reserved bits [47:46] of a package global address are zero. -/
def pgaOk (x : Word) : Bool := field x 46 2 == 0

/-! ### Sending (R66, R71, R88) -/

/-- OP codes (Table 4-5). -/
def opRead : BitVec 4 := 0x1
/-- WRITE. -/
def opWrite : BitVec 4 := 0x0
/-- READ_DATA. -/
def opReadData : BitVec 4 := 0x3
/-- WRITE_ACK. -/
def opWriteAck : BitVec 4 := 0x4
/-- LEDGER. -/
def opLedger : BitVec 4 := 0x2
/-- CTRL. -/
def opCtrl : BitVec 4 := 0x5
/-- MGMT. -/
def opMgmt : BitVec 4 := 0x6

/-- Put a message behind the messages that wait to be sent (R75). -/
def send (s : State) (m : Msg) : State := { s with tx := s.tx ++ [{ msg := m, port := none }] }
/-- Put a message for one port behind the messages that wait (Pennants, boot messages). -/
def sendOn (s : State) (p : PortId) (m : Msg) : State := { s with tx := s.tx ++ [{ msg := m, port := some p }] }

/-- A message of this die with no payload and no window. -/
def plainMsg (s : State) (dst : BitVec 6) (colour : BitVec 4) (op : BitVec 4) (addr : Dla) (tag : BitVec 12) : Msg :=
  { src := s.ownId, dst := dst, colour := colour, op := op, addr := addr, tag := tag, win := 0, winv := false, status := 0,
    ll := false, data := [], bad := false }

/-- The payload of a CTRL flit that carries one slot: 13 slots of 16 bytes, then 13 slot types (R71). -/
def ctrlPayload (stype : Byte) (slot : Slot) : List Byte :=
  leBytes 16 slot.toNat ++ List.replicate 192 0 ++ [stype] ++ List.replicate 15 0

/-- Put a slot on the mesh of this die (R272). -/
def meshSlot (s : State) (stype : Byte) (colour : BitVec 4) (core : Nat) (slot : Slot) : State :=
  { s with mesh := s.mesh ++ [{ stype := stype, colour := colour, src := s.ownId, core := core, slot := slot }] }

/-- A signal slot of core c for a core of this die (R272, R275). -/
def meshSignal (s : State) (c : Nat) (colour : BitVec 4) (core : Nat) (slot : Slot) : State :=
  { s with mesh := s.mesh ++ [{ stype := 6, colour := colour, src := s.ownId, core := core, slot := slot, sender := c }] }

/-- The slot of a type, source and colour on the mesh. -/
def isSlot (stype : Byte) (src : BitVec 6) (colour : BitVec 4) (slot : Slot) (x : MeshSlot) : Bool :=
  x.stype == stype && x.src == src && x.colour == colour && x.slot == slot

/-- A unit consumes the first slot of a kind that waits on the mesh; with none there nothing happens (R272;
assumption 133). -/
def takeMesh (s : State) (hit : MeshSlot → Bool) (f : State → State) : State :=
  if s.mesh.any hit then f { s with mesh := removeFirst hit s.mesh } else s

/-- Send one slot to a die: on the own mesh where the die is this one, over a link otherwise, and nowhere where the die is
ABSENT (R71, R103, R272). -/
def sendSlot (s : State) (dst : BitVec 6) (stype : Byte) (colour : BitVec 4) (core : Nat) (slot : Slot) : State :=
  if some dst = s.member.id then meshSlot s stype colour core slot
  else if (s.die dst.toNat).st == .absent then s
  else send s { plainMsg s dst colour opCtrl 0 0 with data := ctrlPayload stype slot }

/-- The TAGs of requester r, a core or 48 to 51 for a Skovi core, that no outstanding request carries and no late response
is awaited for, lowest first (R88; assumption 114). -/
def State.tagsFree (s : State) (r : Nat) : List Nat :=
  ((List.range 64).map (fun n => r * 64 + n)).filter (fun t =>
    !s.reqs.any (fun (q : Req) => q.tag.toNat == t) && !s.late.any (fun e => e.1.toNat == t))

/-- The TAG that requester r takes next (R88). -/
def freshTag (s : State) (r : Nat) : Option (BitVec 12) := (s.tagsFree r).head?.map (BitVec.ofNat 12)

/-- How many TAGs requester r has free (R88). -/
def State.freeTags (s : State) (r : Nat) : Nat := (s.tagsFree r).length

/-- Erase the first equal element, if it is there. -/
def eraseOnce {α : Type} [DecidableEq α] (x : α) (l : List α) : List α := removeFirst (fun y => decide (y = x)) l

/-- Record what left the die. -/
def emit (s : State) (o : Out) : State := { s with out := o :: s.out }

/-- The phase of mast time, 16 bits (R41, R42, R47). -/
def Mast.phase (m : Mast) : Nat :=
  if m.st == .unlocked then 0
  else if m.satur then 0xFFFF
  else Nat.min 0xFFFF (65536 * m.c / m.capC)

end Sys2Proof.Machine
end

