-- ==== Sys2Proof/Machine/Mast.lean ====
section
/-!
DEFINITION. Mast time: frames, holdover, loss, period changes, and refresh slices (chapter 3, R114).
-/
namespace Sys2Proof.Machine

/-- The fields of a Mast frame payload (Table 3-2). -/
structure Frame where
  stroke : Nat
  period : Nat
  src : BitVec 2
  hubHold : Bool
  rsv : Bool

/-- Read a Mast frame slot (Table 3-2). -/
def Frame.ofSlot (x : Slot) : Frame :=
  { stroke := (field x 0 64).toNat, period := (field x 64 10).toNat, src := field x 80 2, hubHold := bit x 82,
    rsv := field x 74 6 != 0 || field x 83 45 != 0 }

/-- Whether a die is a Hub of the die table: role HUB, an ID of 60 to 63, and not ABSENT (R20, R40). -/
def State.isHub (s : State) (d : BitVec 6) : Bool :=
  let e := s.die d.toNat
  e.st != .absent && e.role == 1 && 60 ≤ d.toNat

/-- The Hub of the own package: the Hub in the die table at the least distance, ties to the lowest ID (R20, R287;
assumption 10). -/
def State.hub (s : State) : Option (BitVec 6) :=
  ((List.range 4).map (fun i => BitVec.ofNat 6 (60 + i))).foldl (fun best d =>
    if !s.isHub d then best
    else match best with
      | none => some d
      | some b => if (s.die d.toNat).dist < (s.die b.toNat).dist then some d else some b) none

/-- The checks of R39 on a frame's content and source. -/
def frameBad (s : State) (src : BitVec 6) (colour : BitVec 4) (f : Frame) : Bool :=
  s.hub != some src || colour != 0 || f.period == 0 || decide (1000 < f.period) || f.src == 3 || f.rsv

/-- DISCARDED counts one frame (R39, R42, R365). -/
def Mast.discard (m : Mast) : Mast :=
  { m with discarded := (bump32 m.discarded).1, wrap := if (bump32 m.discarded).2 then setBit m.wrap 2 else m.wrap
           newWrap := if (bump32 m.discarded).2 then setBit m.newWrap 2 else m.newWrap }

/-- C after an accepted frame of stroke n: the interval between frames of consecutive strokes, both at or after the last
period change, unless it is below 1,250 cycles (R41, R61). -/
def Mast.measured (m : Mast) (n : Nat) : Nat :=
  match m.lastStroke with
  | some l => if l.toNat + 1 = n && m.changedAt.toNat ≤ l.toNat && 1250 ≤ m.lastAge then m.lastAge else m.capC
  | none => m.capC

/-- Whether (stroke, phase) of a booking is earlier than (n, 0). -/
def Booking.before (b : Booking) (n : Nat) : Bool := decide (b.stroke.toNat < n)

/-- Whether a periodic booking has an occurrence before (n, 0) after the occurrences that are due at m already. -/
def Booking.moreBefore (m : Mast) (n : Nat) (b : Booking) : Bool :=
  b.period != 0 &&
    (let last := if b.phase.toNat ≤ m.phase then m.stroke.toNat else m.stroke.toNat - 1
     decide (b.stroke.toNat + ((last - b.stroke.toNat) / b.period.toNat + 1) * b.period.toNat < n))

/-- Mark the armed bookings that a step of the stroke to n puts in the past: those before (n, 0) that were not due
before the step. One that was due already merges the occurrences passed over, so its waiting firing is late (R54, R55). -/
def Booking.markPast (due : Booking → Bool) (m : Mast) (n : Nat) (b : Booking) : Booking :=
  if b.valid && b.before n then
    if due b then { b with late := b.late || b.moreBefore m n } else { b with past := true }
  else b

/-- Mark the armed bookings of stroke l, which fire first at the frame of the next stroke (R42, first case). -/
def Booking.markCatch (l : Nat) (b : Booking) : Booking :=
  if b.valid && b.stroke.toNat == l && !b.past then { b with catchup := true } else b

/-- Apply a function to every booking of the die and of its cores. -/
def mapBookings (f : Booking → Booking) (s : State) : State :=
  { s with
    dieBookings := Table.update {} (fun _ b => f b) (s.dieBookings.map (·.1)) s.dieBookings
    cores := Table.update {} (fun _ k => { k with bookings := Table.update {} (fun _ b => f b) (k.bookings.map (·.1)) k.bookings })
      (s.cores.map (·.1)) s.cores }

/-- Whether an armed booking is due at the die's stroke and phase (R53). -/
def Booking.due (m : Mast) (b : Booking) : Bool :=
  b.valid && m.st != .unlocked &&
    (decide (b.stroke < m.stroke) || (b.stroke == m.stroke && decide (b.phase.toNat ≤ m.phase)))

/-- The period configured for a stroke (R43, R61). -/
def Mast.periodAt (m : Mast) (n : Nat) : Nat := if m.pend && m.effective.toNat ≤ n then m.next.toNat else m.period.toNat

/-- What every accepted frame leaves: the last frame's facts and, on a period that differs, PERIOD_MISMATCH and its log
entry (R39, R41, R43). -/
def acceptFrame (s : State) (f : Frame) : State :=
  let bad := s.mast.periodAt f.stroke != f.period
  let s := if bad then raiseUnit s fMastPeriod 0 14 none 0 else s
  { s with mast := { s.mast with
      lastStroke := some (BitVec.ofNat 64 f.stroke), lastAge := 0, src := f.src, hubHold := f.hubHold,
      mismatch := s.mast.mismatch || bad
      newFlags := if bad then setBit s.mast.newFlags 1 else s.mast.newFlags } }

/-- The stroke moves to n with phase 0 in state LOCKED, C as measured (R42, R44, R47). -/
def Mast.toStroke (m : Mast) (n : Nat) (c : Nat) : Mast :=
  { m with
    st := .locked, stroke := BitVec.ofNat 64 n, c := 0, capC := c, satur := false, hold := 0, beatC := 0
    beats := m.beats + (if m.st == .unlocked then 1 else n - m.stroke.toNat) }

/-- A frame that passed R39, by how its stroke compares with the local stroke (R42, R44). -/
def takeFrame (s : State) (f : Frame) : State :=
  let m := s.mast
  let l := m.stroke.toNat
  let n := f.stroke
  if m.st == .unlocked then
    if m.lastStroke.map (fun x => x.toNat + 1) = some n then
      let s := mapBookings (Booking.markPast (fun _ => false) s.mast n) s
      acceptFrame { s with mast := s.mast.toStroke n (m.measured n) } f
    else acceptFrame s f
  else if n < l then { s with mast := { m.discard with regress := true, newFlags := setBit m.newFlags 2 } }
  else if n = l then
    let s := acceptFrame s f
    if m.st == .locked then s else { s with mast := { s.mast with st := .locked, satur := true, hold := 0 } }
  else if n = l + 1 then
    let s := mapBookings (Booking.markCatch l) s
    acceptFrame { s with mast := s.mast.toStroke n (m.measured n) } f
  else
    let s := mapBookings (Booking.markPast (Booking.due m) m n) s
    let x := { s.mast.toStroke n m.capC with
      stepFwd := (bump32 m.stepFwd).1, wrap := if (bump32 m.stepFwd).2 then setBit m.wrap 0 else m.wrap
      newWrap := if (bump32 m.stepFwd).2 then setBit m.newWrap 0 else m.newWrap }
    acceptFrame { s with mast := x } f

/-- MAST_FRAME: a frame slot that waits on the mesh is checked, then accepted or discarded and counted (R39, R42, R272). -/
def execMastFrame (src : BitVec 6) (colour : BitVec 4) (slot : Slot) (s : State) : Result :=
  live s fun s => takeMesh s (isSlot 1 src colour slot) fun s =>
    let f := Frame.ofSlot slot
    if frameBad s src colour f then { s with mast := s.mast.discard } else takeFrame s f

/-- HOLDOVER_ENTRY: c has reached C + floor(C/16) with no frame, so the die advances the stroke itself (R44, R47). -/
def execHoldoverEntry (s : State) : Result :=
  live s fun s =>
    let m := s.mast
    if m.st == .locked && m.capC + m.capC / 16 ≤ m.c then
      { s with mast := { m with st := .holdover, stroke := m.stroke + 1, c := m.c - m.capC, satur := false, hold := 0, holdC := m.c - m.capC, beats := m.beats + 1 } }
    else s

/-- EXTRAPOLATED_STROKE: in HOLDOVER or LOST c has reached C, so the stroke increments and c decreases by C (R47). -/
def execExtrapolatedStroke (s : State) : Result :=
  live s fun s =>
    let m := s.mast
    if (m.st == .holdover || m.st == .lost) && m.capC ≤ m.c then
      { s with mast := { m with stroke := m.stroke + 1, c := m.c - m.capC, hold := m.hold + 1, beats := m.beats + 1 } }
    else s

/-- MAST_LOST_ENTRY: 64 whole strokes after it entered HOLDOVER, so at the c of its entry (Table 3-6: phase 0x0FFE), the die
sets MAST_LOST and logs F_MAST_LOST (R44, R45). -/
def execMastLostEntry (s : State) : Result :=
  live s fun s =>
    if s.mast.st == .holdover && (decide (64 < s.mast.hold) || (s.mast.hold == 64 && decide (s.mast.holdC ≤ s.mast.c))) then
      raiseUnit { s with mast := { s.mast with st := .lost, lost := true, newFlags := setBit s.mast.newFlags 0 } } fMastLost 0 14 none 0
    else s

/-- The refresh slices of one REFRESH firing fall due in every vault (R52, R114). -/
def scheduleSlices (s : State) (n : Nat) : State :=
  { s with mem := { s.mem with sliceDue := (List.range 48).foldl (fun t v => Table.set 0 t v (Table.get 0 t v + n)) s.mem.sliceDue } }

/-- REFRESH_SLICE: one due slice refreshes the next repair row of a vault half, the halves in turn; no content changes
(R114). -/
def execRefreshSlice (v : Fin 48) (upper : Bool) (s : State) : Result :=
  live s fun s =>
    let half := if upper then 1 else 0
    let k := 2 * v.val + half
    let due := Table.get 0 s.mem.sliceDue v.val
    if due = 0 || Table.get 0 s.mem.sliceNext v.val != half then s
    else
      { s with mem := { s.mem with
          sliceDue := Table.set 0 s.mem.sliceDue v.val (due - 1)
          sliceNext := Table.set 0 s.mem.sliceNext v.val (1 - half)
          sliceRow := Table.set 0 s.mem.sliceRow k ((Table.get 0 s.mem.sliceRow k + 1) % 4096) } }

end Sys2Proof.Machine
end

