-- ==== Sys2Proof/Machine/Flags.lean ====
section
/-!
DEFINITION. The flags and status values a core computes: signal flags, held and issued counts with their wrap flags,
queue depths, free scoreboard entries, and the waits that a flag satisfies (Table 9-2, R189 to R191).
-/
namespace Sys2Proof.Machine

/-- The wrap flags of CSRs 0x030 to 0x034 (Table 19-5). -/
def Csr.setWrap (r : Csr) (i : Nat) (on : Bool) : Csr := if on then { r with wrap := setBit r.wrap i, newWrap := setBit r.newWrap i } else r

/-- ISSUED counts one instruction (R177). -/
def Csr.countIssued (r : Csr) : Csr := ({ r with issued := r.issued + 1 }).setWrap 1 (r.issued == 0xFFFFFFFFFFFF)

/-- HELD_DATA counts one cycle held by a range or scalar interlock (R177). -/
def Csr.countHeldData (r : Csr) : Csr := ({ r with heldData := (bump32 r.heldData).1 }).setWrap 2 (bump32 r.heldData).2

/-- HELD_QUEUE counts one cycle held by a full queue (R177, R188). -/
def Csr.countHeldQueue (r : Csr) : Csr := ({ r with heldQueue := (bump32 r.heldQueue).1 }).setWrap 3 (bump32 r.heldQueue).2

/-- Set signal flag f of core c and remember it for this cycle (R190). -/
def setFlag (s : State) (c f : Nat) : State :=
  s.modCore c (fun k => { k with csr := { k.csr with flags := setBit k.csr.flags f }, flagSets := setBit k.flagSets f })

/-- Clear the flags of a mask: a set arriving in the same cycle leaves its flag set (R11, R190). -/
def Core.clearFlags (k : Core) (mask : Word) : Core :=
  { k with csr := { k.csr with flags := w1c k.csr.flags k.flagSets mask } }

/-- WAIT.ALL: every masked flag is set (Table 9-6). -/
def allSet (flags mask : Word) : Bool := flags &&& mask == mask

/-- WAIT.ANY: at least one masked flag is set (Table 9-6). -/
def anySet (flags mask : Word) : Bool := flags &&& mask != 0

/-- WAIT.FILL: (FILLED − target) mod 2^32 is below 2^31 (Table 9-6). -/
def filledTo (filled target : BitVec 32) : Bool := decide ((filled - target).toNat < 2 ^ 31)

/-- Free scoreboard entries, SB_FREE (R173). -/
def Core.sbFree (k : Core) : Nat := 64 - k.sb.length

/-- The queue of engine e. -/
def Core.queue (k : Core) (e : Nat) : List QInstr := Table.get [] k.queues e
/-- The instructions of engine e that have started and not completed. -/
def Core.run (k : Core) (e : Nat) : List QInstr := Table.get [] k.running e

/-- QDEPTH: six 5-bit depths, MA0 lowest (Table 9-2). -/
def Core.qdepth (k : Core) : Nat :=
  (List.range 6).foldl (fun acc e => acc + (k.queue e).length * 2 ^ (5 * e)) 0

/-- Whether the engine queues of a core have drained: nothing queued, running, folding or draining (R406). -/
def Core.drained (k : Core) : Bool :=
  (List.range 6).all (fun e => (k.queue e).isEmpty && (k.run e).isEmpty) &&
    k.arrays.all (fun e => e.2.cur.isNone && e.2.drains.isEmpty)

/-- A core asked to STOP is STOPPED once its queues have drained (R406). -/
def Core.settleStop (k : Core) : Core :=
  if k.drainStop && k.drained then { k with st := .stopped, drainStop := false, hold := none } else k

/-- Whether a posted descriptor has pieces still to send or to settle (R161, R162). -/
def Posted.working (p : Posted) : Bool := p.outst != 0 || (!p.allSent && p.fail.isNone)

/-- Whether a started and uncompleted descriptor writes the core's own CM (Table 7-5, FENCE.C). -/
def Posted.ownCm (s : State) (c : Nat) (p : Posted) : Bool :=
  p.started && pgaDie p.desc.dst == s.ownId && p.desc.op != 2 && decide (cmBase c ≤ pgaDla p.desc.dst) && decide (pgaDla p.desc.dst < cmBase c + 0x800000)

/-- The condition of FENCE.C: every earlier instruction has completed in its engine and started descriptors into the own
CM are performed (Table 7-5). -/
def fenceCHolds (s : State) (c : Nat) : Bool :=
  let k := s.core c
  (List.range 6).all (fun e => (k.queue e).isEmpty && (k.run e).isEmpty) && k.pendS.isEmpty && k.pendM.isEmpty &&
    k.arrays.all (fun e => e.2.cur.isNone && e.2.drains.isEmpty) &&
    k.chans.all (fun e => e.2.posted.all (fun p => !(p.working && p.ownCm s c)))

/-- Whether a posted descriptor still has writes or pieces to come: a descriptor behind a HALTED channel never starts
(R162; assumption 18). -/
def Chan.busy (h : Chan) : Bool := h.posted.any (fun p => p.working && (p.started || !h.halted))

/-- The condition of FENCE.D: in addition every earlier write to the own die is performed and every earlier remote write
is acknowledged (Table 7-5). -/
def fenceDHolds (s : State) (c : Nat) : Bool :=
  fenceCHolds s c && (s.core c).chans.all (fun e => !e.2.busy)

/-- Every descriptor the core posted has written its completion record (R184, R196). -/
def recordsDone (k : Core) : Bool := k.chans.all (fun e => e.2.halted || e.2.head == e.2.tail)

/-- Whether a core's probes of FENCE.P are all answered (R144, R145). -/
def probesDone (s : State) (c : Nat) : Bool := !s.reqs.any (fun r => r.kind == .fence c)

end Sys2Proof.Machine
end

