-- ==== Sys2Proof/Machine/Operands.lean ====
section
/-!
DEFINITION. Every operand form of the core: scalar registers, the fields of word 0, addresses of engines, extents,
scoreboard ranges, and the conditions under which an instruction issues (chapter 9, R155, R172, R207, R234).
-/
namespace Sys2Proof

/-! ### Fields (R179) -/

/-- Whether every field that a minor does not use is zero (R179). The masks give the bits of X and IMM in use. -/
def Fields.only (f : Fields) (d a b : Bool) (x imm : Nat) : Bool :=
  (d || f.d == 0) && (a || f.a == 0) && (b || f.b == 0) && f.x &&& ~~~ BitVec.ofNat 3 x == 0 && f.imm &&& ~~~ BitVec.ofNat 32 imm == 0

end Sys2Proof

namespace Sys2Proof.Machine

/-! ### Scalar registers (R176) -/

/-- A scalar register; s0 reads zero (R176). -/
def Core.sreg (k : Core) (n : Nat) : Word := if n = 0 then 0 else Table.get 0 k.sregs n
/-- Write a scalar register; a write to s0 is discarded (R176). -/
def Core.setSreg (k : Core) (n : Nat) (v : Word) : Core := if n = 0 then k else { k with sregs := Table.set 0 k.sregs n v }

/-- The second operand of a SCALAR instruction: sB, or IMM sign-extended (R181). -/
def Core.operand2 (k : Core) (f : Fields) : Word := if bit f.x 0 then f.imm.signExtend 64 else k.sreg f.b.toNat

/-- The address sA + IMM of a SMEM instruction, IMM sign-extended (R183). -/
def Core.smemAddr (k : Core) (f : Fields) : Word := k.sreg f.a.toNat + f.imm.signExtend 64

/-! ### Engine operands (R155, R207, R234) -/

/-- Where an engine operand lies: the core's own CM, or an operand buffer. -/
inductive Opnd where
  | cm (dla : Nat)
  | ob (buf off : Nat)
deriving DecidableEq, Repr

/-- The size of an operand buffer (R155, Table 6-1). -/
def obSize (buf : Nat) : Nat := if buf < 4 then 0x40000 else if buf = 4 then 0x20000 else if buf = 5 then 0x10000 else 0

/-- Read an operand word in the forms of R207: a PGA in the own CM, or an operand buffer and offset. Control space is never
reached from a core (R136). -/
def decodeOpnd (s : State) (c : Nat) (w : Word) : Except (BitVec 16) Opnd :=
  if bit w 63 then
    if field w 21 42 != 0 then .error fReservedSet
    else if 6 ≤ (field w 18 3).toNat then .error fReservedSet
    else .ok (.ob (field w 18 3).toNat (field w 0 18).toNat)
  else if field w 46 17 != 0 then .error fReservedSet
  else if pgaDie w != s.ownId then .error fAddrUnmapped
  else if cmBase c ≤ pgaDla w && pgaDla w < cmBase c + 0x600000 then .ok (.cm (pgaDla w))
  else if s.place (pgaDla w) 1 = .ctl then .error fColourRefused
  else .error fAddrUnmapped

/-- Whether an operand word sets reserved bits of its form (R9, R131, R207). -/
def opndReserved (w : Word) : Bool :=
  if bit w 63 then field w 21 42 != 0 || decide (6 ≤ (field w 18 3).toNat) else field w 46 17 != 0

/-- Whether the bytes from the operand's address + lo to + hi lie in its buffer or in the own CM (R106, R186). -/
def Opnd.fits (c : Nat) (o : Opnd) (lo hi : Int) : Bool :=
  match o with
  | .ob b off => decide (0 ≤ (off : Int) + lo) && decide ((off : Int) + hi < obSize b)
  | .cm a => decide ((cmBase c : Int) ≤ a + lo) && decide ((a : Int) + hi < cmBase c + 0x600000)

/-- Bytes of an operand buffer. -/
def Core.obBytes (k : Core) (buf off : Nat) : Nat → List Byte
  | 0 => []
  | n + 1 => Table.get 0 k.ob (buf * 0x40000 + off) :: k.obBytes buf (off + 1) n

/-- n bytes at an offset from an operand's address. -/
def readOpnd (s : State) (c : Nat) (o : Opnd) (off : Int) (n : Nat) : List Byte :=
  match o with
  | .ob b a => (s.core c).obBytes b ((a : Int) + off).toNat n
  | .cm a => s.bytesAt ((a : Int) + off).toNat n

/-- Whether a read of n bytes there detects an error: a failed parity or check (R107, R118). -/
def badOpnd (s : State) (c : Nat) (o : Opnd) (off : Int) (n : Nat) : Bool :=
  match o with
  | .ob b a =>
    let x := b * 0x40000 + ((a : Int) + off).toNat
    (s.core c).obBad.any (fun y => x ≤ y && y < x + n)
  | .cm a => s.detects ((a : Int) + off).toNat n

/-- What a detected read by a unit of core c leaves: the log record and STEP_FAIL (R107, R120, R195). -/
def detectOpnd (s : State) (c : Nat) (o : Opnd) (off : Int) (n unit : Nat) : State :=
  match o with
  | .ob _ _ => raiseD s c fObParity unit 0 0
  | .cm a => detectFor s c ((a : Int) + off).toNat n

/-- Write bytes at an offset from an operand's address; poisoned bytes carry inverted parity (R222). A write into CM that
the region table refuses performs no byte and raises F_COLOUR_REFUSED (R135). -/
def writeOpnd (s : State) (c : Nat) (o : Opnd) (off : Int) (data : List Byte) (poison : Bool) : State :=
  match o with
  | .ob b a =>
    let x := b * 0x40000 + ((a : Int) + off).toNat
    let k := s.core c
    let bad := k.obBad.filter (fun y => !(x ≤ y && y < x + data.length))
    s.setCore c { k with ob := putBytes k.ob x data, obBad := if poison then bad ++ (List.range data.length).map (· + x) else bad }
  | .cm a =>
    let x := ((a : Int) + off).toNat
    match s.check (s.colourOf c).toNat (some c) none true x data.length with
    | .ok =>
      let s := (memWrite s x data).1
      if poison then { s with mem := { s.mem with cmBad := s.mem.cmBad ++ (List.range data.length).map (· + x) } } else s
    | e => raiseP s c e.code 0 0

/-- Read bytes at an offset, with the detection charged to the core; a refused access raises its fault and gives the
engine free bytes (R120, R135; assumption 9). -/
def fetchOpnd (s : State) (c : Nat) (o : Opnd) (off : Int) (n : Nat) (unit : Nat) : List Byte × State :=
  let good := if badOpnd s c o off n then detectOpnd s c o off n unit else s
  match o with
  | .ob _ _ => (readOpnd s c o off n, good)
  | .cm a =>
    match s.check (s.colourOf c).toNat (some c) none false ((a : Int) + off).toNat n with
    | .ok => (readOpnd s c o off n, good)
    | e => ((takeFreeBytes s n).1, raiseP (takeFreeBytes s n).2 c e.code 0 0)

/-! ### Scoreboard ranges (R172, R173) -/

/-- A range an instruction reads or writes. -/
structure Rng where
  space : Space
  first : Nat
  last : Nat
  write : Bool
deriving DecidableEq, Repr

/-- One more tracked run of bytes behind those found: joined to the last where they adjoin. -/
def joinRun (acc : List (Nat × Nat)) (x : Nat × Nat) : List (Nat × Nat) :=
  match acc.getLast? with
  | some y => if y.2 + 1 = x.1 then acc.dropLast ++ [(y.1, x.2)] else acc ++ [x]
  | none => [x]

/-- The bytes among first to last that are tracked, as runs: those in entries with GUARD = 1 (R172, R174). -/
def State.tracked (s : State) (colour first last : Nat) : List (Nat × Nat) :=
  let es := (s.regionsOf colour).filter (fun r => bit r.attrs 0 && r.guard && decide (r.base * 4096 ≤ last) && decide (first < (r.last + 1) * 4096))
  ((sortBy (fun (r : Region) => [r.base]) es).map (fun r => (Nat.max first (r.base * 4096), Nat.min last (r.last * 4096 + 4095)))).foldl joinRun []

/-- The tracked ranges of the bytes from lo to hi of an operand (R172). -/
def rngOf (s : State) (c : Nat) (o : Opnd) (lo hi : Int) (write : Bool) : List Rng :=
  if hi < lo then [] else
  match o with
  | .ob b off => [⟨.ob b, ((off : Int) + lo).toNat, ((off : Int) + hi).toNat, write⟩]
  | .cm a => (s.tracked (s.colourOf c).toNat ((a : Int) + lo).toNat ((a : Int) + hi).toNat).map (fun x => ⟨.mem, x.1, x.2, write⟩)

/-- The ranges of one instruction: a range that it both reads and writes counts once, as a write (R173). -/
def oneEach (rs : List Rng) : List Rng :=
  rs.filter (fun r => r.write || !rs.any (fun w => w.write && w.space == r.space && w.first == r.first && w.last == r.last))

/-- Whether two ranges overlap. -/
def Rng.meets (r : Rng) (e : SbEntry) : Bool := r.space == e.space && r.first ≤ e.last && e.first ≤ r.last

/-- Whether a range must wait: a source under a pending write, or a destination under a pending read or write (R172). -/
def Core.blocked (k : Core) (rs : List Rng) : Bool :=
  rs.any (fun r => k.sb.any (fun e => r.meets e && (r.write || e.write)))

/-- The scoreboard entries of an instruction's ranges (R173). -/
def entriesOf (owner : Nat) (rs : List Rng) : List SbEntry := rs.map (fun r => ⟨r.space, r.first, r.last, r.write, owner⟩)

/-- The scoreboard without an instruction's entries, each removed once (R173). -/
def freeEntries (sb : List SbEntry) (es : List SbEntry) : List SbEntry := es.foldl (fun acc e => eraseOnce e acc) sb

/-! ### Issue (R180, R185) -/

/-- Whether the CU of core c may issue at all: powered, running and held by no wait (R185, R189). -/
def Core.issuing (k : Core) : Bool := k.on && k.st == .run && k.hold.isNone && !k.drainStop

/-- The first instruction cache line that an issue at PC lacks: absent, or of failed parity (R148, R180). -/
def Core.missing (k : Core) (long : Bool) : Option Nat :=
  let a := k.csr.pc.toNat / 64
  let b := (k.csr.pc.toNat + 8) / 64
  let lacks := fun l => !k.icache.contains l || k.icBad.contains l
  if lacks a then some a
  else if long && lacks b then some b
  else none

/-- A line of the instruction cache with a parity error is discarded and counted (R148; assumption 27). -/
def Core.dropLine (k : Core) (l : Nat) : Core :=
  if k.icBad.contains l then { k with icache := k.icache.filter (· != l), icBad := k.icBad.filter (· != l), lineErrors := k.lineErrors + 1 } else k

/-- A miss asks for the line and holds issue (R180). -/
def Core.askLine (k : Core) (l : Nat) : Core :=
  match k.icFill with
  | some _ => k.dropLine l
  | none => { k.dropLine l with icFill := some (l, false) }

/-- PC moves past the instruction and ISSUED counts it (R177, R180). -/
def Core.advance (k : Core) (long : Bool) : Core :=
  { k with csr := { k.csr.countIssued with pc := k.csr.pc + (if long then 16 else 8) } }

/-- Whether any of the named scalar registers is pending (R176). -/
def Core.pending (k : Core) (regs : List (BitVec 5)) : Bool := regs.any (fun r => r != 0 && k.pendS.contains r.toNat)

/-- An instruction that issue refuses: not issued, the core HALTED, STEP_FAIL set (R179). -/
def refuse (s : State) (c : Nat) (code : BitVec 16) : State := raiseP s c code 0 0

/-- What every instruction of the CU passes before its own effect: the core may issue, its lines are present, its fields
are in order and its scalar registers are not pending; otherwise it is held, refused or nothing happens (R179 to R185). -/
def issue (c : Nat) (long fieldsOk : Bool) (regs : List (BitVec 5)) (eff : State → State) (s : State) : State :=
  let k := s.core c
  if !k.issuing then s
  else match k.missing long with
  | some l => s.setCore c (k.askLine l)
  | none =>
    if !fieldsOk then refuse s c fReservedSet
    else if k.pending regs then s.setCore c { k with csr := k.csr.countHeldData }
    else eff s

/-- The instruction issues: PC and ISSUED advance (R177, R180). -/
def issued (s : State) (c : Nat) : State := s.modCore c (·.advance false)

/-- One cycle held by data (R177). -/
def heldData (s : State) (c : Nat) : State := s.modCore c (fun k => { k with csr := k.csr.countHeldData })
/-- One cycle held by a full queue (R177, R188). -/
def heldQueue (s : State) (c : Nat) : State := s.modCore c (fun k => { k with csr := k.csr.countHeldQueue })

/-- An MV instruction issues where its queue has a free slot, and takes one; its effect is at issue, and the mover takes it from
the queue in a later CCLK (R154, R179, R185, R187; assumption 121). -/
def mvIssue (c : Nat) (op : EOp) (f : Fields) (eff : (State → State) → State → State) (s : State) : State :=
  if 16 ≤ ((s.core c).queue 5).length then heldQueue s c
  else eff (fun s => s.modCore c (fun k => { (k.advance false) with queues := Table.set [] k.queues 5 (k.queue 5 ++ [{ op := op, f := f }]) })) s

/-- Whether two engine instructions' banks meet: condition 4 of R185 holds an instruction that reads, drains or clears a
bank while an earlier accumulate or drain is queued or running against it. banks lists what q accumulates into or drains. -/
def QInstr.touches (q : QInstr) (bank : Nat) : Bool :=
  match q.op with
  | .mat => bit q.w1 57 || (bit q.w1 58) == (bank == 1)
  | .madrain | .maadd => bit q.f.x 1 == (bank == 1)
  | _ => false

/-- Whether an earlier accumulate, drain or VE read is still queued or running against a bank of array a (R185, R238). -/
def Core.bankBusy (k : Core) (a bank : Nat) : Bool :=
  (k.queue a).any (·.touches bank) || (k.run a).any (·.touches bank) ||
  (Table.get {} k.arrays a).cur.isSome || (Table.get {} k.arrays a).drains.any (fun d => d.bank == bank) ||
  (k.queue 2 ++ k.run 2).any (fun q => q.op == .vacc && (bit q.f.x 0) == (a == 1) && (bit q.f.x 1) == (bank == 1))

/-- Whether an instruction with these ranges must wait for the scoreboard: a range is blocked, or too few entries are free (R172,
R173). -/
def Core.waitsFor (k : Core) (rs : List Rng) : Bool := k.blocked rs || decide (64 < k.sb.length + rs.length)

/-- Engine instructions issue by R185: queue slot, scoreboard conditions and free entries, and the bank condition; then
the entries are allocated, results are marked pending and the instruction is pushed with what it captured (R173, R176). -/
def pushEngine (c e : Nat) (long : Bool) (rs : List Rng) (bankHold : Bool) (q : QInstr) (s : State) : State :=
  let k := s.core c
  let rs := oneEach rs
  if 16 ≤ (k.queue e).length then heldQueue s c
  else if k.waitsFor rs || bankHold then heldData s c
  else
    let es := entriesOf e rs
    s.setCore c { (k.advance long) with
      sb := k.sb ++ es
      queues := Table.set [] k.queues e (k.queue e ++ [{ q with entries := es }])
      pendS := match q.sdest with
        | some d => if d = 0 then k.pendS else k.pendS ++ [d]
        | none => k.pendS
      pendM := match q.mdest with
        | some d => k.pendM ++ [d]
        | none => k.pendM }

end Sys2Proof.Machine
end

