-- ==== Sys2Proof/Machine/Qos.lean ====
section
/-!
DEFINITION. QoS buckets: starts that wait or are charged, and refills (R295 to R299), with the paths of R160.
-/
namespace Sys2Proof.Machine

/-- The table key of a bucket of an instance: 0 SM, 1 MESH, 2 to 5 HL0 to HL3, 6 SU (Table 14-7). -/
def bucketKey (bucket inst : Nat) : Nat := bucket * 64 + inst

/-- Whether a start finds the level at 0 or below and must wait (R297). -/
def Bucket.waits (b : Bucket) : Bool := !b.unlim && decide (b.level ≤ 0)

/-- A charge of the full cost in a CCLK (R297, R299). -/
def Bucket.charge (at_ n : Nat) (b : Bucket) : Bucket :=
  { b with level := b.level - n, charged := b.charged + BitVec.ofNat 64 n
           lately := (at_, n + if b.lately.1 = at_ then b.lately.2 else 0) }

/-- A wait counted in QOS_WAIT (R297). -/
def Bucket.countWait (b : Bucket) : Bucket := { b with wait := (bump32 b.wait).1, waitWrap := b.waitWrap || (bump32 b.wait).2 }

/-- A bucket of a colour. -/
def State.bucket (s : State) (colour key : Nat) : Bucket := Table.get {} (s.part colour).buckets key

/-- Change a bucket of a colour. -/
def modBucket (s : State) (colour key : Nat) (g : Bucket → Bucket) : State :=
  s.modPart colour (fun p => { p with buckets := Table.set {} p.buckets key (g (Table.get {} p.buckets key)) })

/-- A start that needs tokens of several buckets: where one must wait nothing starts and its wait is counted; else every
bucket takes its cost. Colour 0 is never charged (R295, R297). -/
def qosStart (s : State) (colour : Nat) (costs : List (Nat × Nat)) : Bool × State :=
  let costs := costs.filter (fun p => p.2 != 0)
  if colour = 0 then (true, s)
  else if costs.any (fun p => (s.bucket colour p.1).waits) then
    (false, costs.foldl (fun s p => if (s.bucket colour p.1).waits then modBucket s colour p.1 Bucket.countWait else s) s)
  else (true, costs.foldl (fun s p => modBucket s colour p.1 (Bucket.charge s.cclk p.2)) s)

/-- The level after a refill of BUDGET × n in a CCLK, clipped at CAP, charges of that CCLK accounted after it; a waiting QoS entry
takes effect first (R298, R299). -/
def Bucket.refill (at_ n : Nat) (b : Bucket) : Bucket :=
  let b := match b.nextEntry with
    | some e => { b with budget := field e 0 28, cls := field e 28 2, unlim := bit e 30, cap := field e 32 28, nextEntry := none }
    | none => b
  let add := b.budget.toNat * n
  let spent : Nat := if b.lately.1 = at_ then b.lately.2 else 0
  let want : Int := b.level + (spent : Int) + (add : Int)
  let beyond : Nat := if (b.cap.toNat : Int) < want then (want - (b.cap.toNat : Int)).toNat else 0
  { b with level := want - (beyond : Int) - (spent : Int), refilled := b.refilled + BitVec.ofNat 64 add, clipped := b.clipped + BitVec.ofNat 64 beyond }

/-- The Manhattan distance of two cores on the 8 × 6 mesh (Table 6-2). -/
def coreDistance (a b : Nat) : Nat :=
  (a % 8 - b % 8) + (b % 8 - a % 8) + (a / 8 - b / 8) + (b / 8 - a / 8)

/-- Whether core c reaches a DLA of this die over the mesh: another vault, or CM at distance 2 or more (R160). -/
def overMesh (c a : Nat) : Bool :=
  if a < 0x1200000000 then vaultOf a != c else decide (2 ≤ coreDistance c ((a - 0x8000000000) / 0x800000))

/-- The granules that n bytes at a touch, as a count. -/
def granuleCount (a n : Nat) : Nat := if n = 0 then 0 else (a + n - 1) / 64 + 1 - a / 64

/-- The tokens of an access of n bytes at a DLA of this die by core c's mover: SM granules, and granule packets over the
mesh (R295; assumption 34). -/
def localCost (c a n : Nat) : List (Nat × Nat) :=
  [(bucketKey 0 0, if a < 0x1200000000 then granuleCount a n else 0), (bucketKey 1 c, if overMesh c a then granuleCount a n else 0)]

/-- Add the costs of equal buckets together. -/
def mergeCosts (l : List (Nat × Nat)) : List (Nat × Nat) :=
  l.foldl (fun acc p => if acc.any (·.1 == p.1) then acc.map (fun q => if q.1 == p.1 then (q.1, q.2 + p.2) else q) else acc ++ [p]) []

end Sys2Proof.Machine
end

