-- ==== Sys2Proof/Machine/Transfer.lean ====
section
/-!
DEFINITION. Transfers of Skovi: the READs and WRITEs of colour 0 that carry bulk data, image shares and refetched weights over
the ports (R18, R25, R88, R314, R339, R340, R358).
-/
namespace Sys2Proof.Machine

/-- Add a request and send its message (R88). -/
def sendReq (s : State) (q : Req) (m : Msg) : State := send { s with reqs := s.reqs ++ [q] } m

/-- The Skovi core whose TAGs the transfers carry: 48 (R88; DESIGN CHOICE, assumption 129). -/
def skoviTag : Nat := 48

/-- Change the transfer of a number. -/
def modTransfer (s : State) (num : Nat) (f : Transfer → Transfer) : State :=
  { s with skovi := { s.skovi with transfers := mapFirst (fun t => t.num == num) f s.skovi.transfers } }

/-- Whether a transfer has more to send. -/
def Transfer.due (t : Transfer) : Bool := !t.failed && decide (t.sent < t.len)

/-- Whether a transfer has ended: all sent or failed, and nothing outstanding. -/
def Transfer.done (t : Transfer) : Bool := !t.due && t.out == 0

/-- The bytes of its next message: no message crosses a page of 4,096 bytes (R78, R144). -/
def Transfer.piece (t : Transfer) : Nat := Nat.min (4096 - (t.addr + t.sent) % 4096) (t.len - t.sent)

/-- The bytes that a READ transfer has brought, in order. -/
def Transfer.bytes (t : Transfer) : List Byte := (sortBy (fun (x : Nat × List Byte) => [x.1]) t.got).flatMap (fun x => x.2)

/-- The next message of a transfer leaves, of colour 0 (R25, R314). -/
def sendPart (s : State) (t : Transfer) (tag : BitVec 12) : State :=
  let n := t.piece
  let m := { plainMsg s t.die 0 (if t.write then opWrite else opRead) (BitVec.ofNat 40 (t.addr + t.sent)) tag with
    data := if t.write then takePad n (t.data.drop t.sent) else leBytes 4 n }
  sendReq (modTransfer s t.num (fun t => { t with sent := t.sent + n, out := t.out + 1 }))
    { tag := tag, die := t.die, colour := 0, kind := .bulk t.num t.sent n t.write, win := none } m

/-- Messages of the transfers leave, the oldest transfer first, while a TAG is free and at most n (R88). -/
def sendParts : Nat → State → State
  | 0, s => s
  | n + 1, s =>
    match s.skovi.transfers.find? Transfer.due, freshTag s skoviTag with
    | some t, some tag => sendParts n (sendPart s t tag)
    | _, _ => s

/-- A transfer begins. -/
def startTransfer (s : State) (who : Purpose) (write : Bool) (die : BitVec 6) (addr len : Nat) (data : List Byte) : State :=
  let t : Transfer := { num := s.skovi.nextTransfer, who := who, write := write, die := die, addr := addr, len := len, data := data }
  sendParts 64 { s with skovi := { s.skovi with transfers := s.skovi.transfers ++ [t], nextTransfer := s.skovi.nextTransfer + 1 } }

/-- A message of a transfer is answered, fails or times out with a status of Table 8-5; an answer other than OK, or of the wrong
length, fails the transfer (R88, R314). -/
def settlePart (s : State) (num off len : Nat) (write : Bool) (st : Byte) (data : List Byte) : State :=
  let ok := st == 0 && (write || data.length == len)
  sendParts 64 (modTransfer s num (fun t => { t with
    out := t.out - 1, failed := t.failed || !ok, got := if ok && !write then t.got ++ [(off, data)] else t.got }))

/-- The transfers that serve one purpose. -/
def State.transfersOf (s : State) (who : Purpose) : List Transfer := s.skovi.transfers.filter (fun t => t.who == who)

/-- The transfers that a test selects are forgotten; what is still answered to them has no effect. -/
def dropTransfers (s : State) (sel : Purpose → Bool) : State :=
  { s with skovi := { s.skovi with transfers := s.skovi.transfers.filter (fun t => !sel t.who) } }

end Sys2Proof.Machine
end

