-- ==== Sys2Proof/Machine/Wait.lean ====
section
/-!
DEFINITION. Waits, arrivals, signals sent, fences, CINV and the step bracket (R145, R149, R184, R189 to R196, R264, R273).
-/
namespace Sys2Proof.Machine

/-- The core stops issue for a wait that has issued (R189; STATE reads WAIT, assumption 19). -/
def Core.holdFor (k : Core) (h : Hold) : Core := { (k.advance false) with st := .wait, hold := some h }

/-- The wait ends and issue continues (R189). -/
def Core.resume (k : Core) : Core := { k with st := .run, hold := none }

/-- Whether the condition of a wait holds: a firing or a release counts from the cycle after the one in which the wait issued
(Table 9-6, R58, R268). -/
def waitDone (s : State) (k : Core) : Hold → Bool
  | .all m _ => allSet k.csr.flags m
  | .any m _ => anySet k.csr.flags m
  | .bar n first owned at_ =>
    if owned then (Table.get {} k.bars n).out.head? != some first else decide (at_ + 1 < (s.counter n).releasedAt)
  | .book i at_ => decide (at_ + 1 < (Table.get {} k.bookings i).firedAt)
  | .fill w target => filledTo (s.window w).filled target
  | _ => false

/-- The flags that a completed wait clears: those that satisfied it (R190). -/
def Core.clearFor (k : Core) : Hold → Core
  | .all m clr => if clr then k.clearFlags m else k
  | .any m clr => if clr then k.clearFlags (m &&& k.csr.flags) else k
  | _ => k

/-- A WAIT issues: it completes at once where its condition holds, and stops issue otherwise (R189). -/
def waitOp (s : State) (c : Nat) (h : Hold) : State :=
  let k := s.core c
  if waitDone s k h then s.setCore c ((k.clearFor h).advance false) else s.setCore c (k.holdFor h)

/-- WAIT.ALL: every masked flag (Table 9-6, R190, R191). -/
def execWaitAll (c : CoreId) (f : Fields) (s : State) : Result :=
  live s (issue c.val false (f.only false true false 1 0) [f.a] fun s =>
    waitOp s c.val (.all ((s.core c.val).sreg f.a.toNat) (bit f.x 0)))

/-- WAIT.ANY: at least one masked flag; a zero mask raises F_ILLEGAL_OP (Table 9-6, R190, R191). -/
def execWaitAny (c : CoreId) (f : Fields) (s : State) : Result :=
  live s (issue c.val false (f.only false true false 1 0) [f.a] fun s =>
    let m := (s.core c.val).sreg f.a.toNat
    if m = 0 then refuse s c.val fIllegalOp else waitOp s c.val (.any m (bit f.x 0)))

/-- WAIT.BAR: the oldest outstanding arrival's release, or with none the counter's next release (Table 9-6, R268). -/
def execWaitBar (c : CoreId) (f : Fields) (s : State) : Result :=
  live s (issue c.val false (f.only false false false 0 0x7F) [] fun s =>
    let n := f.imm.toNat
    match (Table.get {} (s.core c.val).bars n).out with
    | [] => waitOp s c.val (.bar n false false s.cclk)
    | x :: _ => waitOp s c.val (.bar n x true s.cclk))

/-- WAIT.BOOK: the first firing of a core booking after issue; VALID 0 raises F_ILLEGAL_OP (R58, R191). -/
def execWaitBook (c : CoreId) (f : Fields) (s : State) : Result :=
  live s (issue c.val false (f.only false false false 0 0x1F) [] fun s =>
    let b := Table.get {} (s.core c.val).bookings f.imm.toNat
    if !b.valid then refuse s c.val fIllegalOp else waitOp s c.val (.book f.imm.toNat s.cclk))

/-- WAIT.FILL: FILLED of an owned window has reached the target; another window raises F_ILLEGAL_OP (Table 9-6, R191). -/
def execWaitFill (c : CoreId) (f : Fields) (s : State) : Result :=
  live s (issue c.val false (f.only false true false 0 0xFF) [f.a] fun s =>
    let w := f.imm.toNat
    if (s.window w).valid && (s.window w).owner == c.val then waitOp s c.val (.fill w (field ((s.core c.val).sreg f.a.toNat) 0 32))
    else refuse s c.val fIllegalOp)

/-- WAIT_COMPLETE: a WAIT whose condition now holds completes, and with CLR clears the flags that satisfied it (R189, R190). -/
def execWaitComplete (c : CoreId) (s : State) : Result :=
  live s fun s =>
    let k := s.core c.val
    match k.hold with
    | some h => if k.st == .wait && waitDone s k h then s.setCore c.val ((k.clearFor h).resume) else s
    | none => s

/-! ### SYNC (R264, R273) -/

/-- An arrival slot of a core (Table 13-4). -/
def arrivalSlot (n : Nat) (sense failed : Bool) (core : Nat) : Slot :=
  BitVec.ofNat 128 (n + (if sense then 0x100 else 0) + (if failed then 0x200 else 0) + core * 0x1000000)

/-- A signal slot (Table 13-4). -/
def signalSlot (core : Nat) (mask : Word) : Slot := BitVec.ofNat 128 (core + mask.toNat * 2 ^ 64)

/-- Whether a further arrival of a core on a counter is held: one outstanding in Mode A, two in Mode B (R264). -/
def arriveHeld (s : State) (c n : Nat) : Bool :=
  let out := (Table.get {} (s.core c).bars n).out.length
  if (s.counter n).modeB then 2 ≤ out else 1 ≤ out

/-- A core's arrival leaves for the counter: it carries NS, which flips, and FAIL (R264). -/
def arriveAt (s : State) (c n : Nat) : State :=
  let k := s.core c
  let b := Table.get {} k.bars n
  let s := meshSlot s 4 k.colour c (arrivalSlot n b.ns (k.csr.stepOpen && k.csr.stepFail) c)
  s.modCore c (fun k => { k with bars := Table.set {} k.bars n { ns := !b.ns, out := b.out ++ [b.ns] } })

/-- ARRIVE: an arrival at a counter of the own die, held while too many are outstanding (R264, R271). -/
def execArrive (c : CoreId) (f : Fields) (s : State) : Result :=
  live s (issue c.val false (f.only false false false 0 0x7F) [] fun s =>
    if arriveHeld s c.val f.imm.toNat then s else issued (arriveAt s c.val f.imm.toNat) c.val)

/-- A signal leaves for a core of this die or of another; an ABSENT die sets the sender's STEP_FAIL (R273, R274). -/
def signalTo (s : State) (c : Nat) (target : Word) (mask : Word) : State :=
  let core := (field target 0 6).toNat
  let die := field target 6 6
  let col := s.colourOf c
  if mask = 0 then s
  else if !bit target 12 || some die = s.member.id then meshSignal s c col core (signalSlot core mask)
  else if (s.die die.toNat).st == .absent then failStep s c
  else sendSlot s die 6 col core (signalSlot core mask)

/-- SIGNAL: sets the flags of sB on the target core; sB = 0 sends nothing (R271, R273). -/
def execSignal (c : CoreId) (f : Fields) (s : State) : Result :=
  live s (issue c.val false (f.only false true true 0 0) [f.a, f.b] fun s =>
    let k := s.core c.val
    let t := k.sreg f.a.toNat
    if field t 13 51 != 0 then refuse s c.val fReservedSet
    else issued (signalTo s c.val t (k.sreg f.b.toNat)) c.val)

/-! ### ORDER (R145, R149) -/

/-- Whether a fence has nothing to wait for (R145). -/
def fenceClear (s : State) (c : Nat) : Hold → Bool
  | .fenceC => fenceCHolds s c
  | .fenceD => fenceDHolds s c
  | .fenceP => fenceDHolds s c && (s.core c).eaMask == 0
  | _ => false

/-- The end of a fence: a failed write or probe counts as a detected error of the step, and FENCE.P clears the mask
(R145, R146). -/
def fenceEnd (s : State) (c : Nat) (h : Hold) : State :=
  s.modCore c (fun k =>
    { k with
      st := .run, hold := none, fenceBad := false, probesSent := false
      csr := { k.csr with stepFail := k.csr.stepFail || k.fenceBad }
      eaMask := if h == .fenceP then 0 else k.eaMask })

/-- A fence issues: it completes at once where nothing is outstanding (R145). -/
def fenceOp (s : State) (c : Nat) (h : Hold) : State :=
  if fenceClear s c h then fenceEnd (issued s c) c h
  else s.modCore c (fun k => k.holdFor h)

/-- FENCE.C (Table 7-5). -/
def execFenceC (c : CoreId) (f : Fields) (s : State) : Result :=
  live s (issue c.val false (f.only false false false 0 0) [] (fun s => fenceOp s c.val .fenceC))
/-- FENCE.D (Table 7-5). -/
def execFenceD (c : CoreId) (f : Fields) (s : State) : Result :=
  live s (issue c.val false (f.only false false false 0 0) [] (fun s => fenceOp s c.val .fenceD))
/-- FENCE.P (Table 7-5). -/
def execFenceP (c : CoreId) (f : Fields) (s : State) : Result :=
  live s (issue c.val false (f.only false false false 0 0) [] (fun s => fenceOp s c.val .fenceP))

/-- One fence probe to a die: a WRITE of LEN 0, answered at once with NO_ROUTE where the die is ABSENT (R103, R144, R146). -/
def sendProbe (c : Nat) (s : State) (d : Nat) : State :=
  if (s.die d).st == .absent then s.modCore c (fun k => { k with fenceBad := true })
  else
    match freshTag s c with
    | none => s.modCore c (fun k => { k with fenceBad := true })
    | some t =>
      send { s with reqs := s.reqs ++ [{ tag := t, die := BitVec.ofNat 6 d, colour := s.colourOf c, kind := .fence c, win := none }] }
        (plainMsg s (BitVec.ofNat 6 d) (s.colourOf c) opWrite 0 t)

/-- FENCE_COMPLETE: a fence whose condition holds ends; FENCE.P first sends its probes, once it has a TAG for each, and
waits for their answers (R145, R146). -/
def execFenceComplete (c : CoreId) (s : State) : Result :=
  live s fun s =>
    let k := s.core c.val
    match k.hold with
    | some .fenceC => if fenceCHolds s c.val then fenceEnd s c.val .fenceC else s
    | some .fenceD => if fenceDHolds s c.val then fenceEnd s c.val .fenceD else s
    | some .fenceP =>
      if !fenceDHolds s c.val then s
      else if !k.probesSent then
        if s.freeTags c.val < ((bitsSet k.eaMask).filter (fun d => (s.die d).st != .absent)).length then s
        else ((bitsSet k.eaMask).foldl (sendProbe c.val) s).modCore c.val (fun k => { k with probesSent := true })
      else if probesDone s c.val then fenceEnd s c.val .fenceP
      else s
    | _ => s

/-- CINV: invalidates the caches that X[1:0] names and marks their fills in flight; X[1:0] = 0 raises F_ILLEGAL_OP
(R149, R181). -/
def execCinv (c : CoreId) (f : Fields) (s : State) : Result :=
  live s (issue c.val false (f.only false false false 3 0) [] fun s =>
    if f.x = 0 then refuse s c.val fIllegalOp
    else s.modCore c.val (fun k =>
      let k := k.advance false
      let k := if bit f.x 0 then { k with icache := [], icBad := [], icFill := k.icFill.map (fun p => (p.1, true)) } else k
      if bit f.x 1 then { k with ccache := [], ccBad := [], ccFill := k.ccFill.map (fun p => (p.1, p.2.1, p.2.2.1, true)) } else k))

/-! ### STEP (R184, R194, R196) -/

/-- STEP.BEGIN: sets STEP and STEP_PC, clears STEP_FAIL and copies s1 to s31 to the shadow set; inside an open step it
raises F_ILLEGAL_OP (R194). It waits while a scalar register is pending (R176). -/
def execStepBegin (c : CoreId) (f : Fields) (s : State) : Result :=
  live s (issue c.val false (f.only false false false 0 0xFFFFFFFF) [] fun s =>
    let k := s.core c.val
    if k.csr.stepOpen then refuse s c.val fIllegalOp
    else if !k.pendS.isEmpty then heldData s c.val
    else s.modCore c.val (fun k =>
      let k := k.advance false
      { k with shadow := k.sregs, csr := { k.csr with step := f.imm, stepPc := k.csr.pc, stepFail := false, stepOpen := true } }))

/-- STEP.END: issues once FENCE.D's condition holds and every record is written; it arrives at the closing counter with
STEP_FAIL and stops issue until the release (R196). With no step open it raises F_ILLEGAL_OP (assumption 20). -/
def execStepEnd (c : CoreId) (f : Fields) (s : State) : Result :=
  live s (issue c.val false (f.only false false false 0 0x7F) [] fun s =>
    let k := s.core c.val
    let n := f.imm.toNat
    if !k.csr.stepOpen then refuse s c.val fIllegalOp
    else if !(fenceDHolds s c.val && recordsDone k) || arriveHeld s c.val n then s
    else (arriveAt s c.val n).modCore c.val (fun k' => k'.holdFor (.stepEnd n (Table.get {} k.bars n).ns)))

/-- HALT: issues only while no step is open, and waits to settle (R184). -/
def execHalt (c : CoreId) (f : Fields) (s : State) : Result :=
  live s (issue c.val false (f.only false false false 0 0) [] fun s =>
    if (s.core c.val).csr.stepOpen then refuse s c.val fIllegalOp
    else s.modCore c.val (fun k => k.holdFor .halt))

/-- SETVL: VL and sD take the smaller of the request and the width's VLMAX; width 3 is reserved (R224). -/
def execSetvl (c : CoreId) (f : Fields) (s : State) : Result :=
  live s (issue c.val false (f.only true true false 3 0) [f.d, f.a] fun s =>
    let w := f.x.toNat
    if w = 3 then refuse s c.val fReservedSet
    else s.modCore c.val (fun k =>
      let v := Nat.min (k.sreg f.a.toNat).toNat (4096 / 2 ^ w)
      { ((k.setSreg f.d.toNat (BitVec.ofNat 64 v)).advance false) with ve := { k.ve with vl := v } }))

end Sys2Proof.Machine
end

