-- ==== Sys2Proof/Machine/Mover.lean ====
section
/-!
DEFINITION. The mover: channels, descriptors and their pieces, and the requests that carry pieces to other dies
(chapter 8, R152 to R162, R88, R103).
-/
namespace Sys2Proof.Machine

/-! ### Channels and descriptors (R152 to R158) -/

/-- Mover channel n of a core. -/
def Core.chan (k : Core) (n : Nat) : Chan := Table.get {} k.chans n
/-- The core with a channel replaced. -/
def Core.setChan (k : Core) (n : Nat) (h : Chan) : Core := { k with chans := Table.set {} k.chans n h }
/-- The die with a channel changed. -/
def modChan (s : State) (c n : Nat) (g : Chan → Chan) : State := s.modCore c (fun k => k.setChan n (g (k.chan n)))
/-- The ring depth. -/
def Chan.depth (h : Chan) : Nat := 2 ^ h.depthLog2
/-- The channel with the posted descriptor of an index changed. -/
def Chan.modPosted (h : Chan) (idx : BitVec 16) (g : Posted → Posted) : Chan :=
  { h with posted := mapFirst (fun p => p.index == idx) g h.posted }

/-- Read a descriptor (Table 8-3). -/
def Desc.decode (l : List Byte) : Desc :=
  let b0 := leField l 0 1
  { op := BitVec.ofNat 4 b0
    winv := b0 / 16 % 2 == 1, sigv := b0 / 32 % 2 == 1, probe := b0 / 64 % 2 == 1
    win := BitVec.ofNat 8 (leField l 1 1)
    sigCore := BitVec.ofNat 6 (leField l 2 1), sigFlag := BitVec.ofNat 6 (leField l 3 1)
    count2 := BitVec.ofNat 16 (leField l 4 2), count3 := BitVec.ofNat 16 (leField l 6 2)
    src := BitVec.ofNat 64 (leField l 8 8), dst := BitVec.ofNat 64 (leField l 16 8)
    len := BitVec.ofNat 32 (leField l 24 4)
    sstride2 := BitVec.ofNat 32 (leField l 32 4), dstride2 := BitVec.ofNat 32 (leField l 36 4)
    sstride3 := BitVec.ofNat 32 (leField l 40 4), dstride3 := BitVec.ofNat 32 (leField l 44 4)
    tag := BitVec.ofNat 32 (leField l 48 4)
    rsv := decide (128 ≤ b0) || decide (64 ≤ leField l 2 1) || decide (64 ≤ leField l 3 1) || leField l 28 4 != 0 || leField l 52 12 != 0 }

/-- What a SRC or DST names (R155, Table 8-4). -/
inductive Kind where
  | pga (die : BitVec 6) (a : Nat)
  | ob (buf off : Nat)
  | nothing
deriving DecidableEq, Repr

/-- A PGA operand, none with a reserved bit set (R131, R155). -/
def kindPga (w : Word) : Option Kind := if field w 46 18 != 0 then none else some (.pga (pgaDie w) (pgaDla w))
/-- An operand-buffer operand, none with a reserved bit or a reserved BUF (R155). -/
def kindOb (w : Word) : Option Kind :=
  if field w 21 43 != 0 || decide (6 ≤ (field w 18 3).toNat) then none else some (.ob (field w 18 3).toNat (field w 0 18).toNat)
/-- A reserved operand must be 0. -/
def kindNone (w : Word) : Option Kind := if w = 0 then some .nothing else none

/-- SRC by operation; a LEDGER source with bits above 20 is a PGA (assumption 35). -/
def Desc.srcKind (d : Desc) : Option Kind :=
  match d.op.toNat with
  | 1 | 2 => kindPga d.src
  | 3 => kindOb d.src
  | 5 => if field d.src 21 43 = 0 then kindOb d.src else kindPga d.src
  | _ => kindNone d.src

/-- DST by operation. -/
def Desc.dstKind (d : Desc) : Option Kind :=
  match d.op.toNat with
  | 2 => kindOb d.dst
  | 6 => kindNone d.dst
  | _ => kindPga d.dst

/-- The length of an extent: from the first byte to the last byte (R158). -/
def Desc.span (d : Desc) (s2 s3 : BitVec 32) : Nat := d.count3.toNat * s3.toNat + d.count2.toNat * s2.toNat + d.len.toNat
/-- The source extent's length. -/
def Desc.srcSpan (d : Desc) : Nat := d.span d.sstride2 d.sstride3
/-- The destination extent's length. -/
def Desc.dstSpan (d : Desc) : Nat := d.span d.dstride2 d.dstride3

/-- A credit entry of a core for a die and window (R163). -/
def Core.credit (k : Core) (die : BitVec 6) (win : BitVec 8) : Option Credit := k.credits.find? (fun e => e.die == die && e.win == win)

/-- Whether two ranges of bytes overlap. -/
def overlap (a n b m : Nat) : Bool := decide (a < b + m) && decide (b < a + n)

/-- Check 2 of R157: field combinations. -/
def Desc.bad (s : State) (c : Nat) (d : Desc) (sk dk : Kind) : Bool :=
  let len := d.len.toNat
  let mark := d.op == 6
  let shape :=
    (mark && (len != 0 || d.count2 != 0 || d.count3 != 0)) || (!mark && len == 0) || (d.winv && (mark || d.op == 2)) ||
    (d.count2 != 0 && decide (d.dstride2.toNat < len)) ||
    (d.count3 != 0 && decide (d.dstride3.toNat < d.count2.toNat * d.dstride2.toNat + len))
  let ledger :=
    d.op == 5 &&
      ((match dk with | .pga die _ => die == s.ownId | _ => true) ||
       (match sk with
        | .pga die a => die != s.ownId || decide (a < cmBase c) || decide (cmBase c + 0x800000 ≤ a)
        | _ => false) ||
       [len, d.sstride2.toNat, d.dstride2.toNat, d.sstride3.toNat, d.dstride3.toNat].any (fun x => x % 16 != 0))
  let window :=
    d.winv &&
      (match dk with
       | .pga die a => ((s.core c).credit die d.win).isNone || [a, len, d.dstride2.toNat, d.dstride3.toNat].any (fun x => x % 256 != 0)
       | _ => true)
  let copy :=
    d.op == 1 &&
      (match sk, dk with
       | .pga d1 a, .pga d2 b => d1 == d2 && overlap a d.srcSpan b d.dstSpan
       | _, _ => false)
  shape || ledger || window || copy

/-- The map of another PX40, whose power plan this die does not know; the own Hub's map is its own, and a Hub of another package
is not addressed (R20, R129, R132; assumption 36). -/
def remoteMapped (s : State) (die : BitVec 6) (a n : Nat) : Bool :=
  if 60 ≤ die.toNat then s.hub == some die else decide (a + n ≤ 0x1200000000) ||
  (decide (0x8000000000 ≤ a) && decide (a + n ≤ 0x8018000000) && decide ((a - 0x8000000000) % 0x800000 + n ≤ 0x600000)) ||
  (decide (0xF000000000 ≤ a) && decide (a + n ≤ 0xF001400000))

/-- Whether an extent is in order under R106 and R132. -/
def kindMapped (s : State) (k : Kind) (n : Nat) : Bool :=
  match k with
  | .nothing => true
  | .ob b off => decide (off + n ≤ obSize b)
  | .pga die a => n == 0 || (if die = s.ownId then s.place a n != .unmapped else remoteMapped s die a n)

/-- The checks of R157 in order: the fault of the first that fails. A SIG_CORE of 48 to 63, for which R157 has no check, passes,
and its signal is refused at the core (R274; DESIGN CHOICE, assumption 123). -/
def Desc.check (s : State) (c : Nat) (d : Desc) : Option (BitVec 16) :=
  if d.rsv || d.op == 0 || decide (7 ≤ d.op.toNat) then some fReservedSet
  else
    match d.srcKind, d.dstKind with
    | some sk, some dk =>
      if d.bad s c sk dk then some fDescInvalid
      else if !kindMapped s sk d.srcSpan || !kindMapped s dk d.dstSpan then some fAddrUnmapped
      else
        match dk with
        | .pga die a =>
          match (s.core c).credit die d.win with
          | some e => if d.winv && !(decide (e.base ≤ a) && decide (a + d.dstSpan ≤ e.base + e.len)) then some fWindowOverrun else none
          | none => none
        | _ => none
    | _, _ => some fReservedSet

/-- The tracked ranges of a descriptor operand (R172). -/
def kindRng (s : State) (c : Nat) (k : Kind) (n : Nat) (write : Bool) : List Rng :=
  match k with
  | .nothing => []
  | .ob b off => rngOf s c (.ob b off) 0 (n - 1 : Nat) write
  | .pga die a => if die = s.ownId && n != 0 then rngOf s c (.cm a) 0 (n - 1 : Nat) write else []

/-- The tracked ranges of a descriptor (R172). -/
def Desc.ranges (s : State) (c : Nat) (d : Desc) : List Rng :=
  oneEach ((match d.srcKind with | some k => kindRng s c k d.srcSpan false | none => []) ++
    (match d.dstKind with | some k => kindRng s c k d.dstSpan true | none => []))

/-- Whether a range of CM of core c lies in entries with GUARD = 1 (R153). -/
def ringGuarded (s : State) (c a n : Nat) : Bool := s.tracked (s.colourOf c).toNat a (a + n - 1) == [(a, a + n - 1)]

/-- MVCFG: ring bases and depth; HEAD and TAIL become 0. A broken requirement raises F_MV_CONFIG (R153; assumption 37). -/
def execMvcfg (c : CoreId) (f : Fields) (s : State) : Result :=
  live s (issue c.val false (f.only false true true 0 0xF) [f.a, f.b] <| mvIssue c.val .mvcfg f fun take s =>
    let k := s.core c.val
    let n := f.imm.toNat
    let h := k.chan n
    let ring := (field (k.sreg f.a.toNat) 0 32).toNat
    let cring := (field (k.sreg f.a.toNat) 32 32).toNat
    let lg := (k.sreg f.b.toNat).toNat
    if lg < 1 || 10 < lg || ring % 64 != 0 || cring % 16 != 0 || 0x600000 < ring + 64 * 2 ^ lg || 0x600000 < cring + 16 * 2 ^ lg ||
        h.head != h.tail || !h.posted.isEmpty || !ringGuarded s c.val (cmBase c.val + ring) (64 * 2 ^ lg) ||
        !ringGuarded s c.val (cmBase c.val + cring) (16 * 2 ^ lg) then refuse s c.val fMvConfig
    else
      (take s).modCore c.val (fun k => k.setChan n
        { h with set := true, ring := cmBase c.val + ring, cring := cmBase c.val + cring, depthLog2 := lg, head := 0, tail := 0 }))

/-- A descriptor is posted: its copy, its scoreboard entries, and TAIL + 1 (R154). -/
def postDesc (s : State) (c n : Nat) (d : Desc) (rs : List Rng) : State :=
  let es := entriesOf (16 + n) rs
  s.modCore c (fun k =>
    let h := k.chan n
    { (k.setChan n { h with tail := h.tail + 1, posted := h.posted ++ [{ index := h.tail, desc := d, entries := es }] }) with
      sb := k.sb ++ es })

/-- MVPOST: decodes the descriptor in slot TAIL and posts it, or is held or refused (R154, R157). On a channel that no MVCFG has
configured it raises F_MV_CONFIG (DESIGN CHOICE, assumption 122). -/
def execMvpost (c : CoreId) (f : Fields) (s : State) : Result :=
  live s (issue c.val false (f.only false false false 0 0xF) [] <| mvIssue c.val .mvpost f fun take s =>
    let k := s.core c.val
    let n := f.imm.toNat
    let h := k.chan n
    if !h.set then refuse s c.val fMvConfig
    else
      let slot := h.ring + h.tail.toNat % h.depth * 64
      if h.depth ≤ (h.tail - h.head).toNat then heldQueue s c.val
      else if k.blocked (rngOf s c.val (.cm slot) 0 63 false) then heldData s c.val
      else
        let r := fetchOpnd s c.val (.cm slot) 0 64 0
        let d := Desc.decode r.1
        if (r.2.core c.val).st != .run then r.2
        else
          match d.check r.2 c.val with
          | some e => refuse r.2 c.val e
          | none =>
            let rs := d.ranges r.2 c.val
            if k.waitsFor rs then heldData s c.val
            else postDesc (take r.2) c.val n d rs)

/-! ### Settling of pieces (R161, R162, R173) -/

/-- The scoreboard entries that a descriptor's progress frees (R173). -/
def freeSettled (s : State) (c n : Nat) (idx : BitVec 16) : State :=
  s.modCore c (fun k =>
    match (k.chan n).posted.find? (fun p => p.index == idx) with
    | none => k
    | some p =>
      let all := p.outst == 0 && (p.allSent || p.fail.isSome)
      let gone := fun (e : SbEntry) => all || (p.allSent && !e.write)
      { (k.setChan n ((k.chan n).modPosted idx (fun p => { p with entries := p.entries.filter (fun e => !gone e) }))) with
        sb := freeEntries k.sb (p.entries.filter gone) })

/-- A piece settles with a status of Table 8-5; a failure is a detected error of the step (R162). -/
def pieceDone (s : State) (c n : Nat) (idx : BitVec 16) (bytes : Nat) (st : Byte) : State :=
  let known := ((s.core c).chan n).posted.any (fun p => p.index == idx)
  let s := modChan s c n (fun h => h.modPosted idx (fun p =>
    { p with
      outst := p.outst - 1
      bytesOk := if st = 0 then p.bytesOk + bytes else p.bytesOk
      fail := match p.fail with
        | some x => some x
        | none => if st = 0 then none else some st }))
  let s := if known && st != 0 then failStep s c else s
  freeSettled s c n idx

/-- Change the sender entry of a die and core in a window's sender table. -/
def modSender (s : State) (win : BitVec 8) (die core : BitVec 6) (g : Sender → Sender) : State :=
  { s with senders := mapFirst (fun e => e.win == win && e.die == die && e.core == core) g s.senders }

/-- Whether a window has a sender entry. -/
def State.hasSender (s : State) (win : BitVec 8) (die core : BitVec 6) : Bool :=
  s.senders.any (fun e => e.win == win && e.die == die && e.core == core)

/-- A 20-bit credit counter less n. -/
def sub20 (x n : Nat) : Nat := (x + 2 ^ 20 - n % 2 ^ 20) % 2 ^ 20

/-- A piece that the receiver refuses: OUT falls and FREE rises by its units (R170). -/
def refuseUnits (s : State) (win : BitVec 8) (die core : BitVec 6) (u : Nat) : State :=
  if !(s.window win.toNat).valid || !s.hasSender win die core then s
  else
    let w := s.window win.toNat
    (modSender s win die core (fun e => { e with out := sub20 e.out u, settled := e.settled + BitVec.ofNat 32 u })).setWindow win.toNat
      { w with free := w.free + u }

/-- Chunks of at most one granule that make up n bytes at a (R159). -/
def chunks : Nat → Nat → Nat → List (Nat × Nat)
  | 0, _, _ => []
  | k + 1, a, n => if n = 0 then [] else let m := Nat.min n (64 - a % 64); (a, m) :: chunks k (a + m) (n - m)

/-- The granule accesses of n bytes at a. -/
def granuleAccesses (a n : Nat) : List (Nat × Nat) := chunks (n / 64 + 2) a n

/-- The first refusal among the granule accesses of a local access of core c (R135). -/
def localRefusal (s : State) (c : Nat) (win : Option Nat) (write : Bool) (a n : Nat) : Option Access :=
  (granuleAccesses a n).foldl (fun r g =>
    match r with
    | some e => some e
    | none => match s.check (s.colourOf c).toNat (some c) win write g.1 g.2 with | .ok => none | e => some e) none

/-- A local write of the mover: performed in granule accesses, or refused whole with LOCAL_REFUSED (R119, R135, R162). -/
def moverWrite (s : State) (c : Nat) (win : Option Nat) (a : Nat) (data : List Byte) : State × Byte :=
  match localRefusal s c win true a data.length with
  | some e => (raiseP s c e.code 6 0, 8)
  | none =>
    let r := memWrite s a data
    (if r.2 then detectFor r.1 c a data.length else r.1, 0)

/-- A local read of the mover: its bytes, or LOCAL_REFUSED; a detected error fails the step (R120, R135). -/
def moverRead (s : State) (c a n : Nat) : State × Option (List Byte) :=
  match localRefusal s c none false a n with
  | some e => (raiseP s c e.code 6 0, none)
  | none => (if s.detects a n then detectFor s c a n else s, some (s.bytesAt a n))

/-- The mask of dies with early-acknowledged writes after a write to a DLA of a die: no answer tells EA, so whether this one
counts is a free value; a write by colour 0 or into control space is never acknowledged early (R143, R145; assumption 29). -/
def markEarly (s : State) (c : Nat) (die : BitVec 6) (a : Nat) : State :=
  if s.colourOf c = 0 || 0xF000000000 ≤ a then s
  else
    let x := takeFree s
    x.2.modCore c (fun k => { k with eaMask := if bit x.1 0 then setBit k.eaMask die.toNat else k.eaMask })

/-- A piece's bytes go to their destination: an operand buffer, local memory, or another die (R155, R159, R160). -/
def deliver (s : State) (c n : Nat) (idx : BitVec 16) (d : Desc) (dst : Nat) (data : List Byte) : State :=
  let units := if d.winv then data.length / 256 else 0
  match d.dstKind with
  | some (.ob b _) => pieceDone (writeOpnd s c (.ob b dst) 0 data false) c n idx data.length 0
  | some (.pga die _) =>
    if die = s.ownId then
      let r := moverWrite s c (if d.winv then some d.win.toNat else none) dst data
      let s := r.1
      let s :=
        if d.winv then
          if r.2 = 0 then { s with landed := s.landed ++ [{ win := d.win, die := s.ownId, core := BitVec.ofNat 6 c, units := units }] }
          else refuseUnits s d.win s.ownId (BitVec.ofNat 6 c) units
        else s
      pieceDone s c n idx data.length r.2
    else
      match freshTag s c with
      | none => pieceDone s c n idx data.length 1
      | some t =>
        let colour := s.colourOf c
        let m := { plainMsg s die colour (if d.op == 5 then opLedger else opWrite) (BitVec.ofNat 40 dst) t with
          data := data, win := if d.winv then d.win else 0, winv := d.winv }
        let s := sendReq s { tag := t, die := die, colour := colour, kind := .write c n idx data.length units, win := if d.winv then some d.win else none } m
        markEarly (modChan s c n (fun h => h.modPosted idx (fun p => { p with dies := setBit p.dies die.toNat }))) c die dst
  | _ => pieceDone s c n idx data.length 0

/-- A window piece that met NO_ROUTE or TARGET_RESETTING: its entry's HELD becomes 0 and takes no grant until the next
launch (R170). -/
def barCredit (s : State) (c : Nat) (die : BitVec 6) (win : BitVec 8) : State :=
  s.modCore c (fun k => { k with credits := mapFirst (fun e => e.die == die && e.win == win) (fun e => { e with held := 0, barred := true }) k.credits })

/-- A window piece whose source could not be read never leaves: its units come back to HELD (R164; assumption 55). -/
def refundPiece (s : State) (c : Nat) (d : Desc) (u : Nat) : State :=
  match d.winv, d.dstKind with
  | true, some (.pga die _) =>
    let hit := fun (e : Credit) => e.die == die && e.win == d.win
    let back := fun (e : Credit) => { e with held := if e.barred then e.held else e.held + u, spent := e.spent - BitVec.ofNat 32 u }
    s.modCore c (fun k => { k with credits := mapFirst hit back k.credits })
  | _, _ => s

/-- The scoreboard entries of transfers that a partition reset cut clear once no piece of the core is outstanding (R290
step 4). -/
def clearSettled (s : State) (c : Nat) : State :=
  if s.reqs.any (fun (q : Req) => q.kind == .orphan c) then s
  else s.modCore c (fun k => { k with sb := k.sb.filter (fun e => e.owner != 32) })

/-- The tokens that a piece's write needs (R295; assumption 34). -/
def writeCost (own : BitVec 6) (c : Nat) (d : Desc) (dst n : Nat) : List (Nat × Nat) :=
  match d.dstKind with
  | some (.pga die _) => if die = own then localCost c dst n else [(bucketKey 1 c, ceilDiv n 64)]
  | _ => []

/-- The write of the bytes that a READ asked for: its descriptor and its tokens (R295). -/
def State.writeOf (s : State) (q : Req) : Option (Desc × List (Nat × Nat)) :=
  match q.kind with
  | .read c n idx dst len _ =>
    (((s.core c).chan n).posted.find? (fun p => p.index == idx)).map (fun p => (p.desc, mergeCosts (writeCost s.ownId c p.desc dst.toNat len)))
  | _ => none

/-- A request is answered, fails or times out with a status of Table 8-5 (R88, R145, R146, R161, R162, R170). -/
def settle (s : State) (q : Req) (st : Byte) (data : List Byte) : State :=
  let s := { s with reqs := removeFirst (fun r => r.tag == q.tag) s.reqs }
  match q.kind with
  | .read c n idx dst len _ =>
    match ((s.core c).chan n).posted.find? (fun p => p.index == idx) with
    | none => s
    | some p =>
      if st = 0 && data.length == len then
        deliver (qosStart s (s.colourOf c).toNat (mergeCosts (writeCost s.ownId c p.desc dst.toNat len))).2 c n idx p.desc dst.toNat data
      else pieceDone (refundPiece s c p.desc (len / 256)) c n idx len (if st = 0 then 5 else st)
  | .write c n idx len _ =>
    let s := match q.win with
      | some w => if st = 1 || st = 2 then barCredit s c q.die w else s
      | none => s
    pieceDone s c n idx len st
  | .probeDesc c n idx => pieceDone s c n idx 0 st
  | .fence c => if st = 0 then s else s.modCore c (fun k => { k with fenceBad := true })
  | .orphan c =>
    let s := match q.win with
      | some w => if st = 1 || st = 2 then barCredit s c q.die w else s
      | none => s
    clearSettled s c
  | .bulk num off len write => settlePart s num off len write st data

/-! ### Starting descriptors and pieces (R152, R158 to R164) -/

/-- DESCRIPTOR_START: the channel starts its next descriptor once the previous one has sent its last piece (R152). -/
def execDescriptorStart (c : CoreId) (ch : Fin 16) (s : State) : Result :=
  live s fun s =>
    let h := (s.core c.val).chan ch.val
    let ahead := h.posted.takeWhile (·.started)
    if h.halted || ahead.any (fun p => !p.allSent || p.fail.isSome) then s
    else
      match h.posted.drop ahead.length with
      | [] => s
      | p :: _ =>
        freeSettled (modChan s c.val ch.val (fun h => h.modPosted p.index (fun p => { p with started := true, allSent := p.desc.op == 6 }))) c.val ch.val p.index

/-- The next piece of a descriptor: where it reads, where it writes, its bytes (R158, R159). -/
structure Piece where
  src : Nat
  dst : Nat
  n : Nat
deriving DecidableEq, Repr

/-- The first byte that an operand names: a DLA, or an offset in its buffer. -/
def Kind.base (k : Option Kind) : Nat :=
  match k with
  | some (.pga _ a) => a
  | some (.ob _ off) => off
  | _ => 0

/-- Whether an operand lies on another die. -/
def Kind.remote (own : BitVec 6) (k : Option Kind) : Bool :=
  match k with
  | some (.pga die _) => die != own
  | _ => false

/-- The largest piece: a granule to the own die, 256 bytes for a window of the own die, a page of the destination for a
message (R159). -/
def Posted.piece (own : BitVec 6) (p : Posted) : Piece :=
  let d := p.desc
  let src := Kind.base d.srcKind + p.r3 * d.sstride3.toNat + p.r2 * d.sstride2.toNat + p.off
  let dst := Kind.base d.dstKind + p.r3 * d.dstride3.toNat + p.r2 * d.dstride2.toNat + p.off
  let lim :=
    if Kind.remote own d.dstKind || (Kind.remote own d.srcKind && !d.winv) then 4096 - dst % 4096
    else if d.winv then 256
    else 64 - dst % 64
  { src := src, dst := dst, n := Nat.min (d.len.toNat - p.off) lim }

/-- The place after a piece of n bytes, in row and plane order (R158). -/
def Posted.next (p : Posted) (n : Nat) : Posted :=
  let p := { p with outst := p.outst + 1 }
  if p.off + n < p.desc.len.toNat then { p with off := p.off + n }
  else if p.r2 < p.desc.count2.toNat then { p with off := 0, r2 := p.r2 + 1 }
  else if p.r3 < p.desc.count3.toNat then { p with off := 0, r2 := 0, r3 := p.r3 + 1 }
  else { p with allSent := true }

/-- The descriptor of a channel that has pieces to send. -/
def Chan.current (h : Chan) : Option Posted :=
  if h.halted then none else h.posted.find? (fun p => p.started && !p.allSent && p.fail.isNone)

/-- The credits that a descriptor's next piece needs, with its entry (R164). -/
def Posted.needs (own : BitVec 6) (k : Core) (p : Posted) : Option (Credit × Nat) :=
  match p.desc.winv, p.desc.dstKind with
  | true, some (.pga die _) => (k.credit die p.desc.win).map (fun e => (e, (p.piece own).n / 256))
  | _, _ => none

/-- The tokens that a piece needs to start: those of its read and its write, or of the READ alone where the bytes come from another
die; the write of those is charged as it starts (R295; assumption 34). -/
def pieceCost (own : BitVec 6) (c : Nat) (d : Desc) (x : Piece) : List (Nat × Nat) :=
  match d.srcKind with
  | some (.pga die _) => if die = own then mergeCosts (localCost c x.src x.n ++ writeCost own c d x.dst x.n) else [(bucketKey 1 c, 1)]
  | _ => mergeCosts (writeCost own c d x.dst x.n)

/-- Whether a piece finds a bucket of its costs without tokens (R297). -/
def State.tokensShort (s : State) (c : Nat) (d : Desc) (x : Piece) : Bool :=
  let col := (s.colourOf c).toNat
  col != 0 && (pieceCost s.ownId c d x).any (fun p => p.2 != 0 && (s.bucket col p.1).waits)

/-- Whether a lower channel waits on the same credit entry: its HELD is too small, or it was when a grant came, and nothing but
its turn keeps it (R164). -/
def State.lowerWaits (s : State) (c n : Nat) (e : Credit) : Bool :=
  let k := s.core c
  (List.range n).any (fun j =>
    match (k.chan j).current with
    | none => false
    | some p =>
      match p.needs s.ownId k with
      | some (e', u) => e'.die == e.die && e'.win == e.win && (decide (e.held < u) || (p.waited && !s.tokensShort c p.desc (p.piece s.ownId)))
      | none => false)

/-- The dies that a piece must reach. -/
def Desc.farDies (own : BitVec 6) (d : Desc) : List (BitVec 6) :=
  (match d.srcKind with | some (.pga die _) => if die = own then [] else [die] | _ => []) ++
  (match d.dstKind with | some (.pga die _) => if die = own then [] else [die] | _ => [])

/-- A failure of a descriptor before a piece leaves. -/
def failDesc (s : State) (c n : Nat) (idx : BitVec 16) (st : Byte) : State :=
  freeSettled (failStep (modChan s c n (fun h => h.modPosted idx (fun p => { p with fail := some st }))) c) c n idx

/-- Spend u credits of an entry (R164). -/
def spendCredit (s : State) (c : Nat) (e : Credit) (u : Nat) : State :=
  let hit := fun (x : Credit) => x.die == e.die && x.win == e.win
  let pay := fun (x : Credit) => { x with held := x.held - u, spent := x.spent + BitVec.ofNat 32 u }
  s.modCore c (fun k => { k with credits := mapFirst hit pay k.credits })

/-- A piece that may start: its source is read, or a READ is sent for it (R159, R160). -/
def startPiece (s : State) (c n : Nat) (p : Posted) : State :=
  let d := p.desc
  let x := p.piece s.ownId
  let s := modChan s c n (fun h => h.modPosted p.index (fun q => { q.next x.n with waited := false }))
  match d.srcKind with
  | some (.ob b _) =>
    let r := fetchOpnd s c (.ob b x.src) 0 x.n 6
    deliver r.2 c n p.index d x.dst r.1
  | some (.pga die _) =>
    if die = s.ownId then
      match moverRead s c x.src x.n with
      | (s, some data) => deliver s c n p.index d x.dst data
      | (s, none) => pieceDone (refundPiece s c d (x.n / 256)) c n p.index x.n 8
    else
      match freshTag s c with
      | none => s
      | some t =>
        let m := { plainMsg s die (s.colourOf c) opRead (BitVec.ofNat 40 x.src) t with data := leBytes 4 x.n }
        sendReq s { tag := t, die := die, colour := s.colourOf c, kind := .read c n p.index (BitVec.ofNat 64 x.dst) x.n (x.n / 256), win := none } m
  | _ => deliver s c n p.index d x.dst (List.replicate x.n 0)

/-- A piece starts; the read entry of a descriptor is freed as its last byte has been read (R173). -/
def runPiece (s : State) (c n : Nat) (p : Posted) : State := freeSettled (startPiece s c n p) c n p.index

/-- What keeps a channel's next piece from starting. -/
inductive Ready where
  | none          -- it has no piece to send
  | failed        -- its piece can go nowhere: NO_ROUTE (R103, R170)
  | waits         -- it waits for credits or a TAG (R88, R164)
  | short         -- it waits for tokens (R297)
  | ready (p : Posted)
deriving DecidableEq, Repr

/-- How channel n of core c stands (R103, R160, R162, R164, R297). -/
def State.channelReady (s : State) (c n : Nat) : Ready :=
  let k := s.core c
  match (k.chan n).current with
  | none => .none
  | some p =>
    let far := p.desc.farDies s.ownId
    let need := p.needs s.ownId k
    let barred := match need with | some (e, _) => e.barred | none => false
    let poor := match need with | some (e, u) => decide (e.held < u) || s.lowerWaits c n e | none => false
    if barred || far.any (fun x => (s.die x.toNat).st == .absent) then .failed
    else if poor || (!far.isEmpty && (freshTag s c).isNone) then .waits
    else if s.tokensShort c p.desc (p.piece s.ownId) then .short
    else .ready p

/-- Whether a ready channel stands before channel n in the round that begins after the channel last served (R160). -/
def State.turnTaken (s : State) (c n : Nat) : Bool :=
  let from_ := (s.core c).lastChan + 1
  (List.range ((n + 16 - from_ % 16) % 16)).any (fun i => match s.channelReady c ((from_ + i) % 16) with | .ready _ => true | _ => false)

/-- MOVER_PIECE_START: the channel's next piece starts in its turn among the ready channels, once it has its credits, a route, a
tag and its tokens; toward an ABSENT die it fails with NO_ROUTE (R103, R160, R162, R164, R297). -/
def execMoverPieceStart (c : CoreId) (ch : Fin 16) (s : State) : Result :=
  live s fun s =>
    let k := s.core c.val
    match (k.chan ch.val).current, s.channelReady c.val ch.val with
    | some p, .failed => failDesc s c.val ch.val p.index 1
    | some p, .short => (qosStart s k.colour.toNat (pieceCost s.ownId c.val p.desc (p.piece s.ownId))).2
    | _, .ready p =>
      if s.turnTaken c.val ch.val then s
      else
        let s := (qosStart s k.colour.toNat (pieceCost s.ownId c.val p.desc (p.piece s.ownId))).2
        let s := s.modCore c.val (fun k => { k with lastChan := ch.val })
        let s := match p.needs s.ownId k with | some (e, u) => spendCredit s c.val e u | none => s
        runPiece s c.val ch.val p
    | _, _ => s

/-! ### Completion (R154, R161, R162) -/

/-- The completion record is written, HEAD advances and the signal follows (Table 8-5, R161). -/
def writeRecord (s : State) (c n : Nat) (p : Posted) (st : Byte) : State :=
  let h := (s.core c).chan n
  let rec16 := leBytes 2 p.index.toNat ++ [st, 0] ++ leBytes 4 p.desc.tag.toNat ++ leBytes 8 p.bytesOk
  let s := writeOpnd s c (.cm (h.cring + p.index.toNat % h.depth * 16)) 0 rec16 false
  let s := modChan s c n (fun h => { h with head := h.head + 1, posted := h.posted.drop 1, halted := h.halted || st != 0 })
  if p.desc.sigv then meshSignal s c (s.colourOf c) p.desc.sigCore.toNat (signalSlot p.desc.sigCore.toNat (BitVec.ofNat 64 (2 ^ p.desc.sigFlag.toNat))) else s

/-- One probe of a descriptor (R144, R161). -/
def probeDesc (c n : Nat) (idx : BitVec 16) (s : State) (die : Nat) : State :=
  let s := modChan s c n (fun h => h.modPosted idx (fun p => { p with outst := p.outst + 1 }))
  match freshTag s c with
  | none => pieceDone s c n idx 0 1
  | some t =>
    if (s.die die).st == .absent then pieceDone s c n idx 0 1
    else sendReq s { tag := t, die := BitVec.ofNat 6 die, colour := s.colourOf c, kind := .probeDesc c n idx, win := none }
      (plainMsg s (BitVec.ofNat 6 die) (s.colourOf c) opWrite 0 t)

/-- DESCRIPTOR_COMPLETE: the oldest descriptor has every piece settled: with PROBE its probes go out first, then the record
with OK is written (R161). The probes wait until the core has a TAG for each (R88). -/
def execDescriptorComplete (c : CoreId) (ch : Fin 16) (s : State) : Result :=
  live s fun s =>
    let h := (s.core c.val).chan ch.val
    match h.posted with
    | [] => s
    | p :: _ =>
      if h.halted || !p.started || !p.allSent || p.outst != 0 || p.fail.isSome then s
      else if p.desc.probe && !p.probed && p.dies != 0 then
        if s.freeTags c.val < ((bitsSet p.dies).filter (fun d => (s.die d).st != .absent)).length then s else
        let s := modChan s c.val ch.val (fun h => h.modPosted p.index (fun p => { p with probed := true }))
        (bitsSet p.dies).foldl (probeDesc c.val ch.val p.index) s
      else writeRecord s c.val ch.val p 0

/-- DESCRIPTOR_HALT: the oldest descriptor has failed and its outstanding pieces have settled: the record with the first
failing status is written and the channel enters HALTED (R162). -/
def execDescriptorHalt (c : CoreId) (ch : Fin 16) (s : State) : Result :=
  live s fun s =>
    let h := (s.core c.val).chan ch.val
    match h.posted with
    | [] => s
    | p :: _ =>
      match p.fail with
      | some st => if h.halted || p.outst != 0 then s else writeRecord s c.val ch.val p st
      | none => s

end Sys2Proof.Machine
end

