-- ==== Sys2Proof/Machine/Sync.lean ====
section
/-!
DEFINITION. Interrupt vectors, barrier counters, Hoist, the step's release, and signals received (chapters 13 and 14,
R196, R263 to R287).
-/
namespace Sys2Proof.Machine

/-- Whether a colour is in partition reset on this die (R291). -/
def State.resetting (s : State) (colour : Nat) : Bool := (s.part colour).resetting

/-- A slot of a colour in reset is discarded and counted (R291). -/
def dropSlot (s : State) : State := { s with slotsDropped := s.slotsDropped + 1 }

/-! ### Vectors and interrupts (R284 to R287) -/

/-- Whether the interrupt queue holds a message of a vector (R286). -/
def State.queuedIntr (s : State) (colour v : Nat) : Bool :=
  s.intrs.any (fun m => m.colour.toNat == colour && m.vector.toNat == v && !m.withdraw)

/-- A 32-bit saturating sum (R285). -/
def satAdd32 (x : BitVec 32) (n : Nat) : BitVec 32 := BitVec.ofNat 32 (Nat.min 0xFFFFFFFF (x.toNat + n))

/-- A vector forms one message with its COUNT, which returns to 0 (R286). -/
def formIntr (s : State) (colour v : Nat) : State :=
  let p := s.part colour
  let x := Table.get {} p.vectors v
  if x.mask || x.count == 0 || s.queuedIntr colour v then s
  else
    let m : IntrMsg := { colour := BitVec.ofNat 4 colour, vector := BitVec.ofNat 6 v, withdraw := false, count := x.count, stroke := x.stroke }
    { (s.setPart colour { p with vectors := Table.set {} p.vectors v { x with count := 0 } }) with intrs := s.intrs ++ [m] }

/-- One event of a vector: merged into its queued message, or counted, and with COAL 0 and MASK 0 formed at once
(R285, R286). -/
def vecEvent (colour : Nat) (s : State) (v : Nat) : State :=
  if s.queuedIntr colour v then
    let hit := fun (m : IntrMsg) => m.colour.toNat == colour && m.vector.toNat == v && !m.withdraw
    { s with intrs := mapFirst hit (fun m => { m with count := satAdd32 m.count 1 }) s.intrs }
  else
    let p := s.part colour
    let x := Table.get {} p.vectors v
    let x := { x with
      count := satAdd32 x.count 1
      stroke := if x.count = 0 then s.mast.stroke else x.stroke
      fresh := if x.count = 0 then s.mast.stroke + 1 else x.fresh }
    let s := s.setPart colour { p with vectors := Table.set {} p.vectors v x }
    if x.coal then s else formIntr s colour v

/-- The vectors of a partition that a test selects. -/
def vecsWhere (s : State) (colour : Nat) (f : Vector → Bool) : List Nat :=
  (List.range 64).filter (fun v => f (Table.get {} (s.part colour).vectors v))

/-- Firmware records an EVENT for a colour: every FIRMWARE vector of it counts one event (R285). -/
def fwEvent (s : State) (colour : Nat) (ev : Byte) : State :=
  if colour = 0 then s else (vecsWhere s colour (fun x => x.src == 2 && x.event == ev)).foldl (vecEvent colour) s

/-- Firmware enters a fault of its own charged to a colour, which records EVENT 0x03 (R285, R354; Table 14-4). -/
def fwFault (s : State) (r : LogRec) : State := fwEvent (fwLog s r) r.colour.toNat 3

/-- Firmware's own fault by code, colour and detail, with EVENT 0x03. -/
def fwCharge (s : State) (code : BitVec 16) (colour : BitVec 4) (detail : BitVec 16) : State :=
  fwFault s { mkRec s code colour none 15 with detail := detail }

/-- The flags of a mask are set in a core, and every FLAG vector of a flag counts one event (R275, R285). -/
def setFlags (s : State) (core : Nat) (mask : Word) : State :=
  let col := (s.colourOf core).toNat
  let s := s.modCore core (fun k => { k with csr := { k.csr with flags := k.csr.flags ||| mask }, flagSets := k.flagSets ||| mask })
  if col = 0 then s
  else (vecsWhere s col (fun x => x.src == 1 && x.core.toNat == core && bit mask x.flag.toNat)).foldl (vecEvent col) s

/-- INTERRUPT_COALESCE: in a new stroke every unmasked coalesced vector with events forms its message (R286). -/
def execInterruptCoalesce (s : State) : Result :=
  live s fun s =>
    (List.range 16).foldl (fun s col =>
      (vecsWhere s col (fun x => x.coal && !x.mask && x.count != 0 && decide (x.fresh ≤ s.mast.stroke))).foldl (fun s v => formIntr s col v) s) s

/-- An interrupt slot (Table 14-5). -/
def intrSlot (m : IntrMsg) : Slot :=
  BitVec.ofNat 128 ((if m.withdraw then 64 else m.vector.toNat) + m.count.toNat * 2 ^ 32 + m.stroke.toNat * 2 ^ 64)

/-- INTERRUPT_SEND: the oldest message leaves for the own Hub, or is discarded and logged where the Hub is ABSENT (R287). -/
def execInterruptSend (s : State) : Result :=
  live s fun s =>
    match s.intrs with
    | [] => s
    | m :: rest =>
      let s := { s with intrs := rest }
      match s.hub with
      | none => fwCharge s fIntrDropped m.colour 0
      | some h => sendSlot s h 7 m.colour 0 (intrSlot m)

/-! ### Barrier counters (R263 to R270) -/

/-- A Hoist or die arrival slot (Table 13-4). -/
def syncSlot (n : Nat) (sense failed : Bool) (inc : Byte) (core : Nat) (dieArr : Bool) : Slot :=
  BitVec.ofNat 128 (n + (if sense then 0x100 else 0) + (if failed then 0x200 else 0) + inc.toNat * 0x10000 + core * 0x1000000 + (if dieArr then 0x40000000 else 0))

/-- A release: Hoist to every participant, RELEASES + 1, SENSE flips, NEXT moves into ARR (R267). -/
def release (s : State) (n : Nat) (failed : Bool) : State :=
  let x := s.counter n
  let s := (bitsSet x.pmask).foldl (fun s c => meshSlot s 5 x.colour c (syncSlot n x.sense failed x.inc 0 false)) s
  s.setCounter n { x with
    releases := x.releases + 1, releasedAt := s.cclk + 1, sense := !x.sense, arr := x.next, fail := x.nextFail, next := 0, nextFail := false, darr := 0, told := false }

/-- A root's release: every member die other than the root takes one Hoist slot, in ascending die ID (R269). -/
def rootRelease (s : State) (n : Nat) : State :=
  let x := s.counter n
  let s := release s n x.fail
  (bitsSet x.dmask).foldl (fun s d =>
    if d = s.ownId.toNat then s else sendSlot s (BitVec.ofNat 6 d) 5 x.colour 0 (syncSlot n x.sense x.fail x.inc 0 false)) s

/-- BARRIER_ARRIVAL_SLOT: an arrival that waits on the mesh, of the core that its CORE names, is counted in the current or the
next episode, refused, or an overrun (R265, R272, R277). -/
def execBarrierArrivalSlot (c : CoreId) (colour : BitVec 4) (slot : Slot) (s : State) : Result :=
  live s fun s => takeMesh s (fun x => isSlot 4 x.src colour slot x && (field slot 24 6).toNat == c.val && !bit slot 30) fun s =>
    let n := (field slot 0 7).toNat
    let sense := bit slot 8
    let failed := bit slot 9
    let x := s.counter n
    if s.resetting colour.toNat then dropSlot s
    else if !x.valid || x.colour != colour || !bit x.pmask c.val then raiseD s c.val fBarrierRefused 13 (BitVec.ofNat 16 n) 0
    else if sense == x.sense && !bit x.arr c.val then s.setCounter n { x with arr := setBit x.arr c.val, fail := x.fail || failed }
    else if sense != x.sense && x.modeB && !bit x.next c.val then
      s.setCounter n { x with next := setBit x.next c.val, nextFail := x.nextFail || failed }
    else raiseD (s.setCounter n { x with fail := true }) c.val fBarrierOverrun 13 (BitVec.ofNat 16 n) 0

/-- COUNTER_LOCAL_COMPLETE: with ARR = PMASK a LOCAL counter releases, a MEMBER sends its die arrival once, and a ROOT
adds its own bit and releases when every member has arrived (R266, R269). -/
def execCounterLocalComplete (n : Fin 128) (s : State) : Result :=
  live s fun s =>
    let x := s.counter n.val
    if !x.valid || x.arr != x.pmask then s
    else if x.role == 0 then release s n.val x.fail
    else if x.role == 1 then
      if x.told then s
      else sendSlot (s.setCounter n.val { x with told := true }) x.root 4 x.colour 0 (syncSlot n.val x.sense x.fail x.inc 0 true)
    else
      let x := { x with darr := setBit x.darr s.ownId.toNat }
      let s := s.setCounter n.val x
      if x.darr = x.dmask then rootRelease s n.val else s

/-- DIE_ARRIVAL_SLOT: a member's arrival that waits on the mesh, at a root: stale, refused, an overrun, or counted; the last one releases (R269). -/
def execDieArrivalSlot (src : BitVec 6) (colour : BitVec 4) (slot : Slot) (s : State) : Result :=
  live s fun s => takeMesh s (fun x => isSlot 4 src colour slot x && bit slot 30) fun s =>
    let n := (field slot 0 7).toNat
    let x := s.counter n
    if s.resetting colour.toNat then dropSlot s
    else if !x.valid || field slot 16 8 != x.inc then s.setCounter n { x with stale := x.stale + 1 }
    else if !bit x.dmask src.toNat || x.colour != colour then raiseUnit s fBarrierRefused x.colour 13 (some src) (BitVec.ofNat 16 n)
    else if bit x.darr src.toNat then
      raiseUnit (s.setCounter n { x with fail := true }) fBarrierOverrun x.colour 13 (some src) (BitVec.ofNat 16 n)
    else
      let x := { x with darr := setBit x.darr src.toNat, fail := x.fail || bit slot 9 }
      let s := s.setCounter n x
      if x.darr = x.dmask then rootRelease s n else s

/-- HOIST_SLOT_MEMBER: a member releases on its root's Hoist of its own INC and SENSE; any other Hoist slot is stale (R270). -/
def execHoistSlotMember (src : BitVec 6) (colour : BitVec 4) (slot : Slot) (s : State) : Result :=
  live s fun s => takeMesh s (isSlot 5 src colour slot) fun s =>
    let n := (field slot 0 7).toNat
    let x := s.counter n
    if s.resetting colour.toNat then dropSlot s
    else if x.valid && x.role == 1 && x.root == src && x.colour == colour && field slot 16 8 == x.inc && bit slot 8 == x.sense then
      release s n (bit slot 9)
    else s.setCounter n { x with stale := x.stale + 1 }

/-- A fault policy that waited for the step boundary takes effect (R337). -/
def Partn.takePolicy (p : Partn) : Partn :=
  match p.policyNext with
  | some (m, n, r) => { p with replay := m, maxReplay := n, restartsMax := r, policyNext := none }
  | none => p

/-- The release of a step's closing counter: FAIL 0 commits the step and ends its replay count, FAIL 1 sends the core to
STEP_HALT and raises F_STEP_FAILED (R196, R360). -/
def stepRelease (s : State) (c : Nat) (failed : Bool) : State :=
  let k := s.core c
  if failed then
    let s := s.setCore c { k with st := .stepHalt, hold := none }
    let s := raiseCore s c fStepFailed 0 0
    s.modPart (s.colourOf c).toNat (fun p => { p with job := { p.job with failed := true, lastFault := fStepFailed } })
  else
    let s := s.setCore c { k with
      st := .run, hold := none, committedSince := BitVec.allOnes 256
      csr := { k.csr with committed := k.csr.step, stepOpen := false } }
    let col := (s.colourOf c).toNat
    let j := (s.part col).job
    let s := s.modPart col (fun p => { p.takePolicy with job := { p.job with stepReplays := 0 } })
    if j.st == .replaying then fwEvent (s.modPart col (fun p => { p with job := { p.job with st := .running } })) col 1 else s

/-- HOIST_RECEIVE: a core removes its oldest outstanding arrival of that sense, takes FAIL while a step is open, and a
STEP.END that waits for it commits or halts (R196, R268). -/
def execHoistReceive (c : CoreId) (slot : Slot) (s : State) : Result :=
  live s fun s => takeMesh s (fun x => x.stype == 5 && x.src == s.ownId && x.core == c.val && x.slot == slot) fun s =>
    let n := (field slot 0 7).toNat
    let sense := bit slot 8
    let failed := bit slot 9
    if s.resetting (s.colourOf c.val).toNat then dropSlot s
    else
      let k := s.core c.val
      let b := Table.get {} k.bars n
      let s := s.setCore c.val { k with
        bars := Table.set {} k.bars n { b with out := removeFirst (· == sense) b.out }
        csr := { k.csr with stepFail := k.csr.stepFail || (failed && k.csr.stepOpen) } }
      if b.out.contains sense && k.hold == some (.stepEnd n sense) then stepRelease s c.val failed else s

/-- Reinitialise a counter and its participants' NS and outstanding arrivals (R278). -/
def reinitCounter (s : State) (n : Nat) : State :=
  let x := s.counter n
  let s := s.setCounter n { x with inc := x.inc + 1, arr := 0, next := 0, darr := 0, fail := false, nextFail := false, sense := false, told := false }
  (bitsSet x.pmask).foldl (fun s c => s.modCore c (fun k => { k with bars := Table.set {} k.bars n {} })) s

/-! ### Signals received (R274, R275) -/

/-- Whether an earlier signal slot from the same sender to the same core still waits before the slots that a test selects
(R275). -/
def State.signalBehind (s : State) (hit : MeshSlot → Bool) : Bool :=
  match s.mesh.find? hit with
  | none => false
  | some x => (s.mesh.takeWhile (fun y => !hit y)).any (fun y =>
      y.stype == 6 && y.src == x.src && y.sender == x.sender && field y.slot 0 6 == field x.slot 0 6)

/-- SIGNAL_SLOT_RECEIVE: of a slot on the mesh, in issue order from each sender, the flags are set if the sender's colour is 0 or equals the target core's, and the core is
powered; else F_SIGNAL_REFUSED is logged (R274, R275). -/
def execSignalSlotReceive (src : BitVec 6) (colour : BitVec 4) (slot : Slot) (s : State) : Result :=
  live s fun s => if s.signalBehind (isSlot 6 src colour slot) then s else takeMesh s (isSlot 6 src colour slot) fun s =>
    let core := (field slot 0 6).toNat
    let k := s.core core
    if s.resetting colour.toNat then dropSlot s
    else if core < 48 && k.on && (colour == 0 || colour == k.colour) then setFlags s core (field slot 64 64)
    else raiseRec s { mkRec s fSignalRefused colour none 13 with peer := if src = s.ownId then none else some src, detail := BitVec.ofNat 16 core }

end Sys2Proof.Machine
end

