-- ==== Sys2Proof/Machine/Window.lean ====
section
/-!
DEFINITION. Receive windows and credits: grants, releases, performed pieces, MVREL, and what a reset does to a mover
(chapter 8, R163 to R170, R175).
-/
namespace Sys2Proof.Machine

/-- The occupancy record: FILLED in [31:0], RELEASED in [63:32] (R163). -/
def Window.occBytes (w : Window) : List Byte := leBytes 4 w.filled.toNat ++ leBytes 4 w.released.toNat

/-- A window changes and its occupancy record is written with the window's colour, under the region table (R25, R166). -/
def putWindow (s : State) (n : Nat) (w : Window) : State :=
  let s := s.setWindow n w
  match s.check w.colour.toNat (some w.owner) none true w.occ 8 with
  | .ok => (memWrite s w.occ w.occBytes).1
  | e => raiseCore s w.owner e.code 6 0

/-- MVREL: the owner releases u consumed units; u above FILLED − RELEASED raises F_CREDIT_UNDERFLOW, u = 0 does nothing
(R166). The window's number is IMM[7:0] (DEDUCED, assumption 37); a window that the core does not own raises F_ILLEGAL_OP
(assumption 38). -/
def execMvrel (c : CoreId) (f : Fields) (s : State) : Result :=
  live s (issue c.val false (f.only false true false 0 0xFF) [f.a] <| mvIssue c.val .mvrel f fun take s =>
    let k := s.core c.val
    let n := f.imm.toNat
    let w := s.window n
    let u := (field (k.sreg f.a.toNat) 0 20).toNat
    if !w.valid || w.owner != c.val then refuse s c.val fIllegalOp
    else if k.waitsFor (rngOf s c.val (.cm w.base) 0 (w.len - 1 : Nat) true) then heldData s c.val
    else if (w.filled - w.released).toNat < u then raiseP s c.val fCreditUnderflow 6 0
    else if u = 0 then take s
    else take (putWindow s n { w with released := w.released + BitVec.ofNat 32 u, free := w.free + u }))

/-- A grant or release slot (Table 8-6). -/
def windowSlot (win : BitVec 8) (core count : Nat) : Slot := BitVec.ofNat 128 (win.toNat + core * 0x100 + count * 2 ^ 32)

/-- The sender entry that takes the next grant of a window: the first after position rr with OUT below SHARE (R165). -/
def nextSender (s : State) (win : BitVec 8) (rr : Nat) : Option (Nat × Sender) :=
  let n := s.senders.length
  let order := (List.range n).map (fun i => (rr + i) % n)
  match order.find? (fun i => match s.senders[i]? with | some e => e.win == win && decide (e.out < e.share) | none => false) with
  | some i => (s.senders[i]?).map (fun e => (i, e))
  | none => none

/-- WINDOW_GRANT: min(FREE, SHARE − OUT) to the next sender entry; FREE falls and OUT rises by it (R165, R167). -/
def execWindowGrant (w : BitVec 8) (s : State) : Result :=
  live s fun s =>
    let x := s.window w.toNat
    if !x.valid || x.free = 0 then s
    else
      match nextSender s w x.rr with
      | none => s
      | some (i, e) =>
        let u := Nat.min (Nat.min x.free (e.share - e.out)) 0xFFFFF
        let s := { s with senders := setAt s.senders i { e with out := e.out + u, granted := e.granted + BitVec.ofNat 32 u } }
        let s := s.setWindow w.toNat { x with free := x.free - u, rr := i + 1 }
        sendSlot s e.die 2 x.colour e.core.toNat (windowSlot w e.core.toNat u)

/-- The fields of a grant or release slot: window, core, count. -/
def winOf (slot : Slot) : BitVec 8 × BitVec 6 × Nat := (field slot 0 8, field slot 8 6, (field slot 32 20).toNat)

/-- As a grant comes, the channels whose next piece finds HELD of its entry too small are known to wait (R164). -/
def Core.noteWaits (own : BitVec 6) (e : Credit) (k : Core) : Core :=
  (List.range 16).foldl (fun k n =>
    match (k.chan n).current with
    | none => k
    | some p =>
      match p.needs own k with
      | some (e', u) =>
        if e'.die == e.die && e'.win == e.win && decide (e.held < u) then k.setChan n ((k.chan n).modPosted p.index (fun p => { p with waited := true }))
        else k
      | none => k) k

/-- WINDOW_GRANT_SLOT: a grant adds to HELD of the core's entry for the sending die and window; a slot of another colour,
of no entry, or of an entry that takes no grant is discarded and counted (R164, R170, R283). -/
def execWindowGrantSlot (src : BitVec 6) (colour : BitVec 4) (slot : Slot) (s : State) : Result :=
  live s fun s => takeMesh s (isSlot 2 src colour slot) fun s =>
    let x := winOf slot
    let c := x.2.1.toNat
    let k := s.core c
    match k.credit src x.1 with
    | none => dropSlot s
    | some e =>
      if s.resetting colour.toNat || k.colour != colour || e.barred then dropSlot s
      else
        let hit := fun (q : Credit) => q.die == src && q.win == x.1
        let add := fun (q : Credit) => { q with held := q.held + x.2.2, received := q.received + BitVec.ofNat 32 x.2.2 }
        s.setCore c { (k.noteWaits s.ownId e) with credits := mapFirst hit add k.credits }

/-- WINDOW_RELEASE_SLOT: OUT of the sender falls and FREE rises by COUNT; a slot of another colour or of no sender is
discarded and counted (R168, R283). -/
def execWindowReleaseSlot (src : BitVec 6) (colour : BitVec 4) (slot : Slot) (s : State) : Result :=
  live s fun s => takeMesh s (isSlot 3 src colour slot) fun s =>
    let x := winOf slot
    let w := s.window x.1.toNat
    if s.resetting colour.toNat || !w.valid || w.colour != colour || !s.hasSender x.1 src x.2.1 then dropSlot s
    else
      let back := fun (e : Sender) => { e with out := sub20 e.out x.2.2, returned := e.returned + BitVec.ofNat 32 x.2.2 }
      (modSender s x.1 src x.2.1 back).setWindow x.1.toNat { w with free := w.free + x.2.2 }

/-- Units of a piece performed: OUT falls, FILLED rises, and FILLED is written to OCC (R166). -/
def fillUnits (s : State) (win : BitVec 8) (die core : BitVec 6) (u : Nat) : State :=
  let w := s.window win.toNat
  if !w.valid || !s.hasSender win die core then s
  else
    let s := modSender s win die core (fun e => { e with out := sub20 e.out u, settled := e.settled + BitVec.ofNat 32 u })
    putWindow s win.toNat { w with filled := w.filled + BitVec.ofNat 32 u }

/-- PIECE_PERFORMED: every granule of the oldest landed piece is performed (R166). -/
def execPiecePerformed (s : State) : Result :=
  live s fun s =>
    match s.landed with
    | [] => s
    | l :: t => fillUnits { s with landed := t } l.win l.die l.core l.units

/-! ### Returning credits and cutting movers (R168, R175) -/

/-- The bytes of an unfinished message that leave before its LAST: up to the next granule boundary after the flits sent
(R175; assumption 39). -/
def cutBytes (sent : Nat) : Nat := roundUp (224 * sent + 1) 64

/-- Whether a message waits here for requester r of this die. -/
def TxMsg.ownedBy (t : TxMsg) (r : Nat) : Bool :=
  t.fwd.isNone && t.msg.tag.toNat / 64 == r && (t.msg.op == opWrite || t.msg.op == opLedger || t.msg.op == opRead)

/-- Units of a window message that a cut leaves unsent. -/
def TxMsg.unsentUnits (t : TxMsg) : Nat :=
  if !t.msg.winv then 0
  else if t.sent = 0 then t.msg.data.length / 256
  else t.msg.data.length / 256 - ceilDiv (Nat.min (cutBytes t.sent) t.msg.data.length) 256

/-- The spent units toward a window of pieces whose bytes a READ still asks for. -/
def State.unreadTo (s : State) (c : Nat) (e : Credit) : Nat :=
  s.reqs.foldl (fun n (q : Req) =>
    match q.kind, s.writeOf q with
    | .read d _ _ _ _ units, some (x, _) =>
      if d == c && x.winv && x.win == e.win && (match x.dstKind with | some (.pga die _) => die == e.die | _ => false) then n + units else n
    | _, _ => n) 0

/-- The spent units toward a window that a core's cut messages and reads leave unsent (R175). -/
def State.unsentTo (s : State) (c : Nat) (e : Credit) : Nat :=
  s.unreadTo c e + s.tx.foldl (fun n t => if t.ownedBy c && t.msg.winv && t.msg.dst == e.die && t.msg.win == e.win then n + t.unsentUnits else n) 0

/-- The release slots of u units of a credit entry, at most 2^20 − 1 each (Table 8-6). -/
def releaseSlots (colour : BitVec 4) (c : Nat) (e : Credit) : Nat → Nat → State → State
  | 0, _, s => s
  | n + 1, u, s =>
    if u = 0 then s
    else
      let m := Nat.min u 0xFFFFF
      releaseSlots colour c e n (u - m) (sendSlot s e.die 3 colour c (windowSlot e.win c m))

/-- A core returns the HELD credits of one entry, and u units that were spent and will not leave, in release slots (R168, R175).
The u units count as not spent, so that D stays 0 (R171). -/
def returnCredit (c u : Nat) (s : State) (e : Credit) : State :=
  let n := (if e.barred then 0 else e.held) + u
  let s := releaseSlots (s.colourOf c) c e (n / 0xFFFFF + 1) n s
  let done := fun (x : Credit) => { x with held := 0, spent := x.spent - BitVec.ofNat 32 u, returned := x.returned + BitVec.ofNat 32 n }
  s.modCore c (fun k => { k with credits := mapFirst (fun x => x.die == e.die && x.win == e.win) done k.credits })

/-- A cut of one waiting message: unsent messages go, a message in progress closes after its granule (R175). -/
def TxMsg.cut (c : Nat) (t : TxMsg) : Option TxMsg :=
  if !t.ownedBy c then some t
  else if t.sent = 0 then none
  else some { t with msg := { t.msg with data := t.msg.data.take (cutBytes t.sent) } }

/-- The kind of a request whose descriptor or fence is gone. -/
def ReqKind.forget (c : Nat) (q : ReqKind) : ReqKind :=
  match q with
  | .read d _ _ _ _ _ => if d = c then .orphan c else q
  | .write d _ _ _ _ => if d = c then .orphan c else q
  | .probeDesc d _ _ => if d = c then .orphan c else q
  | .fence d => if d = c then .orphan c else q
  | .orphan _ => q
  | .bulk _ _ _ _ => q

/-- The tags of messages that a cut removes whole. -/
def State.cutTags (s : State) (c : Nat) : List (BitVec 12) :=
  (s.tx.filter (fun t => t.ownedBy c && t.sent == 0)).map (·.msg.tag)

/-- The channels of a core are cleared: HEAD becomes TAIL, no records, HALTED ends; the requests of their descriptors settle for
nobody (R162, R175). -/
def clearChans (s : State) (c : Nat) : State :=
  let s := { s with reqs := s.reqs.map (fun (q : Req) => { q with kind := q.kind.forget c }) }
  s.modCore c (fun k =>
    { k with chans := Table.update {} (fun _ h => { h with head := h.tail, posted := [], halted := false }) (k.chans.map (fun (e : Nat × Chan) => e.1)) k.chans })

/-- Units spent for pieces whose bytes have not come come back to HELD as their descriptors are cleared (R162, R164; assumption
55). -/
def takeBack (c : Nat) (s : State) (e : Credit) : State :=
  let u := s.unreadTo c e
  let back := fun (x : Credit) => { x with held := if x.barred then x.held else x.held + u, spent := x.spent - BitVec.ofNat 32 u }
  s.modCore c (fun k => { k with credits := mapFirst (fun x => x.die == e.die && x.win == e.win) back k.credits })

/-- A mover is reset in mid-transfer: channels stop, credits return, HEAD becomes TAIL, no record or signal, and for each
owned window RELEASED becomes FILLED (R175); the scoreboard is the caller's.-/
def cutMover (s : State) (c : Nat) : State :=
  let s := (s.core c).credits.foldl (fun s e => returnCredit c (s.unsentTo c e) s e) s
  let gone := s.cutTags c
  let s := { s with tx := s.tx.filterMap (TxMsg.cut c), reqs := s.reqs.filter (fun q => !gone.contains q.tag) }
  let s := clearChans s c
  (s.windows.filter (fun e => e.2.valid && e.2.owner == c)).foldl (fun s e =>
    let w := s.window e.1
    if w.filled = w.released then s else putWindow s e.1 { w with released := w.filled, free := w.free + (w.filled - w.released).toNat }) s

end Sys2Proof.Machine
end

