-- ==== Sys2Proof/Machine/Reset.lean ====
section
/-!
DEFINITION. Resets inside the die: engine, core and partition reset, the replay of a core, the region tables that firmware
keeps, and the core controls of CU_CTRL (R60, R133, R134, R175, R197, R198, R290 to R294, R406).
-/
namespace Sys2Proof.Machine

/-! ### Status codes (Table 16-6) -/

/-- ST_OK. -/
def stOk : BitVec 16 := 0x0000
/-- ST_RESET_DONE. -/
def stResetDone : BitVec 16 := 0x0001
/-- ST_BAD_FIELD. -/
def stBadField : BitVec 16 := 0x0101
/-- ST_BAD_LENGTH. -/
def stBadLength : BitVec 16 := 0x0102
/-- ST_BAD_LEVEL. -/
def stBadLevel : BitVec 16 := 0x0103
/-- ST_BAD_OPCODE. -/
def stBadOpcode : BitVec 16 := 0x0104
/-- ST_DENIED. -/
def stDenied : BitVec 16 := 0x0105
/-- ST_NOSPACE. -/
def stNospace : BitVec 16 := 0x0201
/-- ST_IN_USE. -/
def stInUse : BitVec 16 := 0x0202
/-- ST_EXISTS. -/
def stExists : BitVec 16 := 0x0203
/-- ST_NOT_FOUND. -/
def stNotFound : BitVec 16 := 0x0204
/-- ST_BUSY. -/
def stBusy : BitVec 16 := 0x0205
/-- ST_BAD_STATE. -/
def stBadState : BitVec 16 := 0x0206
/-- ST_DIE_ABSENT. -/
def stDieAbsent : BitVec 16 := 0x0301
/-- ST_NO_PARTITION. -/
def stNoPartition : BitVec 16 := 0x0302
/-- ST_LENDER_MISSING. -/
def stLenderMissing : BitVec 16 := 0x0303
/-- ST_ARRAY_SHORT. -/
def stArrayShort : BitVec 16 := 0x0304
/-- ST_CONFIG_MISMATCH. -/
def stConfigMismatch : BitVec 16 := 0x0305
/-- ST_UNBOUND. -/
def stUnbound : BitVec 16 := 0x0306
/-- ST_BAD_INDEX. -/
def stBadIndex : BitVec 16 := 0x0307
/-- ST_AUTH_FAILED. -/
def stAuthFailed : BitVec 16 := 0x0401
/-- ST_AUTH_LOCKED. -/
def stAuthLocked : BitVec 16 := 0x0402
/-- ST_DIGEST_MISMATCH. -/
def stDigestMismatch : BitVec 16 := 0x0403
/-- ST_BULK_FAILED. -/
def stBulkFailed : BitVec 16 := 0x0501
/-- ST_RESET_ABORTED. -/
def stResetAborted : BitVec 16 := 0x0502
/-- ST_RESTARTED. -/
def stRestarted : BitVec 16 := 0x0503

/-! ### What a command changes (R326, R364) -/

/-- The opcode of a command. -/
def Cmd.opcode (c : Cmd) : Nat := leField c.bytes 0 2

/-- The payload of LEN bytes. -/
def Cmd.payload (c : Cmd) : List Byte := (c.bytes.drop 16).take (leField c.bytes 4 2)

/-- The query commands: Table 16-2 and Table 16-4's reports (R326). -/
def queryOpcodes : List Nat := [0x01, 0x02, 0x20, 0x31, 0x40, 0x50, 0x63, 0x80, 0x81, 0x90, 0x102, 0x122, 0x160]

/-- Whether a command is a query: PEER_TABLE with REFRESH and MAST_STATUS with CLEAR change the die (R326, R328, R331). -/
def Cmd.isQuery (c : Cmd) : Bool :=
  let op := c.opcode
  queryOpcodes.contains op && !((op == 0x50 || op == 0x31) && leField c.payload 0 1 % 2 == 1)

/-- The colour whose state a command of mailbox mb changes, 0 for none. -/
def Cmd.colour (c : Cmd) (mb : Nat) : Nat :=
  let op := c.opcode
  if c.isQuery then 0
  else if 0x100 ≤ op then mb
  else if op == 0x60 || op == 0x61 || op == 0x62 || op == 0x70 then leField c.payload 0 1 % 16
  else 0

/-- Units that a command has touched are not compared at the next AUDIT (R364). -/
def touch (s : State) (l : List (Nat × Nat)) : State := { s with skovi := { s.skovi with touched := (s.skovi.touched ++ l).eraseDups } }

/-- The cores and counters of a partition. -/
def Partn.units (p : Partn) : List (Nat × Nat) :=
  ((List.range 48).filter (bit p.cores)).map (fun c => (0, c)) ++ ((List.range 128).filter (bit p.counters)).map (fun n => (2, n))

/-- The units of Table 17-4 that a command has changed, once it has succeeded (R364). -/
def State.changedBy (s : State) (mb : Nat) (c : Cmd) : List (Nat × Nat) :=
  if c.isQuery then []
  else if c.opcode = 0x41 then [(1, leField c.payload 0 1 % 4)]
  else if c.opcode = 0x71 then (List.range 48).map (fun c => (0, c)) ++ (List.range 4).map (fun p => (1, p))
  else (s.part (c.colour mb)).units

/-- The units that the command at index i of mailbox mb has changed, if its status is one of success. -/
def touchCmd (s : State) (mb : Nat) (i st : BitVec 16) : State :=
  if st = stOk || st = stResetDone then
    match (s.mailbox mb).accepted.find? (fun (c : Cmd) => c.idx == i && c.resp.isNone) with
    | some c => touch s (s.changedBy mb c)
    | none => s
  else s

/-- The command at index i of mailbox mb is performed: its status and response payload wait for the post, after those that were
performed before it (R308, R312, R315). -/
def answer (s : State) (mb : Nat) (i st : BitVec 16) (payload : List Byte) : State :=
  (touchCmd s mb i st).modMailbox mb (fun m => { m with
    accepted := m.accepted.map (fun (c : Cmd) => if c.idx == i && c.resp.isNone then { c with resp := some (st, payload), running := false } else c)
    finished := if m.finished.contains i then m.finished else m.finished ++ [i] })

/-! ### Bookings disarmed (R60) -/

/-- A disarmed booking; a firing that waits is cancelled (R60). -/
def Booking.disarm (b : Booking) : Booking := { b with valid := false, past := false, catchup := false }

/-- A core whose bookings are disarmed, no firing waiting (R60). -/
def Core.disarm (k : Core) : Core :=
  { k with owed := [], bookings := Table.update {} (fun _ b => b.disarm) (k.bookings.map (fun (e : Nat × Booking) => e.1)) k.bookings }

/-- Every die booking that a test selects is disarmed, and none of its firings waits (R60). -/
def disarmDie (s : State) (sel : Nat → Booking → Bool) : State :=
  { s with owed := s.owed.filter (fun (e : Nat × Booking) => !sel e.1 e.2), dieBookings := Table.update {} (fun i b => if sel i b then b.disarm else b) (s.dieBookings.map (fun (e : Nat × Booking) => e.1)) s.dieBookings }

/-! ### Engine and core resets (R175, R198, R223, R225, R262, R279) -/

/-- An array after a reset of its engine: both banks zero with no flags and no records, NEXT acc0 (R223). -/
def MArray.reset (a : MArray) : MArray := { a with banks := [], nextBank := 0, cur := none, drains := [] }

/-- The scan unit after a reset: empty slots, no SUCFG copy, every filter NT = 0 (R262). -/
def Su.reset (u : Su) : Su := { u with cuCfg := none, slots := [] }

/-- The instructions that an array holds started and not completed: the FULL MAT in progress and those whose drains are due. -/
def MArray.inside (a : MArray) : List QInstr :=
  ((match a.cur with | some t => [t.q] | none => []) ++ a.drains.map (fun d => d.q)).foldl (fun l q => if l.contains q then l else l ++ [q]) []

/-- A core without the queue and the current instruction of engine e: their entries are freed and what they would have
written is pending no more (R198). -/
def Core.dropEngine (k : Core) (e : Nat) : Core :=
  let gone := k.queue e ++ k.run e ++ (Table.get {} k.arrays e).inside
  { k with
    queues := Table.set [] k.queues e []
    running := Table.set [] k.running e []
    sb := freeEntries k.sb (gone.flatMap (fun (q : QInstr) => q.entries))
    pendS := k.pendS.filter (fun r => !gone.any (fun q => q.sdest == some r))
    pendM := k.pendM.filter (fun r => !gone.any (fun q => q.mdest == some r)) }

/-- What an engine reset clears in the engine itself (R223, R225, R262). -/
def Core.clearEngine (k : Core) (e : Nat) : Core :=
  if e < 2 then { k with arrays := Table.set {} k.arrays e (Table.get {} k.arrays e).reset }
  else if e = 2 then { k with ve := {} }
  else if e = 4 then { k with su := k.su.reset }
  else k

/-- An engine reset: queue and current instruction discarded, STEP_FAIL set; the MV's cuts its transfers and clears the core's
scoreboard (R175, R198). -/
def resetEngine (s : State) (c e : Nat) : State :=
  let s := if e = 5 then (cutMover s c).modCore c (fun k => { k with sb := [] }) else s
  failStep (s.modCore c (fun k => (k.dropEngine e).clearEngine e)) c

/-- A core after core reset, its mover already cut: power, colour, operand buffers, channels, credit entries and the
arrays' maps are kept, the rest is at its reset value (R198, R279, R405). -/
def Core.reset (k : Core) : Core :=
  { (({} : Core)) with
    on := k.on, colour := k.colour, ob := k.ob, obBad := k.obBad, chans := k.chans, credits := k.credits
    bookings := k.disarm.bookings, owed := []
    arrays := Table.update {} (fun _ a => a.reset) (k.arrays.map (fun (e : Nat × MArray) => e.1)) k.arrays
    su := k.su.reset }

/-- A core reset (R198): the mover is cut under R175, and Hoist on its way to the core is discarded (R279). -/
def coreReset (s : State) (c : Nat) : State :=
  let s := (cutMover s c).modCore c Core.reset
  { s with mesh := s.mesh.filter (fun (x : MeshSlot) => !(x.stype == 5 && x.core == c)) }

/-- Whether a core's mover is in the middle of a transfer (R175). -/
def Core.transferring (k : Core) : Bool := k.chans.any (fun (e : Nat × Chan) => e.2.posted.any (fun p => p.started && p.working))

/-- The preparation of a replay: engines reset, channels cleared under R162 (and cut under R175 in mid-transfer,
assumption 40), s1 to s31 restored, PC at STEP_PC, STEP_FAIL cleared; a constant cache fill still to come writes no register (R36,
R197, R406). -/
def replayCore (s : State) (c : Nat) : State :=
  let s := if (s.core c).transferring then cutMover s c else clearChans ((s.core c).credits.foldl (takeBack c) s) c
  (s.modCore c (fun k => (List.range 6).foldl (fun k e => (k.dropEngine e).clearEngine e) k)).modCore c (fun k =>
    { k with
      sb := [], sregs := k.shadow, pendS := [], pendM := [], ccFill := none, hold := none, fenceBad := false, probesSent := false
      csr := { k.csr with pc := k.csr.stepPc, stepFail := false } })

/-! ### CU_CTRL (R406) -/

/-- An action whose precondition fails does nothing and logs F_STATE_MISMATCH with subcode 0 (R406). -/
def ctrlRefused (s : State) (c : Nat) : State := fwFault s { mkRec s fStateMismatch (s.colourOf c) (some c) 15 with detail := 0 }

/-- STATE RUN at PC; the core enters RUN, so WATCHDOG counts its commits anew (R50). -/
def Core.runNow (k : Core) : Core := { k with st := .run, hold := none, committedSince := 0 }

/-- CU_RUN: from STOPPED, STEP_HALT or HALTED the core runs at PC; only a core that a partition owns runs (R281, R406). -/
def execCuRun (c : CoreId) (s : State) : Result :=
  live s fun s =>
    let k := s.core c.val
    if !k.on || k.colour = 0 then s
    else if k.st == .stopped || k.st == .stepHalt || k.st == .halted then s.setCore c.val k.runNow
    else ctrlRefused s c.val

/-- CU_STOP: from RUN or WAIT issue stops, queues drain, then STATE is STOPPED (R406). -/
def execCuStop (c : CoreId) (s : State) : Result :=
  live s fun s =>
    let k := s.core c.val
    if !k.on then s
    else if k.st == .run || k.st == .wait then s.setCore c.val ({ k with drainStop := true, hold := none }).settleStop
    else ctrlRefused s c.val

/-- CU_CORE_RESET: core reset (R198, R406). -/
def execCuCoreReset (c : CoreId) (s : State) : Result :=
  live s fun s => if (s.core c.val).on then coreReset s c.val else s

/-- CU_ENGINE_RESET: reset of engine 0 to 5; 6 and 7 fail the precondition (R198, R406). -/
def execCuEngineReset (c : CoreId) (e : BitVec 3) (s : State) : Result :=
  live s fun s =>
    if !(s.core c.val).on then s
    else if 6 ≤ e.toNat then ctrlRefused s c.val
    else resetEngine s c.val e.toNat

/-- CU_REPLAY: from STEP_HALT or HALTED with a step open the core is prepared for a replay; STATE is unchanged (R406). -/
def execCuReplay (c : CoreId) (s : State) : Result :=
  live s fun s =>
    let k := s.core c.val
    if !k.on then s
    else if (k.st == .stepHalt || k.st == .halted) && k.csr.stepOpen then replayCore s c.val
    else ctrlRefused s c.val

/-! ### Region tables (R133, R134, R137) -/

/-- Attribute bytes of Table 7-4: VALID 1, RD 2, WR 4, EA 8, GUARD 16, CRED 32, PRIV 64. -/
def attrsOwn : Byte := 0x17
/-- An image range: readable and PRIV (R137). -/
def attrsImage : Byte := 0x53

/-- The part of an entry below page b and the part above page l, with its attributes (R134). -/
def Region.outside (b l : Nat) (r : Region) : List Region :=
  if r.last < b || l < r.base then [r]
  else
    (if r.base < b then [{ r with last := b - 1 }] else []) ++ (if l < r.last then [{ r with base := l + 1 }] else [])

/-- The part of pages b to l that an entry covers, with its attributes changed by g (R134). -/
def Region.inside (b l : Nat) (g : Byte → Byte) (r : Region) : List Region :=
  if r.last < b || l < r.base then [] else [{ base := Nat.max r.base b, last := Nat.min r.last l, attrs := g r.attrs }]

/-- Change the attributes of pages b to l of a table: entries give way, and the new range is split at their boundaries (R134). -/
def installRegion (t : List Region) (b l : Nat) (g : Byte → Byte) : List Region :=
  t.flatMap (Region.outside b l) ++ t.flatMap (Region.inside b l g)

/-- Change the attributes of a byte range, widened to whole pages. -/
def changeBytes (t : List Region) (a n : Nat) (g : Byte → Byte) : List Region :=
  if n = 0 then t else installRegion t (a / 4096) ((a + n - 1) / 4096) g

/-- Install a byte range, widened to whole pages. -/
def installBytes (t : List Region) (a n : Nat) (attrs : Byte) : List Region := changeBytes t a n (fun _ => attrs)

/-- A window's range becomes one entry with CRED = 1 and, for the rest, the attributes of the entry that holds its first byte
(R163). -/
def coverWindow (t : List Region) (a n : Nat) : List Region :=
  let b := a / 4096
  let l := (a + n - 1) / 4096
  match t.find? (fun r => decide (r.base ≤ b) && decide (b ≤ r.last)) with
  | some r => if n = 0 then t else t.flatMap (Region.outside b l) ++ [{ base := b, last := l, attrs := r.attrs ||| 0x20 }]
  | none => t

/-- EA is 0 in the entry that covers an address (R137, R163). -/
def clearEa (t : List Region) (a : Nat) : List Region :=
  t.map (fun r => if r.base ≤ a / 4096 && a / 4096 ≤ r.last then { r with attrs := r.attrs &&& 0xF7 } else r)

/-- Runs of consecutive numbers of a rising list: first and count. -/
def runsOf : List Nat → List (Nat × Nat)
  | [] => []
  | x :: t =>
    match runsOf t with
    | (y, n) :: r => if x + 1 = y then (x, n + 1) :: r else (x, 1) :: (y, n) :: r
    | [] => [(x, 1)]

/-- The entries of partition create: RD, WR and GUARD over the owned granules and the cores' CM (R333). -/
def Partn.baseRegions (p : Partn) : List Region :=
  (runsOf p.granules).map (fun (e : Nat × Nat) => { base := e.1 * 0x10000, last := (e.1 + e.2) * 0x10000 - 1, attrs := attrsOwn }) ++
  (bitsSet p.cores).map (fun c => { base := cmBase c / 4096, last := (cmBase c + 0x600000) / 4096 - 1, attrs := attrsOwn })

/-- The ranges of an image that lie on this die: all of them, less the borrowed ones, the last declared borrowable ranges
that make up BORROWED bytes (R340). -/
def takeBorrow (ws : List DeclWeights) (short : Nat) : List DeclWeights × List DeclWeights :=
  ws.foldr (fun w acc =>
    let got := (acc.2.map (fun (x : DeclWeights) => x.range.len)).foldl (· + ·) 0
    if got < short && w.borrowable then (acc.1, w :: acc.2) else (w :: acc.1, acc.2)) ([], [])

/-- The local ranges of an image. -/
def Image.localRanges (g : Image) : List DeclWeights := (takeBorrow g.role.image g.borrowed).1
/-- The borrowed ranges of an image. -/
def Image.farRanges (g : Image) : List DeclWeights := (takeBorrow g.role.image g.borrowed).2

/-- The image of a partition by digest. -/
def Partn.image (p : Partn) (d : BitVec 256) : Option Image := p.images.find? (fun g => g.digest == d)

/-- Bytes of a request queue's ring (R344). -/
def ReqQueue.bytes (q : ReqQueue) : Nat := 64 + 2 ^ q.depthLog2 * 2 ^ q.entryLog2

/-- The launch regions of a role in a table: the declared ones, each window as one entry with CRED = 1, EA 0 over its occupancy
record, and PRIV kept on image ranges (R137, R163, R348). -/
def launchRegions (t : List Region) (g : Image) (privs : List DeclWeights) : List Region :=
  let t := g.role.regions.foldl (fun t r => installBytes t r.range.base r.range.len r.attrs) t
  let t := g.role.windows.foldl (fun t w => coverWindow t w.range.base w.range.len) t
  let t := g.role.windows.foldl (fun t w => clearEa t w.occ) t
  privs.foldl (fun t w => changeBytes t w.range.base w.range.len (fun a => a ||| 0x40)) t

/-- The region table of colour c as firmware installs it: partition create, then committed images, request queues, and
while a job exists its launch regions (R134, R137, R344, R348). -/
def regionTable (s : State) (col : Nat) (p : Partn) : List Region :=
  if !p.present then []
  else
    let t := p.baseRegions
    let t := (p.images.filter (fun g => g.st == .committed)).foldl (fun t g =>
      g.localRanges.foldl (fun t w => installBytes t w.range.base w.range.len attrsImage) t) t
    let t := s.queues.foldl (fun t (e : Nat × ReqQueue) =>
      if e.2.used && e.2.colour.toNat == col then installBytes t e.2.base e.2.bytes attrsOwn else t) t
    if p.job.live then
      match p.image p.job.digest with
      | some g => launchRegions t g ((p.images.filter (fun g => g.st == .committed)).flatMap Image.localRanges)
      | none => t
    else t

/-- Firmware writes the region table of a colour. -/
def rebuildRegions (s : State) (col : Nat) : State :=
  { s with regions := Table.set [] s.regions col (regionTable s col (s.part col)) }

/-! ### Partition reset (R290 to R294) -/

/-- Step 1 for one core: issue stops and queued engine instructions are discarded; running ones complete (R290). What a core
reset clears beside is cleared: FLAGS, ADMIT_CUT, the counters, the shadow set and both caches (R198, R289, R293). -/
def Core.stopIssue (k : Core) : Core :=
  let queued := (List.range 6).flatMap k.queue
  { k.disarm with
    st := .stopped, hold := none, drainStop := false, fenceBad := false, probesSent := false
    queues := [], shadow := [], flagSets := 0, icache := [], icFill := none, icBad := [], ccache := [], ccFill := none, ccBad := [], lineErrors := 0
    csr := { k.csr with flags := 0, admitCut := 0, cycle := 0, issued := 0, heldData := 0, heldQueue := 0, heldWait := 0, wrap := 0 }
    sb := freeEntries k.sb (queued.flatMap (fun (q : QInstr) => q.entries))
    pendS := k.pendS.filter (fun r => !queued.any (fun q => q.sdest == some r) && (match k.ccFill with | some (_, _, d, _) => r != d | none => true))
    pendM := k.pendM.filter (fun r => !queued.any (fun q => q.mdest == some r)) }

/-- Step 4 for one core: the entries of its mover stay until its outstanding pieces have settled (R290). -/
def Core.keepSettling (k : Core) : Core :=
  { k with credits := [], bars := [], sb := k.sb.map (fun e => if 16 ≤ e.owner then { e with owner := 32 } else e) }

/-- Every window of a colour is uninstalled and its books are discarded (R290 step 3). -/
def uninstallWindows (s : State) (col : Nat) : State :=
  let gone := (s.windows.filter (fun (e : Nat × Window) => e.2.colour.toNat == col)).map (fun e => e.1)
  { s with
    windows := s.windows.filter (fun (e : Nat × Window) => !gone.contains e.1)
    senders := s.senders.filter (fun (e : Sender) => !gone.contains e.win.toNat)
    landed := s.landed.filter (fun (l : Landed) => !gone.contains l.win.toNat) }

/-- Every counter of a colour loses VALID (R279). -/
def invalidateCounters (s : State) (col : Nat) : State :=
  let off := fun (_ : Nat) (x : Counter) => if x.colour.toNat == col then { x with valid := false } else x
  { s with counters := Table.update {} off (s.counters.map (fun (e : Nat × Counter) => e.1)) s.counters }

/-- The repair of a colour's step ends, with what it still fetches (R349, R357). -/
def dropRepair (s : State) (col : Nat) : State :=
  dropTransfers (s.modPart col (fun p => { p with repair := none })) (fun w => match w with | .refetch c _ _ => c == col | .cmd _ _ => false)

/-- The reset cycle of colour c: steps 1 to 5 of R290, bookings disarmed (R60) and counters invalid (R279). A colour
already in reset is left as it is (R294). -/
def beginReset (s : State) (col : Nat) (reason : Byte) : State :=
  if (s.part col).resetting then s
  else
    let cs := bitsSet (s.part col).cores
    let s := cs.foldl (fun s c => s.modCore c Core.stopIssue) s
    let s := cs.foldl (fun s c => clearSettled ((cutMover s c).modCore c Core.keepSettling) c) s
    let s := disarmDie (invalidateCounters (uninstallWindows s col) col) (fun _ b => b.colour.toNat == col)
    (dropRepair s col).modPart col (fun p => { p with resetting := true, resetReason := reason, resetJob := p.job.live })

/-- A command that was cut: an IMAGE_STAGE leaves its image in STAGING (R343). -/
def unstage (s : State) (mb : Nat) (c : Cmd) : State :=
  if leField c.bytes 0 2 != 0x0100 || c.resp.isNone then s
  else
    let d : BitVec 256 := BitVec.ofNat 256 (leField c.bytes 16 32)
    let back := fun (g : Image) => if g.digest == d && g.st == .staged then { g with st := .staging } else g
    s.modPart mb (fun p => { p with images := p.images.map back })

/-- One command of colour col's mailbox is cut by a reset (R294, R343). -/
def cutCommand (col : Nat) (s : State) (c : Cmd) : State :=
  let s := dropTransfers (unstage s col c) (fun w => w == .cmd col c.idx)
  answer (s.modMailbox col (fun m => { m with accepted := m.accepted.map (fun (x : Cmd) => if x.idx == c.idx then { x with resp := none } else x) }))
    col c.idx stResetAborted []

/-- A commanded reset also cuts off what its mailbox has in progress, started and not responded, but for the commands that wait for
the reset, and shows RESETTING (R294; Table 15-1; assumption 41). -/
def cutCommands (s : State) (col : Nat) : State :=
  let waits := (s.part col).resetBy
  let cut := (s.mailbox col).accepted.filter (fun (c : Cmd) =>
    (c.running || c.resp.isSome) && !waits.any (fun (w : BitVec 4 × BitVec 16 × BitVec 16) => w.1.toNat == col && w.2.1 == c.idx))
  (cut.foldl (cutCommand col) s).modMailbox col (fun m => { m with st := if m.st == .ready then .resetting else m.st })

/-- Whether every request that colour c's agents issued has been answered or has timed out (R292). -/
def State.drainedOf (s : State) (col : Nat) : Bool := !s.reqs.any (fun (q : Req) => q.colour.toNat == col)

end Sys2Proof.Machine
end

