-- ==== Sys2Proof/Machine/Booking.lean ====
section
/-!
DEFINITION. The booking entry: its 16 bytes, the checks of a write, and what a write leaves (R48, R49, R54; Table 3-4,
Table 3-5).
-/
namespace Sys2Proof.Machine

/-- Read a booking entry (Table 3-4); a written LATE is ignored. -/
def Booking.ofBits (x : BitVec 128) : Booking :=
  { stroke := field x 0 64, phase := field x 64 16, period := field x 80 24, action := field x 104 4, colour := field x 108 4,
    param := field x 112 12, valid := bit x 124, drop := bit x 125 }

/-- Bytes 8 to 15 of a booking as one word (Table 3-4, BOOKRD). -/
def Booking.high (b : Booking) : Word :=
  BitVec.ofNat 64 (b.phase.toNat + b.period.toNat * 2 ^ 16 + b.action.toNat * 2 ^ 40 + b.colour.toNat * 2 ^ 44 + b.param.toNat * 2 ^ 48 +
    (if b.valid then 2 ^ 60 else 0) + (if b.drop then 2 ^ 61 else 0) + (if b.late then 2 ^ 62 else 0))

/-- Whether a PARAM lies in the action's range (Table 3-5). -/
def paramOk (core : Bool) (action param : Nat) : Bool :=
  match action with
  | 1 | 5 => decide (param < 256)
  | 2 => param == 0
  | 3 | 4 => decide (param < 32)
  | 6 => decide (param < 64)
  | 7 => if core then decide (param < 64) else decide (param / 64 < 48)
  | _ => false

/-- Whether an action is permitted to the booking's kind; codes 0 and 8 to 15 are reserved (R50, Table 3-5). -/
def actionOk (core : Bool) (action : Nat) : Bool :=
  if core then action == 6 || action == 7 else decide (1 ≤ action) && decide (action ≤ 7) && action != 6

/-- Whether a written booking raises F_RESERVED_SET (R49): a reserved field, or with VALID a reserved or forbidden ACTION
or a PARAM out of range. -/
def bookingBad (core : Bool) (x : BitVec 128) : Bool :=
  let b := Booking.ofBits x
  bit x 127 || (core && b.colour != 0) ||
    (b.valid && !(actionOk core b.action.toNat && paramOk core b.action.toNat b.param.toNat))

/-- The entry after a write over old: a refused write only disarms; a booking due when it is armed is in the past
(R49, R54). -/
def Booking.write (m : Mast) (core : Bool) (x : BitVec 128) (old : Booking) : Booking :=
  if bookingBad core x then old.disarm
  else
    let b := { Booking.ofBits x with firedAt := old.firedAt }
    { b with past := b.due m }

/-- Whether a due booking is skipped: DROP on an occurrence in the past, which REFRESH, AUDIT and WATCHDOG ignore (R52, R54). -/
def Booking.skips (b : Booking) : Bool := b.past && b.drop && !(b.action == 1 || b.action == 2 || b.action == 4)

/-- The firing that a write of booking i leaves owed: the old contents, where they are due and not skipped (R57). -/
def Booking.owes (m : Mast) (i : Nat) (b : Booking) : List (Nat × Booking) :=
  if b.valid && (b.due m || b.catchup) && !b.skips then [(i, b)] else []

/-- Firmware writes die booking i; old contents that are due still fire (R57). -/
def writeDieBooking (s : State) (i : Nat) (x : BitVec 128) : State :=
  let b := Table.get {} s.dieBookings i
  { s with owed := s.owed ++ b.owes s.mast i, dieBookings := Table.set {} s.dieBookings i (b.write s.mast false x) }

/-- A write of booking i of core c, by firmware or by BOOK; old contents that are due still fire (R57). -/
def writeCoreBooking (s : State) (c i : Nat) (x : BitVec 128) : State :=
  s.modCore c (fun k =>
    let b := Table.get {} k.bookings i
    { k with owed := k.owed ++ b.owes s.mast i, bookings := Table.set {} k.bookings i (b.write s.mast true x) })

/-- The 16 bytes of an armed booking. -/
def bookingBits (stroke phase period action colour param : Nat) : BitVec 128 :=
  BitVec.ofNat 128 (stroke % 2 ^ 64 + phase * 2 ^ 64 + period * 2 ^ 80 + action * 2 ^ 104 + colour * 2 ^ 108 + param * 2 ^ 112 + 2 ^ 124)

/-! ### Firmware's own bookings (R52, R59, R300, R366; assumption 42) -/

/-- Refresh slices per stroke at a period of P microseconds: the least n with n at least 8,192 P / 32,000 (R51). -/
def refreshSlices (p : Nat) : Nat := ceilDiv (8192 * p) 32000

/-- REFRESH takes n slices a stroke, from its next occurrence on (R52, R57). -/
def bookRefresh (s : State) (n : Nat) : State :=
  let b := Table.get {} s.dieBookings 0
  if b.valid && !b.due s.mast then writeDieBooking s 0 (bookingBits b.stroke.toNat b.phase.toNat 1 1 0 (n - 1))
  else writeDieBooking s 0 (bookingBits (s.mast.stroke.toNat + 1) 0x4000 1 1 0 (n - 1))

/-- PERIOD_CHANGE_EFFECTIVE: at stroke E, C becomes the nominal value of the new period, and firmware books the slices that
the new period alone needs (R52, R61, R401). -/
def execPeriodChangeEffective (s : State) : Result :=
  live s fun s =>
    let m := s.mast
    if m.pend && m.st != .unlocked && m.effective ≤ m.stroke then
      let s := { s with mast := { m with period := m.next, capC := m.next.toNat * 1250, changedAt := m.effective, pend := false } }
      if s.skovi.up then bookRefresh s (refreshSlices m.next.toNat) else s
    else s

/-- REFRESH of every stroke, AUDIT of every 64 strokes and the TELEMETRY sets of every second, from the present stroke. -/
def armOwn (s : State) : State :=
  let n := s.mast.stroke.toNat + 1
  let p := s.mast.period.toNat
  let s := writeDieBooking s 0 (bookingBits n 0x4000 1 1 0 (refreshSlices p - 1))
  let s := writeDieBooking s 1 (bookingBits (roundUp n 64) 0 64 2 0 0)
  let s := (List.range 5).foldl (fun s i => writeDieBooking s (18 + i) (bookingBits n 0 (1000000 / p) 5 0 i)) s
  (List.range 15).foldl (fun s i => writeDieBooking s (3 + i) (bookingBits (n + 0xFFFFFF) 0 0xFFFFFF 4 0 (i + 1))) s

/-- The WATCHDOG booking of a colour: its period is at least four times the image's declared step time (chapter 18). -/
def armWatchdog (s : State) (col stepTime : Nat) : State :=
  let p := Nat.min 0xFFFFFF (Nat.max 1 (4 * stepTime))
  writeDieBooking s (2 + col) (bookingBits (s.mast.stroke.toNat + p) 0 p 4 0 col)

/-- Whether any bucket of any colour has UNLIM 0, now or at its next refill (R300). -/
def State.limited (s : State) : Bool :=
  s.parts.any (fun (e : Nat × Partn) => e.2.buckets.any (fun (b : Nat × Bucket) =>
    !b.2.unlim || (match b.2.nextEntry with | some x => !bit x 30 | none => false)))

/-- REFILL of every stroke for all colours, armed while any bucket has UNLIM 0 (R300). -/
def armRefill (s : State) : State :=
  if s.limited then
    if (Table.get {} s.dieBookings 2).valid then s else writeDieBooking s 2 (bookingBits (s.mast.stroke.toNat + 1) 0 1 3 0 16)
  else s

end Sys2Proof.Machine
end

