-- ==== Sys2Proof/Machine/Jobs.lean ====
section
/-!
DEFINITION. Jobs: firmware messages, launch, abort, restart and end, HALT's settling, and the end of a partition reset
(R184, R290 to R293, R321, R323, R341, R348, R349).
-/
namespace Sys2Proof.Machine

/-! ### Firmware messages (R321, R322; Table 15-8) -/

/-- A firmware message: preamble and body, MGMT of colour 0, routed by DST. -/
def fwMessage (s : State) (die : BitVec 6) (mtype : Byte) (colour : BitVec 4) (seqno : BitVec 16) (job : BitVec 32) (body : List Byte) : State :=
  send s { plainMsg s die 0 opMgmt 0 0 with
    data := [mtype, colour.setWidth 8] ++ leBytes 2 seqno.toNat ++ leBytes 4 job.toNat ++ body }

/-- A firmware request, of a command or of none: it takes the next SEQNO and waits for its PEER_REPLY (R321, R322). -/
def fwAsk (s : State) (who : Option (Nat × BitVec 16)) (die : BitVec 6) (mtype : Byte) (colour : BitVec 4) (job : BitVec 32)
    (body : List Byte) : State :=
  let q := s.skovi.seqno
  let r : PeerReq := { die := die, seqno := q, mtype := mtype, body := body, colour := colour, jobId := job, sentAt := s.now, who := who }
  fwMessage { s with skovi := { s.skovi with seqno := q + 1, peers := s.skovi.peers ++ [r] } } die mtype colour q job body

/-- A firmware request of no command. -/
def fwRequest (s : State) (die : BitVec 6) (mtype : Byte) (colour : BitVec 4) (job : BitVec 32) (body : List Byte) : State :=
  fwAsk s none die mtype colour job body

/-- JOB_EVENT to every other die of the colour's job: event, end reason, F_ code, step, epoch (R323, Table 15-9). -/
def jobEventAll (s : State) (col : Nat) (ev reason : Byte) (code : BitVec 16) (step : BitVec 32) : State :=
  let j := (s.part col).job
  let body := [ev, reason] ++ leBytes 2 code.toNat ++ leBytes 4 step.toNat ++ leBytes 4 j.epoch.toNat
  (bitsSet j.dieSet).foldl (fun s d =>
    if some (BitVec.ofNat 6 d) = s.member.id then s else fwRequest s (BitVec.ofNat 6 d) 0x35 (BitVec.ofNat 4 col) j.id body) s

/-! ### Launch (R341, R348) -/

/-- Where byte n of the borrowed ranges lies: the n-th byte of the lent granules in order (R340). -/
def lentPga : List Lend → Nat → Nat
  | [], _ => 0
  | l :: t, n =>
    let size := l.granules.length * 0x10000000
    if n < size then l.die.toNat * 2 ^ 40 + (l.granules[n / 0x10000000]?).getD 0 * 0x10000000 + n % 0x10000000
    else lentPga t (n - size)

/-- The PGA of each range of an image, in declared order: its own DLA here, or the lender's (R341). -/
def rangePgas (s : State) (g : Image) : List Nat :=
  let far := g.farRanges
  (g.role.image.foldl (fun (acc : List Nat × Nat) w =>
    if far.contains w then (acc.1 ++ [lentPga g.lends acc.2], acc.2 + w.range.len)
    else (acc.1 ++ [s.ownId.toNat * 2 ^ 40 + w.range.base], acc.2)) ([], 0)).1

/-- The range directory: one PGA of 8 bytes per range (R341; assumption 43). -/
def writeDirectory (s : State) (g : Image) : State :=
  match g.role.directory with
  | some a => (memWrite s a ((rangePgas s g).flatMap (leBytes 8))).1
  | none => s

/-- A core made ready for a launch: core reset, operand buffers and CM zero, no credit entry of an earlier job
(R348 step 1, R405; Table 6-4). -/
def launchCore (s : State) (c : Nat) : State :=
  (zeroRange (coreReset s c) (cmBase c) 0x600000).modCore c (fun k => { k with ob := [], obBad := [], credits := [] })

/-- Install a declared window with its sender entries: FREE is its size in units (R163). -/
def installWindow (col : Nat) (s : State) (w : DeclWindow) : State :=
  let es := w.senders.map (fun (e : BitVec 6 × BitVec 6 × BitVec 20) => ({ win := w.win, die := e.1, core := e.2.1, share := e.2.2.toNat } : Sender))
  putWindow { s with senders := s.senders ++ es } w.win.toNat
    { valid := true, colour := BitVec.ofNat 4 col, owner := w.owner.val, base := w.range.base, len := w.range.len, occ := w.occ, free := w.range.len / 256 }

/-- Install a declared credit entry (R163). -/
def installCredit (s : State) (e : DeclCredit) : State :=
  s.modCore e.core.val (fun k => { k with credits := k.credits ++ [{ die := e.die, win := e.win, base := e.range.base, len := e.range.len }] })

/-- The number of a partition's i-th counter. -/
def Partn.counterNo (p : Partn) (i : Nat) : Nat := ((bitsSet p.counters)[i]?).getD 128

/-- Read a counter configuration (Table 13-2). -/
def Counter.ofBits (x : BitVec 256) : Counter :=
  { valid := bit x 0, modeB := bit x 1, role := field x 2 2, colour := field x 4 4, root := field x 8 6, inc := field x 16 8,
    pmask := field x 64 48, dmask := field x 128 64 }

/-- Whether a configuration breaks Table 13-2 for a partition of this die; with VALID 0 only its reserved fields count
(R263). -/
def counterBad (s : State) (col : Nat) (x : BitVec 256) : Bool :=
  let k := Counter.ofBits x
  let rsv := field x 14 2 != 0 || field x 24 40 != 0 || field x 112 16 != 0 || field x 192 64 != 0
  let rootBad := if k.role = 1 then decide (60 ≤ k.root.toNat) else k.root != 0
  let dmaskBad := if k.role = 2 then !bit k.dmask s.ownId.toNat || popcount k.dmask < 2 || field k.dmask 60 4 != 0 else k.dmask != 0
  rsv || (k.valid && (k.role == 3 || k.colour.toNat != col || rootBad || k.pmask == 0 || dmaskBad))

/-- Configure and reinitialise a declared counter (R263, R278). -/
def installCounter (col : Nat) (s : State) (d : DeclCounter) : State :=
  let n := (s.part col).counterNo d.index.toNat
  reinitCounter (s.setCounter n { Counter.ofBits d.bits with releases := (s.counter n).releases, releasedAt := (s.counter n).releasedAt, stale := (s.counter n).stale }) n

/-- Arm a declared booking, its STROKE counted from the launch stroke; a die booking takes the partition's colour and
range (R59, R348). -/
def installBooking (col : Nat) (s : State) (d : DeclBooking) : State :=
  let b := Booking.ofBits d.bits
  let x := d.bits &&& BitVec.ofNat 128 (2 ^ 128 - 2 ^ 64)
  let stroke := (b.stroke + s.mast.stroke).setWidth 128
  match d.core with
  | some c => writeCoreBooking s c.val d.index.toNat (x ||| stroke)
  | none => writeDieBooking s ((s.part col).bookFirst + d.index.toNat) ((x &&& ~~~ BitVec.ofNat 128 (0xF * 2 ^ 108)) ||| BitVec.ofNat 128 (col * 2 ^ 108) ||| stroke)

/-- Whether a declared booking would be refused (R49, R59). -/
def declBookingBad (p : Partn) (d : DeclBooking) : Bool :=
  bookingBad d.core.isSome d.bits || (match d.core with | some _ => decide (32 ≤ d.index.toNat) | none => decide (p.bookCount ≤ d.index.toNat))

/-- Set a core running at its entry, a multiple of 8 (R180, R348 step 5; assumption 124). -/
def startCore (s : State) (e : CoreId × Dla) : State :=
  s.modCore e.1.val (fun k => { k.runNow with csr := { k.csr with pc := e.2 &&& ~~~ (7 : Dla) } })

/-- The steps of R348 for colour col and a committed image, with the job record j to put in force. -/
def launchSteps (s : State) (col : Nat) (g : Image) (j : Job) : State :=
  let r := g.role
  let s := (bitsSet r.cores).foldl launchCore s
  let s := r.state.foldl (fun s (x : Range) => zeroRange s x.base x.len) s
  let s := r.initCm.foldl (fun s (x : Nat × List Byte) => (memWrite s x.1 x.2).1) s
  let s := writeDirectory s g
  let s := uninstallWindows s col
  let s := s.modPart col (fun p => { p with job := { j with
    st := .running, reason := 0, digest := g.digest, epoch := s.member.epoch, launchStroke := s.mast.stroke,
    stepReplays := 0, ends := 0, failed := false, fromWatch := false, watchdog := none } })
  let s := rebuildRegions s col
  let s := r.windows.foldl (installWindow col) s
  let s := r.credits.foldl installCredit s
  let s := r.counters.foldl (installCounter col) s
  let s := r.bookings.foldl (installBooking col) s
  let s := armWatchdog s col r.stepTime
  let s := r.entries.foldl startCore s
  fwEvent s col 1

/-! ### The end of a job (R60, R134, R184, R278) -/

/-- The cores of a colour's job. -/
def State.jobCores (s : State) (col : Nat) : List Nat :=
  match (s.part col).image (s.part col).job.digest with
  | some g => bitsSet g.role.cores
  | none => bitsSet (s.part col).cores

/-- The counters of a colour, those that a reset made invalid among them (R278, R279). -/
def State.countersOf (s : State) (col : Nat) : List Nat :=
  (s.counters.filter (fun (e : Nat × Counter) => e.2.colour.toNat == col)).map (fun (e : Nat × Counter) => e.1)

/-- A core returns its HELD credits (R168). -/
def returnHeld (s : State) (c : Nat) : State := (s.core c).credits.foldl (returnCredit c 0) s

/-- The records of a colour's job are taken (R357 step 2). -/
def takeRecords (s : State) (col : Nat) : State :=
  { s with skovi := { s.skovi with records := s.skovi.records.filter (fun (r : LogRec) => r.jobId != s.jobId col) } }

/-- A job ends: its state and end reason, its bookings disarmed (R60), its HELD credits returned (R168), its counters
reinitialised (R278), its region entries removed (R134), EVENT 0x01. -/
def endJob (s : State) (col : Nat) (st : JobState) (reason : Byte) : State :=
  if !(s.part col).job.live then s
  else
    let s := dropRepair (takeRecords s col) col
    let s := (s.jobCores col).foldl (fun s c => returnHeld (s.modCore c Core.disarm) c) s
    let s := disarmDie s (fun _ b => b.colour.toNat == col && col != 0)
    let s := (s.countersOf col).foldl reinitCounter s
    let s := s.modPart col (fun p => { p with job := { p.job with st := st, reason := reason, failed := false } })
    fwEvent (rebuildRegions s col) col 1

/-- Whether every die of a job is VERIFIED and not FENCED (R102); the own die always is VERIFIED. -/
def State.diesOk (s : State) (mask : Word) : Bool :=
  (bitsSet mask).all (fun d =>
    if some (BitVec.ofNat 6 d) = s.member.id then !s.member.fenced
    else (s.die d).st == .verified && !(s.die d).fenced)

/-- The abort of R349: the sequence of R290 begins; what follows is decided when it ends. -/
def abortJob (s : State) (col : Nat) (reason : Byte) (restart tell : Bool) : State :=
  if !(s.part col).job.live || (s.part col).resetting then s
  else
    (beginReset s col reason).modPart col (fun p => { p with resetPolicy := true, resetRestart := restart, resetNotify := tell })

/-- What a reset of its engines leaves of a core once what ran has completed: VL, masks and scan carry, the selector and its
configuration (R225, R262, R289); accumulators and operand buffers are kept (R293). -/
def Core.endReset (k : Core) : Core := { k with ve := {}, su := k.su.reset, pendS := [], pendM := [] }

/-- A bucket's level set to its CAP (R293), the change booked as REFILLED or CLIPPED so that the sum of R299 still holds
(DEDUCED, assumption 105). -/
def Bucket.fill (b : Bucket) : Bucket :=
  { b with
    level := b.cap.toNat
    refilled := b.refilled + BitVec.ofNat 64 ((b.cap.toNat : Int) - b.level).toNat
    clipped := b.clipped + BitVec.ofNat 64 (b.level - (b.cap.toNat : Int)).toNat }

/-- Bucket levels at CAP (R293). -/
def Partn.fillBuckets (p : Partn) : Partn :=
  { p with buckets := Table.update {} (fun _ b => b.fill) (p.buckets.map (fun (e : Nat × Bucket) => e.1)) p.buckets }

/-- Step 6 of R290: the colour's queued messages and pending counts are discarded and one WITHDRAW is queued. -/
def withdraw (s : State) (col : Nat) : State :=
  let s := s.modPart col (fun p => { p with vectors := Table.update {} (fun _ (x : Vector) => { x with count := 0 }) (p.vectors.map (fun (e : Nat × Vector) => e.1)) p.vectors })
  { s with intrs := s.intrs.filter (fun (m : IntrMsg) => m.colour.toNat != col) ++
      [{ colour := BitVec.ofNat 4 col, vector := 0, withdraw := true, count := 0, stroke := s.mast.stroke }] }

/-- What a commanded reset adds (R293): request-queue bindings removed, bucket levels at CAP. -/
def resetExtras (s : State) (col : Nat) : State :=
  let unbind := fun (_ : Nat) (q : ReqQueue) => if q.colour.toNat == col then { q with bound := false, rows := 0, cut := 0 } else q
  ({ s with queues := Table.update {} unbind (s.queues.map (fun (e : Nat × ReqQueue) => e.1)) s.queues }).modPart col Partn.fillBuckets

/-- What becomes of the job when its abort's reset ends: a restart while RESTARTS remain and every die is VERIFIED and not
FENCED, else ABORTED, told to the other dies where the policy decided it here (R323, R349). -/
def afterAbort (s : State) (col : Nat) (restart tell : Bool) (reason : Byte) : State :=
  let p := s.part col
  let j := p.job
  match p.image j.digest with
  | some g =>
    if restart && g.st == .committed && j.restarts.toNat < p.restartsMax && s.diesOk j.dieSet then
      launchSteps s col g { j with restarts := j.restarts + 1 }
    else endJob (if tell then jobEventAll s col 1 reason j.lastFault 0 else s) col .aborted reason
  | none => endJob s col .aborted reason

/-- The end of a partition reset: steps 6 and 7 of R290 and the state of R293; waiting commands are answered, the mailbox
returns to READY, EVENT 0x04. A commanded reset ends the job (R294, R349). -/
def finishReset (s : State) (col : Nat) : State :=
  let p := s.part col
  let asked := !p.resetBy.isEmpty || !p.resetPolicy
  let s := (bitsSet p.cores).foldl (fun s c => s.modCore c Core.endReset) (withdraw s col)
  let s := s.modPart col (fun p => { p with
    resetting := false, resetBy := [], resetJob := false, resetPolicy := false, resetRestart := false, resetNotify := false })
  let s := if asked then resetExtras s col else s
  let s := if !p.resetJob then rebuildRegions s col else afterAbort s col (p.resetRestart && !asked) (p.resetNotify && !asked) p.resetReason
  let s := p.resetBy.foldl (fun s (w : BitVec 4 × BitVec 16 × BitVec 16) => answer s w.1.toNat w.2.1 w.2.2 []) s
  let s := s.modMailbox col (fun m => { m with st := if m.st == .resetting then .ready else m.st })
  fwEvent s col 4

/-! ### F_WATCHDOG and JOB_EVENT (R323, R349) -/

/-- An F_WATCHDOG is charged to the job, once for each STEP; the die that charged it tells the others (R323, R349). -/
def watchdogJob (s : State) (col : Nat) (step : BitVec 32) (here : Bool) : State :=
  let j := (s.part col).job
  if !j.live || j.watchdog == some step then s
  else
    let s := s.modPart col (fun p => { p with job := { p.job with failed := true, fromWatch := true, lastFault := fWatchdog, watchdog := some step } })
    if here then jobEventAll s col 0 0 fWatchdog step
    else fwFault s { mkRec s fWatchdog (BitVec.ofNat 4 col) none 15 with step := step }

/-- END of one die is counted; with END from every die of DIE_SET the job ends with end reason 1 (R184). -/
def countEnd (s : State) (col : Nat) (d : BitVec 6) : State :=
  let s := s.modPart col (fun p => { p with job := { p.job with ends := setBit p.job.ends d.toNat } })
  let j := (s.part col).job
  if j.ends &&& j.dieSet == j.dieSet then endJob s col .ended 1 else s

/-- A JOB_EVENT of another die of the job (R323). -/
def takeJobEvent (s : State) (col : Nat) (job : BitVec 32) (src : BitVec 6) (ev reason : Byte) (code : BitVec 16) (step : BitVec 32) : State :=
  let j := (s.part col).job
  if !j.live || j.id != job then s
  else if ev = 0 then watchdogJob s col step false
  else if ev = 1 then abortJob (s.modPart col (fun p => { p with job := { p.job with lastFault := code } })) col reason false false
  else countEnd s col src

/-- HALT_SETTLE: a HALT whose condition holds sets STATE to STOPPED; when every core of the job on the die has halted, END
goes to every die of the job and is counted here (R184). -/
def execHaltSettle (c : CoreId) (s : State) : Result :=
  live s fun s =>
    let k := s.core c.val
    if k.hold == some .halt && fenceDHolds s c.val && recordsDone k then
      let s := s.setCore c.val { k with st := .stopped, hold := none }
      let col := k.colour.toNat
      if (s.part col).job.live && (s.jobCores col).all (fun c => (s.core c).st == .stopped) then
        countEnd (jobEventAll s col 2 0 0 0) col s.ownId
      else s
    else s

end Sys2Proof.Machine
end

