-- ==== Sys2Proof/Machine/Member.lean ====
section
/-!
DEFINITION. Pennants, the die table, IDs, routes and the membership epoch (chapter 5, R89 to R105).
-/
namespace Sys2Proof

/-! ### The Pennant as bytes (Table 5-2) -/

/-- The 88 payload bytes of a Pennant; rsv holds its reserved bits in the order of Table 5-2. -/
def Pennant.bytes (x : Pennant) : List Byte :=
  let r := fun (lo n : Nat) => x.rsv.toNat / 2 ^ lo % 2 ^ n
  [0x01, BitVec.ofNat 8 (x.kind.toNat + r 0 5 * 8)] ++ leBytes 2 x.part.toNat ++ [x.stepping] ++
  [BitVec.ofNat 8 (x.role.toNat + (if x.assigner then 4 else 0) + (if x.idV then 8 else 0) + r 8 4 * 16),
   BitVec.ofNat 8 (x.dieId.toNat + r 16 2 * 64), BitVec.ofNat 8 (x.health.toNat + r 24 4 * 16)] ++
  leBytes 8 x.uid.toNat ++ leBytes 2 x.ifLevel.toNat ++ leBytes 4 x.fwBuild.toNat ++ leBytes 2 x.nonce.toNat ++
  leBytes 4 x.epoch.toNat ++ leBytes 4 (r 32 32) ++ leBytes 8 x.mask.toNat ++ leBytes 24 x.route.toNat ++ leBytes 8 x.peerUid.toNat ++
  leBytes 8 x.leaderUid.toNat ++
  [BitVec.ofNat 8 (x.targetId.toNat + (if x.targetV then 64 else 0) + r 64 1 * 128), BitVec.ofNat 8 (x.port.toNat + r 68 6 * 4)] ++ leBytes 6 (r 76 48)

/-- Read a Pennant from its payload; rsv gathers the reserved bits of Table 5-2. -/
def Pennant.ofBytes (l : List Byte) : Pennant :=
  let f := fun (lo n : Nat) => leField l lo n
  { kind := BitVec.ofNat 3 (f 1 1), part := BitVec.ofNat 16 (f 2 2), stepping := BitVec.ofNat 8 (f 4 1)
    role := BitVec.ofNat 2 (f 5 1), assigner := f 5 1 / 4 % 2 == 1, idV := f 5 1 / 8 % 2 == 1
    dieId := BitVec.ofNat 6 (f 6 1), health := BitVec.ofNat 4 (f 7 1), uid := BitVec.ofNat 64 (f 8 8)
    ifLevel := BitVec.ofNat 16 (f 16 2), fwBuild := BitVec.ofNat 32 (f 18 4), nonce := BitVec.ofNat 16 (f 22 2)
    epoch := BitVec.ofNat 32 (f 24 4), mask := BitVec.ofNat 64 (f 32 8), route := BitVec.ofNat 192 (f 40 24)
    peerUid := BitVec.ofNat 64 (f 64 8), leaderUid := BitVec.ofNat 64 (f 72 8)
    targetId := BitVec.ofNat 6 (f 80 1), targetV := f 80 1 / 64 % 2 == 1, port := BitVec.ofNat 2 (f 81 1)
    rsv := BitVec.ofNat 128 (f 1 1 / 8 + f 5 1 / 16 * 2 ^ 8 + f 6 1 / 64 * 2 ^ 16 + f 7 1 / 16 * 2 ^ 24 + f 28 4 * 2 ^ 32 +
      f 80 1 / 128 * 2 ^ 64 + f 81 1 / 4 * 2 ^ 68 + f 82 6 * 2 ^ 76) }

/-- Whether a Pennant breaks R90: a nonzero reserved field, KIND 6 or 7, ROLE 3, HEALTH 4 or above. -/
def Pennant.bad (x : Pennant) : Bool := x.rsv != 0 || decide (6 ≤ x.kind.toNat) || x.role == 3 || decide (4 ≤ x.health.toNat)

/-- A COMPUTE partner of another interface major is never verified (R95). -/
def Pennant.incompatible (pn : Pennant) : Bool := pn.role == 0 && field pn.ifLevel 8 8 != 2

end Sys2Proof

namespace Sys2Proof.Machine

/-! ### Arrived messages and receive buffers (R66, R72) -/

/-- The VC of an operation: requests 0, responses 1, CTRL 2, MGMT 3 (Table 4-5). -/
def vcOf (op : BitVec 4) : Nat :=
  match op.toNat with
  | 0 | 1 | 2 => 0
  | 3 | 4 => 1
  | 5 => 2
  | _ => 3

/-- n receive buffers of a VC are freed on a path of a port, and the frees are owed to the partner (R70, R72). -/
def freeBuffers (s : State) (p : PortId) (path : Path) (vc n : Nat) : State :=
  let free := fun (l : Link) => { l with freedTx := setAt l.freedTx vc ((l.freedTx[vc]?).getD 0 + BitVec.ofNat 12 n), freeDue := l.freeDue || n != 0 }
  s.modPort p.val (fun x =>
    let x := { x with rxHeld := setAt x.rxHeld vc ((x.rxHeld[vc]?).getD 0 - n) }
    match path with
    | .main => { x with main := free x.main }
    | .side => { x with side := free x.side })

/-- A message that waited here is taken: the first that a test selects leaves, and its receive buffers are freed. -/
def takeArrived (s : State) (sel : Arrived → Bool) : State :=
  match s.arrived.find? sel with
  | none => s
  | some a => freeBuffers { s with arrived := removeFirst sel s.arrived } a.port a.path a.vc a.flits

/-- Take a message given as a command's operand. -/
def takeMsg (s : State) (m : Msg) : State := takeArrived s (fun a => a.msg == m)

/-- A message as it waits here; one that a command alone names is taken as whole, from the port that leads to its source
(DEDUCED, assumption 133). -/
def State.arrival (s : State) (m : Msg) : Arrived :=
  (s.arrived.find? (fun a => a.msg == m)).getD
    { msg := m, port := (s.die m.src.toNat).port, path := .main, flits := 0, vc := 0, total := m.data.length }

/-- The arrived message of a Pennant, of the messages that a test selects. -/
def State.arrivedPennant (s : State) (pn : Pennant) (sel : Arrived → Bool) : Option Arrived :=
  s.arrived.find? (fun a => sel a && a.msg.op == opMgmt && a.msg.data.head? == some 1 && Pennant.ofBytes a.msg.data == pn)

/-- Take an arrived Pennant. -/
def takePennant (s : State) (pn : Pennant) (sel : Arrived → Bool) : State :=
  takeArrived s (fun a => sel a && a.msg.op == opMgmt && a.msg.data.head? == some 1 && Pennant.ofBytes a.msg.data == pn)

/-- Whether a Pennant breaks R90 by its content, or by a payload that is not of 88 bytes. -/
def State.pennantBad (s : State) (pn : Pennant) (sel : Arrived → Bool) : Bool :=
  pn.bad || (match s.arrivedPennant pn sel with | some a => a.msg.data.length != 88 | none => false)

/-- A Pennant that breaks R90 is discarded and logged. -/
def pennantConflict (s : State) (p : PortId) : State := raiseUnit s fPennantConflict 0 (9 + p.val) none (BitVec.ofNat 16 p.val)

/-! ### What the die knows (R96, R97, R99) -/

/-- LEADER_UID: the lowest compute UID known, the own included; a die that is ABSENT or FENCED no longer counts
(R97; assumption 44). -/
def State.leaderUid (s : State) : Word :=
  let l := s.member.leader
  let out := l == 0 || s.member.dies.any (fun (e : Nat × DieEntry) => e.2.uid == l && (e.2.st == .absent || e.2.fenced))
  let least := fun (a b : Word) => if b < a then b else a
  if out then
    (s.member.dies.filter (fun (e : Nat × DieEntry) => e.2.st == .verified && e.2.role == 0 && !e.2.fenced)).foldl (fun a e => least a e.2.uid) Config.uid
  else least Config.uid l

/-- Whether a port can hold entries and routes: its link is not down and not off (R66, Table 5-3; assumption 45). -/
def Port.usable (x : Port) : Bool := x.st == .training || x.st == .active || x.st == .retrain

/-- The ID of the VERIFIED partner on a port. -/
def State.partnerOf (s : State) (p : Nat) : Option (BitVec 6) :=
  match (s.port p).partner with
  | some (d, true, _, _, uid) =>
    if (s.port p).usable && (s.die d.toNat).st == .verified && (s.die d.toNat).uid == uid then some d else none
  | _ => none

/-- The distance that the partner on port p gives an ID in its ROUTE (R99). -/
def State.routeField (s : State) (p d : Nat) : Nat :=
  if bit s.member.heardRoute p then (field (Table.get 0 s.member.routes p) (3 * d) 3).toNat else 7

/-- The hops to an ID through port p: 1 to the VERIFIED partner itself, else its distance of 1 to 5 plus one (R99). -/
def State.hopsVia (s : State) (p d : Nat) : Option Nat :=
  match s.partnerOf p with
  | none => none
  | some q =>
    if q.toNat = d then some 1
    else
      let r := s.routeField p d
      if 1 ≤ r && r ≤ 5 then some (r + 1) else none

/-- The route of fewest hops to an ID, ties to the lower port (R99). -/
def State.bestRoute (s : State) (d : Nat) : Option (PortId × Nat) :=
  ([0, 1, 2, 3] : List PortId).foldl (fun (best : Option (PortId × Nat)) (p : PortId) =>
    match s.hopsVia p.val d, best with
    | none, b => b
    | some n, none => some (p, n)
    | some n, some b => if n < b.2 then some (p, n) else some b) none

/-- Where a report to the assigner goes: the own package's Hub once it is VERIFIED and any HUB-role agent assigns, this die, a
VERIFIED die that says so, or die 0 (R20, R89, R96, R101). -/
def State.assignerId (s : State) : BitVec 6 :=
  let hubs := (List.range 64).any (fun d => (s.die d).st == .verified && (s.die d).role == 1 && (s.die d).assigner)
  match s.hub.filter (fun d => hubs && (s.die d.toNat).st == .verified) with
  | some d => d
  | none =>
    if s.member.assigner then s.ownId
    else
      match (List.range 64).find? (fun d => (s.die d).st == .verified && (s.die d).assigner) with
      | some d => BitVec.ofNat 6 d
      | none => 0

/-! ### Sending Pennants (R89 to R91, R99, R101) -/

/-- The ROUTE a die gives on port p: 0 for itself, its hops to VERIFIED IDs it does not reach through p, 7 otherwise (R99). -/
def State.routeOut (s : State) (p : Nat) : BitVec 192 :=
  BitVec.ofNat 192 ((List.range 64).foldl (fun acc d =>
    let e := s.die d
    let v := if some (BitVec.ofNat 6 d) = s.member.id then 0
      else if e.st == .verified && e.port.val != p && e.dist.toNat ≤ 6 then e.dist.toNat else 7
    acc + v * 2 ^ (3 * d)) 0)

/-- The body that every Pennant of this die carries (R90). -/
def State.body (s : State) (kind : BitVec 3) (p : Nat) : Pennant :=
  { kind := kind, part := 0x0040, stepping := 0xB1, role := 0, assigner := s.member.assigner, idV := s.member.id.isSome,
    dieId := s.ownId, health := s.member.health, uid := Config.uid, ifLevel := 0x0204,
    fwBuild := if s.skovi.up then s.skovi.active else Config.romBuild, nonce := 0, epoch := s.member.epoch, mask := 0,
    route := 0, peerUid := 0, leaderUid := 0, targetId := 0, targetV := false, port := BitVec.ofNat 2 p, rsv := 0 }

/-- Send a routed Pennant to a die; PORT is the port on which the die table sends it (R89, Table 5-2). A Hub of another
package is not addressed (R20). -/
def routed (s : State) (dst : BitVec 6) (pn : Pennant) : State :=
  if 60 ≤ dst.toNat && s.hub != some dst then s
  else send s { plainMsg s dst 0 opMgmt 0 0 with data := { pn with port := BitVec.ofNat 2 (s.die dst.toNat).port.val }.bytes }

/-- Send a link-local Pennant on port p, with the assignment that waits for that port; a TRIGGERED one carries the mask of
its epoch (R89, R96, R101). -/
def sendPennant (s : State) (p : PortId) (triggered : Bool) : State :=
  let x := s.port p.val
  let pn := { s.body (if triggered then 1 else 0) p.val with
    mask := if triggered then s.member.mask else 0, route := s.routeOut p.val, leaderUid := s.leaderUid,
    peerUid := match x.assign with | some a => a.1 | none => 0
    targetId := match x.assign with | some a => a.2 | none => 0
    targetV := x.assign.isSome }
  let m := { plainMsg s 0 0 opMgmt 0 0 with ll := true, data := pn.bytes }
  (sendOn s p m).setPort p.val { x with assign := none, penBeat := some s.mast.beats }

/-- A change of the die table, the epoch or HEALTH asks for TRIGGERED Pennants on every port whose sideband is up (R91). -/
def triggerAll (s : State) : State :=
  [0, 1, 2, 3].foldl (fun s p => s.modPort p (fun x => if x.sbUp then { x with trig := 4 } else x)) s

/-- The assigner accepts a report: the epoch grows at the first stroke boundary after the first one (R101). -/
def takeReport (s : State) (mask : Word) : State :=
  let m := s.member
  { s with member := { m with
      reports := m.reports ||| mask, reported := true, reportBeat := if m.reported then m.reportBeat else s.mast.beats } }

/-- A membership change is to be reported, with the ID whose entry changed, if one did; the assigner takes its own change as a
report (R101, R105). -/
def noteChange (s : State) (d : Option Nat) : State :=
  let mask := match d with | some d => setBit (0 : Word) d | none => 0
  triggerAll (if s.member.assigner then takeReport s mask
    else { s with member := { s.member with changed := s.member.changed ||| mask, owe := true } })

/-- Whether a Pennant is due in every stroke: the die has no ID, or its entry for the partner on the port is not VERIFIED
(R91). -/
def State.eager (s : State) (p : Nat) : Bool :=
  s.member.id.isNone ||
    (match (s.port p).partner with
     | some (d, true, _, _, uid) => (s.die d.toNat).st != .verified || (s.die d.toNat).uid != uid
     | _ => true)

/-- PENNANT_PERIODIC_SEND: on a port whose sideband is up, at once when it comes up, once a stroke while the die has no ID
or the partner is not VERIFIED, and 1,024 strokes after the last (R91). -/
def execPennantPeriodicSend (p : PortId) (s : State) : Result :=
  awake s fun s =>
    let x := s.port p.val
    if !x.sbUp || x.trig != 0 then s
    else
      match x.penBeat with
      | none => sendPennant s p false
      | some b =>
        if (s.eager p.val && b < s.mast.beats) || b + 1024 ≤ s.mast.beats then sendPennant s p false else s

/-- PENNANT_TRIGGERED_SEND: a TRIGGERED Pennant at once after a change and once in each of the next 3 strokes; the changed
IDs are reported to the assigner (R91, R101). -/
def execPennantTriggeredSend (p : PortId) (s : State) : Result :=
  awake s fun s =>
    let x := s.port p.val
    if !x.sbUp || x.trig = 0 then s
    else if x.trig != 4 && x.penBeat == some s.mast.beats then s
    else
      let s := (sendPennant s p true).modPort p.val (fun x => { x with trig := x.trig - 1 })
      let m := s.member
      if !m.owe || m.assigner || m.id.isNone then s
      else
        let s := routed s s.assignerId { s.body 1 p.val with mask := m.changed }
        { s with member := { s.member with changed := 0, owe := false } }

/-! ### Entries (Table 5-3, R93, R94, R103) -/

/-- LEADER_UID has been the own UID from this beat on, where it was another before (R97). -/
def noteLeader (before : Word) (s : State) : State :=
  if s.leaderUid == Config.uid && before == Config.uid then s else { s with member := { s.member with leaderSince := s.mast.beats } }

/-- Put an entry of the die table; a change of its state, FENCED or port is a membership change (R101), and any other change,
its count's included, asks for TRIGGERED Pennants (R91). LEADER_UID may become the own UID by it (R97). -/
def putDie (s : State) (d : Nat) (e : DieEntry) : State :=
  let old := s.die d
  let e := { e with sbReach := if e.st == .absent && old.st == .absent then old.sbReach else (s.port e.port.val).sbUp }
  let t := s.setDie d e
  let t := if s.leaderUid == t.leaderUid then t else noteLeader s.leaderUid t
  if old.st != e.st || old.fenced != e.fenced || old.port != e.port then noteChange t (some d)
  else if old != e then triggerAll t
  else t

/-- This die yields to a VERIFIED HUB-role agent that sets ASSIGNER 1 (R96, R97, R101). -/
def yieldAssigner (s : State) : State :=
  if s.member.dies.any (fun (e : Nat × DieEntry) => e.2.st == .verified && e.2.role == 1 && e.2.assigner) then
    { s with member := { s.member with assigner := false } }
  else s

/-- The credits that a core holds toward a die are forfeited, and descriptors that wait for them fail with NO_ROUTE
(R103). -/
def forfeit (s : State) (d : BitVec 6) : State :=
  let one := fun (s : State) (c : Nat) =>
    let k := s.core c
    let waits := (List.range 16).filter (fun n =>
      match (k.chan n).current with
      | some p => match p.needs s.ownId k with | some (e, u) => e.die == d && decide (e.held < u) | none => false
      | none => false)
    let s := waits.foldl (fun s n => match ((s.core c).chan n).current with | some p => failDesc s c n p.index 1 | none => s) s
    s.modCore c (fun k => { k with credits := k.credits.map (fun (e : Credit) => if e.die == d then { e with held := 0 } else e) })
  (s.cores.map (fun (e : Nat × Core) => e.1)).foldl one s

/-- An entry goes ABSENT: its handshake ends, no late response of it is awaited, credits held toward it are forfeited, and
those granted to it wait for the next AUDIT (Table 5-3, R88, R103). -/
def toAbsent (s : State) (d : Nat) : State :=
  let e := s.die d
  if e.st == .absent then s
  else
    let s := putDie s d { e with st := .absent, count := 0, direct := false }
    let s := { s with member := { s.member with handshakes := s.member.handshakes.filter (fun (h : Handshake) => h.id.toNat != d) } }
    let owed := fun (e : Sender) => if e.die.toNat = d then { e with forfeit := e.out } else e
    forfeit { s with senders := s.senders.map owed, late := s.late.filter (fun e => e.2.toNat != d) } (BitVec.ofNat 6 d)

/-- The CONFIRM_ACK to a requester, routed to its ID by the own die table (R94). -/
def sendAck (s : State) (src : BitVec 6) (pn : Pennant) : State :=
  routed s src { s.body 3 (s.die src.toNat).port.val with nonce := pn.nonce, peerUid := pn.uid }

/-- Requests held for an ID whose entry is now known are answered, those held for 4 strokes dropped (R94). -/
def answerHeld (s : State) (d : Nat) : State :=
  let mine := s.member.held.filter (fun (h : HeldReq) => h.src.toNat == d)
  let s := { s with member := { s.member with held := s.member.held.filter (fun (h : HeldReq) => h.src.toNat != d) } }
  mine.foldl (fun s h => if s.mast.beats < h.beat + 4 then sendAck s h.src h.pn else s) s

/-- A CONFIRM_REQ goes out for an entry whose three Pennants are counted: NONCE is the low 16 bits of the stroke (R91, R94). -/
def startHandshake (s : State) (d : Nat) : State :=
  if s.member.id.isNone || (60 ≤ d && s.hub != some (BitVec.ofNat 6 d)) || s.member.handshakes.any (fun (h : Handshake) => h.id.toNat == d) then s
  else
    let n := field s.mast.stroke 0 16
    let s := { s with member := { s.member with handshakes := s.member.handshakes ++ [{ id := BitVec.ofNat 6 d, nonce := n, beat := s.mast.beats }] } }
    routed s (BitVec.ofNat 6 d) { s.body 2 (s.die d).port.val with nonce := n, peerUid := (s.die d).uid }

/-- The facts of a Pennant's body in an entry (R93). -/
def DieEntry.take (e : DieEntry) (pn : Pennant) : DieEntry :=
  { e with uid := pn.uid, part := pn.part, stepping := pn.stepping, role := pn.role, ifLevel := pn.ifLevel, health := pn.health, assigner := pn.assigner }

/-- Whether a Pennant is consistent with what the entry holds (R93). -/
def DieEntry.agrees (e : DieEntry) (pn : Pennant) : Bool :=
  e.uid == pn.uid && e.part == pn.part && e.stepping == pn.stepping && e.role == pn.role && field e.ifLevel 8 8 == field pn.ifLevel 8 8

/-- A new direct entry: PROVISIONAL, count 1, on the port where the Pennant arrived (Table 5-3). -/
def newDirect (s : State) (p : PortId) (d : Nat) (pn : Pennant) : State :=
  answerHeld (putDie s d { (({} : DieEntry)).take pn with st := .provisional, port := p, dist := 1, count := 1, direct := true }) d

/-- One more consistent Pennant for a PROVISIONAL direct entry; the third starts the handshake, or shows an incompatible
partner; an inconsistent one restarts the count, and a handshake begun on the old count ends (R93 to R95). -/
def countDirect (s : State) (p : PortId) (d : Nat) (pn : Pennant) : State :=
  let e := s.die d
  if !e.agrees pn then
    let s := putDie s d { e.take pn with count := 1 }
    { s with member := { s.member with handshakes := s.member.handshakes.filter (fun (h : Handshake) => h.id.toNat != d) } }
  else
    let n := Nat.min 3 (e.count + 1)
    let s := putDie s d { e.take pn with count := n }
    if n < 3 then s
    else if pn.incompatible then
      if e.count = 3 then s else raiseUnit s fPeerIncompatible 0 (9 + p.val) (some (BitVec.ofNat 6 d)) (BitVec.ofNat 16 p.val)
    else startHandshake s d

/-- Whether an entry holds its ID with a UID known and other than this one (R93). -/
def DieEntry.heldByOther (e : DieEntry) (uid : Word) : Bool :=
  e.st != .absent && (e.direct || e.st == .verified || e.uid != 0) && e.uid != uid

/-- A Pennant on port p names a held ID with another UID: on the port that reaches the entry the new die replaces it, by f; on
another it is a conflicting claim, logged with that port, while the held entry is not silent. A claim against a direct entry
that is already silent is neither taken nor logged (DESIGN CHOICE, assumption 116; R93). -/
def claimHeld (s : State) (p : PortId) (d : Nat) (f : State → State) : State :=
  let e := s.die d
  if e.port = p then f (toAbsent s d)
  else if e.direct && (s.port e.port.val).lastHeard + 16 ≤ s.mast.beats then s
  else pennantConflict s p

/-- A Pennant that names an ID, on port p (R93, Table 5-3). -/
def namedId (s : State) (p : PortId) (pn : Pennant) : State :=
  let d := pn.dieId.toNat
  let e := s.die d
  if s.member.id == some pn.dieId then pennantConflict s p
  else if e.fenced then putDie s d { e with health := pn.health }
  else if e.st == .absent then if (s.port p.val).usable then newDirect s p d pn else s
  else if e.heldByOther pn.uid then claimHeld s p d (fun s => newDirect s p d pn)
  else if e.direct && e.port = p then
    if e.st == .provisional then countDirect s p d pn else yieldAssigner (putDie s d (e.take pn))
  else s

/-- A routed Pennant on port p that names a held ID with another UID is judged as any Pennant: where it replaces the entry, the
new die starts PROVISIONAL on the same route; its other content then says nothing (R93). -/
def routedClaim (s : State) (p : PortId) (pn : Pennant) : Option State :=
  let d := pn.dieId.toNat
  let e := s.die d
  if !pn.idV then none
  else if s.member.id == some pn.dieId then (if pn.uid == Config.uid then none else some (pennantConflict s p))
  else if e.heldByOther pn.uid then
    some (claimHeld s p d (fun s => answerHeld (putDie s d
      { (({} : DieEntry)).take pn with st := .provisional, port := p, dist := e.dist, count := if e.direct then 1 else 0, direct := e.direct }) d))
  else none

/-- What the ROUTE of the VERIFIED partner on port p says of one other ID (Table 5-3, R94, R99). -/
def routeSays (p : PortId) (s : State) (d : Nat) : State :=
  let e := s.die d
  let r := s.routeField p.val d
  if some (BitVec.ofNat 6 d) = s.member.id || s.partnerOf p.val == some (BitVec.ofNat 6 d) || e.fenced then s
  else
    match e.st with
    | .absent =>
      if 1 ≤ r && r ≤ 5 then
        match s.bestRoute d with
        | some (q, n) => answerHeld (putDie s d { st := .provisional, port := q, dist := BitVec.ofNat 3 n, count := if q = p then 1 else 0, fenced := e.fenced }) d
        | none => s
      else s
    | .provisional =>
      if e.direct || e.port != p then s
      else
        let n := if 1 ≤ r && r ≤ 5 then Nat.min 3 (e.count + 1) else 0
        let s := putDie s d { e with count := n }
        if n = 3 then startHandshake s d else s
    | .verified => if e.port == p && !e.direct && 1 ≤ r && r ≤ 5 then putDie s d { e with dist := BitVec.ofNat 3 (r + 1) } else s

/-- Whether an entry is still reached: its own port to a direct partner, or some route; a direct entry that is PROVISIONAL
is lost with its own port's link (Table 5-3). -/
def State.reached (s : State) (d : Nat) : Bool :=
  let e := s.die d
  (e.direct && (s.port e.port.val).usable) || (!(e.direct && e.st == .provisional) && (s.bestRoute d).isSome)

/-- Entries that no port reaches any more go ABSENT (Table 5-3). -/
def dropUnreached (s : State) : State :=
  (s.member.dies.map (fun (e : Nat × DieEntry) => e.1)).foldl (fun s d =>
    if some (BitVec.ofNat 6 d) = s.member.id || s.reached d then s else toAbsent s d) s

/-- Whether the present route of an entry fails: its port no longer leads to the ID (R99). -/
def State.routeFails (s : State) (d : Nat) : Bool :=
  (s.die d).st != .absent && !(s.die d).direct && (s.hopsVia (s.die d).port.val d).isNone ||
  (s.die d).direct && !(s.port (s.die d).port.val).usable

/-- An entry takes a route; it is direct only over its partner's own port. -/
def takeRoute (s : State) (d : Nat) (r : PortId × Nat) : State :=
  putDie s d { s.die d with port := r.1, dist := BitVec.ofNat 3 r.2, direct := r.2 == 1 }

/-- ROUTE_RECOMPUTE: every ID whose route has failed takes the route of fewest hops, or goes ABSENT where there is none
(R99). -/
def execRouteRecompute (s : State) : Result :=
  awake s fun s =>
    dropUnreached ((s.member.dies.map (fun (e : Nat × DieEntry) => e.1)).foldl (fun s d =>
      if some (BitVec.ofNat 6 d) = s.member.id || !s.routeFails d then s
      else match s.bestRoute d with
        | some r => takeRoute s d r
        | none => s) s)

/-- The route refresh of PEER_TABLE: every route is recomputed by fewest hops (R99, R328). -/
def refreshRoutes (s : State) : State :=
  (s.member.dies.map (fun (e : Nat × DieEntry) => e.1)).foldl (fun s d =>
    if some (BitVec.ofNat 6 d) = s.member.id || (s.die d).st == .absent then s
    else match s.bestRoute d with
      | some r => takeRoute s d r
      | none => s) s

/-! ### The epoch (R101, R102) -/

/-- A job's die rebinds to the next epoch whose known mask misses its dies, or its job ends as an abort with end reason 4
(R102, R349). -/
def jobAdopts (e : BitVec 32) (mask : Option Word) (s : State) (col : Nat) : State :=
  let j := (s.part col).job
  if !j.live then s
  else
    let fine := match mask with | some m => e == j.epoch + 1 && j.epoch != 0xFFFFFFFF && m &&& j.dieSet == 0 | none => false
    if fine then s.modPart col (fun p => { p with job := { p.job with epoch := e } })
    else abortJob s col 4 true false

/-- Adopt an epoch above the own, with its mask, all ones where the mask is unknown (R101). -/
def adoptEpoch (s : State) (e : BitVec 32) (mask : Option Word) : State :=
  if e ≤ s.member.epoch then s
  else
    let s := triggerAll { s with member := { s.member with epoch := e, mask := mask.getD 0xFFFFFFFFFFFFFFFF } }
    (List.range 16).foldl (jobAdopts e mask) s

/-- EPOCH_INCREMENT: at the first stroke boundary after reports the assigner adds 1 to the epoch, with the union of the
reports as mask; at 0xFFFFFFFF it stops (R101). -/
def execEpochIncrement (s : State) : Result :=
  awake s fun s =>
    let m := s.member
    if !m.assigner || !m.reported || s.mast.beats ≤ m.reportBeat || m.epoch == 0xFFFFFFFF then s
    else
      let mask := m.reports
      adoptEpoch { s with member := { m with reports := 0, reported := false } } (m.epoch + 1) (some mask)

/-! ### IDs (R96, R97) -/

/-- This die takes an ID: its own entry is VERIFIED at distance 0 (R96). -/
def acceptId (s : State) (d : BitVec 6) : State :=
  let s := { s with member := { s.member with id := some d } }
  let e : DieEntry :=
    { st := .verified, uid := Config.uid, part := 0x0040, stepping := 0xB1, ifLevel := 0x0204
      health := s.member.health, fenced := s.member.fenced, direct := true, count := 3 }
  putDie s d.toNat e

/-- The assigner notes an ID-less die; a new one restarts the 4 strokes of the first round (R96, R97). -/
def noteWant (s : State) (w : Want) : State :=
  if s.member.wanting.any (fun (x : Want) => x.uid == w.uid) then s
  else { s with member := { s.member with wanting := s.member.wanting ++ [w], wantBeat := s.mast.beats } }

/-- A partner without an ID is reported to the assigner (R96). -/
def reportIdless (s : State) (p : PortId) (uid : Word) : State :=
  if s.member.id.isNone then s
  else if s.member.assigner then noteWant s { uid := uid, relay := none, port := p }
  else routed s s.assignerId { s.body 1 p.val with peerUid := uid }

/-- An assignment that names this die: taken once, a different one later is ignored and logged (R96). A compute die's ID is 0
to 59 (R20), so an assignment of a Hub's ID is ignored (DEDUCED, assumption 117). -/
def takeAssignment (s : State) (p : PortId) (pn : Pennant) : State :=
  if !pn.targetV || pn.peerUid != Config.uid || 60 ≤ pn.targetId.toNat then s
  else match s.member.id with
    | none => acceptId s pn.targetId
    | some d => if d = pn.targetId then s else pennantConflict s p

/-- ASSIGNER_TAKEOVER: with no HUB assigner VERIFIED, and LEADER_UID the own UID for 4 strokes, this die takes ID 0 where
it has none and becomes the assigner; a domain with no epoch starts at 1, else the next is 1 above the highest heard
(R97, R101). -/
def execAssignerTakeover (s : State) : Result :=
  awake s fun s =>
    let m := s.member
    let hub := m.dies.any (fun (e : Nat × DieEntry) => e.2.st == .verified && e.2.role == 1 && e.2.assigner)
    if m.assigner || hub || m.fenced || s.leaderUid != Config.uid || s.mast.beats < m.leaderSince + 4 then s
    else
      let s := if m.id.isNone then acceptId s 0 else s
      let m := s.member
      let s := { s with member := { m with
        assigner := true, reports := if m.epoch = 0 then 0 else m.changed, changed := 0, owe := false
        reported := m.epoch != 0, reportBeat := s.mast.beats, wantBeat := s.mast.beats } }
      if m.epoch = 0 then adoptEpoch s 1 (some m.changed) else triggerAll s

/-- The lowest free ID in 1 to 59: given to no UID, held by no entry (R97). -/
def State.freeId (s : State) : Option (BitVec 6) :=
  ((List.range 59).map (fun i => i + 1)).find? (fun d =>
    !s.member.given.any (fun (g : Word × BitVec 6) => g.2.toNat == d) && (s.die d).st == .absent && !(s.die d).fenced && s.member.id != some (BitVec.ofNat 6 d)) |>.map (BitVec.ofNat 6)

/-- One reported die gets its ID; the answer goes to its relay, or into the next Pennant on its port (R96, R97). -/
def assignOne (s : State) (w : Want) : State :=
  let known := s.member.given.find? (fun (g : Word × BitVec 6) => g.1 == w.uid)
  match (match known with | some g => some g.2 | none => s.freeId) with
  | none => s
  | some d =>
    let s := { s with member := { s.member with
      given := if known.isSome then s.member.given else s.member.given ++ [(w.uid, d)]
      wanting := s.member.wanting.filter (fun (x : Want) => x.uid != w.uid) } }
    match w.relay with
    | some r => routed s r { s.body 1 w.port.val with peerUid := w.uid, targetId := d, targetV := true }
    | none => s.modPort w.port.val (fun x => { x with assign := some (w.uid, d), trig := Nat.max 1 x.trig })

/-- ID_ASSIGN_ROUND: the first round waits for 4 strokes with no new report and goes in ascending UID; later dies are
served as they come (R97). -/
def execIdAssignRound (s : State) : Result :=
  awake s fun s =>
    let m := s.member
    if !m.assigner || m.wanting.isEmpty || (m.firstRound && s.mast.beats < m.wantBeat + 4) then s
    else
      let ws := if m.firstRound then sortBy (fun (w : Want) => [w.uid.toNat]) m.wanting else m.wanting
      ws.foldl assignOne { s with member := { m with firstRound := false } }

/-! ### Pennants received -/

/-- What a link-local Pennant tells of the leader (R97). -/
def hearLeader (s : State) (pn : Pennant) : State :=
  let least := fun (a b : Word) => if b = 0 then a else if a = 0 || b < a then b else a
  let l := least s.member.leader pn.leaderUid
  let l := if pn.role = 0 then least l pn.uid else l
  noteLeader s.leaderUid { s with member := { s.member with leader := if l == Config.uid then s.member.leader else l } }

/-- A PERIODIC or TRIGGERED Pennant from the partner on port p (R91 to R99, R101). -/
def linkPennant (s : State) (p : PortId) (pn : Pennant) : State :=
  let s := s.modPort p.val (fun x => { x with
    lastHeard := s.mast.beats, silentSeen := false, partner := some (pn.dieId, pn.idV, pn.port, pn.role, pn.uid) })
  let s := { s with member := { s.member with routes := Table.set 0 s.member.routes p.val pn.route, heardRoute := setBit s.member.heardRoute p.val } }
  let s := takeAssignment (hearLeader s pn) p pn
  let s := if pn.idV then namedId s p pn else reportIdless s p pn.uid
  let s := if (s.partnerOf p.val).isSome then dropUnreached ((List.range 64).foldl (routeSays p) s) else s
  adoptEpoch s pn.epoch (if pn.kind = 1 then some pn.mask else none)

/-- A routed TRIGGERED Pennant: a report or an ID request to the assigner, or an assignment to a relay (R96, R101). -/
def routedPennant (s : State) (p : PortId) (pn : Pennant) : State :=
  let m := s.member
  let s :=
    if pn.targetV then
      let s := takeAssignment s p pn
      [0, 1, 2, 3].foldl (fun s q => s.modPort q (fun x =>
        match x.partner with
        | some (_, false, _, _, uid) => if uid == pn.peerUid then { x with assign := some (pn.peerUid, pn.targetId), trig := Nat.max 1 x.trig } else x
        | _ => x)) s
    else if !m.assigner then s
    else if pn.peerUid != 0 then noteWant s { uid := pn.peerUid, relay := some pn.dieId, port := p }
    else takeReport s pn.mask
  adoptEpoch s pn.epoch none

/-- PENNANT_LINK_RECEIVE: a PERIODIC or TRIGGERED Pennant, link-local or routed to this die (R89 to R102). -/
def execPennantLinkReceive (p : PortId) (ll : Bool) (pn : Pennant) (s : State) : Result :=
  awake s fun s =>
    let sel := fun (a : Arrived) => a.port == p && a.msg.ll == ll
    let bad := s.pennantBad pn sel
    let s := takePennant s pn sel
    if bad || !(pn.kind == 0 || pn.kind == 1) then pennantConflict s p
    else if ll then linkPennant s p pn
    else if pn.kind = 1 then (routedClaim s p pn).getD (routedPennant s p pn)
    else s

/-- CONFIRM_REQ_RECEIVE: answered with a CONFIRM_ACK while the requester's entry is PROVISIONAL or VERIFIED, else held
(R94). -/
def execConfirmReqReceive (p : PortId) (src : BitVec 6) (pn : Pennant) (s : State) : Result :=
  awake s fun s =>
    let sel := fun (a : Arrived) => a.port == p && a.msg.src == src
    let bad := s.pennantBad pn sel
    let s := takePennant s pn sel
    if bad then pennantConflict s p
    else (routedClaim s p pn).getD (
      let s := adoptEpoch s pn.epoch none
      if (s.die src.toNat).st == .absent then
        { s with member := { s.member with held := s.member.held ++ [{ src := src, pn := pn, beat := s.mast.beats }] } }
      else sendAck s src pn)

/-- CONFIRM_ACK_RECEIVE: the answer in time, with the NONCE and the own UID, makes a PROVISIONAL entry VERIFIED; a late or
foreign one is discarded; an incompatible partner stays PROVISIONAL (R93 to R95, R100). -/
def execConfirmAckReceive (p : PortId) (src : BitVec 6) (pn : Pennant) (s : State) : Result :=
  awake s fun s =>
    let sel := fun (a : Arrived) => a.port == p && a.msg.src == src
    let bad := s.pennantBad pn sel
    let s := takePennant s pn sel
    if bad then pennantConflict s p
    else
      let s := adoptEpoch s pn.epoch none
      let e := s.die src.toNat
      match s.member.handshakes.find? (fun (h : Handshake) => h.id == src) with
      | none => s
      | some h =>
        if h.nonce != pn.nonce || pn.peerUid != Config.uid || h.beat + 4 ≤ s.mast.beats || e.st != .provisional || e.fenced then s
        else if e.heldByOther pn.uid then (routedClaim s p pn).getD s
        else
          let s := { s with member := { s.member with handshakes := s.member.handshakes.filter (fun (x : Handshake) => x.id != src) } }
          if pn.incompatible then
            raiseUnit (putDie s src.toNat (e.take pn)) fPeerIncompatible 0 (9 + p.val) (some src) (BitVec.ofNat 16 p.val)
          else
            yieldAssigner (putDie s src.toNat { e.take pn with st := .verified })

/-- HANDSHAKE_TIMEOUT: at the fourth stroke boundary after the request the handshake fails and the entry goes ABSENT
(R94, Table 5-3). -/
def execHandshakeTimeout (id : BitVec 6) (s : State) : Result :=
  awake s fun s =>
    match s.member.handshakes.find? (fun (h : Handshake) => h.id == id) with
    | none => s
    | some h =>
      if s.mast.beats < h.beat + 4 then s
      else
        let s := { s with member := { s.member with handshakes := s.member.handshakes.filter (fun (x : Handshake) => x.id != id) } }
        if (s.die id.toNat).st == .provisional then toAbsent s id.toNat else s

/-- CONFIRM_HOLD_EXPIRY: a request held for 4 strokes is dropped unanswered (R94). -/
def execConfirmHoldExpiry (id : BitVec 6) (s : State) : Result :=
  awake s fun s =>
    { s with member := { s.member with held := s.member.held.filter (fun (h : HeldReq) => !(h.src == id && decide (h.beat + 4 ≤ s.mast.beats))) } }

/-- PARTNER_SILENCE: nothing accepted on a port for 16 strokes: the direct partner reached there goes ABSENT, and so do the
IDs that nothing else reaches (R92, R93). -/
def execPartnerSilence (p : PortId) (s : State) : Result :=
  awake s fun s =>
    let x := s.port p.val
    if x.silentSeen || x.partner.isNone || s.mast.beats < x.lastHeard + 16 then s
    else
      let s := s.setPort p.val { x with silentSeen := true }
      let s := (s.member.dies.map (fun (e : Nat × DieEntry) => e.1)).foldl (fun s d =>
        if (s.die d).direct && (s.die d).port == p && some (BitVec.ofNat 6 d) != s.member.id then toAbsent s d else s) s
      dropUnreached s

/-! ### Fences (R104, R362) -/

/-- A fenced die's own actions: HEALTH FENCED, its cores stopped, and it no longer assigns (R104, R362). -/
def fenceSelf (s : State) : State :=
  let s := { s with member := { s.member with fenced := true, health := 2, assigner := false } }
  let stop := fun (_ : Nat) (k : Core) => if k.st == .run || k.st == .wait then ({ k with drainStop := true, hold := none }).settleStop else k
  triggerAll { s with cores := Table.update {} stop (s.cores.map (fun (e : Nat × Core) => e.1)) s.cores }

/-- FENCED is set for an ID: the entry goes ABSENT and is held (Table 5-3, R104). -/
def fenceEntry (s : State) (d : Nat) : State :=
  let s := if some (BitVec.ofNat 6 d) = s.member.id then s else toAbsent s d
  putDie s d { s.die d with fenced := true }

/-- FENCED is cleared for an ID: a held entry stays ABSENT until the die is heard again (R104). -/
def reinstateEntry (s : State) (d : Nat) : State := putDie s d { s.die d with fenced := false }

/-- The port of an arrived FENCE or REINSTATE Pennant, or the one that leads to its sender. -/
def State.pennantPort (s : State) (pn : Pennant) : PortId :=
  match s.arrivedPennant pn (fun _ => true) with
  | some a => a.port
  | none => (s.die pn.dieId.toNat).port

/-- A FENCE or REINSTATE Pennant that holds its rules names an ID for f. One with TARGET_V 0 names none and is discarded and
logged as R90 discards a Pennant (DESIGN CHOICE, assumption 118). -/
def namedFence (s : State) (pn : Pennant) (f : State → Nat → State) : State :=
  let p := s.pennantPort pn
  let bad := s.pennantBad pn (fun _ => true)
  let s := takePennant s pn (fun _ => true)
  if bad || !pn.targetV then pennantConflict s p else f (adoptEpoch s pn.epoch none) pn.targetId.toNat

/-- FENCE_PENNANT_RECEIVE: FENCED is set for the named ID; the named die also takes a fenced die's actions (R104). One that
names the own ID with another UID is ignored (DESIGN CHOICE, assumption 119). -/
def execFencePennantReceive (pn : Pennant) (s : State) : Result :=
  awake s fun s => namedFence s pn fun s d =>
    if s.member.id != some pn.targetId then fenceEntry s d
    else if pn.peerUid == Config.uid then fenceSelf (fenceEntry s d)
    else s

/-- REINSTATE_PENNANT_RECEIVE: FENCED is cleared for the named ID; on the named die the fence ends, and its HEALTH is OK from
then on, DEGRADED before the fence or not (DESIGN CHOICE, assumption 119; R104). -/
def execReinstatePennantReceive (pn : Pennant) (s : State) : Result :=
  awake s fun s => namedFence s pn fun s d =>
    if s.member.id != some pn.targetId then reinstateEntry s d
    else if pn.peerUid == Config.uid then
      reinstateEntry (triggerAll { s with member := { s.member with fenced := false, health := if s.member.health = 2 then 0 else s.member.health } }) d
    else s

/-- A FENCE or REINSTATE Pennant goes to every VERIFIED die and to the named die (R104). -/
def sendFence (s : State) (kind : BitVec 3) (id : BitVec 6) (uid : Word) : State :=
  (List.range 64).foldl (fun s d =>
    if some (BitVec.ofNat 6 d) = s.member.id then s
    else if (s.die d).st == .verified || d = id.toNat then
      routed s (BitVec.ofNat 6 d) { s.body kind (s.die d).port.val with peerUid := uid, targetId := id, targetV := true }
    else s) s

end Sys2Proof.Machine
end

