-- ==== Sys2Proof/Machine/Flit.lean ====
section
/-!
DEFINITION. Flits as bytes with their CRC-64, and the link layer of one path: trailers, acknowledgements and replay
(chapter 4, R64 to R72, R79, R80).
-/
namespace Sys2Proof

/-! ### The flit as bytes (Table 4-4, Table 4-6, R70) -/

/-- A flag as a number. -/
def flagNat (b : Bool) : Nat := if b then 1 else 0

/-- The 16 header bytes as one number (Table 4-4). -/
def Flit.headNat (f : Flit) : Nat :=
  f.ftype.toNat + f.vc.toNat * 2 ^ 4 + f.seq.toNat * 2 ^ 6 + f.dst.toNat * 2 ^ 16 + f.src.toNat * 2 ^ 22 + f.colour.toNat * 2 ^ 28 +
  f.op.toNat * 2 ^ 32 + f.len.toNat * 2 ^ 36 + flagNat f.first * 2 ^ 44 + flagNat f.last * 2 ^ 45 + f.rsvA.toNat * 2 ^ 46 +
  f.addr.toNat * 2 ^ 48 + f.tag.toNat * 2 ^ 88 + f.win.toNat * 2 ^ 100 + flagNat f.winv * 2 ^ 108 + f.hops.toNat * 2 ^ 109 +
  f.status.toNat * 2 ^ 112 + flagNat f.ll * 2 ^ 116 + f.rsvB.toNat * 2 ^ 117

/-- Bytes 0 to 247 of a flit: header, payload, and the trailer before its CRC. -/
def Flit.covered (f : Flit) : List Byte :=
  leBytes 16 f.headNat ++ takePad 224 f.payload ++
  leBytes 2 (f.trailer.ackSeq.toNat + flagNat f.trailer.ackV * 2 ^ 10 + f.rsvT.toNat * 2 ^ 11) ++ leBytes 6 f.trailer.freed.toNat

/-- One bit of the CRC-64 of ECMA-182, most significant bit first (R70). -/
def crcBit (x : BitVec 64) : BitVec 64 := if bit x 63 then (x <<< 1) ^^^ 0x42F0E1EBA9EA3693 else x <<< 1

/-- One byte of the CRC (R70). -/
def crcByte (x : BitVec 64) (b : Byte) : BitVec 64 :=
  crcBit (crcBit (crcBit (crcBit (crcBit (crcBit (crcBit (crcBit (x ^^^ (b.setWidth 64 <<< 56)))))))))

/-- The CRC-64: initial value and final XOR all ones (R70). -/
def crc64 (l : List Byte) : Word := l.foldl crcByte 0xFFFFFFFFFFFFFFFF ^^^ 0xFFFFFFFFFFFFFFFF

/-- Whether a flit's CRC is good (R70). -/
def Flit.good (f : Flit) : Bool := f.crc == crc64 f.covered

/-- A link-layer flit with no message: FTYPE, LEN, SEQ and payload, every other field zero (R65). -/
def bareFlit (ftype : BitVec 4) (len : BitVec 8) (seq : BitVec 10) (payload : List Byte) : Flit :=
  { ftype := ftype, vc := 0, seq := seq, dst := 0, src := 0, colour := 0, op := 0, len := len, first := false, last := false, rsvA := 0
    addr := 0, tag := 0, win := 0, winv := false, hops := 0, status := 0, ll := false, rsvB := 0, payload := takePad 224 payload
    trailer := { ackSeq := 0, ackV := false, freed := 0 }, rsvT := 0, crc := 0 }

/-- An INIT: four 16-bit buffer counts and ECHO (R65). -/
def initFlit (counts : List Nat) (echo : Bool) : Flit :=
  bareFlit 3 9 0 ((counts.map (leBytes 2)).flatten ++ [if echo then 1 else 0])

/-- How many flits a payload of n bytes takes (R66, R69). -/
def flitCount (n : Nat) : Nat := Nat.max 1 (ceilDiv n 224)

/-- Flit i of a message on a VC (R66, R67). -/
def Msg.flit (m : Msg) (vc : BitVec 2) (i : Nat) (seq : BitVec 10) : Flit :=
  let part := (m.data.drop (224 * i)).take 224
  { ftype := 1, vc := vc, seq := seq, dst := m.dst, src := m.src, colour := m.colour, op := m.op, len := BitVec.ofNat 8 part.length
    first := i == 0, last := i + 1 == flitCount m.data.length, rsvA := 0, addr := m.addr + BitVec.ofNat 40 (224 * i), tag := m.tag
    win := m.win, winv := m.winv, hops := 0, status := m.status, ll := m.ll, rsvB := 0, payload := takePad 224 part
    trailer := { ackSeq := 0, ackV := false, freed := 0 }, rsvT := 0, crc := 0 }

/-- The message that a first flit opens, with its valid payload. -/
def Flit.msg (f : Flit) : Msg :=
  { src := f.src, dst := f.dst, colour := f.colour, op := f.op, addr := f.addr, tag := f.tag, win := f.win, winv := f.winv
    status := f.status, ll := f.ll, data := takePad f.len.toNat f.payload, bad := false }

end Sys2Proof

namespace Sys2Proof.Machine

/-! ### One path of a port (R65, R72, R84) -/

/-- The link layer of a path. -/
def Port.link (x : Port) (path : Path) : Link := match path with | .main => x.main | .side => x.side

/-- The port with the link layer of a path replaced. -/
def Port.setLink (x : Port) (path : Path) (l : Link) : Port :=
  match path with | .main => { x with main := l } | .side => { x with side := l }

/-- The port with the link layer of a path changed. -/
def Port.modLink (x : Port) (path : Path) (g : Link → Link) : Port := x.setLink path (g (x.link path))

/-- A path as the low bit of a table key. -/
def pathNat (path : Path) : Nat := match path with | .main => 0 | .side => 1

/-- Receive buffers of a path per VC: 96, 96, 32 and 16, and on the sideband the VC3 pool alone (R65, R85). -/
def bufferCounts (path : Path) : List Nat := match path with | .main => [96, 96, 32, 16] | .side => [0, 0, 0, 16]

/-- The element of a list, 0 beyond its end. -/
def natAt (l : List Nat) (i : Nat) : Nat := (l[i]?).getD 0

/-- The trailer a path sends now: the last sequence received in order, and the cumulative frees (R70). -/
def Link.trailer (l : Link) : Trailer :=
  { ackSeq := l.expect - 1, ackV := l.initDone
    freed := BitVec.ofNat 48 ((List.range 4).foldl (fun n i => n + ((l.freedTx[i]?).getD 0).toNat * 2 ^ (12 * i)) 0) }

/-- A flit leaves on a path with the present trailer and its CRC: the acknowledgements and frees owed are told (R70, R72). -/
def putFlit (s : State) (p : PortId) (path : Path) (f : Flit) : State :=
  let x := s.port p.val
  let f := { f with trailer := (x.link path).trailer }
  let f := { f with crc := crc64 f.covered }
  emit (s.setPort p.val (x.modLink path (fun l => { l with lastSent := s.cclk, ackDue := false, freeDue := false }))) (.flit p path f)

/-- An INIT leaves, with ECHO (R64, R65, R85). -/
def putInit (s : State) (p : PortId) (path : Path) : State :=
  let s := putFlit s p path (initFlit (bufferCounts path) ((s.port p.val).link path).gotInit)
  s.modPort p.val (fun x => x.modLink path (fun l => { l with lastInit := some s.cclk }))

/-- A NOP leaves (R65). -/
def putNop (s : State) (p : PortId) (path : Path) : State := putFlit s p path (bareFlit 0 0 0 [])

/-- A 32-bit error counter of a port steps by n; a wrap sets its flag (R86). -/
def PortCounts.add (i n : Nat) (k : PortCounts) : PortCounts :=
  let f := fun (x : BitVec 32) => x + BitVec.ofNat 32 n
  let beyond := fun (x : BitVec 32) => decide (2 ^ 32 ≤ x.toNat + n)
  let k := if beyond (match i with
      | 0 => k.crcErr | 1 => k.seqErr | 2 => k.dup | 3 => k.nakTx | 4 => k.nakRx | 5 => k.replayed | 6 => k.timerReplay | _ => k.protocol)
    then { k with wrap := setBit k.wrap i, newWrap := setBit k.newWrap i } else k
  match i with
  | 0 => { k with crcErr := f k.crcErr }
  | 1 => { k with seqErr := f k.seqErr }
  | 2 => { k with dup := f k.dup }
  | 3 => { k with nakTx := f k.nakTx }
  | 4 => { k with nakRx := f k.nakRx }
  | 5 => { k with replayed := f k.replayed }
  | 6 => { k with timerReplay := f k.timerReplay }
  | _ => { k with protocol := f k.protocol }

/-- Count one event in error counter i of port p (Table 4-10). -/
def countPort (s : State) (p : PortId) (i : Nat) : State := s.modPort p.val (fun x => { x with counts := x.counts.add i 1 })

/-- A broken rule of R67 to R72: F_HALYARD_PROTOCOL is logged by the port, and PROTOCOL counts it. -/
def protocolError (s : State) (p : PortId) (colour : BitVec 4) (src : BitVec 6) : State :=
  countPort (raiseUnit s fHalyardProtocol colour (9 + p.val) (some src) 0) p 7

/-- Something from the partner was accepted on a path (R66, R92, R364). -/
def heard (s : State) (p : PortId) (path : Path) : State :=
  s.modPort p.val (fun x =>
    let x := { x with lastHeard := s.mast.beats, silentSeen := false }
    match path with
    | .main => { x with lastFlit := s.mast.beats }
    | .side => { x with lastSb := s.cclk })

/-- The retry buffer after an acknowledgement up to and including a sequence number (R80). -/
def releaseUpTo (seq : BitVec 10) (l : List Flit) : List Flit :=
  if l.any (fun f => f.seq == seq) then (l.dropWhile (fun f => f.seq != seq)).drop 1 else l

/-- The acknowledgement and credit returns of a trailer with a good CRC (R70, R72, R80). -/
def Link.take (now : Nat) (t : Trailer) (l : Link) : Link :=
  let kept := if t.ackV then releaseUpTo t.ackSeq l.retry else l.retry
  let freed := fun (i : Nat) => (field t.freed (12 * i) 12 : BitVec 12)
  let l := { l with
    credits := (List.range 4).map (fun i => natAt l.credits i + (freed i - (l.freedRx[i]?).getD 0).toNat)
    freedRx := (List.range 4).map freed }
  if kept.length < l.retry.length then { l with retry := kept, lastProgress := now, replays := 0, resend := Nat.min l.resend kept.length } else l

/-- A trailer arrives on a path of a port. -/
def takeTrailer (s : State) (p : PortId) (path : Path) (t : Trailer) : State :=
  s.modPort p.val (fun x => x.modLink path (Link.take s.cclk t))

/-- A replay of the last n flits of the retry buffer begins; on the mainband the seventeenth of the same oldest flit
without progress is not sent, and stands at 17 until the port enters RETRAIN (R80, R81; assumption 46). -/
def Link.replay (now n : Nat) (path : Path) (l : Link) : Link :=
  if n = 0 || 17 ≤ l.replays then l
  else if l.replays = 16 then
    match path with
    | .main => { l with replays := 17 }
    | .side => { l with resend := n, lastProgress := now }
  else { l with replays := l.replays + 1, resend := n, lastProgress := now }

/-- How many flits of the retry buffer stand from a sequence number onward (R80). -/
def Link.fromSeq (l : Link) (seq : BitVec 10) : Nat := (l.retry.dropWhile (fun f => f.seq != seq)).length

/-- Whether a path carries MSG flits now: an ACTIVE mainband, or an initialised sideband (R64, R66, R84). -/
def Port.carries (x : Port) (path : Path) : Bool :=
  match path with
  | .main => x.st == .active && x.main.initDone
  | .side => x.sbUp && x.st != .disabled && x.side.initDone

/-- A good NOP, NAK or MSG flit, or an INIT with ECHO, confirms an INIT sent here (R64). -/
def confirmInit (s : State) (p : PortId) (path : Path) : State :=
  s.modPort p.val (fun x => x.modLink path (fun l => { l with confirmed := true }))

/-- A path whose INIT is received and confirmed is initialised: the mainband enters ACTIVE (R64, R85). -/
def tryActive (s : State) (p : PortId) (path : Path) : State :=
  s.modPort p.val (fun x =>
    let l := x.link path
    if l.initDone || !l.gotInit || !l.confirmed then x
    else
      let x := x.setLink path { l with initDone := true, lastProgress := s.cclk, lastSent := s.cclk }
      match path with
      | .main => if x.st == .training then { x with st := .active, stChanged := true, failedRetrains := 0 } else x
      | .side => x)

/-- INIT_RESEND: every 64 CCLK until the path is initialised (R64, R85). -/
def execInitResend (p : PortId) (path : Path) (s : State) : Result :=
  awake s fun s =>
    let x := s.port p.val
    let l := x.link path
    let on := match path with | .main => x.st == .training | .side => x.sbUp && x.st != .disabled
    match l.lastInit with
    | some t => if on && !l.initDone && t + 64 ≤ s.cclk then putInit s p path else s
    | none => s

/-- INIT_RECEIVE: the first of a training sets credits, sequences and FREED counts and clears the retry buffer; later ones
only record ECHO (R64, R65, R85). The credits are set at that INIT, as R65 has it, and HL_CREDIT shows them although R64 lets
the port hold none until it is ACTIVE; none is spent before (DEDUCED, assumption 115). -/
def execInitReceive (p : PortId) (path : Path) (counts : Word) (echo : Bool) (s : State) : Result :=
  awake s fun s =>
    let x := s.port p.val
    let on := match path with | .main => x.st == .training || x.st == .active | .side => x.sbUp && x.st != .disabled
    if !on then s
    else
      let n := fun (i : Nat) => (field counts (16 * i) 16 : BitVec 16).toNat
      let vc3 := match path with | .main => if x.vc3Side then 0 else n 3 | .side => if x.vc3Side then n 3 else 0
      let s :=
        if (x.link path).gotInit then s
        else s.modPort p.val (fun x =>
          { x.modLink path (fun l => { l with
              gotInit := true, credits := [n 0, n 1, n 2, vc3], txSeq := 0, expect := 0, retry := [], resend := 0, replays := 0
              freedTx := [0, 0, 0, 0], freedRx := [0, 0, 0, 0] }) with vc3Total := n 3 })
      let s := heard s p path
      tryActive (if echo then confirmInit s p path else s) p path

/-- NAK_RECEIVE: its trailer, then a replay from its SEQ (R80). -/
def execNakReceive (p : PortId) (path : Path) (seq : BitVec 10) (t : Trailer) (s : State) : Result :=
  awake s fun s =>
    let s := tryActive (confirmInit s p path) p path
    if !(s.port p.val).carries path then s
    else
      let s := countPort (heard (takeTrailer s p path t) p path) p 4
      s.modPort p.val (fun x => x.modLink path (fun l => l.replay s.cclk (l.fromSeq seq) path))

/-- NOP_RECEIVE: the acknowledgement and credit returns of its trailer (R70, R80). -/
def execNopReceive (p : PortId) (path : Path) (t : Trailer) (s : State) : Result :=
  awake s fun s =>
    let s := tryActive (confirmInit s p path) p path
    if !(s.port p.val).carries path then s else heard (takeTrailer s p path t) p path

/-- REPLAY_TIMER: 512 CCLK with unacknowledged flits since the last progress and the last replay (R80). -/
def execReplayTimer (p : PortId) (path : Path) (s : State) : Result :=
  awake s fun s =>
    let x := s.port p.val
    let l := x.link path
    if !x.carries path || l.retry.isEmpty || 17 ≤ l.replays || s.cclk < l.lastProgress + 512 then s
    else
      let s := s.modPort p.val (fun x => x.modLink path (fun l => l.replay s.cclk l.retry.length path))
      if ((s.port p.val).link path).replays = 17 then s else countPort s p 6

/-- ACK_TRAILER_DUE: an acknowledgement or a free that no flit has told yet leaves in a NOP (R72, R80). -/
def execAckTrailerDue (p : PortId) (path : Path) (s : State) : Result :=
  awake s fun s =>
    let x := s.port p.val
    let l := x.link path
    if x.carries path && (l.ackDue || l.freeDue) then putNop s p path else s

/-- IDLE_NOP: an ACTIVE port that has sent nothing for 1,024 CCLK (R92). -/
def execIdleNop (p : PortId) (s : State) : Result :=
  awake s fun s =>
    let x := s.port p.val
    if x.carries .main && x.main.lastSent + 1024 ≤ s.cclk then putNop s p .main else s

end Sys2Proof.Machine
end

