-- ==== Sys2Proof/Machine/Links.lean ====
section
/-!
DEFINITION. Port states: training, retrain, down, reset and the sideband (chapter 4, R63 to R66, R81, R84, R85, R87; R105;
R399, R400).
-/
namespace Sys2Proof.Machine

/-! ### What a port that goes DOWN loses (R66, R69, R85, R87) -/

/-- The code of an input in fwdOpen. -/
def inputCode (p : PortId) (path : Path) : Nat := 1 + 2 * p.val + pathNat path

/-- Whether a queued flit was received on an input. -/
def TxMsg.from (t : TxMsg) (p : PortId) (path : Path) : Bool :=
  match t.fwd with
  | some (q, w, _) => q == p && w == path
  | none => false

/-- The VC of a queued message or flit. -/
def TxMsg.vc (t : TxMsg) : Nat :=
  match t.fwd with
  | some (_, _, f) => f.vc.toNat
  | none => vcOf t.msg.op

/-- The path on which a message in progress of a VC leaves a port. -/
def Port.pathOf (x : Port) (vc : Nat) : Path := if vc = 3 && x.vc3Side then .side else .main

/-- Whether a message of this die is in progress on a path of a port: a flit of it has left there. -/
def TxMsg.begun (t : TxMsg) (x : Port) (p : PortId) (path : Path) : Bool :=
  t.fwd.isNone && decide (t.sent ≠ 0) && t.port == some p && x.pathOf t.vc == path

/-- The requests of this die that a lost path fails: those with a flit in its retry buffer, or begun there (R87). -/
def State.lostReqs (s : State) (p : PortId) (path : Path) : List Req :=
  let x := s.port p.val
  let inRetry := fun (q : Req) => (x.link path).retry.any (fun f => f.vc == 0 && f.src == s.ownId && f.tag == q.tag && f.dst == q.die)
  let begun := fun (q : Req) => s.tx.any (fun t => t.begun x p path && t.vc == 0 && t.msg.tag == q.tag && t.msg.dst == q.die)
  s.reqs.filter (fun q => inRetry q || begun q)

/-- The input of a code of fwdOpen. -/
def codeInput (code : Nat) : Nat × Nat := ((code - 1) / 2, (code - 1) % 2)

/-- The queued flits of a forwarded message go, and the receive buffers of its input that they occupied are freed (R69, R72). -/
def dropMsgFlits (s : State) (num : Nat) : State :=
  let mine := fun (t : TxMsg) => t.fwd.isSome && t.num == num
  (s.tx.filter mine).foldl (fun s t => match t.fwd with | some (q, w, f) => freeBuffers s q w f.vc.toNat 1 | none => s)
    { s with tx := s.tx.filter (fun t => !mine t) }

/-- One forwarded message in progress on the lost output fails here: the rest of it is dropped (R87). -/
def failForward (s : State) (code num vc : Nat) : State :=
  if code = 0 then s
  else
    let i := codeInput code
    let key := i.2 * 4 + vc
    let stop := fun (r : RxPart) => if r.fwd && r.num == num then { r with dropRest := true } else r
    (dropMsgFlits s num).modPort i.1 (fun x => { x with rx := Table.set none x.rx key ((Table.get none x.rx key).map stop) })

/-- The receive buffers and the queued flits received on a lost path go; other outputs end its messages (R69, R87). -/
def clearInput (s : State) (p : PortId) (path : Path) : State :=
  let code := inputCode p path
  let s := { s with
    arrived := s.arrived.filter (fun a => !(a.port == p && a.path == path)), tx := s.tx.filter (fun t => !t.from p path) }
  let left := (s.arrived.filter (fun a => a.port == p && a.vc == 3)).length +
    (s.tx.filter (fun t => t.from p (if path = .main then .side else .main) && t.vc == 3)).length
  let s := [0, 1, 2, 3].foldl (fun s q => s.modPort q (fun x => { x with fwdOpen := x.fwdOpen.filter (fun e => e.2 != code) })) s
  s.modPort p.val (fun x => { x with
    rx := x.rx.filter (fun e => e.1 / 4 != pathNat path)
    rxHeld := match path with | .main => [0, 0, 0, left] | .side => setAt x.rxHeld 3 left })

/-- A path of a port is lost: its own requests fail, its buffers are discarded, and its link layer starts anew (R85, R87). -/
def losePath (s : State) (p : PortId) (path : Path) : State :=
  let x := s.port p.val
  let lost := s.lostReqs p path
  let s := { s with tx := s.tx.filter (fun t => !t.begun x p path) }
  let s := [0, 1, 2, 3].foldl (fun s vc => failForward s (Table.get 0 x.fwdOpen (pathNat path * 4 + vc)) (Table.get 0 x.fwdNum (pathNat path * 4 + vc)) vc) s
  let s := clearInput s p path
  let s := s.modPort p.val (fun x =>
    { x.setLink path {} with fwdOpen := x.fwdOpen.filter (fun e => e.1 / 4 != pathNat path) })
  let s := s.modPort p.val (fun x =>
    match path with
    | .main => if x.vc3Side then x else
        { x with vc3Side := true, side := if x.side.initDone then { x.side with credits := [0, 0, 0, x.vc3Total] } else x.side }
    | .side => x)
  lost.foldl (fun s q => settle s q 7 []) s

/-- SB_REACH follows the sideband of the port of every entry; a change asks for TRIGGERED Pennants (R91, R93, R103). -/
def refreshReach (s : State) (p : PortId) : State :=
  (s.member.dies.map (fun (e : Nat × DieEntry) => e.1)).foldl (fun s d =>
    if (s.die d).port == p && some (BitVec.ofNat 6 d) != s.member.id && (s.die d).sbReach != (s.port p.val).sbUp then
      triggerAll (s.setDie d { s.die d with sbReach := (s.port p.val).sbUp })
    else s) s

/-- The uncommanded downs of the last 1,024 strokes, with this one; the eighth holds the port DOWN (R105). -/
def countFlap (s : State) (p : PortId) : State :=
  let x := s.port p.val
  let fl := (x.flaps.filter (fun b => decide (s.mast.beats < b + 1024))) ++ [s.mast.beats]
  let s := s.setPort p.val { x with flaps := fl, held := x.held || decide (8 ≤ fl.length) }
  if 8 ≤ fl.length && !x.held then raiseUnit s fLinkFlap 0 (9 + p.val) (x.partner.map (fun q => q.1)) 0 else s

/-- A down counts as a membership change: the partner's ID is told, where it has one (R87, R105). -/
def noteDown (s : State) (p : PortId) : State :=
  match (s.port p.val).partner with
  | some (d, true, _, _, _) => noteChange s (some d.toNat)
  | _ => noteChange s none

/-- A port goes DOWN: mainband lost, F_LINK_DOWN logged, entries it reached dropped; an uncommanded down counts (R66, R87,
R99, R103, R105). -/
def goDown (s : State) (p : PortId) (counted : Bool) : State :=
  let s := losePath s p .main
  let s := s.modPort p.val (fun x => { x with st := .down, stChanged := true, failedRetrains := 0, downBeat := s.mast.beats })
  let s := raiseUnit s fLinkDown 0 (9 + p.val) ((s.port p.val).partner.map (fun q => q.1)) 0
  let s := if counted then countFlap s p else s
  dropUnreached (noteDown s p)

/-- A training begins: link layers start anew, and the sideband initialises again where it is up (R64, R65, R85). -/
def startTraining (s : State) (p : PortId) : State :=
  let s := losePath s p .side
  let s := s.modPort p.val (fun x => { x with
    st := .training, stChanged := true, held := false, main := ({} : Link), vc3Side := true, failedRetrains := 0
    askX64 := true, askRate32 := true, slow := false, attempts := 0, asks := 0 })
  if (s.port p.val).sbUp then putInit s p .side else s

/-- The counters, wrap flags, flaps and HELD of a port are cleared, and no step down bounds its mode any more (R81, R399). -/
def clearPortCounts (s : State) (p : PortId) : State :=
  s.modPort p.val (fun x => { x with counts := (PortCounts.mk 0 0 0 0 0 0 0 0 0 0 0 0), flaps := [], held := false, capX64 := true, capRate32 := true })

/-- A port reset: down, counters cleared, and TRAINING again; a DISABLED port only clears its counters (R87, R399, R400). -/
def portReset (s : State) (p : PortId) : State :=
  if (s.port p.val).st = .disabled then clearPortCounts s p
  else startTraining (clearPortCounts (goDown s p false) p) p

/-- ENABLE takes a DISABLED or held port to TRAINING (R400). -/
def portEnable (s : State) (p : PortId) : State :=
  let x := s.port p.val
  if x.st == .disabled || x.held then startTraining s p else s

/-- DISABLE takes a port to DISABLED through DOWN (R400); its sideband rests (Table 4-3). -/
def portDisable (s : State) (p : PortId) : State :=
  if (s.port p.val).st = .disabled then s
  else
    let s := losePath (goDown s p false) p .side
    refreshReach (s.modPort p.val (fun x => { x with st := .disabled, sbUp := false, stChanged := true, penBeat := none })) p

/-- PORT_ENABLE: ROM or firmware enables the port (R63). -/
def execPortEnable (p : PortId) (s : State) : Result := awake s fun s => portEnable s p

/-- HL_CTRL RESET (R400). -/
def execHlCtrlReset (p : PortId) (s : State) : Result := awake s fun s => portReset s p

/-- HL_CTRL DISABLE (R400). -/
def execHlCtrlDisable (p : PortId) (s : State) : Result := awake s fun s => portDisable s p

/-- HL_CTRL ENABLE (R400). -/
def execHlCtrlEnable (p : PortId) (s : State) : Result := awake s fun s => portEnable s p

/-- The option that a port gives for one a partner asks: the option itself where Table 4-2 supports it, else the nearest
supported one; 24 GT/s, which lies midway, gets 16 GT/s (DESIGN CHOICE, assumption 113). -/
def nearestOffer (o : PartnerOption) : Option LinkOffer :=
  match o with
  | .width n => some (if 64 ≤ n then .x64 else .x32)
  | .rate n => some (if 32 ≤ n then .rate32 else .rate16)
  | .multiModule => some .oneModule
  | .adapter => some .raw
  | .standardPackage | .retimer | .lowPower => none

/-- Whether an option asked for is itself supported (Table 4-2). -/
def optionSupported (o : PartnerOption) : Bool :=
  match o with
  | .width n => n == 64 || n == 32
  | .rate n => n == 32 || n == 16
  | _ => false

/-- This training keeps to an option agreed on (R62). -/
def Port.agree (x : Port) (o : LinkOffer) : Port :=
  match o with
  | .x32 => { x with askX64 := false }
  | .rate16 => { x with askRate32 := false }
  | _ => x

/-- A partner asks for an option: an unsupported one is offered the nearest supported option; where none exists the port
stays in TRAINING and counts the attempt (R62). -/
def askOption (s : State) (p : PortId) (o : PartnerOption) : State :=
  let x := s.port p.val
  match nearestOffer o with
  | none => s.setPort p.val { x with asks := x.asks + 1 }
  | some a => if optionSupported o then s.setPort p.val (x.agree a) else emit (s.setPort p.val (x.agree a)) (.offer p a)

/-- Whether a training now tries 32 GT/s (R63, R81). -/
def Port.tries32 (x : Port) : Bool := x.capRate32 && x.askRate32 && !x.slow

/-- How many of the 32 data lanes of a half fail in one direction (R409). -/
def lanesOf (lanes : Word) (upper : Bool) : Nat := popcount (field lanes (if upper then 32 else 0) 32 : BitVec 32)

/-- Whether a half can be repaired: at most two failing lanes in each direction (R409). -/
def halfOk (rx tx : Word) (upper : Bool) : Bool := decide (lanesOf rx upper ≤ 2) && decide (lanesOf tx upper ≤ 2)

/-- The redundant lanes of one half and direction in use, the lower of the two first (R409; DESIGN CHOICE, assumption 113). -/
def spareBits (n : Nat) : Nat := if n = 0 then 0 else if n = 1 then 1 else 3

/-- REPAIR_MAP for the halves in use (R409). -/
def repairMapOf (rx tx : Word) (low high : Bool) : Byte :=
  BitVec.ofNat 8 ((if low then spareBits (lanesOf rx false) + 16 * spareBits (lanesOf tx false) else 0) +
    (if high then 4 * spareBits (lanesOf rx true) + 64 * spareBits (lanesOf tx true) else 0))

/-- An attempt at the present rate fails: after three at 32 GT/s the port trains at 16 GT/s, and after three there every
fallback has been tried and it goes DOWN (R63, R410; three at 16 GT/s is a DESIGN CHOICE, assumption 113). -/
def trainFailed (s : State) (p : PortId) : State :=
  let x := s.port p.val
  if x.attempts < 2 then s.setPort p.val { x with attempts := x.attempts + 1 }
  else if x.tries32 then s.setPort p.val { x with slow := true, attempts := 0 }
  else goDown s p true

/-- TRAINING_COMPLETE: an attempt ends. Lanes that can be repaired in both halves train as x64, those of one healthy half as
x32, and the INIT exchange begins in that mode; else the attempt has failed (R62 to R64, R81, R409, R410). -/
def execTrainingComplete (p : PortId) (r : TrainResult) (s : State) : Result :=
  awake s fun s =>
    let x := s.port p.val
    if x.st != .training || !x.sbUp || x.main.lastInit.isSome then s
    else
      match r with
      | .asked o => askOption s p o
      | .failed => trainFailed s p
      | .trained rx tx rev =>
        let low := halfOk rx tx false
        let high := halfOk rx tx true
        let wide := low && high && x.capX64 && x.askX64
        if !low && !high then trainFailed s p
        else putInit (s.setPort p.val { x with
          x64 := wide, rate32 := x.tries32, reversed := rev, upper := !wide && !low
          repairMap := repairMapOf rx tx low (high && (wide || !low)) }) p .main

/-- RETRAIN_ENTRY: the seventeenth replay of the same oldest flit falls due without progress (R81). -/
def execRetrainEntry (p : PortId) (s : State) : Result :=
  awake s fun s =>
    let x := s.port p.val
    if x.st != .active || x.main.replays < 17 then s
    else s.setPort p.val { x with st := .retrain, stChanged := true, failedRetrains := 0, main := { x.main with resend := 0 } }

/-- The next rung below a trained mode, none below x32 at 16 GT/s (R81). -/
def Port.rung (x : Port) : Option (Bool × Bool) :=
  if x.x64 then some (false, x.rate32) else if x.rate32 then some (false, false) else none

/-- Whether the lanes of the trained mode can be repaired, and with which redundant lanes (R81, R409). -/
def Port.repairs (x : Port) (rx tx : Word) : Option Byte :=
  let low := x.x64 || !x.upper
  let high := x.x64 || x.upper
  if (!low || halfOk rx tx false) && (!high || halfOk rx tx true) then some (repairMapOf rx tx low high) else none

/-- RETRAIN_ATTEMPT_DONE: where the attempt succeeds and the lanes in use can be repaired, the mode is kept and the sender
replays from its oldest flit; after three failures in a row the port steps down one rung, which bounds its mode until a port
reset, or goes DOWN (R81, R86, R409). -/
def execRetrainAttemptDone (p : PortId) (ok : Bool) (lanes : Lanes) (s : State) : Result :=
  awake s fun s =>
    let x := s.port p.val
    if x.st != .retrain then s
    else
      let x := { x with counts := { x.counts with retrain := satInc16 x.counts.retrain } }
      match if ok then x.repairs lanes.rx lanes.tx else none with
      | some map =>
        let l := { x.main with replays := 0, resend := x.main.retry.length, lastProgress := s.cclk, lastSent := s.cclk }
        s.setPort p.val { x with st := .active, stChanged := true, repairMap := map, failedRetrains := 0, main := l }
      | none =>
        if x.failedRetrains < 2 then s.setPort p.val { x with failedRetrains := x.failedRetrains + 1 }
        else
          match x.rung with
          | none => goDown (s.setPort p.val x) p true
          | some (w, r) =>
            let n := if x.counts.stepdown = 15 then 15 else x.counts.stepdown + 1
            let s := s.setPort p.val { x with counts := { x.counts with stepdown := n } }
            let s := raiseUnit s fLinkDegraded 0 (9 + p.val) (x.partner.map (fun q => q.1)) (n.setWidth 16)
            let s := startTraining (goDown s p false) p
            s.modPort p.val (fun x => { x with capX64 := w, capRate32 := r })

/-- LINK_DOWN: the port goes DOWN with no command or reset ordering it (R66, R87, R105). -/
def execLinkDown (p : PortId) (s : State) : Result :=
  awake s fun s =>
    let x := s.port p.val
    if x.st == .disabled || x.st == .down then s else goDown s p true

/-- PARTNER_TRAINING_REQUEST: a partner that trains takes this port down and to TRAINING unless it is held; a partner that
retrains takes an ACTIVE port to RETRAIN; a partner that is down takes it DOWN (R64, R66, R81, Table 4-3). -/
def execPartnerTrainingRequest (p : PortId) (ask : PartnerAsk) (s : State) : Result :=
  awake s fun s =>
    let x := s.port p.val
    if !x.sbUp || x.st == .disabled then s
    else
      let s := heard s p .side
      match ask with
      | .train =>
        if x.st == .training && x.main.lastInit.isNone then s
        else if x.held then (if x.st == .down then s else goDown s p false)
        else startTraining (if x.st == .down then s else goDown s p false) p
      | .retrain =>
        if x.st == .active then
          s.modPort p.val (fun x => { x with st := .retrain, stChanged := true, failedRetrains := 0, main := { x.main with resend := 0 } })
        else s
      | .down => if x.st == .down then s else goDown s p true

/-! ### The sideband (R66, R84, R85, R92) -/

/-- SIDEBAND_UP: sideband VC3 initialises, and Pennants may leave (R85, R91). -/
def execSidebandUp (p : PortId) (s : State) : Result :=
  awake s fun s =>
    let x := s.port p.val
    if x.sbUp || x.st == .disabled then s
    else
      let s := s.setPort p.val { x with sbUp := true, side := ({} : Link), vc3Side := true, lastSb := s.cclk, penBeat := none, stChanged := true }
      putInit (refreshReach s p) p .side

/-- A sideband that is lost: VC3 on it is lost and the port is DOWN (R66). -/
def sidebandLost (s : State) (p : PortId) : State :=
  let x := s.port p.val
  if !x.sbUp then s
  else
    let s := if x.st == .down || x.st == .disabled then s else goDown s p true
    let s := losePath s p .side
    refreshReach (s.modPort p.val (fun x => { x with sbUp := false, penBeat := none })) p

/-- SIDEBAND_DOWN: sideband training reports its loss (R66). -/
def execSidebandDown (p : PortId) (s : State) : Result := awake s fun s => sidebandLost s p

/-- SIDEBAND_SILENCE: no sideband message accepted for 4,096 CCLK while the mainband is not ACTIVE (R66, R92;
assumption 47). -/
def execSidebandSilence (p : PortId) (s : State) : Result :=
  awake s fun s =>
    let x := s.port p.val
    if x.sbUp && x.st != .active && x.lastSb + 4096 ≤ s.cclk then sidebandLost s p else s

/-- LINK_STATE_MESSAGE: after a state change, and at intervals while the mainband is not ACTIVE (R92). -/
def execLinkStateMessage (p : PortId) (s : State) : Result :=
  awake s fun s =>
    let x := s.port p.val
    if !x.sbUp || (!x.stChanged && x.st == .active) then s
    else emit (s.setPort p.val { x with stChanged := false, lastLinkState := s.cclk }) (.linkState p x.st)

/-- The side that should carry VC3 (R84). -/
def Port.wantsSide (x : Port) : Bool := x.st != .active

/-- VC3_PATH_MOVE: once the message in progress ends, every VC3 flit sent is acknowledged and every credit is back, VC3
moves with all its credits (R84, R85). -/
def execVc3PathMove (p : PortId) (s : State) : Result :=
  awake s fun s =>
    let x := s.port p.val
    let old : Path := if x.vc3Side then .side else .main
    let new : Path := if x.vc3Side then .main else .side
    let l := x.link old
    let busy := s.tx.any (fun t => t.begun x p old && t.vc == 3) || Table.get 0 x.fwdOpen (pathNat old * 4 + 3) != 0
    if x.wantsSide == x.vc3Side || busy || l.retry.any (fun f => f.vc == 3) || natAt l.credits 3 < x.vc3Total || !(x.link new).initDone then s
    else
      let x := x.modLink old (fun l => { l with credits := setAt l.credits 3 0 })
      let x := x.modLink new (fun n => { n with credits := setAt n.credits 3 (natAt l.credits 3) })
      s.setPort p.val { x with vc3Side := !x.vc3Side }

end Sys2Proof.Machine
end

