-- ==== Sys2Proof/Machine/Repair.lean ====
section
/-!
DEFINITION. Repair of a failed step, row retirement, persistent die faults, and the end of a partition reset or destroy
(R121, R122, R197, R290, R334, R343, R349, R357 to R362).
-/
namespace Sys2Proof.Machine

/-! ### Persistent die faults (R361, R362) -/

/-- A persistent fault by a condition of Table 17-3: logged, and once only FENCE Pennants to every VERIFIED die and the
actions of a fenced die (R362). -/
def persistentFault (s : State) (cond : BitVec 16) : State :=
  let s := fwRaise s fDiePersistent 0 cond
  if s.skovi.persistent then s
  else
    let s := { s with skovi := { s.skovi with persistent := true } }
    let s := match s.member.id with | some d => fenceEntry (sendFence s 4 d Config.uid) d.toNat | none => s
    fenceSelf s

/-- The strokes of a list within the last 2^28, the present one added (Table 17-3). -/
def recent (s : State) (l : List Word) : List Word :=
  (l.filter (fun x => decide (s.mast.stroke.toNat < x.toNat + 2 ^ 28))) ++ [s.mast.stroke]

/-- Arrays of the die that are retired. -/
def State.retiredArrays (s : State) : Nat :=
  s.cores.foldl (fun n (e : Nat × Core) => n + (e.2.arrays.filter (fun (a : Nat × MArray) => a.2.retired)).length) 0

/-- Condition 2: four or more arrays retired. -/
def checkArrays (s : State) : State := if 4 ≤ s.retiredArrays then persistentFault s 2 else s

/-- Condition 4: two or more ports DOWN for 1,024 strokes. -/
def checkPorts (s : State) : State :=
  let down := (List.range 4).filter (fun p => (s.port p).st == .down && decide ((s.port p).downBeat + 1024 ≤ s.mast.beats))
  if 2 ≤ down.length && !s.skovi.persistent then persistentFault s 4 else s

/-! ### Rows (R121, R122) -/

/-- Whether the bank of a row has a free spare row (R122). -/
def Skovi.spareFor (k : Skovi) (r : Nat) : Bool :=
  decide ((k.retired.filter (fun x => (bankOfRow x).1 == (bankOfRow r).1)).length < (bankOfRow r).2)

/-- A row that has failed three times is retired to a free spare of its bank, or there is none (R121, R122). -/
def retireRow (s : State) (r : Nat) : State :=
  let s := { s with skovi := { s.skovi with rowHits := Table.set 0 s.skovi.rowHits r 0 } }
  if s.skovi.spareFor r then fwRaise { s with skovi := { s.skovi with retired := s.skovi.retired ++ [r] } } fRowRetired 0 0
  else persistentFault (fwRaise s fSpareExhausted 0 0) 1

/-- The rows that have failed three times are retired at the step boundary (R121; assumption 128). -/
def retireRows (s : State) : State :=
  ((s.skovi.rowHits.filter (fun (e : Nat × Nat) => 3 ≤ e.2)).map (fun (e : Nat × Nat) => e.1)).foldl retireRow s

/-! ### Weight granules (R137, R358) -/

/-- Whether a granule of stack memory lies in a committed image's range of a colour, borrowed ranges apart (R358). -/
def State.isWeight (s : State) (col g : Nat) : Bool :=
  (s.part col).images.any (fun (i : Image) => i.st == .committed &&
    i.localRanges.any (fun w => decide (w.range.base ≤ g * 64) && decide (g * 64 + 64 ≤ w.range.base + w.range.len)))

/-- Whether a job's image has a replica to read: one that it declares on a VERIFIED die of the job (R358). -/
def State.replicaOf (s : State) (col : Nat) : Option (BitVec 6) :=
  let p := s.part col
  match (p.image p.job.digest).bind (fun g => g.role.replica) with
  | some d => if (s.die d.toNat).st == .verified && bit p.job.dieSet d.toNat then some d else none
  | none => none

/-- The image of a weight granule, and the granule's place in the golden share (R339, R358). -/
def State.goldenAt (s : State) (col g : Nat) : Option (List Byte × Nat) :=
  (s.part col).images.findSome? (fun (x : Image) =>
    if x.st != .committed then none
    else
      (x.role.image.foldl (fun (acc : Option Nat × Nat) w =>
        (if x.localRanges.contains w && decide (w.range.base ≤ g * 64) && decide (g * 64 + 64 ≤ w.range.base + w.range.len) then some (acc.2 + (g * 64 - w.range.base)) else acc.1,
          acc.2 + w.range.len)) (none, 0)).1.map (fun o => (x.golden, o)))

/-- A refetch of a weight granule begins: the replica holds it at the same DLA (DESIGN CHOICE, assumption 132); the golden share is
read through the Hub at the reference of IMAGE_STAGE. A source that is gone fails at once (R358). -/
def startRefetch (col : Nat) (s : State) (x : Nat × Bool) : State :=
  let who := Purpose.refetch col x.1 x.2
  let none' := { s with skovi := { s.skovi with transfers := s.skovi.transfers ++ [{ num := s.skovi.nextTransfer, who := who, write := false, die := 0, addr := 0, len := 64, failed := true }], nextTransfer := s.skovi.nextTransfer + 1 } }
  if x.2 then
    match s.goldenAt col x.1 with
    | some (r, o) => startTransfer s who false (BitVec.ofNat 6 (leField r 5 1)) (leField r 0 5 + o) 64 []
    | none => none'
  else
    match s.replicaOf col with
    | some d => startTransfer s who false d (x.1 * 64) 64 []
    | none => none'

/-- What has come of one refetch: the granule is rewritten whole, with a fresh check; after a replica the golden share is asked; where
both fail F_REFETCH_FAILED is logged (R358). -/
def endRefetch (col : Nat) (acc : State × Repair) (x : Nat × Bool) : State × Repair :=
  let s := acc.1
  let rest := acc.2.todo.filter (fun y => y != x)
  match (s.transfersOf (.refetch col x.1 x.2)).find? Transfer.done with
  | none => acc
  | some t =>
    let s := dropTransfers s (fun w => w == .refetch col x.1 x.2)
    if !t.failed then ((memWrite s (x.1 * 64) (takePad 64 t.bytes)).1, { acc.2 with todo := rest })
    else if !x.2 then (s, { acc.2 with todo := rest ++ [(x.1, true)] })
    else
      (fwFault s { mkRec s fRefetchFailed (BitVec.ofNat 4 col) none 15 with addr := BitVec.ofNat 40 (x.1 * 64) }, { acc.2 with todo := rest, failed := true })

/-! ### STEP_REPAIR (R121, R197, R349, R357 to R360) -/

/-- The class D records of a job's open step that no repair has taken (R357 step 2). -/
def State.stepRecords (s : State) (col : Nat) (step : BitVec 32) : List LogRec :=
  s.skovi.records.filter (fun (r : LogRec) => r.jobId == s.jobId col && r.step == step)

/-- The replay of a core: prepared under R197, then RUN. -/
def resumeCore (s : State) (c : Nat) : State := (replayCore s c).modCore c Core.runNow

/-- A replay: counters reinitialised, every core of the job resumed, replays counted (R197, R278, R360). -/
def replayJob (s : State) (col : Nat) : State :=
  let s := (s.countersOf col).foldl reinitCounter s
  let s := (s.jobCores col).foldl resumeCore s
  let again := fun (j : Job) => { j with
    st := .replaying, failed := false, fromWatch := false, stepReplays := j.stepReplays + 1, replays := j.replays + 1 }
  fwEvent (s.modPart col (fun p => { p with job := again p.job })) col 1

/-- The decision of R349: a replay while MAX_REPLAY allows one, else the job aborts; an abort whose step had detected errors
of this die counts toward condition 5 of Table 17-3. -/
def decideStep (s : State) (col : Nat) (own : Bool) : State :=
  let p := s.part col
  if p.replay && p.job.stepReplays < p.maxReplay then replayJob s col
  else
    let s := abortJob s col 2 true true
    if !own then s
    else
      let l := recent s s.skovi.aborts
      let s := { s with skovi := { s.skovi with aborts := l } }
      if 3 ≤ l.length then persistentFault s 5 else s

/-- Firmware stops the cores of a job whose watchdog failed (R197). -/
def haltForWatch (s : State) (col : Nat) : State :=
  (s.jobCores col).foldl (fun s c => s.modCore c (fun k => if k.st == .run || k.st == .wait then { k with st := .halted, hold := none } else k)) s

/-- Whether a core of a failed step has settled (R357 step 1). -/
def Core.settledStep (k : Core) : Bool := k.st == .stepHalt || k.st == .halted || k.st == .stopped

/-- The repair begins: the records of the step are taken, and their failed weight granules are to be fetched again (R357 steps 2 and
3). -/
def beginRepair (s : State) (col : Nat) : State × Repair :=
  let cs := s.jobCores col
  let step := match cs.find? (fun c => (s.core c).csr.stepOpen) with | some c => (s.core c).csr.step | none => 0
  let recs := s.stepRecords col step
  let places := (recs.filter (fun (r : LogRec) => r.code == fSmCrc || r.code == fCmParity)).map (fun (r : LogRec) => r.addr.toNat)
  let weights := (places.map (· / 64)).foldl (fun l g => if s.isWeight col g then insertNat g l else l) []
  (takeRecords s col, { own := !recs.isEmpty, todo := weights.map (fun g => (g, (s.replicaOf col).isNone)) })

/-- What is left once every weight is here: rows are retired, and the step is replayed, or the job aborts; a weight that could not be
had makes the image BROKEN (R121, R342, R357 steps 4 to 6, R358). -/
def endRepair (s : State) (col : Nat) (r : Repair) : State :=
  let s := retireRows (s.modPart col (fun p => { p with repair := none }))
  if r.failed then
    let broken := fun (g : Image) => if g.digest == (s.part col).job.digest then { g with st := .broken } else g
    abortJob (s.modPart col (fun p => { p with job := { p.job with lastFault := fRefetchFailed }, images := p.images.map broken })) col 2 false true
  else decideStep s col r.own

/-- The repair goes on: what has come is written, what is not asked for yet is, and with nothing left it ends. -/
def goOnRepair (s : State) (col : Nat) (r : Repair) : State :=
  let x := r.todo.foldl (endRefetch col) (s, r)
  if x.2.todo.isEmpty then endRepair x.1 col x.2
  else
    let s := (x.2.todo.filter (fun y => (x.1.transfersOf (.refetch col y.1 y.2)).isEmpty)).foldl (startRefetch col) x.1
    s.modPart col (fun p => { p with repair := some x.2 })

/-- STEP_REPAIR: after a failed step or a watchdog, once every core of the job here has stopped and the capture queue is
empty: detections are taken, failed weights fetched again, and when they have come rows are retired, and the step is replayed or the
job aborts (R357; assumption 129). -/
def execStepRepair (colour : BitVec 4) (_refetch : Carried) (s : State) : Result :=
  live s fun s =>
    let col := colour.toNat
    let j := (s.part col).job
    if !s.skovi.up || !j.live || !j.failed || (s.part col).resetting then s
    else
      match (s.part col).repair with
      | some r => goOnRepair s col r
      | none =>
        if !s.log.capq.isEmpty || !s.log.waiting.isEmpty then s
        else
          let s := if j.fromWatch then haltForWatch s col else s
          if !(s.jobCores col).all (fun c => (s.core c).settledStep) then s
          else
            let x := beginRepair s col
            goOnRepair x.1 col x.2

/-! ### Partitions that end (R127, R334, R342, R343) -/

/-- An image leaves: its local and state ranges are zero-filled, its lent granules released (R127, R342, R343). -/
def evictImage (s : State) (col : Nat) (g : Image) : State :=
  let s := (g.localRanges.map (fun w => w.range) ++ g.role.state).foldl (fun s (x : Range) => zeroRange s x.base x.len) s
  let s := g.lends.foldl (fun s (l : Lend) =>
    fwRequest s l.die 0x32 (BitVec.ofNat 4 col) 0 (leBytes 32 g.digest.toNat ++ leBytes 2 0)) s
  rebuildRegions (s.modPart col (fun p => { p with images := p.images.filter (fun (x : Image) => x.digest != g.digest) })) col

/-- Steps 2 to 5 of a destroy (R334): images evicted, indices, queues and windows gone, granules and cores zero, everything released;
the mailbox reads OFFLINE (R306). -/
def destroyPart (s : State) (col : Nat) : State :=
  let s := (s.part col).images.foldl (fun s g => evictImage s col g) (uninstallWindows s col)
  let p := s.part col
  let s := { s with queues := s.queues.filter (fun (e : Nat × ReqQueue) => e.2.colour.toNat != col) }
  let s := p.granules.foldl (fun s g => zeroRange s (g * 0x10000000) 0x10000000) s
  let s := (bitsSet p.cores).foldl (fun s c => (launchCore s c).modCore c (fun k => { k with colour := 0, chans := [] })) s
  let s := { s with counters := s.counters.filter (fun (e : Nat × Counter) => !bit p.counters e.1) }
  let s := disarmDie s (fun i _ => decide (p.bookFirst ≤ i) && decide (i < p.bookFirst + p.bookCount))
  let s := { s with parts := Table.drop s.parts col, regions := Table.drop s.regions col }
  s.modMailbox col (fun m => { m with st := .offline })

/-- PARTITION_DRAIN_END: the requests of a colour in reset have all been answered or timed out: the reset reports, and a
destroy goes on (R290 to R294, R334). -/
def execPartitionDrainEnd (colour : BitVec 4) (s : State) : Result :=
  live s fun s =>
    let col := colour.toNat
    let p := s.part col
    if !s.skovi.up || !p.resetting || !s.drainedOf col then s
    else
      let s := finishReset s col
      if p.destroying then destroyPart s col else s

end Sys2Proof.Machine
end

