-- ==== Sys2Proof/Machine/Bunting.lean ====
section
/-!
DEFINITION. Bookings that fire: REFRESH, AUDIT, REFILL, WATCHDOG, TELEMETRY, ADMIT and SIGNAL, and the instructions that
write and read core bookings (R50 to R58, R103, R171, R192, R193, R298, R345, R364, R366).
-/
namespace Sys2Proof.Machine

/-! ### AUDIT: the credit books (R103, R170, R171) -/

/-- The sum of OUT over a window's senders. -/
def State.outOf (s : State) (w : Nat) : Nat := (s.senders.filter (fun e => e.win.toNat == w)).foldl (fun n e => n + e.out) 0

/-- Step 1: R170 for one window; a failure is logged, with the window's number as DETAIL (DESIGN CHOICE, assumption 130), and ends
the job under its fault policy. -/
def auditWindow (s : State) (w : Nat) : State :=
  let x := s.window w
  if !x.valid || x.free + (x.filled - x.released).toNat + s.outOf w = x.len / 256 then s
  else abortJob (fwCharge s fCreditAudit x.colour (BitVec.ofNat 16 w)) x.colour.toNat 2 true true

/-- What a sender returns to FREE at this AUDIT: all of OUT while its die is ABSENT, and what was granted before an absence that
has ended and is not consumed yet (R103). -/
def State.reclaimed (s : State) (e : Sender) : Nat :=
  if e.die == s.ownId then 0 else if (s.die e.die.toNat).st == .absent then e.out else Nat.min e.forfeit e.out

/-- Step 2: what a die that became ABSENT was granted and had not consumed returns to FREE (R103). -/
def reclaimAbsent (s : State) (e : Sender) : State :=
  let u := s.reclaimed e
  let w := s.window e.win.toNat
  (modSender s e.win e.die e.core (fun x => { x with out := x.out - u, settled := x.settled + BitVec.ofNat 32 u, forfeit := 0 })).setWindow e.win.toNat
    { w with free := w.free + u }

/-- Steps 3 and 4: the snapshots. An entry that the audit before did not compare starts its two audits anew (R171). -/
def snapBooks (s : State) : State :=
  let cs := Table.update {} (fun _ (k : Core) => { k with credits := k.credits.map (fun (e : Credit) => { e with snap := [e.received, e.spent, e.returned] }) })
    (s.cores.map (fun (e : Nat × Core) => e.1)) s.cores
  let own := fun (e : Sender) => { e with
    snap := [e.granted, e.settled, e.returned], lastD := if e.compared then e.lastD else none, compared := false }
  { s with senders := s.senders.map own, cores := cs }

/-- An element of a list of counts. -/
def count3 (l : List (BitVec 32)) (i : Nat) : BitVec 32 := (l[i]?).getD 0

/-- D of one entry: in flight, modulo 2^32, less what is already repaired (R171). -/
def Sender.diff (e : Sender) (c : List (BitVec 32)) : BitVec 32 :=
  (count3 e.snap 0 - count3 c 0) + (count3 c 1 - count3 e.snap 1) + (count3 c 2 - count3 e.snap 2) - e.correction

/-- The comparison of one entry: the same nonzero D at two consecutive audits at least 2^18 CCLK apart with all six counts
unchanged is repaired, or ends the job where D is negative or above OUT (R171). DETAIL is the window's number (DESIGN CHOICE,
assumption 130). -/
def compareBooks (s : State) (win : BitVec 8) (die core : BitVec 6) (c : List (BitVec 32)) : State :=
  match s.senders.find? (fun e => e.win == win && e.die == die && e.core == core) with
  | none => s
  | some e =>
    let d := e.diff c
    let six := e.snap ++ c
    let keep := fun (x : Option (BitVec 32 × List (BitVec 32) × Nat)) => modSender s win die core (fun e => { e with lastD := x, compared := true })
    if d = 0 then keep none
    else
      match e.lastD with
      | some (d', six', t) =>
        if d' != d || six' != six || s.cclk < t + 2 ^ 18 then keep (some (d, six, s.cclk))
        else
          let w := s.window win.toNat
          let s := fwCharge s fCreditAudit w.colour win.toNat
          if bit d 31 || e.out < d.toNat then abortJob s w.colour.toNat 2 true true
          else
            (modSender s win die core (fun e => { e with out := e.out - d.toNat, correction := e.correction + d, lastD := none, compared := true })).setWindow win.toNat
              { w with free := w.free + d.toNat }
      | none => keep (some (d, six, s.cclk))

/-- The sender side of an entry on this die is compared at once. -/
def compareOwn (s : State) (e : Sender) : State :=
  if e.die != s.ownId then s
  else match (s.core e.core.toNat).credits.find? (fun x => x.die == s.ownId && x.win == e.win) with
    | some x => compareBooks s e.win e.die e.core x.snap
    | none => s

/-- Split a list into pieces of at most n. -/
def pieces {α : Type} (n : Nat) : Nat → List α → List (List α)
  | 0, _ => []
  | k + 1, l => if l.isEmpty then [] else l.take n :: pieces n k (l.drop n)

/-- One AUDIT_SNAP entry (Table 15-9). -/
def snapEntry (win : BitVec 8) (core : Nat) (l : List (BitVec 32)) : List Byte :=
  [win, BitVec.ofNat 8 core, 0, 0] ++ (List.range 3).flatMap (fun i => leBytes 4 (count3 l i).toNat)

/-- AUDIT_SNAP messages of at most 255 entries to one die (R321). -/
def sendSnaps (s : State) (die : BitVec 6) (side : Byte) (es : List (List Byte)) : State :=
  (pieces 255 (es.length + 1) es).foldl (fun s l =>
    fwRequest s die 0x33 0 0 (leBytes 8 s.mast.stroke.toNat ++ [side] ++ List.replicate 7 0 ++ l.flatten)) s

/-- The snapshots go to the dies at the other end of the books (R171, R321). -/
def exchangeSnaps (s : State) : State :=
  (List.range 64).foldl (fun s d =>
    let die := BitVec.ofNat 6 d
    if die = s.ownId || (s.die d).st != .verified then s
    else
      let rx := (s.senders.filter (fun e => e.die == die)).map (fun e => snapEntry e.win e.core.toNat e.snap)
      let tx := s.cores.flatMap (fun (c : Nat × Core) => (c.2.credits.filter (fun e => e.die == die)).map (fun e => snapEntry e.win c.1 e.snap))
      sendSnaps (sendSnaps s die 0 rx) die 1 tx) s

/-! ### AUDIT: firmware's records against the hardware (R364) -/

/-- The partition of which core c is, 0 for none, by firmware's record. -/
def State.ownerOf (s : State) (c : Nat) : Nat :=
  match s.parts.find? (fun (e : Nat × Partn) => e.2.present && bit e.2.cores c) with
  | some e => e.1
  | none => 0

/-- The partition that owns counter n, 0 for none. -/
def State.counterOwner (s : State) (n : Nat) : Nat :=
  match s.parts.find? (fun (e : Nat × Partn) => e.2.present && bit e.2.counters n) with
  | some e => e.1
  | none => 0

/-- The disagreement of one core, by subcode of Table 17-4. -/
def coreMismatch (s : State) (c : Nat) : List (Nat × Nat) :=
  let k := s.core c
  let o := s.ownerOf c
  let j := (s.part o).job
  if !k.on then []
  else if o = 0 then if k.st != .stopped || (List.range 6).any (fun e => !(k.queue e).isEmpty) then [(1, c)] else []
  else if k.colour.toNat != o then [(2, c)]
  else if j.st == .running && !j.failed && !(s.part o).resetting && (s.jobCores o).contains c && (k.st == .stepHalt || k.st == .halted) then [(3, c)]
  else []

/-- The disagreements of one port: recorded ACTIVE with a path DOWN; or ACTIVE with its sideband up, no flit accepted for 16
strokes, and flits of its own unacknowledged. -/
def portMismatch (s : State) (p : Nat) : List (Nat × Nat) :=
  let x := s.port p
  if bit s.skovi.portsUp p && (x.st == .down || !x.sbUp) then [(4, p)]
  else if x.st == .active && x.sbUp && decide (x.lastFlit + 16 ≤ s.mast.beats) && !x.main.retry.isEmpty then [(5, p)] else []

/-- The disagreement of one counter. -/
def counterMismatch (s : State) (n : Nat) : List (Nat × Nat) :=
  let x := s.counter n
  let o := s.counterOwner n
  if x.valid && (o = 0 || x.colour.toNat != o) then [(7, n)] else []

/-- The units of one kind that no command has touched since the last AUDIT. -/
def State.untouched (s : State) (kind : Nat) (l : List Nat) : List Nat := l.filter (fun n => !s.skovi.touched.contains (kind, n))

/-- Every disagreement of Table 17-4 now; subcodes 6 and 8 cannot arise, since only firmware writes regions and die
bookings (assumption 51). -/
def State.mismatches (s : State) : List (Nat × Nat) :=
  (s.untouched 0 (List.range 48)).flatMap (coreMismatch s) ++ (s.untouched 1 (List.range 4)).flatMap (portMismatch s) ++
    (s.untouched 2 (s.counters.map (fun (e : Nat × Counter) => e.1))).flatMap (counterMismatch s)

/-- The ports that firmware records as ACTIVE: those with both paths up now (assumption 51). -/
def State.portsActive (s : State) : BitVec 4 :=
  BitVec.ofNat 4 ((List.range 4).foldl (fun n p => if (s.port p).st == .active && (s.port p).sbUp then n + 2 ^ p else n) 0)

/-- The action on a mismatch (Table 17-4). -/
def actMismatch (s : State) (x : Nat × Nat) : State :=
  let s := fwRaise s fStateMismatch 0 (BitVec.ofNat 16 x.1)
  let hw := (s.core x.2).colour.toNat
  let own := s.ownerOf x.2
  match x.1 with
  | 1 => (abortJob (coreReset s x.2) hw 2 true true).modCore x.2 (fun k => { k with colour := 0 })
  | 2 => (abortJob (abortJob (coreReset s x.2) hw 2 true true) own 2 true true).modCore x.2 (fun k => { k with colour := BitVec.ofNat 4 own })
  | 3 => s.modPart own (fun p => { p with job := { p.job with failed := true, lastFault := fStepFailed } })
  | 4 => s
  | 5 => portReset s (BitVec.toFin (BitVec.ofNat 2 x.2))
  | 7 =>
    abortJob (s.setCounter x.2 { s.counter x.2 with valid := false }) (s.counterOwner x.2) 2 true true
  | _ => s

/-- R364 at an AUDIT firing: a disagreement seen at two consecutive firings is a mismatch, subcode 5 at its first sighting. The
record of the ports then follows the hardware, but for a disagreement seen once. -/
def reconcile (s : State) : State :=
  let now := s.mismatches
  let hit := now.filter (fun x => x.1 == 5 || s.skovi.mismatch.contains x)
  let once := now.filter (fun x => !hit.contains x)
  let kept := BitVec.ofNat 4 ((List.range 4).foldl (fun n p => if once.contains (4, p) then n + 2 ^ p else n) 0)
  let s := hit.foldl actMismatch { s with skovi := { s.skovi with mismatch := once, touched := [] } }
  { s with skovi := { s.skovi with portsUp := s.portsActive ||| kept } }

/-- AUDIT (R171, R361, R364); none runs while firmware is down. -/
def fireAudit (s : State) : State :=
  if !s.skovi.up then s
  else
    let s := (s.windows.map (fun (e : Nat × Window) => e.1)).foldl auditWindow s
    let s := snapBooks (s.senders.foldl reclaimAbsent s)
    let s := exchangeSnaps (s.senders.foldl compareOwn s)
    checkPorts (reconcile { s with skovi := { s.skovi with auditStroke := s.mast.stroke } })

/-! ### REFILL and WATCHDOG (R50, R298) -/

/-- The colours that a PARAM names: [3:0], or all of 1 to 15 with [4]. -/
def coloursOf (param : Nat) : List Nat := if param / 16 % 2 = 1 then (List.range 15).map (· + 1) else [param % 16]

/-- REFILL of n merged occurrences (R298). -/
def fireRefill (s : State) (param n : Nat) : State :=
  (coloursOf param).foldl (fun s c => s.modPart c (fun p =>
    { p with buckets := Table.update {} (fun _ b => b.refill s.cclk n) (p.buckets.map (fun (e : Nat × Bucket) => e.1)) p.buckets })) s

/-- WATCHDOG of booking i on one core: one that runs or waits and has committed no step since this booking's previous
firing, or since it entered RUN, raises F_WATCHDOG, charged to its job (R50, R349). -/
def watchCore (i : Nat) (s : State) (c : Nat) : State :=
  let k := s.core c
  if !(k.st == .run || k.st == .wait) then s
  else if bit k.committedSince i then s.setCore c { k with committedSince := k.committedSince &&& ~~~ BitVec.ofNat 256 (2 ^ i) }
  else
    let step := if k.csr.stepOpen then k.csr.step else 0
    watchdogJob (raiseD s c fWatchdog 0 0 0) k.colour.toNat step true

/-- WATCHDOG of die booking i (R50). -/
def fireWatchdog (s : State) (i param : Nat) : State :=
  (coloursOf param).foldl (fun s col =>
    ((s.cores.filter (fun (e : Nat × Core) => e.2.colour.toNat == col)).map (fun (e : Nat × Core) => e.1)).foldl (watchCore i) s) s

/-! ### TELEMETRY (R117, R327, R365, R366) -/

/-- The CU counters of a core, with their widths (Table 9-2). -/
def Core.counts (k : Core) : List (Nat × Word) :=
  [(48, k.csr.cycle.setWidth 64), (48, k.csr.issued.setWidth 64), (32, k.csr.heldData.setWidth 64), (32, k.csr.heldQueue.setWidth 64),
   (32, k.csr.heldWait.setWidth 64)]

/-- The counters of a port, width 0 for those that do not wrap (Table 4-10). -/
def Port.counts10 (x : Port) : List (Nat × Word) :=
  let k := x.counts
  [(32, k.crcErr.setWidth 64), (32, k.seqErr.setWidth 64), (32, k.dup.setWidth 64), (32, k.nakTx.setWidth 64), (32, k.nakRx.setWidth 64),
   (32, k.replayed.setWidth 64), (32, k.timerReplay.setWidth 64), (0, k.retrain.setWidth 64), (0, k.stepdown.setWidth 64),
   (32, k.protocol.setWidth 64), (0, x.repairMap.setWidth 64)]

/-- The number of conflict counters: 1,536 CM banks, 9,216 SM banks (R117). -/
def bankCounters : Nat := 1536 + 9216

/-- The cycles that one counter of R117 has counted since the last look: at most one a CCLK; which, is timing that the model
leaves open, so a free value (assumption 9). -/
def State.stallCycles (s : State) (i : Nat) : Nat := Nat.min (Config.freeWord (s.free + i)).toNat (s.cclk - s.mem.countedAt)

/-- n counters of R117, the first of them number lo, after the cycles since the last look. -/
def State.countStalls (s : State) (lo n : Nat) (t : Table (BitVec 32)) : Table (BitVec 32) :=
  (List.range n).foldl (fun t i => Table.set 0 t i (Table.get 0 t i + BitVec.ofNat 32 (s.stallCycles (lo + i)))) t

/-- Whether n counters of R117 pass 2^32 by it. -/
def State.wrapStalls (s : State) (lo n : Nat) (t : Table (BitVec 32)) (w : Table Bool) : Table Bool :=
  (List.range n).foldl (fun w i =>
    Table.set false w (lo + i) (Table.get false w (lo + i) || decide (2 ^ 32 ≤ (Table.get 0 t i).toNat + s.stallCycles (lo + i)))) w

/-- The counters of R117 count the cycles up to now. Nothing but a TELEMETRY snapshot reads them, so they count when one is taken
(assumption 9). -/
def countConflicts (s : State) : State :=
  { s with free := s.free + bankCounters + 48, mem := { s.mem with
      stalls := s.countStalls 0 bankCounters s.mem.stalls
      refreshWait := s.countStalls bankCounters 48 s.mem.refreshWait
      conflictWrap := s.wrapStalls bankCounters 48 s.mem.refreshWait (s.wrapStalls 0 bankCounters s.mem.stalls s.mem.conflictWrap)
      countedAt := s.cclk } }

/-- The values of a TELEMETRY set, in the order of the table that defines them (R327). -/
def State.setValues (s : State) (n : Nat) : List (Nat × Word) :=
  match n with
  | 0 => (List.range bankCounters).map (fun i => (32, (Table.get 0 s.mem.stalls i).setWidth 64)) ++
         (List.range 48).map (fun v => (32, (Table.get 0 s.mem.refreshWait v).setWidth 64))
  | 1 => (List.range 48).flatMap (fun c => (s.core c).counts)
  | 2 => (List.range 4).flatMap (fun p => (s.port p).counts10)
  | 3 => (List.range 64).map (fun i => (0, (Table.get 0x8000 s.therm.temps i).setWidth 64))
  | 4 => [(32, s.mast.stepFwd.setWidth 64), (32, s.mast.missed.setWidth 64), (32, s.mast.discarded.setWidth 64)]
  | _ => []

/-- One counter's 64-bit extension after a snapshot: (value − previous) modulo 2^w is added; INEXACT where more time has
passed than the shortest wrap (R366). -/
def extendOne (late : Bool) (w : Nat) (v : Word) (old : Word × Word × Bool) : Word × Word × Bool :=
  if w = 0 then (v, v, false)
  else (old.1 + BitVec.ofNat 64 ((v.toNat + 2 ^ w - old.2.1.toNat) % 2 ^ w), v, old.2.2 || late)

/-- The fewest CCLK in which a counter of a set can wrap (Table 17-5). -/
def wrapTime (set w : Nat) : Nat := if set = 2 then 2 ^ w + 2 ^ w / 4 else if set = 4 then 1250 * 2 ^ w else 2 ^ w

/-- One value of a set is extended; its key is the set times 2^16 plus its place. -/
def extendKey (set since : Nat) (acc : Table (Word × Word × Bool) × List Word × Nat) (x : Nat × Word) : Table (Word × Word × Bool) × List Word × Nat :=
  let key := set * 65536 + acc.2.2
  let e := extendOne (decide (x.1 ≠ 0) && decide (wrapTime set x.1 < since)) x.1 x.2 (Table.get (0, 0, false) acc.1 key)
  (Table.set (0, 0, false) acc.1 key e, acc.2.1 ++ [e.1], acc.2.2 + 1)

/-- A snapshot of a set: its values extended, its wrap flags cleared (R366). -/
def snapshotSet (s : State) (n : Nat) : State :=
  let s := if n = 0 then countConflicts s else s
  let since := s.cclk - (Table.get (0, 0, []) s.skovi.snapshots n).2.1
  let r := (s.setValues n).foldl (extendKey n since) (s.skovi.telemetry, [], 0)
  let s := { s with skovi := { s.skovi with telemetry := r.1, snapshots := Table.set (0, 0, []) s.skovi.snapshots n (s.mast.stroke, s.cclk, r.2.1) } }
  match n with
  | 0 => { s with mem := { s.mem with conflictWrap := [] } }
  | 1 => { s with cores := Table.update {} (fun _ (k : Core) => { k with csr := { k.csr with wrap := 0 } }) (s.cores.map (fun (e : Nat × Core) => e.1)) s.cores }
  | 2 => [0, 1, 2, 3].foldl (fun s p => s.modPort p (fun x => { x with counts := { x.counts with wrap := 0 } })) s
  | 4 => { s with mast := { s.mast with wrap := 0 } }
  | _ => s

/-- TELEMETRY of a sample set, with EVENT 0x05 for every colour (assumption 53); sets above 4 name no counters. -/
def fireTelemetry (s : State) (n : Nat) : State :=
  if s.skovi.up && n < 5 then (s.parts.map (fun (e : Nat × Partn) => e.1)).foldl (fun s c => fwEvent s c 5) (snapshotSet s n) else s

/-! ### ADMIT and SIGNAL (R51, R193, R274, R345) -/

/-- ADMIT on request queue q by core c: the batch from CUT to the TAIL of the end of the cycle before, at most ROWS entries,
goes to ADMIT_CUT; a queue that is not bound to the core, or whose indices the region table no longer lets its colour read,
gives an empty batch (R25, R51, R193, R345; assumption 52). -/
def fireAdmit (s : State) (c q : Nat) : State :=
  let x := s.rqueue q
  let mine := x.used && x.bound && x.core == c && x.colour == s.colourOf c
  let readable := s.check x.colour.toNat (some c) none false x.base 16 == .ok
  let s := if mine && !readable then raiseCore s c (s.check x.colour.toNat (some c) none false x.base 16).code 0 (BitVec.ofNat 16 q) else s
  let mine := mine && readable
  let tail := x.tailWas
  let head : BitVec 16 := BitVec.ofNat 16 (leNat (s.bytesAt (x.base + 8) 2))
  let beyond := mine && (decide (2 ^ x.depthLog2 < (tail - head).toNat) || decide ((tail - head).toNat < (tail - x.cut).toNat))
  let n := if mine && !beyond then Nat.min (tail - x.cut).toNat x.rows else 0
  let s := if beyond then raiseCore s c fQueueOverrun 0 (BitVec.ofNat 16 q) else s
  let s := if mine && s.detects x.base 16 then detectFor s c x.base 16 else s
  let first := if mine then x.cut.toNat else 0
  let s := if mine then s.setRqueue q { x with cut := x.cut + BitVec.ofNat 16 n } else s
  s.modCore c (fun k =>
    let ovr := if bit k.csr.admitCut 63 then 2 ^ 62 else 0
    { k with csr := { k.csr with newCut := true, admitCut := BitVec.ofNat 64 (first + n * 2 ^ 16 + q * 2 ^ 32 + ovr + 2 ^ 63) } })

/-- SIGNAL of a die booking: a flag of a core, under the target's colour check (R50, R274). -/
def fireDieSignal (s : State) (colour : BitVec 4) (param : Nat) : State :=
  let core := param / 64
  let k := s.core core
  if core < 48 && k.on && (colour == 0 || colour == k.colour) then setFlags s core (BitVec.ofNat 64 (2 ^ (param % 64)))
  else raiseRec s { mkRec s fSignalRefused colour none 13 with detail := BitVec.ofNat 16 core }

/-- What an action does, for n merged occurrences (Table 3-5). -/
def fireAction (s : State) (core : Option Nat) (i : Nat) (b : Booking) (n : Nat) : State :=
  let p := b.param.toNat
  match b.action.toNat with
  | 1 => scheduleSlices s (Nat.min 8192 ((p % 256 + 1) * n))
  | 2 => fireAudit s
  | 3 => fireRefill s p n
  | 4 => fireWatchdog s i p
  | 5 => fireTelemetry s (p % 256)
  | 6 => match core with | some c => fireAdmit s c (p % 64) | none => s
  | 7 => match core with | some c => setFlags s c (BitVec.ofNat 64 (2 ^ (p % 64))) | none => fireDieSignal s b.colour p
  | _ => s

/-! ### Firing (R53 to R57) -/

/-- Occurrences of a booking due at once (R55). -/
def Booking.merged (m : Mast) (b : Booking) : Nat :=
  if b.period = 0 then 1
  else
    let last := if b.phase.toNat ≤ m.phase then m.stroke.toNat else m.stroke.toNat - 1
    1 + (last - b.stroke.toNat) / b.period.toNat

/-- The entry after n occurrences: a one-shot is disarmed, a periodic one advances (R56). -/
def Booking.after (n : Nat) (b : Booking) : Booking :=
  if b.period = 0 then b.disarm
  else { b with stroke := b.stroke + BitVec.ofNat 64 (n * b.period.toNat), past := false, catchup := false }

/-- MISSED grows by the merged occurrences less one (R55, R365). -/
def Mast.countMissed (n : Nat) (m : Mast) : Mast :=
  { m with missed := m.missed + BitVec.ofNat 32 n, wrap := if 2 ^ 32 ≤ m.missed.toNat + n then setBit m.wrap 1 else m.wrap
           newWrap := if 2 ^ 32 ≤ m.missed.toNat + n then setBit m.newWrap 1 else m.newWrap }

/-- A booking at an index of the die, or of a core. -/
def State.booking (s : State) (core : Option Nat) (i : Nat) : Booking :=
  match core with
  | none => Table.get {} s.dieBookings i
  | some c => Table.get {} (s.core c).bookings i

/-- Put it. -/
def setBooking (s : State) (core : Option Nat) (i : Nat) (b : Booking) : State :=
  match core with
  | none => { s with dieBookings := Table.set {} s.dieBookings i b }
  | some c => s.modCore c (fun k => { k with bookings := Table.set {} k.bookings i b })

/-- A firing that is due: a booking of the die or of a core, and the old contents where a write has replaced them (R57). -/
structure Firing where
  core : Option Nat
  index : Nat
  old : Option Booking
deriving DecidableEq, Repr

/-- The contents that fire. -/
def State.firing (s : State) (x : Firing) : Booking := x.old.getD (s.booking x.core x.index)

/-- The old contents of a booking no longer wait to fire. -/
def dropOwed (s : State) (core : Option Nat) (e : Nat × Booking) : State :=
  match core with
  | none => { s with owed := eraseOnce e s.owed }
  | some c => s.modCore c (fun k => { k with owed := eraseOnce e k.owed })

/-- A booking fires: MISSED grows by the occurrences merged, the entry notes the cycle, and the action has its effect
(R55, R57, R58). -/
def fireBooking (s : State) (x : Firing) (b entry : Booking) : State :=
  let n := b.merged s.mast
  let s := setBooking s x.core x.index { entry with firedAt := s.cclk + 1 }
  fireAction { s with mast := s.mast.countMissed (n - 1) } x.core x.index b n

/-- One due booking fires, or is skipped under DROP; old contents fire and leave the entry as it was written (R53 to R58). -/
def fireOne (s : State) (x : Firing) : State :=
  match x.old with
  | some b => fireBooking (dropOwed s x.core (x.index, b)) x b (s.booking x.core x.index)
  | none =>
    let b := s.booking x.core x.index
    if !b.due s.mast && !b.catchup then s
    else if b.skips then setBooking s x.core x.index (b.after (b.merged s.mast))
    else fireBooking s x b { b.after (b.merged s.mast) with late := b.late || b.past }

/-- The order of due bookings: those of the stroke that just ended by phase, then ACTION code, die before core, ascending
index (R42, R56). Bookings left over from an earlier cycle are sorted in with those that have become due since (DESIGN
CHOICE, assumption 111). -/
def firingKey (s : State) (x : Firing) : List Nat :=
  let b := s.firing x
  (if b.catchup then [0, b.phase.toNat] else [1, 0]) ++ [b.action.toNat, if x.core.isNone then 0 else 1, x.index, x.core.getD 0]

/-- The firings due now, in firing order: owed ones, and those of armed bookings that are due. -/
def State.dueBookings (s : State) : List Firing :=
  let of := fun (core : Option Nat) (owed : List (Nat × Booking)) (t : Table Booking) =>
    owed.map (fun e => Firing.mk core e.1 (some e.2)) ++
      (t.filter (fun (e : Nat × Booking) => e.2.valid && (e.2.due s.mast || e.2.catchup))).map (fun e => Firing.mk core e.1 none)
  sortBy (firingKey s) (of none s.owed s.dieBookings ++ s.cores.flatMap (fun (k : Nat × Core) => of (some k.1) k.2.owed k.2.bookings))

/-- At most 8 die bookings and 1 of each core in a cycle (R56). -/
def oneCycle (l : List Firing) : List Firing :=
  l.foldl (fun acc x =>
    let n := (acc.filter (fun (y : Firing) => y.core == x.core)).length
    if n < (if x.core.isNone then 8 else 1) then acc ++ [x] else acc) []

/-- BOOKING_FIRE: the firings of one delivered CCLK edge (R53 to R56). -/
def execBookingFire (s : State) : Result := live s fun s => if s.edge then (oneCycle s.dueBookings).foldl fireOne s else s

/-! ### BOOK, BOOKRD, BOOKRDS (R49, R57, R192) -/

/-- BOOK: the write, or its refusal with F_RESERVED_SET, which disarms the booking; old contents that are due still fire
(R49, R54, R57, R192). -/
def execBook (c : CoreId) (f : Fields) (s : State) : Result :=
  live s (issue c.val false (f.only false true true 0 0x1F) [f.a, f.b] fun s =>
    let i := f.imm.toNat
    let k := s.core c.val
    let x : BitVec 128 := (k.sreg f.b.toNat) ++ (k.sreg f.a.toNat)
    let s := writeCoreBooking s c.val i x
    if bookingBad true x then refuse s c.val fReservedSet else issued s c.val)

/-- BOOKRD: bytes 8 to 15 of a core booking; COLOUR reads zero (Table 3-4, R192). -/
def execBookrd (c : CoreId) (f : Fields) (s : State) : Result :=
  live s (issue c.val false (f.only true false false 0 0x1F) [f.d] fun s =>
    let v := (s.booking (some c.val) f.imm.toNat).high
    s.modCore c.val (fun k => (k.setSreg f.d.toNat v).advance false))

/-- BOOKRDS: bytes 0 to 7 of a core booking, the STROKE (R192). -/
def execBookrds (c : CoreId) (f : Fields) (s : State) : Result :=
  live s (issue c.val false (f.only true false false 0 0x1F) [f.d] fun s =>
    let v := (s.booking (some c.val) f.imm.toNat).stroke
    s.modCore c.val (fun k => (k.setSreg f.d.toNat v).advance false))

end Sys2Proof.Machine
end

