-- ==== Sys2Proof/Machine/Carry.lean ====
section
/-!
DEFINITION. MSG flits received and sent: sequence checks, messages assembled at their destination, forwarding, the choice of
the next flit, and requests that end without an answer (R66 to R72, R75 to R79, R87, R88, R103, R301).
-/
namespace Sys2Proof.Machine

/-! ### Answers -/

/-- The answer to a request, from its destination's ID to its source on VC1, or on VC3 for MGMT; a source that is ABSENT gets
none, unless SB_REACH still lets VC3 go (R77, R78, R88, R103; assumption 48). -/
def answerMsg (s : State) (m : Msg) (op : BitVec 4) (status : BitVec 4) (data : List Byte) : State :=
  let e := s.die m.src.toNat
  if e.st == .absent && !(op == opMgmt && e.sbReach) then s
  else send s { src := m.dst, dst := m.src, colour := m.colour, op := op, addr := m.addr, tag := m.tag, win := 0, winv := false,
                status := status, ll := false, data := data, bad := false }

/-- The response operation of a request (Table 4-5). -/
def answerOp (op : BitVec 4) : BitVec 4 := if op == opRead then opReadData else opWriteAck

/-- Whether an operation is a VC0 request. -/
def isRequest (op : BitVec 4) : Bool := op == opRead || op == opWrite || op == opLedger

/-! ### Reception at the destination (R66 to R69, R411) -/

/-- The rules of R68 that a flit breaks by itself. -/
def flitBreaks (f : Flit) : Bool :=
  decide (7 ≤ f.op.toNat) || f.vc.toNat != vcOf f.op || decide (6 ≤ f.status.toNat) || (isRequest f.op && f.status != 0) ||
  (f.ll && !(f.op == opMgmt && f.vc == 3 && f.dst == 0)) || f.rsvA != 0 || f.rsvB != 0 || f.rsvT != 0 || decide (224 < f.len.toNat) ||
  (f.op == opCtrl && !(f.first && f.last))

/-- Whether a MGMT message has an MTYPE that this die takes: those of R411, or a Hub's message to a mailbox window. -/
def State.mtypeOk (s : State) (m : Msg) : Bool :=
  let t := (m.data.headD 0).toNat
  t == 0x01 || t == 0x10 || t == 0x11 || t == 0x20 || t == 0x21 || (decide (0x30 ≤ t) && decide (t ≤ 0x35)) ||
  ((s.die m.src.toNat).role == 1 && decide (0xF000100000 ≤ m.addr.toNat) && decide (m.addr.toNat < 0xF000200000))

/-- A flit takes its place in the message in progress: what still fits goes in, and the first broken rule ends it (R68,
R69). -/
def RxPart.take (r : RxPart) (f : Flit) : RxPart × Bool :=
  if r.msg.bad then ({ r with total := r.total + f.len.toNat }, false)
  else
    let got := takePad f.len.toNat f.payload
    let room := if r.msg.op == opWrite || r.msg.op == opLedger then 4096 - r.msg.addr.toNat % 4096 - r.msg.data.length else 2 ^ 20
    let wrong := flitBreaks f || (!f.first && f.addr.toNat != r.nextAddr)
    let beyond := decide (room < got.length)
    let data := if wrong then r.msg.data else r.msg.data ++ got.take room
    ({ r with total := r.total + f.len.toNat, msg := { r.msg with data := data, bad := wrong || beyond }, nextAddr := f.addr.toNat + f.len.toNat }, wrong || beyond)

/-- The message in progress on a path and VC of a port. -/
def State.rxPart (s : State) (p : PortId) (path : Path) (vc : Nat) : Option RxPart :=
  Table.get none (s.port p.val).rx (pathNat path * 4 + vc)

/-- Set it. -/
def setRx (s : State) (p : PortId) (path : Path) (vc : Nat) (r : Option RxPart) : State :=
  s.modPort p.val (fun x => { x with rx := Table.set none x.rx (pathNat path * 4 + vc) r })

/-- Whether a whole WRITE or LEDGER is acknowledged as its last flit is accepted: its checks pass and its entry has EA = 1; never
of colour 0 nor in control space (R135, R143). -/
def State.acksEarly (s : State) (r : RxPart) : Bool :=
  let m := r.msg
  let a := m.addr.toNat
  let whole := m.op == opWrite || (m.op == opLedger && a % 16 == 0 && m.data.length % 16 == 0)
  whole && !m.bad && r.total != 0 && m.colour != 0 && !s.halted && (s.die m.src.toNat).st != .absent &&
    !(s.part m.colour.toNat).resetting && checkPage s m == .ok &&
    (match s.regionAt m.colour.toNat (a / 4096 * 4096) 4096 with | some e => e.ea | none => false)

/-- A message is whole at its destination: a request waits to be performed or answered, its acknowledgement gone where its
entry lets it go early; a broken one of another kind or an MGMT of unknown MTYPE is discarded (R68, R143, R411). -/
def messageDone (s : State) (p : PortId) (path : Path) (vc : Nat) (r : RxPart) : State :=
  let m := r.msg
  if m.bad && !isRequest m.op then freeBuffers s p path vc 1
  else if m.op == opMgmt && !s.mtypeOk m then protocolError (freeBuffers s p path vc 1) p m.colour m.src
  else
    let early := s.acksEarly r
    let s := { s with arrived := s.arrived ++ [{ msg := m, port := p, path := path, flits := 1, vc := vc, done := r.done, total := r.total, hurt := r.hurt, acked := early }] }
    if early then answerMsg s m opWriteAck 0 [] else s

/-! ### Forwarding (R69, R77) -/

/-- A new message begins on an input and VC while an earlier one has not ended: of a forwarded one nothing more is sent; one
for this die is logged and counted, gets no answer, and keeps what was performed (R69). -/
def endUnfinished (s : State) (p : PortId) (path : Path) (vc : Nat) : State :=
  match s.rxPart p path vc with
  | none => s
  | some r =>
    if !r.fwd then protocolError (setRx s p path vc none) p r.msg.colour r.msg.src
    else if r.dropRest then s
    else
      let code := inputCode p path
      let shut := fun (x : Port) =>
        { x with fwdOpen := x.fwdOpen.filter (fun e => !(e.2 == code && e.1 % 4 == vc && Table.get 0 x.fwdNum e.1 == r.num)) }
      [0, 1, 2, 3].foldl (fun s q => s.modPort q shut) (dropMsgFlits s r.num)

/-- A flit for this die: it opens, continues or ends a message; its receive buffer frees once it is in its message, the last
one's when the message is taken (R68, R69, R72; assumption 49). -/
def flitHere (s : State) (p : PortId) (path : Path) (f : Flit) : State :=
  let vc := f.vc.toNat
  let start : Option RxPart :=
    if f.first then some { msg := { f.msg with data := [] }, nextAddr := 0, fwd := false }
    else match s.rxPart p path vc with | some r => if r.fwd then none else some r | none => none
  match start with
  | none => protocolError (freeBuffers (setRx s p path vc none) p path vc 1) p f.colour f.src
  | some r =>
    let n := r.take f
    let s := if n.2 then protocolError s p f.colour f.src else s
    if f.last then messageDone (setRx s p path vc none) p path vc n.1
    else freeBuffers (setRx s p path vc (some n.1)) p path vc 1

/-- Whether a flit cannot be forwarded: HOPS at its limit, or DST ABSENT; VC3 still follows SB_REACH (R77, R103). -/
def State.unroutable (s : State) (f : Flit) : Bool :=
  let e := s.die f.dst.toNat
  f.hops == 7 || (e.st == .absent && !(f.vc == 3 && e.sbReach))

/-- A flit for another die waits in the crossbar with HOPS + 1, or is dropped: the first flit of a request is answered
NO_ROUTE, and what follows is dropped unanswered (R77). -/
def flitThrough (s : State) (p : PortId) (path : Path) (f : Flit) : State :=
  let vc := f.vc.toNat
  let old := match s.rxPart p path vc with | some r => if r.fwd && !f.first then some r.num else none | none => none
  let num := old.getD s.msgs
  let dropping := match s.rxPart p path vc with | some r => r.fwd && r.dropRest && !f.first | none => false
  let part := fun (d : Bool) => if f.last then none else some ({ msg := f.msg, nextAddr := 0, fwd := true, dropRest := d, num := num } : RxPart)
  if dropping || s.unroutable f then
    let s := if !dropping && f.first && f.vc == 0 && isRequest f.op then answerMsg s f.msg (answerOp f.op) 1 [] else s
    setRx (freeBuffers s p path vc 1) p path vc (part true)
  else
    let t : TxMsg := { msg := f.msg, port := none, fwd := some (p, path, { f with hops := f.hops + 1 }), num := num }
    setRx { s with tx := s.tx ++ [t], msgs := if old.isNone then s.msgs + 1 else s.msgs } p path vc (part false)

/-- An accepted MSG flit: a FIRST ends what its input had not finished; then it is consumed here, forwarded, or dropped by a
die that has no ID yet (R69, R77, R98). -/
def takeFlit (s : State) (p : PortId) (path : Path) (f : Flit) : State :=
  let s := if f.first then endUnfinished s p path f.vc.toNat else s
  if f.vc != 3 && s.member.id.isNone then freeBuffers s p path f.vc.toNat 1
  else if f.ll || s.member.id == some f.dst then flitHere s p path f
  else flitThrough s p path f

/-! ### Sequence and CRC (R67, R72, R79) -/

/-- The NAK of R79, at most once per expected sequence in 128 CCLK. -/
def sendNak (s : State) (p : PortId) (path : Path) : State :=
  let l := (s.port p.val).link path
  let again := match l.lastNak with | some (e, t) => e == l.expect && decide (s.cclk < t + 128) | none => false
  if again then s
  else
    let s := countPort (putFlit s p path (bareFlit 2 0 l.expect [])) p 3
    s.modPort p.val (fun x => x.modLink path (fun l => { l with lastNak := some (l.expect, s.cclk) }))

/-- A MSG flit with a good CRC: accepted in sequence where a receive buffer is free, discarded as a duplicate, or discarded
with a NAK; one that finds no buffer resets the port (R72, R79). -/
def sequenced (s : State) (p : PortId) (path : Path) (f : Flit) : State :=
  let x := s.port p.val
  let l := x.link path
  let back := (l.expect - f.seq).toNat
  if f.seq = l.expect then
    if natAt (bufferCounts path) f.vc.toNat ≤ natAt x.rxHeld f.vc.toNat then portReset (protocolError s p f.colour f.src) p
    else
      let s := s.setPort p.val { x.modLink path (fun l => { l with expect := l.expect + 1, ackDue := true }) with
        rxHeld := setAt x.rxHeld f.vc.toNat (natAt x.rxHeld f.vc.toNat + 1) }
      takeFlit (heard s p path) p path f
  else if back ≤ 256 then
    countPort (s.modPort p.val (fun x => x.modLink path (fun l => { l with ackDue := true }))) p 2
  else sendNak (countPort s p 1) p path

/-- Whether flits arrive on a path at all: a mainband that trains or is ACTIVE, or a sideband that is up (R66, R86). -/
def Port.listens (x : Port) (path : Path) : Bool :=
  match path with
  | .main => x.st == .training || x.st == .active
  | .side => x.sbUp && x.st != .disabled

/-- MSG_FLIT_RECEIVE: by CRC and sequence (R79); a bad CRC counts while the port trains, too (R86); a good flit of a reserved
FTYPE gives only its trailer and is logged, and confirms no INIT (R64, R67); on a path that is not up it is discarded (R66). -/
def execMsgFlitReceive (p : PortId) (path : Path) (flit : Flit) (s : State) : Result :=
  if flit.payload.length ≠ 224 then .fault (.illFormed "MSG_FLIT_RECEIVE")
  else awake s fun s =>
    let s := if flit.good && decide (flit.ftype.toNat ≤ 2) then tryActive (confirmInit s p path) p path else s
    if !(s.port p.val).carries path then (if !flit.good && (s.port p.val).listens path then countPort s p 0 else s)
    else if !flit.good then sendNak (countPort s p 0) p path
    else
      let s := if flit.ftype = 3 then s else takeTrailer s p path flit.trailer
      match flit.ftype.toNat with
      | 1 => sequenced s p path flit
      | 0 | 2 | 3 => s
      | _ => protocolError s p flit.colour flit.src

/-! ### Sending (R72, R75, R301) -/

/-- Whether a forwarded message of an input is in progress on this output (R69). -/
def Port.carriesOn (x : Port) (num : Nat) (q : PortId) (w : Path) (vc : Nat) : Bool :=
  [vc, 4 + vc].any (fun key => Table.get 0 x.fwdOpen key == inputCode q w && Table.get 0 x.fwdNum key == num)

/-- The port on which a queued message or flit leaves: the one it waits for, the one where its message is in progress, or
the one the die table names for its DST; VC3 follows SB_REACH (R76, R77, R103). -/
def State.outPort (s : State) (t : TxMsg) : Option PortId :=
  match t.port with
  | some p => some p
  | none =>
    let open? : Option PortId :=
      match t.fwd with
      | some (q, w, f) =>
        if f.first then none
        else ([0, 1, 2, 3] : List PortId).find? (fun o => (s.port o.val).carriesOn t.num q w f.vc.toNat)
      | none => none
    match open? with
    | some o => some o
    | none =>
      let e := s.die t.msg.dst.toNat
      if e.st != .absent || (t.vc == 3 && e.sbReach) then some e.port else none

/-- Whether the flits of a queued message of this die take tokens of the port's bucket: VC0 and VC1 of a colour, but for the
answers to another die's access of this die's stack memory (R75, R295). -/
def TxMsg.budgeted (t : TxMsg) : Bool :=
  t.fwd.isNone && decide (t.vc < 2) && t.msg.colour != 0 && !(t.vc == 1 && decide (t.msg.addr.toNat < 0x1200000000))

/-- Whether a queued message of this die must wait for tokens to start; one in progress is never stopped (R297). -/
def State.starved (s : State) (p : PortId) (t : TxMsg) : Bool :=
  t.budgeted && t.sent == 0 && (s.bucket t.msg.colour.toNat (bucketKey (2 + p.val) 0)).waits

/-- Whether the next flit of a queued item starts a message (R301). -/
def TxMsg.starts (t : TxMsg) : Bool := match t.fwd with | some (_, _, f) => f.first | none => t.sent == 0

/-- What may leave next on a VC of a path: the message in progress, and else the first of every colour (R69, R76, R85). -/
def State.heads (s : State) (p : PortId) (path : Path) (vc : Nat) : List TxMsg :=
  let x := s.port p.val
  let mine := s.tx.filter (fun t => t.vc == vc && s.outPort t == some p)
  let code := Table.get 0 x.fwdOpen (pathNat path * 4 + vc)
  match mine.find? (fun t => t.begun x p path) with
  | some t => [t]
  | none =>
    if code ≠ 0 then ((mine.find? (fun t => t.fwd.isSome && t.num == Table.get 0 x.fwdNum (pathNat path * 4 + vc))).map (fun t => [t])).getD []
    else if vc = 3 && x.wantsSide != x.vc3Side then []
    else mine.foldl (fun acc t => if acc.any (fun (u : TxMsg) => u.msg.colour == t.msg.colour) then acc else acc ++ [t]) []

/-- Whether a VC may use a path: VC3 on the one that holds its credits, the rest on the mainband of a die that is neither
fenced nor without an ID, and with a link credit in hand (R72, R84, R85, R98, R104). -/
def State.vcOpen (s : State) (p : PortId) (path : Path) (vc : Nat) : Bool :=
  let x := s.port p.val
  decide (0 < natAt (x.link path).credits vc) &&
    (if vc = 3 then x.vc3Side == (path == .side) else path == .main && !s.member.fenced && s.member.id.isSome)

/-- The class of a colour at a port: colour 0 before class 0 (R301). -/
def State.classAt (s : State) (p : PortId) (colour : BitVec 4) : Nat :=
  if colour = 0 then 0 else (s.bucket colour.toNat (bucketKey (2 + p.val) 0)).cls.toNat

/-- The heads of a VC that have tokens, in the order of R301: colour 0, class 0, then classes 1 to 3 by the grants left in
their round, and colours of a class in turn. -/
def State.served (s : State) (p : PortId) (vc : Nat) (l : List TxMsg) : Option TxMsg :=
  let x := s.port p.val
  let l := l.filter (fun t => !s.starved p t)
  let turn := fun (k : Nat) (t : TxMsg) => (t.msg.colour.toNat + 15 - Table.get 0 x.lastColour (vc * 4 + k)) % 16
  let ofClass := fun (k : Nat) => sortBy (fun (t : TxMsg) => [turn k t]) (l.filter (fun t => t.msg.colour != 0 && s.classAt p t.msg.colour == k))
  let left := fun (k : Nat) => decide (Table.get 0 x.grants (vc * 4 + k) < ((s.skovi.weights[k - 1]?).getD 1).toNat)
  if vc = 2 || vc = 3 then l.head?
  else
    match l.find? (fun t => t.msg.colour == 0), (ofClass 0).head? with
    | some t, _ => some t
    | none, some t => some t
    | none, none =>
      match [1, 2, 3].find? (fun k => left k && !(ofClass k).isEmpty), [1, 2, 3].find? (fun k => !(ofClass k).isEmpty) with
      | some k, _ => (ofClass k).head?
      | none, some k => (ofClass k).head?
      | none, none => none

/-- What a VC sends next on a path, if it may send. -/
def State.nextOn (s : State) (p : PortId) (path : Path) (vc : Nat) : Option TxMsg :=
  if s.vcOpen p path vc then s.served p vc (s.heads p path vc) else none

/-- A VC's place in the shares of R75: VC0, VC1, VC3. -/
def shareSlot (vc : Nat) : Nat := if vc = 3 then 2 else vc

/-- The order in which the VCs are tried: VC2 first except after 16 in a row; then VC1, VC0, VC3 by the shares left (R75). -/
def Port.vcOrder (x : Port) : List Nat :=
  let others := [1, 0, 3].filter (fun vc => natAt x.shares (shareSlot vc) != 0) ++ [1, 0, 3]
  if x.vc2Run < 16 then 2 :: others else others ++ [2]

/-- The VC and message or flit that leave next. -/
def State.pick (s : State) (p : PortId) (path : Path) : Option (Nat × TxMsg) :=
  (s.port p.val).vcOrder.findSome? (fun vc => (s.nextOn p path vc).map (fun t => (vc, t)))

/-- The arbiter's records after a flit of a VC and colour left: the shares count flits, the rounds and turns count starts (R75,
R301). -/
def Port.servedVc (x : Port) (vc cls : Nat) (colour : BitVec 4) (start : Bool) (weights : List (BitVec 4)) : Port :=
  if vc = 2 then { x with vc2Run := x.vc2Run + 1 }
  else
    let full := [3, 4, 1]
    let sh := if natAt x.shares (shareSlot vc) = 0 then full else x.shares
    let key := vc * 4 + cls
    let used := Table.get 0 x.grants key
    let fresh := decide (((weights[cls - 1]?).getD 1).toNat ≤ used)
    let g := if !start || colour = 0 || cls = 0 || vc = 3 then x.grants
      else if fresh then Table.set 0 (x.grants.filter (fun e => e.1 / 4 != vc)) key 1 else Table.set 0 x.grants key (used + 1)
    { x with
      vc2Run := 0, shares := setAt sh (shareSlot vc) (natAt sh (shareSlot vc) - 1), grants := g
      lastColour := if !start || vc = 3 then x.lastColour else Table.set 0 x.lastColour key colour.toNat }

/-- A MSG flit leaves for the first time: a credit is spent, the retry buffer holds it (R72, R79, R80). -/
def sendFlit (s : State) (p : PortId) (path : Path) (vc : Nat) (f : Flit) : State :=
  let l := (s.port p.val).link path
  let f := { f with seq := l.txSeq }
  let s := s.modPort p.val (fun x => x.modLink path (fun l => { l with
    txSeq := l.txSeq + 1, retry := l.retry ++ [f], credits := setAt l.credits vc (natAt l.credits vc - 1)
    lastProgress := if l.retry.isEmpty then s.cclk else l.lastProgress }))
  putFlit s p path f

/-- The queued message or flit after one flit of it left (R66, R69, R75, R77, R88). -/
def sendItem (s : State) (p : PortId) (path : Path) (vc : Nat) (t : TxMsg) : State :=
  match t.fwd with
  | some (q, w, f) =>
    let s := freeBuffers { s with tx := eraseOnce t s.tx } q w vc 1
    let key := pathNat path * 4 + vc
    let s := s.modPort p.val (fun x => { x with fwdOpen := Table.set 0 x.fwdOpen key (if f.last then 0 else inputCode q w), fwdNum := Table.set 0 x.fwdNum key (if f.last then 0 else t.num) })
    sendFlit s p path vc f
  | none =>
    let s := if t.budgeted then modBucket s t.msg.colour.toNat (bucketKey (2 + p.val) 0) (Bucket.charge s.cclk 1) else s
    let done := t.sent + 1 == flitCount t.msg.data.length
    let next : TxMsg := { t with port := some p, sent := t.sent + 1 }
    let s := { s with
      tx := if done then eraseOnce t s.tx else mapFirst (fun u => decide (u = t)) (fun _ => next) s.tx
      reqs := s.reqs.map (fun (q : Req) => if isRequest t.msg.op && q.tag == t.msg.tag && q.die == t.msg.dst then { q with port := some p, sentAt := some (q.sentAt.getD s.cclk) } else q) }
    sendFlit s p path vc (t.msg.flit (BitVec.ofNat 2 vc) t.sent 0)

/-- The waits that a port's choice meets: each head of VC0 or VC1 without tokens counts one (R297). -/
def countStarved (s : State) (p : PortId) (path : Path) : State :=
  (s.heads p path 0 ++ s.heads p path 1).foldl (fun s t =>
    if s.starved p t then modBucket s t.msg.colour.toNat (bucketKey (2 + p.val) 0) Bucket.countWait else s) s

/-- FLIT_TRANSMIT: a due replay first; else, while fewer than 256 flits are unacknowledged, the next flit by R75 and R301. -/
def execFlitTransmit (p : PortId) (path : Path) (s : State) : Result :=
  awake s fun s =>
    let x := s.port p.val
    let l := x.link path
    if !x.carries path || 17 ≤ l.replays then s
    else if l.resend ≠ 0 then
      match l.retry[l.retry.length - l.resend]? with
      | some f => putFlit (countPort (s.setPort p.val (x.setLink path { l with resend := l.resend - 1 })) p 5) p path f
      | none => s
    else if 256 ≤ l.retry.length then s
    else
      let s := countStarved s p path
      match s.pick p path with
      | none => s
      | some (vc, t) =>
        let s := s.modPort p.val (fun x => x.servedVc vc (s.classAt p t.msg.colour) t.msg.colour t.starts s.skovi.weights)
        sendItem s p path vc t

/-- QUEUED_MESSAGE_REROUTE: what none of whose flits has left waits for a route; where its DST is ABSENT it is dropped, a
request of this die completes with NO_ROUTE, and a forwarded request is answered NO_ROUTE (R77, R87, R103). -/
def execQueuedMessageReroute (s : State) : Result :=
  awake s fun s =>
    match s.tx.find? (fun t => t.port.isNone && (s.outPort t).isNone) with
    | none => s
    | some t =>
      let s := { s with tx := eraseOnce t s.tx }
      match t.fwd with
      | none =>
        match s.reqs.find? (fun q => isRequest t.msg.op && q.tag == t.msg.tag && q.die == t.msg.dst) with
        | some q => settle s q 1 []
        | none => s
      | some (q, w, f) =>
        let vc := f.vc.toNat
        let s := freeBuffers s q w vc 1
        let s := if f.first && f.vc == 0 && isRequest f.op then answerMsg s f.msg (answerOp f.op) 1 [] else s
        match s.rxPart q w vc with
        | some r => if r.fwd && !f.last && r.num == t.num then setRx s q w vc (some { r with dropRest := true }) else s
        | none => s

/-- The core that a request belongs to, if it is a core's. -/
def ReqKind.core (k : ReqKind) : Option Nat :=
  match k with
  | .read c _ _ _ _ _ => some c
  | .write c _ _ _ _ => some c
  | .probeDesc c _ _ => some c
  | .fence c => some c
  | .orphan c => some c
  | .bulk _ _ _ _ => none

/-- The unit that a request belongs to (Table 17-2). -/
def ReqKind.unit (k : ReqKind) : Nat := match k with | .fence _ => 0 | .bulk _ _ _ _ => 15 | _ => 6

/-- REQUEST_TIMEOUT: no response 2^17 CCLK after the request's first flit left (DESIGN CHOICE, assumption 112):
F_HALYARD_TIMEOUT, a detected error of the step that sent it, unless that step is gone or Skovi sent it; its TAG waits for the late response
(R88, R162, R175; assumption 114). -/
def execRequestTimeout (tag : BitVec 12) (s : State) : Result :=
  awake s fun s =>
    match s.reqs.find? (fun q => q.tag == tag && !s.arrived.any (fun a => !isRequest a.msg.op && a.msg.tag == tag && a.msg.src == q.die) && (match q.sentAt with | some t => decide (t + 2 ^ 17 ≤ s.cclk) | none => false)) with
    | none => s
    | some q =>
      let s := settle { s with late := s.late ++ [(q.tag, q.die)] } q 6 []
      let s := raiseRec s { mkRec s fHalyardTimeout q.colour q.kind.core q.kind.unit with peer := some q.die }
      match q.kind, q.kind.core with
      | .orphan _, _ | _, none => s
      | _, some c => failStep s c

end Sys2Proof.Machine
end

