-- ==== Sys2Proof/Machine/Firmware.lean ====
section
/-!
DEFINITION. The Skovi firmware image: its 256-byte header and the checks on it (R384, R385, R329; Table 18-8).
-/
namespace Sys2Proof.Machine

/-- BUILD. -/
def imageBuild (img : List Byte) : BitVec 32 := BitVec.ofNat 32 (leField img 4 4)

/-- The interface major of IFLEVEL. -/
def imageMajor (img : List Byte) : Nat := leField img 13 1

/-- PUBKEY, 97 bytes. -/
def imageKey (img : List Byte) : List Byte := takePad 97 (img.drop 16)

/-- SIG, 96 bytes. -/
def imageSig (img : List Byte) : List Byte := takePad 96 (img.drop 128)

/-- The length that the header gives the whole image (R384). -/
def imageLength (img : List Byte) : Nat := 256 + leField img 8 4

/-- FORMAT, reserved bytes, BUILD and LENGTH as Table 18-8 has them, and as many bytes as LENGTH says. -/
def imageForm (img : List Byte) : Bool :=
  leField img 0 4 == 1 && imageBuild img != 0 && decide (1 ≤ leField img 8 4) && decide (leField img 8 4 ≤ 8388352) &&
    leField img 14 2 == 0 && leField img 113 15 == 0 && leField img 224 32 == 0 && img.length == imageLength img

/-- The key hash, the minimum build and the signature (R385 checks 2 to 4). -/
def imageSigned (img : List Byte) : Bool :=
  Config.sha384 (imageKey img) == Config.fwKeyHash && decide (Config.minBuild ≤ imageBuild img) &&
    Config.ecdsaVerify (imageKey img) (Config.sha384 (img.take 128 ++ img.drop 256)) (imageSig img)

/-- The checks of R385. -/
def imageAccepted (img : List Byte) : Bool := imageForm img && imageMajor img == 2 && imageSigned img

end Sys2Proof.Machine
end

