-- ==== Sys2Proof/Machine/Mailbox.lean ====
section
/-!
DEFINITION. Mailbox windows: their registers, the Hub's reads and writes, acceptance, posts, notification, and Skovi's
restart (R303 to R320, R393, R397, R398).
-/
namespace Sys2Proof.Machine

/-! ### The window (R303, R306, R307, R393; Table 15-2) -/

/-- MB_STATE. -/
def MbState.code : MbState → Nat
  | .offline => 0
  | .ready => 1
  | .restarting => 2
  | .resetting => 3

/-- The register of a window at an 8-byte offset; offsets not listed and the write-only DOORBELL read as zero. -/
def Mailbox.word (b : Mailbox) (off : Nat) : Word :=
  match off with
  | 0x8000 => b.info.setWidth 64
  | 0x8008 => BitVec.ofNat 64 (b.st.code + b.mbEpoch.toNat * 2 ^ 32)
  | 0x8010 => b.reqTail.setWidth 64
  | 0x8018 => b.reqSeen.setWidth 64
  | 0x8020 => b.reqHead.setWidth 64
  | 0x8028 => b.rspTail.setWidth 64
  | 0x8030 => b.rspHead.setWidth 64
  | 0x8040 => b.done
  | 0x8048 => b.heartbeat.setWidth 64
  | 0x8050 => b.err.setWidth 64
  | _ => 0

/-- One byte of a window. -/
def Mailbox.byte (b : Mailbox) (off : Nat) : Byte :=
  if off < 0x8000 then Table.get 0 b.ram off else field (b.word (off / 8 * 8)) (off % 8 * 8) 8

/-- n bytes of a window. -/
def Mailbox.bytes (b : Mailbox) (off n : Nat) : List Byte := (List.range n).map (fun i => b.byte (off + i))

/-- A bit of MB_ERR set: 0 TAIL_OVER, 1 HEAD_OVER, 2 BAD_ACCESS, 3 BAD_MESSAGE. -/
def Mailbox.raise (b : Mailbox) (i : Nat) : Mailbox := { b with err := setBit b.err i, newErr := setBit b.newErr i }

/-- Whether request slot i lies from REQ_HEAD to REQ_TAIL − 1 (R306, R307). -/
def Mailbox.skoviOwns (b : Mailbox) (i : Nat) : Bool := decide ((i + 64 - b.reqHead.toNat % 64) % 64 < (b.reqTail - b.reqHead).toNat)

/-- A REQ_TAIL write of t (R307). -/
def Mailbox.writeTail (b : Mailbox) (t : BitVec 16) : Mailbox :=
  if (t - b.reqHead).toNat ≤ 64 && (t - b.reqSeen).toNat ≤ (t - b.reqHead).toNat then { b with reqTail := t } else b.raise 0

/-- An RSP_HEAD write of h (R307). -/
def Mailbox.writeHead (b : Mailbox) (h : BitVec 16) : Mailbox :=
  if (h - b.rspHead).toNat ≤ (b.rspTail - b.rspHead).toNat then { b with rspHead := h } else b.raise 1

/-- Whether an offset is a read-only register of the window. -/
def mbReadOnly (off : Nat) : Bool := ([0x8000, 0x8008, 0x8018, 0x8020, 0x8028, 0x8040, 0x8048] : List Nat).contains off

/-- Whether an offset is a register that the host may write. -/
def mbWritable (off : Nat) : Bool := ([0x8010, 0x8030, 0x8038, 0x8050] : List Nat).contains off

/-- A host write of all 8 bytes of a register (R306, R307, R317). -/
def Mailbox.writeReg (b : Mailbox) (off : Nat) (v : Word) : Mailbox :=
  match off with
  | 0x8010 => b.writeTail (v.setWidth 16)
  | 0x8030 => b.writeHead (v.setWidth 16)
  | 0x8038 => { b with bell := true }
  | 0x8050 => { b with err := w1c b.err b.newErr (v.setWidth 4) }
  | _ => if mbReadOnly off then b.raise 2 else b

/-- A host write of one byte of ring memory: refused in the response ring and in a slot that Skovi owns (R306). -/
def Mailbox.writeRam (b : Mailbox) (x : Nat × Byte) : Mailbox :=
  if 0x4000 ≤ x.1 || b.skoviOwns (x.1 / 256) then b.raise 2 else { b with ram := Table.set 0 b.ram x.1 x.2 }

/-- The part of a host write at one 8-byte offset: a register covered in part keeps its value, and BAD_ACCESS is set
(R393). -/
def writeWord (off : Nat) (data : List Byte) (b : Mailbox) (w : Nat) : Mailbox :=
  if off ≤ w && w + 8 ≤ off + data.length then b.writeReg w (BitVec.ofNat 64 (leNat ((data.drop (w - off)).take 8)))
  else if mbReadOnly w || mbWritable w then b.raise 2
  else b

/-- A host write of bytes to a window (R305, R306, R393). -/
def Mailbox.write (b : Mailbox) (off : Nat) (data : List Byte) : Mailbox :=
  let ring := (((List.range data.length).map (· + off)).zip data).filter (fun (x : Nat × Byte) => x.1 < 0x8000)
  let b := ring.foldl Mailbox.writeRam b
  let first := Nat.max 0x8000 (off / 8 * 8)
  ((List.range ((off + data.length + 7 - first) / 8)).map (fun i => first + 8 * i)).foldl (writeWord off data) b

/-- Whether a window refuses every write: that of a colour with no partition (R306). -/
def State.shut (s : State) (mb : Nat) : Bool := mb != 0 && !(s.part mb).present

/-- A host write to mailbox mb. -/
def hostWrite (s : State) (mb off : Nat) (data : List Byte) : State :=
  s.modMailbox mb (fun b => if s.shut mb then b.raise 2 else b.write off data)

/-! ### Access over VC3 (R136, R304, R305; Table 15-3) -/

/-- The first byte of a mailbox window. -/
def mbBase (mb : Nat) : Nat := 0xF000100000 + mb * 0x10000

/-- The mailbox in whose window an address lies. -/
def mbOf (a : Nat) : Option Nat := if 0xF000100000 ≤ a && a < 0xF000200000 then some ((a - 0xF000100000) / 0x10000) else none

/-- The answer to a mailbox message: MB_READ_DATA to MTYPE 0x11, MB_WRITE_ACK to any other (R304). -/
def mbReply (s : State) (m : Msg) (status : BitVec 4) (data : List Byte) : State :=
  let t : Byte := if leField m.data 0 1 = 0x11 then 0x12 else 0x13
  answerMsg s m opMgmt status ([t, 0, 0, 0, 0, 0, 0, 0] ++ data)

/-- Whether the colour gate admits a message: from a Hub, its first byte in window 0 with colour 0, or in window m with
colour m or 0 (R136). -/
def mbGate (s : State) (m : Msg) : Option Nat :=
  match mbOf m.addr.toNat with
  | some mb => if (s.die m.src.toNat).role == 1 && (m.colour == 0 || m.colour.toNat == mb) then some mb else none
  | none => none

/-- The length that a mailbox message names, none where its form is bad (R304 step 2). -/
def mbForm (m : Msg) (mb : Nat) : Option Nat :=
  let t := leField m.data 0 1
  let n := if t = 0x11 then leField m.data 2 2 else m.data.length - 8
  let rsv := if t = 0x11 then leField m.data 1 1 + leField m.data 4 4 else leField m.data 1 7
  let extra := if t = 0x11 then m.data.length != 8 else decide (m.data.length < 8)
  if m.bad || extra || !(t == 0x10 || t == 0x11) || rsv != 0 || n = 0 || 4096 < n || mbBase mb + 0x10000 < m.addr.toNat + n then none
  else some n

/-- Whether a message goes to a mailbox window: an MGMT with an address in it that is no Pennant (R304, R411). -/
def mbAddressed (m : Msg) : Bool := m.op == opMgmt && leField m.data 0 1 != 1 && (mbOf m.addr.toNat).isSome

/-- Whether a Hub's message is a mailbox message whatever its MTYPE (R411). -/
def State.forMailbox (s : State) (m : Msg) : Bool := mbAddressed m && (s.die m.src.toNat).role == 1

/-- Whether a message for the same mailbox arrived earlier and still waits (R305). -/
def State.mailBehind (s : State) (m : Msg) : Bool :=
  s.arrived.any (fun a => a.msg == m) &&
    (s.arrived.takeWhile (fun a => a.msg != m)).any (fun a => mbAddressed a.msg && mbOf a.msg.addr.toNat == mbOf m.addr.toNat)

/-- A mailbox message, the oldest of its mailbox: gate, form, performance, answer (R304, R305). A Pennant is none (R411). -/
def mailboxMessage (s : State) (m : Msg) : State :=
  if leField m.data 0 1 = 1 || s.mailBehind m then s else
  let s := takeMsg s m
  match mbGate s m with
  | none => mbReply (raiseUnit s fColourRefused m.colour 16 (some m.src) 0) m 3 []
  | some mb =>
    match mbForm m mb with
    | none => mbReply (raiseUnit (s.modMailbox mb (·.raise 3)) fMailboxProtocol m.colour 16 (some m.src) 0) m 5 []
    | some n =>
      let off := m.addr.toNat - mbBase mb
      if leField m.data 0 1 = 0x11 then mbReply s m 0 ((s.mailbox mb).bytes off n)
      else mbReply (hostWrite s mb off (m.data.drop 8)) m 0 []

/-- MB_WRITE (R305). -/
def execMbWrite (m : Msg) (s : State) : Result := live s fun s => mailboxMessage s m

/-- MB_READ (R304). -/
def execMbRead (m : Msg) (s : State) : Result := live s fun s => mailboxMessage s m

/-- REQ_TAIL_WRITE (R307). -/
def execReqTailWrite (mb : Fin 16) (v : Word) (s : State) : Result := live s fun s => hostWrite s mb.val 0x8010 (leBytes 8 v.toNat)

/-- RSP_HEAD_WRITE (R307). -/
def execRspHeadWrite (mb : Fin 16) (v : Word) (s : State) : Result := live s fun s => hostWrite s mb.val 0x8030 (leBytes 8 v.toNat)

/-- DOORBELL (R317). -/
def execDoorbell (mb : Fin 16) (s : State) : Result := live s fun s => hostWrite s mb.val 0x8038 (leBytes 8 0)

/-! ### Acceptance (R310, R317) -/

/-- Accepted and unanswered commands: (REQ_SEEN − REQ_HEAD) − popcount(DONE). -/
def Mailbox.unanswered (b : Mailbox) : Nat := (b.reqSeen - b.reqHead).toNat - popcount b.done

/-- The conditions of R310. -/
def Mailbox.accepts (b : Mailbox) : Bool :=
  b.reqSeen != b.reqTail && b.st == .ready && decide (b.unanswered + (b.rspTail - b.rspHead).toNat < 64)

/-- Accept the command at REQ_SEEN, if R310 lets it. -/
def Mailbox.accept (b : Mailbox) : Mailbox :=
  if b.accepts then
    { b with reqSeen := b.reqSeen + 1,
             accepted := b.accepted ++ [{ idx := b.reqSeen, bytes := b.bytes (b.reqSeen.toNat % 64 * 256) 256 }] }
  else b

/-- COMMAND_ACCEPT: one command (R310). -/
def execCommandAccept (mb : Fin 16) (s : State) : Result :=
  live s fun s => if s.skovi.up then s.modMailbox mb.val Mailbox.accept else s

/-- Accept up to n commands. -/
def acceptMany : Nat → Mailbox → Mailbox
  | 0, b => b
  | n + 1, b => acceptMany n b.accept

/-- MAILBOX_POLL: firmware examines REQ_TAIL and accepts what R310 lets it; the doorbells before it are served (R317). -/
def execMailboxPoll (mb : Fin 16) (s : State) : Result :=
  live s fun s => if s.skovi.up then s.modMailbox mb.val (fun b => acceptMany 64 { b with bell := false }) else s

/-! ### Responses (R308, R312, R317, R397) -/

/-- The 256 bytes of a response slot (Table 15-5). -/
def responseBytes (c : Cmd) (st : BitVec 16) (payload : List Byte) : List Byte :=
  takePad 256 (leBytes 2 st.toNat ++ (c.bytes.drop 2).take 2 ++ leBytes 2 payload.length ++ c.bytes.take 2 ++ leBytes 2 c.idx.toNat ++
    leBytes 6 0 ++ payload)

/-- REQ_HEAD goes past every contiguous slot whose DONE bit is set, clearing it (R308). -/
def passDone : Nat → Mailbox → Mailbox
  | 0, b => b
  | n + 1, b =>
    let i := b.reqHead.toNat % 64
    if bit b.done i then passDone n { b with done := clearBit b.done i, reqHead := b.reqHead + 1 } else b

/-- The post of R308 for a request slot. -/
def Mailbox.post (b : Mailbox) (slot : Nat) : Mailbox := passDone 64 { b with rspTail := b.rspTail + 1, done := setBit b.done slot }

/-- The NONOTIFY flag of a command (Table 15-4). -/
def Cmd.quiet (c : Cmd) : Bool := leField c.bytes 6 1 / 2 % 2 == 1

/-- Whether slot s lies outside REQ_HEAD to REQ_SEEN − 1, or its DONE bit is set (R397). -/
def Mailbox.postBad (b : Mailbox) (slot : Nat) : Bool :=
  !decide ((slot + 64 - b.reqHead.toNat % 64) % 64 < (b.reqSeen - b.reqHead).toNat) || bit b.done slot

/-- Write a response slot and post it; a partition's mailbox records EVENT 0x02, and a notification is owed, without
NONOTIFY (R308, R317). -/
def postResponse (s : State) (mb : Nat) (c : Cmd) (st : BitVec 16) (payload : List Byte) : State :=
  let s := s.modMailbox mb (fun b =>
    let at' := 0x4000 + b.rspTail.toNat % 64 * 256
    let ram := ((responseBytes c st payload).foldl (fun (acc : Table Byte × Nat) x => (Table.set 0 acc.1 acc.2 x, acc.2 + 1)) (b.ram, at')).1
    let b := { b with ram := ram, accepted := b.accepted.filter (fun (x : Cmd) => x.idx != c.idx), finished := b.finished.filter (fun x => x != c.idx) }
    let b := b.post (c.idx.toNat % 64)
    if c.quiet then b else { b with notify := true })
  if c.quiet then s else fwEvent s mb 2

/-- The post of request slot in mailbox mb: ignored and logged under R397; the answer of a command is written first, in the order
of completion (R315). A WARM_RESET that is answered ST_OK starts its 10 ms (R330). -/
def postSlot (s : State) (mb slot : Nat) : State :=
  let b := s.mailbox mb
  if b.postBad slot then raiseUnit s fMailboxProtocol (BitVec.ofNat 4 mb) 16 none 0
  else
    match b.accepted.find? (fun (c : Cmd) => c.idx.toNat % 64 == slot) with
    | some c =>
      match c.resp with
      | some (st, p) =>
        if b.finished.head? != some c.idx then s else
        let s' := postResponse s mb c st p
        if c.opcode = 0x0021 && st = stOk then
          { s' with boot := { s'.boot with warmAt := some (BitVec.ofNat 4 mb, b.rspTail, s.now) } }
        else s'
      | none => s
    | none => s

/-- MB_POST (R397). -/
def execMbPost (mb : Fin 16) (slot : BitVec 6) (s : State) : Result :=
  live s fun s => if s.skovi.up then postSlot s mb.val slot.toNat else s

/-- CCLK in one microsecond (R40). -/
def cclkPerUs : Nat := 1250

/-- MB_NOTIFY: one message to the Hub for the posts since the last, at most one per microsecond; none where no Hub is
present (R317; Table 15-3). -/
def execMbNotify (mb : Fin 16) (s : State) : Result :=
  live s fun s =>
    let b := s.mailbox mb.val
    let early := match b.lastNotify with | some t => decide (s.now < t + cclkPerUs) | none => false
    if !s.skovi.up || !b.notify || early then s
    else
      let data : List Byte := [0x02, BitVec.ofNat 8 mb.val] ++ leBytes 2 b.rspTail.toNat ++ leBytes 4 b.mbEpoch.toNat
      let s := s.setMailbox mb.val { b with notify := false, lastNotify := some s.now }
      match s.hub with
      | some h => send s { plainMsg s h 0 opMgmt (BitVec.ofNat 40 (mbBase mb.val)) 0 with data := data }
      | none => s

/-- HEARTBEAT_TICK: HEARTBEAT grows in every mailbox that is READY or RESETTING (R319). -/
def execHeartbeatTick (s : State) : Result :=
  live s fun s =>
    if !s.skovi.up then s
    else
      let beat := fun (b : Mailbox) => if b.st == .ready || b.st == .resetting then { b with heartbeat := b.heartbeat + 1 } else b
      (List.range 16).foldl (fun s mb => s.modMailbox mb beat) s

/-! ### Skovi restart (R320, R329, R361) -/

/-- Whether FW_ACTIVATE has been answered, and its response posted (R329). -/
def State.activationPosted (s : State) : Bool :=
  s.skovi.activating && !(s.mailbox 0).accepted.any (fun (c : Cmd) => c.opcode == 0x0011 && c.resp.isSome)

/-- The staged build becomes the active one; the one before is kept (R329). -/
def Skovi.takeStaged (k : Skovi) (running : List Byte) : Skovi :=
  match k.staged with
  | some img => { k with
      prev := k.active, prevSha := k.activeSha, prevImage := running
      active := imageBuild img, activeSha := Config.sha384 img, staged := none }
  | none => k

/-- Firmware stops: every mailbox that is not OFFLINE reads RESTARTING, and the transfers at work end (R320). -/
def stopSkovi (s : State) : State :=
  let s := { s with skovi := { s.skovi with up := false, restarting := true, restartAt := s.now, transfers := [], mismatch := [] } }
  (List.range 16).foldl (fun s mb => s.modMailbox mb (fun b => if b.st == .offline then b else { b with st := .restarting })) s

/-- SKOVI_RESTART: on the watchdog or a parity error, logged and counted toward condition 3; or on an activation whose
response has been posted, on the staged build (R320, R329, R361). -/
def execSkoviRestart (cause : RestartCause) (s : State) : Result :=
  live s fun s =>
    if !s.skovi.up then s
    else
      let go := s.activationPosted
      let image := match s.skovi.staged with | some img => if go then img else s.boot.image | none => s.boot.image
      let k := if go then s.skovi.takeStaged s.boot.image else s.skovi
      let switched := { s with skovi := { k with activating := go }, boot := { s.boot with image := image } }
      match cause with
      | .activation => if go then stopSkovi switched else s
      | .watchdog => stopSkovi (raiseUnit { switched with skovi := { switched.skovi with restarts := recent s s.skovi.restarts } } fSkoviWatchdog 0 15 none 0)
      | .parity => stopSkovi (raiseUnit { switched with skovi := { switched.skovi with restarts := recent s s.skovi.restarts } } fSkoviParity 0 15 none 0)

/-- A mailbox after a restart: MB_EPOCH, ST_RESTARTED for every accepted request without a DONE bit but a partition reset
that still runs, then READY, or RESETTING where one runs (R320, and the edges of chapter 15). -/
def restartMailbox (s : State) (mb : Nat) : State :=
  if (s.mailbox mb).st != .restarting then s
  else
    let held := fun (c : Cmd) => c.running && c.opcode == 0x0062
    let cut := (s.mailbox mb).accepted.filter (fun (c : Cmd) => !held c)
    let s := s.modMailbox mb (fun b => { b with mbEpoch := s.skovi.mbEpoch })
    let s := cut.foldl (fun s (c : Cmd) => postResponse (unstage s mb c) mb c stRestarted []) s
    let busy := (s.part mb).resetting && !(s.part mb).resetBy.isEmpty
    s.modMailbox mb (fun b => { b with st := if busy then .resetting else .ready })

/-- Only a partition reset is still to be answered after a restart (chapter 15, edges). -/
def forgetWaiters (s : State) : State :=
  let keep := fun (_ : Nat) (p : Partn) => { p with resetBy := p.resetBy.filter (fun (w : BitVec 4 × BitVec 16 × BitVec 16) => w.2.2 == stResetDone) }
  { s with parts := Table.update {} keep (s.parts.map (fun (e : Nat × Partn) => e.1)) s.parts }

/-- SKOVI_RESTART_DONE (R320); three restarts within 2^28 strokes are a persistent fault (R361). -/
def execSkoviRestartDone (s : State) : Result :=
  live s fun s =>
    if !s.skovi.restarting then s
    else
      let s := { s with skovi := { s.skovi with up := true, restarting := false, activating := false, mbEpoch := s.skovi.mbEpoch + 1, mismatch := [] } }
      let s := (List.range 16).foldl restartMailbox (forgetWaiters s)
      if 3 ≤ s.skovi.restarts.length && !s.skovi.persistent then persistentFault s 3 else s

/-- FW_ACTIVATE_FALLBACK: the new build has not reached READY within 50 ms, so Skovi restarts on the build before it (R329). -/
def execFwActivateFallback (s : State) : Result :=
  live s fun s =>
    if s.skovi.restarting && s.skovi.activating && decide (s.skovi.restartAt + 50000 * cclkPerUs ≤ s.now) then
      let k := s.skovi
      { s with
        skovi := { k with activating := false, restartAt := s.now, active := k.prev, activeSha := k.prevSha }
        boot := { s.boot with image := k.prevImage } }
    else s

end Sys2Proof.Machine
end

