-- ==== Sys2Proof/Machine/Command.lean ====
section
/-!
DEFINITION. How a mailbox command is checked, started and answered: the header, the common rules, serialisation, and bulk
references (R311 to R318, R324 to R326).
-/
namespace Sys2Proof.Machine

/-! ### The header and the payload (R311, R313, R318; Table 15-4) -/

/-- The 16-byte header checked in order; known says that the opcode is known at the negotiated level (R313, R318). -/
def headerStatus (b : List Byte) (known : Bool) : BitVec 16 :=
  if leField b 6 1 / 4 != 0 || leField b 7 1 != 0 || leField b 10 6 != 0 then stBadField
  else if 240 < leField b 4 2 then stBadLength
  else if leField b 8 1 != 2 then stBadLevel
  else if known then stOk else stBadOpcode

/-- The ORDERED flag. -/
def Cmd.ordered (c : Cmd) : Bool := leField c.bytes 6 1 % 2 == 1

/-- Started: performed or waiting for a reset, its response not yet posted. -/
def Cmd.started (c : Cmd) : Bool := c.running || c.resp.isSome

/-- Every opcode of Tables 16-2 and 16-4. -/
def knownOpcodes : List Nat :=
  [0x01, 0x02, 0x10, 0x11, 0x20, 0x21, 0x30, 0x31, 0x40, 0x41, 0x50, 0x51, 0x52, 0x60, 0x61, 0x62, 0x63, 0x70, 0x71, 0x80, 0x81, 0x82,
   0x90, 0xA0, 0xA1] ++
  [0x100, 0x101, 0x102, 0x103, 0x110, 0x111, 0x120, 0x121, 0x122, 0x130, 0x131, 0x140, 0x150, 0x160]

/-! ### Serialisation (R315, R326) -/

/-- The commands that hold every later state-changing command of the die (R326). -/
def exclusiveOpcodes : List Nat := [0x11, 0x21, 0x30, 0x71, 0x41, 0x51, 0x52]

/-- Whether a command is the partition reset or job abort that may join a reset in progress (R294). -/
def resetOpcode (op : Nat) : Bool := op == 0x62 || op == 0x121

/-- Every accepted command of every mailbox. -/
def State.allCmds (s : State) : List (Nat × Cmd) := s.mailboxes.flatMap (fun (e : Nat × Mailbox) => e.2.accepted.map (fun (c : Cmd) => (e.1, c)))

/-- The accepted commands of a mailbox before index i. -/
def Mailbox.before (b : Mailbox) (i : BitVec 16) : List Cmd := b.accepted.takeWhile (fun (c : Cmd) => c.idx != i)

/-- Whether R326 holds a command: one of its colour that changes state is not yet responded, its colour is in reset, or an
exclusive command is at work or waits before it. -/
def State.held (s : State) (mb : Nat) (c : Cmd) : Bool :=
  if c.isQuery || headerStatus c.bytes true != stOk then false
  else
    let others := s.allCmds.filter (fun (x : Nat × Cmd) => !(x.1 == mb && x.2.idx == c.idx))
    let col := c.colour mb
    let changing := others.filter (fun (x : Nat × Cmd) => x.2.started && !x.2.isQuery)
    let sameColour := col != 0 && !(resetOpcode c.opcode && s.resetting col) &&
      (s.resetting col || changing.any (fun (x : Nat × Cmd) => x.2.colour x.1 == col))
    let fence := changing.any (fun (x : Nat × Cmd) => exclusiveOpcodes.contains x.2.opcode) ||
      (mb == 0 && ((s.mailbox 0).before c.idx).any (fun (x : Cmd) => exclusiveOpcodes.contains x.opcode))
    sameColour || fence || (exclusiveOpcodes.contains c.opcode && !changing.isEmpty)

/-- Whether a command may start beside those of its mailbox: at most 8 at once, in acceptance order but for those that R326
holds, and ORDERED alone (R315, R326). -/
def State.canStart (s : State) (mb : Nat) (c : Cmd) : Bool :=
  let b := s.mailbox mb
  let early := b.before c.idx
  decide ((b.accepted.filter Cmd.started).length < 8) && !(c.ordered && !early.isEmpty) && !early.any Cmd.ordered &&
    early.all (fun x => x.started || s.held mb x) && !s.held mb c

/-- Whether a mailbox has a command that may start. -/
def State.hasStart (s : State) (mb : Nat) : Bool := (s.mailbox mb).accepted.any (fun (c : Cmd) => !c.started && s.canStart mb c)

/-- Whether a command may start: the admin mailbox is served before the partition mailboxes, and these in turn, beginning after the
one served last (R315). -/
def State.mayStart (s : State) (mb : Nat) (c : Cmd) : Bool :=
  s.canStart mb c && (mb == 0 || (!s.hasStart 0 &&
    !(List.range ((mb + 14 - s.skovi.lastMb) % 15)).any (fun i => s.hasStart ((s.skovi.lastMb + i) % 15 + 1))))

/-- A partition mailbox has been served. -/
def serve (s : State) (mb : Nat) : State := if mb = 0 then s else { s with skovi := { s.skovi with lastMb := mb } }

/-! ### The common checks (R324) -/

/-- The assigned bits of a request: runs of bytes (first, count), each byte with the mask of its assigned bits. -/
abbrev Layout := List (Nat × Nat × Byte)

/-- The assigned bits of one payload byte. -/
def Layout.mask (l : Layout) (i : Nat) : Byte :=
  l.foldl (fun m (x : Nat × Nat × Byte) => if x.1 ≤ i && i < x.1 + x.2.1 then m ||| x.2.2 else m) 0

/-- The end of the layout. -/
def Layout.stop (l : Layout) : Nat := l.foldl (fun m (x : Nat × Nat × Byte) => Nat.max m (x.1 + x.2.1)) 0

/-- Whether a payload is at least as long as the layout, with every unassigned bit zero (R8, R9, R324). -/
def Layout.fits (l : Layout) (p : List Byte) : Bool :=
  decide (l.stop ≤ p.length) && ((List.range p.length).zip p).all (fun (x : Nat × Byte) => x.2 &&& ~~~ l.mask x.1 == 0)

/-- Whether mailbox mb accepts an opcode; PART_RESET also on mailbox c for colour c (R324 check 1). -/
def mailboxTakes (mb op : Nat) (p : List Byte) : Bool :=
  if op = 0x62 && mb != 0 then leField p 0 1 % 16 == mb else (mb == 0) == decide (op < 0x100)

/-- The command at index i of mailbox mb, accepted and not yet started. -/
def State.waitingCmd (s : State) (mb : Nat) (i : BitVec 16) : Option Cmd :=
  (s.mailbox mb).accepted.find? (fun (c : Cmd) => c.idx == i && !c.started)

/-- Run the command at index i of mailbox mb, if it has this opcode and may start: the header checks, the common checks,
then f on its payload (R313, R324). The mailbox must be served: READY or RESETTING, firmware up (R319, R320). -/
def runCmd (s : State) (mb : Nat) (i : BitVec 16) (op : Nat) (layout : List Byte → Layout) (f : List Byte → State) : State :=
  let b := s.mailbox mb
  if !s.skovi.up || !(b.st == .ready || b.st == .resetting) then s
  else
    match s.waitingCmd mb i with
    | none => s
    | some c =>
      if c.opcode != op || !s.mayStart mb c then s
      else
        let h := headerStatus c.bytes true
        let p := c.payload
        serve (
          if h != stOk then answer s mb i h []
          else if !mailboxTakes mb op p then answer s mb i stDenied []
          else if !(layout p).fits p then answer s mb i stBadField []
          else f p) mb

/-! ### Commands that wait for transfers or for other dies (R314, R322, R340, R347; assumption 129) -/

/-- Change the command at index i of mailbox mb. -/
def modCmd (s : State) (mb : Nat) (i : BitVec 16) (f : Cmd → Cmd) : State :=
  s.modMailbox mb (fun b => { b with accepted := b.accepted.map (fun (c : Cmd) => if c.idx == i then f c else c) })

/-- The command at index i of mailbox mb, at work in phase n. -/
def toPhase (s : State) (mb : Nat) (i : BitVec 16) (n : Nat) : State :=
  modCmd s mb i (fun c => { c with running := true, phase := n, awaited := [], replies := [] })

/-- The command of an opcode at index i of mailbox mb, if it is at work. -/
def State.atWork (s : State) (mb : Nat) (i : BitVec 16) (op : Nat) : Option Cmd :=
  (s.mailbox mb).accepted.find? (fun (c : Cmd) => c.idx == i && c.opcode == op && c.running && c.phase != 0 && c.resp.isNone)

/-- Whether its transfers have ended and every die it asked has answered or been given up. -/
def State.cmdReady (s : State) (mb : Nat) (c : Cmd) : Bool :=
  (s.transfersOf (.cmd mb c.idx)).all Transfer.done && c.awaited.all (fun d => c.replies.any (fun r => r.1 == d))

/-- Whether one of its transfers failed. -/
def State.cmdFailed (s : State) (mb : Nat) (c : Cmd) : Bool := (s.transfersOf (.cmd mb c.idx)).any (·.failed)

/-- A command at work ends. -/
def finishCmd (s : State) (mb : Nat) (c : Cmd) (st : BitVec 16) (payload : List Byte) : State :=
  answer (dropTransfers s (fun w => w == .cmd mb c.idx)) mb c.idx st payload

/-- Run a command that waits: begin it as runCmd does, and go on with next whenever what it waits for has come (DESIGN CHOICE,
assumption 129). -/
def runStaged (s : State) (mb : Nat) (i : BitVec 16) (op : Nat) (layout : List Byte → Layout) (start : List Byte → State)
    (next : State → Cmd → State) : State :=
  if !s.skovi.up then s
  else
    match s.atWork mb i op with
    | some c => if s.cmdReady mb c then next s c else s
    | none =>
      let s := runCmd s mb i op layout start
      match s.atWork mb i op with
      | some c => if s.cmdReady mb c then next s c else s
      | none => s

/-- UNKNOWN_OPCODE_COMMAND: the header checks in order, ending in ST_BAD_OPCODE, with no side effect (R313). -/
def execUnknownOpcodeCommand (mb : Fin 16) (i : BitVec 16) (s : State) : Result :=
  live s fun s =>
    let b := s.mailbox mb.val
    if !s.skovi.up || !(b.st == .ready || b.st == .resetting) then s
    else
      match s.waitingCmd mb.val i with
      | none => s
      | some c =>
        if knownOpcodes.contains c.opcode || !s.mayStart mb.val c then s
        else serve (answer s mb.val i (headerStatus c.bytes false) []) mb.val

/-! ### Bulk references (R314, R325; Table 15-6) -/

/-- The assigned bits of a bulk reference at a payload offset. -/
def bulkBits (o : Nat) : Layout := [(o, 5, 0xFF), (o + 5, 1, 0x3F), (o + 6, 2, 0), (o + 8, 8, 0xFF)]

/-- A bulk reference. -/
structure BulkRef where
  die : BitVec 6
  addr : Nat
  len : Nat
deriving DecidableEq, Repr

/-- The bulk reference at a payload offset, none unless it names the own Hub with a LENGTH below 2^40. -/
def State.bulk (s : State) (p : List Byte) (o : Nat) : Option BulkRef :=
  let die : BitVec 6 := BitVec.ofNat 6 (leField p (o + 5) 1)
  if s.hub == some die && leField p (o + 8) 8 < 2 ^ 40 then some { die := die, addr := leField p o 5, len := leField p (o + 8) 8 } else none

/-- Read the bytes of a bulk reference for a command, which goes on in phase n. -/
def readBulk (s : State) (mb : Nat) (i : BitVec 16) (r : BulkRef) (n : Nat) : State :=
  startTransfer (toPhase s mb i n) (.cmd mb i) false r.die r.addr r.len []

/-- The bytes that a command's transfers have read. -/
def State.cmdBytes (s : State) (mb : Nat) (c : Cmd) : List Byte := (s.transfersOf (.cmd mb c.idx)).flatMap Transfer.bytes

/-- Write a result to a bulk reference: at most LENGTH bytes, nothing for LENGTH 0 (R325). The command's report waits for it. -/
def writeBulk (s : State) (mb : Nat) (i : BitVec 16) (r : BulkRef) (data report : List Byte) : State :=
  let d := data.take r.len
  startTransfer (modCmd (toPhase s mb i 1) mb i (fun c => { c with report := report })) (.cmd mb i) true r.die r.addr d.length d

/-- The answer of a command whose result has been written: its report after g, or ST_BULK_FAILED (R314, R325). -/
def bulkWritten (mb : Nat) (g : State → State) (s : State) (c : Cmd) : State :=
  if s.cmdFailed mb c then finishCmd s mb c stBulkFailed [] else finishCmd (g s) mb c stOk c.report

end Sys2Proof.Machine
end

