-- ==== Sys2Proof/Machine/Admin.lean ====
section
/-!
DEFINITION. The admin commands: reports, firmware, Mast, links, membership, the log, arrays, debug, QoS and power (R327 to
R332, R335, R336; Table 16-2).
-/
namespace Sys2Proof.Machine

/-! ### Numbers of states -/

/-- Mast state in Table 3-3's order. -/
def MastState.code : MastState → Nat
  | .unlocked => 0
  | .locked => 1
  | .holdover => 2
  | .lost => 3

/-- Port state in the order of R399. -/
def PortState.code : PortState → Nat
  | .disabled => 0
  | .training => 1
  | .active => 2
  | .retrain => 3
  | .down => 4

/-- Entry state (Table 16-3). -/
def EntryState.code : EntryState → Nat
  | .absent => 0
  | .provisional => 1
  | .verified => 2

/-- Job state (Table 16-5). -/
def JobState.code : JobState → Nat
  | .none => 0
  | .launching => 1
  | .running => 2
  | .replaying => 3
  | .restarting => 4
  | .ended => 5
  | .aborted => 6

/-- One byte of a number. -/
def b8 (n : Nat) : Byte := BitVec.ofNat 8 n

/-- One bit as a number. -/
def b01 (b : Bool) : Nat := if b then 1 else 0

/-- The colours present, bit c. -/
def State.coloursPresent (s : State) : Nat := (s.parts.filter (fun (e : Nat × Partn) => e.2.present)).foldl (fun n e => n + 2 ^ e.1) 0

/-- The cores on, bit c. -/
def State.coresOn (s : State) : Nat := (s.cores.filter (fun (e : Nat × Core) => e.2.on)).foldl (fun n e => n + 2 ^ e.1) 0

/-- The ports enabled, bit p. -/
def State.portsOn (s : State) : Nat := (List.range 4).foldl (fun n p => n + (if (s.port p).st == .disabled then 0 else 2 ^ p)) 0

/-! ### Reports (R327, R328, R356) -/

/-- IDENTIFY's 24 bytes. -/
def State.identity (s : State) : List Byte :=
  leBytes 2 0x0040 ++ [0xB1, b8 (s.ownId.toNat + 64 * b01 s.member.id.isSome)] ++ leBytes 4 0 ++ leBytes 8 Config.uid.toNat ++
    leBytes 2 0x0204 ++ leBytes 2 0 ++ leBytes 4 s.skovi.active.toNat

/-- IDENTIFY. -/
def execIdentify (mb : Fin 16) (i : BitVec 16) (s : State) : Result :=
  live s fun s => runCmd s mb.val i 0x01 (fun _ => []) fun _ => answer s mb.val i stOk s.identity

/-- FW_INFO's 152 bytes. -/
def State.fwReport (s : State) : List Byte :=
  let staged := match s.skovi.staged with
    | some g => leBytes 4 (imageBuild g).toNat ++ leBytes 48 (Config.sha384 g).toNat
    | none => leBytes 52 0
  leBytes 4 s.skovi.active.toNat ++ leBytes 48 s.skovi.activeSha.toNat ++ staged ++ leBytes 48 Config.fwKeyHash.toNat

/-- FW_INFO. -/
def execFwInfo (mb : Fin 16) (i : BitVec 16) (s : State) : Result :=
  live s fun s => runCmd s mb.val i 0x02 (fun _ => []) fun _ => answer s mb.val i stOk s.fwReport

/-- DIE_STATE's 33 bytes. -/
def State.dieReport (s : State) : List Byte :=
  [b8 s.member.health.toNat, b8 s.mast.st.code] ++ leBytes 2 s.coloursPresent ++ [b8 (b01 s.member.fenced), 0, 0, 0] ++
    leBytes 4 s.member.epoch.toNat ++ leBytes 4 s.skovi.mbEpoch.toNat ++ leBytes 2 s.mem.layersOn.toNat ++ leBytes 6 0 ++
    leBytes 6 s.coresOn ++ leBytes 2 0 ++ [b8 s.portsOn]

/-- DIE_STATE. -/
def execDieState (mb : Fin 16) (i : BitVec 16) (s : State) : Result :=
  live s fun s => runCmd s mb.val i 0x20 (fun _ => []) fun _ => answer s mb.val i stOk s.dieReport

/-- MAST_STATUS's 36 bytes. -/
def Mast.report (m : Mast) : List Byte :=
  [b8 m.st.code, b8 (b01 m.lost + 2 * b01 m.mismatch + 4 * b01 m.regress + 8 * b01 m.hubHold + 16 * m.src.toNat)] ++
    leBytes 2 m.period.toNat ++ leBytes 4 0 ++ leBytes 8 m.stroke.toNat ++ leBytes 2 m.phase ++ leBytes 2 0 ++ leBytes 4 m.capC ++
    leBytes 4 m.stepFwd.toNat ++ leBytes 4 m.missed.toNat ++ leBytes 4 m.discarded.toNat

/-- MAST_STATUS; CLEAR clears MAST_LOST and MAST_REGRESS after the snapshot (R331). -/
def execMastStatus (mb : Fin 16) (i : BitVec 16) (s : State) : Result :=
  live s fun s => runCmd s mb.val i 0x31 (fun _ => [(0, 1, 0x01)]) fun p =>
    let r := s.mast.report
    let s := if leField p 0 1 = 1 then { s with mast := { s.mast with lost := false, regress := false } } else s
    answer s mb.val i stOk r

/-- LINK_STATUS's 48 bytes of a port. -/
def Port.report (x : Port) : List Byte :=
  let k := x.counts
  [b8 x.st.code, if x.x64 then 64 else 32, if x.rate32 then 32 else 16, x.repairMap] ++ leBytes 2 k.retrain.toNat ++
    [b8 k.stepdown.toNat, b8 (b01 x.sbUp)] ++
    ([k.crcErr, k.seqErr, k.dup, k.nakTx, k.nakRx, k.replayed, k.timerReplay, k.protocol] : List (BitVec 32)).flatMap (fun v => leBytes 4 v.toNat) ++
    [k.wrap] ++ leBytes 7 0

/-- LINK_STATUS. -/
def execLinkStatus (mb : Fin 16) (i : BitVec 16) (s : State) : Result :=
  live s fun s => runCmd s mb.val i 0x40 (fun _ => []) fun _ =>
    answer s mb.val i stOk ((List.range 4).flatMap (fun p => (s.port p).report))

/-- A peer table entry (Table 16-3). -/
def DieEntry.report (e : DieEntry) : List Byte :=
  [b8 (e.st.code + 4 * b01 e.fenced + 8 * b01 e.sbReach), b8 (e.port.val + 4 * e.dist.toNat), b8 (e.role.toNat + 16 * e.health.toNat), 0] ++
    leBytes 2 e.part.toNat ++ [e.stepping, 0] ++ leBytes 2 e.ifLevel.toNat ++ [b8 e.count] ++ leBytes 5 0 ++ leBytes 8 e.uid.toNat ++ leBytes 8 0

/-- PEER_TABLE: with REFRESH every route is recomputed, and stays so unless the transfer fails (R15, R328; assumption 129). -/
def execPeerTable (mb : Fin 16) (i : BitVec 16) (_sent : Carried) (s : State) : Result :=
  live s fun s => runStaged s mb.val i 0x50 (fun _ => (0, 1, 0x01) :: bulkBits 8) (fun p =>
    match s.bulk p 8 with
    | none => answer s mb.val i stBadField []
    | some r =>
      let t := if leField p 0 1 = 1 then refreshRoutes s else s
      writeBulk s mb.val i r ((List.range 64).flatMap (fun d => (t.die d).report)) (leBytes 4 t.member.epoch.toNat ++ leBytes 4 2048))
    (fun s c => bulkWritten mb.val (fun s => if leField c.payload 0 1 = 1 then refreshRoutes s else s) s c)

/-- PART_QUERY's 72 bytes. -/
def Partn.report (p : Partn) : List Byte :=
  leBytes 6 p.cores.toNat ++ leBytes 2 0 ++ leBytes 36 (p.granules.foldl (fun n g => n + 2 ^ g) 0) ++ leBytes 16 p.counters.toNat ++
    [b8 p.bookFirst, b8 p.bookCount, b8 p.images.length, b8 p.job.st.code] ++ leBytes 4 p.job.id.toNat ++ leBytes 2 p.lent.length ++
    leBytes 2 ((p.images.flatMap (fun (g : Image) => g.lends.flatMap (fun (l : Lend) => l.granules))).length)

/-- PART_QUERY. -/
def execPartQuery (mb : Fin 16) (i : BitVec 16) (s : State) : Result :=
  live s fun s => runCmd s mb.val i 0x63 (fun _ => [(0, 1, 0x0F)]) fun p =>
    let x := s.part (leField p 0 1)
    if x.present then answer s mb.val i stOk x.report else answer s mb.val i stNotFound []

/-- The values of a telemetry set now, extended to 64 bits, without a snapshot of the firing's kind (R326, R366). -/
def State.extended (s : State) (n : Nat) : List Word :=
  ((s.setValues n).foldl (extendKey n (s.cclk - (Table.get (0, 0, []) s.skovi.snapshots n).2.1)) (s.skovi.telemetry, [], 0)).2.1

/-- TELEMETRY (R327). -/
def execTelemetry (mb : Fin 16) (i : BitVec 16) (_sent : Carried) (s : State) : Result :=
  live s fun s => runStaged s mb.val i 0x80 (fun _ => (0, 1, 0xFF) :: bulkBits 8) (fun p =>
    let n := leField p 0 1
    match s.bulk p 8 with
    | none => answer s mb.val i stBadField []
    | some r =>
      if 5 ≤ n then answer s mb.val i stBadField []
      else
        let s := if n = 0 then countConflicts s else s
        let data := (s.extended n).flatMap (fun (v : Word) => leBytes 8 v.toNat)
        writeBulk s mb.val i r data (leBytes 8 data.length ++ leBytes 8 s.mast.stroke.toNat)) (bulkWritten mb.val id)

/-- The 32 bytes of a log entry (Table 17-2). -/
def LogRec.report (r : LogRec) : List Byte :=
  leBytes 2 r.index.toNat ++ leBytes 2 r.code.toNat ++
    [b8 r.colour.toNat, (match r.core with | some c => b8 (c.toNat + 64) | none => 0), r.unit, r.repeats] ++
    leBytes 8 r.stroke.toNat ++ leBytes 5 r.addr.toNat ++ [match r.peer with | some d => b8 (d.toNat + 64) | none => 0] ++
    leBytes 2 r.detail.toNat ++ leBytes 4 r.jobId.toNat ++ leBytes 4 r.step.toNat

/-- The entries that a read from FIRST gives: from FIRST where it is held, none where it is newer than every held entry,
from the oldest otherwise (R356). -/
def Log.readFrom (l : Log) (first : BitVec 16) (count : Nat) : List LogRec :=
  let back := (l.nextIndex - first).toNat
  if 1 ≤ back && back ≤ l.entries.length then (l.entries.drop (l.entries.length - back)).take count
  else if (first - l.nextIndex).toNat < 2 ^ 15 then []
  else l.entries.take count

/-- ERRLOG_READ (R356). -/
def execErrlogRead (mb : Fin 16) (i : BitVec 16) (_sent : Carried) (s : State) : Result :=
  live s fun s => runStaged s mb.val i 0x81 (fun _ => [(0, 4, 0xFF), (4, 4, 0)] ++ bulkBits 8) (fun p =>
    let n := leField p 2 2
    match s.bulk p 8 with
    | none => answer s mb.val i stBadField []
    | some r =>
      if 512 < n then answer s mb.val i stBadField []
      else
        let l := s.log
        let data := (l.readFrom (BitVec.ofNat 16 (leField p 0 2)) n).flatMap LogRec.report
        let oldest := l.nextIndex - BitVec.ofNat 16 l.entries.length
        writeBulk s mb.val i r data
          (leBytes 2 oldest.toNat ++ leBytes 2 l.entries.length ++ leBytes 2 l.overflow.toNat ++ leBytes 2 data.length)) (bulkWritten mb.val id)

/-- ERRLOG_CLEAR (R356). -/
def execErrlogClear (mb : Fin 16) (i : BitVec 16) (s : State) : Result :=
  live s fun s => runCmd s mb.val i 0x82 (fun _ => []) fun _ =>
    answer { s with log := { s.log with entries := [], overflow := 0 } } mb.val i stOk (leBytes 2 s.log.overflow.toNat)

/-- ARRAY_MAP's 10 bytes of a core, zero above 47. -/
def State.arrayReport (s : State) (c : Nat) : List Byte :=
  if 48 ≤ c then leBytes 10 0
  else
    let a := fun (n : Nat) => Table.get {} (s.core c).arrays n
    leBytes 4 (~~~ (a 0).bad).toNat ++ leBytes 4 (~~~ (a 1).bad).toNat ++
      [b8 (b01 (a 0).retired + 2 * b01 (a 1).retired + 4 * b01 (a 0).retest + 8 * b01 (a 1).retest), 0]

/-- ARRAY_MAP. -/
def execArrayMap (mb : Fin 16) (i : BitVec 16) (s : State) : Result :=
  live s fun s => runCmd s mb.val i 0x90 (fun _ => [(0, 1, 0x3F)]) fun p =>
    answer s mb.val i stOk ((List.range 16).flatMap (fun k => s.arrayReport (leField p 0 1 + k)))

/-! ### Firmware (R329, R330) -/

/-- A firmware image that has been read is verified, and replaces any staged one (R329, R384). -/
def stageFirmware (mb : Nat) (s : State) (c : Cmd) : State :=
  let d := s.cmdBytes mb c
  let g := d.take (imageLength d)
  if s.cmdFailed mb c then finishCmd s mb c stBulkFailed []
  else if imageForm g && imageSigned g then
    finishCmd { s with skovi := { s.skovi with staged := some g } } mb c stOk (leBytes 4 (imageBuild g).toNat ++ leBytes 48 (Config.sha384 g).toNat)
  else finishCmd s mb c stAuthFailed []

/-- FW_STAGE: the image is read from the Hub, verified, and replaces any staged one (R314, R329, R384). -/
def execFwStage (mb : Fin 16) (i : BitVec 16) (_image : Carried) (s : State) : Result :=
  live s fun s => runStaged s mb.val i 0x10 (fun _ => bulkBits 0) (fun p =>
    match s.bulk p 0 with
    | none => answer s mb.val i stBadField []
    | some r => if r.len = 0 || 0x800000 < r.len then answer s mb.val i stBadField [] else readBulk s mb.val i r 1) (stageFirmware mb.val)

/-- FW_ACTIVATE: answered ST_OK, and Skovi restarts on the staged build when that is posted (R329). -/
def execFwActivate (mb : Fin 16) (i : BitVec 16) (s : State) : Result :=
  live s fun s => runCmd s mb.val i 0x11 (fun _ => [(0, 4, 0xFF)]) fun p =>
    match s.skovi.staged with
    | none => answer s mb.val i stBadState []
    | some g =>
      if (imageBuild g).toNat != leField p 0 4 then answer s mb.val i stBadState []
      else if imageMajor g != 2 then answer s mb.val i stConfigMismatch []
      else answer { s with skovi := { s.skovi with activating := true } } mb.val i stOk []

/-- WARM_RESET: refused without FORCE while a partition exists; else answered ST_OK (R330). -/
def execWarmReset (mb : Fin 16) (i : BitVec 16) (s : State) : Result :=
  live s fun s => runCmd s mb.val i 0x21 (fun _ => [(0, 1, 0x01)]) fun p =>
    if leField p 0 1 = 0 && s.parts.any (fun (e : Nat × Partn) => e.2.present) then answer s mb.val i stInUse []
    else answer s mb.val i stOk []

/-! ### Mast and links (R61, R87, R331) -/

/-- A period change for stroke E, not below the present stroke + 2, on a die that is not UNLOCKED (R331, R401). -/
def Mast.canChange (m : Mast) (e : Word) : Bool := m.st != .unlocked && decide (m.stroke.toNat + 2 ≤ e.toNat)

/-- A period change is scheduled; until stroke E firmware books REFRESH with slices enough for both periods (R52, R61;
assumption 42). -/
def schedulePeriod (s : State) (p : BitVec 10) (e : Word) : State :=
  let s := { s with mast := { s.mast with next := p, effective := e, regNext := p, regEffective := e, pend := true } }
  bookRefresh s (refreshSlices (Nat.max p.toNat s.mast.period.toNat))

/-- MAST_CONFIG (R331). -/
def execMastConfig (mb : Fin 16) (i : BitVec 16) (s : State) : Result :=
  live s fun s => runCmd s mb.val i 0x30 (fun _ => [(0, 2, 0xFF), (8, 8, 0xFF)]) fun p =>
    let us := leField p 0 2
    let e : Word := BitVec.ofNat 64 (leField p 8 8)
    if us = 0 || 1000 < us then answer s mb.val i stBadField []
    else if s.mast.canChange e then answer (schedulePeriod s (BitVec.ofNat 10 us) e) mb.val i stOk (leBytes 8 e.toNat)
    else answer s mb.val i stBadState []

/-- LINK_RESET: a port reset (R87). -/
def execLinkReset (mb : Fin 16) (i : BitVec 16) (s : State) : Result :=
  live s fun s => runCmd s mb.val i 0x41 (fun _ => [(0, 1, 0x03)]) fun p =>
    answer (portReset s (BitVec.toFin (BitVec.ofNat 2 (leField p 0 1)))) mb.val i stOk []

/-! ### Fences (R104, R332) -/

/-- The named die of DIE_FENCE or DIE_REINSTATE, or the status that refuses it. -/
def State.named (s : State) (p : List Byte) : Except (BitVec 16) (BitVec 6 × Word) :=
  let d : BitVec 6 := BitVec.ofNat 6 (leField p 0 1)
  let uid : Word := BitVec.ofNat 64 (leField p 8 8)
  if s.member.id == some d || 60 ≤ d.toNat then .error stBadField
  else if (s.die d.toNat).uid != uid then .error stNotFound
  else .ok (d, uid)

/-- DIE_FENCE (R332). -/
def execDieFence (mb : Fin 16) (i : BitVec 16) (s : State) : Result :=
  live s fun s => runCmd s mb.val i 0x51 (fun _ => [(0, 1, 0x3F), (8, 8, 0xFF)]) fun p =>
    match s.named p with
    | .error st => answer s mb.val i st []
    | .ok (d, uid) => answer (fenceEntry (sendFence s 4 d uid) d.toNat) mb.val i stOk []

/-- DIE_REINSTATE: refused for an entry that is not FENCED (R332). -/
def execDieReinstate (mb : Fin 16) (i : BitVec 16) (s : State) : Result :=
  live s fun s => runCmd s mb.val i 0x52 (fun _ => [(0, 1, 0x3F), (8, 8, 0xFF)]) fun p =>
    match s.named p with
    | .error st => answer s mb.val i st []
    | .ok (d, uid) =>
      if !(s.die d.toNat).fenced then answer s mb.val i stBadState []
      else answer (reinstateEntry (sendFence s 5 d uid) d.toNat) mb.val i stOk []

/-! ### QOS_SET (R296, R298, R301) -/

/-- Whether a bucket entry is refused (R296). -/
def qosBad (e : Word) : Bool :=
  bit e 31 || field e 60 4 != 0 || (!bit e 30 && (field e 0 28 == 0 || decide (field e 32 28 < field e 0 28)))

/-- The instances that QOS_SET names: one, or with ALL each core of the partition; a bucket of the colour has one. -/
def qosInstances (p : Partn) (bucket inst : Nat) (all : Bool) : List Nat :=
  if bucket = 1 || bucket = 6 then (if all then bitsSet p.cores else if bit p.cores inst then [inst] else []) else [0]

/-- QOS_SET: an entry that takes effect at the colour's next refill, or the weights W1 to W3 (R296, R298, R301). -/
def execQosSet (mb : Fin 16) (i : BitVec 16) (s : State) : Result :=
  live s fun s => runCmd s mb.val i 0x70 (fun p =>
    [(0, 1, 0x0F), (1, 1, 0x07), (2, 1, 0x7F), (8, if leField p 0 1 % 16 = 0 then 3 else 8, 0xFF)]) fun p =>
    let col := leField p 0 1
    let e : Word := BitVec.ofNat 64 (leField p 8 8)
    let bucket := leField p 1 1
    let inst := leField p 2 1 % 64
    let all := leField p 2 1 / 64 == 1
    if col = 0 then
      let w := (List.range 3).map (fun k => leField p (8 + k) 1)
      if w.all (fun x => decide (1 ≤ x) && decide (x ≤ 15)) then
        answer { s with skovi := { s.skovi with weights := w.map (BitVec.ofNat 4) } } mb.val i stOk []
      else answer s mb.val i stBadField []
    else if bucket = 7 || qosBad e || ((bucket = 1 || bucket = 6) && !all && 48 ≤ inst) then answer s mb.val i stBadField []
    else if !(s.part col).present then answer s mb.val i stNotFound []
    else
      let set := fun (p : Partn) => (qosInstances p bucket inst all).foldl (fun (p : Partn) k =>
        let key := bucketKey bucket k
        { p with buckets := Table.set {} p.buckets key { Table.get {} p.buckets key with nextEntry := some e } }) p
      answer (armRefill (s.modPart col set)) mb.val i stOk []

/-! ### POWER_PLAN (R124 to R126, R335) -/

/-- The granules that lie in stack layer l (R112). -/
def granuleLayer (g : Nat) : Nat := g / 24

/-- Whether a plan removes a layer in which a partition owns a granule or that a committed image uses, or a core that a
partition owns (R124, R125, R342). -/
def planInUse (s : State) (layers : BitVec 12) (cores : BitVec 48) : Bool :=
  s.parts.any (fun (e : Nat × Partn) => e.2.present &&
    (e.2.granules.any (fun g => bit s.mem.layersOn (granuleLayer g) && !bit layers (granuleLayer g)) ||
     e.2.images.any (fun (g : Image) => g.st == .committed && (g.role.layers &&& s.mem.layersOn &&& ~~~ layers) != 0) ||
     (bitsSet e.2.cores).any (fun c => (s.core c).on && !bit cores c)))

/-- A core loses power: nothing of it is kept but the maps of its arrays (R125). -/
def coreDown (s : State) (c : Nat) : State :=
  (launchCore s c).modCore c (fun k => { k with on := false, colour := 0, chans := [] })

/-- A stack layer loses power (R124). -/
def layerDown (s : State) (l : Nat) : State :=
  let s := zeroRange s (l * 0x180000000) 0x180000000
  { s with mem := { s.mem with layersOn := clearBit s.mem.layersOn l } }

/-- The plan's fields as now in force. -/
def State.planReport (s : State) : List Byte :=
  leBytes 2 s.mem.layersOn.toNat ++ leBytes 6 0 ++ leBytes 6 s.coresOn ++ leBytes 2 0 ++ [b8 s.portsOn]

/-- The last step of a plan: its ports are enabled, and the command answers with what is in force (R335). -/
def finishPlan (s : State) (mb : Nat) (c : Cmd) : State :=
  let ports := leField c.payload 16 1
  let s := ([0, 1, 2, 3] : List PortId).foldl (fun s p => if ports / 2 ^ p.val % 2 = 1 then portEnable s p else s) s
  answer s mb c.idx stOk s.planReport

/-- The plan that is being carried out. -/
def State.planCmd (s : State) : Option Cmd := (s.mailbox 0).accepted.find? (fun (c : Cmd) => c.opcode == 0x71 && c.running)

/-- Once no layer and no core of a plan is powering up, the plan's last step runs. -/
def settlePlan (s : State) : State :=
  if s.mem.layersUp != 0 || s.mem.coresUp != 0 then s
  else match s.planCmd with
    | some c => finishPlan s 0 c
    | none => s

/-- POWER_PLAN: cores down, layers down, ports disabled; then layers and cores power up, and at last ports are enabled
(R335). It is refused where it enables no port, or under R124 and R125. -/
def execPowerPlan (mb : Fin 16) (i : BitVec 16) (s : State) : Result :=
  live s fun s => runCmd s mb.val i 0x71 (fun _ => [(0, 1, 0xFF), (1, 1, 0x0F), (8, 6, 0xFF), (16, 1, 0x0F)]) fun p =>
    let layers : BitVec 12 := BitVec.ofNat 12 (leField p 0 2)
    let cores : BitVec 48 := BitVec.ofNat 48 (leField p 8 6)
    let ports := leField p 16 1
    if ports = 0 then answer s mb.val i stBadField []
    else if planInUse s layers cores then answer s mb.val i stInUse []
    else
      let coresUp := cores &&& ~~~ BitVec.ofNat 48 s.coresOn
      let layersUp := layers &&& ~~~ s.mem.layersOn
      let s := ((List.range 48).filter (fun c => (s.core c).on && !bit cores c)).foldl coreDown s
      let s := ((List.range 12).filter (fun l => bit s.mem.layersOn l && !bit layers l)).foldl layerDown s
      let s := ([0, 1, 2, 3] : List PortId).foldl (fun s p => if ports / 2 ^ p.val % 2 = 1 then s else portDisable s p) s
      let s := { s with mem := { s.mem with layersUp := layersUp, coresUp := coresUp } }
      settlePlan (s.modMailbox mb.val (fun b => { b with accepted := b.accepted.map (fun (c : Cmd) => if c.idx == i then { c with running := true } else c) }))

/-- LAYER_POWER_UP_DONE: the layer holds zeros with valid CRCs (R126). -/
def execLayerPowerUpDone (l : Fin 12) (s : State) : Result :=
  live s fun s =>
    if !bit s.mem.layersUp l.val then s
    else
      let s := zeroRange s (l.val * 0x180000000) 0x180000000
      settlePlan { s with mem := { s.mem with layersOn := setBit s.mem.layersOn l.val, layersUp := clearBit s.mem.layersUp l.val } }

/-- CORE_POWER_UP_DONE: after every layer of the plan is up, a core is on, with its CM zeroed (R126, R335). -/
def execCorePowerUpDone (c : CoreId) (s : State) : Result :=
  live s fun s =>
    if !bit s.mem.coresUp c.val || s.mem.layersUp != 0 then s
    else
      let s := (launchCore s c.val).modCore c.val (fun k => { k with on := true })
      settlePlan { s with mem := { s.mem with coresUp := clearBit s.mem.coresUp c.val } }

/-! ### Debug access (R336) -/

/-- CCLK in one second. -/
def cclkPerSec : Nat := 1250000000

/-- DEBUG_CHALLENGE: a new NONCE and the next SEQ replace any open challenge. -/
def execDebugChallenge (mb : Fin 16) (i : BitVec 16) (s : State) : Result :=
  live s fun s => runCmd s mb.val i 0xA0 (fun _ => []) fun _ =>
    if s.dbg.locked then answer s mb.val i stAuthLocked []
    else
      let n := Config.freeNonce s.free
      let q := s.dbg.seq + 1
      answer { s with free := s.free + 1, dbg := { s.dbg with nonce := n, seq := q, challenge := true, issuedAt := s.now } } mb.val i stOk
        (leBytes 8 Config.uid.toNat ++ leBytes 32 n.toNat ++ leBytes 4 q.toNat)

/-- Whether an open challenge stands with this SEQ, not expired. -/
def State.challengeOpen (s : State) (seq : Nat) : Bool :=
  s.dbg.challenge && s.dbg.seq.toNat == seq && decide (s.now < s.dbg.issuedAt + cclkPerSec)

/-- Whether SIG verifies over UID, NONCE, SEQ, LEVEL and colour mask. -/
def State.unlockOk (s : State) (p : List Byte) : Bool :=
  Config.keyHashVerify Config.dbgKeyHash
    (Config.sha384 (leBytes 8 Config.uid.toNat ++ leBytes 32 s.dbg.nonce.toNat ++ leBytes 4 s.dbg.seq.toNat ++ (p.drop 4).take 1 ++ (p.drop 6).take 2))
    ((p.drop 8).take 96)

/-- DEBUG_UNLOCK: a verified request sets LEVEL and the colour mask and closes the challenge; LEVEL 0 locks with SIG zero;
the third failure in a row locks debug commands until warm reset (R336). -/
def execDebugUnlock (mb : Fin 16) (i : BitVec 16) (s : State) : Result :=
  live s fun s => runCmd s mb.val i 0xA1 (fun _ => [(0, 5, 0xFF), (6, 98, 0xFF)]) fun p =>
    let lv := leField p 4 1
    if 2 < lv || (lv = 0 && leField p 8 96 != 0) then answer s mb.val i stBadField []
    else if s.dbg.locked then answer s mb.val i stAuthLocked []
    else if !s.challengeOpen (leField p 0 4) then answer s mb.val i stBadState []
    else if lv = 0 || s.unlockOk p then
      let d := { s.dbg with
        level := BitVec.ofNat 2 lv, mask := BitVec.ofNat 16 (leField p 6 2), challenge := false
        fails := if lv = 0 then s.dbg.fails else 0 }
      answer { s with dbg := d } mb.val i stOk [b8 lv]
    else
      let n := s.dbg.fails + 1
      answer { s with dbg := { s.dbg with fails := n, locked := n == 3 } } mb.val i stAuthFailed []

/-- DEBUG_CHALLENGE_EXPIRY: a challenge closes 1 s after issue (R336, R402). -/
def execDebugChallengeExpiry (s : State) : Result :=
  live s fun s =>
    if s.dbg.challenge && decide (s.dbg.issuedAt + cclkPerSec ≤ s.now) then { s with dbg := { s.dbg with challenge := false } } else s

end Sys2Proof.Machine
end

