-- ==== Sys2Proof/Machine/Partition.lean ====
section
/-!
DEFINITION. Partition create, destroy and reset, and the partition commands for queues, indices, vectors, policy, jobs and
telemetry (R244, R245, R284, R286, R290 to R294, R333, R334, R337, R344 to R350; Table 16-4, Table 16-5).
-/
namespace Sys2Proof.Machine

/-! ### PART_CREATE, PART_DESTROY, PART_RESET (R333, R334, R290, R294) -/

/-- The bits of a number, ascending. -/
def bitsOf (n w : Nat) : List Nat := (List.range w).filter (fun k => n / 2 ^ k % 2 == 1)

/-- Whether some partition owns granule g. -/
def State.granuleOwned (s : State) (g : Nat) : Bool := s.parts.any (fun (e : Nat × Partn) => e.2.present && e.2.granules.contains g)

/-- The counters that no partition owns, ascending. -/
def State.freeCounters (s : State) : List Nat := (List.range 128).filter (fun n => s.counterOwner n == 0)

/-- Whether die booking i belongs to a partition. -/
def State.bookingOwned (s : State) (i : Nat) : Bool :=
  s.parts.any (fun (e : Nat × Partn) => e.2.present && decide (e.2.bookFirst ≤ i) && decide (i < e.2.bookFirst + e.2.bookCount))

/-- The lowest contiguous run of n free die bookings in 32 to 255 (R59). -/
def State.freeRun (s : State) (n : Nat) : Option Nat :=
  (List.range 225).map (· + 32) |>.find? (fun b => decide (b + n ≤ 256) && (List.range n).all (fun k => !s.bookingOwned (b + k)))

/-- MB_INFO of mailbox m (R398). -/
def mbInfo (mb : Nat) : BitVec 24 := BitVec.ofNat 24 (0x0204 + mb * 2 ^ 16 + mb * 2 ^ 20)

/-- A mailbox window zeroed and set READY (R333, R398). -/
def freshMailbox (s : State) (mb : Nat) : Mailbox := { st := .ready, info := mbInfo mb, mbEpoch := s.skovi.mbEpoch }

/-- A partition comes into being (R333; Table 6-4). -/
def createPart (s : State) (col : Nat) (cores : BitVec 48) (granules : List Nat) (counters : List Nat) (first count : Nat) : State :=
  let s := (bitsSet cores).foldl (fun s c => (launchCore s c).modCore c (fun k => { k with colour := BitVec.ofNat 4 col })) s
  let mask : BitVec 128 := BitVec.ofNat 128 (counters.foldl (fun n k => n + 2 ^ k) 0)
  let s := s.setPart col { present := true, cores := cores, granules := granules, counters := mask, bookFirst := first, bookCount := count }
  (rebuildRegions s col).setMailbox col (freshMailbox s col)

/-- PART_CREATE; a region table of more than 64 entries is a shortage (R133, R281, R333). -/
def execPartCreate (mb : Fin 16) (i : BitVec 16) (s : State) : Result :=
  live s fun s => runCmd s mb.val i 0x60 (fun _ => [(0, 1, 0x0F), (8, 6, 0xFF), (16, 38, 0xFF)]) fun p =>
    let col := leField p 0 1
    let cores : BitVec 48 := BitVec.ofNat 48 (leField p 8 6)
    let granules := bitsOf (leField p 16 36) 288
    let n := leField p 52 1
    let k := leField p 53 1
    if col = 0 || 128 < n || 224 < k then answer s mb.val i stBadField []
    else if (s.part col).present then answer s mb.val i stExists []
    else if (bitsSet cores).any (fun c => s.ownerOf c != 0 || !(s.core c).on) ||
        granules.any (fun g => s.granuleOwned g || !bit s.mem.layersOn (granuleLayer g)) then answer s mb.val i stInUse []
    else
      match s.freeRun k with
      | none => answer s mb.val i stNospace []
      | some first =>
        if s.freeCounters.length < n || 64 < (Partn.baseRegions { cores := cores, granules := granules }).length then answer s mb.val i stNospace []
        else
          let s := createPart s col cores granules (s.freeCounters.take n) first k
          answer s mb.val i stOk (leBytes 16 (s.part col).counters.toNat ++ [b8 first])

/-- The command at index i waits for the reset of colour col, which ends it with a status. -/
def waitReset (s : State) (mb : Nat) (i : BitVec 16) (col : Nat) (st : BitVec 16) : State :=
  (s.modMailbox mb (fun b => { b with accepted := b.accepted.map (fun (c : Cmd) => if c.idx == i then { c with running := true } else c) })).modPart col
    (fun p => { p with resetBy := p.resetBy ++ [(BitVec.ofNat 4 mb, i, st)] })

/-- PART_DESTROY: refused while a granule is lent to a VERIFIED borrower; with a job the reset of R290 comes first (R334). -/
def execPartDestroy (mb : Fin 16) (i : BitVec 16) (s : State) : Result :=
  live s fun s => runCmd s mb.val i 0x61 (fun _ => [(0, 1, 0x0F)]) fun p =>
    let col := leField p 0 1
    let x := s.part col
    if !x.present then answer s mb.val i stNotFound []
    else if x.lent.any (fun (l : Nat × BitVec 6 × BitVec 256) => (s.die l.2.1.toNat).st == .verified) then answer s mb.val i stInUse []
    else if x.job.live then
      cutCommands ((beginReset (waitReset s mb.val i col stOk) col 5).modPart col (fun p => { p with destroying := true })) col
    else answer (destroyPart (touch (cutCommands s col) x.units) col) mb.val i stOk []

/-- PART_RESET: the sequence of R290; a second reset joins the first (R294). -/
def execPartReset (mb : Fin 16) (i : BitVec 16) (s : State) : Result :=
  live s fun s => runCmd s mb.val i 0x62 (fun _ => [(0, 1, 0x0F)]) fun p =>
    let col := leField p 0 1
    if !(s.part col).present then answer s mb.val i stBadField []
    else if (s.part col).resetting then waitReset s mb.val i col stResetDone
    else cutCommands (beginReset (waitReset s mb.val i col stResetDone) col 5) col

/-! ### Request queues (R344, R345) -/

/-- Firmware's reads of memory: each failed granule is logged with colour 0, and firmware goes on with the data as read (R120;
assumption 127). -/
def fwReads (s : State) (rs : List (Nat × Nat)) : State := rs.foldl (fun s r => detectRemote s 0 r.1 r.2 none) s

/-- Whether the live job of a colour declares a queue. -/
def Partn.declares (p : Partn) (sel : Role → Bool) : Bool :=
  p.job.live && (match p.image p.job.digest with | some g => sel g.role | none => false)

/-- RQ_CREATE (R344). -/
def execRqCreate (mb : Fin 16) (i : BitVec 16) (s : State) : Result :=
  live s fun s => runCmd s mb.val i 0x110 (fun _ => [(0, 2, 0x3F), (8, 10, 0xFF)]) fun p =>
    let q := leField p 0 1
    let c := leField p 1 1
    let x : ReqQueue := { used := true, colour := BitVec.ofNat 4 mb.val, core := c, base := leField p 8 8, entryLog2 := leField p 16 1, depthLog2 := leField p 17 1 }
    let y := s.rqueue q
    let t := { s with queues := Table.set {} s.queues q x }
    if 48 ≤ c || !bit (s.part mb.val).cores c || x.entryLog2 < 6 || 12 < x.entryLog2 || x.depthLog2 < 1 || 12 < x.depthLog2 ||
        x.base < cmBase c || cmBase c + 0x600000 < x.base + x.bytes then answer s mb.val i stBadField []
    else if y.used && y.colour.toNat != mb.val then answer s mb.val i stInUse []
    else if y.used then answer s mb.val i stExists []
    else if (s.part mb.val).job.live then answer s mb.val i stBusy []
    else if 64 < (regionTable t mb.val (t.part mb.val)).length then answer s mb.val i stNospace []
    else answer (rebuildRegions t mb.val) mb.val i stOk []

/-- RQ_BIND: ROWS is fixed and CUT starts at HEAD, or the binding is discarded; ROWS is checked with UNBIND, too (R324, R344,
R345). -/
def execRqBind (mb : Fin 16) (i : BitVec 16) (s : State) : Result :=
  live s fun s => runCmd s mb.val i 0x111 (fun _ => [(0, 1, 0x3F), (1, 1, 0x01), (2, 2, 0xFF)]) fun p =>
    let q := leField p 0 1
    let rows := leField p 2 2
    let un := leField p 1 1 == 1
    let x := s.rqueue q
    if rows = 0 || 4096 < rows then answer s mb.val i stBadField []
    else if !x.used || x.colour.toNat != mb.val then answer s mb.val i stNotFound []
    else if (s.part mb.val).declares (fun r => r.queues.contains (BitVec.ofNat 6 q)) then answer s mb.val i stBusy []
    else
      let s := if un then s else fwReads s [(x.base + 8, 2)]
      let y : ReqQueue := if un then { x with bound := false, rows := 0, cut := 0 }
        else { x with bound := true, rows := rows, cut := BitVec.ofNat 16 (leNat (s.bytesAt (x.base + 8) 2)) }
      answer (s.setRqueue q y) mb.val i stOk []

/-! ### Indices (R244 to R246, R346; Table 12-2, Table 12-3) -/

/-- The bytes of one element row of n elements of a format, rounded up to 16 (R244); 0 for a reserved format. -/
def indexRow (cfmt n : Nat) : Nat :=
  match cfmt with
  | 0 | 2 => roundUp n 16
  | 4 => roundUp (2 * n) 16
  | 5 => roundUp (ceilDiv n 8) 16
  | _ => 0

/-- The nodes of all levels of a tree below its root. -/
def treeNodes (fanout depth : Nat) : Nat := ((List.range depth).map (fun l => fanout ^ (l + 1))).foldl (· + ·) 0

/-- The subspaces m of a header. -/
def indexM (h : List Byte) : Nat := 8 * (leField h 1 1 / 4 % 16 + 1)

/-- The code bytes CB of a header (R244). -/
def indexCb (h : List Byte) : Nat :=
  match leField h 1 1 % 4 with
  | 0 => indexM h
  | 1 => 32
  | 2 => 64
  | _ => 128

/-- Whether a header keeps Table 12-2. -/
def headerOk (h : List Byte) : Bool :=
  let tree := leField h 0 1 % 2 == 1
  let cfmt := leField h 0 1 / 8 % 8
  let form := leField h 1 1 % 4
  let dim := leField h 2 2
  let fan := leField h 4 1
  let depth := leField h 5 1
  let n := leField h 8 4
  let pq := form == 0
  leField h 0 1 / 64 == 0 && leField h 0 1 / 2 % 4 != 3 && ([0, 2, 4, 5] : List Nat).contains cfmt && leField h 1 1 / 64 == 0 &&
    (pq || leField h 1 1 / 4 % 16 == 0) && dim != 0 && (!pq || dim % indexM h == 0) && leField h 6 2 == 0 && leField h 53 11 == 0 &&
    decide (1 ≤ n) && decide (n ≤ 2 ^ 24) &&
    (if tree then decide (2 ≤ fan) && decide (fan ≤ 64) && decide (1 ≤ depth) && decide (depth ≤ 12) && n == fan ^ depth else fan == 0 && depth == 0) &&
    (pq || leField h 32 8 == 0) && (!pq || leField h 40 8 == 0)

/-- Whether a word is a PGA and n bytes there lie on this die in what colour col owns: its granules, or the CM of its cores
(R131, R245, R346). -/
def State.owns (s : State) (col pga n : Nat) : Bool :=
  let p := s.part col
  let a := pga % 2 ^ 40
  decide (pga < 2 ^ 46) && (n == 0 || (pga / 2 ^ 40 == s.ownId.toNat &&
    (if a + n ≤ 0x1200000000 then (List.range ((a + n - 1) / 0x10000000 + 1 - a / 0x10000000)).all (fun k => p.granules.contains (a / 0x10000000 + k))
     else
       let c := (a - 0x8000000000) / 0x800000
       decide (0x8000000000 ≤ a) && decide (c < 48) && bit p.cores c && decide (a + n ≤ cmBase c + 0x600000))))

/-- A directory entry (Table 12-3): its 32 bytes. -/
def State.dirEntry (s : State) (h : List Byte) (l : Nat) : List Byte := s.bytesAt ((leField h 16 8 + 32 * l) % 2 ^ 40) 32

/-- Whether a directory entry keeps Table 12-3 and its ranges are owned. -/
def entryOk (s : State) (col cb : Nat) (e : List Byte) : Bool :=
  let n := leField e 21 3
  leField e 24 8 == 0 && decide (leField e 16 5 + n ≤ 2 ^ 40) && s.owns col (leField e 0 8) (n * cb) &&
    (leField e 8 8 == 0 || s.owns col (leField e 8 8) (n * 8))

/-- Whether an index share keeps Tables 12-2 and 12-3 with every range owned (R245). -/
def indexOk (s : State) (col a : Nat) : Bool :=
  let h := s.bytesAt a 64
  let n := leField h 8 4
  let tree := leField h 0 1 % 2 == 1
  let cfmt := leField h 0 1 / 8 % 8
  let dim := leField h 2 2
  let pq := leField h 1 1 % 4 == 0
  let rb := indexRow cfmt dim
  let nodes := if tree then treeNodes (leField h 4 1) (leField h 5 1) else n
  let top := (List.range n).foldl (fun m l => let e := s.dirEntry h l; Nat.max m (leField e 16 5 + leField e 21 3)) 0
  decide (a < 2 ^ 40) && s.owns col (s.ownId.toNat * 2 ^ 40 + a) 64 && headerOk h && s.owns col (leField h 16 8) (32 * n) &&
    s.owns col (leField h 24 8) (nodes * rb) && (!pq || s.owns col (leField h 32 8) (indexM h * 256 * indexRow cfmt (dim / indexM h))) &&
    (pq || s.owns col (leField h 40 8) ((top - leField h 48 5) * rb)) && (List.range n).all (fun l => entryOk s col (indexCb h) (s.dirEntry h l))

/-- The reads of an attach: the header, and the directory of a share that passes (R245). -/
def indexReads (s : State) (col a : Nat) : List (Nat × Nat) :=
  let h := s.bytesAt a 64
  if decide (a < 2 ^ 40) && s.owns col (s.ownId.toNat * 2 ^ 40 + a) 64 then
    (a, 64) :: (if headerOk h && s.owns col (leField h 16 8) (32 * leField h 8 4) then [(leField h 16 8 % 2 ^ 40, 32 * leField h 8 4)] else [])
  else []

/-- INDEX_ATTACH (R245, R346). -/
def execIndexAttach (mb : Fin 16) (i : BitVec 16) (s : State) : Result :=
  live s fun s => runCmd s mb.val i 0x130 (fun _ => [(0, 1, 0x0F), (8, 8, 0xFF)]) fun p =>
    let n := leField p 0 1
    let a := leField p 8 8
    if (Table.get [] (s.part mb.val).indices n) != [] then answer s mb.val i stExists []
    else
      let s := fwReads s (indexReads s mb.val a)
      if !indexOk s mb.val a then answer s mb.val i stBadIndex []
      else
      let h := s.bytesAt a 64
      let lists := leField h 8 4
      let vectors := (List.range lists).foldl (fun m l => m + leField (s.dirEntry h l) 21 3) 0
      answer (s.modPart mb.val (fun p => { p with indices := Table.set [] p.indices n h })) mb.val i stOk
        (leBytes 4 lists ++ leBytes 4 0 ++ leBytes 8 vectors)

/-- INDEX_DETACH (R346). -/
def execIndexDetach (mb : Fin 16) (i : BitVec 16) (s : State) : Result :=
  live s fun s => runCmd s mb.val i 0x131 (fun _ => [(0, 1, 0x0F)]) fun p =>
    let n := leField p 0 1
    if (Table.get [] (s.part mb.val).indices n) == [] then answer s mb.val i stNotFound []
    else if (s.part mb.val).declares (fun r => r.indices.contains (BitVec.ofNat 4 n)) then answer s mb.val i stInUse []
    else answer (s.modPart mb.val (fun p => { p with indices := Table.set [] p.indices n [] })) mb.val i stOk []

/-! ### INTR_CONFIG and REPLAY_POLICY (R284, R286, R337, R349) -/

/-- Whether a vector entry is refused for a partition (R284; Table 14-4). -/
def vectorBad (p : Partn) (e : List Byte) : Bool :=
  let src := leField e 0 1 % 4
  leField e 0 1 / 16 != 0 || src == 3 || leField e 1 1 / 64 != 0 || leField e 2 1 / 64 != 0 || leField e 4 4 != 0 ||
    (src == 1 && (decide (48 ≤ leField e 1 1) || !bit p.cores (leField e 1 1))) ||
    (src == 2 && (decide (leField e 3 1 < 1) || decide (5 < leField e 3 1)))

/-- A vector with a new entry: what it has counted is kept, and with COAL 1 a message waits for the next stroke (R286). -/
def Vector.install (now : Word) (e : List Byte) (x : Vector) : Vector :=
  { x with
    src := BitVec.ofNat 2 (leField e 0 1), mask := leField e 0 1 / 4 % 2 == 1, coal := leField e 0 1 / 8 % 2 == 1
    core := BitVec.ofNat 6 (leField e 1 1), flag := BitVec.ofNat 6 (leField e 2 1), event := BitVec.ofNat 8 (leField e 3 1), fresh := now + 1 }

/-- One vector of a colour takes an entry; with MASK and COAL 0 what it has counted forms a message at once (R286). -/
def installVector (col : Nat) (s : State) (x : Nat × List Byte) : State :=
  let s := s.modPart col (fun p => { p with vectors := Table.set {} p.vectors x.1 ((Table.get {} p.vectors x.1).install s.mast.stroke x.2) })
  if (Table.get {} (s.part col).vectors x.1).coal then s else formIntr s col x.1

/-- INTR_CONFIG: all the entries or none (R284, R337). -/
def execIntrConfig (mb : Fin 16) (i : BitVec 16) (s : State) : Result :=
  live s fun s => runCmd s mb.val i 0x140 (fun p => [(0, 1, 0x3F), (1, 1, 0xFF), (8, 8 * Nat.min 29 (leField p 1 1), 0xFF)]) fun p =>
    let first := leField p 0 1
    let n := leField p 1 1
    let es := (List.range n).map (fun k => (first + k, (p.drop (8 + 8 * k)).take 8))
    if n = 0 || 29 < n || 64 < first + n || es.any (fun (e : Nat × List Byte) => vectorBad (s.part mb.val) e.2) then answer s mb.val i stBadField []
    else answer (es.foldl (installVector mb.val) s) mb.val i stOk []

/-- REPLAY_POLICY: at the next step boundary of a running job, else at once (R337, R349). -/
def execReplayPolicy (mb : Fin 16) (i : BitVec 16) (s : State) : Result :=
  live s fun s => runCmd s mb.val i 0x150 (fun _ => [(0, 3, 0xFF)]) fun p =>
    let mode := leField p 0 1
    let most := leField p 1 1
    let again := leField p 2 1
    if 1 < mode || (mode = 0 && most != 0) || (mode = 1 && (most = 0 || 3 < most)) || 15 < again then answer s mb.val i stBadField []
    else
      let set := fun (p : Partn) => if p.job.live then { p with policyNext := some (mode == 1, most, again) }
        else { p with replay := mode == 1, maxReplay := most, restartsMax := again, policyNext := none }
      answer (s.modPart mb.val set) mb.val i stOk []

/-! ### Jobs (R347, R348, R350) -/

/-- A retest's result in an array (R217, R218, R222): more than 4 bad columns or a row fault retires it. -/
def MArray.tested (a : MArray) (r : ArrayReport) : MArray :=
  { a with bad := r.bad, retest := false, retired := r.rowFault || decide (4 < popcount r.bad) }

/-- The pending retests of the arrays of the cores that a launch gives a program are carried out (R218, R222). -/
def retestArrays (s : State) (g : Image) (rs : List ArrayReport) : State :=
  rs.foldl (fun s r =>
    let a := Table.get {} (s.core r.core.val).arrays r.array.val
    if a.retest && bit g.role.cores r.core.val then
      s.modCore r.core.val (fun k => { k with arrays := Table.set {} k.arrays r.array.val (a.tested r) })
    else s) s

/-- The width of an array: 0 where it is retired. -/
def MArray.usable (a : MArray) : Nat := if a.retired then 0 else 32 - popcount a.bad

/-- The narrowest array an image uses, 32 where it uses none. -/
def State.narrowest (s : State) (g : Image) : Nat :=
  g.role.arrays.foldl (fun n (x : CoreId × Fin 2) => Nat.min n (Table.get {} (s.core x.1.val).arrays x.2.val).usable) 32

/-- Whether the declared windows, senders, credits, counters, bookings and regions of an image find room (R347 check 9). -/
def launchRoom (s : State) (col : Nat) (g : Image) : Bool :=
  let r := g.role
  let p := s.part col
  let j : Job := { p.job with st := .running, digest := g.digest }
  let foreign := s.windows.filter (fun (e : Nat × Window) => e.2.valid && e.2.colour.toNat != col)
  let others := s.senders.filter (fun (e : Sender) => foreign.any (fun (w : Nat × Window) => w.1 == e.win.toNat))
  decide ((regionTable s col { p with job := j }).length ≤ 64) &&
    r.windows.all (fun w => !foreign.any (fun (e : Nat × Window) => e.1 == w.win.toNat)) &&
    decide (others.length + (r.windows.flatMap (fun (w : DeclWindow) => w.senders)).length ≤ 1024) &&
    (bitsSet r.cores).all (fun c => decide ((r.credits.filter (fun (x : DeclCredit) => x.core.val == c)).length ≤ 32)) &&
    r.counters.all (fun d => decide (d.index.toNat < popcount p.counters)) &&
    r.bookings.all (fun d => match d.core with | some _ => true | none => decide (d.index.toNat < p.bookCount))

/-- Checks 1 to 4 of R347, in order. -/
def launchFirst (s : State) (col : Nat) (g : Image) (dies : Word) : BitVec 16 :=
  if g.st != .committed then stBadState
  else if (s.part col).job.live then stBusy
  else if !bit dies s.ownId.toNat || field dies 60 4 != 0 then stBadField
  else if s.diesOk dies then stOk
  else stDieAbsent

/-- Whether a declared window lies where R163 lets it lie: whole 4 KiB pages, 4 KiB to 64 MiB, in its owner's core memory or in
stack memory, with its occupancy record in its owner's core memory at a multiple of 8. -/
def windowOk (w : DeclWindow) : Bool :=
  let b := w.range.base
  let n := w.range.len
  let cm := cmBase w.owner.val
  b % 4096 == 0 && n % 4096 == 0 && decide (0x1000 ≤ n) && decide (n ≤ 0x4000000) &&
    (decide (b + n ≤ 0x1200000000) || (decide (cm ≤ b) && decide (b + n ≤ cm + 0x600000))) &&
    w.occ % 8 == 0 && decide (cm ≤ w.occ) && decide (w.occ + 8 ≤ cm + 0x600000)

/-- Checks 4 to 6 of R347 on the answers to LAUNCH_CHECK: a die that has left since or never answered counts as absent (R322,
R348). -/
def launchDies (s : State) (c : Cmd) (g : Image) (dies : Word) : BitVec 16 :=
  if !s.diesOk dies || c.replies.any (fun r => r.2.1 == stDieAbsent) then stDieAbsent
  else if !c.replies.all (fun r => r.2.1 == stOk) then stNoPartition
  else if !g.lends.all (fun (l : Lend) => bit dies l.die.toNat) then stLenderMissing
  else stOk

/-- Checks 7 to 9 of R347, in order, on the state after any retest; windows that R163 does not allow count among the invalid
declarations (DESIGN CHOICE, assumption 131). -/
def launchRest (s : State) (col : Nat) (g : Image) : BitVec 16 :=
  let p := s.part col
  if s.narrowest g < g.role.minWidth || s.narrowest g = 0 then stArrayShort
  else if !(g.role.queues.all (fun q => (s.rqueue q.toNat).used && (s.rqueue q.toNat).bound && (s.rqueue q.toNat).colour.toNat == col) &&
      g.role.indices.all (fun n => Table.get [] p.indices n.toNat != [])) then stUnbound
  else if !launchRoom s col g then stNospace
  else if g.role.counters.any (fun (x : DeclCounter) => counterBad s col x.bits) || g.role.bookings.any (declBookingBad p) ||
      !g.role.windows.all windowOk then stBadField
  else stOk

/-- The fields of JOB_LAUNCH: DIGEST, JOB_ID and DIE_SET. -/
def launchFields (p : List Byte) : BitVec 256 × BitVec 32 × Word :=
  (BitVec.ofNat 256 (leField p 0 32), BitVec.ofNat 32 (leField p 32 4), BitVec.ofNat 64 (leField p 40 8))

/-- JOB_LAUNCH begins: checks 1 to 4, then LAUNCH_CHECK to each other die of DIE_SET (R321, R347). -/
def beginLaunch (s : State) (mb : Nat) (i : BitVec 16) (p : List Byte) : State :=
  let (d, job, dies) := launchFields p
  match (s.part mb).image d with
  | none => answer s mb i stNotFound []
  | some g =>
    let st := launchFirst s mb g dies
    if st != stOk then answer s mb i st []
    else
      let far := (bitsSet dies).filter (fun x => x != s.ownId.toNat)
      let s := modCmd (toPhase s mb i 1) mb i (fun c => { c with awaited := far.map (BitVec.ofNat 6) })
      far.foldl (fun s x => fwAsk s (some (mb, i)) (BitVec.ofNat 6 x) 0x34 (BitVec.ofNat 4 mb) job (leBytes 32 d.toNat ++ leBytes 8 dies.toNat)) s

/-- JOB_LAUNCH once every die has answered: the checks that are left, with any pending retest before the seventh, and the steps of
R348. -/
def endLaunch (mb : Nat) (retests : List ArrayReport) (s : State) (c : Cmd) : State :=
  let (d, job, dies) := launchFields c.payload
  match (s.part mb).image d with
  | none => finishCmd s mb c stNotFound []
  | some g =>
    let st := launchDies s c g dies
    if st != stOk then finishCmd s mb c st []
    else
      let s := checkArrays (retestArrays s g retests)
      let st := launchRest s mb g
      if st != stOk then finishCmd s mb c st []
      else
        let s := launchSteps s mb g { id := job, dieSet := dies }
        finishCmd s mb c stOk (leBytes 4 s.member.epoch.toNat ++ leBytes 4 0 ++ leBytes 8 (s.part mb).job.launchStroke.toNat ++ [b8 (s.narrowest g)])

/-- JOB_LAUNCH: the checks of R347, then the steps of R348. -/
def execJobLaunch (mb : Fin 16) (i : BitVec 16) (_checks : Carried) (retests : List ArrayReport) (s : State) : Result :=
  live s fun s => runStaged s mb.val i 0x120 (fun _ => [(0, 36, 0xFF), (40, 8, 0xFF)]) (beginLaunch s mb.val i) (endLaunch mb.val retests)

/-- JOB_ABORT: the reset of R290 to R293, answered ST_OK; the job ends with end reason 3 (R350). -/
def execJobAbort (mb : Fin 16) (i : BitVec 16) (s : State) : Result :=
  live s fun s => runCmd s mb.val i 0x121 (fun _ => [(0, 4, 0xFF)]) fun p =>
    let j := (s.part mb.val).job
    if !j.live || j.id.toNat != leField p 0 4 then answer s mb.val i stNotFound []
    else (beginReset (waitReset s mb.val i mb.val stOk) mb.val 3).modPart mb.val (fun p => { p with resetReason := 3 })

/-- JOB_STATUS's 40 bytes; STEP_COMMITTED is that of the job's lowest core. -/
def State.jobReport (s : State) (col : Nat) : List Byte :=
  let j := (s.part col).job
  let step : BitVec 32 := match s.jobCores col with | c :: _ => if j.st == .none then 0 else (s.core c).csr.committed | [] => 0
  leBytes 4 j.id.toNat ++ [b8 j.st.code, j.reason, 0, 0] ++ leBytes 4 j.epoch.toNat ++ leBytes 4 step.toNat ++ leBytes 4 j.replays.toNat ++
    leBytes 4 j.restarts.toNat ++ leBytes 2 j.lastFault.toNat ++ leBytes 6 0 ++ leBytes 8 j.launchStroke.toNat

/-- JOB_STATUS (R350). -/
def execJobStatus (mb : Fin 16) (i : BitVec 16) (s : State) : Result :=
  live s fun s => runCmd s mb.val i 0x122 (fun _ => [(0, 4, 0xFF)]) fun p =>
    let n := leField p 0 4
    if n != 0 && (s.part mb.val).job.id.toNat != n then answer s mb.val i stNotFound []
    else answer s mb.val i stOk (s.jobReport mb.val)

/-! ### PART_TELEMETRY (R169, R263, R299, R327, R337) -/

/-- The books of one bucket (R297, R299). -/
def Bucket.books (b : Bucket) : List Word := [b.refilled, b.clipped, b.charged, b.wait.setWidth 64]

/-- The state of one counter (R263). -/
def Counter.books (x : Counter) : List Word :=
  [BitVec.ofNat 64 (b01 x.sense), x.arr.setWidth 64, x.next.setWidth 64, BitVec.ofNat 64 (b01 x.fail), BitVec.ofNat 64 (b01 x.nextFail), x.darr,
   x.releases.setWidth 64]

/-- What a core keeps for one counter: NS, the number of its outstanding arrivals, and their senses, the oldest in bit 0
(R263; assumption 54). -/
def BarSide.books (x : BarSide) : List Word :=
  [BitVec.ofNat 64 (b01 x.ns), BitVec.ofNat 64 x.out.length, BitVec.ofNat 64 (leNat ((List.range 8).map (fun j =>
    b8 (((List.range 8).map (fun k => 2 ^ k * b01 ((x.out[8 * j + k]?).getD false))).foldl (· + ·) 0))))]

/-- The books of one window (R169). -/
def State.windowBooks (s : State) (w : Nat) : List Word :=
  let x := s.window w
  [BitVec.ofNat 64 x.free, x.filled.setWidth 64, x.released.setWidth 64, BitVec.ofNat 64 (s.outOf w)]

/-- The values of a PART_TELEMETRY set (Table 16-4; assumption 54). -/
def State.partValues (s : State) (col n : Nat) : List Word :=
  let p := s.part col
  match n with
  | 0 => (List.range 7).flatMap (fun k => (if k = 1 || k = 6 then bitsSet p.cores else [0]).flatMap (fun c => (s.bucket col (bucketKey k c)).books))
  | 1 => (bitsSet p.counters).flatMap (fun k => (s.counter k).books ++
      (bitsSet p.cores).flatMap (fun c => (Table.get {} (s.core c).bars k).books))
  | 2 =>
    let all := s.extended 1
    (bitsSet p.cores).flatMap (fun c => (all.drop (5 * c)).take 5)
  | _ => ((s.windows.filter (fun (e : Nat × Window) => e.2.valid && e.2.colour.toNat == col)).map (fun (e : Nat × Window) => e.1)).flatMap s.windowBooks

/-- PART_TELEMETRY. -/
def execPartTelemetry (mb : Fin 16) (i : BitVec 16) (_sent : Carried) (s : State) : Result :=
  live s fun s => runStaged s mb.val i 0x160 (fun _ => (0, 1, 0xFF) :: bulkBits 8) (fun p =>
    let n := leField p 0 1
    match s.bulk p 8 with
    | none => answer s mb.val i stBadField []
    | some r =>
      if 4 ≤ n then answer s mb.val i stBadField []
      else
        let data := (s.partValues mb.val n).flatMap (fun (v : Word) => leBytes 8 v.toNat)
        writeBulk s mb.val i r data (leBytes 8 data.length ++ leBytes 8 s.mast.stroke.toNat)) (bulkWritten mb.val id)

end Sys2Proof.Machine
end

