-- ==== Sys2Proof/Machine/Images.lean ====
section
/-!
DEFINITION. Images: staging with local or borrowed residency, commit, query and eviction (R338 to R343; Table 16-4).
-/
namespace Sys2Proof.Machine

/-! ### Sizes (R338, R340, R341) -/

/-- A granule's bytes, 256 MiB (R112). -/
def granuleBytes : Nat := 0x10000000

/-- NEED: image ranges plus state ranges. -/
def roleNeed (r : Role) : Nat :=
  (r.image.map (fun (w : DeclWeights) => w.range.len)).foldl (· + ·) 0 + (r.state.map (fun (x : Range) => x.len)).foldl (· + ·) 0

/-- The owned granules that no image occupies and that are not lent. -/
def Partn.freeGranules (p : Partn) : List Nat :=
  p.granules.filter (fun g => !p.images.any (fun (i : Image) => i.granules.contains g) && !p.lent.any (fun (l : Nat × BitVec 6 × BitVec 256) => l.1 == g))

/-- The granules that a byte range touches. -/
def rangeGranules (r : Range) : List Nat :=
  if r.len = 0 then [] else (List.range ((r.base + r.len - 1) / granuleBytes + 1 - r.base / granuleBytes)).map (· + r.base / granuleBytes)

/-- The granules that some ranges touch, each once. -/
def granulesFor (rs : List Range) : List Nat := (rs.flatMap rangeGranules).foldl (fun l g => insertNat g l) []

/-- The total of some ranges. -/
def totalBytes (ws : List DeclWeights) : Nat := (ws.map (fun (w : DeclWeights) => w.range.len)).foldl (· + ·) 0

/-- The dies that lend, as a mask. -/
def lendMask (ls : List Lend) : Word := ls.foldl (fun m (l : Lend) => setBit m l.die.toNat) 0

/-- PASS_NS over the distinct ports that lead to the lenders (R341). -/
def passNs (s : State) (b : Nat) (ls : List Lend) : Nat :=
  let ports := (ls.map (fun (l : Lend) => (s.die l.die.toNat).port.val)).foldl (fun l x => insertNat x l) []
  ceilDiv b (224 * Nat.max 1 ports.length)

/-! ### The image of a request -/

/-- The DIGEST of a request. -/
def digestOf (p : List Byte) : BitVec 256 := BitVec.ofNat 256 (leField p 0 32)

/-- The images of a partition with one of them changed. -/
def Partn.modImage (p : Partn) (d : BitVec 256) (f : Image → Image) : Partn :=
  { p with images := p.images.map (fun (g : Image) => if g.digest == d then f g else g) }

/-- Change the image that a command names. -/
def modImage (s : State) (mb : Nat) (c : Cmd) (f : Image → Image) : State := s.modPart mb (fun p => p.modImage (digestOf c.payload) f)

/-- The image leaves its partition. -/
def dropImage (s : State) (mb : Nat) (d : BitVec 256) : State :=
  s.modPart mb (fun p => { p with images := p.images.filter (fun (g : Image) => g.digest != d) })

/-! ### IMAGE_STAGE (R338 to R340, R343; assumption 129)

Phase 1 reads the manifest, phase 2 asks the lenders in turn, phase 3 reads the share, phase 4 writes the borrowed ranges. The image
is in STAGING from the moment its granules are chosen. -/

/-- NEED, FREE and SHORTFALL, as IMAGE_STAGE reports them. -/
def sizeReport (need free : Nat) : List Byte := leBytes 8 need ++ leBytes 8 free ++ leBytes 8 (need - free)

/-- What IMAGE_STAGE's 56 bytes tell after the sizes. -/
def stageReport (g : Image) : List Byte :=
  [b8 (b01 (g.borrowed != 0))] ++ leBytes 7 0 ++ leBytes 8 g.borrowed ++ leBytes 8 (lendMask g.lends).toNat ++ leBytes 8 g.passNs

/-- Every reservation is released (R340, R321). -/
def releaseLends (s : State) (col : Nat) (digest : BitVec 256) (ls : List Lend) : State :=
  ls.foldl (fun s (l : Lend) => fwRequest s l.die 0x32 (BitVec.ofNat 4 col) 0 (leBytes 32 digest.toNat ++ leBytes 2 0)) s

/-- A stage that leaves nothing: the image goes, and its reservations with it. -/
def undoStage (s : State) (mb : Nat) (c : Cmd) (g : Image) (st : BitVec 16) (payload : List Byte) : State :=
  finishCmd (dropImage (releaseLends s mb g.digest g.lends) mb g.digest) mb c st payload

/-- The granules still to be borrowed. -/
def Image.wants (g : Image) : Nat := ceilDiv g.borrowed granuleBytes - (g.lends.flatMap (fun (l : Lend) => l.granules)).length

/-- What is written of share bytes that begin at offset o: those of the local ranges go to this die's memory (R339). -/
def copyLocal (g : Image) (s : State) (x : Nat × List Byte) : State :=
  (g.role.image.foldl (fun (acc : State × Nat) w =>
    let lo := Nat.max acc.2 x.1
    let hi := Nat.min (acc.2 + w.range.len) (x.1 + x.2.length)
    let part := (x.2.drop (lo - x.1)).take (hi - lo)
    (if g.farRanges.contains w || hi ≤ lo then acc.1 else (memWrite acc.1 (w.range.base + (lo - acc.2)) part).1, acc.2 + w.range.len)) (s, 0)).1

/-- The bytes of the borrowed ranges, in order (R340). -/
def farBytes (g : Image) (share : List Byte) : List Byte :=
  (g.role.image.foldl (fun (acc : List Byte × List Byte) w =>
    (if g.farRanges.contains w then acc.1 ++ takePad w.range.len acc.2 else acc.1, acc.2.drop w.range.len)) ([], share)).1

/-- The borrowed ranges go to the lent granules, one transfer for each (R340 step 3). -/
def copyFar (s : State) (mb : Nat) (i : BitVec 16) (g : Image) (share : List Byte) : State :=
  let far := farBytes g share
  (List.range (ceilDiv far.length granuleBytes)).foldl (fun s k =>
    let d := (far.drop (k * granuleBytes)).take granuleBytes
    let a := lentPga g.lends (k * granuleBytes)
    startTransfer s (.cmd mb i) true (BitVec.ofNat 6 (a / 2 ^ 40)) (a % 2 ^ 40) d.length d) s

/-- Phase 4: the borrowed ranges are written; the image is STAGED, or stays in STAGING (R339, R340, R343). -/
def stageDone (s : State) (mb : Nat) (c : Cmd) (g : Image) : State :=
  if s.cmdFailed mb c then finishCmd s mb c stBulkFailed []
  else finishCmd (modImage s mb c (fun g => { g with st := .staged })) mb c stOk (c.report ++ stageReport g)

/-- Phase 3: the share has been read and is checked and copied; a failed read leaves what has come, and the image in STAGING; a wrong
digest leaves nothing (R339, R340, R343). -/
def stageShare (s : State) (mb : Nat) (c : Cmd) (g : Image) : State :=
  let share := s.cmdBytes mb c
  if s.cmdFailed mb c then
    finishCmd (((s.transfersOf (.cmd mb c.idx)).flatMap (fun t => t.got)).foldl (copyLocal g) s) mb c stBulkFailed []
  else if Config.sha384 share != g.role.shareSha then undoStage s mb c g stDigestMismatch []
  else
    let s := toPhase (dropTransfers (copyLocal g s (0, share)) (fun w => w == .cmd mb c.idx)) mb c.idx 4
    let s := copyFar s mb c.idx g share
    if g.borrowed = 0 then stageDone s mb c g else s

/-- Phase 3 begins: the share is read from its bulk reference. -/
def askShare (s : State) (mb : Nat) (c : Cmd) (g : Image) : State :=
  match s.bulk c.payload 48 with
  | some r => readBulk (modImage (dropTransfers s (fun w => w == .cmd mb c.idx)) mb c (fun g => { g with passNs := passNs s g.borrowed g.lends })) mb c.idx r 3
  | none => undoStage s mb c g stBulkFailed []

/-- An image with what its lender has granted, no more than was asked. -/
def Image.granted (g : Image) (replies : List (BitVec 6 × BitVec 16 × List Nat)) : Image :=
  { g with lends := g.lends ++ replies.flatMap (fun (r : BitVec 6 × BitVec 16 × List Nat) =>
      if r.2.1 == stOk && !(r.2.2.take g.wants).isEmpty then [({ die := r.1, granules := r.2.2.take g.wants } : Lend)] else []) }

/-- The next lender is asked, or with enough granules the share is read, or with no lender left everything is released (R340). -/
def askLender (s : State) (mb : Nat) (c : Cmd) (g : Image) : State :=
  if g.wants = 0 then askShare s mb c g
  else
    match c.asks with
    | [] => undoStage s mb c g stNospace c.report
    | d :: t =>
      fwAsk (modCmd (toPhase s mb c.idx 2) mb c.idx (fun c => { c with asks := t, awaited := [BitVec.ofNat 6 d] })) (some (mb, c.idx)) (BitVec.ofNat 6 d)
        0x31 (BitVec.ofNat 4 mb) 0 (leBytes 32 g.digest.toNat ++ leBytes 2 g.wants)

/-- Phase 2: what the lender asked last has granted is taken, and the stage goes on (R322, R340). -/
def stageLend (s : State) (mb : Nat) (c : Cmd) (g : Image) : State :=
  askLender (modImage s mb c (fun _ => g.granted c.replies)) mb c (g.granted c.replies)

/-- Whether a manifest's role suits this die and colour: part, stepping and level accepted, cores owned, layers powered
(R338 check 3). -/
def roleSuits (s : State) (mb : Nat) (man : Manifest) (r : Role) : Bool :=
  man.accepts.contains (0x0040, 0xB1, 0x0204) && (r.cores &&& ~~~ (s.part mb).cores) == 0 && (r.layers &&& ~~~ s.mem.layersOn) == 0

/-- Sizes of a verified image: it stays here whole, or lenders are asked for what is short, or it is refused (R338 to R340). -/
def sizeImage (s : State) (mb : Nat) (c : Cmd) (man : Manifest) (role : Role) : State :=
  let p := c.payload
  let x := s.part mb
  let need := roleNeed role
  let free := x.freeGranules.length * granuleBytes
  let lenders := bitsOf (leField p 72 8) 64
  let b := if need ≤ free then 0 else totalBytes (takeBorrow role.image (need - free)).2
  let ok := lenders.filter (fun d => d != s.ownId.toNat && (s.die d).st == .verified && !(s.die d).fenced)
  let g : Image := { digest := man.digest, st := .staging, man := man, role := role, need := need, granules := [], golden := (p.drop 48).take 16, borrowed := b }
  let gs := granulesFor (g.localRanges.map (fun (w : DeclWeights) => w.range) ++ role.state)
  if free < need && (leField p 65 1 = 0 || lenders.isEmpty || b < need - free) then finishCmd s mb c stNospace (sizeReport need free)
  else if !gs.all (fun k => x.freeGranules.contains k) then finishCmd s mb c stConfigMismatch []
  else
    let g := { g with granules := gs }
    let c := { c with asks := ok, report := sizeReport need free, replies := [] }
    let s := modCmd s mb c.idx (fun x => { x with asks := c.asks, report := c.report })
    stageLend (s.modPart mb (fun p => { p with images := p.images ++ [g] })) mb c g

/-- Phase 1: the manifest has been read. man is what its bytes decode to, none where they are no manifest; the operand of another
manifest is no decoding of these bytes and has no effect (R338; assumption 46). -/
def stageManifest (s : State) (mb : Nat) (c : Cmd) (man : Option Manifest) : State :=
  if s.cmdFailed mb c then finishCmd s mb c stBulkFailed []
  else
    match man with
    | none => finishCmd s mb c stAuthFailed []
    | some m =>
      if m.bytes != s.cmdBytes mb c then s
      else if !Config.keyHashVerify Config.imgKeyHash (Config.sha384 m.bytes) m.sig then finishCmd s mb c stAuthFailed []
      else if m.digest != digestOf c.payload then finishCmd s mb c stDigestMismatch []
      else
        match m.roles.find? (fun (r : Role) => r.number.toNat == leField c.payload 64 1) with
        | none => finishCmd s mb c stConfigMismatch []
        | some r => if roleSuits s mb m r then sizeImage s mb c m r else finishCmd s mb c stConfigMismatch []

/-- IMAGE_STAGE goes on from the phase that has ended. -/
def stageNext (mb : Nat) (man : Option Manifest) (s : State) (c : Cmd) : State :=
  if c.phase = 1 then stageManifest s mb c man
  else
    match (s.part mb).image (digestOf c.payload) with
    | none => finishCmd s mb c stNotFound []
    | some g => if c.phase = 2 then stageLend s mb c g else if c.phase = 3 then stageShare s mb c g else stageDone s mb c g

/-- IMAGE_STAGE begins: its digest is new, there is room for an image, and the manifest is read (R338). -/
def beginStage (s : State) (mb : Nat) (i : BitVec 16) (p : List Byte) : State :=
  match s.bulk p 32, s.bulk p 48 with
  | some rm, some _ =>
    if ((s.part mb).image (digestOf p)).isSome then answer s mb i stExists []
    else if 4 ≤ (s.part mb).images.length then answer s mb i stNospace []
    else readBulk s mb i rm 1
  | _, _ => answer s mb i stBadField []

/-- IMAGE_STAGE (R338 to R340). -/
def execImageStage (mb : Fin 16) (i : BitVec 16) (man : Option Manifest) (_share _lends : Carried) (s : State) : Result :=
  live s fun s => runStaged s mb.val i 0x100 (fun _ =>
      [(0, 32, 0xFF), (64, 1, 0x3F), (65, 1, 0x01), (66, 6, 0), (72, 8, 0xFF)] ++ bulkBits 32 ++ bulkBits 48) (beginStage s mb.val i) (stageNext mb.val man)

/-! ### IMAGE_COMMIT, IMAGE_QUERY, IMAGE_EVICT (R342, R343) -/

/-- IMAGE_COMMIT: PRIV entries over the local ranges, and COMMITTED (R137, R343). -/
def execImageCommit (mb : Fin 16) (i : BitVec 16) (s : State) : Result :=
  live s fun s => runCmd s mb.val i 0x101 (fun _ => [(0, 32, 0xFF)]) fun p =>
    match (s.part mb.val).image (digestOf p) with
    | none => answer s mb.val i stNotFound []
    | some g =>
      let s' := s.modPart mb.val (fun x => x.modImage g.digest (fun y => { y with st := .committed }))
      if g.st != .staged then answer s mb.val i stBadState []
      else if (s.part mb.val).job.live then answer s mb.val i stBusy []
      else if 64 < (regionTable s' mb.val (s'.part mb.val)).length then answer s mb.val i stNospace []
      else answer (rebuildRegions s' mb.val) mb.val i stOk [b8 (b01 (g.borrowed != 0))]

/-- Image states 1 to 4 (Table 16-4). -/
def ImageState.code : ImageState → Nat
  | .staging => 1
  | .staged => 2
  | .committed => 3
  | .broken => 4

/-- IMAGE_QUERY's 96 bytes. -/
def Image.report (g : Image) : List Byte :=
  leBytes 32 g.digest.toNat ++ leBytes 32 g.man.modelDigest.toNat ++ leBytes 4 g.man.numerics.toNat ++
    [b8 g.st.code, b8 (b01 (g.borrowed != 0)), b8 g.role.minWidth, b8 g.role.number.toNat] ++ leBytes 8 g.need ++ leBytes 8 g.borrowed ++
    leBytes 8 (lendMask g.lends).toNat

/-- IMAGE_QUERY: one image, or with DIGEST zero the list of up to four. -/
def execImageQuery (mb : Fin 16) (i : BitVec 16) (s : State) : Result :=
  live s fun s => runCmd s mb.val i 0x102 (fun _ => [(0, 32, 0xFF)]) fun p =>
    let d := digestOf p
    if d = 0 then answer s mb.val i stOk (takePad 128 ((s.part mb.val).images.flatMap (fun (g : Image) => leBytes 32 g.digest.toNat)))
    else match (s.part mb.val).image d with
      | some g => answer s mb.val i stOk g.report
      | none => answer s mb.val i stNotFound []

/-- IMAGE_EVICT: refused while the job was launched from it; else its ranges are zero-filled and its lent granules released
(R342, R343). -/
def execImageEvict (mb : Fin 16) (i : BitVec 16) (s : State) : Result :=
  live s fun s => runCmd s mb.val i 0x103 (fun _ => [(0, 32, 0xFF)]) fun p =>
    match (s.part mb.val).image (digestOf p) with
    | none => answer s mb.val i stNotFound []
    | some g =>
      if (s.part mb.val).job.live && (s.part mb.val).job.digest == g.digest then answer s mb.val i stInUse []
      else answer (evictImage s mb.val g) mb.val i stOk []

end Sys2Proof.Machine
end

