-- ==== Sys2Proof/Machine/Peers.lean ====
section
/-!
DEFINITION. Firmware messages from other dies: their form, stored replies, and what each asks (R171, R321 to R323, R340,
R342, R347; Tables 15-8 and 15-9).
-/
namespace Sys2Proof.Machine

/-! ### Form and replies (R321, R322) -/

/-- The bytes of a body that Table 15-9 gives each MTYPE: the length it needs, 0 where the table has no such message. -/
def bodyLength (b : List Byte) (mtype : Nat) : Nat :=
  match mtype with
  | 0x30 => 4 + 2 * leField b 2 2
  | 0x31 => 34
  | 0x32 => 34 + 2 * leField b 32 2
  | 0x33 => 16 + (b.length - 16) / 16 * 16
  | 0x34 => 40
  | 0x35 => 12
  | _ => 0

/-- Whether the entries of an AUDIT_SNAP have zero reserved bytes. -/
def snapReserved (b : List Byte) : Bool :=
  leField b 9 7 == 0 && (List.range ((b.length - 16) / 16)).all (fun k => leField b (17 + 16 * k) 1 / 64 == 0 && leField b (18 + 16 * k) 2 == 0)

/-- Whether the fields of a body lie in their ranges. -/
def bodyRange (b : List Byte) (mtype : Nat) : Bool :=
  match mtype with
  | 0x31 => decide (1 ≤ leField b 32 2) && decide (leField b 32 2 ≤ 288)
  | 0x33 => decide (leField b 8 1 ≤ 1) && snapReserved b
  | 0x35 => decide (leField b 0 1 ≤ 2)
  | _ => true

/-- Whether a firmware message keeps Tables 15-8 and 15-9: a body of at most 4,096 bytes, as long as its layout, and no nonzero
reserved byte. -/
def peerOk (m : Msg) : Bool :=
  let t := leField m.data 0 1
  let b := m.data.drop 8
  let n := bodyLength b t
  !m.bad && decide (m.data.length ≤ 4104) && decide (8 ≤ m.data.length) && leField m.data 1 1 / 16 == 0 && n != 0 && decide (n ≤ b.length) &&
    (b.drop n).all (· == 0) && bodyRange b t

/-- The colour of a firmware message. -/
def peerColour (m : Msg) : Nat := leField m.data 1 1 % 16

/-- The SEQNO of a firmware message. -/
def peerSeq (m : Msg) : BitVec 16 := BitVec.ofNat 16 (leField m.data 2 2)

/-- The JOB_ID of a firmware message. -/
def peerJob (m : Msg) : BitVec 32 := BitVec.ofNat 32 (leField m.data 4 4)

/-- PEER_REPLY to the sender of a request, echoing COLOUR, SEQNO and JOB_ID. -/
def sendReply (s : State) (m : Msg) (body : List Byte) : State :=
  fwMessage s m.src 0x30 (BitVec.ofNat 4 (peerColour m)) (peerSeq m) (peerJob m) body

/-- The replies kept after one more: 64 of each source die (R322). -/
def keepReply (l : List (BitVec 6 × BitVec 16 × List Byte)) (r : BitVec 6 × BitVec 16 × List Byte) : List (BitVec 6 × BitVec 16 × List Byte) :=
  let same := fun (x : BitVec 6 × BitVec 16 × List Byte) => x.1 == r.1
  r :: (if (l.filter same).length < 64 then l else (removeFirst same l.reverse).reverse)

/-- Answer a request, and keep the reply (R322). -/
def replyTo (s : State) (m : Msg) (st : BitVec 16) (granules : List Nat) : State :=
  let body := leBytes 2 st.toNat ++ leBytes 2 granules.length ++ granules.flatMap (leBytes 2)
  sendReply { s with skovi := { s.skovi with replies := keepReply s.skovi.replies (m.src, peerSeq m, body) } } m body

/-- A firmware message of type t is taken while firmware runs: a broken one is discarded, logged, and a request answered
ST_BAD_FIELD; a repeated SEQNO gets the stored reply; any other is acted upon by f (R321, R322). A Hub's message to a mailbox window is a mailbox
message (R411). -/
def peerMessage (s : State) (m : Msg) (t : Nat) (f : State → List Byte → State) : State :=
  if leField m.data 0 1 != t then s
  else if s.forMailbox m then mailboxMessage s m
  else if !s.skovi.up then s
  else
    let s := takeMsg s m
    if !peerOk m then
      let s := raiseUnit s fMailboxProtocol (BitVec.ofNat 4 (peerColour m)) 15 (some m.src) 0
      if t = 0x30 then s else sendReply s m (leBytes 2 stBadField.toNat ++ leBytes 2 0)
    else if t = 0x30 then f s (m.data.drop 8)
    else
      match s.skovi.replies.find? (fun (x : BitVec 6 × BitVec 16 × List Byte) => x.1 == m.src && x.2.1 == peerSeq m) with
      | some x => sendReply s m x.2.2
      | none => f s (m.data.drop 8)

/-! ### What each message asks (R171, R322, R323, R340, R342, R347) -/

/-- A request of a command has its outcome: STATUS and granules of the die asked (R321, R322). -/
def toldOf (s : State) (q : PeerReq) (st : BitVec 16) (granules : List Nat) : State :=
  match q.who with
  | some (mb, i) => modCmd s mb i (fun c => { c with replies := c.replies ++ [(q.die, st, granules)] })
  | none => s

/-- PEER_REPLY: the matching request is complete, and the command that waits for it has its answer. -/
def execPeerReply (m : Msg) (s : State) : Result :=
  live s fun s => peerMessage s m 0x30 fun s b =>
    let hit := fun (q : PeerReq) => q.die == m.src && q.seqno == peerSeq m
    let gs := (List.range (leField b 2 2)).map (fun k => leField b (4 + 2 * k) 2)
    match s.skovi.peers.find? hit with
    | some q => toldOf { s with skovi := { s.skovi with peers := removeFirst hit s.skovi.peers } } q (BitVec.ofNat 16 (leField b 0 2)) gs
    | none => s

/-- LEND_REQ: free granules of the colour, no more than asked, are marked LENT and named in the reply (R340). -/
def execLendReq (m : Msg) (s : State) : Result :=
  live s fun s => peerMessage s m 0x31 fun s b =>
    let col := peerColour m
    let p := s.part col
    if !p.present then replyTo s m stNoPartition []
    else
      let gs := p.freeGranules.take (leField b 32 2)
      let d : BitVec 256 := BitVec.ofNat 256 (leField b 0 32)
      replyTo (s.modPart col (fun p => { p with lent := p.lent ++ gs.map (fun g => (g, m.src, d)) })) m stOk gs

/-- LEND_RELEASE: the named granules, or all lent for the digest, are zero-filled and return to their colour (R127, R342). -/
def execLendRelease (m : Msg) (s : State) : Result :=
  live s fun s => peerMessage s m 0x32 fun s b =>
    let col := peerColour m
    let d : BitVec 256 := BitVec.ofNat 256 (leField b 0 32)
    let named := (List.range (leField b 32 2)).map (fun k => leField b (34 + 2 * k) 2)
    let back := fun (l : Nat × BitVec 6 × BitVec 256) => l.2.1 == m.src && l.2.2 == d && (named.isEmpty || named.contains l.1)
    let gone := ((s.part col).lent.filter back).map (fun l => l.1)
    let s := gone.foldl (fun s g => zeroRange s (g * granuleBytes) granuleBytes) s
    let s := s.modPart col (fun p => { p with lent := p.lent.filter (fun l => !back l) })
    replyTo s m stOk []

/-- The books of an entry whose comparison is left out: its two-audit rule starts again (R322). -/
def skipCompare (s : State) (sel : Sender → Bool) : State :=
  { s with senders := s.senders.map (fun (e : Sender) => if sel e then { e with lastD := none } else e) }

/-- One AUDIT_SNAP entry of a sender is compared with the receiver's books here. -/
def compareEntry (b : List Byte) (src : BitVec 6) (s : State) (k : Nat) : State :=
  let o := 16 + 16 * k
  let c := (List.range 3).map (fun n => BitVec.ofNat 32 (leField b (o + 4 + 4 * n) 4))
  compareBooks s (BitVec.ofNat 8 (leField b o 1)) src (BitVec.ofNat 6 (leField b (o + 1) 1)) c

/-- AUDIT_SNAP: a sender's counts of the same firing are compared here; those of a firing still to come wait for it, those of
an earlier one are left out; the receiver's counts need no act on the sender's die (R171). -/
def execAuditSnap (m : Msg) (s : State) : Result :=
  live s fun s =>
    if peerOk m && leField m.data 0 1 = 0x33 && !s.forMailbox m && s.skovi.auditStroke.toNat < leField m.data 8 8 then s
    else peerMessage s m 0x33 fun s b =>
      let n := (b.length - 16) / 16
      let s := if leField b 8 1 = 0 then s
        else if leField b 0 8 = s.skovi.auditStroke.toNat then (List.range n).foldl (compareEntry b m.src) s
        else skipCompare s (fun e => e.die == m.src)
      replyTo s m stOk []

/-- LAUNCH_CHECK: whether this die holds the colour (R347). -/
def execLaunchCheck (m : Msg) (s : State) : Result :=
  live s fun s => peerMessage s m 0x34 fun s _ => replyTo s m (if (s.part (peerColour m)).present then stOk else stNoPartition) []

/-- JOB_EVENT (R184, R323). -/
def execJobEvent (m : Msg) (s : State) : Result :=
  live s fun s => peerMessage s m 0x35 fun s b =>
    replyTo (takeJobEvent s (peerColour m) (peerJob m) m.src (BitVec.ofNat 8 (leField b 0 1)) (BitVec.ofNat 8 (leField b 1 1))
      (BitVec.ofNat 16 (leField b 2 2)) (BitVec.ofNat 32 (leField b 4 4))) m stOk []

/-- What a requester does after the third unanswered resend: a lender has lent nothing, a die to launch on is absent, the books of
an audit are left out, a job ends (R322). -/
def giveUp (s : State) (q : PeerReq) : State :=
  let s := toldOf s q stDieAbsent []
  if q.mtype = 0x33 then skipCompare s (fun e => e.die == q.die)
  else if q.mtype = 0x35 then
    let j := (s.part q.colour.toNat).job
    if j.live && j.id == q.jobId then abortJob s q.colour.toNat 4 true false else s
  else s

/-- PEER_REQUEST_RESEND: a request unanswered for 1 ms goes again with the same SEQNO, up to three times; then the requester
proceeds (R322). -/
def execPeerRequestResend (die : BitVec 6) (seqno : BitVec 16) (s : State) : Result :=
  live s fun s =>
    let sel := fun (q : PeerReq) => q.die == die && q.seqno == seqno
    match s.skovi.peers.find? sel with
    | none => s
    | some q =>
      if !s.skovi.up || s.now < q.sentAt + 1000 * cclkPerUs then s
      else if q.resends < 3 then
        let s := { s with skovi := { s.skovi with peers := mapFirst sel (fun q => { q with resends := q.resends + 1, sentAt := s.now }) s.skovi.peers } }
        fwMessage s q.die q.mtype q.colour q.seqno q.jobId q.body
      else giveUp { s with skovi := { s.skovi with peers := removeFirst sel s.skovi.peers } } q

end Sys2Proof.Machine
end

