-- ==== Sys2Proof/Machine/Registers.lean ====
section
/-!
DEFINITION. Control space as Skovi writes it: the capture queue, Mast, debug engine, port, CU and mailbox registers (R393 to
R407).
-/
namespace Sys2Proof.Machine

/-! ### The capture queue (R354, R396) -/

/-- A detection in a row of memory counts, once for each replay of a step (R121, R357 step 2). -/
def Skovi.countRow (k : Skovi) (replays : BitVec 32) (r : LogRec) : Skovi :=
  let row := rowOf r.addr.toNat
  let this := (r.jobId, r.step, replays)
  if !(r.code == fSmCrc || r.code == fCmParity) || (r.jobId != 0 && r.core.isSome && Table.get (0, 0, 0) k.rowLast row == this) then k
  else { k with
    rowHits := Table.set 0 k.rowHits row (Table.get 0 k.rowHits row + 1)
    rowLast := if r.jobId != 0 && r.core.isSome then Table.set (0, 0, 0) k.rowLast row this else k.rowLast }

/-- Firmware keeps a class D record of a job for the repair of its step (R357 step 2). -/
def Skovi.keepRecord (k : Skovi) (r : LogRec) : Skovi :=
  if faultClass r.code == 0 && r.jobId != 0 then { k with records := k.records ++ [r] } else k

/-- Firmware records a port as down at its F_LINK_DOWN (R364). -/
def Skovi.portDown (k : Skovi) (r : LogRec) : Skovi :=
  if r.code = fLinkDown && 9 ≤ r.unit.toNat then { k with portsUp := k.portsUp &&& ~~~ BitVec.ofNat 4 (2 ^ (r.unit.toNat - 9)) } else k

/-- The oldest record is popped into the error log, and the oldest waiting record is pushed; firmware counts a detection toward its
row, and a fault charged to a colour records EVENT 0x03 (R121, R285, R354, R357, R396). -/
def popCapture (s : State) : State :=
  match s.log.capq with
  | [] => s
  | r :: _ =>
    let k := ((s.skovi.countRow (s.part r.colour.toNat).job.replays r).keepRecord r).portDown r
    fwEvent { s with log := s.log.pop, skovi := k } r.colour.toNat 3

/-- CAPQ_POP (R396). -/
def execCapqPop (s : State) : Result := awake s fun s => if s.skovi.up then popCapture s else s

/-! ### Mast (R401) -/

/-- MAST_NEXT and MAST_EFFECTIVE written in one access schedule a period change, or are ignored (R401). -/
def writePeriod (s : State) (period effective : Word) : State :=
  let p : BitVec 10 := field period 16 10
  if s.mast.canChange effective && p != 0 && decide (p ≤ 1000) then schedulePeriod s p effective else s

/-- MAST_PERIOD_WRITE (R401). -/
def execMastPeriodWrite (period : Word) (effective : Word) (s : State) : Result := live s fun s => writePeriod s period effective

/-! ### The debug access engine (R403) -/

/-- The colour that owns n bytes of stack memory at a DLA, or the CM of a core they lie in, 0 for none. -/
def State.memOwner (s : State) (a n : Nat) : Nat :=
  match s.parts.find? (fun (e : Nat × Partn) => e.2.present && s.owns e.1 (s.ownId.toNat * 2 ^ 40 + a) n) with
  | some e => e.1
  | none => 0

/-- Whether every 8-byte word of an access is owned by a colour of the mask. -/
def State.debugColours (s : State) (a words : Nat) : Bool :=
  (List.range words).all (fun k => s.memOwner (a + 8 * k) 8 != 0 && bit s.dbg.mask (s.memOwner (a + 8 * k) 8))

/-- Put words into DBG_DATA from register 0. -/
def putData (t : Table Word) (bytes : List Byte) (words : Nat) : Table Word :=
  (List.range words).foldl (fun t k => Table.set 0 t k (BitVec.ofNat 64 (leField bytes (8 * k) 8))) t

/-- A GO write of DBG_CTRL: ignored while BUSY; refused whole by COLOUR, LEVEL or UNMAPPED; else performed with colour 0, and
BUSY until it settles (R403). -/
def debugGo (s : State) (ctrl : Word) : State :=
  let d := s.dbg
  let write := bit ctrl 1
  let words := (field ctrl 4 5).toNat + 1
  let a := d.addr.toNat
  let refuse := fun (r : BitVec 3) => { s with dbg := { d with result := r } }
  if !bit ctrl 0 || d.busy then s
  else if !s.debugColours a words then refuse 2
  else if d.level = 0 || (write && d.level != 2) then refuse 1
  else if s.place a (8 * words) == .unmapped then refuse 3
  else
    let colour : BitVec 4 := BitVec.ofNat 4 (s.memOwner a 8)
    if write then
      let data := (List.range words).flatMap (fun k => leBytes 8 (Table.get 0 d.data k).toNat)
      let r := memWrite s a data
      let s := if r.2 then detectRemote r.1 colour a (8 * words) none else r.1
      { s with dbg := { s.dbg with busy := true, settle := 0 } }
    else
      let bad := s.detects a (8 * words)
      let data := putData d.data (s.bytesAt a (8 * words)) words
      let s := if bad then detectRemote s colour a (8 * words) none else s
      { s with dbg := { s.dbg with busy := true, settle := if bad then 4 else 0, data := data } }

/-- DBG_READ: a GO write with WRITE 0 (R403). -/
def execDbgRead (ctrl : Word) (s : State) : Result := live s fun s => if bit ctrl 1 then s else debugGo s ctrl

/-- DBG_WRITE: a GO write with WRITE 1 (R403). -/
def execDbgWrite (ctrl : Word) (s : State) : Result := live s fun s => if bit ctrl 1 then debugGo s ctrl else s

/-- DEBUG_ACCESS_COMPLETE: BUSY clears, and RESULT is OK or DATA_ERROR (R403). -/
def execDebugAccessComplete (s : State) : Result :=
  live s fun s => if s.dbg.busy then { s with dbg := { s.dbg with busy := false, result := s.dbg.settle } } else s

/-! ### One register (R393 to R407) -/

/-- The state a meaning answers, or the state before where it stops. -/
def after (s : State) (r : Result) : State :=
  match r with
  | .next t => t
  | _ => s

/-- A write of an identity register (Table 19-2). -/
def writeIdentity (s : State) (off : Nat) (v : Word) : State :=
  if off = 0x100 then
    { s with log := { s.log with faultSum := w1c s.log.faultSum s.log.newSum (v.setWidth 5), capqDrop := s.log.capqDrop && (!bit v 5 || s.log.newDrop) } }
  else if off = 0x140 then after s (execCapqPop s)
  else if 0x800 ≤ off && off < 0x880 && off % 8 = 0 then (if s.skovi.up then postSlot s ((off - 0x800) / 8) (field v 0 6).toNat else s)
  else s

/-- A write of a port register: HL_CTRL with exactly one bit, HL_WRAP (R400; Table 19-3). -/
def writePort (s : State) (p : PortId) (off : Nat) (v : Word) : State :=
  if off = 8 then
    match (field v 0 3).toNat with
    | 1 => portReset s p
    | 2 => portDisable s p
    | 4 => portEnable s p
    | _ => s
  else if off = 0x80 then s.modPort p.val (fun x => { x with counts := { x.counts with wrap := w1c x.counts.wrap x.counts.newWrap (v.setWidth 8) } })
  else s

/-- MAST_FLAGS written with v: each 1 clears its bit, unless hardware set it in this CCLK (R11, R401). -/
def Mast.clearFlags (m : Mast) (v : BitVec 3) : Mast :=
  let keep := fun (i : Nat) => !bit v i || bit m.newFlags i
  { m with lost := m.lost && keep 0, mismatch := m.mismatch && keep 1, regress := m.regress && keep 2 }

/-- A write of a Mast register; MAST_NEXT or MAST_EFFECTIVE written alone is kept as data (R401; Table 19-4). -/
def writeMast (s : State) (off : Nat) (v : Word) : State :=
  let m := s.mast
  if off = 0x20 then { s with mast := m.clearFlags (v.setWidth 3) }
  else if off = 0x28 then { s with mast := { m with regNext := field v 16 10 } }
  else if off = 0x30 then { s with mast := { m with regEffective := v } }
  else if off = 0x50 then { s with mast := { m with wrap := w1c m.wrap m.newWrap (v.setWidth 3) } }
  else s

/-- A write of a debug register (R402, R403). -/
def writeDebug (s : State) (off : Nat) (v : Word) : State :=
  if off = 0x100 then { s with dbg := { s.dbg with addr := v &&& 0xFFFFFFFFF8 } }
  else if off = 0x108 then debugGo s v
  else if 0x200 ≤ off && off < 0x300 then { s with dbg := { s.dbg with data := Table.set 0 s.dbg.data ((off - 0x200) / 8) v } }
  else s

/-- A CU_CTRL write with exactly one action bit (R406). -/
def writeCtrl (s : State) (c : CoreId) (v : Word) : State :=
  match (field v 0 5).toNat with
  | 1 => after s (execCuRun c s)
  | 2 => after s (execCuStop c s)
  | 4 => after s (execCuCoreReset c s)
  | 8 => after s (execCuEngineReset c (field v 8 3) s)
  | 16 => after s (execCuReplay c s)
  | _ => s

/-- A write of a core's register by Skovi: FLAGS and WRAP, CU_CTRL, and CU_PC, CU_COLOUR and SREG while the core is stopped
(R394, R404, R406, R407). -/
def writeCu (s : State) (c : CoreId) (off : Nat) (v : Word) : State :=
  let k := s.core c.val
  let still := k.st == .stopped || k.st == .stepHalt || k.st == .halted
  if !k.on then s
  else if off = 0x200 then s.setCore c.val (k.clearFlags v)
  else if off = 0x1A8 then s.setCore c.val { k with csr := { k.csr with wrap := w1c k.csr.wrap k.csr.newWrap (v.setWidth 5) } }
  else if off = 0x8000 then writeCtrl s c v
  else if !still then s
  else if off = 0x8008 then s.setCore c.val { k with csr := { k.csr with pc := v.setWidth 40 &&& ~~~ (7 : Dla) } }
  else if off = 0x8010 then s.setCore c.val { k with colour := v.setWidth 4 }
  else if 0x8100 ≤ off && off < 0x8200 && off % 8 = 0 then s.setCore c.val (k.setSreg ((off - 0x8100) / 8) v)
  else s

/-- A write of all 8 bytes of the register at an address of control space outside the mailbox windows. -/
def writeRegister (s : State) (a : Nat) (v : Word) : State :=
  let o := a - 0xF000000000
  if a < 0xF000000000 then s
  else if o < 0x10000 then writeIdentity s o v
  else if o < 0x20000 then writePort s (BitVec.toFin (BitVec.ofNat 2 ((o - 0x10000) / 0x4000))) (o % 0x4000) v
  else if o < 0x30000 then writeMast s (o % 0x10000) v
  else if o < 0x40000 then writeDebug s (o % 0x10000) v
  else if 0x1000000 ≤ o && o < 0x1300000 then writeCu s (Fin.ofNat 48 ((o - 0x1000000) / 0x10000)) (o % 0x10000) v
  else s

/-- The addresses of the registers that n bytes at a cover whole (R393). -/
def coveredRegisters (a n : Nat) : List Nat :=
  let first := (a + 7) / 8 * 8
  (List.range ((a + n - first) / 8)).map (fun k => first + 8 * k)

/-- A write of bytes to control space: each register covered whole takes it, MAST_PERIOD and MAST_EFFECTIVE together
schedule, and a mailbox window takes it as a window (R393, R401). -/
def writeControl (s : State) (a : Nat) (data : List Byte) : State :=
  match mbOf a with
  | some mb => if a + data.length ≤ mbBase mb + 0x10000 then hostWrite s mb (a - mbBase mb) data else s
  | none =>
    let rs := coveredRegisters a data.length
    let word := fun (r : Nat) => BitVec.ofNat 64 (leField data (r - a) 8)
    let both := rs.contains 0xF000020028 && rs.contains 0xF000020030
    let alone := if both then rs.filter (fun r => r != 0xF000020028 && r != 0xF000020030) else rs
    let s := alone.foldl (fun s r => writeRegister s r (word r)) s
    if both then writePeriod s (word 0xF000020028) (word 0xF000020030) else s

/-- REGISTER_WRITE (R393). -/
def execRegisterWrite (addr : Dla) (data : List Byte) (s : State) : Result := live s fun s => writeControl s addr.toNat data

end Sys2Proof.Machine
end

