-- ==== Sys2Proof/Machine/Boot.lean ====
section
/-!
DEFINITION. Power-on reset, boot, firmware load, clocks, thermal limits and the warm reset (R330, R370 to R388, R391).
-/
namespace Sys2Proof.Machine

/-! ### Resets (R289, R330, R374, R388, R395) -/

/-- PORST_ASSERT: every domain is reset, the log is cleared and the windows are zeroed (R374). The model's queue, clock, count
of free values and record of what left the die go on. -/
def execPorstAssert (s : State) : Result :=
  .next { State.reset with pending := s.pending, now := s.now, cclk := s.cclk, free := s.free, out := s.out }

/-- A port over a warm reset: mainband lost, TRAINING unless DISABLED, its sideband kept up (R64, R85, R87; Table 18-6). -/
def warmPort (s : State) (x : Port) : Port :=
  if x.st == .disabled then ({} : Port) else { st := .training, sbUp := x.sbUp, stChanged := true, lastSb := s.cclk }

/-- What firmware's records keep over a warm reset: the active build, and the events that Table 17-3 counts (R356, R388). -/
def Skovi.warm (k : Skovi) : Skovi :=
  { active := k.active, activeSha := k.activeSha, restarts := k.restarts, aborts := k.aborts, trips := k.trips
    telemetry := k.telemetry.filter (fun e => e.2.2.2) |>.map (fun e => (e.1, ((0 : Word), (0 : Word), true))) }

/-- Whether a firmware image is held: stage 4 has passed it, in this boot or before (R388; chapter 18, trip during boot). -/
def Boot.held (b : Boot) : Bool := b.imageOk && (b.warm || decide (5 ≤ b.stage))

/-- What the boot block keeps over a warm reset: BOOT_STATUS's sticky bits, the held image with its hash, the saved training
(R388, R395). -/
def Boot.warmed (b : Boot) : Boot :=
  { porstLow := false, stage := 1, warm := true, layerFailed := b.layerFailed, coreFailed := b.coreFailed, portFailed := b.portFailed
    image := if b.held then b.image else [], imageOk := b.held, imageHash := b.imageHash, savedTraining := b.savedTraining }

/-- The die warm reset: everything but the AUX domain is reset, and a warm boot begins (R60, R96, R289, R388). -/
def warmReset (s : State) : State :=
  let ports := (List.range 4).foldl (fun t p => Table.set {} t p (warmPort s (s.port p))) ([] : Table Port)
  let log : Log := { entries := s.log.entries, nextIndex := s.log.nextIndex, overflow := s.log.overflow }
  let s : State := { pending := s.pending, now := s.now, cclk := s.cclk, free := s.free, out := s.out, boot := s.boot.warmed, ports := ports, log := log,
                     skovi := s.skovi.warm, test := s.test }
  ([0, 1, 2, 3] : List PortId).foldl (fun s p => if (s.port p.val).sbUp then putInit s p .side else s) s

/-- Whether RSP_HEAD has passed the response of an answered WARM_RESET, or 10 ms have gone by (R330). -/
def State.warmDue (s : State) : Bool :=
  match s.boot.warmAt with
  | some (mb, at', t) =>
    let b := s.mailbox mb.toNat
    decide ((b.rspTail - b.rspHead).toNat < (b.rspTail - at').toNat) || decide (t + 10000 * cclkPerUs ≤ s.now)
  | none => false

/-- WARM_RESET_PERFORM (R330). -/
def execWarmResetPerform (s : State) : Result := live s fun s => if s.warmDue then warmReset s else s

/-- PORST_RELEASE: TEST_MODE is sampled; the cold boot begins, or the test state (R374, R382, R391). -/
def execPorstRelease (testMode : Bool) (s : State) : Result :=
  .next (if !s.boot.porstLow then s
    else { s with boot := { s.boot with porstLow := false, testState := testMode, stage := if testMode then 0 else 1 } })

/-! ### The firmware pull (R383, R386; Table 18-7) -/

/-- A firmware-load message for the partner on port p. -/
def sendLoad (s : State) (p : PortId) (mtype : Byte) (len off : Nat) (data : List Byte) : State :=
  sendOn s p { plainMsg s 0 0 opMgmt 0 0 with ll := true, data := [mtype, 0] ++ leBytes 2 len ++ leBytes 4 off ++ data }

/-- Ports whose sideband is up: a HUB partner first, then ascending (R383). -/
def State.pullOrder (s : State) : List PortId :=
  let up := ([0, 1, 2, 3] : List PortId).filter (fun p => (s.port p.val).sbUp)
  let hub := fun (p : PortId) => match (s.port p.val).partner with | some (_, _, _, role, _) => role == 1 | none => false
  up.filter hub ++ up.filter (fun p => !hub p)

/-- The bytes that the request at an offset asks for: 4,096, or what is left of an image whose header is known. -/
def Boot.chunk (b : Boot) (off : Nat) : Nat := if b.image.length < 256 then 4096 else Nat.min 4096 (imageLength b.image - off)

/-- Send the FW_REQ of an offset. -/
def askOffset (s : State) (off : Nat) : State :=
  match s.boot.sources with
  | p :: _ => sendLoad { s with boot := { s.boot with fwSentAt := s.now } } p 0x20 (s.boot.chunk off) off []
  | [] => s

/-- Ask for the next offset while fewer than four requests are outstanding and bytes are left. -/
def askMore : Nat → State → State
  | 0, s => s
  | n + 1, s =>
    let b := s.boot
    if b.fwOut.length < 4 && decide (b.fwNext < imageLength b.image) then
      let off := b.fwNext
      askMore n (askOffset { s with boot := { b with fwOut := b.fwOut ++ [off], fwNext := off + b.chunk off } } off)
    else s

/-- The pull from the first source of a list begins with offset 0; with no source left, stage 3 has failed (R383, R386). -/
def pullFrom (s : State) (sources : List PortId) : State :=
  let b := { s.boot with stage := 3, result := .inProgress, sources := sources, image := [], imageOk := false, fwOut := [], fwNext := 4096, fwTries := 0 }
  match sources with
  | [] => { s with boot := { b with result := if b.fwRejected then .authFailed else .noSource, failedAt := s.now } }
  | _ :: _ => askOffset { s with boot := { b with fwOut := [0] } } 0

/-- Stage 3 begins with every source. -/
def startPull (s : State) : State := pullFrom { s with boot := { s.boot with fwRejected := false } } s.pullOrder

/-- The ROM moves to the next source; bad says that an image was discarded (R385). -/
def nextSource (s : State) (bad : Bool) : State :=
  pullFrom { s with boot := { s.boot with fwRejected := s.boot.fwRejected || bad } } (s.boot.sources.drop 1)

/-- Bytes put into the image at an offset. -/
def placeBytes (img : List Byte) (off : Nat) (d : List Byte) : List Byte := takePad off img ++ d ++ img.drop (off + d.length)

/-- The whole image is here: authenticated, or discarded whole (R385). -/
def authenticate (s : State) : State :=
  let img := s.boot.image
  if imageAccepted img then
    { s with boot := { s.boot with imageOk := true, imageHash := Config.sha384 img, stage := 4, sources := [] } }
  else nextSource s true

/-- Firmware data from the present source for an outstanding offset (R383 to R385). -/
def takeData (s : State) (off : Nat) (d : List Byte) : State :=
  if d.isEmpty then nextSource s false
  else
    let b := s.boot
    let want := b.chunk off
    let img := placeBytes b.image off (d.take want)
    let rest := b.fwOut.filter (fun x => x != off)
    let short := d.length < want && decide (off + d.length < imageLength img)
    let b := { b with image := img, fwOut := if short then rest ++ [off + d.length] else rest, fwTries := 0, fwSentAt := s.now }
    let s := { s with boot := b }
    if 256 ≤ img.length && (leField img 8 4 = 0 || 8388352 < leField img 8 4) then nextSource s true
    else
      let s := if short then askOffset s (off + d.length) else s
      let s := if 256 ≤ img.length then askMore 4 s else s
      if s.boot.fwOut.isEmpty && imageLength img ≤ s.boot.fwNext then authenticate { s with boot := { s.boot with image := img.take (imageLength img) } } else s

/-- FW_DATA: taken in stage 3 from the present source for an outstanding offset; any other is discarded (R383). -/
def execFwData (p : PortId) (m : Msg) (s : State) : Result :=
  if s.forMailbox m then live s fun s => mailboxMessage s m else awake s fun s =>
    let s := takeMsg s m
    let b := s.boot
    let d := m.data.drop 8
    let off := leField m.data 4 4
    let ok := !m.bad && m.ll && leField m.data 0 1 == 0x21 && leField m.data 1 1 == 0 && leField m.data 2 2 == d.length && decide (d.length ≤ 4096)
    if ok && b.stage = 3 && b.result == .inProgress && b.sources.head? == some p && b.fwOut.contains off then takeData s off d else s

/-- FW_REQ: a compute partner answers from its own active image, with LENGTH 0 where it has none; a malformed request is
discarded and logged (R383). -/
def execFwReq (p : PortId) (m : Msg) (s : State) : Result :=
  if s.forMailbox m then live s fun s => mailboxMessage s m else awake s fun s =>
    let s := takeMsg s m
    let n := leField m.data 2 2
    let off := leField m.data 4 4
    if m.bad || !m.ll || leField m.data 0 1 != 0x20 || leField m.data 1 1 != 0 || m.data.length != 8 || n = 0 || 4096 < n then
      protocolError s p 0 m.src
    else
      let d := if s.boot.imageOk then (s.boot.image.drop off).take n else []
      sendLoad s p 0x21 d.length off d

/-- FW_REQ_RESEND: requests unanswered for 1 ms go again; at the third failure the ROM moves to the next source (R383). -/
def execFwReqResend (s : State) : Result :=
  awake s fun s =>
    let b := s.boot
    if b.stage != 3 || b.result != .inProgress || b.fwOut.isEmpty || decide (s.now < b.fwSentAt + 1000 * cclkPerUs) then s
    else if 2 ≤ b.fwTries then nextSource s false
    else b.fwOut.foldl askOffset { s with boot := { b with fwTries := b.fwTries + 1 } }

/-- BOOT_SOURCE_RETRY: 1 s after every source has failed, stage 3 begins again (R386). -/
def execBootSourceRetry (s : State) : Result :=
  awake s fun s =>
    let b := s.boot
    if b.stage = 3 && (b.result == .noSource || b.result == .authFailed) && decide (b.failedAt + cclkPerSec ≤ s.now) then startPull s else s

/-! ### Boot stages (R382 to R388; Table 18-6) -/

/-- The next stage begins, in progress. -/
def enterStage (s : State) (n : Nat) : State := { s with boot := { s.boot with stage := n, result := .inProgress } }

/-- The next stage begins; RESULT tells through it that the stage before left a part out (R386, R387). -/
def enterStageAfter (s : State) (n : Nat) (bad : Bool) (r : BootResult) : State :=
  { s with boot := { s.boot with stage := n, result := if bad then r else .inProgress } }

/-- Stage 2 is done: the pull begins, or a warm boot goes on with the image it holds if its hash is the recorded one (R388). -/
def endStage2 (s : State) : State :=
  if s.boot.warm && s.boot.imageOk && Config.sha384 s.boot.image == s.boot.imageHash then enterStage s 4 else startPull s

/-- Stage 4 is done: firmware takes over (R382, R395). -/
def endStage4 (s : State) : State :=
  if !s.boot.imageOk then s
  else enterStage { s with skovi := { s.skovi with up := true, active := imageBuild s.boot.image, activeSha := Config.sha384 s.boot.image } } 5

/-- A row that fails the boot test takes a spare row of its bank, while there is one (R122, R123). -/
def Skovi.remap (k : Skovi) (r : Nat) : Skovi := if k.retired.contains r || !k.spareFor r then k else { k with retired := k.retired ++ [r] }

/-- Whether the bank of a failing row needs more spare rows than it has (R122, R387; assumption 134). -/
def shortBank (rows : List Nat) (r : Nat) : Bool :=
  decide ((bankOfRow r).2 < (rows.eraseDups.filter (fun x => (bankOfRow x).1 == (bankOfRow r).1)).length)

/-- The stack layers that stay off: those that fail training or need more spare rows than a bank has (R387). -/
def badLayers (r : BootReport) : BitVec 12 :=
  r.rows.foldl (fun m x => if x < 2 ^ 30 && shortBank r.rows x then m ||| BitVec.ofNat 12 (2 ^ (x / (48 * 16 * 4096))) else m) r.layersFailed

/-- The cores that stay off: those that fail their boot test, CM rows beyond the spares of a bank included (R387). -/
def badCores (r : BootReport) : BitVec 48 :=
  r.rows.foldl (fun m x => if 2 ^ 30 ≤ x && shortBank r.rows x then m ||| BitVec.ofNat 48 (2 ^ ((x - 2 ^ 30) / (32 * 3072))) else m) r.coresFailed

/-- Stage 5 is done: the remap entries are rebuilt from the rows that failed, and every layer but the failed ones is on (R123,
R387). -/
def endStage5 (s : State) (r : BootReport) : State :=
  let s := { s with skovi := r.rows.foldl Skovi.remap { s.skovi with retired := [] } }
  let s := { s with mem := { s.mem with layersOn := ~~~ badLayers r }, boot := { s.boot with layerFailed := s.boot.layerFailed || badLayers r != 0 } }
  enterStageAfter s 6 (badLayers r != 0) .layerFailed

/-- An array after self-test (R217). -/
def testArray (s : State) (r : ArrayReport) : State :=
  s.modCore r.core.val (fun k => { k with arrays := Table.set {} k.arrays r.array.val ((Table.get {} k.arrays r.array.val).tested r) })

/-- Stage 6 is done: cores but the failed ones are on, arrays have their maps; four retired arrays are a persistent fault
(R217, R361, R387). -/
def endStage6 (s : State) (r : BootReport) : State :=
  let s := { s with skovi := r.rows.foldl Skovi.remap s.skovi }
  let s := ((List.range 48).filter (fun c => !bit (badCores r) c)).foldl (fun s c => s.modCore c (fun k => { k with on := true })) s
  let s := r.arrays.foldl testArray { s with boot := { s.boot with coreFailed := s.boot.coreFailed || badCores r != 0 } }
  enterStageAfter (checkArrays s) 7 (badCores r != 0) .coreFailed

/-- Stage 8 is done once no port trains: a port left DOWN has failed; training parameters are saved (R387, R388). -/
def endStage8 (s : State) : State :=
  if (List.range 4).any (fun p => (s.port p).st == .training) then s
  else
    let failed := (List.range 4).any (fun p => (s.port p).st == .down)
    enterStageAfter { s with boot := { s.boot with portFailed := s.boot.portFailed || failed, savedTraining := true } } 9 failed .portFailed

/-- Stage 9 is done once the die holds an ID and its Hub is VERIFIED (R96). -/
def endStage9 (s : State) : State :=
  match s.hub with
  | some h => if s.member.id.isSome && (s.die h.toNat).st == .verified then enterStage s 10 else s
  | none => s

/-- Stage 11 is done: firmware's bookings are armed, the stack is zero-filled, and the admin mailbox is READY with MB_EPOCH 1
(R46, R303, R386, R398). -/
def adminReady (s : State) : State :=
  let s := armOwn (zeroRange s 0 0x1200000000)
  let poor := s.boot.layerFailed || s.boot.coreFailed || s.boot.portFailed
  let s := { s with
    boot := { s.boot with result := .complete }, skovi := { s.skovi with mbEpoch := 1 }
    member := { s.member with health := if s.member.fenced then 2 else if poor then 1 else 0 } }
  triggerAll (s.setMailbox 0 (freshMailbox s 0))

/-- BOOT_STAGE_DONE: the present stage completes and the next begins; a stage that reports failure goes on under its cold
bound (R382). In the test state it is the zero fill that ends, and the test-state instructions are enabled (R391). -/
def execBootStageDone (r : BootReport) (s : State) : Result :=
  .next (
    if s.boot.porstLow || s.halted then s
    else if s.boot.testState then { s with boot := { s.boot with testReady := true } }
    else if !r.ok then { s with boot := { s.boot with savedTraining := false } }
    else match s.boot.stage with
      | 1 => enterStage s 2
      | 2 => endStage2 s
      | 4 => endStage4 s
      | 5 => endStage5 s r
      | 6 => endStage6 s r
      | 7 => enterStage s 8
      | 8 => endStage8 s
      | 9 => endStage9 s
      | 10 => if s.mast.st == .unlocked then s else enterStage s 11
      | 11 => if s.boot.result == .inProgress then adminReady s else s
      | _ => s)

/-! ### Clocks and thermal limits (R373, R376 to R381) -/

/-- Every mainband goes DOWN. -/
def allDown (s : State) : State :=
  ([0, 1, 2, 3] : List PortId).foldl (fun s p => if (s.port p.val).st == .disabled || (s.port p.val).st == .down then s else goDown s p true) s

/-- REFCLK_LOSS: CCLK stops and every mainband goes DOWN (R373). -/
def execRefclkLoss (s : State) : Result :=
  awake s fun s => if s.boot.refclkLost then s else allDown { s with boot := { s.boot with refclkLost := true } }

/-- REFCLK_RETURN: a warm boot (R373). -/
def execRefclkReturn (s : State) : Result :=
  awake s fun s => if s.boot.refclkLost && !s.boot.tripped then warmReset s else { s with boot := { s.boot with refclkLost := false } }

/-- The kind of sensor i: 12 stack layers among cores and ports (R376). -/
def layerSensor (i : Nat) : Bool := decide (48 ≤ i) && decide (i < 60)

/-- Whether sensor i is above its throttle threshold, in units of 1/16 °C (Table 18-5). -/
def tooHot (i : Nat) (t : BitVec 16) : Bool := decide ((if layerSensor i then 95 * 16 else 105 * 16 : Int) < t.toInt)

/-- Whether sensor i is below its end threshold (Table 18-5). -/
def coolAgain (i : Nat) (t : BitVec 16) : Bool := decide (t.toInt < (if layerSensor i then 93 * 16 else 103 * 16 : Int))

/-- A sensor of a core or layer without power gives no reading (R395). -/
def State.reading (s : State) (i : Nat) (t : BitVec 16) : BitVec 16 :=
  if (i < 48 && !(s.core i).on) || (layerSensor i && !bit s.mem.layersOn (i - 48)) then 0x8000 else t

/-- THERMAL_UPDATE: the ratio falls by 1/16 while anything is too hot or the power above 460 W, and rises by 1/16 when all is
cool and the power below 440 W (R377, R379). -/
def thermalStep (s : State) (temps : List (BitVec 16)) (power : BitVec 16) : State :=
  let now := ((List.range 64).zip temps).map (fun (x : Nat × BitVec 16) => (x.1, s.reading x.1 x.2))
  let hot := now.any (fun (x : Nat × BitVec 16) => tooHot x.1 x.2) || decide (460 * 8 < power.toNat)
  let cool := now.all (fun (x : Nat × BitVec 16) => coolAgain x.1 x.2) && decide (power.toNat < 440 * 8)
  let n := s.therm.ratio
  let m := if hot && 4 < n then n - 1 else if cool && n < 16 then n + 1 else n
  let t := now.foldl (fun t (x : Nat × BitVec 16) => Table.set 0x8000 t x.1 x.2) ([] : Table (BitVec 16))
  let s := { s with therm := { ratio := m, throttling := decide (m < 16), temps := t, power := power } }
  if m < n then raiseUnit s fThermalThrottle 0 15 none 0 else s

/-- THERMAL_UPDATE (R377); an update that does not name 64 sensors is no sample. -/
def execThermalUpdate (temps : List (BitVec 16)) (power : BitVec 16) (s : State) : Result :=
  if wfTemps temps then live s fun s => thermalStep s temps power else .fault (.illFormed "THERMAL_UPDATE")

/-- The actions of a trip: CCLK stops, mainbands go DOWN, F_THERMTRIP is logged; a second within 2^28 strokes is a persistent
fault (R361, R380). -/
def tripDie (s : State) (sensor : Nat) : State :=
  let s := allDown { s with boot := { s.boot with tripped := true } }
  let l := recent s s.skovi.trips
  let s := fwRaise { s with skovi := { s.skovi with trips := l } } fThermtrip 0 (BitVec.ofNat 16 sensor)
  if 2 ≤ l.length then persistentFault s 6 else s

/-- THERMTRIP: a sensor has reached its trip temperature (R380). -/
def execThermtrip (sensor : Fin 64) (s : State) : Result := awake s fun s => if s.boot.tripped then s else tripDie s sensor.val

/-- RAILS_RETURN: THERMTRIP_N is released and a warm boot runs (R381). -/
def execRailsReturn (s : State) : Result := awake s fun s => if s.boot.tripped then warmReset s else s

end Sys2Proof.Machine
end

