-- ==== Sys2Proof/Machine/Matrix.lean ====
section
/-!
DEFINITION. The matrix arrays: MAT, MACLR, MADRAIN, MAADD, MASTAT, the start of an instruction and the drain (chapter 10).
-/
namespace Sys2Proof.Machine

/-! ### The fields of MAT (Tables 10-6 and 10-7) -/

/-- The array that X[0] names. -/
def arrOf (f : Fields) : Nat := if bit f.x 0 then 1 else 0
/-- The bank that X[1] names in MA and VACC instructions. -/
def bankOf (f : Fields) : Nat := if bit f.x 1 then 1 else 0
/-- Array a of core c. -/
def Core.array (k : Core) (a : Nat) : MArray := Table.get {} k.arrays a
/-- The core with array a replaced. -/
def Core.setArray (k : Core) (a : Nat) (x : MArray) : Core := { k with arrays := Table.set {} k.arrays a x }
/-- Bank b of an array. -/
def MArray.bank (x : MArray) (b : Nat) : Bank := Table.get {} x.banks b
/-- The array with bank b replaced. -/
def MArray.setBank (x : MArray) (b : Nat) (y : Bank) : MArray := { x with banks := Table.set {} x.banks b y }
/-- The width W: 32 minus the bypassed columns (R217). -/
def MArray.width (x : MArray) : Nat := 32 - popcount x.bad
/-- Rows of a physical tile or a bank: 32, or 8 in Strip mode (R211, R219). -/
def tileRows (strip : Bool) : Nat := if strip then 8 else 32
/-- Columns of a physical tile or a bank: W, or 4W in Strip mode (R211, R219). -/
def tileCols (w : Nat) (strip : Bool) : Nat := if strip then 4 * w else w

/-- Bits of one element of a format (Table 10-2). -/
def fmtBits (fmt : Nat) : Nat := match fmt with | 1 => 4 | 4 => 16 | 5 => 1 | _ => 8
/-- The class of a format (Table 10-2): 0 INT, 1 OFP8, 2 BF16, 3 BIN. -/
def fmtClass (fmt : Nat) : Nat := match fmt with | 0 | 1 => 0 | 2 | 3 => 1 | 4 => 2 | _ => 3
/-- KB: bytes of one operand row, rounded up to a multiple of 16 (R208). -/
def rowBytes (k fmt : Nat) : Nat := roundUp (ceilDiv (k * fmtBits fmt) 8) 16

/-- The decoded tile of a MAT (Tables 10-6 and 10-7). -/
structure Tile where
  m : Nat
  n : Nat
  k : Nat
  opc : Nat
  af : Nat
  bf : Nat
  full : Bool
  bank : Nat
  clr : Bool
  strip : Bool
  df : Nat
  aOff : Nat
  bOff : Nat
  we : BitVec 10
  au : Bool
  bu : Bool
  cond : Nat

/-- Read the tile of a MAT. -/
def Tile.ofWords (f : Fields) (w : Word) : Tile :=
  { m := (field w 0 16).toNat, n := (field w 16 16).toNat, k := (field w 32 16).toNat, opc := (field w 48 3).toNat,
    af := (field w 51 3).toNat, bf := (field w 54 3).toNat, full := bit w 57, bank := if bit w 58 then 1 else 0,
    clr := bit w 59, strip := bit w 60, df := (field w 61 3).toNat, aOff := 256 * (field f.imm 0 10).toNat,
    bOff := 256 * (field f.imm 10 10).toNat, we := field f.imm 20 10, au := bit f.imm 30, bu := bit f.imm 31,
    cond := (field f.x 1 2).toNat }

/-- KB of the A operand. -/
def Tile.kbA (t : Tile) : Nat := rowBytes t.k t.af
/-- KB of the B operand. -/
def Tile.kbB (t : Tile) : Nat := rowBytes t.k t.bf
/-- Physical tiles of a FULL MAT along rows and columns (R211). -/
def Tile.rowBlocks (t : Tile) : Nat := ceilDiv t.m (tileRows t.strip)
/-- Physical tiles along columns on an array of width w. -/
def Tile.colBlocks (t : Tile) (w : Nat) : Nat := ceilDiv t.n (tileCols w t.strip)

/-- Reserved fields and codes of a MAT (R209 check 1; Tables 10-2, 10-5 to 10-7, 10-9). -/
def matReserved (f : Fields) (t : Tile) : Bool :=
  f.d != 0 || (!t.full && (f.a != 0 || f.b != 0 || t.df != 0)) || (t.full && (t.bank != 0 || t.clr || 6 ≤ t.df)) ||
  (t.opc != 6 && t.cond != 0) || (t.opc == 6 && t.cond == 3) || t.opc == 7 || 6 ≤ t.af || 6 ≤ t.bf

/-- The formats that R200 and Table 10-5 permit for an operation. -/
def formatsOk (t : Tile) : Bool :=
  if t.opc == 0 then fmtClass t.af == fmtClass t.bf && (t.af == t.bf || fmtClass t.af == 1)
  else if t.opc == 3 then t.af == 5 && t.bf == 5
  else t.af == t.bf && t.af != 5

/-- What a bank has recorded: WE, OPC and STRIP (R210). -/
abbrev Rec3 := Option (BitVec 10 × BitVec 3 × Bool)

/-- The records of a bank. -/
def Bank.records (b : Bank) : Rec3 := if b.recorded then some (b.we, b.opc, b.strip) else none

/-- The records of both banks and NEXT, as the instructions ahead leave them (R209 compares at issue). -/
structure Ahead where
  next : Nat
  r0 : Rec3
  r1 : Rec3

/-- A bank's records among both. -/
def Ahead.of (x : Ahead) (b : Nat) : Rec3 := if b = 0 then x.r0 else x.r1
/-- Set a bank's records. -/
def Ahead.put (x : Ahead) (b : Nat) (r : Rec3) : Ahead := if b = 0 then { x with r0 := r } else { x with r1 := r }

/-- The records after p physical tiles of a FULL MAT (R211). -/
def Ahead.tiles (x : Ahead) (p : Nat) (r : Rec3) : Ahead :=
  if p = 0 then x
  else if p = 1 then { (x.put x.next r) with next := 1 - x.next }
  else { next := (x.next + p) % 2, r0 := r, r1 := r }

/-- The records after a queued instruction. -/
def Ahead.after (w : Nat) (x : Ahead) (q : QInstr) : Ahead :=
  match q.op with
  | .mat =>
    let t := Tile.ofWords q.f q.w1
    let r : Rec3 := some (t.we, BitVec.ofNat 3 t.opc, t.strip)
    if t.full then x.tiles (t.rowBlocks * t.colBlocks w) r
    else if t.clr then x.put t.bank r else x
  | .maclr => x.put (bankOf q.f) (some (field q.f.imm 0 10, field q.f.imm 10 3, bit q.f.imm 13))
  | _ => x

/-- The records that an array's banks will hold once every instruction ahead has run. -/
def Core.ahead (k : Core) (a : Nat) : Ahead :=
  let x := k.array a
  let w := x.width
  let now : Ahead := { next := x.nextBank, r0 := (x.bank 0).records, r1 := (x.bank 1).records }
  let now := match x.cur with
    | some r =>
      let t := Tile.ofWords r.q.f r.q.w1
      now.tiles (t.rowBlocks * t.colBlocks w - (r.rowBlk * t.colBlocks w + r.colBlk)) (some (t.we, BitVec.ofNat 3 t.opc, t.strip))
    | none => now
  (k.queue a).foldl (Ahead.after w) now

/-- The conditions that raise F_TILE_INVALID (R209 check 4). -/
def tileInvalid (k : Core) (a : Nat) (t : Tile) (sB : Word) : Bool :=
  let w := (k.array a).width
  !formatsOk t || ((t.opc == 3 || t.opc == 6 || (t.opc == 0 && t.af == 5)) && t.we != 0) ||
  ((t.au || t.bu) && fmtClass t.af != 0) ||
  (!t.full && (decide (tileRows t.strip < t.m) || decide (tileCols w t.strip < t.n))) ||
  (!t.full && !t.clr && (k.ahead a).of t.bank != some (t.we, BitVec.ofNat 3 t.opc, t.strip)) ||
  (t.full && decide (1 < t.m) && decide (sB.toNat < t.n * drainSize t.df))

/-- Bytes from the first to the last of a destination of rows × cols elements (R208). -/
def destLast (rows cols esize : Nat) (stride : Word) : Int := ((rows - 1) * stride.toNat + cols * esize : Nat) - 1

/-- The operand-buffer range of a feeder, none where it is empty. -/
def feedRng (buf off bytes : Nat) : List Rng := if bytes = 0 then [] else [⟨.ob buf, off, off + bytes - 1, false⟩]

/-- The issue of a MAT: the checks of R209 in order, then the push with its three ranges (R185, R208, R210). -/
def matIssue (c : CoreId) (f : Fields) (w1 : Word) (s : State) : State :=
  let a := arrOf f
  let k := s.core c.val
  let t := Tile.ofWords f w1
  let sA := k.sreg f.a.toNat
  let sB := k.sreg f.b.toNat
  if matReserved f t then refuse s c.val fReservedSet
  else
    let dst : Except (BitVec 16) (List Rng) :=
      if !t.full then .ok []
      else
        match decodeOpnd s c.val sA with
        | .error e => .error e
        | .ok o =>
          if t.m = 0 || t.n = 0 then .ok []
          else if o.fits c.val 0 (destLast t.m t.n (drainSize t.df) sB) then .ok (rngOf s c.val o 0 (destLast t.m t.n (drainSize t.df) sB) true)
          else .error fAddrUnmapped
    match dst with
    | .error e => refuse s c.val e
    | .ok drs =>
      if 0x40000 < t.aOff + t.m * t.kbA || 0x40000 < t.bOff + t.n * t.kbB then refuse s c.val fAddrUnmapped
      else if (k.array a).retired then refuse s c.val fArrayRetired
      else if tileInvalid k a t sB then refuse s c.val fTileInvalid
      else
        pushEngine c.val a true (feedRng (2 * a) t.aOff (t.m * t.kbA) ++ feedRng (2 * a + 1) t.bOff (t.n * t.kbB) ++ drs)
          (!t.full && t.clr && k.bankBusy a t.bank) { op := .mat, f := f, w1 := w1, sa := sA, sb := sB } s

/-- MAT_ACC: an accumulate-mode MAT (R209, R210). -/
def execMatAcc (c : CoreId) (f : Fields) (w1 : Word) (s : State) : Result :=
  live s (issue c.val true true [f.a, f.b] (matIssue c f (clearBit w1 57)))
/-- MAT_FULL: a full-mode MAT (R209, R211). -/
def execMatFull (c : CoreId) (f : Fields) (w1 : Word) (s : State) : Result :=
  live s (issue c.val true true [f.a, f.b] (matIssue c f (setBit w1 57)))

/-! ### MA instructions (Table 10-8) -/

/-- The issue of an MA instruction with an address: ROWS, COLS and the extent are checked; a field of 0 is a no-op (R212). -/
def maMove (c : CoreId) (f : Fields) (op : EOp) (esize : Nat) (write : Bool) (s : State) : State :=
  let a := arrOf f
  let b := bankOf f
  let k := s.core c.val
  let rows := (field f.imm 0 6).toNat
  let cols := (field f.imm 6 8).toNat
  let strip := match (k.ahead a).of b with
    | some r => r.2.2
    | none => false
  match decodeOpnd s c.val (k.sreg f.a.toNat) with
  | .error e => refuse s c.val e
  | .ok o =>
    let last := destLast rows cols esize (k.sreg f.b.toNat)
    let none0 := rows = 0 || cols = 0
    if !none0 && !o.fits c.val 0 last then refuse s c.val fAddrUnmapped
    else if (k.array a).retired then refuse s c.val fArrayRetired
    else if tileRows strip < rows || tileCols (k.array a).width strip < cols then refuse s c.val fTileInvalid
    else
      pushEngine c.val a false (if none0 then [] else rngOf s c.val o 0 last write) (k.bankBusy a b)
        { op := op, f := f, sa := k.sreg f.a.toNat, sb := k.sreg f.b.toNat } s

/-- MACLR: clears the bank and records WE, OPC and STRIP (Table 10-8). -/
def execMaclr (c : CoreId) (f : Fields) (s : State) : Result :=
  live s (issue c.val false (f.only false false false 3 0x3FFF && field f.imm 10 3 != 7) [] fun s =>
    if ((s.core c.val).array (arrOf f)).retired then refuse s c.val fArrayRetired
    else pushEngine c.val (arrOf f) false [] ((s.core c.val).bankBusy (arrOf f) (bankOf f)) { op := .maclr, f := f } s)

/-- MADRAIN: drains ROWS × COLS of the bank in format DF to memory (Table 10-8). -/
def execMadrain (c : CoreId) (f : Fields) (s : State) : Result :=
  live s (issue c.val false (f.only false true true 3 0x1FFFF && decide ((field f.imm 14 3).toNat < 6)) [f.a, f.b]
    (maMove c f .madrain (drainSize (field f.imm 14 3).toNat) true))

/-- MAADD: adds RAW128 values from memory into the bank's cells (Table 10-8). -/
def execMaadd (c : CoreId) (f : Fields) (s : State) : Result :=
  live s (issue c.val false (f.only false true true 3 0x3FFF) [f.a, f.b] (maMove c f .maadd 16 false))

/-- MASTAT: a bank's loss masks, count and flags, or the array's width, into sD; it runs on a retired array too, whose
bit [8] it reports (Table 10-8; assumption 21). -/
def execMastat (c : CoreId) (f : Fields) (s : State) : Result :=
  live s (issue c.val false (f.only true false false 3 3) [f.d] fun s =>
    pushEngine c.val (arrOf f) false [] (field f.imm 0 2 != 3 && (s.core c.val).bankBusy (arrOf f) (bankOf f))
      { op := .mastat, f := f, sdest := some f.d.toNat } s)

/-! ### Cells (R201 to R205) -/

/-- Term t of an operand row as a number; a BIN bit reads as 0 or 1 (R200, R208). -/
def termNum (fmt : Nat) (uns : Bool) (row : List Byte) (t : Nat) : Num :=
  match fmt with
  | 0 => if uns then Num.ofInt (row.getD t 0).toNat else Num.ofInt (row.getD t 0).toInt
  | 1 =>
    let x := (row.getD (t / 2) 0).toNat / 16 ^ (t % 2) % 16
    if uns then Num.ofInt x else Num.ofInt (sext 4 x)
  | 2 => e4m3.decode (row.getD t 0).toNat
  | 3 => e5m2.decode (row.getD t 0).toNat
  | 4 => bf16.decode ((row.getD (2 * t) 0).toNat + 256 * (row.getD (2 * t + 1) 0).toNat)
  | _ => Num.ofInt ((row.getD (t / 8) 0).toNat / 2 ^ (t % 8) % 2)

/-- The term that a pair gives (Table 10-5). -/
def opcTerm (opc fmt cond : Nat) (a b : Num) : Num :=
  match opc with
  | 0 => if fmt = 5 then (if a == b then Num.ofInt 1 else Num.ofInt (-1)) else a.mul b
  | 1 => (a.sub b).abs
  | 2 => (a.sub b).mul (a.sub b)
  | 3 => if a == b then Num.ofInt 0 else Num.ofInt 1
  | 4 | 5 => a.add b
  | _ =>
    if a.isNan || b.isNan then .nan
    else
      let lt := a.ltNum b
      let gt := b.ltNum a
      if (cond == 0 && !lt && !gt) || (cond == 1 && lt) || (cond == 2 && !gt) then Num.ofInt 1 else Num.ofInt 0

/-- A cell takes one term: a special sets a flag, a finite term is placed and added, or wins a max or min
(R201, R203, R205). The flags are LOSS_LO and LOSS_HI. -/
def Cell.take (opc : Nat) (we : Int) (x : Cell) : Num → Cell × Bool × Bool
  | .nan => ({ x with nan := true }, false, false)
  | .inf neg => (if neg then { x with ninf := true } else { x with pinf := true }, false, false)
  | .fin neg m e =>
    let p := placeTerm we neg m e
    let v := BitVec.ofInt 128 p.1
    let y : Cell :=
      if opc = 4 then (if !x.filled || x.a.slt v then { x with a := v, filled := true } else x)
      else if opc = 5 then (if !x.filled || v.slt x.a then { x with a := v, filled := true } else x)
      else { x with a := x.a + v, filled := true }
    (y, p.2.1, p.2.2)

/-- A cell takes terms t to t + n − 1 of its row and column. -/
def Cell.dot (t : Tile) (ra rb : List Byte) : Nat → Nat → Cell × Bool × Bool → Cell × Bool × Bool
  | 0, _, r => r
  | n + 1, i, (x, lo, hi) =>
    let y := Cell.take t.opc t.we.toInt x (opcTerm t.opc t.af t.cond (termNum t.af t.au ra i) (termNum t.bf t.bu rb i))
    Cell.dot t ra rb n (i + 1) (y.1, lo || y.2.1, hi || y.2.2)

/-- The physical row and column of logical cell (i, j) (R217, R219). -/
def MArray.phys (x : MArray) (strip : Bool) (i j : Nat) : Nat × Nat :=
  let good := (List.range 32).filter (fun p => !bit x.bad p)
  if strip then (8 * (j / x.width) + i, good.getD (j % x.width) 0) else (i, good.getD j 0)

/-- What accumulating into a bank gathers: the bank, and the cells whose residue mismatched (R222). -/
structure Acc where
  bank : Bank
  hits : List (Nat × Nat) := []

/-- Row i of a tile accumulates its columns j to j + n − 1; operand rows m0 + i and n0 + j (R208, R210). -/
def accRow (t : Tile) (x : MArray) (ra : List Byte) (rb : Nat → List Byte) (i : Nat) : Nat → Nat → Acc → Acc
  | 0, _, r => r
  | n + 1, j, r =>
    let key := i * 128 + j
    let y := Cell.dot t ra (rb j) t.k 0 (Table.get {} r.bank.cells key, false, false)
    let p := x.phys t.strip i j
    let bad := t.k != 0 && Table.get 0 x.faulty (p.1 * 32 + p.2) != 0
    let b := { r.bank with
      cells := Table.set {} r.bank.cells key y.1
      lossLo := if y.2.1 then setBit r.bank.lossLo i else r.bank.lossLo
      lossHi := if y.2.2 then setBit r.bank.lossHi i else r.bank.lossHi
      poison := if bad then setBit r.bank.poison p.1 else r.bank.poison }
    accRow t x ra rb i n (j + 1) { bank := b, hits := if bad then r.hits ++ [p] else r.hits }

/-- The term count after K more terms, with LOSS_HI for every row once it passes 2^24 (R202). -/
def Bank.countTerms (b : Bank) (k : Nat) : Bank :=
  let n := Nat.min (2 ^ 24 + 1) (b.count + k)
  { b with count := n, lossHi := if 2 ^ 24 < n then 0xFFFFFFFF else b.lossHi }

/-- A cleared bank with its records (R210). -/
def Bank.cleared (we : BitVec 10) (opc : Nat) (strip : Bool) : Bank :=
  { we := we, opc := BitVec.ofNat 3 opc, strip := strip, recorded := true }

/-- Accumulate rows × cols of a tile into a bank, from operand rows m0 and n0 on (R210, R211). -/
def accumulate (s : State) (c a : Nat) (t : Tile) (b : Bank) (m0 n0 rows cols : Nat) : Acc :=
  let k := s.core c
  let x := k.array a
  let ra := fun i => k.obBytes (2 * a) (t.aOff + (m0 + i) * t.kbA) t.kbA
  let rb := fun j => k.obBytes (2 * a + 1) (t.bOff + (n0 + j) * t.kbB) t.kbB
  let r := (List.range rows).foldl (fun r i => accRow t x (ra i) rb i cols 0 r) { bank := b }
  { r with bank := r.bank.countTerms t.k }

/-- Flags joined to the status of FULL MAT n, which every bank that it wrote last holds (R211). -/
def MArray.joinMat (x : MArray) (n : Nat) (lo hi : BitVec 32) : MArray :=
  if n = 0 then x
  else [0, 1].foldl (fun x b =>
    let y := x.bank b
    if y.mat = n then x.setBank b { y with matLo := y.matLo ||| lo, matHi := y.matHi ||| hi } else x) x

/-- LOSS_HI of row i of a bank, and of that row of the FULL MAT that wrote the bank last (R211, R213). -/
def MArray.noteHi (x : MArray) (b i : Nat) : MArray :=
  let y := x.bank b
  (x.setBank b { y with lossHi := setBit y.lossHi i }).joinMat y.mat 0 (setBit 0 ((y.row0 + i) % 32))

/-- Whether the feeders hold a byte of failed parity in what the tile reads (R107). -/
def feedBad (k : Core) (a : Nat) (t : Tile) (m0 n0 rows cols : Nat) : Bool :=
  k.obBad.any (fun y =>
    let lo := 2 * a * 0x40000 + t.aOff + m0 * t.kbA
    let lo' := (2 * a + 1) * 0x40000 + t.bOff + n0 * t.kbB
    (lo ≤ y && y < lo + rows * t.kbA) || (lo' ≤ y && y < lo' + cols * t.kbB))

/-- F_MA_RESIDUE of one cell: logged with array, bank and column; the column's third marks the array for retest (R222). -/
def residueHit (c a b : Nat) (s : State) (p : Nat × Nat) : State :=
  let s := raiseD s c fMaResidue (1 + a) (BitVec.ofNat 16 (p.2 + 32 * b)) 0
  s.modCore c (fun k =>
    let x := k.array a
    let n := Table.get 0 x.residues p.2 + 1
    k.setArray a { x with
      residues := Table.set 0 x.residues p.2 n
      retest := x.retest || decide (3 ≤ n)
      faulty := Table.set 0 x.faulty (p.1 * 32 + p.2) 0 })

/-- Write a bank's new contents back, with the detections of its accumulate (R107, R222). -/
def settleAcc (s : State) (c a b : Nat) (t : Tile) (m0 n0 rows cols : Nat) (r : Acc) : State :=
  let bad := feedBad (s.core c) a t m0 n0 rows cols
  let s := s.modCore c (fun k => k.setArray a ((k.array a).setBank b r.bank))
  let s := r.hits.foldl (residueHit c a b) s
  if bad then raiseD s c fObParity (1 + a) 0 0 else s

/-! ### Starting and draining (R211, R212, R216) -/

/-- The instruction has started and only its completion remains. -/
def toRunning (s : State) (c e : Nat) (q : QInstr) : State :=
  s.modCore c (fun k => { k with running := Table.set [] k.running e (k.run e ++ [q]) })

/-- The next physical tile of a FULL MAT: clear bank NEXT, accumulate, queue its drain, toggle NEXT (R211). -/
def runTile (s : State) (c a : Nat) (r : TileRun) : State :=
  let t := Tile.ofWords r.q.f r.q.w1
  let x := (s.core c).array a
  let rb := tileRows t.strip
  let cb := tileCols x.width t.strip
  let m0 := r.rowBlk * rb
  let n0 := r.colBlk * cb
  let rows := Nat.min rb (t.m - m0)
  let cols := Nat.min cb (t.n - n0)
  let b := x.nextBank
  let mine := ([0, 1].map x.bank).filter (fun y => y.mat == x.mats)
  let fresh := { Bank.cleared t.we t.opc t.strip with
    mat := x.mats, row0 := m0, matLo := (mine.map (·.matLo)).foldl (· ||| ·) 0, matHi := (mine.map (·.matHi)).foldl (· ||| ·) 0 }
  let acc := accumulate s c a t fresh m0 n0 rows cols
  let s := settleAcc s c a b t m0 n0 rows cols acc
  let lastCol := t.colBlocks x.width ≤ r.colBlk + 1
  let done := lastCol && t.rowBlocks ≤ r.rowBlk + 1
  let d : Drain := {
    bank := b, rows := rows, cols := cols, df := BitVec.ofNat 3 t.df, dst := r.q.sa,
    off := m0 * r.q.sb.toNat + n0 * drainSize t.df, stride := r.q.sb.toNat, q := r.q, final := done }
  s.modCore c (fun k =>
    let x := k.array a
    let rot := fun (m : BitVec 32) => (bitsSet m).foldl (fun acc i => setBit acc ((m0 + i) % 32)) (0 : BitVec 32)
    k.setArray a { x.joinMat x.mats (rot acc.bank.lossLo) (rot acc.bank.lossHi) with
      nextBank := 1 - b
      drains := x.drains ++ [d]
      cur := if done then none else some { r with rowBlk := if lastCol then r.rowBlk + 1 else r.rowBlk, colBlk := if lastCol then 0 else r.colBlk + 1 } })

/-- Whether a drain of a bank is still due (R216). -/
def MArray.drainDue (x : MArray) (b : Nat) : Bool := x.drains.any (fun d => d.bank == b)

/-- The cells after MAADD of one element: a special code sets a flag, a finite value is added modulo 2^128 (Table 10-8). -/
def Cell.addRaw (x : Cell) (v : BitVec 128) : Cell :=
  if v = rawNan then { x with nan := true }
  else if v = rawPinf then { x with pinf := true }
  else if v = rawNinf then { x with ninf := true }
  else { x with a := x.a + v, filled := true }

/-- One row of MAADD: columns 0 to n − 1 take the values of data; a cell whose residue mismatches poisons its row (R222,
Table 10-8). -/
def addRow (x : MArray) (data : List Byte) (i n : Nat) (b : Bank) : Acc :=
  (List.range n).foldl (fun (r : Acc) j =>
    let key := i * 128 + j
    let p := x.phys b.strip i j
    let bad := Table.get 0 x.faulty (p.1 * 32 + p.2) != 0
    { bank := { r.bank with
        cells := Table.set {} r.bank.cells key ((Table.get {} r.bank.cells key).addRaw (BitVec.ofNat 128 (leField data (16 * j) 16)))
        poison := if bad then setBit r.bank.poison p.1 else r.bank.poison }
      hits := if bad then r.hits ++ [p] else r.hits }) { bank := b }

/-- MAADD at its start: every element of ROWS × COLS is read and added, each add under its cell's residue check (R222, Table 10-8). -/
def runMaadd (s : State) (c a : Nat) (q : QInstr) : State :=
  match decodeOpnd s c q.sa with
  | .error _ => s
  | .ok o =>
    let rows := (field q.f.imm 0 6).toNat
    let cols := (field q.f.imm 6 8).toNat
    let b := bankOf q.f
    let row := fun (s : State) (i : Nat) =>
      let r := fetchOpnd s c o (i * q.sb.toNat : Nat) (cols * 16) (1 + a)
      let x := (r.2.core c).array a
      let y := addRow x r.1 i cols (x.bank b)
      y.hits.foldl (residueHit c a b) (r.2.modCore c (fun k => k.setArray a ((k.array a).setBank b y.bank)))
    if cols = 0 then s else (List.range rows).foldl row s

/-- The value MASTAT returns (Table 10-8); a bank last written by a FULL MAT reports that MAT's loss masks (R211). -/
def mastatValue (x : MArray) (b item : Nat) : Word :=
  let y := x.bank b
  match item with
  | 0 => (if y.mat = 0 then y.lossLo else y.matLo).setWidth 64
  | 1 => (if y.mat = 0 then y.lossHi else y.matHi).setWidth 64
  | 2 => BitVec.ofNat 64 (y.count + (if y.cells.any (·.2.nan) then 2 ^ 25 else 0) + (if y.cells.any (·.2.pinf) then 2 ^ 26 else 0) +
      (if y.cells.any (·.2.ninf) then 2 ^ 27 else 0))
  | _ => BitVec.ofNat 64 (x.width + (if x.retired then 256 else 0))

/-- Start the instruction at the head of an array's queue, already popped (R210 to R212, R216). -/
def startMa (s : State) (c a : Nat) (q : QInstr) : State :=
  match q.op with
  | .mat =>
    let t := Tile.ofWords q.f q.w1
    if t.full then
      let s := s.modCore c (fun k => k.setArray a { k.array a with mats := (k.array a).mats + 1 })
      if t.m = 0 || t.n = 0 then toRunning s c a q else runTile s c a { q := q }
    else
      let b0 := if t.clr then Bank.cleared t.we t.opc t.strip else ((s.core c).array a).bank t.bank
      let acc := if t.m = 0 || t.n = 0 then { bank := b0 } else accumulate s c a t { b0 with mat := 0 } 0 0 t.m t.n
      toRunning (settleAcc s c a t.bank t 0 0 t.m t.n acc) c a q
  | .maclr =>
    toRunning (s.modCore c (fun k => k.setArray a ((k.array a).setBank (bankOf q.f)
      (Bank.cleared (field q.f.imm 0 10) (field q.f.imm 10 3).toNat (bit q.f.imm 13))))) c a q
  | .madrain =>
    let rows := (field q.f.imm 0 6).toNat
    let cols := (field q.f.imm 6 8).toNat
    if rows = 0 || cols = 0 then toRunning s c a q
    else
      s.modCore c (fun k =>
        let x := k.array a
        let d : Drain := {
          bank := bankOf q.f, rows := rows, cols := cols, df := field q.f.imm 14 3,
          dst := q.sa, off := 0, stride := q.sb.toNat, q := q, final := true }
        k.setArray a { x with drains := x.drains ++ [d] })
  | .maadd => toRunning (runMaadd s c a q) c a q
  | .mastat => toRunning s c a { q with sres := mastatValue ((s.core c).array a) (bankOf q.f) (field q.f.imm 0 2).toNat }
  | _ => toRunning s c a q

/-- Whether every bank that an instruction uses has finished reading out its last drain row (R216). -/
def banksFree (x : MArray) (q : QInstr) : Bool :=
  match q.op with
  | .mat =>
    let t := Tile.ofWords q.f q.w1
    if t.full then
      let p := t.rowBlocks * t.colBlocks x.width
      (p = 0 || !x.drainDue x.nextBank) && (p ≤ 1 || !x.drainDue (1 - x.nextBank))
    else !x.drainDue t.bank
  | .maclr | .maadd => !x.drainDue (bankOf q.f)
  | _ => true

/-- MA_TILE_START: the array runs the next physical tile of its FULL MAT, or pops and starts the instruction at its
queue's head, once the banks it needs are free (R211, R216). -/
def execMaTileStart (c : CoreId) (a : Fin 2) (s : State) : Result :=
  live s fun s =>
    let k := s.core c.val
    let x := k.array a.val
    match x.cur with
    | some r => if x.drainDue x.nextBank then s else runTile s c.val a.val r
    | none =>
      match k.queue a.val with
      | [] => s
      | q :: rest =>
        if banksFree x q then startMa (s.setCore c.val { k with queues := Table.set [] k.queues a.val rest }) c.val a.val q else s

/-- One drained element: written at its place, poisoned with its row; LOSS_HI where it saturated (R211, R213, R222). -/
def drainCell (c a : Nat) (d : Drain) (o : Opnd) (i : Nat) (s : State) (j : Nat) : State :=
  let x := (s.core c).array a
  let y := x.bank d.bank
  let cell := Table.get {} y.cells (i * 128 + j)
  let r := drainBytes d.df.toNat (cell.num y.we.toInt y.opc) (cell.raw y.opc)
  let s := writeOpnd s c o (d.off + i * d.stride + j * drainSize d.df.toNat : Nat) r.1 (bit y.poison (x.phys y.strip i j).1)
  if r.2 then
    s.modCore c (fun k => k.setArray a ((k.array a).noteHi d.bank i))
  else s

/-- MA_DRAIN: the oldest due drain reads out its rows, rounding once, and writes them (R211, R213, R216). -/
def execMaDrain (c : CoreId) (a : Fin 2) (s : State) : Result :=
  live s fun s =>
    match ((s.core c.val).array a.val).drains with
    | [] => s
    | d :: rest =>
      let s := match decodeOpnd s c.val d.dst with
        | .error _ => s
        | .ok o => (List.range d.rows).foldl (fun s i => (List.range d.cols).foldl (drainCell c.val a.val d o i) s) s
      let s := s.modCore c.val (fun k => k.setArray a.val { k.array a.val with drains := rest })
      if d.final then toRunning s c.val a.val d.q else s

/-- ENGINE_INSTRUCTION_COMPLETE: the oldest started instruction of an engine completes: its entries free, its scalar or
mask result is no longer pending, and a scalar result is written (R173, R176, R233). -/
def execEngineInstructionComplete (c : CoreId) (e : Engine) (s : State) : Result :=
  live s fun s =>
    let i := match e with | .ma0 => 0 | .ma1 => 1 | .ve => 2 | .ru => 3 | .su => 4 | .mv => 5
    let k := s.core c.val
    match k.run i with
    | [] => s
    | q :: rest =>
      let k := match q.sdest with
        | some d => { (k.setSreg d q.sres) with pendS := eraseOnce d k.pendS }
        | none => k
      let k := match q.mdest with
        | some m => { k with pendM := eraseOnce m k.pendM }
        | none => k
      s.setCore c.val ({ k with running := Table.set [] k.running i rest, sb := freeEntries k.sb q.entries }).settleStop

end Sys2Proof.Machine
end

