-- ==== Sys2Proof/Machine/Messages.lean ====
section
/-!
DEFINITION. Messages performed at their destination, and responses matched to their requests (R71, R78, R88, R119, R120,
R132, R135, R143, R144, R166, R170, R220, R291).
-/
namespace Sys2Proof.Machine

/-- A WRITE or LEDGER from an ABSENT die is discarded and logged (R103). -/
def absentSource (s : State) (p : PortId) (m : Msg) : State :=
  raiseUnit s fAbsentSource m.colour (9 + p.val) (some m.src) 0

/-- A window piece of n bytes that is refused gives its units back, a last part counted whole (R166, R170). -/
def refusePiece (s : State) (m : Msg) (n : Nat) : State :=
  if m.winv then refuseUnits s m.win m.src (field m.tag 6 6) (ceilDiv n 256) else s

/-- A window piece whose n bytes are performed waits to be booked (R166). -/
def landPiece (s : State) (m : Msg) (n : Nat) : State :=
  if m.winv && n != 0 then
    { s with landed := s.landed ++ [{ win := m.win, die := m.src, core := field m.tag 6 6, units := ceilDiv n 256 }] }
  else s

/-- The answer to a message that waited here; none where its acknowledgement left early (R143). -/
def answerArrived (s : State) (a : Arrived) (status : BitVec 4) (data : List Byte) : State :=
  if a.acked then s else answerMsg s a.msg (answerOp a.msg.op) status data

/-- What a VC0 request meets before its access: a WRITE or LEDGER from an ABSENT die, or a colour in reset (R103, R291). -/
def requestGate (s : State) (a : Arrived) (f : State → State) : State :=
  let m := a.msg
  let s := takeMsg s m
  if (s.die m.src.toNat).st == .absent && m.op != opRead then absentSource s a.port m
  else if s.resetting m.colour.toNat then answerArrived s a 2 []
  else f s

/-- A refused access to control space raises F_COLOUR_REFUSED here as well (R136, R283; assumption 120). -/
def noteControl (s : State) (a : Arrived) (x n : Nat) : State :=
  if s.place x n == .ctl then raiseUnit s fColourRefused a.msg.colour (9 + a.port.val) (some a.msg.src) 0 else s

/-- The answer after a request whose message broke a rule is MALFORMED, else OK (R68). -/
def okOrBad (bad : Bool) : BitVec 4 := if bad then 5 else 0

/-- A fence probe: a WRITE whose flits carry no bytes, answered once no VC0 message received earlier from its source and colour
still waits (R144). -/
def fenceProbe (s : State) (m : Msg) : State :=
  let ahead := s.arrived.takeWhile (fun a => a.msg != m)
  let before := if s.arrived.any (fun a => a.msg == m) then ahead else s.arrived
  if before.any (fun a => isRequest a.msg.op && a.msg.src == m.src && a.msg.colour == m.colour) then s
  else requestGate s (s.arrival m) (fun s => answerMsg s m opWriteAck (okOrBad m.bad) [])

/-- One slot of a LEDGER message is added into the 16 bytes at an address; a failed check on the read half leaves the
merged bytes failed (R220). The flag says that one was met. -/
def addSlot (colour : BitVec 4) (src : BitVec 6) (acc : State × Bool) (x : Nat × List Byte) : State × Bool :=
  let s := acc.1
  let old := BitVec.ofNat 128 (leNat (s.bytesAt x.1 16))
  let sum := ledgerAdd (Config.freeLedger s.free) old (BitVec.ofNat 128 (leNat x.2))
  let bad := s.detects x.1 16
  let s := (memWrite { s with free := s.free + 1 } x.1 (leBytes 16 sum.toNat)).1
  if bad then
    let s := if x.1 < 0x1200000000 then s else
      { s with mem := { s.mem with cmBad := (List.range 16).foldl (fun l i => insertNat (x.1 + i) l) s.mem.cmBad } }
    (detectRemote s colour x.1 16 (some src), true)
  else (s, acc.2)

/-- The 16-byte slots of a LEDGER payload with their addresses. -/
def ledgerSlots (a : Nat) (data : List Byte) : List (Nat × List Byte) :=
  (List.range (data.length / 16)).map (fun i => (a + 16 * i, (data.drop (16 * i)).take 16))

/-- The bytes of a WRITE from offset i to offset j are written and merged; those of a LEDGER are added slot by slot. The flag
says that a slot met a failed check (R119, R220). -/
def performBytes (s : State) (m : Msg) (i j : Nat) : State × Bool :=
  let a := m.addr.toNat + i
  let data := (m.data.take j).drop i
  if m.op == opLedger then (ledgerSlots a data).foldl (addSlot m.colour m.src) (s, false)
  else
    let r := memWrite s a data
    (if r.2 then detectRemote r.1 m.colour a data.length (some m.src) else r.1, false)

/-- Whether a LEDGER message is not aligned to its slots (assumption 50). -/
def ledgerSkew (m : Msg) : Bool := m.op == opLedger && m.addr.toNat % 16 != 0

/-- The WRITE or LEDGER that a port of this die is still receiving. -/
def State.receiving (s : State) (m : Msg) : Option (PortId × RxPart) :=
  ([0, 1, 2, 3] : List PortId).findSome? (fun p =>
    match s.rxPart p .main 0 with
    | some r => if r.msg == m && !r.fwd && !m.bad && (m.op == opWrite || m.op == opLedger) then some (p, r) else none
    | none => none)

/-- The whole granules that have arrived of a message still being received are performed where its checks pass; what is left
waits for its later flits (R68, R69, R87, R291; assumption 49). -/
def performPart (s : State) (p : PortId) (r : RxPart) : State :=
  let m := r.msg
  let upTo := (m.addr.toNat + m.data.length) / 64 * 64 - m.addr.toNat
  if upTo ≤ r.done || ledgerSkew m || (s.die m.src.toNat).st == .absent || s.resetting m.colour.toNat || checkPage s m != .ok then s
  else
    let x := performBytes s m r.done upTo
    setRx x.1 p .main 0 (some { r with done := upTo, hurt := r.hurt || x.2 })

/-- A whole WRITE or LEDGER: the page is checked, the bytes not yet performed are, the window piece is booked, and the message is
answered; one that broke a rule keeps what came before it, is answered MALFORMED, and gives the units of its piece back (R68,
R78, R119, R143, R170, R220). -/
def performWhole (s : State) (m : Msg) : State :=
  let a := s.arrival m
  requestGate s a (fun s =>
    let room := 4096 - m.addr.toNat % 4096
    let kept := Nat.min m.data.length room
    let kept := if m.op == opLedger then kept / 16 * 16 else kept
    let bad := m.bad || decide (kept < m.data.length)
    if ledgerSkew m then answerArrived (refusePiece s m a.total) a 5 []
    else if checkPage s m != .ok then answerArrived (refusePiece (noteControl s a (m.addr.toNat / 4096 * 4096) 4096) m a.total) a 3 []
    else
      let x := performBytes s m a.done kept
      let hurt := a.hurt || x.2
      answerArrived (if bad then refusePiece x.1 m a.total else landPiece x.1 m kept) a (if bad then 5 else if hurt then 4 else 0) [])

/-- WRITE_MESSAGE: a whole message is performed and acknowledged; of one still being received, the granules that have arrived
are performed; one without bytes is a fence probe (R68, R69, R78, R119, R143, R144). -/
def execWriteMessage (m : Msg) (s : State) : Result :=
  live s fun s =>
    match s.arrived.any (fun a => a.msg == m), s.receiving m with
    | false, some (p, r) => performPart s p r
    | _, _ => if (s.arrival m).total = 0 then fenceProbe s m else performWhole s m

/-- READ_MESSAGE: checked whole; answered with the bytes, with failed data as read, or with an error (R68, R78, R120). -/
def execReadMessage (m : Msg) (s : State) : Result :=
  live s fun s =>
    let w := s.arrival m
    requestGate s w (fun s =>
      let n := leField m.data 0 4
      let a := m.addr.toNat
      if m.bad || n = 0 || 4096 < n then answerMsg s m opReadData 5 []
      else if s.check m.colour.toNat none none false a n != .ok then answerMsg (noteControl s w a n) m opReadData 3 []
      else if s.detects a n then answerMsg (detectRemote s m.colour a n (some m.src)) m opReadData 4 (s.bytesAt a n)
      else answerMsg s m opReadData 0 (s.bytesAt a n))

/-- LEDGER_MESSAGE: as WRITE_MESSAGE, each slot added in its granule; a detection is answered DATA_ERROR (R220). A message that
is not aligned to 16 bytes is answered MALFORMED (assumption 50). -/
def execLedgerMessage (m : Msg) (s : State) : Result :=
  live s fun s =>
    match s.arrived.any (fun a => a.msg == m), s.receiving m with
    | false, some (p, r) => performPart s p r
    | _, _ => performWhole s m

/-- FENCE_PROBE (R144). -/
def execFenceProbe (m : Msg) (s : State) : Result := live s fun s => fenceProbe s m

/-- Whether a request awaits READ_DATA. -/
def ReqKind.wantsData (k : ReqKind) : Bool := match k with | .read _ _ _ _ _ _ => true | .orphan _ => true | .bulk _ _ _ w => !w | _ => false

/-- Whether a request awaits WRITE_ACK. -/
def ReqKind.wantsAck (k : ReqKind) : Bool := match k with | .read _ _ _ _ _ _ => false | .bulk _ _ _ w => w | _ => true

/-- The request that a response answers: TAG, and SRC the die asked; NO_ROUTE may come from a die on the way (R77, R88;
assumption 48). -/
def State.matching (s : State) (m : Msg) (k : ReqKind → Bool) : Option Req :=
  s.reqs.find? (fun q => q.tag == m.tag && (q.die == m.src || m.status == 1) && k q.kind)

/-- Whether the write of bytes that came back must wait for tokens (R297). -/
def State.writeShort (s : State) (q : Req) : Bool :=
  match s.writeOf q with
  | some (_, cost) => q.colour != 0 && cost.any (fun p => p.2 != 0 && (s.bucket q.colour.toNat p.1).waits)
  | none => false

/-- A response ends its request, once the write of its bytes has its tokens, or is discarded where it has timed out, which frees
its TAG (R88, R146, R161, R162, R297). -/
def response (s : State) (m : Msg) (k : ReqKind → Bool) : State :=
  let held := s
  let s := takeMsg s m
  match s.matching m k with
  | some q =>
    match s.writeOf q with
    | some (_, cost) => if m.status == 0 && s.writeShort q then (qosStart held q.colour.toNat cost).2 else settle s q (m.status.setWidth 8) m.data
    | none => settle s q (m.status.setWidth 8) m.data
  | none => { s with late := s.late.filter (fun e => !(e.1 == m.tag && (e.2 == m.src || m.status == 1))) }

/-- READ_DATA_RECEIVE (R88). -/
def execReadDataReceive (m : Msg) (s : State) : Result := live s fun s => response s m ReqKind.wantsData

/-- WRITE_ACK_RECEIVE (R88, R143). -/
def execWriteAckReceive (m : Msg) (s : State) : Result := live s fun s => response s m ReqKind.wantsAck

/-- Whether a slot of a type carries a nonzero reserved bit (Tables 8-6, 13-4, 14-5). A Mast frame has its own rule (R39). -/
def slotReserved (t : Nat) (slot : Slot) : Bool :=
  match t with
  | 2 | 3 => field slot 14 18 != 0 || field slot 52 76 != 0
  | 4 => bit slot 7 || field slot 10 6 != 0 || field slot 31 97 != 0
  | 5 => bit slot 7 || field slot 10 6 != 0 || field slot 24 104 != 0
  | 6 => field slot 6 58 != 0
  | 7 => field slot 8 24 != 0
  | _ => false

/-- One slot of a CTRL flit goes onto the mesh; an empty one is skipped, a reserved type or field ends the message (R68, R71,
R272). -/
def takeSlot (p : PortId) (m : Msg) (acc : State × Bool) (i : Nat) : State × Bool :=
  let t := leField m.data (208 + i) 1
  let slot : Slot := BitVec.ofNat 128 (leField m.data (16 * i) 16)
  if acc.2 || t = 0 then acc
  else if 7 < t || slotReserved t slot then (protocolError acc.1 p m.colour m.src, true)
  else ({ acc.1 with mesh := acc.1.mesh ++ [{ stype := BitVec.ofNat 8 t, colour := m.colour, src := m.src, core := 0, slot := slot }] }, false)

/-- CTRL_FLIT_RECEIVE: the 13 slots in order; nonzero reserved bytes break the message before them, at the port it arrived on
(R68, R71). -/
def execCtrlFlitReceive (m : Msg) (s : State) : Result :=
  live s fun s =>
    let p := (s.arrival m).port
    let s := takeMsg s m
    if m.bad || leField m.data 221 3 != 0 then protocolError s p m.colour m.src
    else ((List.range 13).foldl (takeSlot p m) (s, false)).1

end Sys2Proof.Machine
end

