-- ==== Sys2Proof/Machine/Scalar.lean ====
section
/-!
DEFINITION. The SCALAR, SMEM, BRANCH and CSR instructions, and the fills of the two read-only caches (R148, R176 to R183).
-/
namespace Sys2Proof.Machine

/-! ### SCALAR (R181) -/

/-- The fields of a SCALAR instruction: sB with X[0] = 0, IMM with X[0] = 1 (R181). -/
def scalarFields (f : Fields) : Bool := if bit f.x 0 then f.only true true false 1 0xFFFFFFFF else f.only true true true 0 0

/-- A SCALAR instruction: sD takes op of sA and the second operand, and the CU moves on (R181). -/
def scalarOp (c : CoreId) (f : Fields) (op : Word → Word → Word) (s : State) : State :=
  issue c.val false (scalarFields f) [f.d, f.a, f.b]
    (fun s => s.modCore c.val (fun k => (k.setSreg f.d.toNat (op (k.sreg f.a.toNat) (k.operand2 f))).advance false)) s

/-- Signed order of two words. -/
def slt64 (x y : Word) : Bool := x.slt y

/-- A comparison result as a word (R181). -/
def boolWord (b : Bool) : Word := if b then 1 else 0

/-- The shift count: the low 6 bits of the second operand (R181). -/
def shamt (y : Word) : Nat := y.toNat % 64

/-- ADD: sD = sA + operand, modulo 2^64 (Table 9-8). -/
def execAdd (c : CoreId) (f : Fields) (s : State) : Result := live s (scalarOp c f (fun x y => x + y))
/-- SUB: sD = sA − operand, modulo 2^64 (Table 9-8). -/
def execSub (c : CoreId) (f : Fields) (s : State) : Result := live s (scalarOp c f (fun x y => x - y))
/-- AND: bitwise (Table 9-8). -/
def execAnd (c : CoreId) (f : Fields) (s : State) : Result := live s (scalarOp c f (fun x y => x &&& y))
/-- OR: bitwise (Table 9-8). -/
def execOr (c : CoreId) (f : Fields) (s : State) : Result := live s (scalarOp c f (fun x y => x ||| y))
/-- XOR: bitwise (Table 9-8). -/
def execXor (c : CoreId) (f : Fields) (s : State) : Result := live s (scalarOp c f (fun x y => x ^^^ y))
/-- SHL by operand[5:0] (Table 9-8). -/
def execShl (c : CoreId) (f : Fields) (s : State) : Result := live s (scalarOp c f (fun x y => x <<< shamt y))
/-- SHR: logical shift by operand[5:0] (Table 9-8). -/
def execShr (c : CoreId) (f : Fields) (s : State) : Result := live s (scalarOp c f (fun x y => x >>> shamt y))
/-- SRA: arithmetic shift by operand[5:0] (Table 9-8). -/
def execSra (c : CoreId) (f : Fields) (s : State) : Result := live s (scalarOp c f (fun x y => x.sshiftRight (shamt y)))
/-- MIN: signed minimum (Table 9-8). -/
def execMin (c : CoreId) (f : Fields) (s : State) : Result := live s (scalarOp c f (fun x y => if slt64 y x then y else x))
/-- MAX: signed maximum (Table 9-8). -/
def execMax (c : CoreId) (f : Fields) (s : State) : Result := live s (scalarOp c f (fun x y => if slt64 x y then y else x))
/-- MINU: unsigned minimum (Table 9-8). -/
def execMinu (c : CoreId) (f : Fields) (s : State) : Result := live s (scalarOp c f (fun x y => if y < x then y else x))
/-- MAXU: unsigned maximum (Table 9-8). -/
def execMaxu (c : CoreId) (f : Fields) (s : State) : Result := live s (scalarOp c f (fun x y => if x < y then y else x))
/-- SEQ: 1 if sA equals the operand, else 0 (Table 9-8). -/
def execSeq (c : CoreId) (f : Fields) (s : State) : Result := live s (scalarOp c f (fun x y => boolWord (x == y)))
/-- SLT: 1 if sA is below the operand, signed, else 0 (Table 9-8). -/
def execSlt (c : CoreId) (f : Fields) (s : State) : Result := live s (scalarOp c f (fun x y => boolWord (slt64 x y)))
/-- SLTU: 1 if sA is below the operand, unsigned, else 0 (Table 9-8). -/
def execSltu (c : CoreId) (f : Fields) (s : State) : Result := live s (scalarOp c f (fun x y => boolWord (decide (x < y))))

/-- LIH: sD[63:32] = IMM, sD[31:0] = sA[31:0]; X is 0 (Table 9-8). -/
def execLih (c : CoreId) (f : Fields) (s : State) : Result :=
  live s (issue c.val false (f.only true true false 0 0xFFFFFFFF) [f.d, f.a]
    (fun s => s.modCore c.val (fun k => (k.setSreg f.d.toNat (f.imm ++ field (k.sreg f.a.toNat) 0 32)).advance false)))

/-! ### SMEM (R183) -/

/-- The size in bytes that X[1:0] gives (R183). -/
def smemSize (f : Fields) : Nat := 2 ^ (f.x.toNat % 4)

/-- The fault of a SMEM address for n bytes in the own CM, none where it is in order: reserved bits, alignment, then
mapping, with control space refused (R9, R136, R183). -/
def smemFault (s : State) (c : Nat) (w : Word) (n : Nat) : Option (BitVec 16) :=
  if field w 46 2 != 0 then some fReservedSet
  else if w.toNat % n != 0 then some fIllegalOp
  else if field w 48 16 != 0 || pgaDie w != s.ownId then some fAddrUnmapped
  else if cmBase c ≤ pgaDla w && pgaDla w + n ≤ cmBase c + 0x600000 then none
  else if s.place (pgaDla w) n = .ctl then some fColourRefused
  else some fAddrUnmapped

/-- The loaded value, sign- or zero-extended (R183). -/
def loadValue (f : Fields) (data : List Byte) : Word :=
  if bit f.x 2 then BitVec.ofInt 64 (sext (8 * smemSize f) (leNat data)) else BitVec.ofNat 64 (leNat data)

/-- SLD: load from the own CM into sD, tracked by the scoreboard (R183). -/
def execSld (c : CoreId) (f : Fields) (s : State) : Result :=
  live s (issue c.val false (f.only true true false 7 0xFFFFFFFF) [f.d, f.a] fun s =>
    let k := s.core c.val
    let w := k.smemAddr f
    let n := smemSize f
    match smemFault s c.val w n with
    | some e => refuse s c.val e
    | none =>
      if k.waitsFor (rngOf s c.val (.cm (pgaDla w)) 0 (n - 1 : Nat) false) then heldData s c.val
      else
        match s.check k.colour.toNat (some c.val) none false (pgaDla w) n with
        | .ok =>
          let r := fetchOpnd s c.val (.cm (pgaDla w)) 0 n 0
          r.2.modCore c.val (fun k => (k.setSreg f.d.toNat (loadValue f r.1)).advance false)
        | e => refuse s c.val e.code)

/-- SST: store the low bytes of sB into the own CM, tracked by the scoreboard (R183). -/
def execSst (c : CoreId) (f : Fields) (s : State) : Result :=
  live s (issue c.val false (f.only false true true 3 0xFFFFFFFF) [f.a, f.b] fun s =>
    let k := s.core c.val
    let w := k.smemAddr f
    let n := smemSize f
    match smemFault s c.val w n with
    | some e => refuse s c.val e
    | none =>
      if k.waitsFor (rngOf s c.val (.cm (pgaDla w)) 0 (n - 1 : Nat) true) then heldData s c.val
      else
        match s.check k.colour.toNat (some c.val) none true (pgaDla w) n with
        | .ok => issued (memWrite s (pgaDla w) (leBytes n (k.sreg f.b.toNat).toNat)).1 c.val
        | e => refuse s c.val e.code)

/-- The 8 bytes of a constant cache line at an address. -/
def lineWord (line : List Byte) (a : Nat) : Word := BitVec.ofNat 64 (leField line (a % 64) 8)

/-- A line of the constant cache with a parity error is discarded and counted (R148; assumption 27). -/
def Core.dropConst (k : Core) (l : Nat) : Core :=
  if k.ccBad.contains l then
    { k with ccache := Table.set [] k.ccache l [], ccBad := k.ccBad.filter (· != l), lineErrors := k.lineErrors + 1 } else k

/-- SLDC: 8 bytes through the constant cache; a miss, or a line of failed parity, asks for the line and leaves sD pending
(R148, R183). -/
def execSldc (c : CoreId) (f : Fields) (s : State) : Result :=
  live s (issue c.val false (f.only true true false 0 0xFFFFFFFF) [f.d, f.a] fun s =>
    let k := s.core c.val
    let w := k.smemAddr f
    let a := pgaDla w
    if field w 46 2 != 0 then refuse s c.val fReservedSet
    else if a % 8 != 0 then refuse s c.val fIllegalOp
    else if field w 48 16 != 0 || pgaDie w != s.ownId then refuse s c.val fAddrUnmapped
    else
      match s.check k.colour.toNat (some c.val) none false a 8 with
      | .ok =>
        let k := k.dropConst (a / 64)
        match Table.get [] k.ccache (a / 64) with
        | [] =>
          match k.ccFill with
          | some _ => heldData (s.setCore c.val k) c.val
          | none =>
            s.setCore c.val { (k.advance false) with
              ccFill := some (a / 64, a, f.d.toNat, false)
              pendS := if f.d = 0 then k.pendS else k.pendS ++ [f.d.toNat] }
        | line => s.modCore c.val (fun k => (k.setSreg f.d.toNat (lineWord line a)).advance false)
      | e => refuse s c.val e.code)

/-- The number of lines of the constant cache: 32 KiB of 64 bytes (Table 7-1). -/
def ccLines : Nat := 512
/-- The number of lines of the instruction cache: 64 KiB of 64 bytes (Table 7-1). -/
def icLines : Nat := 1024

/-- CONSTANT_CACHE_FILL: the line asked for arrives, checked at its source; it is kept unless a CINV discards it, and the
waiting register takes its bytes (R118, R148, R149, R183). That an SLDC waiting on a fill that a CINV discards takes that fill's
bytes is the model's choice: the spec does not say whether it waits for a second fetch (DESIGN CHOICE; assumption 125). -/
def execConstantCacheFill (c : CoreId) (s : State) : Result :=
  live s fun s =>
    match (s.core c.val).ccFill with
    | none => s
    | some (l, a, d, discard) =>
      let bad := s.detects (l * 64) 64
      let line := s.bytesAt (l * 64) 64
      let s := if bad then detectFor s c.val (l * 64) 64 else s
      s.modCore c.val (fun k =>
        { (k.setSreg d (lineWord line a)) with
          ccFill := none
          ccBad := k.ccBad.filter (· != l)
          pendS := eraseOnce d k.pendS
          ccache := if discard then k.ccache else Table.set [] (List.drop (k.ccache.length + 1 - ccLines) k.ccache) l line })

/-- ICACHE_FILL: the line asked for arrives, checked at its source, unless a CINV discards it; a line that the colour may
not read raises the access's fault (R118, R135, R148, R149, R180). -/
def execIcacheFill (c : CoreId) (s : State) : Result :=
  live s fun s =>
    let k := s.core c.val
    match k.icFill with
    | none => s
    | some (l, discard) =>
      let s' := s.setCore c.val { k with icFill := none }
      if discard then s'
      else
        match s.check k.colour.toNat (some c.val) none false (l * 64) 64 with
        | .ok =>
          let s'' := if s.detects (l * 64) 64 then detectFor s' c.val (l * 64) 64 else s'
          s''.modCore c.val (fun k => { k with icache := (l :: k.icache).take icLines, icBad := k.icBad.filter (· != l) })
        | e => refuse s' c.val e.code

/-! ### BRANCH (R182) -/

/-- The branch target: the DLA of the branch plus 8 × IMM (R182). -/
def branchTarget (pc : Dla) (imm : BitVec 32) : Dla := pc + (imm.signExtend 40) * 8

/-- The CU moves to a target, or past the branch (R180, R182). -/
def Core.branch (k : Core) (taken : Bool) (target : Dla) : Core :=
  if taken then { k with csr := { k.csr.countIssued with pc := target } } else k.advance false

/-- A conditional branch on a comparison of sA with sB (R182). -/
def branchOp (c : CoreId) (f : Fields) (cond : Word → Word → Bool) (s : State) : State :=
  issue c.val false (f.only false true true 0 0xFFFFFFFF) [f.a, f.b]
    (fun s => s.modCore c.val (fun k => k.branch (cond (k.sreg f.a.toNat) (k.sreg f.b.toNat)) (branchTarget k.csr.pc f.imm))) s

/-- BEQ (R182). -/
def execBeq (c : CoreId) (f : Fields) (s : State) : Result := live s (branchOp c f (fun x y => x == y))
/-- BNE (R182). -/
def execBne (c : CoreId) (f : Fields) (s : State) : Result := live s (branchOp c f (fun x y => x != y))
/-- BLT: signed (R182). -/
def execBlt (c : CoreId) (f : Fields) (s : State) : Result := live s (branchOp c f slt64)
/-- BGE: signed (R182). -/
def execBge (c : CoreId) (f : Fields) (s : State) : Result := live s (branchOp c f (fun x y => !slt64 x y))
/-- BLTU: unsigned (R182). -/
def execBltu (c : CoreId) (f : Fields) (s : State) : Result := live s (branchOp c f (fun x y => decide (x < y)))
/-- BGEU: unsigned (R182). -/
def execBgeu (c : CoreId) (f : Fields) (s : State) : Result := live s (branchOp c f (fun x y => decide (y ≤ x)))

/-- JMP: always taken (R182). -/
def execJmp (c : CoreId) (f : Fields) (s : State) : Result :=
  live s (issue c.val false (f.only false false false 0 0xFFFFFFFF) []
    (fun s => s.modCore c.val (fun k => k.branch true (branchTarget k.csr.pc f.imm))))

/-- JMPR: the target is sA as a byte DLA, and sD takes the DLA of the following instruction; a target that is not a
multiple of 8 raises F_ILLEGAL_OP (R182). -/
def execJmpr (c : CoreId) (f : Fields) (s : State) : Result :=
  live s (issue c.val false (f.only true true false 0 0) [f.d, f.a] fun s =>
    let t := field ((s.core c.val).sreg f.a.toNat) 0 40
    if t.toNat % 8 != 0 then refuse s c.val fIllegalOp
    else s.modCore c.val (fun k => (k.setSreg f.d.toNat ((k.csr.pc + 8).setWidth 64)).branch true t))

/-- LOOP: sD falls by 1, and the branch is taken while the result is not zero (R182). -/
def execLoop (c : CoreId) (f : Fields) (s : State) : Result :=
  live s (issue c.val false (f.only true false false 0 0xFFFFFFFF) [f.d] fun s =>
    s.modCore c.val (fun k =>
      let v := k.sreg f.d.toNat - 1
      (k.setSreg f.d.toNat v).branch (v != 0) (branchTarget k.csr.pc f.imm)))

/-! ### CSR (R177) -/

/-- The value of a CSR, none where the number is unlisted (Table 9-2, Table 19-5). -/
def csrValue (s : State) (c : Nat) (n : Nat) : Option Word :=
  let k := s.core c
  match n with
  | 0x000 => some (BitVec.ofNat 64 (c + s.ownId.toNat * 64))
  | 0x001 => some (k.colour.setWidth 64)
  | 0x002 => some (match k.st with | .stopped => 0 | .run => 1 | .wait => 2 | .stepHalt => 3 | .halted => 4)
  | 0x003 => some (k.csr.fault.setWidth 64)
  | 0x010 => some (k.csr.pc.setWidth 64)
  | 0x011 => some (k.csr.step.setWidth 64)
  | 0x012 => some (k.csr.stepPc.setWidth 64)
  | 0x013 => some (boolWord k.csr.stepFail)
  | 0x014 => some (k.csr.committed.setWidth 64)
  | 0x020 => some (if s.mast.st == .unlocked then 0 else s.mast.stroke)
  | 0x021 => some (BitVec.ofNat 64 s.mast.phase)
  | 0x030 => some (k.csr.cycle.setWidth 64)
  | 0x031 => some (k.csr.issued.setWidth 64)
  | 0x032 => some (k.csr.heldData.setWidth 64)
  | 0x033 => some (k.csr.heldQueue.setWidth 64)
  | 0x034 => some (k.csr.heldWait.setWidth 64)
  | 0x035 => some (k.csr.wrap.setWidth 64)
  | 0x040 => some k.csr.flags
  | 0x050 => some k.csr.admitCut
  | 0x060 => some (BitVec.ofNat 64 k.sbFree)
  | 0x061 => some (BitVec.ofNat 64 k.qdepth)
  | _ => none

/-- What reading a CSR clears: FAULT and ADMIT_CUT are RC, and what hardware set in this CCLK stays (R11, Table 9-2). -/
def Core.csrReadClears (k : Core) (n : Nat) : Core :=
  if n = 0x003 then { k with csr := { k.csr with fault := k.csr.newFault } }
  else if n = 0x050 then { k with csr := { k.csr with admitCut := if k.csr.newCut then k.csr.admitCut else 0 } }
  else k

/-- CSRR: sD = CSR; an unlisted number raises F_CSR_ACCESS (R177). -/
def execCsrr (c : CoreId) (f : Fields) (s : State) : Result :=
  live s (issue c.val false (f.only true false false 0 0xFFF) [f.d] fun s =>
    match csrValue s c.val f.imm.toNat with
    | none => refuse s c.val fCsrAccess
    | some v => s.modCore c.val (fun k => ((k.csrReadClears f.imm.toNat).setSreg f.d.toNat v).advance false))

/-- CSRW: only WRAP and FLAGS, which are W1C, may be written; any other number raises F_CSR_ACCESS (R177, R190). -/
def execCsrw (c : CoreId) (f : Fields) (s : State) : Result :=
  live s (issue c.val false (f.only false true false 0 0xFFF) [f.a] fun s =>
    let v := (s.core c.val).sreg f.a.toNat
    if f.imm.toNat = 0x035 then
      s.modCore c.val (fun k => ({ k with csr := { k.csr with wrap := w1c k.csr.wrap k.csr.newWrap (field v 0 5) } }).advance false)
    else if f.imm.toNat = 0x040 then s.modCore c.val (fun k => (k.clearFlags v).advance false)
    else refuse s c.val fCsrAccess)

end Sys2Proof.Machine
end

