-- ==== Sys2Proof/Machine/Transcend.lean ====
section
/-!
DEFINITION. The transcendental functions of VTRN (R239): the true value of each function, to some 150 significant bits with a
sticky low bit below them, so that one rounding of it is the correct rounding. A bf16 result is that rounding; an fp32 result
is any value within 2 units in the last place of it, the one that TS1 gives being free (assumption 8).
Real numbers are held in fixed point, in units of 2^-320.
-/
namespace Sys2Proof.Machine

/-- The fraction bits of the fixed point. -/
def fixBits : Nat := 320
/-- 1 in fixed point. -/
def fixOne : Nat := 2 ^ 320
/-- ln 2 in fixed point, rounded down. -/
def fixLn2 : Nat := 0xb17217f7d1cf79abc9e3b39803f2f6af40f343267298b62d8a0d175b8baafa2be7b876206debac98
/-- 2 / √π in fixed point, rounded down. -/
def fixErf : Nat := 0x120dd750429b6d11ae3a914fed7fd8688281341d7587cea2e7342b06199cc416180eb39f0b24e1e22
/-- π / 2 in units of 2^-576, rounded down, for the reduction of arguments up to 2^128. -/
def wideHalfPi : Nat :=
  0x1921fb54442d18469898cc51701b839a252049c1114cf98e804177d4c76273644a29410f31c6809bbdf2a33679a748636605614dbe4be286e9fc26adadaa3848bc90b6aecc4bcfd8d

/-- A finite magnitude m × 2^e of a bf16 or fp32 input in fixed point: exact, since e is at least −149. -/
def toFix (m : Nat) (e : Int) : Nat := m * 2 ^ (e + 320).toNat

/-- A value that is not exact: m × 2^e with a sticky bit below it. -/
def sticky (neg : Bool) (m : Nat) (e : Int) : Num := .fin neg (2 * m + 1) (e - 1)

/-- The sum of n terms of a series, each made from the one before and its number. -/
def series (next : Nat → Nat → Nat) : Nat → Nat → Nat → Nat
  | 0, _, _ => 0
  | n + 1, k, t => t + series next n (k + 1) (next k t)

/-- The sum of n terms of a series of alternating signs, as the sum of the terms of even number less that of odd number. -/
def altSeries (next : Nat → Nat → Nat) : Nat → Nat → Nat → Int
  | 0, _, _ => 0
  | n + 1, k, t => (t : Int) - altSeries next n (k + 1) (next k t)

/-- e^r for r from 0 to ln 2, in fixed point. -/
def fixExp (r : Nat) : Nat := series (fun k t => t * r / 2 ^ 320 / (k + 1)) 90 0 fixOne

/-- sin r for r from 0 to π/2, in fixed point. -/
def fixSin (r : Nat) : Int :=
  let q := r * r / 2 ^ 320
  altSeries (fun k t => t * q / 2 ^ 320 / ((2 * k + 2) * (2 * k + 3))) 60 0 r

/-- cos r for r from 0 to π/2, as the sine of π/2 − r. -/
def fixCos (r : Nat) : Int := fixSin (wideHalfPi / 2 ^ 256 - r)

/-- e^x for a real x in fixed point of magnitude below 512: mantissa in fixed point and power of two. -/
def expParts (x : Int) : Nat × Int :=
  let l : Int := Int.ofNat fixLn2
  let n : Int := x / l
  (fixExp (x - n * l).toNat, n)

/-- 1 less something below every rounding position. -/
def belowOne (neg : Bool) : Num := .fin neg (2 ^ 400 - 1) (-400)

/-- EXP of a nonzero x (R239). -/
def trueExp (neg : Bool) (x : Nat) : Num :=
  if 512 * fixOne ≤ x then .fin false 1 (if neg then -1000 else 1000)
  else
    let p := expParts (if neg then - (x : Int) else x)
    sticky false p.1 (p.2 - 320)

/-- EXP2 (R239): exact at whole numbers. -/
def trueExp2 (neg : Bool) (x : Nat) : Num :=
  if 512 * fixOne ≤ x then .fin false 1 (if neg then -1000 else 1000)
  else
    let v : Int := if neg then - (x : Int) else x
    let n : Int := v / (Int.ofNat fixOne)
    let f := (v - n * fixOne).toNat
    if f = 0 then .fin false 1 n else sticky false (fixExp (f * fixLn2 / 2 ^ 320)) (n - 320)

/-- The sum of t × q^j / (2j + 1) over n terms from number j. -/
def atanhSum (q : Nat) : Nat → Nat → Nat → Nat
  | 0, _, _ => 0
  | n + 1, j, t => t / (2 * j + 1) + atanhSum q n (j + 1) (t * q / 2 ^ 320)

/-- LOG2 of m × 2^e (R239): exact at powers of two, where 1 gives a zero of the sign given. -/
def trueLog2 (zeroNeg : Bool) (m : Nat) (e : Int) : Num :=
  let l := Nat.log2 m
  if m = 2 ^ l then (if e + l = 0 then .fin zeroNeg 0 0 else .fin (decide (e + l < 0)) (e + l).natAbs 0)
  else
    let up := decide (3 * 2 ^ l ≤ 2 * m)
    let y := if up then m * 2 ^ (319 - l) else m * 2 ^ (320 - l)
    let k : Int := if up then e + l + 1 else e + l
    let z := (if up then fixOne - y else y - fixOne) * 2 ^ 320 / (y + fixOne)
    let q := z * z / 2 ^ 320
    let s := atanhSum q 90 0 z
    let ln : Nat := 2 * s * 2 ^ 320 / fixLn2
    let v : Int := k * fixOne + (if up then - (ln : Int) else (ln : Int))
    sticky (decide (v < 0)) v.natAbs (-320)

/-- RSQRT of m × 2^e (R239). -/
def trueRsqrt (m : Nat) (e : Int) : Num :=
  let odd := decide (e % 2 = 1)
  let m := if odd then 2 * m else m
  let h : Int := (if odd then e - 1 else e) / 2
  let r := isqrtFrom 101 (2 ^ 200 / m) 0
  .fin false (2 * r + (if r * r * m = 2 ^ 200 then 0 else 1)) (-101 - h)

/-- TANH of a nonzero x (R239). -/
def trueTanh (neg : Bool) (x : Nat) : Num :=
  if 64 * fixOne ≤ x then belowOne neg
  else
    let p := expParts (2 * x)
    let v := p.1 * 2 ^ p.2.toNat
    sticky neg ((v - fixOne) * 2 ^ 320 / (v + fixOne)) (-320)

/-- SIGMOID of a nonzero x (R239). -/
def trueSigmoid (neg : Bool) (x : Nat) : Num :=
  if 512 * fixOne ≤ x then (if neg then .fin false 1 (-700) else belowOne false)
  else
    let p := expParts x
    let v := p.1 * 2 ^ p.2.toNat
    sticky false ((if neg then fixOne else v) * 2 ^ 1200 / (v + fixOne)) (-1200)

/-- ERF of a nonzero x (R239): 2/√π e^(−x²) times the sum of 2^n x^(2n+1) / (1 · 3 · … · (2n + 1)). -/
def trueErf (neg : Bool) (x : Nat) : Num :=
  if 6 * fixOne ≤ x then belowOne neg
  else
    let q := x * x / 2 ^ 320
    let s := series (fun k t => 2 * t * q / 2 ^ 320 / (2 * k + 3)) 400 0 x
    let p := expParts (- (q : Int))
    sticky neg (fixErf * p.1 / 2 ^ 320 * s / 2 ^ 320) (p.2 - 320)

/-- SIN and COS of a nonzero x (R239): x less whole quarter turns, then the sine or cosine of the rest. -/
def trueSinCos (cos : Bool) (neg : Bool) (x : Nat) : Num :=
  let w := x * 2 ^ 256
  let quarter := (w / wideHalfPi + if cos then 1 else 0) % 4
  let r := w % wideHalfPi / 2 ^ 256
  let v := if quarter % 2 = 0 then fixSin r else fixCos r
  sticky ((decide (2 ≤ quarter)) != (neg && !cos)) v.natAbs (-320)

/-- The true value of function fn at a finite input that Table 11-6 gives no result for (R239). The sign of an exact zero,
which the table leaves open, is zeroNeg. -/
def trnTrue (zeroNeg : Bool) (fn : Nat) (neg : Bool) (m : Nat) (e : Int) : Num :=
  let x := toFix m e
  match fn with
  | 0 => if m = 0 then .fin false 1 0 else trueExp2 neg x
  | 1 => trueLog2 zeroNeg m e
  | 2 => trueRsqrt m e
  | 3 => Num.div (.fin false 1 0) (.fin neg m e)
  | 4 => if m = 0 then .fin zeroNeg 0 0 else trueTanh neg x
  | 5 => if m = 0 then .fin false 1 (-1) else trueSigmoid neg x
  | 6 => if m = 0 then .fin zeroNeg 0 0 else trueErf neg x
  | 7 => if m = 0 then .fin zeroNeg 0 0 else trueSinCos false neg x
  | 8 => if m = 0 then .fin false 1 0 else trueSinCos true neg x
  | _ => if m = 0 then .fin false 1 0 else trueExp neg x

/-- The place of an fp32 pattern among the fp32 values in their order; both zeros have place 0. -/
def fp32Place (p : Nat) : Int := if p < 2 ^ 31 then p else - ((p - 2 ^ 31 : Nat) : Int)

/-- The fp32 pattern of a place; a zero has the sign given. -/
def fp32At (zeroNeg : Bool) (i : Int) : Nat := if i < 0 ∨ (i = 0 ∧ zeroNeg = true) then 2 ^ 31 + i.natAbs else i.toNat

/-- Whether an fp32 pattern lies within 2 units in the last place of a value (R239). -/
def withinTwoUlp (p : Nat) (y : Num) : Bool :=
  match fp32.decode p, y with
  | .fin n1 m1 e1, .fin n2 m2 e2 =>
    let ulp : Int := if m2 = 0 then -149 else if e2 + (Nat.log2 m2 : Int) < -126 then -149 else e2 + (Nat.log2 m2 : Int) - 23
    let e := min (min e1 e2) ulp
    decide ((scaled e n1 m1 e1 - scaled e n2 m2 e2).natAbs ≤ 2 * 2 ^ (ulp - e).toNat)
  | _, _ => false

/-- The fp32 result of a function whose true value is y: the value that lies the given number of places from the correct
rounding where that is within 2 units in the last place of y, else the correct rounding (R239). -/
def nearTrue (zeroNeg : Bool) (offset : Int) (y : Num) : Nat :=
  let r := (fp32.round y).1
  let i := fp32Place r + offset
  let p := fp32At zeroNeg i
  if i.natAbs ≤ fp32.maxFin ∧ withinTwoUlp p y = true then p else r

end Sys2Proof.Machine
end

