-- ==== Sys2Proof/Machine/Vector.lean ====
section
/-!
DEFINITION. The vector engine: its instructions at issue and at their start (chapter 11, R224 to R239).
-/
namespace Sys2Proof.Machine

/-! ### Fields and operands (R226, R227) -/

/-- MSK. -/
def mskOf (f : Fields) : Nat := (field f.imm 0 3).toNat
/-- MEN. -/
def menOf (f : Fields) : Bool := bit f.imm 3
/-- MZ. -/
def mzOf (f : Fields) : Bool := bit f.imm 4
/-- ET. -/
def etOf (f : Fields) : Nat := (field f.imm 5 4).toNat
/-- DT. -/
def dtOf (f : Fields) : Nat := (field f.imm 9 4).toNat
/-- COND. -/
def condOf (f : Fields) : Nat := (field f.imm 13 3).toNat
/-- FN. -/
def fnOf (f : Fields) : Nat := (field f.imm 16 4).toNat
/-- SAT. -/
def satOf (f : Fields) : Bool := bit f.imm 20
/-- CI. -/
def ciOf (f : Fields) : Bool := bit f.imm 21
/-- EXC. -/
def excOf (f : Fields) : Bool := bit f.imm 22

/-- The IMM bits of MSK, MEN, MZ and ET. -/
def immE : Nat := 0x1FF
/-- The IMM bits of MSK, MEN, MZ, ET and SAT. -/
def immSat : Nat := 0x1001FF

/-- Bits of one element of a type (Table 11-3). -/
def etBits (et : Nat) : Nat := if et = 10 then 4 else 8 * etSize et
/-- Bytes that VL elements of a type occupy (R226). -/
def vecBytes (et vl : Nat) : Nat := ceilDiv (vl * etBits et) 8
/-- Whether an operand stays within v31 (R226). -/
def vecFits (reg et vl : Nat) : Bool := decide (reg * 4096 + vecBytes et vl ≤ 0x20000)
/-- The range of a vector operand in the register file, none with VL = 0 (R226). -/
def vecRng (reg et vl : Nat) (write : Bool) : List Rng :=
  if vl = 0 then [] else [⟨.ob 4, reg * 4096, reg * 4096 + vecBytes et vl - 1, write⟩]

/-- The pattern of element i in a list of bytes (Table 11-3). -/
def elemAt (et : Nat) (data : List Byte) (i : Nat) : Nat :=
  if et = 10 then (data.getD (i / 2) 0).toNat / 16 ^ (i % 2) % 16 else leField data (i * etSize et) (etSize et)

/-- The bytes of a list of int4 patterns, the spare nibble of an odd count taken from what was there. -/
def packNibbles (old : List Byte) : List Nat → List Byte
  | [] => []
  | [a] => [BitVec.ofNat 8 (a + ((old.headD 0).toNat / 16) * 16)]
  | a :: b :: t => BitVec.ofNat 8 (a + 16 * b) :: packNibbles (old.drop 1) t

/-- The bytes of a list of patterns (Table 11-3). -/
def packElems (et : Nat) (old : List Byte) (vals : List Nat) : List Byte :=
  if et = 10 then packNibbles old vals else (vals.map (leBytes (etSize et))).flatten

/-- The patterns of VL elements of a vector operand. -/
def Core.vec (k : Core) (reg et vl : Nat) : List Nat :=
  let data := k.obBytes 4 (reg * 4096) (vecBytes et vl)
  (List.range vl).map (elemAt et data)

/-- A mask register. -/
def Core.mask (k : Core) (m : Nat) : BitVec 4096 := Table.get 0 k.ve.masks m

/-- Whether element i is active (R232). -/
def Core.active (k : Core) (f : Fields) (i : Nat) : Bool := !menOf f || bit (k.mask (mskOf f)) i

/-- Whether element i of the destination keeps its value: inactive under MZ = 0 (R232). -/
def Core.keeps (k : Core) (f : Fields) (i : Nat) : Bool := !k.active f i && !mzOf f

/-- The elements that byte y of a vector operand of a type holds (Table 11-3). -/
def elemsIn (et y : Nat) : List Nat := if et = 10 then [2 * y, 2 * y + 1] else [y / etSize et]

/-- Write VL patterns to a vector operand of core c. A byte with an element that is kept is not written anew: its parity
stays as it was (R107, R232). -/
def writeVec (s : State) (c reg et : Nat) (keep : Nat → Bool) (vals : List Nat) : State :=
  let x := 0x100000 + reg * 4096
  let n := vecBytes et vals.length
  let old := (s.core c).obBytes 4 (reg * 4096) n
  let stays := fun (y : Nat) => decide (x ≤ y ∧ y < x + n) && (elemsIn et (y - x)).any (fun i => keep i || decide (vals.length ≤ i))
  let marks := (s.core c).obBad.filter stays
  (writeOpnd s c (.ob 4 (reg * 4096)) 0 (packElems et old vals) false).modCore c (fun k => { k with obBad := k.obBad ++ marks })

/-- The destination patterns under a mask: active elements take the result, inactive ones keep or become zero (R232). -/
def masked (k : Core) (f : Fields) (old res : List Nat) : List Nat :=
  (List.range res.length).map (fun i => if k.active f i then res.getD i 0 else if mzOf f then 0 else old.getD i 0)

/-- A parity error in what an engine reads of the register file (R107). -/
def vecDetect (s : State) (c : Nat) (unit : Nat) (srcs : List (Nat × Nat)) (vl : Nat) : State :=
  if srcs.any (fun p => badOpnd s c (.ob 4 (p.1 * 4096)) 0 (vecBytes p.2 vl)) then raiseD s c fObParity unit 0 0 else s

/-! ### Issue (R226 to R228, R233) -/

/-- What a VE or RU instruction needs at issue beyond its fields. -/
structure VeNeed where
  srcs : List (Nat × Nat) := []     -- registers read, with their types
  dsts : List (Nat × Nat) := []     -- registers written
  mreads : List Nat := []           -- masks read
  mwrite : Option Nat := none
  swrite : Option Nat := none
  extra : List Rng := []
  hold : Bool := false

/-- The mask registers that an instruction reads through MEN (R232). -/
def menMasks (f : Fields) : List Nat := if menOf f then [mskOf f] else []

/-- A VE or RU instruction with its fields and types checked: operands must lie within v31, masks must not be pending,
and the queue and scoreboard must take it (R185, R226, R233). -/
def vePush (c : CoreId) (f : Fields) (e : Nat) (op : EOp) (n : VeNeed) (s : State) : State :=
  let k := s.core c.val
  let vl := k.ve.vl
  if !(n.srcs ++ n.dsts).all (fun p => vecFits p.1 p.2 vl) then refuse s c.val fAddrUnmapped
  else
    let ms := n.mreads ++ (match n.mwrite with | some m => [m] | none => [])
    let rs := (n.srcs.map (fun p => vecRng p.1 p.2 vl false)).flatten ++ (n.dsts.map (fun p => vecRng p.1 p.2 vl true)).flatten ++ n.extra
    pushEngine c.val e false rs (n.hold || ms.any (k.pendM.contains ·))
      { op := op, f := f, sa := k.sreg f.a.toNat, sb := k.sreg f.b.toNat, sd := k.sreg f.d.toNat, vl := vl,
        sdest := n.swrite, mdest := n.mwrite } s

/-- An elementwise VE instruction: IMM bits in use, the types its row permits, one or two sources (Table 11-4). -/
def veElem (c : CoreId) (f : Fields) (op : EOp) (imm : Nat) (two : Bool) (types : Nat → Bool) (s : State) : State :=
  issue c.val false (f.only true true two 0 imm) []
    (fun s =>
      if !types (etOf f) then refuse s c.val fIllegalOp
      else vePush c f 2 op { srcs := (f.a.toNat, etOf f) :: (if two then [(f.b.toNat, etOf f)] else []), dsts := [(f.d.toNat, etOf f)], mreads := menMasks f } s) s

/-- Arithmetic types 0 to 7. -/
def arith (et : Nat) : Bool := decide (et < 8)

/-- VMOV: a copy of any type (Table 11-4; assumption 23). -/
def execVmov (c : CoreId) (f : Fields) (s : State) : Result :=
  live s (veElem c f .vmov immE false (fun t => decide (t < 11) || t == 15))
/-- VADD (R229). -/
def execVadd (c : CoreId) (f : Fields) (s : State) : Result := live s (veElem c f .vadd immSat true arith)
/-- VSUB (R229). -/
def execVsub (c : CoreId) (f : Fields) (s : State) : Result := live s (veElem c f .vsub immSat true arith)
/-- VMUL (R229). -/
def execVmul (c : CoreId) (f : Fields) (s : State) : Result := live s (veElem c f .vmul immSat true arith)
/-- VFMA: vD = vA × vB + vD, one rounding (R229). -/
def execVfma (c : CoreId) (f : Fields) (s : State) : Result := live s (veElem c f .vfma immSat true arith)
/-- VDIV: bf16 and fp32 (R229). -/
def execVdiv (c : CoreId) (f : Fields) (s : State) : Result := live s (veElem c f .vdiv immE true etFloat)
/-- VSQRT: bf16 and fp32 (R229). -/
def execVsqrt (c : CoreId) (f : Fields) (s : State) : Result := live s (veElem c f .vsqrt immE false etFloat)
/-- VMIN (R231). -/
def execVmin (c : CoreId) (f : Fields) (s : State) : Result := live s (veElem c f .vmin immE true arith)
/-- VMAX (R231). -/
def execVmax (c : CoreId) (f : Fields) (s : State) : Result := live s (veElem c f .vmax immE true arith)
/-- VAND: integer types (Table 11-4). -/
def execVand (c : CoreId) (f : Fields) (s : State) : Result := live s (veElem c f .vand immE true etInt)
/-- VOR: integer types (Table 11-4). -/
def execVor (c : CoreId) (f : Fields) (s : State) : Result := live s (veElem c f .vor immE true etInt)
/-- VXOR: integer types (Table 11-4). -/
def execVxor (c : CoreId) (f : Fields) (s : State) : Result := live s (veElem c f .vxor immE true etInt)
/-- VSHL: integer types (Table 11-4). -/
def execVshl (c : CoreId) (f : Fields) (s : State) : Result := live s (veElem c f .vshl immE true etInt)
/-- VSHR: integer types (Table 11-4). -/
def execVshr (c : CoreId) (f : Fields) (s : State) : Result := live s (veElem c f .vshr immE true etInt)
/-- VTRN: function FN of bf16 or fp32 elements (R239). -/
def execVtrn (c : CoreId) (f : Fields) (s : State) : Result :=
  live s fun s =>
    if 10 ≤ fnOf f && (s.core c.val).issuing && ((s.core c.val).missing false).isNone then refuse s c.val fReservedSet
    else veElem c f .vtrn (immE + 0xF0000) false etFloat s

/-- VCMP: writes mask bits 0 to VL − 1 by COND (Table 11-4, R231). -/
def execVcmp (c : CoreId) (f : Fields) (s : State) : Result :=
  live s (issue c.val false (f.only true true true 0 (immE + 0xE000) && decide (f.d.toNat < 8) && decide (condOf f < 6)) [] fun s =>
    if !arith (etOf f) then refuse s c.val fIllegalOp
    else vePush c f 2 .vcmp { srcs := [(f.a.toNat, etOf f), (f.b.toNat, etOf f)], mreads := menMasks f, mwrite := some f.d.toNat } s)

/-- VMASK: AND, OR, XOR or ANDNOT of two masks (Table 11-4). -/
def execVmask (c : CoreId) (f : Fields) (s : State) : Result :=
  live s (issue c.val false (f.only true true true 0 (0x1F + 0xE000) && decide (f.d.toNat < 8) && decide (f.a.toNat < 8) &&
      decide (f.b.toNat < 8) && decide (condOf f < 4)) [] fun s =>
    vePush c f 2 .vmask { mreads := [f.a.toNat, f.b.toNat] ++ menMasks f, mwrite := some f.d.toNat } s)

/-- VPOPC: counts the set bits 0 to VL − 1 of mask MSK into sD (Table 11-4). -/
def execVpopc (c : CoreId) (f : Fields) (s : State) : Result :=
  live s (issue c.val false (f.only true false false 0 0xF) [f.d] fun s =>
    vePush c f 2 .vpopc { mreads := [mskOf f], swrite := some f.d.toNat } s)

/-- VCVT: ET to DT with one rounding (R230). -/
def execVcvt (c : CoreId) (f : Fields) (s : State) : Result :=
  live s (issue c.val false (f.only true true false 0 (immE + 0x1E00)) [] fun s =>
    if 11 ≤ etOf f || 11 ≤ dtOf f then refuse s c.val fIllegalOp
    else vePush c f 2 .vcvt { srcs := [(f.a.toNat, etOf f)], dsts := [(f.d.toNat, dtOf f)], mreads := menMasks f } s)

/-- The issue of VCOMPRESS and VEXPAND: MEN must be 1 (R235). -/
def veSqueeze (c : CoreId) (f : Fields) (op : EOp) (s : State) : State :=
  issue c.val false (f.only true true false 0 immE) []
    (fun s =>
      if !arith (etOf f) || !menOf f then refuse s c.val fIllegalOp
      else vePush c f 2 op { srcs := [(f.a.toNat, etOf f)], dsts := [(f.d.toNat, etOf f)], mreads := [mskOf f] } s) s
/-- VCOMPRESS (R235). -/
def execVcompress (c : CoreId) (f : Fields) (s : State) : Result := live s (veSqueeze c f .vcompress)
/-- VEXPAND (R235). -/
def execVexpand (c : CoreId) (f : Fields) (s : State) : Result := live s (veSqueeze c f .vexpand)

/-- The scan carry's type once the scans ahead have run (R236). -/
def Core.carryAhead (k : Core) : Option (BitVec 4) :=
  (k.queue 2).foldl (fun t q =>
    if (q.op == .vscan || q.op == .vscanseg) && q.vl != 0 then (if ciOf q.f && t.isSome then t else some (field q.f.imm 5 4)) else t) k.ve.carryType

/-- Whether a chained scan's type differs from that of the scan that set the carry (R236). -/
def scanMismatch (k : Core) (f : Fields) : Bool :=
  ciOf f && (match k.carryAhead with | some t => t.toNat != etOf f | none => false)

/-- VSCAN (R236). -/
def execVscan (c : CoreId) (f : Fields) (s : State) : Result :=
  live s (issue c.val false (f.only true true false 0 (immE + 0x600000)) [] fun s =>
    if !arith (etOf f) || scanMismatch (s.core c.val) f then refuse s c.val fIllegalOp
    else vePush c f 2 .vscan { srcs := [(f.a.toNat, etOf f)], dsts := [(f.d.toNat, etOf f)], mreads := menMasks f } s)
/-- VSCANSEG: MEN must be 1 and MZ 0 (R237). -/
def execVscanseg (c : CoreId) (f : Fields) (s : State) : Result :=
  live s (issue c.val false (f.only true true false 0 (immE + 0x600000)) [] fun s =>
    if !arith (etOf f) || !menOf f || mzOf f || scanMismatch (s.core c.val) f then refuse s c.val fIllegalOp
    else vePush c f 2 .vscanseg { srcs := [(f.a.toNat, etOf f)], dsts := [(f.d.toNat, etOf f)], mreads := [mskOf f] } s)

/-! ### Loads, stores and accumulator reads at issue (R234, R238) -/

/-- The extent of a strided access from its base address: lowest and highest byte (R234). -/
def strideExtent (vl : Nat) (stride : Int) (esize : Nat) : Int × Int :=
  let d := (vl - 1 : Nat) * stride
  (if d < 0 then d else 0, (if d < 0 then 0 else d) + esize - 1)

/-- Whether every element address is a multiple of the element's size (R234). -/
def strideAligned (o : Opnd) (vl : Nat) (stride : Int) (esize : Nat) : Bool :=
  let a := match o with | .cm a => a | .ob _ a => a
  a % esize == 0 && (decide (vl ≤ 1) || stride % esize == 0)

/-- The issue of VLD and VST: form, stride, alignment and extent (R234); with VL = 0 nothing is addressed, and only the
reserved bits of the address are checked. -/
def veMem (c : CoreId) (f : Fields) (op : EOp) (types : Nat → Bool) (s : State) : State :=
  issue c.val false (f.only true true true 0 immE) [f.a, f.b]
    (fun s =>
      let k := s.core c.val
      let vl := k.ve.vl
      let stride := (k.sreg f.b.toNat).toInt
      let e := etSize (etOf f)
      let reg := (f.d.toNat, etOf f)
      let load := op == .vld
      if !types (etOf f) then refuse s c.val fIllegalOp
      else if opndReserved (k.sreg f.a.toNat) then refuse s c.val fReservedSet
      else if vl = 0 then vePush c f 2 op { mreads := menMasks f } s
      else
        match decodeOpnd s c.val (k.sreg f.a.toNat) with
        | .error code => refuse s c.val code
        | .ok o =>
          let x := strideExtent vl stride e
          if stride < -(2 ^ 31) || 2 ^ 31 - 1 < stride || !strideAligned o vl stride e then refuse s c.val fIllegalOp
          else if !o.fits c.val x.1 x.2 then refuse s c.val fAddrUnmapped
          else vePush c f 2 op {
            srcs := if load then [] else [reg], dsts := if load then [reg] else [], mreads := menMasks f,
            extra := rngOf s c.val o x.1 x.2 (!load) } s) s

/-- VLD: the arithmetic types; RAW128 is for VACC and VMOV only (R234, Table 11-3). -/
def execVld (c : CoreId) (f : Fields) (s : State) : Result := live s (veMem c f .vld arith)
/-- VST: the arithmetic types, and RAW128, whose elements can be stored (R234, R238; assumption 23). -/
def execVst (c : CoreId) (f : Fields) (s : State) : Result := live s (veMem c f .vst (fun t => arith t || t == 15))

/-- VACC: a bank's cells into vD; C and the rows read are checked against the array (R238). -/
def execVacc (c : CoreId) (f : Fields) (s : State) : Result :=
  live s (issue c.val false (f.only true false false 3 0xFFFF) [] fun s =>
    let k := s.core c.val
    let a := arrOf f
    let ty := (field f.imm 12 4).toNat
    let cc := (field f.imm 5 7).toNat + 1
    let r0 := (field f.imm 0 5).toNat
    let strip := match (k.ahead a).of (bankOf f) with
      | some r => r.2.2
      | none => false
    if !(ty == 4 || ty == 6 || ty == 7 || ty == 15) then refuse s c.val fIllegalOp
    else if (k.array a).retired then refuse s c.val fArrayRetired
    else if tileCols (k.array a).width strip < cc || (k.ve.vl != 0 && decide (tileRows strip ≤ r0 + (k.ve.vl - 1) / cc)) then refuse s c.val fTileInvalid
    else vePush c f 2 .vacc { dsts := [(f.d.toNat, ty)], hold := k.bankBusy a (bankOf f) } s)

/-! ### What an instruction computes (R229 to R239) -/

/-- The result of an elementwise operation on the patterns of vA, vB and vD (R229, R231, Table 11-4). -/
def elemOp (op : EOp) (et : Nat) (sat : Bool) (a b d : Nat) : Nat :=
  let w := etBits et
  match op with
  | .vadd => if etFloat et then etPat et ((etNum et a).add (etNum et b)) else etIntPat et sat (etVal et a + etVal et b)
  | .vsub => if etFloat et then etPat et ((etNum et a).sub (etNum et b)) else etIntPat et sat (etVal et a - etVal et b)
  | .vmul => if etFloat et then etPat et ((etNum et a).mul (etNum et b)) else etIntPat et sat (etVal et a * etVal et b)
  | .vfma =>
    if etFloat et then etPat et (((etNum et a).mul (etNum et b)).add (etNum et d)) else etIntPat et sat (etVal et a * etVal et b + etVal et d)
  | .vdiv => etPat et ((etNum et a).div (etNum et b))
  | .vsqrt => etPat et (etNum et a).sqrt
  | .vmin => if etFloat et then etPat et (Num.min2 (etNum et a) (etNum et b)) else if etVal et b < etVal et a then b else a
  | .vmax => if etFloat et then etPat et (Num.max2 (etNum et a) (etNum et b)) else if etVal et a < etVal et b then b else a
  | .vand => a &&& b
  | .vor => a ||| b
  | .vxor => a ^^^ b
  | .vshl => a * 2 ^ (b % w) % 2 ^ w
  | .vshr => if etSigned et then intPat w ((etVal et a) / (2 ^ (b % w) : Nat)) else a / 2 ^ (b % w)
  | _ => a

/-- VCMP on two patterns (R231). -/
def cmpElem (et cond a b : Nat) : Bool :=
  let lt := if etFloat et then Num.ltTotal Config.vcmpNanBelow (etNum et a) (etNum et b) else decide (etVal et a < etVal et b)
  let gt := if etFloat et then Num.ltTotal Config.vcmpNanBelow (etNum et b) (etNum et a) else decide (etVal et b < etVal et a)
  match cond with
  | 0 => !lt && !gt
  | 1 => lt || gt
  | 2 => lt
  | 3 => !gt
  | 4 => gt
  | _ => !lt

/-- The results that Table 11-6 gives for special inputs, none for the others (R239). -/
def trnSpecial (fn : Nat) (x : Num) : Option Num :=
  match x with
  | .nan => some .nan
  | .inf neg =>
    match fn with
    | 0 | 9 => some (if neg then .fin false 0 0 else .inf false)
    | 1 => some (if neg then .nan else .inf false)
    | 2 => if neg then some .nan else none
    | 3 => some (.fin neg 0 0)
    | 4 | 6 => some (.fin neg 1 0)
    | 5 => some (if neg then .fin false 0 0 else .fin false 1 0)
    | _ => some .nan
  | .fin neg m _ =>
    match fn with
    | 1 => if m = 0 then some (.inf true) else if neg then some .nan else none
    | 2 => if m = 0 then some (.inf neg) else if neg then some .nan else none
    | 3 => if m = 0 then some (.inf neg) else none
    | _ => none

/-- VTRN on one pattern (R239): the table's special inputs; else in bf16 the true value correctly rounded, and in fp32 the
value within 2 units in the last place of it that TS1 gives (assumption 8). -/
def trnElem (et fn x : Nat) : Nat :=
  match trnSpecial fn (etNum et x) with
  | some y => etPat et y
  | none =>
    match etNum et x with
    | .fin neg m e =>
      let zeroNeg := Config.ts1ZeroNeg fn neg
      let y := trnTrue zeroNeg fn neg m e
      if et = 7 then nearTrue zeroNeg (Config.ts1Offset fn (BitVec.ofNat 32 x)) y else (bf16.round y).1
    | _ => (Config.ts1RsqrtInf et).toNat % 2 ^ (if et = 7 then 32 else 16)

/-- VCVT on one pattern (R230). -/
def cvtElem (et dt x : Nat) : Nat := etPat dt (etNum et x)

/-- The scan carry with one element added: exact for floats, in units of 1 for integers (R236). -/
def Exact.addElem (x : Exact) (et v : Nat) : Exact :=
  if etFloat et then x.addNum (etNum et v) else { x with x := x.x + BitVec.ofInt 320 (etVal et v) }

/-- A scan output: the exact prefix rounded once, or wrapped to the integer type (R236). -/
def Exact.scanOut (x : Exact) (et : Nat) : Nat := if etFloat et then etPat et x.num else intPat (etBits et) x.x.toInt

/-- A scan over a list of patterns: outputs, newest last, and the final prefix; starts says where a segment restarts
(R236, R237). -/
def scanList (et : Nat) (exc : Bool) (starts : Nat → Bool) : Nat → Exact → List Nat → List Nat × Exact
  | _, x, [] => ([], x)
  | i, x, v :: t =>
    let x := if starts i then {} else x
    let y := x.addElem et v
    let r := scanList et exc starts (i + 1) y t
    ((if exc then x else y).scanOut et :: r.1, r.2)

/-- The active elements of a list, in ascending index order (R235). -/
def activeElems (k : Core) (f : Fields) (vl : Nat) (vals : List Nat) : List Nat :=
  ((List.range vl).filter (k.active f)).map (vals.getD · 0)

/-- The expansion of vA over the active elements (R235): the value of active element i is the next unused one. -/
def expandList (k : Core) (f : Fields) (old : List Nat) : Nat → Nat → List Nat → List Nat
  | 0, _, _ => []
  | n + 1, i, src =>
    if k.active f i then src.headD 0 :: expandList k f old n (i + 1) (src.drop 1)
    else (if mzOf f then 0 else old.getD i 0) :: expandList k f old n (i + 1) src

/-- Set bits 0 to n − 1 of a mask from a test; bits above are kept (R232). -/
def maskFrom (old : BitVec 4096) (g : Nat → Bool) : Nat → BitVec 4096
  | 0 => old
  | n + 1 => let x := maskFrom old g n; if g n then setBit x n else clearBit x n

/-- Write a mask register. -/
def Core.setMask (k : Core) (m : Nat) (v : BitVec 4096) : Core := { k with ve := { k.ve with masks := Table.set 0 k.ve.masks m v } }

/-- The value of a mask bit that an instruction writes under MEN and MZ (R232). -/
def maskBit (k : Core) (f : Fields) (old : BitVec 4096) (g : Nat → Bool) (i : Nat) : Bool :=
  if k.active f i then g i else if mzOf f then false else bit old i

/-- One more lane of a VLD is read, if it is active. -/
def loadLane (k : Core) (c : Nat) (q : QInstr) (o : Opnd) (r : List Nat × State) (i : Nat) : List Nat × State :=
  if k.active q.f i then (r.1 ++ [leNat (fetchOpnd r.2 c o (i * q.sb.toInt) (etSize (etOf q.f)) 3).1], (fetchOpnd r.2 c o (i * q.sb.toInt) (etSize (etOf q.f)) 3).2)
  else (r.1 ++ [0], r.2)

/-- The elements that a VLD reads: with stride 0 one element serves every active lane (R234). -/
def loadLanes (s : State) (c : Nat) (q : QInstr) (o : Opnd) : List Nat × State :=
  let k := s.core c
  let lanes := List.range q.vl
  if q.sb != 0 then lanes.foldl (loadLane k c q o) ([], s)
  else if lanes.any (k.active q.f) then
    (lanes.map (fun _ => leNat (fetchOpnd s c o 0 (etSize (etOf q.f)) 3).1), (fetchOpnd s c o 0 (etSize (etOf q.f)) 3).2)
  else (lanes.map (fun _ => 0), s)

/-- VLD at its start: active elements are read; stride zero reads one element for all (R234). -/
def runVld (s : State) (c : Nat) (q : QInstr) : State :=
  match decodeOpnd s c q.sa with
  | .error _ => s
  | .ok o =>
    let et := etOf q.f
    let k := s.core c
    let r := loadLanes s c q o
    writeVec r.2 c q.f.d.toNat et (k.keeps q.f) (masked k q.f (k.vec q.f.d.toNat et q.vl) r.1)

/-- VST at its start: active elements are written (R234). -/
def runVst (s : State) (c : Nat) (q : QInstr) : State :=
  match decodeOpnd s c q.sa with
  | .error _ => s
  | .ok o =>
    let et := etOf q.f
    let k := s.core c
    let vals := k.vec q.f.d.toNat et q.vl
    (List.range q.vl).foldl (fun s i =>
      if k.active q.f i then writeOpnd s c o (i * q.sb.toInt) (leBytes (etSize et) (vals.getD i 0)) false else s) s

/-- VACC at its start: element i is the cell at row r0 + i / C and column i mod C; rounded forms set LOSS_HI, and a
poisoned row arrives marked as failed (R213, R222, R238). -/
def runVacc (s : State) (c : Nat) (q : QInstr) : State :=
  let a := arrOf q.f
  let ty := (field q.f.imm 12 4).toNat
  let cc := (field q.f.imm 5 7).toNat + 1
  let r0 := (field q.f.imm 0 5).toNat
  let df := match ty with | 4 => 3 | 6 => 2 | 7 => 1 | _ => 0
  let x := (s.core c).array a
  let b := bankOf q.f
  let y := x.bank b
  let elem := fun i =>
    let cell := Table.get {} y.cells ((r0 + i / cc) * 128 + i % cc)
    drainBytes df (cell.num y.we.toInt y.opc) (cell.raw y.opc)
  let bad := (List.range q.vl).any (fun i => bit y.poison (x.phys y.strip (r0 + i / cc) (i % cc)).1)
  let s := s.modCore c (fun k => k.setArray a
    ((List.range q.vl).foldl (fun (x : MArray) i => if (elem i).2 then x.noteHi b (r0 + i / cc) else x) (k.array a)))
  let s := writeVec s c q.f.d.toNat ty (fun _ => false) ((List.range q.vl).map (fun i => leNat (elem i).1))
  if bad then failStep s c else s

/-- The effect of a VE instruction that starts, with the scalar result it will write (Table 11-4). VL = 0 touches nothing. -/
def runVe (s : State) (c : Nat) (q : QInstr) : State × Word :=
  let k := s.core c
  let f := q.f
  let et := etOf f
  let vl := q.vl
  let va := k.vec f.a.toNat et vl
  let vb := k.vec f.b.toNat et vl
  let vd := k.vec f.d.toNat et vl
  if vl = 0 then (s, 0)
  else
    match q.op with
    | .vld => (runVld s c q, 0)
    | .vst => (runVst (vecDetect s c 3 [(f.d.toNat, et)] vl) c q, 0)
    | .vacc => (runVacc s c q, 0)
    | .vpopc => (s, BitVec.ofNat 64 ((List.range vl).filter (fun i => bit (k.mask (mskOf f)) i)).length)
    | .vmask =>
      let x := k.mask f.a.toNat
      let y := k.mask f.b.toNat
      let g := fun i => match condOf f with
        | 0 => bit x i && bit y i
        | 1 => bit x i || bit y i
        | 2 => bit x i != bit y i
        | _ => bit x i && !bit y i
      (s.setCore c (k.setMask f.d.toNat (maskFrom (k.mask f.d.toNat) (maskBit k f (k.mask f.d.toNat) g) vl)), 0)
    | .vcmp =>
      let s := vecDetect s c 3 [(f.a.toNat, et), (f.b.toNat, et)] vl
      let g := fun i => cmpElem et (condOf f) (va.getD i 0) (vb.getD i 0)
      (s.modCore c (fun k => k.setMask f.d.toNat (maskFrom (k.mask f.d.toNat) (maskBit k f (k.mask f.d.toNat) g) vl)), 0)
    | .vcvt =>
      let s := vecDetect s c 3 [(f.a.toNat, et)] vl
      (writeVec s c f.d.toNat (dtOf f) (k.keeps f) (masked k f (k.vec f.d.toNat (dtOf f) vl) (va.map (cvtElem et (dtOf f)))), 0)
    | .vtrn =>
      let s := vecDetect s c 3 [(f.a.toNat, et)] vl
      (writeVec s c f.d.toNat et (k.keeps f) (masked k f vd (va.map (trnElem et (fnOf f)))), 0)
    | .vcompress =>
      let s := vecDetect s c 3 [(f.a.toNat, et)] vl
      let w := activeElems k f vl va
      (writeVec s c f.d.toNat et (fun i => decide (w.length ≤ i) && !mzOf f) ((List.range vl).map (fun i => if i < w.length then w.getD i 0 else if mzOf f then 0 else vd.getD i 0)), 0)
    | .vexpand =>
      let s := vecDetect s c 3 [(f.a.toNat, et)] vl
      (writeVec s c f.d.toNat et (k.keeps f) (expandList k f vd vl 0 va), 0)
    | .vscan =>
      let s := vecDetect s c 3 [(f.a.toNat, et)] vl
      let r := scanList et (excOf f) (fun _ => false) 0 (if ciOf f then k.ve.carry else {}) va
      let s := writeVec s c f.d.toNat et (k.keeps f) (masked k f vd r.1)
      (s.modCore c (fun k => { k with ve := { k.ve with carry := r.2, carryType := some (field f.imm 5 4) } }), 0)
    | .vscanseg =>
      let s := vecDetect s c 3 [(f.a.toNat, et)] vl
      let m := k.mask (mskOf f)
      let r := scanList et (excOf f) (fun i => bit m i) 0 (if ciOf f then k.ve.carry else {}) va
      let s := writeVec s c f.d.toNat et (fun _ => false) r.1
      (s.modCore c (fun k => { k with ve := { k.ve with carry := r.2, carryType := some (field f.imm 5 4) } }), 0)
    | op =>
      let two := !(op == .vmov || op == .vsqrt)
      let s := vecDetect s c 3 ((f.a.toNat, et) :: ((if two then [(f.b.toNat, et)] else []) ++ (if op == .vfma then [(f.d.toNat, et)] else []))) vl
      (writeVec s c f.d.toNat et (k.keeps f) (masked k f vd ((List.range vl).map (fun i => elemOp op et (satOf f) (va.getD i 0) (vb.getD i 0) (vd.getD i 0)))), 0)

/-- VE_START: the VE pops and carries out the instruction at its queue's head; what remains is its completion (R243). -/
def execVeStart (c : CoreId) (s : State) : Result :=
  live s fun s =>
    let k := s.core c.val
    match k.queue 2 with
    | [] => s
    | q :: rest =>
      let r := runVe (s.setCore c.val { k with queues := Table.set [] k.queues 2 rest }) c.val q
      toRunning r.1 c.val 2 { q with sres := r.2 }

end Sys2Proof.Machine
end

