-- ==== Sys2Proof/Machine/Reduce.lean ====
section
/-!
DEFINITION. The reduction unit: exact sums, records, maxima, minima and OR (chapter 11, R240 to R243).
-/
namespace Sys2Proof.Machine

/-- Accumulator xk of core c (R240). -/
def Core.xacc (k : Core) (i : Nat) : Exact := Table.get {} k.ru i
/-- Core with accumulator xi replaced. -/
def Core.setXacc (k : Core) (i : Nat) (x : Exact) : Core := { k with ru := Table.set {} k.ru i x }

/-- The accumulator number IMM[2:0] (R241). -/
def xOf (f : Fields) : Nat := (field f.imm 0 3).toNat

/-! ### Issue (R241, R242) -/

/-- An RU instruction that names only an accumulator and perhaps sD or sA. -/
def ruPush (c : CoreId) (f : Fields) (op : EOp) (n : VeNeed) (s : State) : State := vePush c f 3 op n s

/-- RCLR: X, flags and count of xk become zero (Table 11-7). -/
def execRclr (c : CoreId) (f : Fields) (s : State) : Result :=
  live s (issue c.val false (f.only false false false 0 7) [] (fun s => ruPush c f .rclr {} s))

/-- RSUM: the exact sum of the active elements of vA into xk; its mask is named by D[2:0] (assumption 31, R240, R241). -/
def execRsum (c : CoreId) (f : Fields) (s : State) : Result :=
  live s (issue c.val false (f.only true true false 0 0x1EF && decide (f.d.toNat < 8) && (menOf f || f.d == 0)) [] fun s =>
    if !arith (etOf f) then refuse s c.val fIllegalOp
    else ruPush c f .rsum { srcs := [(f.a.toNat, etOf f)], mreads := if menOf f then [f.d.toNat] else [] } s)

/-- RRD: xk rounded once to fp32, bf16 or int32, into sD (R241). -/
def execRrd (c : CoreId) (f : Fields) (s : State) : Result :=
  live s (issue c.val false (f.only true false false 0 0x1E7) [f.d] fun s =>
    if !(etOf f == 4 || etOf f == 6 || etOf f == 7) then refuse s c.val fIllegalOp
    else ruPush c f .rrd { swrite := some f.d.toNat } s)

/-- The issue of RXST and RXADD: a 48-byte record at a 16-byte aligned address in the forms of R234 (R242; assumption 32). -/
def ruMem (c : CoreId) (f : Fields) (op : EOp) (write : Bool) (s : State) : State :=
  issue c.val false (f.only false true false 0 7) [f.a]
    (fun s =>
      match decodeOpnd s c.val ((s.core c.val).sreg f.a.toNat) with
      | .error code => refuse s c.val code
      | .ok o =>
        if ((s.core c.val).sreg f.a.toNat).toNat % 16 != 0 then refuse s c.val fIllegalOp
        else if !o.fits c.val 0 47 then refuse s c.val fAddrUnmapped
        else ruPush c f op { extra := rngOf s c.val o 0 47 write } s) s

/-- RXST: stores the record of Table 11-8 (R242). -/
def execRxst (c : CoreId) (f : Fields) (s : State) : Result := live s (ruMem c f .rxst true)
/-- RXADD: adds a record (R242). -/
def execRxadd (c : CoreId) (f : Fields) (s : State) : Result := live s (ruMem c f .rxadd false)

/-- The issue of RMAX, RMIN and ROR (Table 11-7). -/
def ruScan (c : CoreId) (f : Fields) (op : EOp) (types : Nat → Bool) (s : State) : State :=
  issue c.val false (f.only true true false 0 0x1EF) [f.d]
    (fun s =>
      if !types (etOf f) then refuse s c.val fIllegalOp
      else ruPush c f op { srcs := [(f.a.toNat, etOf f)], mreads := menMasks f, swrite := some f.d.toNat } s) s

/-- RMAX: the largest active element and the lowest index that holds it (R241). -/
def execRmax (c : CoreId) (f : Fields) (s : State) : Result := live s (ruScan c f .rmax arith)
/-- RMIN: the smallest active element and the lowest index that holds it (R241). -/
def execRmin (c : CoreId) (f : Fields) (s : State) : Result := live s (ruScan c f .rmin arith)
/-- ROR: the OR of the active elements of an integer type (R241). -/
def execRor (c : CoreId) (f : Fields) (s : State) : Result := live s (ruScan c f .ror etInt)

/-! ### What they compute (R240 to R242) -/

/-- An exact-sum record (Table 11-8): the count saturates at 2^40 − 1. -/
def Exact.record (x : Exact) : List Byte :=
  let flags := (if x.nan then 1 else 0) + (if x.pinf then 2 else 0) + (if x.ninf then 4 else 0) + (if x.lossHi then 8 else 0)
  leBytes 40 x.x.toNat ++ [BitVec.ofNat 8 flags] ++ leBytes 5 (Nat.min x.count (2 ^ 40 - 1)) ++ [0, 0]

/-- The count with n terms added: LOSS_HI is set once it passes 2^40 (R240). -/
def Exact.addCount (x : Exact) (n : Nat) : Exact :=
  { x with count := Nat.min (x.count + n) (2 ^ 40 + 1), lossHi := x.lossHi || decide (2 ^ 40 < x.count + n) }

/-- Whether a record has a nonzero reserved field (Table 11-8). -/
def recordBad (l : List Byte) : Bool := leField l 40 1 / 16 != 0 || leField l 46 2 != 0

/-- RXADD: X modulo 2^320, flags ORed, counts added (Table 11-7). -/
def Exact.addRecord (x : Exact) (l : List Byte) : Exact :=
  let b := leField l 40 1
  ({ x with
    x := x.x + BitVec.ofNat 320 (leField l 0 40)
    nan := x.nan || b % 2 == 1, pinf := x.pinf || b / 2 % 2 == 1, ninf := x.ninf || b / 4 % 2 == 1
    lossHi := x.lossHi || b / 8 % 2 == 1 }).addCount (leField l 41 5)

/-- The active elements with their indices. -/
def activePairs (k : Core) (f : Fields) (vals : List Nat) : List (Nat × Nat) :=
  ((List.range vals.length).filter (k.active f)).map (fun i => (i, vals.getD i 0))

/-- Whether pattern b beats pattern a: strictly better in R231's order, so that ties keep the lowest index (R241). -/
def beats (et : Nat) (max : Bool) (a b : Nat) : Bool :=
  if etFloat et then
    if max then Num.ltTotal true (etNum et a) (etNum et b) else Num.ltTotal false (etNum et b) (etNum et a)
  else if max then decide (etVal et a < etVal et b) else decide (etVal et b < etVal et a)

/-- The pattern of a winning value: a NaN is the canonical NaN (R231). -/
def winPat (et v : Nat) : Nat := if etFloat et && (etNum et v).isNan then etPat et .nan else v

/-- The value of a type for an empty set (R241): −∞ or the type's minimum for max, +∞ or the maximum for min. -/
def emptyPat (et : Nat) (max : Bool) : Nat :=
  if etFloat et then etPat et (.inf max)
  else intPat (etBits et) (if max then intMin (etBits et) (etSigned et) else intMax (etBits et) (etSigned et))

/-- The result of RMAX and RMIN: value in [31:0], index in [47:32] (R241). -/
def extremum (et : Nat) (max : Bool) (l : List (Nat × Nat)) : Word :=
  let best := l.foldl (fun (b : Option (Nat × Nat)) p =>
    match b with
    | none => some p
    | some q => if beats et max q.2 p.2 then some p else some q) none
  match best with
  | none => BitVec.ofNat 64 (emptyPat et max + 0xFFFF * 2 ^ 32)
  | some (i, v) => BitVec.ofNat 64 (winPat et v + i * 2 ^ 32)

/-- The result of RRD with whether it overflowed (R241, R213). -/
def Exact.rounded (x : Exact) (et : Nat) : Nat × Bool :=
  match et with
  | 4 => let r := x.num.toIntSat 32 true; (intPat 32 r.1, r.2)
  | 6 => bf16.round x.num
  | _ => fp32.round x.num

/-- The effect of an RU instruction that starts, with the scalar result it will write (Table 11-7). -/
def runRu (s : State) (c : Nat) (q : QInstr) : State × Word :=
  let k := s.core c
  let f := q.f
  let et := etOf f
  let i := xOf f
  let va := k.vec f.a.toNat et q.vl
  match q.op with
  | .rclr => (s.setCore c (k.setXacc i {}), 0)
  | .rsum =>
    if q.vl = 0 then (s, 0) else
    let s := vecDetect s c 4 [(f.a.toNat, et)] q.vl
    let act := fun j => !menOf f || bit (k.mask f.d.toNat) j
    let x := ((List.range q.vl).filter act).foldl (fun (x : Exact) j => x.addNum (etNum et (va.getD j 0))) (k.xacc i)
    (s.modCore c (fun k => k.setXacc i (x.addCount q.vl)), 0)
  | .rrd =>
    let r := (k.xacc i).rounded et
    (s.setCore c (k.setXacc i { k.xacc i with lossHi := (k.xacc i).lossHi || r.2 }), BitVec.ofNat 64 r.1)
  | .rxst =>
    match decodeOpnd s c q.sa with
    | .error _ => (s, 0)
    | .ok o => (writeOpnd s c o 0 (k.xacc i).record false, 0)
  | .rxadd =>
    match decodeOpnd s c q.sa with
    | .error _ => (s, 0)
    | .ok o =>
      let r := fetchOpnd s c o 0 48 4
      if recordBad r.1 then (raiseP r.2 c fReservedSet 4 0, 0)
      else (r.2.modCore c (fun k => k.setXacc i ((k.xacc i).addRecord r.1)), 0)
  | .rmax => (vecDetect s c 4 [(f.a.toNat, et)] q.vl, extremum et true (activePairs k f va))
  | .rmin => (vecDetect s c 4 [(f.a.toNat, et)] q.vl, extremum et false (activePairs k f va))
  | .ror =>
    (vecDetect s c 4 [(f.a.toNat, et)] q.vl, BitVec.ofNat 64 ((activePairs k f va).foldl (fun a p => a ||| p.2) 0))
  | _ => (s, 0)

/-- RU_START: the RU pops and carries out the instruction at its queue's head; what remains is its completion (R243). -/
def execRuStart (c : CoreId) (s : State) : Result :=
  live s fun s =>
    let k := s.core c.val
    match k.queue 3 with
    | [] => s
    | q :: rest =>
      let r := runRu (s.setCore c.val { k with queues := Table.set [] k.queues 3 rest }) c.val q
      toRunning r.1 c.val 3 { q with sres := r.2 }

end Sys2Proof.Machine
end

