-- ==== Sys2Proof/Machine/Scan.lean ====
section
/-!
DEFINITION. The scan unit: selector, distance tables, filter programs and scans (chapter 12, R246 to R262).
-/
namespace Sys2Proof.Machine

/-! ### The selector (R247, R248) -/

/-- The slot count S = min(8, floor(2048 / K)) (R247). -/
def SuCfg.slots (g : SuCfg) : Nat := Nat.min 8 (2048 / g.k)

/-- Whether key a is better than key b: by KT and ORDER, a NaN never better than a number (R248). -/
def SuCfg.keyBetter (g : SuCfg) (a b : BitVec 32) : Bool :=
  match g.kt.toNat with
  | 0 => if g.desc then decide (b < a) else decide (a < b)
  | 1 => if g.desc then b.slt a else a.slt b
  | _ =>
    if g.desc then Num.ltTotal true (fp32.decode b.toNat) (fp32.decode a.toNat)
    else Num.ltTotal false (fp32.decode a.toNat) (fp32.decode b.toNat)

/-- The order of a slot: better key, then lower ID, then lower key pattern (R248; assumption 33). -/
def SuCfg.better (g : SuCfg) (a b : SelEntry) : Bool :=
  g.keyBetter a.key b.key || (!g.keyBetter b.key a.key && (decide (a.id < b.id) || (a.id == b.id && decide (a.key < b.key))))

/-- Insert an entry in a slot's order. -/
def SuCfg.insert (g : SuCfg) (x : SelEntry) : List SelEntry → List SelEntry
  | [] => [x]
  | y :: t => if g.better x y then x :: y :: t else y :: g.insert x t

/-- An offer: a pair already held is not held twice, and the K best stay (R248). -/
def SuCfg.offer (g : SuCfg) (l : List SelEntry) (x : SelEntry) : List SelEntry :=
  if l.contains x then l else (g.insert x l).take g.k

/-- Slot q of the selector. -/
def Su.slot (u : Su) (q : Nat) : SuSlot := Table.get {} u.slots q
/-- The scan unit with slot q replaced. -/
def Su.setSlot (u : Su) (q : Nat) (x : SuSlot) : Su := { u with slots := Table.set {} u.slots q x }

/-- A selector entry as written (Table 12-5). -/
def SelEntry.bytes (e : SelEntry) : List Byte := leBytes 4 e.key.toNat ++ leBytes 5 e.id.toNat ++ [1] ++ List.replicate 6 0

/-! ### Issue (R246, R247, R249 to R253, R255) -/

/-- The slot field IMM[2:0]. -/
def suSlotOf (f : Fields) : Nat := (field f.imm 0 3).toNat

/-- An SU operand of n bytes: it must lie in the own CM or in its buffer; with n = 0 only its reserved bits are checked. -/
def suOpnd (s : State) (c : Nat) (w : Word) (n : Nat) : Except (BitVec 16) (Option Opnd) :=
  if opndReserved w then .error fReservedSet
  else if n = 0 then .ok none
  else
    match decodeOpnd s c w with
    | .error e => .error e
    | .ok o => if o.fits c 0 (n - 1 : Nat) then .ok (some o) else .error fAddrUnmapped

/-- The ranges of an SU operand. -/
def suRng (s : State) (c : Nat) (o : Option Opnd) (n : Nat) (write : Bool) : List Rng :=
  match o with
  | some o => rngOf s c o 0 (n - 1 : Nat) write
  | none => []

/-- Push an SU instruction. -/
def suPush (c : CoreId) (f : Fields) (op : EOp) (w1 : Word) (rs : List Rng) (sdest : Option Nat) (s : State) : State :=
  let k := s.core c.val
  pushEngine c.val 4 (op == .suscan) rs false
    { op := op, f := f, w1 := w1, sa := k.sreg f.a.toNat, sb := k.sreg f.b.toNat, sd := k.sreg f.d.toNat, sdest := sdest } s

/-- SUCFG: sets K, KT and ORDER; the CU's copy is taken at issue (R247). -/
def execSucfg (c : CoreId) (f : Fields) (s : State) : Result :=
  live s (issue c.val false (f.only false false false 0 0x1FFF && field f.imm 10 2 != 3) [] fun s =>
    let g : SuCfg := { k := (field f.imm 0 10).toNat + 1, kt := field f.imm 10 2, desc := bit f.imm 12 }
    if 16 ≤ ((s.core c.val).queue 4).length then heldQueue s c.val
    else (suPush c f .sucfg 0 [] none s).modCore c.val (fun k => { k with su := { k.su with cuCfg := some g } }))

/-- Whether a slot is refused against the CU's copy: no SUCFG since reset, or a slot at or above S (R247, R262). -/
def suSlotBad (k : Core) (q : Nat) : Bool :=
  match k.su.cuCfg with
  | none => true
  | some g => decide (g.slots ≤ q)

/-- MSUB of SUTAB as m (R251). -/
def sutabM (f : Fields) : Nat := 8 * ((field f.imm 3 4).toNat + 1)

/-- SUTAB: builds slot q's distance table from m × 256 fp32 values (R251). -/
def execSutab (c : CoreId) (f : Fields) (s : State) : Result :=
  live s (issue c.val false (f.only false true false 0 0xFFFF) [f.a] fun s =>
    let k := s.core c.val
    let m := sutabM f
    let q := suSlotOf f
    match suOpnd s c.val (k.sreg f.a.toNat) (m * 1024) with
    | .error e => refuse s c.val e
    | .ok o =>
      if suSlotBad k q || decide (65536 < q * m * 512 + m * 512) then refuse s c.val fScanInvalid
      else suPush c f .sutab 0 (suRng s c.val o (m * 1024) false ++ [⟨.ob 5, q * m * 512, q * m * 512 + m * 512 - 1, true⟩]) none s)

/-- SUFLT: loads the filter program of a slot (R255). -/
def execSuflt (c : CoreId) (f : Fields) (s : State) : Result :=
  live s (issue c.val false (f.only false true false 0 7) [f.a] fun s =>
    let k := s.core c.val
    match suOpnd s c.val (k.sreg f.a.toNat) 72 with
    | .error e => refuse s c.val e
    | .ok o =>
      if suSlotBad k (suSlotOf f) then refuse s c.val fScanInvalid
      else suPush c f .suflt 0 (suRng s c.val o 72 false) none s)

/-- SRC of SUSEL. -/
def suSrc (f : Fields) : Nat := (field f.imm 3 2).toNat
/-- N of SUSEL. -/
def suN (f : Fields) : Nat := (field f.imm 5 13).toNat

/-- SUSEL: offers N candidates to a slot (R249). -/
def execSusel (c : CoreId) (f : Fields) (s : State) : Result :=
  live s (issue c.val false (f.only false true true 0 0x3FFFF && decide (suSrc f != 3)) [f.a, f.b] fun s =>
    let k := s.core c.val
    let n := suN f
    let na := if suSrc f = 1 then 16 * n else 4 * n
    let nb := if suSrc f = 2 then 16 * n else 0
    let list := if suSrc f = 2 then k.sreg f.b.toNat else 0
    if (suSrc f = 1 && k.sreg f.b.toNat != 0) || opndReserved (k.sreg f.a.toNat) || opndReserved list then refuse s c.val fReservedSet
    else
      match suOpnd s c.val (k.sreg f.a.toNat) na, suOpnd s c.val list nb with
      | .error e, _ => refuse s c.val e
      | _, .error e => refuse s c.val e
      | .ok oa, .ok ob =>
        if suSlotBad k (suSlotOf f) || decide (4096 < n) then refuse s c.val fScanInvalid
        else suPush c f .susel 0 (suRng s c.val oa na false ++ suRng s c.val ob nb false) none s)

/-- SUTOPK: writes a slot's entries and its counts (R250). -/
def execSutopk (c : CoreId) (f : Fields) (s : State) : Result :=
  live s (issue c.val false (f.only true true false 0 7) [f.d, f.a] fun s =>
    let k := s.core c.val
    match k.su.cuCfg with
    | none => refuse s c.val fScanInvalid
    | some g =>
      match suOpnd s c.val (k.sreg f.a.toNat) (16 * g.k) with
      | .error e => refuse s c.val e
      | .ok o =>
        if suSlotBad k (suSlotOf f) then refuse s c.val fScanInvalid
        else suPush c f .sutopk 0 (suRng s c.val o (16 * g.k) true) (some f.d.toNat) s)

/-- SUSCAN word 1 (Table 12-6). -/
structure ScanWord where
  form : Nat
  m : Nat
  qmask : Byte
  filt : Bool
deriving DecidableEq, Repr

/-- Read word 1 of SUSCAN. -/
def ScanWord.of (w : Word) : ScanWord :=
  { form := (field w 0 2).toNat, m := 8 * ((field w 2 4).toNat + 1), qmask := field w 6 8, filt := bit w 14 }

/-- CB, the bytes of one code (R244). -/
def ScanWord.cb (x : ScanWord) : Nat := if x.form = 0 then x.m else 16 * 2 ^ x.form

/-- Where slot q's table or sketch begins in the table buffer (R251, R254). -/
def ScanWord.tabOff (x : ScanWord) (q : Nat) : Nat := if x.form = 0 then q * x.m * 512 else q * 128
/-- The bytes of slot q's table or sketch. -/
def ScanWord.tabLen (x : ScanWord) : Nat := if x.form = 0 then x.m * 512 else x.cb

/-- The table-buffer range that spans the slots of QMASK (R260). -/
def ScanWord.tabRng (x : ScanWord) : List Rng :=
  match bitsSet x.qmask with
  | [] => []
  | q :: t => [⟨.ob 5, x.tabOff q, x.tabOff (t.getLastD q) + x.tabLen - 1, false⟩]

/-- Check 3 of R253. -/
def scanInvalid (k : Core) (x : ScanWord) (first count : Nat) : Bool :=
  match k.su.cuCfg with
  | none => true
  | some g =>
    decide (256 < g.k) || g.kt != 0 || g.desc ||
    (bitsSet x.qmask).any (fun q => decide (g.slots ≤ q) || (x.form == 0 && decide (65536 < (q + 1) * x.m * 512))) ||
    decide (2 ^ 40 < first + count)

/-- The reserved fields of SUSCAN's words are zero, and B is unused without FILT (R252, Table 12-6). -/
def scanFields (f : Fields) (w1 : Word) : Bool :=
  let x := ScanWord.of w1
  f.only true true true 0 0 && field w1 15 49 == 0 && (x.form == 0 || field w1 2 4 == 0) && (x.filt || f.b == 0)

/-- SUSCAN: the checks of R253 in order, then a scan of COUNT codes against the slots of QMASK (R252 to R254). -/
def execSuscan (c : CoreId) (f : Fields) (w1 : Word) (s : State) : Result :=
  let x := ScanWord.of w1
  live s (issue c.val true (scanFields f w1) [f.d, f.a, f.b] fun s =>
    let k := s.core c.val
    let first := (field (k.sreg f.d.toNat) 0 40).toNat
    let count := (field (k.sreg f.d.toNat) 40 24).toNat
    let na := count * x.cb
    let nb := if x.filt then count * 8 else 0
    if opndReserved (k.sreg f.a.toNat) || opndReserved (k.sreg f.b.toNat) then refuse s c.val fReservedSet
    else
    match suOpnd s c.val (k.sreg f.a.toNat) na, suOpnd s c.val (k.sreg f.b.toNat) nb with
    | .error e, _ => refuse s c.val e
    | _, .error e => refuse s c.val e
    | .ok oa, .ok ob =>
      if scanInvalid k x first count then refuse s c.val fScanInvalid
      else suPush c f .suscan w1 (suRng s c.val oa na false ++ suRng s c.val ob nb false ++ x.tabRng) none s)

/-! ### What they do (R247 to R255) -/

/-- Read an SU operand that issue has checked. -/
def suFetch (s : State) (c : Nat) (w : Word) (off n : Nat) : List Byte × State :=
  if n = 0 then ([], s)
  else
    match decodeOpnd s c w with
    | .error _ => ([], s)
    | .ok o => fetchOpnd s c o off n 5

/-- u = v × 2^TS, negated with NEG, rounded once to an integer; none for a NaN or an infinity (R251). -/
def tabRound (ts : Int) (neg : Bool) (v : Nat) : Option Int :=
  match fp32.decode v with
  | .fin n m e => some (rneInt (n != neg) m (e + ts))
  | _ => none

/-- The 256 entries of one subspace: each value above the least, at most 65,535; all 65,535 with a special (R251). -/
def tabEntries (ts : Int) (neg : Bool) (vals : List Nat) : List Nat :=
  let us := vals.map (tabRound ts neg)
  if us.any (·.isNone) then us.map (fun _ => 65535)
  else
    let xs := us.map (·.getD 0)
    let lo := xs.foldl (fun a b => if b < a then b else a) (xs.headD 0)
    xs.map (fun u => Nat.min 65535 (u - lo).toNat)

/-- SUTAB at its start (R251). -/
def runSutab (s : State) (c : Nat) (q : QInstr) : State :=
  let m := sutabM q.f
  let ts := (field q.f.imm 7 8).toInt
  let r := suFetch s c q.sa 0 (m * 1024)
  let rows := (List.range m).map (fun i => tabEntries ts (bit q.f.imm 15) ((List.range 256).map (fun j => leField r.1 ((i * 256 + j) * 4) 4)))
  writeOpnd r.2 c (.ob 5 (suSlotOf q.f * m * 512)) 0 ((rows.flatten.map (leBytes 2)).flatten) false

/-- Whether a filter record is bad: NT above 4, a reserved OP below NT, or a reserved field (R255). -/
def filterBad (l : List Byte) : Bool :=
  let nt := leField l 64 1 % 8
  let ops := leField l 65 2
  leField l 64 1 / 8 != 0 || leField l 67 1 / 8 != 0 || leField l 68 4 != 0 || decide (4 < nt) ||
    (List.range 4).any (fun t => decide (t < nt) && decide (5 < ops / 16 ^ t % 16))

/-- Term t of a filter record on an attribute word (R255). -/
def filterTerm (l : List Byte) (t : Nat) (a : Word) : Bool :=
  let mask := BitVec.ofNat 64 (leField l (16 * t) 8)
  let v := BitVec.ofNat 64 (leField l (16 * t + 8) 8)
  let x := a &&& mask
  match leField l 65 2 / 16 ^ t % 16 with
  | 0 => x == v
  | 1 => x != v
  | 2 => decide (x < v)
  | 3 => decide (v ≤ x)
  | 4 => x != 0
  | _ => x == 0

/-- The result of a filter program: terms joined strictly left to right; NT = 0 passes (R255). -/
def SuSlot.passes (x : SuSlot) (a : Word) : Bool :=
  let l := x.filter
  let nt := leField l 64 1 % 8
  if x.rejectAll then false
  else if nt = 0 then true
  else
    (List.range (nt - 1)).foldl (fun r t =>
      if leField l 67 1 / 2 ^ t % 2 == 1 then r || filterTerm l (t + 1) a else r && filterTerm l (t + 1) a) (filterTerm l 0 a)

/-- SUFLT at its start: a bad record rejects every vector and raises F_RESERVED_SET (R255). -/
def runSuflt (s : State) (c : Nat) (q : QInstr) : State :=
  let r := suFetch s c q.sa 0 72
  let bad := filterBad r.1
  let s := r.2.modCore c (fun k =>
    { k with su := k.su.setSlot (suSlotOf q.f) { k.su.slot (suSlotOf q.f) with filter := if bad then [] else r.1, rejectAll := bad } })
  if bad then raiseP s c fReservedSet 5 0 else s

/-- A read of selector slots with a parity error among their entries logs F_OB_PARITY, and the step cannot commit (R107, R261;
assumption 126). -/
def slotDetect (s : State) (c : Nat) (qs : List Nat) : State :=
  if qs.any (fun q => ((s.core c).su.slot q).bad) then raiseD s c fObParity 5 0 0 else s

/-- Offer a list of entries to slot q of core c, first to last; an offer reads the slot (R261). -/
def offerAll (s : State) (c q : Nat) (xs : List SelEntry) : State :=
  (if xs.isEmpty then s else slotDetect s c [q]).modCore c (fun k =>
    match k.su.cfg with
    | none => k
    | some g => { k with su := k.su.setSlot q { k.su.slot q with entries := xs.foldl g.offer (k.su.slot q).entries } })

/-- SUSEL at its start: the candidates by SRC; an ID sum beyond 40 bits is a free value of the operands (R29, R249; assumption 9). -/
def runSusel (s : State) (c : Nat) (q : QInstr) : State :=
  let n := suN q.f
  let slot := suSlotOf q.f
  if suSrc q.f = 1 then
    let r := suFetch s c q.sa 0 (16 * n)
    let es := ((List.range n).filter (fun i => leField r.1 (16 * i + 9) 1 % 2 == 1)).map (fun i =>
      (⟨BitVec.ofNat 32 (leField r.1 (16 * i) 4), BitVec.ofNat 40 (leField r.1 (16 * i + 4) 5)⟩ : SelEntry))
    offerAll r.2 c slot es
  else
    let r := suFetch s c q.sa 0 (4 * n)
    let t := if suSrc q.f = 2 then suFetch r.2 c q.sb 0 (16 * n) else ([], r.2)
    let base := (field q.sb 0 40).toNat
    let id := fun i =>
      if suSrc q.f = 2 then BitVec.ofNat 40 (leField t.1 (16 * i + 4) 5)
      else if base + i < 2 ^ 40 then BitVec.ofNat 40 (base + i)
      else Config.wideId q.sb i
    offerAll t.2 c slot ((List.range n).map (fun i => (⟨BitVec.ofNat 32 (leField r.1 (4 * i) 4), id i⟩ : SelEntry)))

/-- SUTOPK at its start: K entries, best first, the rest zero; the slot is unchanged (R250). -/
def runSutopk (s : State) (c : Nat) (q : QInstr) : State × Word :=
  let k := s.core c
  match k.su.cfg, decodeOpnd s c q.sa with
  | some g, .ok o =>
    let x := k.su.slot (suSlotOf q.f)
    let held := (x.entries.map SelEntry.bytes).flatten
    (writeOpnd (slotDetect s c [suSlotOf q.f]) c o 0 (takePad (16 * g.k) held) false, BitVec.ofNat 64 (x.entries.length + x.rejections.toNat * 2 ^ 16))
  | _, _ => (s, 0)

/-- The distance of a code to slot q (R254): the sum of the table entries, or the Hamming distance. -/
def scanKey (k : Core) (x : ScanWord) (q : Nat) (code : List Byte) : Nat :=
  let tab := k.obBytes 5 (x.tabOff q) x.tabLen
  if x.form = 0 then
    (List.range x.m).foldl (fun acc i => acc + leField tab ((i * 256 + (code.getD i 0).toNat) * 2) 2) 0
  else (List.range x.cb).foldl (fun acc i => acc + popcount (code.getD i 0 ^^^ tab.getD i 0)) 0

/-- One vector against one slot: a rejection is counted, or the key is offered (R254). -/
def scanOne (k : Core) (g : SuCfg) (x : ScanWord) (code : List Byte) (attr : Word) (id : Nat) (u : Su) (q : Nat) : Su :=
  let y := u.slot q
  if x.filt && !y.passes attr then u.setSlot q { y with rejections := satInc32 y.rejections }
  else u.setSlot q { y with entries := g.offer y.entries ⟨BitVec.ofNat 32 (scanKey k x q code), BitVec.ofNat 40 id⟩ }

/-- SUSCAN at its start (R254); a parity error in the table buffer or in a slot logs F_OB_PARITY (R261). -/
def runSuscan (s : State) (c : Nat) (q : QInstr) : State :=
  let x := ScanWord.of q.w1
  let first := (field q.sd 0 40).toNat
  let count := (field q.sd 40 24).toNat
  if x.qmask = 0 then s
  else
    let a := suFetch s c q.sa 0 (count * x.cb)
    let b := if x.filt then suFetch a.2 c q.sb 0 (count * 8) else ([], a.2)
    let s := b.2
    let slots := bitsSet x.qmask
    let s := if count != 0 && slots.any (fun q => badOpnd s c (.ob 5 (x.tabOff q)) 0 x.tabLen) then raiseD s c fObParity 5 0 0 else s
    let s := if count = 0 then s else slotDetect s c slots
    s.modCore c (fun k =>
      match k.su.cfg with
      | none => k
      | some g =>
        { k with su := (List.range count).foldl (fun u i =>
            slots.foldl (scanOne k g x ((List.drop (i * x.cb) a.1).take x.cb) (BitVec.ofNat 64 (leField b.1 (i * 8) 8)) (first + i)) u) k.su })

/-- SUCFG at its start: every slot becomes empty and its rejections zero; filter programs stay (R247, R255). -/
def runSucfg (s : State) (c : Nat) (q : QInstr) : State :=
  let f := q.f
  s.modCore c (fun k =>
    let u := (List.range 8).foldl (fun (u : Su) i => u.setSlot i { u.slot i with entries := [], rejections := 0, bad := false }) k.su
    { k with su := { u with cfg := some { k := (field f.imm 0 10).toNat + 1, kt := field f.imm 10 2, desc := bit f.imm 12 } } })

/-- The effect of an SU instruction that starts, with the scalar result it will write (Table 12-4). -/
def runSu (s : State) (c : Nat) (q : QInstr) : State × Word :=
  match q.op with
  | .sucfg => (runSucfg s c q, 0)
  | .sutab => (runSutab s c q, 0)
  | .suflt => (runSuflt s c q, 0)
  | .susel => (runSusel s c q, 0)
  | .sutopk => runSutopk s c q
  | .suscan => (runSuscan s c q, 0)
  | _ => (s, 0)

/-- The time of an SU instruction in CCLK, which its bucket is charged (R260, R295). -/
def suTime (k : Core) (q : QInstr) : Nat :=
  let x := ScanWord.of q.w1
  let count := (field q.sd 40 24).toNat
  match q.op with
  | .suflt => 2
  | .sutab => sutabM q.f * 32 + 8
  | .susel => if suN q.f = 0 then 1 else ceilDiv (suN q.f) 16 + 6
  | .sutopk => ceilDiv (match k.su.cfg with | some g => g.k | none => 0) 4 + 4
  | .suscan => if count = 0 || x.qmask = 0 then 1 else ceilDiv (count * x.cb) 64 + 12
  | _ => 1

/-- SU_START: with tokens in its bucket the SU pops and carries out the instruction at its queue's head; what remains is
its completion (R260, R295, R297). -/
def execSuStart (c : CoreId) (s : State) : Result :=
  live s fun s =>
    let k := s.core c.val
    match k.queue 4 with
    | [] => s
    | q :: rest =>
      let b := qosStart s k.colour.toNat [(bucketKey 6 c.val, suTime k q)]
      if !b.1 then b.2
      else
        let r := runSu (b.2.modCore c.val (fun k => { k with queues := Table.set [] k.queues 4 rest })) c.val q
        toRunning r.1 c.val 4 { q with sres := r.2 }

end Sys2Proof.Machine
end

