-- ==== Sys2Proof/Machine/Opcodes.lean ====
section
/-!
DEFINITION. Core instruction words that issue refuses: reserved opcodes and fields that the instruction does not use (R179).
-/
namespace Sys2Proof.Machine

/-- Whether the fields of a decoded core instruction that its minor does not use are zero, and its fields hold no reserved code
(R179; the tables of the minors). -/
def fieldsInOrder : Instr → Bool
  | .add _ f | .sub _ f | .and _ f | .or _ f | .xor _ f | .shl _ f | .shr _ f | .sra _ f | .min _ f | .max _ f | .minu _ f | .maxu _ f | .seq _ f
  | .slt _ f | .sltu _ f => scalarFields f
  | .lih _ f | .sldc _ f => f.only true true false 0 0xFFFFFFFF
  | .sld _ f => f.only true true false 7 0xFFFFFFFF
  | .sst _ f => f.only false true true 3 0xFFFFFFFF
  | .beq _ f | .bne _ f | .blt _ f | .bge _ f | .bltu _ f | .bgeu _ f => f.only false true true 0 0xFFFFFFFF
  | .jmp _ f => f.only false false false 0 0xFFFFFFFF
  | .jmpr _ f => f.only true true false 0 0
  | .loop _ f => f.only true false false 0 0xFFFFFFFF
  | .csrr _ f => f.only true false false 0 0xFFF
  | .csrw _ f => f.only false true false 0 0xFFF
  | .waitAll _ f | .waitAny _ f => f.only false true false 1 0
  | .waitBar _ f | .arrive _ f | .stepEnd _ f => f.only false false false 0 0x7F
  | .waitBook _ f => f.only false false false 0 0x1F
  | .waitFill _ f | .mvrel _ f => f.only false true false 0 0xFF
  | .signal _ f => f.only false true true 0 0
  | .fenceC _ f | .fenceD _ f | .fenceP _ f | .halt _ f => f.only false false false 0 0
  | .cinv _ f => f.only false false false 3 0
  | .book _ f => f.only false true true 0 0x1F
  | .bookrd _ f | .bookrds _ f => f.only true false false 0 0x1F
  | .stepBegin _ f => f.only false false false 0 0xFFFFFFFF
  | .matAcc _ f w1 | .matFull _ f w1 => !matReserved f (Tile.ofWords f w1)
  | .maclr _ f => f.only false false false 3 0x3FFF && field f.imm 10 3 != 7
  | .madrain _ f => f.only false true true 3 0x1FFFF && decide ((field f.imm 14 3).toNat < 6)
  | .maadd _ f => f.only false true true 3 0x3FFF
  | .mastat _ f => f.only true false false 3 3
  | .setvl _ f => f.only true true false 3 0 && f.x != 3
  | .vld _ f | .vst _ f => f.only true true true 0 immE
  | .vadd _ f | .vsub _ f | .vmul _ f | .vfma _ f => f.only true true true 0 immSat
  | .vdiv _ f | .vmin _ f | .vmax _ f | .vand _ f | .vor _ f | .vxor _ f | .vshl _ f | .vshr _ f => f.only true true true 0 immE
  | .vmov _ f | .vsqrt _ f | .vcompress _ f | .vexpand _ f => f.only true true false 0 immE
  | .vcmp _ f => f.only true true true 0 (immE + 0xE000) && decide (f.d.toNat < 8) && decide (condOf f < 6)
  | .vmask _ f => f.only true true true 0 (0x1F + 0xE000) && decide (f.d.toNat < 8) && decide (f.a.toNat < 8) && decide (f.b.toNat < 8) && decide (condOf f < 4)
  | .vpopc _ f => f.only true false false 0 0xF
  | .vcvt _ f => f.only true true false 0 (immE + 0x1E00)
  | .vscan _ f | .vscanseg _ f => f.only true true false 0 (immE + 0x600000)
  | .vtrn _ f => f.only true true false 0 (immE + 0xF0000) && decide (fnOf f < 10)
  | .vacc _ f => f.only true false false 3 0xFFFF
  | .rclr _ f => f.only false false false 0 7
  | .rsum _ f => f.only true true false 0 0x1EF && decide (f.d.toNat < 8) && (menOf f || f.d == 0)
  | .rrd _ f => f.only true false false 0 0x1E7
  | .rxst _ f | .rxadd _ f => f.only false true false 0 7
  | .rmax _ f | .rmin _ f | .ror _ f => f.only true true false 0 0x1EF
  | .sucfg _ f => f.only false false false 0 0x1FFF && field f.imm 10 2 != 3
  | .sutab _ f => f.only false true false 0 0xFFFF
  | .suflt _ f => f.only false true false 0 7
  | .susel _ f => f.only false true true 0 0x3FFFF && decide (suSrc f != 3)
  | .sutopk _ f => f.only true true false 0 7
  | .suscan _ f w1 => scanFields f w1
  | .mvcfg _ f => f.only false true true 0 0xF
  | .mvpost _ f => f.only false false false 0 0xF
  | _ => true

/-- ILLEGAL_OPCODE: the CU decodes a word of a reserved major or minor opcode, zeroed memory among them, and raises F_ILLEGAL_OP;
one with a field that its minor does not use raises F_RESERVED_SET. Neither issues: the core is HALTED with STEP_FAIL set (R179).
A word in order is the command of its instruction, and nothing happens here. -/
def execIllegalOpcode (c : CoreId) (w0 w1 : Word) (s : State) : Result :=
  live s fun s =>
    match decodeCore c w0 w1 with
    | none => issue c.val (longMaj (majOf w0)) true [] (fun s => refuse s c.val fIllegalOp) s
    | some i => if fieldsInOrder i then s else issue c.val (longMaj (majOf w0)) true [] (fun s => refuse s c.val fReservedSet) s

end Sys2Proof.Machine
end

