-- ==== Sys2Proof/Machine/TestAccess.lean ====
section
/-!
DEFINITION. The die wrapper's test instructions (R389 to R391; Table 18-9).
-/
namespace Sys2Proof.Machine

/-- An instruction in force, with what it shifts out. The wrapper answers while PORST_N is high. -/
def testInstr (s : State) (i : TestInstr) (tdo : Option Word) : Result :=
  .next (
    if s.boot.porstLow then s
    else
      let s := { s with test := { s.test with ir := i } }
      match tdo with
      | some w => emit s (.tdo w)
      | none => s)

/-- An instruction marked "test state" is BYPASS outside the test state, and until its zero fill has ended (R390, R391). -/
def testOnly (s : State) (f : State → Result) : Result := if s.boot.testState && s.boot.testReady then f s else testInstr s .bypass none

/-- An instruction whose readout the spec does not give: a free value (assumption 9). -/
def testRead (s : State) (i : TestInstr) : Result := testInstr (takeFree s).2 i (some (takeFree s).1)

/-- IDCODE's 32 bits (Table 18-9). -/
def idcodeWord : Word := BitVec.ofNat 64 (0x10000000 + 0x0040 * 2 ^ 12 + Config.manufacturer.toNat * 2 + 1)

/-- RESULT codes (R386). -/
def BootResult.code : BootResult → Nat
  | .inProgress => 0
  | .complete => 1
  | .authFailed => 2
  | .noSource => 3
  | .layerFailed => 4
  | .coreFailed => 5
  | .portFailed => 6

/-- BOOT_STATUS (R386, R395). -/
def Boot.status (b : Boot) : Word :=
  BitVec.ofNat 64 (b.stage + b.result.code * 16 + b01 b.layerFailed * 2 ^ 8 + b01 b.coreFailed * 2 ^ 9 + b01 b.portFailed * 2 ^ 10)

/-- BYPASS (R390). -/
def execBypass (s : State) : Result := testInstr s .bypass none
/-- IDCODE (R390). -/
def execIdcode (s : State) : Result := testInstr s .idcode (some idcodeWord)
/-- SAMPLE: the wrapper register as the pins stand, a free value (R390). -/
def execSample (s : State) : Result := testRead s .sample
/-- BOOTSTAT (R386, R390). -/
def execBootstat (s : State) : Result := testInstr s .bootstat (some s.boot.status)
/-- PRELOAD: the boundary register takes what is shifted in, which the row does not carry (R390). -/
def execPreload (s : State) : Result :=
  testOnly s fun s => testInstr { (takeFree s).2 with test := { s.test with boundary := (takeFree s).1 } } .preload none
/-- EXTEST: the boundary register drives the bumps, and what they show is read, a free value (R390). -/
def execExtest (s : State) : Result := testOnly s fun s => testRead s .extest
/-- HLLOOP (R390). -/
def execHlloop (s : State) : Result := testOnly s fun s => testInstr s .hlloop none
/-- STACKSEL: a layer's secondary port is selected (R389, R390). -/
def execStacksel (l : Fin 12) (s : State) : Result := testOnly s fun s => testInstr s (.stacksel l) none
/-- MBIST: pass and fail are read out, a free value (R390). -/
def execMbist (s : State) : Result := testOnly s fun s => testRead s .mbist
/-- CORESCAN: the scan chains are read out, a free value (R389, R390). -/
def execCorescan (s : State) : Result := testOnly s fun s => testRead s .corescan

end Sys2Proof.Machine
end

