-- ==== Sys2Proof/Machine/Dispatch.lean ====
section
/-!
DEFINITION. One arm per command: its meaning, called by its full name.
-/
namespace Sys2Proof.Machine

/-- The effect of a command on everything but the queue. -/
def exec (i : Instr) (s : State) : Host.Outcome State Fault Refusal :=
  match i with
  | .mastFrame src colour slot => Sys2Proof.Machine.execMastFrame src colour slot s
  | .holdoverEntry => Sys2Proof.Machine.execHoldoverEntry s
  | .extrapolatedStroke => Sys2Proof.Machine.execExtrapolatedStroke s
  | .mastLostEntry => Sys2Proof.Machine.execMastLostEntry s
  | .periodChangeEffective => Sys2Proof.Machine.execPeriodChangeEffective s
  | .bookingFire => Sys2Proof.Machine.execBookingFire s
  | .refreshSlice v upper => Sys2Proof.Machine.execRefreshSlice v upper s
  | .portEnable p => Sys2Proof.Machine.execPortEnable p s
  | .trainingComplete p r => Sys2Proof.Machine.execTrainingComplete p r s
  | .initResend p path => Sys2Proof.Machine.execInitResend p path s
  | .initReceive p path counts echo => Sys2Proof.Machine.execInitReceive p path counts echo s
  | .msgFlitReceive p path flit => Sys2Proof.Machine.execMsgFlitReceive p path flit s
  | .nakReceive p path seq t => Sys2Proof.Machine.execNakReceive p path seq t s
  | .nopReceive p path t => Sys2Proof.Machine.execNopReceive p path t s
  | .replayTimer p path => Sys2Proof.Machine.execReplayTimer p path s
  | .ackTrailerDue p path => Sys2Proof.Machine.execAckTrailerDue p path s
  | .idleNop p => Sys2Proof.Machine.execIdleNop p s
  | .flitTransmit p path => Sys2Proof.Machine.execFlitTransmit p path s
  | .retrainEntry p => Sys2Proof.Machine.execRetrainEntry p s
  | .retrainAttemptDone p ok lanes => Sys2Proof.Machine.execRetrainAttemptDone p ok lanes s
  | .linkDown p => Sys2Proof.Machine.execLinkDown p s
  | .queuedMessageReroute => Sys2Proof.Machine.execQueuedMessageReroute s
  | .sidebandUp p => Sys2Proof.Machine.execSidebandUp p s
  | .sidebandDown p => Sys2Proof.Machine.execSidebandDown p s
  | .sidebandSilence p => Sys2Proof.Machine.execSidebandSilence p s
  | .linkStateMessage p => Sys2Proof.Machine.execLinkStateMessage p s
  | .vc3PathMove p => Sys2Proof.Machine.execVc3PathMove p s
  | .requestTimeout tag => Sys2Proof.Machine.execRequestTimeout tag s
  | .writeMessage m => Sys2Proof.Machine.execWriteMessage m s
  | .readMessage m => Sys2Proof.Machine.execReadMessage m s
  | .ledgerMessage m => Sys2Proof.Machine.execLedgerMessage m s
  | .readDataReceive m => Sys2Proof.Machine.execReadDataReceive m s
  | .writeAckReceive m => Sys2Proof.Machine.execWriteAckReceive m s
  | .fenceProbe m => Sys2Proof.Machine.execFenceProbe m s
  | .ctrlFlitReceive m => Sys2Proof.Machine.execCtrlFlitReceive m s
  | .pennantLinkReceive p ll pn => Sys2Proof.Machine.execPennantLinkReceive p ll pn s
  | .confirmReqReceive p src pn => Sys2Proof.Machine.execConfirmReqReceive p src pn s
  | .confirmAckReceive p src pn => Sys2Proof.Machine.execConfirmAckReceive p src pn s
  | .fencePennantReceive pn => Sys2Proof.Machine.execFencePennantReceive pn s
  | .reinstatePennantReceive pn => Sys2Proof.Machine.execReinstatePennantReceive pn s
  | .pennantPeriodicSend p => Sys2Proof.Machine.execPennantPeriodicSend p s
  | .pennantTriggeredSend p => Sys2Proof.Machine.execPennantTriggeredSend p s
  | .partnerSilence p => Sys2Proof.Machine.execPartnerSilence p s
  | .handshakeTimeout id => Sys2Proof.Machine.execHandshakeTimeout id s
  | .confirmHoldExpiry id => Sys2Proof.Machine.execConfirmHoldExpiry id s
  | .epochIncrement => Sys2Proof.Machine.execEpochIncrement s
  | .assignerTakeover => Sys2Proof.Machine.execAssignerTakeover s
  | .idAssignRound => Sys2Proof.Machine.execIdAssignRound s
  | .routeRecompute => Sys2Proof.Machine.execRouteRecompute s
  | .corePowerUpDone c => Sys2Proof.Machine.execCorePowerUpDone c s
  | .layerPowerUpDone l => Sys2Proof.Machine.execLayerPowerUpDone l s
  | .icacheFill c => Sys2Proof.Machine.execIcacheFill c s
  | .add c f => Sys2Proof.Machine.execAdd c f s
  | .sub c f => Sys2Proof.Machine.execSub c f s
  | .and c f => Sys2Proof.Machine.execAnd c f s
  | .or c f => Sys2Proof.Machine.execOr c f s
  | .xor c f => Sys2Proof.Machine.execXor c f s
  | .shl c f => Sys2Proof.Machine.execShl c f s
  | .shr c f => Sys2Proof.Machine.execShr c f s
  | .sra c f => Sys2Proof.Machine.execSra c f s
  | .min c f => Sys2Proof.Machine.execMin c f s
  | .max c f => Sys2Proof.Machine.execMax c f s
  | .minu c f => Sys2Proof.Machine.execMinu c f s
  | .maxu c f => Sys2Proof.Machine.execMaxu c f s
  | .seq c f => Sys2Proof.Machine.execSeq c f s
  | .slt c f => Sys2Proof.Machine.execSlt c f s
  | .sltu c f => Sys2Proof.Machine.execSltu c f s
  | .lih c f => Sys2Proof.Machine.execLih c f s
  | .sld c f => Sys2Proof.Machine.execSld c f s
  | .sst c f => Sys2Proof.Machine.execSst c f s
  | .sldc c f => Sys2Proof.Machine.execSldc c f s
  | .beq c f => Sys2Proof.Machine.execBeq c f s
  | .bne c f => Sys2Proof.Machine.execBne c f s
  | .blt c f => Sys2Proof.Machine.execBlt c f s
  | .bge c f => Sys2Proof.Machine.execBge c f s
  | .bltu c f => Sys2Proof.Machine.execBltu c f s
  | .bgeu c f => Sys2Proof.Machine.execBgeu c f s
  | .jmp c f => Sys2Proof.Machine.execJmp c f s
  | .jmpr c f => Sys2Proof.Machine.execJmpr c f s
  | .loop c f => Sys2Proof.Machine.execLoop c f s
  | .csrr c f => Sys2Proof.Machine.execCsrr c f s
  | .csrw c f => Sys2Proof.Machine.execCsrw c f s
  | .waitAll c f => Sys2Proof.Machine.execWaitAll c f s
  | .waitAny c f => Sys2Proof.Machine.execWaitAny c f s
  | .waitBar c f => Sys2Proof.Machine.execWaitBar c f s
  | .waitBook c f => Sys2Proof.Machine.execWaitBook c f s
  | .waitFill c f => Sys2Proof.Machine.execWaitFill c f s
  | .waitComplete c => Sys2Proof.Machine.execWaitComplete c s
  | .signal c f => Sys2Proof.Machine.execSignal c f s
  | .arrive c f => Sys2Proof.Machine.execArrive c f s
  | .fenceC c f => Sys2Proof.Machine.execFenceC c f s
  | .fenceD c f => Sys2Proof.Machine.execFenceD c f s
  | .fenceP c f => Sys2Proof.Machine.execFenceP c f s
  | .fenceComplete c => Sys2Proof.Machine.execFenceComplete c s
  | .cinv c f => Sys2Proof.Machine.execCinv c f s
  | .book c f => Sys2Proof.Machine.execBook c f s
  | .bookrd c f => Sys2Proof.Machine.execBookrd c f s
  | .bookrds c f => Sys2Proof.Machine.execBookrds c f s
  | .stepBegin c f => Sys2Proof.Machine.execStepBegin c f s
  | .stepEnd c f => Sys2Proof.Machine.execStepEnd c f s
  | .halt c f => Sys2Proof.Machine.execHalt c f s
  | .haltSettle c => Sys2Proof.Machine.execHaltSettle c s
  | .matAcc c f w1 => Sys2Proof.Machine.execMatAcc c f w1 s
  | .matFull c f w1 => Sys2Proof.Machine.execMatFull c f w1 s
  | .maclr c f => Sys2Proof.Machine.execMaclr c f s
  | .madrain c f => Sys2Proof.Machine.execMadrain c f s
  | .maadd c f => Sys2Proof.Machine.execMaadd c f s
  | .mastat c f => Sys2Proof.Machine.execMastat c f s
  | .maTileStart c a => Sys2Proof.Machine.execMaTileStart c a s
  | .maDrain c a => Sys2Proof.Machine.execMaDrain c a s
  | .setvl c f => Sys2Proof.Machine.execSetvl c f s
  | .vld c f => Sys2Proof.Machine.execVld c f s
  | .vst c f => Sys2Proof.Machine.execVst c f s
  | .vmov c f => Sys2Proof.Machine.execVmov c f s
  | .vadd c f => Sys2Proof.Machine.execVadd c f s
  | .vsub c f => Sys2Proof.Machine.execVsub c f s
  | .vmul c f => Sys2Proof.Machine.execVmul c f s
  | .vfma c f => Sys2Proof.Machine.execVfma c f s
  | .vdiv c f => Sys2Proof.Machine.execVdiv c f s
  | .vsqrt c f => Sys2Proof.Machine.execVsqrt c f s
  | .vmin c f => Sys2Proof.Machine.execVmin c f s
  | .vmax c f => Sys2Proof.Machine.execVmax c f s
  | .vand c f => Sys2Proof.Machine.execVand c f s
  | .vor c f => Sys2Proof.Machine.execVor c f s
  | .vxor c f => Sys2Proof.Machine.execVxor c f s
  | .vshl c f => Sys2Proof.Machine.execVshl c f s
  | .vshr c f => Sys2Proof.Machine.execVshr c f s
  | .vcmp c f => Sys2Proof.Machine.execVcmp c f s
  | .vmask c f => Sys2Proof.Machine.execVmask c f s
  | .vpopc c f => Sys2Proof.Machine.execVpopc c f s
  | .vcvt c f => Sys2Proof.Machine.execVcvt c f s
  | .vcompress c f => Sys2Proof.Machine.execVcompress c f s
  | .vexpand c f => Sys2Proof.Machine.execVexpand c f s
  | .vscan c f => Sys2Proof.Machine.execVscan c f s
  | .vscanseg c f => Sys2Proof.Machine.execVscanseg c f s
  | .vtrn c f => Sys2Proof.Machine.execVtrn c f s
  | .vacc c f => Sys2Proof.Machine.execVacc c f s
  | .veStart c => Sys2Proof.Machine.execVeStart c s
  | .rclr c f => Sys2Proof.Machine.execRclr c f s
  | .rsum c f => Sys2Proof.Machine.execRsum c f s
  | .rrd c f => Sys2Proof.Machine.execRrd c f s
  | .rxst c f => Sys2Proof.Machine.execRxst c f s
  | .rxadd c f => Sys2Proof.Machine.execRxadd c f s
  | .rmax c f => Sys2Proof.Machine.execRmax c f s
  | .rmin c f => Sys2Proof.Machine.execRmin c f s
  | .ror c f => Sys2Proof.Machine.execRor c f s
  | .ruStart c => Sys2Proof.Machine.execRuStart c s
  | .sucfg c f => Sys2Proof.Machine.execSucfg c f s
  | .sutab c f => Sys2Proof.Machine.execSutab c f s
  | .suflt c f => Sys2Proof.Machine.execSuflt c f s
  | .susel c f => Sys2Proof.Machine.execSusel c f s
  | .sutopk c f => Sys2Proof.Machine.execSutopk c f s
  | .suscan c f w1 => Sys2Proof.Machine.execSuscan c f w1 s
  | .suStart c => Sys2Proof.Machine.execSuStart c s
  | .engineInstructionComplete c e => Sys2Proof.Machine.execEngineInstructionComplete c e s
  | .mvcfg c f => Sys2Proof.Machine.execMvcfg c f s
  | .mvpost c f => Sys2Proof.Machine.execMvpost c f s
  | .mvrel c f => Sys2Proof.Machine.execMvrel c f s
  | .descriptorStart c ch => Sys2Proof.Machine.execDescriptorStart c ch s
  | .moverPieceStart c ch => Sys2Proof.Machine.execMoverPieceStart c ch s
  | .descriptorComplete c ch => Sys2Proof.Machine.execDescriptorComplete c ch s
  | .descriptorHalt c ch => Sys2Proof.Machine.execDescriptorHalt c ch s
  | .windowGrant w => Sys2Proof.Machine.execWindowGrant w s
  | .windowGrantSlot src colour slot => Sys2Proof.Machine.execWindowGrantSlot src colour slot s
  | .windowReleaseSlot src colour slot => Sys2Proof.Machine.execWindowReleaseSlot src colour slot s
  | .piecePerformed => Sys2Proof.Machine.execPiecePerformed s
  | .barrierArrivalSlot c colour slot => Sys2Proof.Machine.execBarrierArrivalSlot c colour slot s
  | .counterLocalComplete n => Sys2Proof.Machine.execCounterLocalComplete n s
  | .dieArrivalSlot src colour slot => Sys2Proof.Machine.execDieArrivalSlot src colour slot s
  | .hoistSlotMember src colour slot => Sys2Proof.Machine.execHoistSlotMember src colour slot s
  | .hoistReceive c slot => Sys2Proof.Machine.execHoistReceive c slot s
  | .signalSlotReceive src colour slot => Sys2Proof.Machine.execSignalSlotReceive src colour slot s
  | .interruptCoalesce => Sys2Proof.Machine.execInterruptCoalesce s
  | .interruptSend => Sys2Proof.Machine.execInterruptSend s
  | .partitionDrainEnd colour => Sys2Proof.Machine.execPartitionDrainEnd colour s
  | .mbWrite m => Sys2Proof.Machine.execMbWrite m s
  | .mbRead m => Sys2Proof.Machine.execMbRead m s
  | .reqTailWrite mb v => Sys2Proof.Machine.execReqTailWrite mb v s
  | .rspHeadWrite mb v => Sys2Proof.Machine.execRspHeadWrite mb v s
  | .doorbell mb => Sys2Proof.Machine.execDoorbell mb s
  | .mailboxPoll mb => Sys2Proof.Machine.execMailboxPoll mb s
  | .commandAccept mb => Sys2Proof.Machine.execCommandAccept mb s
  | .mbNotify mb => Sys2Proof.Machine.execMbNotify mb s
  | .mbPost mb slot => Sys2Proof.Machine.execMbPost mb slot s
  | .heartbeatTick => Sys2Proof.Machine.execHeartbeatTick s
  | .skoviRestart cause => Sys2Proof.Machine.execSkoviRestart cause s
  | .skoviRestartDone => Sys2Proof.Machine.execSkoviRestartDone s
  | .identify mb ix => Sys2Proof.Machine.execIdentify mb ix s
  | .fwInfo mb ix => Sys2Proof.Machine.execFwInfo mb ix s
  | .fwStage mb ix image => Sys2Proof.Machine.execFwStage mb ix image s
  | .fwActivate mb ix => Sys2Proof.Machine.execFwActivate mb ix s
  | .fwActivateFallback => Sys2Proof.Machine.execFwActivateFallback s
  | .dieState mb ix => Sys2Proof.Machine.execDieState mb ix s
  | .warmReset mb ix => Sys2Proof.Machine.execWarmReset mb ix s
  | .warmResetPerform => Sys2Proof.Machine.execWarmResetPerform s
  | .mastConfig mb ix => Sys2Proof.Machine.execMastConfig mb ix s
  | .mastStatus mb ix => Sys2Proof.Machine.execMastStatus mb ix s
  | .linkStatus mb ix => Sys2Proof.Machine.execLinkStatus mb ix s
  | .linkReset mb ix => Sys2Proof.Machine.execLinkReset mb ix s
  | .peerTable mb ix sent => Sys2Proof.Machine.execPeerTable mb ix sent s
  | .dieFence mb ix => Sys2Proof.Machine.execDieFence mb ix s
  | .dieReinstate mb ix => Sys2Proof.Machine.execDieReinstate mb ix s
  | .partCreate mb ix => Sys2Proof.Machine.execPartCreate mb ix s
  | .partDestroy mb ix => Sys2Proof.Machine.execPartDestroy mb ix s
  | .partReset mb ix => Sys2Proof.Machine.execPartReset mb ix s
  | .partQuery mb ix => Sys2Proof.Machine.execPartQuery mb ix s
  | .qosSet mb ix => Sys2Proof.Machine.execQosSet mb ix s
  | .powerPlan mb ix => Sys2Proof.Machine.execPowerPlan mb ix s
  | .telemetry mb ix sent => Sys2Proof.Machine.execTelemetry mb ix sent s
  | .errlogRead mb ix sent => Sys2Proof.Machine.execErrlogRead mb ix sent s
  | .errlogClear mb ix => Sys2Proof.Machine.execErrlogClear mb ix s
  | .arrayMap mb ix => Sys2Proof.Machine.execArrayMap mb ix s
  | .debugChallenge mb ix => Sys2Proof.Machine.execDebugChallenge mb ix s
  | .debugUnlock mb ix => Sys2Proof.Machine.execDebugUnlock mb ix s
  | .debugChallengeExpiry => Sys2Proof.Machine.execDebugChallengeExpiry s
  | .imageStage mb ix man share lends => Sys2Proof.Machine.execImageStage mb ix man share lends s
  | .imageCommit mb ix => Sys2Proof.Machine.execImageCommit mb ix s
  | .imageQuery mb ix => Sys2Proof.Machine.execImageQuery mb ix s
  | .imageEvict mb ix => Sys2Proof.Machine.execImageEvict mb ix s
  | .rqCreate mb ix => Sys2Proof.Machine.execRqCreate mb ix s
  | .rqBind mb ix => Sys2Proof.Machine.execRqBind mb ix s
  | .jobLaunch mb ix checks retests => Sys2Proof.Machine.execJobLaunch mb ix checks retests s
  | .jobAbort mb ix => Sys2Proof.Machine.execJobAbort mb ix s
  | .jobStatus mb ix => Sys2Proof.Machine.execJobStatus mb ix s
  | .indexAttach mb ix => Sys2Proof.Machine.execIndexAttach mb ix s
  | .indexDetach mb ix => Sys2Proof.Machine.execIndexDetach mb ix s
  | .intrConfig mb ix => Sys2Proof.Machine.execIntrConfig mb ix s
  | .replayPolicy mb ix => Sys2Proof.Machine.execReplayPolicy mb ix s
  | .partTelemetry mb ix sent => Sys2Proof.Machine.execPartTelemetry mb ix sent s
  | .peerReply m => Sys2Proof.Machine.execPeerReply m s
  | .lendReq m => Sys2Proof.Machine.execLendReq m s
  | .lendRelease m => Sys2Proof.Machine.execLendRelease m s
  | .auditSnap m => Sys2Proof.Machine.execAuditSnap m s
  | .launchCheck m => Sys2Proof.Machine.execLaunchCheck m s
  | .jobEvent m => Sys2Proof.Machine.execJobEvent m s
  | .peerRequestResend die seqno => Sys2Proof.Machine.execPeerRequestResend die seqno s
  | .stepRepair colour refetch => Sys2Proof.Machine.execStepRepair colour refetch s
  | .capqPop => Sys2Proof.Machine.execCapqPop s
  | .hlCtrlReset p => Sys2Proof.Machine.execHlCtrlReset p s
  | .hlCtrlDisable p => Sys2Proof.Machine.execHlCtrlDisable p s
  | .hlCtrlEnable p => Sys2Proof.Machine.execHlCtrlEnable p s
  | .mastPeriodWrite period effective => Sys2Proof.Machine.execMastPeriodWrite period effective s
  | .dbgRead ctrl => Sys2Proof.Machine.execDbgRead ctrl s
  | .dbgWrite ctrl => Sys2Proof.Machine.execDbgWrite ctrl s
  | .cuRun c => Sys2Proof.Machine.execCuRun c s
  | .cuStop c => Sys2Proof.Machine.execCuStop c s
  | .cuCoreReset c => Sys2Proof.Machine.execCuCoreReset c s
  | .cuEngineReset c e => Sys2Proof.Machine.execCuEngineReset c e s
  | .cuReplay c => Sys2Proof.Machine.execCuReplay c s
  | .registerWrite addr data => Sys2Proof.Machine.execRegisterWrite addr data s
  | .porstAssert => Sys2Proof.Machine.execPorstAssert s
  | .porstRelease testMode => Sys2Proof.Machine.execPorstRelease testMode s
  | .fwReq p m => Sys2Proof.Machine.execFwReq p m s
  | .fwData p m => Sys2Proof.Machine.execFwData p m s
  | .fwReqResend => Sys2Proof.Machine.execFwReqResend s
  | .bootSourceRetry => Sys2Proof.Machine.execBootSourceRetry s
  | .bootStageDone r => Sys2Proof.Machine.execBootStageDone r s
  | .refclkLoss => Sys2Proof.Machine.execRefclkLoss s
  | .refclkReturn => Sys2Proof.Machine.execRefclkReturn s
  | .thermalUpdate temps power => Sys2Proof.Machine.execThermalUpdate temps power s
  | .thermtrip sensor => Sys2Proof.Machine.execThermtrip sensor s
  | .railsReturn => Sys2Proof.Machine.execRailsReturn s
  | .bypass => Sys2Proof.Machine.execBypass s
  | .idcode => Sys2Proof.Machine.execIdcode s
  | .sample => Sys2Proof.Machine.execSample s
  | .bootstat => Sys2Proof.Machine.execBootstat s
  | .preload => Sys2Proof.Machine.execPreload s
  | .extest => Sys2Proof.Machine.execExtest s
  | .hlloop => Sys2Proof.Machine.execHlloop s
  | .stacksel l => Sys2Proof.Machine.execStacksel l s
  | .mbist => Sys2Proof.Machine.execMbist s
  | .corescan => Sys2Proof.Machine.execCorescan s
  | .partnerTrainingRequest p ask => Sys2Proof.Machine.execPartnerTrainingRequest p ask s
  | .constantCacheFill c => Sys2Proof.Machine.execConstantCacheFill c s
  | .debugAccessComplete => Sys2Proof.Machine.execDebugAccessComplete s
  | .illegalOpcode c w0 w1 => Sys2Proof.Machine.execIllegalOpcode c w0 w1 s
  | .unknownOpcodeCommand mb ix => Sys2Proof.Machine.execUnknownOpcodeCommand mb ix s

end Sys2Proof.Machine
end

