-- ==== Sys2Proof/Machine/Tick.lean ====
section
/-!
DEFINITION. One CCLK in which nothing is commanded: the counters that run with the clock (assumption 3).
-/
namespace Sys2Proof.Machine

/-- A core after one CCLK edge: CYCLE counts while the core is powered and HELD_WAIT in WAIT, and what was set in the cycle
that ends is no longer new; the mover takes the oldest entry of its queue (R11, R177, R187, R190, R365; assumption 121). -/
def Core.tick (k : Core) : Core :=
  let k := ({ k with queues := Table.set [] k.queues 5 ((k.queue 5).drop 1) }).settleStop
  let k := { k with flagSets := 0, csr := { k.csr with newWrap := 0, newFault := 0, newCut := false } }
  if k.on then
    let waiting := k.st == .wait
    { k with csr := { k.csr with
        cycle := k.csr.cycle + 1
        heldWait := if waiting then k.csr.heldWait + 1 else k.csr.heldWait
        wrap := k.csr.wrap ||| (if k.csr.cycle = 0xFFFFFFFFFFFF then 1 else 0) ||| (if waiting && k.csr.heldWait == 0xFFFFFFFF then 16 else 0) } }
  else k

/-- TAIL of a request queue as it now stands in its ring (R344). -/
def State.tailOf (s : State) (x : ReqQueue) : BitVec 16 := BitVec.ofNat 16 (leNat (s.bytesAt x.base 2))

/-- The end of a CCLK of the logic outside the cores: no W1C bit is new any more, and the queues' TAIL words are seen (R11,
R51). -/
def endCycle (s : State) : State :=
  { s with
    cclk := s.cclk + 1
    log := { s.log with newSum := 0, newDrop := false }
    mast := { s.mast with newFlags := 0, newWrap := 0 }
    ports := Table.update {} (fun _ x => { x with counts := { x.counts with newWrap := 0 } }) (s.ports.map (·.1)) s.ports
    mailboxes := Table.update {} (fun _ b => { b with newErr := 0 }) (s.mailboxes.map (·.1)) s.mailboxes
    queues := Table.update {} (fun _ x => if x.used then { x with tailWas := s.tailOf x } else x) (s.queues.map (·.1)) s.queues }

/-- Mast time after one PLL cycle: c counts but for UNLOCKED, where every 25,000 CCLK make a beat (R41, R91). -/
def Mast.tick (edge : Bool) (m : Mast) : Mast :=
  if m.st == .unlocked then
    let m := { m with lastAge := m.lastAge + 1 }
    if !edge then m
    else if m.beatC + 1 = 25000 then { m with beatC := 0, beats := m.beats + 1 }
    else { m with beatC := m.beatC + 1 }
  else { m with c := m.c + 1, lastAge := m.lastAge + 1 }

/-- One PLL cycle with no command: the clocks, the count c of mast time and, where the cycle delivers a CCLK edge, the
cores' counters advance. While CCLK is stopped each cycle stands for one of the AUX oscillator (R373). -/
def tick (s : State) : State :=
  if s.boot.porstLow then s
  else if s.halted then endCycle { s with now := s.now + 1 }
  else if s.edge then
    endCycle { s with
      now := s.now + 1
      mast := s.mast.tick true
      cores := Table.update {} (fun _ k => k.tick) (s.cores.map (·.1)) s.cores }
  else { s with now := s.now + 1, mast := s.mast.tick false }

end Sys2Proof.Machine
end

