-- ==== Sys2Proof/Machine/RegisterView.lean ====
section
/-!
DEFINITION. Control space as a read shows it to Skovi: every register of Tables 19-2 to 19-5 as a view of the state (R130,
R393 to R407). A read changes nothing: FAULT and ADMIT_CUT are cleared by the core's own CSRR only (R394).
-/
namespace Sys2Proof.Machine

/-- Word k of a fused 48-byte hash, byte 0 of the hash at the lowest address (Table 19-2). -/
def hashWord (h : BitVec 384) (k : Nat) : Word := field h (64 * k) 64

/-- FAULT_CORES: bit c tells that FAULT of core c is nonzero (Table 19-2). -/
def State.faultCores (s : State) : Nat :=
  (List.range 48).foldl (fun n c => if (s.core c).csr.fault = 0 then n else n + 2 ^ c) 0

/-- The 32 bytes of the oldest capture record, INDEX and REPEAT zero; zeros for an empty queue (R396). -/
def State.captureHead (s : State) : List Byte :=
  match s.log.capq with
  | [] => List.replicate 32 0
  | r :: _ => { r with index := 0, repeats := 0 }.report

/-- A register of the identity block (Table 19-2). -/
def readIdentity (s : State) (off : Nat) : Word :=
  if off = 0 then 0x0000000000B10040
  else if off = 0x8 then Config.uid
  else if off = 0x10 then BitVec.ofNat 64 (s.ownId.toNat + 64 * b01 s.member.id.isSome + 128 * b01 s.member.fenced + 2 ^ 32 * s.member.epoch.toNat)
  else if off = 0x18 then s.boot.status
  else if off = 0x20 then s.skovi.active.setWidth 64
  else if off = 0x28 then Config.minBuild.setWidth 64
  else if 0x40 ≤ off && off < 0x70 then hashWord Config.fwKeyHash ((off - 0x40) / 8)
  else if 0x70 ≤ off && off < 0xA0 then hashWord Config.imgKeyHash ((off - 0x70) / 8)
  else if 0xA0 ≤ off && off < 0xD0 then hashWord Config.dbgKeyHash ((off - 0xA0) / 8)
  else if off = 0x100 then BitVec.ofNat 64 (s.log.faultSum.toNat + 32 * b01 s.log.capqDrop + 2 ^ 16 * s.log.capq.length)
  else if off = 0x108 then BitVec.ofNat 64 s.faultCores
  else if 0x120 ≤ off && off < 0x140 then BitVec.ofNat 64 (leField s.captureHead (off - 0x120) 8)
  else if off = 0x180 then BitVec.ofNat 64 (s.therm.ratio + 2 ^ 8 * b01 s.therm.throttling + 2 ^ 9 * b01 s.boot.tripped)
  else if off = 0x188 then s.therm.power.setWidth 64
  else if 0x200 ≤ off && off < 0x400 then (Table.get 0x8000 s.therm.temps ((off - 0x200) / 8)).setWidth 64
  else 0

/-- HL_STATE (Table 19-3). -/
def Port.stateWord (x : Port) : Word :=
  BitVec.ofNat 64 (x.st.code + 2 ^ 3 * b01 x.sbUp + 2 ^ 4 * b01 x.x64 + 2 ^ 5 * b01 x.rate32 + 2 ^ 6 * b01 x.reversed +
    2 ^ 7 * b01 x.held + 2 ^ 8 * x.repairMap.toNat + 2 ^ 16 * x.counts.retrain.toNat + 2 ^ 32 * x.counts.stepdown.toNat)

/-- HL_PARTNER, from the last Pennant (Table 19-3). -/
def Port.partnerWord (x : Port) : Word :=
  match x.partner with
  | some (id, v, port, role, _) => BitVec.ofNat 64 (id.toNat + 2 ^ 6 * b01 v + 2 ^ 8 * port.toNat + 2 ^ 10 * role.toNat)
  | none => 0

/-- HL_CREDIT: the link credits held, VC3's on the path that carries VC3 (Table 19-3). -/
def Port.creditWord (x : Port) : Word :=
  BitVec.ofNat 64 ((List.range 4).foldl (fun n vc =>
    n + 2 ^ (8 * vc) * natAt (if vc = 3 && x.vc3Side then x.side else x.main).credits vc) 0)

/-- A register of a port block (Table 19-3). -/
def readPort (s : State) (p : PortId) (off : Nat) : Word :=
  let x := s.port p.val
  match off with
  | 0x00 => x.stateWord
  | 0x10 => x.partnerWord
  | 0x18 => match x.partner with | some (_, _, _, _, uid) => uid | none => 0
  | 0x20 => BitVec.ofNat 64 (x.main.txSeq.toNat + 2 ^ 16 * x.main.expect.toNat + 2 ^ 32 * x.main.retry.length)
  | 0x28 => x.creditWord
  | 0x40 => x.counts.crcErr.setWidth 64
  | 0x48 => x.counts.seqErr.setWidth 64
  | 0x50 => x.counts.dup.setWidth 64
  | 0x58 => x.counts.nakTx.setWidth 64
  | 0x60 => x.counts.nakRx.setWidth 64
  | 0x68 => x.counts.replayed.setWidth 64
  | 0x70 => x.counts.timerReplay.setWidth 64
  | 0x78 => x.counts.protocol.setWidth 64
  | 0x80 => x.counts.wrap.setWidth 64
  | 0x88 => BitVec.ofNat 64 (Nat.min 15 (x.flaps.filter (fun b => decide (s.mast.beats < b + 1024))).length)
  | _ => 0

/-- A register of the Mast block (Table 19-4). -/
def readMast (s : State) (off : Nat) : Word :=
  let m := s.mast
  match off with
  | 0x00 => BitVec.ofNat 64 m.st.code
  | 0x08 => m.stroke
  | 0x10 => BitVec.ofNat 64 m.phase
  | 0x18 => BitVec.ofNat 64 m.capC
  | 0x20 => BitVec.ofNat 64 (b01 m.lost + 2 * b01 m.mismatch + 4 * b01 m.regress + 8 * b01 m.hubHold + 16 * m.src.toNat)
  | 0x28 => BitVec.ofNat 64 (m.period.toNat + 2 ^ 16 * m.regNext.toNat + 2 ^ 26 * b01 m.pend)
  | 0x30 => m.regEffective
  | 0x38 => m.stepFwd.setWidth 64
  | 0x40 => m.missed.setWidth 64
  | 0x48 => m.discarded.setWidth 64
  | 0x50 => m.wrap.setWidth 64
  | _ => 0

/-- A register of the debug block (R402, R403). -/
def readDebug (s : State) (off : Nat) : Word :=
  let d := s.dbg
  if off = 0 then BitVec.ofNat 64 (d.level.toNat + 4 * d.fails.toNat + 16 * b01 d.locked + 32 * b01 d.challenge + 2 ^ 16 * d.mask.toNat)
  else if off = 0x8 then d.seq.setWidth 64
  else if 0x10 ≤ off && off < 0x30 then field d.nonce (64 * ((off - 0x10) / 8)) 64
  else if off = 0x100 then d.addr
  else if off = 0x110 then BitVec.ofNat 64 (b01 d.busy + 2 * d.result.toNat)
  else if 0x200 ≤ off && off < 0x300 then Table.get 0 d.data ((off - 0x200) / 8)
  else 0

/-- A register of a core's block; the whole block of a powered-down core reads as zero (R404, R405, R407). -/
def readCu (s : State) (c : CoreId) (off : Nat) : Word :=
  let k := s.core c.val
  if !k.on then 0
  else if off = 0x8008 then k.csr.pc.setWidth 64
  else if off = 0x8010 then k.colour.setWidth 64
  else if 0x8100 ≤ off && off < 0x8200 then k.sreg ((off - 0x8100) / 8)
  else if 0x8200 ≤ off && off < 0x8300 then (if off < 0x8208 then 0 else Table.get 0 k.shadow ((off - 0x8200) / 8))
  else (csrValue s c.val (off / 8)).getD 0

/-- The 8-byte register at an aligned address of control space; addresses inside a block but outside its registers, and
write-only registers, read as zero (R130, R393). -/
def readRegister (s : State) (a : Nat) : Word :=
  let o := a - 0xF000000000
  match mbOf a with
  | some mb => BitVec.ofNat 64 (leNat ((s.mailbox mb).bytes (a - mbBase mb) 8))
  | none =>
    if a < 0xF000000000 then 0
    else if o < 0x10000 then readIdentity s o
    else if o < 0x20000 then readPort s (BitVec.toFin (BitVec.ofNat 2 ((o - 0x10000) / 0x4000))) (o % 0x4000)
    else if o < 0x30000 then readMast s (o % 0x10000)
    else if o < 0x40000 then readDebug s (o % 0x10000)
    else if 0x1000000 ≤ o && o < 0x1300000 then readCu s (Fin.ofNat 48 ((o - 0x1000000) / 0x10000)) (o % 0x10000)
    else 0

/-- n bytes of control space, each from the register that holds it (R393). -/
def readControl (s : State) (a n : Nat) : List Byte :=
  (List.range n).map (fun i => field (readRegister s ((a + i) / 8 * 8)) ((a + i) % 8 * 8) 8)

end Sys2Proof.Machine
end

