-- ==== Sys2Proof/Safety.lean ====
section
/-!
DEFINITION. What counts as a well-kept state: the canonical form of memory, and the invariant that steps keep.
-/
namespace Sys2Proof.Machine

/-- Memory is in its canonical form: addresses strictly rising, no listed byte equal to what an unlisted one reads as. -/
def MemSys.wf (m : MemSys) : Bool := Table.wf 0 m.cells

end Sys2Proof.Machine
end

