-- ==== Sys2Proof/Certificates/Slice0/Obligations.lean ====
section
/-!
DEFINITION. The statements for the provers, with the words they share in the namespace Stated.
-/

namespace Sys2Proof.Stated

open Sys2Proof.Machine

/-! ### Words the statements share -/

/-- CCLK runs: PORST_N is high, the die is not in its test state, and neither REFCLK loss nor THERMTRIP_N stops it (R373,
R374, R380, R391). -/
abbrev Clocked (s : State) : Prop := s.boot.porstLow = false ∧ s.boot.testState = false ∧ s.halted = false

/-- The AUX domain runs: PORST_N is high and the die is not in its test state. -/
abbrev Powered (s : State) : Prop := s.boot.porstLow = false ∧ s.boot.testState = false

/-- The CU of core c may issue an instruction now: the core is powered, in RUN, held by no wait and by no STOP, and the
instruction's cache lines are present (R180, R185, R189). -/
abbrev MayIssue (s : State) (c : CoreId) (long : Bool) : Prop :=
  Clocked s ∧ (s.core c.val).issuing = true ∧ (s.core c.val).missing long = none

/-- A short instruction also finds none of its scalar registers pending (R176). -/
abbrev Issues (s : State) (c : CoreId) (regs : List (BitVec 5)) : Prop :=
  MayIssue s c false ∧ (s.core c.val).pending regs = false

/-- The core after an instruction of n bytes: PC moved past it, ISSUED one more with its wrap flag, which is new in this CCLK (R11,
R177, R180). -/
def passed (k : Core) (n : Dla) : Core :=
  { k with csr := { k.csr with
      pc := k.csr.pc + n, issued := k.csr.issued + 1
      wrap := if k.csr.issued = 0xFFFFFFFFFFFF then setBit k.csr.wrap 1 else k.csr.wrap
      newWrap := if k.csr.issued = 0xFFFFFFFFFFFF then setBit k.csr.newWrap 1 else k.csr.newWrap } }

/-- A branch taken: PC is the target, ISSUED one more (R180, R182). -/
def branched (k : Core) (target : Dla) : Core := { (passed k 8) with csr := { (passed k 8).csr with pc := target } }

/-- A core with sN holding v; s0 keeps nothing (R176). -/
def holding (k : Core) (n : BitVec 5) (v : Word) : Core := if n = 0 then k else { k with sregs := Table.set 0 k.sregs n.toNat v }

/-- From s to t only core c changes, and it becomes k. -/
def OnlyCore (s t : State) (c : CoreId) (k : Core) : Prop :=
  t = { s with cores := t.cores } ∧ t.core c.val = k ∧ ∀ d : Nat, d ≠ c.val → t.core d = s.core d

/-- The die whose core c is k, all else as it was. -/
def withCore (s : State) (c : CoreId) (k : Core) : State := { s with cores := Table.set {} s.cores c.val k }

end Sys2Proof.Stated

open Sys2Proof Sys2Proof.Machine Sys2Proof.Stated

/-! ### The queue, the tick, and what every step keeps -/

/-- A step performs the command at the front of the queue, with the rest waiting (the model's own queue, assumption 1).
-/
def Obligations.StepPerformsTheFrontCommand : Prop :=
  ∀ (i : Instr) (rest : List Instr) (s : State),
    step { s with pending := i :: rest } = exec i { s with pending := rest }

/-- On an empty queue one PLL cycle passes (assumption 3): nothing moves under PORST_N low; otherwise the clock counts and memory,
partitions, windows, counters, messages and the log's records stay. Where the cycle delivers a CCLK edge, CCLK counts; while CCLK
runs and the Mast is not UNLOCKED the count c of mast time rises by 1, with or without an edge; a cycle without an edge changes
nothing else, and with CCLK stopped the cores and the Mast's time stand still. -/
def Obligations.EmptyQueuePassesOneClock : Prop :=
  ∀ s : State, s.pending = [] →
    (s.boot.porstLow = true → step s = .next s) ∧
    (s.boot.porstLow = false → ∃ t, step s = .next t ∧ t.now = s.now + 1 ∧ t.mem = s.mem ∧ t.parts = s.parts ∧ t.windows = s.windows ∧
      t.counters = s.counters ∧ t.skovi = s.skovi ∧ t.member = s.member ∧ t.mesh = s.mesh ∧ t.reqs = s.reqs ∧ t.tx = s.tx ∧
      t.arrived = s.arrived ∧ t.log.entries = s.log.entries ∧ t.log.capq = s.log.capq ∧ t.pending = [] ∧
      (s.halted = false → s.edge = true → t.cclk = s.cclk + 1) ∧
      (s.halted = false → s.mast.st ≠ .unlocked →
        t.mast.c = s.mast.c + 1 ∧ t.mast.lastAge = s.mast.lastAge + 1 ∧ t.mast.stroke = s.mast.stroke ∧ t.mast.st = s.mast.st) ∧
      (s.halted = false → s.edge = false → t = { s with now := s.now + 1, mast := t.mast }) ∧
      (s.halted = true → t.cores = s.cores ∧ t.mast.c = s.mast.c ∧ t.mast.stroke = s.mast.stroke))

/-- The die right after reset keeps its memory in canonical form. Model choices: assumption 15. -/
def Obligations.ResetMemoryIsCanonical : Prop := State.reset.mem.wf = true

/-- Every step keeps the memory in its canonical form: addresses strictly rising, no listed byte equal to what an
unlisted one reads as. Model choices: assumption 15. -/
def Obligations.EveryStepKeepsMemoryCanonical : Prop :=
  ∀ s t : State, s.mem.wf = true → step s = .next t → t.mem.wf = true

/-! ### SCALAR, BRANCH, SMEM and CSR -/

/-- The second operand of a SCALAR instruction: sB with X[0] = 0, IMM sign-extended with X[0] = 1 and B = 0 (R181). -/
def Sys2Proof.Stated.second (k : Core) (f : Fields) : Word := if bit f.x 0 then f.imm.signExtend 64 else k.sreg f.b.toNat

/-- The fields of a SCALAR instruction are in order: X is 0 with IMM zero, or 1 with B zero (R179, R181). -/
abbrev Sys2Proof.Stated.ScalarFields (f : Fields) : Prop := (f.x = 0 ∧ f.imm = 0) ∨ (f.x = 1 ∧ f.b = 0)

/-- The sixteen SCALAR instructions (Table 9-8): sD takes the result, PC and ISSUED advance, and nothing else of the die
changes; with D = 0 nothing is written. -/
def Obligations.ScalarInstructionsWriteTheirResult : Prop :=
  ∀ (s : State) (c : CoreId) (f : Fields), Issues s c [f.d, f.a, f.b] →
    (ScalarFields f →
      let k := s.core c.val
      let x := k.sreg f.a.toNat
      let y := second k f
      let n := y.toNat % 64
      let gives := fun (v : Word) => Host.Outcome.next (withCore s c (passed (holding k f.d v) 8))
      exec (.add c f) s = gives (x + y) ∧
      exec (.sub c f) s = gives (x - y) ∧
      exec (.and c f) s = gives (x &&& y) ∧
      exec (.or c f) s = gives (x ||| y) ∧
      exec (.xor c f) s = gives (x ^^^ y) ∧
      exec (.shl c f) s = gives (BitVec.ofNat 64 (x.toNat * 2 ^ n)) ∧
      exec (.shr c f) s = gives (BitVec.ofNat 64 (x.toNat / 2 ^ n)) ∧
      exec (.sra c f) s = gives (BitVec.ofInt 64 (x.toInt / 2 ^ n)) ∧
      exec (.min c f) s = gives (if x.toInt ≤ y.toInt then x else y) ∧
      exec (.max c f) s = gives (if y.toInt ≤ x.toInt then x else y) ∧
      exec (.minu c f) s = gives (if x.toNat ≤ y.toNat then x else y) ∧
      exec (.maxu c f) s = gives (if y.toNat ≤ x.toNat then x else y) ∧
      exec (.seq c f) s = gives (if x = y then 1 else 0) ∧
      exec (.slt c f) s = gives (if x.toInt < y.toInt then 1 else 0) ∧
      exec (.sltu c f) s = gives (if x.toNat < y.toNat then 1 else 0)) ∧
    (f.x = 0 → f.b = 0 →
      exec (.lih c f) s = .next (withCore s c (passed (holding (s.core c.val) f.d
        (BitVec.ofNat 64 (f.imm.toNat * 2 ^ 32 + ((s.core c.val).sreg f.a.toNat).toNat % 2 ^ 32))) 8)))

/-- The branch instructions (R182): taken, the target is the branch's own address plus 8 × IMM, IMM signed; untaken, PC
moves to the next instruction. LOOP writes sD − 1 and is taken while it is not zero; JMPR goes to sA and leaves the
following address in sD, and a target that is no multiple of 8 raises F_ILLEGAL_OP. Model choices: assumption 98. -/
def Obligations.BranchesGoWhereTheRuleSays : Prop :=
  ∀ (s : State) (c : CoreId) (f : Fields),
    let k := s.core c.val
    let x := k.sreg f.a.toNat
    let y := k.sreg f.b.toNat
    let target : Dla := BitVec.ofInt 40 (k.csr.pc.toNat + 8 * f.imm.toInt)
    let goes := fun (p : Prop) [Decidable p] => Host.Outcome.next (withCore s c (if p then branched k target else passed k 8))
    (Issues s c [f.a, f.b] → f.d = 0 → f.x = 0 →
      exec (.beq c f) s = goes (x = y) ∧
      exec (.bne c f) s = goes (x ≠ y) ∧
      exec (.blt c f) s = goes (x.toInt < y.toInt) ∧
      exec (.bge c f) s = goes (y.toInt ≤ x.toInt) ∧
      exec (.bltu c f) s = goes (x.toNat < y.toNat) ∧
      exec (.bgeu c f) s = goes (y.toNat ≤ x.toNat)) ∧
    (Issues s c [] → f.d = 0 → f.a = 0 → f.b = 0 → f.x = 0 → exec (.jmp c f) s = goes True) ∧
    (Issues s c [f.d] → f.a = 0 → f.b = 0 → f.x = 0 →
      exec (.loop c f) s =
        let v := k.sreg f.d.toNat - 1
        .next (withCore s c (if v ≠ 0 then branched (holding k f.d v) target else passed (holding k f.d v) 8))) ∧
    (Issues s c [f.d, f.a] → f.b = 0 → f.x = 0 → f.imm = 0 →
      (x.toNat % 8 = 0 → exec (.jmpr c f) s =
        .next (withCore s c (branched (holding k f.d (BitVec.ofNat 64 (k.csr.pc + 8).toNat)) (BitVec.ofNat 40 x.toNat)))) ∧
      (x.toNat % 8 ≠ 0 → exec (.jmpr c f) s = .next (raiseP s c.val fIllegalOp 0 0)))

/-! ### Memory, SMEM and the read-only caches -/

/-- The DLA that a SMEM instruction addresses: sA + IMM as a PGA (R183). -/
def Sys2Proof.Stated.smemDla (k : Core) (f : Fields) : Nat := (k.sreg f.a.toNat + f.imm.signExtend 64).toNat % 2 ^ 40

/-- The address names n bytes of this core's own CM, aligned to n, with no bit above the PGA's die ID set (R131, R183). -/
abbrev Sys2Proof.Stated.OwnCm (s : State) (c : CoreId) (f : Fields) (n : Nat) : Prop :=
  let w := (s.core c.val).sreg f.a.toNat + f.imm.signExtend 64
  field w 46 2 = 0 ∧ field w 48 16 = 0 ∧ pgaDie w = s.ownId ∧ w.toNat % n = 0 ∧
    cmBase c.val ≤ smemDla (s.core c.val) f ∧ smemDla (s.core c.val) f + n ≤ cmBase c.val + 0x600000

/-- SLD and SST (R183): with the address in the own CM, aligned, permitted by the region table, clear of pending ranges
and free of a failed check, SLD writes sD with the sign- or zero-extended bytes, and SST stores the low bytes of sB and
changes no other byte; an address outside the own CM raises F_ADDR_UNMAPPED, one in control space
F_COLOUR_REFUSED, and a misaligned one F_ILLEGAL_OP. -/
def Obligations.SldAndSstMoveBytesOfTheOwnCm : Prop :=
  ∀ (s : State) (c : CoreId) (f : Fields),
    let k := s.core c.val
    let n := 2 ^ (f.x.toNat % 4)
    let a := smemDla k f
    (Issues s c [f.d, f.a] → f.b = 0 → OwnCm s c f n → k.waitsFor (rngOf s c.val (.cm a) 0 (n - 1 : Nat) false) = false →
      s.check k.colour.toNat (some c.val) none false a n = .ok → s.detects a n = false →
      exec (.sld c f) s = .next (withCore s c (passed (holding k f.d
        (if bit f.x 2 then BitVec.ofInt 64 (sext (8 * n) (leNat (s.bytesAt a n))) else BitVec.ofNat 64 (leNat (s.bytesAt a n)))) 8))) ∧
    (Issues s c [f.a, f.b] → f.d = 0 → bit f.x 2 = false → OwnCm s c f n →
      k.waitsFor (rngOf s c.val (.cm a) 0 (n - 1 : Nat) true) = false → s.check k.colour.toNat (some c.val) none true a n = .ok →
      ∃ t, exec (.sst c f) s = .next t ∧ t = withCore { s with mem := t.mem } c (passed k 8) ∧
        (∀ b, t.byteAt b = if a ≤ b ∧ b < a + n then (leBytes n (k.sreg f.b.toNat).toNat).getD (b - a) 0 else s.byteAt b)) ∧
    (let w := k.sreg f.a.toNat + f.imm.signExtend 64
     let ctl := field w 48 16 = 0 ∧ pgaDie w = s.ownId ∧ s.place a n = .ctl
     let code := if field w 46 2 ≠ 0 then fReservedSet else if w.toNat % n ≠ 0 then fIllegalOp else if ctl then fColourRefused else fAddrUnmapped
     (Issues s c [f.d, f.a] → f.b = 0 → ¬ OwnCm s c f n → exec (.sld c f) s = .next (raiseP s c.val code 0 0)) ∧
     (Issues s c [f.a, f.b] → f.d = 0 → bit f.x 2 = false → ¬ OwnCm s c f n → exec (.sst c f) s = .next (raiseP s c.val code 0 0)))

/-- SLDC and the two fills (R148, R149, R180, R183): SLDC takes 8 bytes from a line the constant cache holds, or asks
for the line and leaves sD pending; a line of failed parity is discarded, counted and asked for again; CONSTANT_CACHE_FILL gives the waiting register its bytes from memory and keeps the
line; ICACHE_FILL puts the line asked for in front of the instruction cache's lines; a CINV in between discards the
line. Model choices: assumptions 26 and 27. -/
def Obligations.ReadOnlyCachesFillAndServe : Prop :=
  ∀ (s : State) (c : CoreId) (f : Fields),
    let k := s.core c.val
    let w := k.sreg f.a.toNat + f.imm.signExtend 64
    let a := smemDla k f
    (Issues s c [f.d, f.a] → f.b = 0 → f.x = 0 → field w 46 2 = 0 → field w 48 16 = 0 → pgaDie w = s.ownId → a % 8 = 0 →
      s.check k.colour.toNat (some c.val) none false a 8 = .ok →
      (k.ccBad.contains (a / 64) = false → Table.get [] k.ccache (a / 64) ≠ [] →
        exec (.sldc c f) s = .next (withCore s c (passed (holding k f.d (BitVec.ofNat 64 (leField (Table.get [] k.ccache (a / 64)) (a % 64) 8))) 8))) ∧
      (k.ccBad.contains (a / 64) = false → Table.get [] k.ccache (a / 64) = [] → k.ccFill = none →
        exec (.sldc c f) s = .next (withCore s c { (passed k 8) with
          ccFill := some (a / 64, a, f.d.toNat, false), pendS := if f.d = 0 then k.pendS else k.pendS ++ [f.d.toNat] })) ∧
      (k.ccBad.contains (a / 64) = true → k.ccFill = none →
        exec (.sldc c f) s = .next (withCore s c { (passed k 8) with
          ccache := Table.set [] k.ccache (a / 64) [], ccBad := k.ccBad.filter (· != a / 64), lineErrors := k.lineErrors + 1
          ccFill := some (a / 64, a, f.d.toNat, false), pendS := if f.d = 0 then k.pendS else k.pendS ++ [f.d.toNat] }))) ∧
    (∀ l a d : Nat, Clocked s → k.ccFill = some (l, a, d, false) → s.detects (l * 64) 64 = false → 0 < d →
      exec (.constantCacheFill c) s = .next (withCore s c { k with
        sregs := Table.set 0 k.sregs d (BitVec.ofNat 64 (leField (s.bytesAt (l * 64) 64) (a % 64) 8)), ccFill := none, pendS := eraseOnce d k.pendS
        ccBad := k.ccBad.filter (· != l)
        ccache := Table.set [] (List.drop (k.ccache.length + 1 - 512) k.ccache) l (s.bytesAt (l * 64) 64) })) ∧
    (∀ l : Nat, Clocked s → k.icFill = some (l, false) → s.check k.colour.toNat (some c.val) none false (l * 64) 64 = .ok →
      s.detects (l * 64) 64 = false →
      exec (.icacheFill c) s = .next (withCore s c { k with
        icFill := none, icache := (l :: k.icache).take 1024, icBad := k.icBad.filter (· != l) })) ∧
    (∀ l : Nat, Clocked s → k.icFill = some (l, true) → exec (.icacheFill c) s = .next (withCore s c { k with icFill := none }))

/-- CSRR and CSRW (R11, R177, R190): CSRR copies a listed CSR into sD, and reading FAULT or ADMIT_CUT clears it; CSRW clears
the written ones of WRAP and of FLAGS; what hardware sets in the same CCLK stays set; an unlisted number, and a write of any
other CSR, raises F_CSR_ACCESS. -/
def Obligations.CsrAccessReadsAndClears : Prop :=
  ∀ (s : State) (c : CoreId) (f : Fields),
    let k := s.core c.val
    let n := f.imm.toNat
    let read := if n = 0x003 then { k with csr := { k.csr with fault := k.csr.newFault } }
      else if n = 0x050 then { k with csr := { k.csr with admitCut := if k.csr.newCut then k.csr.admitCut else 0 } } else k
    (Issues s c [f.d] → f.a = 0 → f.b = 0 → f.x = 0 → n < 0x1000 →
      (∀ v, csrValue s c.val n = some v → exec (.csrr c f) s = .next (withCore s c (passed (holding read f.d v) 8))) ∧
      (csrValue s c.val n = none → exec (.csrr c f) s = .next (raiseP s c.val fCsrAccess 0 0))) ∧
    (Issues s c [f.a] → f.d = 0 → f.b = 0 → f.x = 0 → n < 0x1000 →
      (n = 0x035 → exec (.csrw c f) s = .next (withCore s c (passed
        { k with csr := { k.csr with wrap := k.csr.wrap &&& ~~~ (BitVec.setWidth 5 (k.sreg f.a.toNat) &&& ~~~ k.csr.newWrap) } } 8))) ∧
      (n = 0x040 → exec (.csrw c f) s = .next (withCore s c (passed
        { k with csr := { k.csr with flags := k.csr.flags &&& ~~~ (k.sreg f.a.toNat &&& ~~~ k.flagSets) } } 8))) ∧
      (n ≠ 0x035 → n ≠ 0x040 → exec (.csrw c f) s = .next (raiseP s c.val fCsrAccess 0 0)))

/-! ### Waits, fences, synchronisation, bookings and steps -/

/-- The core after a wait that has issued and holds issue (R189). -/
def Sys2Proof.Stated.waiting (k : Core) (h : Hold) : Core := { (passed k 8) with st := .wait, hold := some h }

/-- WAIT (R189 to R191, Table 9-6): a wait whose condition holds at issue passes at once and with CLR clears the flags
that satisfied it and are not set anew in the same CCLK; otherwise the core stops issue in WAIT, and WAIT_COMPLETE lets it run once the condition holds. Model
choices: assumption 19. -/
def Obligations.WaitsHoldUntilTheirCondition : Prop :=
  ∀ (s : State) (c : CoreId) (f : Fields),
    let k := s.core c.val
    let m := k.sreg f.a.toNat
    let clr := bit f.x 0
    (Issues s c [f.a] → f.d = 0 → f.b = 0 → f.imm = 0 → (f.x = 0 ∨ f.x = 1) →
      exec (.waitAll c f) s = .next (withCore s c (if k.csr.flags &&& m = m then
          passed (if clr then { k with csr := { k.csr with flags := k.csr.flags &&& ~~~ (m &&& ~~~ k.flagSets) } } else k) 8 else waiting k (.all m clr))) ∧
      (m ≠ 0 → exec (.waitAny c f) s = .next (withCore s c (if k.csr.flags &&& m ≠ 0 then
          passed (if clr then { k with csr := { k.csr with flags := k.csr.flags &&& ~~~ (m &&& k.csr.flags &&& ~~~ k.flagSets) } } else k) 8
          else waiting k (.any m clr)))) ∧
      (m = 0 → exec (.waitAny c f) s = .next (raiseP s c.val fIllegalOp 0 0))) ∧
    (Issues s c [] → f.d = 0 → f.a = 0 → f.b = 0 → f.x = 0 →
      (f.imm.toNat < 128 →
        (∀ x rest, (Table.get {} k.bars f.imm.toNat).out = x :: rest →
          exec (.waitBar c f) s = .next (withCore s c (waiting k (.bar f.imm.toNat x true s.cclk)))) ∧
        ((Table.get {} k.bars f.imm.toNat).out = [] → exec (.waitBar c f) s = .next (withCore s c
          (if s.cclk + 1 < (s.counter f.imm.toNat).releasedAt then passed k 8 else waiting k (.bar f.imm.toNat false false s.cclk))))) ∧
      (f.imm.toNat < 32 → (Table.get {} k.bookings f.imm.toNat).valid = true →
        exec (.waitBook c f) s = .next (withCore s c (if s.cclk + 1 < (Table.get {} k.bookings f.imm.toNat).firedAt then passed k 8
          else waiting k (.book f.imm.toNat s.cclk)))) ∧
      (f.imm.toNat < 32 → (Table.get {} k.bookings f.imm.toNat).valid = false →
        exec (.waitBook c f) s = .next (raiseP s c.val fIllegalOp 0 0))) ∧
    (Issues s c [f.a] → f.d = 0 → f.b = 0 → f.x = 0 → f.imm.toNat < 256 →
      (let w := s.window f.imm.toNat
       let target := BitVec.setWidth 32 m
       (w.valid = true → w.owner = c.val → exec (.waitFill c f) s = .next (withCore s c
          (if (w.filled - target).toNat < 2 ^ 31 then passed k 8 else waiting k (.fill f.imm.toNat target)))) ∧
       (w.valid = false ∨ w.owner ≠ c.val → exec (.waitFill c f) s = .next (raiseP s c.val fIllegalOp 0 0)))) ∧
    (∀ h : Hold, Clocked s → k.st = .wait → k.hold = some h → waitDone s k h = true →
      exec (.waitComplete c) s = .next (withCore s c { (k.clearFor h) with st := .run, hold := none }))

/-- Fences and CINV (Table 7-5, R145, R146, R149): a fence with nothing outstanding passes at once, otherwise it holds
the core; FENCE_COMPLETE ends it when its condition holds, a failed write or probe setting STEP_FAIL, and FENCE.P first
sends a probe to the die of its mask and at its end clears the mask; CINV empties the caches that X names and marks
their fills. Model choices: assumptions 18 and 29. -/
def Obligations.FencesAndCinvOrderTheCore : Prop :=
  ∀ (s : State) (c : CoreId) (f : Fields),
    let k := s.core c.val
    let ended := fun (k : Core) => { k with
      st := .run, hold := none, fenceBad := false, probesSent := false, csr := { k.csr with stepFail := k.csr.stepFail || k.fenceBad } }
    (Issues s c [] → f.d = 0 → f.a = 0 → f.b = 0 → f.imm = 0 →
      (f.x = 0 →
        exec (.fenceC c f) s = .next (withCore s c (if fenceCHolds s c.val then ended (passed k 8) else waiting k .fenceC)) ∧
        exec (.fenceD c f) s = .next (withCore s c (if fenceDHolds s c.val then ended (passed k 8) else waiting k .fenceD)) ∧
        exec (.fenceP c f) s = .next (withCore s c (if fenceDHolds s c.val ∧ k.eaMask = 0 then ended (passed k 8) else waiting k .fenceP))) ∧
      (f.x.toNat < 4 → f.x ≠ 0 → exec (.cinv c f) s = .next (withCore s c { (passed k 8) with
        icache := if bit f.x 0 then [] else k.icache, icBad := if bit f.x 0 then [] else k.icBad
        icFill := if bit f.x 0 then k.icFill.map (fun p => (p.1, true)) else k.icFill
        ccache := if bit f.x 1 then [] else k.ccache, ccBad := if bit f.x 1 then [] else k.ccBad
        ccFill := if bit f.x 1 then k.ccFill.map (fun p => (p.1, p.2.1, p.2.2.1, true)) else k.ccFill }))) ∧
    (Clocked s →
      (k.hold = some .fenceC → fenceCHolds s c.val = true → exec (.fenceComplete c) s = .next (withCore s c (ended k))) ∧
      (k.hold = some .fenceD → fenceDHolds s c.val = true → exec (.fenceComplete c) s = .next (withCore s c (ended k))) ∧
      (∀ (d : BitVec 6) (g : BitVec 12), k.hold = some .fenceP → fenceDHolds s c.val = true → k.probesSent = false →
        bitsSet k.eaMask = [d.toNat] → (s.die d.toNat).st ≠ .absent → freshTag s c.val = some g →
        exec (.fenceComplete c) s = .next (withCore (send
          { s with reqs := s.reqs ++ [{ tag := g, die := d, colour := k.colour, kind := .fence c.val, win := none }] }
          (plainMsg s d k.colour opWrite 0 g)) c { k with probesSent := true })) ∧
      (k.hold = some .fenceP → fenceDHolds s c.val = true → k.probesSent = true → probesDone s c.val = true →
        exec (.fenceComplete c) s = .next (withCore s c { (ended k) with eaMask := 0 })))

/-- An arrival slot of a core (Table 13-4): counter, sense, FAIL, core. -/
def Sys2Proof.Stated.arrival (n : Nat) (sense fail : Bool) (core : Nat) : Slot :=
  BitVec.ofNat 128 (n + (if sense then 2 ^ 8 else 0) + (if fail then 2 ^ 9 else 0) + core * 2 ^ 24)

/-- The die with a slot of this die put on its mesh (R272). -/
def Sys2Proof.Stated.onMesh (s : State) (stype : Byte) (colour : BitVec 4) (core : Nat) (slot : Slot) (sender : Nat := 64) : State :=
  { s with mesh := s.mesh ++ [{ stype := stype, colour := colour, src := s.ownId, core := core, slot := slot, sender := sender }] }

/-- SIGNAL and ARRIVE (R264, R271, R273, R274): sB = 0 sends nothing; a target on the own die gets a signal slot on the
mesh, one on another die a CTRL message, and one on an ABSENT die sets STEP_FAIL; an arrival carries NS, which flips,
and is remembered as outstanding, while one more than Mode A or Mode B allows is held. Model choices: assumption 28. -/
def Obligations.SignalAndArriveSendTheirSlots : Prop :=
  ∀ (s : State) (c : CoreId) (f : Fields),
    let k := s.core c.val
    let t := k.sreg f.a.toNat
    let m := k.sreg f.b.toNat
    let core := t.toNat % 64
    let die : BitVec 6 := field t 6 6
    let slot : Slot := BitVec.ofNat 128 (core + m.toNat * 2 ^ 64)
    let near := bit t 12 = false ∨ s.member.id = some die
    (Issues s c [f.a, f.b] → f.d = 0 → f.x = 0 → f.imm = 0 →
      (t.toNat < 2 ^ 13 →
        (m = 0 → exec (.signal c f) s = .next (withCore s c (passed k 8))) ∧
        (m ≠ 0 → near → exec (.signal c f) s = .next (withCore (onMesh s 6 k.colour core slot c.val) c (passed k 8))) ∧
        (m ≠ 0 → ¬ near → (s.die die.toNat).st ≠ .absent → exec (.signal c f) s =
          .next (withCore (send s { plainMsg s die k.colour opCtrl 0 0 with data := ctrlPayload 6 slot }) c (passed k 8))) ∧
        (m ≠ 0 → ¬ near → (s.die die.toNat).st = .absent → ∃ u, exec (.signal c f) s = .next u ∧
          (u.core c.val).csr.stepFail = true ∧ u.mesh = s.mesh ∧ u.tx = s.tx)) ∧
      (2 ^ 13 ≤ t.toNat → exec (.signal c f) s = .next (raiseP s c.val fReservedSet 0 0))) ∧
    (Issues s c [] → f.d = 0 → f.a = 0 → f.b = 0 → f.x = 0 → f.imm.toNat < 128 →
      let b := Table.get {} k.bars f.imm.toNat
      let limit := if (s.counter f.imm.toNat).modeB then 2 else 1
      (b.out.length < limit → exec (.arrive c f) s =
        .next (withCore (onMesh s 4 k.colour c.val (arrival f.imm.toNat b.ns (k.csr.stepOpen && k.csr.stepFail) c.val)) c
          { (passed k 8) with bars := Table.set {} k.bars f.imm.toNat { ns := !b.ns, out := b.out ++ [b.ns] } })) ∧
      (limit ≤ b.out.length → exec (.arrive c f) s = .next s))

/-- The step bracket and HALT (R184, R194, R196): STEP.BEGIN opens a step with its number, the address after it and a
copy of the scalar registers; STEP.END arrives at the closing counter once FENCE.D's condition holds and every record is
written, and holds issue; HALT waits outside a step; each of them used the wrong way raises F_ILLEGAL_OP; a settled HALT
stops the core. Model choices: assumptions 19, 20 and 30. -/
def Obligations.StepBracketOpensClosesAndHalts : Prop :=
  ∀ (s : State) (c : CoreId) (f : Fields),
    let k := s.core c.val
    let n := f.imm.toNat
    let b := Table.get {} k.bars n
    (Issues s c [] → f.d = 0 → f.a = 0 → f.b = 0 → f.x = 0 →
      (k.csr.stepOpen = false → k.pendS = [] → exec (.stepBegin c f) s = .next (withCore s c { (passed k 8) with
        shadow := k.sregs
        csr := { (passed k 8).csr with step := f.imm, stepPc := k.csr.pc + 8, stepFail := false, stepOpen := true } })) ∧
      (k.csr.stepOpen = true → exec (.stepBegin c f) s = .next (raiseP s c.val fIllegalOp 0 0)) ∧
      (n < 128 → k.csr.stepOpen = true → fenceDHolds s c.val = true → recordsDone k = true →
        b.out.length < (if (s.counter n).modeB then 2 else 1) →
        exec (.stepEnd c f) s = .next (withCore (onMesh s 4 k.colour c.val (arrival n b.ns k.csr.stepFail c.val)) c
          { (waiting k (.stepEnd n b.ns)) with bars := Table.set {} k.bars n { ns := !b.ns, out := b.out ++ [b.ns] } })) ∧
      (n < 128 → k.csr.stepOpen = true → fenceDHolds s c.val = false → exec (.stepEnd c f) s = .next s) ∧
      (f.imm = 0 → k.csr.stepOpen = false → exec (.halt c f) s = .next (withCore s c (waiting k .halt))) ∧
      (f.imm = 0 → k.csr.stepOpen = true → exec (.halt c f) s = .next (raiseP s c.val fIllegalOp 0 0))) ∧
    (Clocked s → k.hold = some .halt → fenceDHolds s c.val = true → recordsDone k = true → (s.part k.colour.toNat).job.live = false →
      exec (.haltSettle c) s = .next (withCore s c { k with st := .stopped, hold := none }))

/-! ### The engines at issue -/

/-- The core after engine instruction q of n bytes has issued to queue e with its ranges: it is queued behind the others
with its scoreboard entries, and the register and mask it will write are pending (R173, R176, R185, R187, R233). -/
def Sys2Proof.Stated.queued (k : Core) (n : Dla) (e : Nat) (rs : List Rng) (q : QInstr) : Core :=
  { (passed k n) with
    sb := k.sb ++ entriesOf e rs
    queues := Table.set [] k.queues e (Table.get [] k.queues e ++ [{ q with entries := entriesOf e rs }])
    pendS := (match q.sdest with | some d => if d = 0 then k.pendS else k.pendS ++ [d] | none => k.pendS)
    pendM := (match q.mdest with | some m => k.pendM ++ [m] | none => k.pendM) }

/-- The queue of engine e has a free slot, and the ranges are clear with entries free (R172, R173, R185, R187). -/
abbrev Sys2Proof.Stated.Room (k : Core) (e : Nat) (rs : List Rng) : Prop :=
  (Table.get [] k.queues e).length < 16 ∧ k.blocked rs = false ∧ k.sb.length + rs.length ≤ 64

/-- A full queue holds the instruction in the CU: nothing changes but one more cycle in HELD_QUEUE (R177, R185, R188). -/
def Sys2Proof.Stated.heldByQueue (k : Core) : Core :=
  { k with csr := { k.csr with
      heldQueue := k.csr.heldQueue + 1, wrap := if k.csr.heldQueue = 0xFFFFFFFF then setBit k.csr.wrap 3 else k.csr.wrap
      newWrap := if k.csr.heldQueue = 0xFFFFFFFF then setBit k.csr.newWrap 3 else k.csr.newWrap } }

/-- The scoreboard holds the instruction in the CU: nothing changes but one more cycle in HELD_DATA (R172, R173, R177). -/
def Sys2Proof.Stated.heldByData (k : Core) : Core :=
  { k with csr := { k.csr with
      heldData := k.csr.heldData + 1, wrap := if k.csr.heldData = 0xFFFFFFFF then setBit k.csr.wrap 2 else k.csr.wrap
      newWrap := if k.csr.heldData = 0xFFFFFFFF then setBit k.csr.newWrap 2 else k.csr.newWrap } }

/-- Engine instruction q of n bytes issues to queue e with its ranges, one that it both reads and writes counted once, as a write:
with room it is queued; a full queue holds it in the CU, and so do a pending range and too few free entries (R172, R173, R185,
R187). -/
def Sys2Proof.Stated.EngineIssue (s : State) (c : CoreId) (i : Instr) (n : Dla) (e : Nat) (ranges : List Rng) (q : QInstr) : Prop :=
  let k := s.core c.val
  let rs := oneEach ranges
  let full := 16 ≤ (Table.get [] k.queues e).length
  (Room k e rs → exec i s = .next (withCore s c (queued k n e rs q))) ∧
  (full → exec i s = .next (withCore s c (heldByQueue k))) ∧
  (¬ full → (k.blocked rs = true ∨ 64 < k.sb.length + rs.length) → exec i s = .next (withCore s c (heldByData k)))

/-- A VE or RU instruction as it is queued: its fields, its three scalars and VL, captured at issue (R176, R224). -/
def Sys2Proof.Stated.captured (k : Core) (f : Fields) (op : EOp) : QInstr :=
  { op := op, f := f, sa := k.sreg f.a.toNat, sb := k.sreg f.b.toNat, sd := k.sreg f.d.toNat, vl := k.ve.vl }

/-- The elementwise VE instructions and VMOV (R226, R229, Table 11-4): with operands inside v31, masks not pending and
room, each is queued with the scalars, VL and ranges it captured; a full queue holds it in the CU. Model choices:
assumption 23. -/
def Obligations.ElementwiseVectorInstructionsIssue : Prop :=
  ∀ (s : State) (c : CoreId) (f : Fields), MayIssue s c false →
    let k := s.core c.val
    let et := etOf f
    let goes := fun (i : Instr) (op : EOp) (two : Bool) =>
      let srcs := f.a.toNat :: (if two then [f.b.toNat] else [])
      (srcs ++ [f.d.toNat]).all (fun r => vecFits r et k.ve.vl) = true → (menOf f = true → mskOf f ∉ k.pendM) →
      EngineIssue s c i 8 2 ((srcs.map (fun r => vecRng r et k.ve.vl false)).flatten ++ vecRng f.d.toNat et k.ve.vl true) (captured k f op)
    (f.only true true true 0 0x1001FF = true → et < 8 →
      goes (.vadd c f) .vadd true ∧ goes (.vsub c f) .vsub true ∧ goes (.vmul c f) .vmul true ∧ goes (.vfma c f) .vfma true) ∧
    (f.only true true true 0 0x1FF = true → et < 8 → goes (.vmin c f) .vmin true ∧ goes (.vmax c f) .vmax true) ∧
    (f.only true true true 0 0x1FF = true → etInt et = true →
      goes (.vand c f) .vand true ∧ goes (.vor c f) .vor true ∧ goes (.vxor c f) .vxor true ∧
      goes (.vshl c f) .vshl true ∧ goes (.vshr c f) .vshr true) ∧
    (f.only true true true 0 0x1FF = true → etFloat et = true → goes (.vdiv c f) .vdiv true) ∧
    (f.only true true false 0 0x1FF = true → etFloat et = true → goes (.vsqrt c f) .vsqrt false) ∧
    (f.only true true false 0 0x1FF = true → (et < 11 ∨ et = 15) → goes (.vmov c f) .vmov false) ∧
    (f.only true true false 0 0xF01FF = true → fnOf f < 10 → etFloat et = true → goes (.vtrn c f) .vtrn false)

/-- The other VE instructions at issue (R224, R226, R230, R232 to R238): SETVL sets VL and sD at once; compares and mask
operations name the mask they will write, VPOPC the scalar; conversions, squeezes, scans, loads, stores and accumulator
reads are queued with their ranges. Model choices: assumptions 23 and 24. -/
def Obligations.OtherVectorInstructionsIssue : Prop :=
  ∀ (s : State) (c : CoreId) (f : Fields), MayIssue s c false →
    let k := s.core c.val
    let et := etOf f
    let vl := k.ve.vl
    let a := f.a.toNat
    let b := f.b.toNat
    let d := f.d.toNat
    let free := fun (m : Nat) => m ∉ k.pendM
    let fits := fun (r t : Nat) => vecFits r t vl = true
    let men := menOf f = true → free (mskOf f)
    let reads := fun (r t : Nat) => vecRng r t vl false
    let writes := fun (r t : Nat) => vecRng r t vl true
    let q := captured k f
    (k.pending [f.d, f.a] = false → f.only true true false 3 0 = true → f.x.toNat < 3 →
      exec (.setvl c f) s = .next (withCore s c (let v := Nat.min (k.sreg a).toNat (4096 / 2 ^ f.x.toNat);
        { (passed (holding k f.d (BitVec.ofNat 64 v)) 8) with ve := { k.ve with vl := v } }))) ∧
    (f.only true true true 0 0xE1FF = true → d < 8 → condOf f < 6 → et < 8 → fits a et → fits b et → men → free d →
      EngineIssue s c (.vcmp c f) 8 2 (reads a et ++ reads b et) { (q .vcmp) with mdest := some d }) ∧
    (f.only true true true 0 0xE01F = true → d < 8 → a < 8 → b < 8 → condOf f < 4 → men → free a → free b → free d →
      EngineIssue s c (.vmask c f) 8 2 [] { (q .vmask) with mdest := some d }) ∧
    (k.pending [f.d] = false → f.only true false false 0 0xF = true → free (mskOf f) →
      EngineIssue s c (.vpopc c f) 8 2 [] { (q .vpopc) with sdest := some d }) ∧
    (f.only true true false 0 0x1FFF = true → et < 11 → dtOf f < 11 → fits a et → fits d (dtOf f) → men →
      EngineIssue s c (.vcvt c f) 8 2 (reads a et ++ writes d (dtOf f)) (q .vcvt)) ∧
    (f.only true true false 0 0x1FF = true → et < 8 → menOf f = true → fits a et → fits d et → free (mskOf f) →
      EngineIssue s c (.vcompress c f) 8 2 (reads a et ++ writes d et) (q .vcompress) ∧
      EngineIssue s c (.vexpand c f) 8 2 (reads a et ++ writes d et) (q .vexpand)) ∧
    (f.only true true false 0 0x6001FF = true → et < 8 → scanMismatch k f = false → fits a et → fits d et → men →
      EngineIssue s c (.vscan c f) 8 2 (reads a et ++ writes d et) (q .vscan) ∧
      (menOf f = true → mzOf f = false → EngineIssue s c (.vscanseg c f) 8 2 (reads a et ++ writes d et) (q .vscanseg))) ∧
    (k.pending [f.a, f.b] = false → f.only true true true 0 0x1FF = true → men →
      (vl = 0 → opndReserved (k.sreg a) = false → (et < 8 → EngineIssue s c (.vld c f) 8 2 [] (q .vld)) ∧
        (et < 8 ∨ et = 15 → EngineIssue s c (.vst c f) 8 2 [] (q .vst))) ∧
      (∀ o : Opnd, 0 < vl → decodeOpnd s c.val (k.sreg a) = .ok o →
        let stride := (k.sreg b).toInt
        let x := strideExtent vl stride (etSize et)
        stride < 2 ^ 31 → -(2 ^ 31) ≤ stride → strideAligned o vl stride (etSize et) = true → o.fits c.val x.1 x.2 = true → fits d et →
        (et < 8 → EngineIssue s c (.vld c f) 8 2 (writes d et ++ rngOf s c.val o x.1 x.2 false) (q .vld)) ∧
        (et < 8 ∨ et = 15 → EngineIssue s c (.vst c f) 8 2 (reads d et ++ rngOf s c.val o x.1 x.2 true) (q .vst)))) ∧
    (f.only true false false 3 0xFFFF = true → k.bankBusy (arrOf f) (bankOf f) = false → (k.array (arrOf f)).retired = false →
      let ty := (field f.imm 12 4).toNat
      let cc := (field f.imm 5 7).toNat + 1
      let strip := match (k.ahead (arrOf f)).of (bankOf f) with | some r => r.2.2 | none => false
      (ty = 4 ∨ ty = 6 ∨ ty = 7 ∨ ty = 15) → cc ≤ tileCols (k.array (arrOf f)).width strip →
      (0 < vl → (field f.imm 0 5).toNat + (vl - 1) / cc < tileRows strip) → fits d ty →
      EngineIssue s c (.vacc c f) 8 2 (writes d ty) (q .vacc))

/-- The RU instructions at issue (R240 to R242, Table 11-7): each is queued with the accumulator its IMM names, RRD,
RMAX, RMIN and ROR with the scalar they will write, RXST and RXADD with the 48 bytes they touch. The SU instructions at
issue (R247, R249 to R253, R255): SUCFG sets the CU's copy of the configuration; the others are queued with their ranges
once their operands are in place and the slot is one of the S that the copy gives. Model choices: assumptions 31, 32 and
93. -/
def Obligations.ReductionAndScanInstructionsIssue : Prop :=
  (∀ (s : State) (c : CoreId) (f : Fields), MayIssue s c false →
    let k := s.core c.val
    let et := etOf f
    let vl := k.ve.vl
    let q := captured k f
    let reads := vecRng f.a.toNat et vl false
    (f.only false false false 0 7 = true → EngineIssue s c (.rclr c f) 8 3 [] (q .rclr)) ∧
    (f.only true true false 0 0x1EF = true → et < 8 → vecFits f.a.toNat et vl = true →
      (f.d.toNat < 8 → (menOf f = true ∨ f.d = 0) → (menOf f = true → f.d.toNat ∉ k.pendM) → EngineIssue s c (.rsum c f) 8 3 reads (q .rsum)) ∧
      (k.pending [f.d] = false → (menOf f = true → mskOf f ∉ k.pendM) →
        EngineIssue s c (.rmax c f) 8 3 reads { (q .rmax) with sdest := some f.d.toNat } ∧
        EngineIssue s c (.rmin c f) 8 3 reads { (q .rmin) with sdest := some f.d.toNat } ∧
        (etInt et = true → EngineIssue s c (.ror c f) 8 3 reads { (q .ror) with sdest := some f.d.toNat }))) ∧
    (k.pending [f.d] = false → f.only true false false 0 0x1E7 = true → (et = 4 ∨ et = 6 ∨ et = 7) →
      EngineIssue s c (.rrd c f) 8 3 [] { (q .rrd) with sdest := some f.d.toNat }) ∧
    (k.pending [f.a] = false → f.only false true false 0 7 = true → (k.sreg f.a.toNat).toNat % 16 = 0 →
      ∀ o : Opnd, decodeOpnd s c.val (k.sreg f.a.toNat) = .ok o → o.fits c.val 0 47 = true →
        EngineIssue s c (.rxst c f) 8 3 (rngOf s c.val o 0 47 true) (q .rxst) ∧
        EngineIssue s c (.rxadd c f) 8 3 (rngOf s c.val o 0 47 false) (q .rxadd))) ∧
  (∀ (s : State) (c : CoreId) (f : Fields) (w1 : Word),
    let k := s.core c.val
    let slot := (field f.imm 0 3).toNat
    let q := fun (op : EOp) => ({ op := op, f := f, sa := k.sreg f.a.toNat, sb := k.sreg f.b.toNat, sd := k.sreg f.d.toNat } : QInstr)
    (MayIssue s c false →
      (f.only false false false 0 0x1FFF = true → field f.imm 10 2 ≠ 3 → Room k 4 [] → ∃ t, exec (.sucfg c f) s = .next t ∧
        OnlyCore s t c (let k' := queued k 8 4 [] (q .sucfg);
          { k' with su := { k'.su with cuCfg := some { k := (field f.imm 0 10).toNat + 1, kt := field f.imm 10 2, desc := bit f.imm 12 } } })) ∧
      (k.pending [f.a] = false → f.only false true false 0 0xFFFF = true → suSlotBad k slot = false →
        let m := 8 * ((field f.imm 3 4).toNat + 1)
        ∀ o, suOpnd s c.val (k.sreg f.a.toNat) (m * 1024) = .ok o → (slot + 1) * m * 512 ≤ 65536 →
          EngineIssue s c (.sutab c f) 8 4 (suRng s c.val o (m * 1024) false ++ [⟨.ob 5, slot * m * 512, slot * m * 512 + m * 512 - 1, true⟩]) (q .sutab)) ∧
      (k.pending [f.a] = false → f.only false true false 0 7 = true → suSlotBad k slot = false →
        ∀ o, suOpnd s c.val (k.sreg f.a.toNat) 72 = .ok o → EngineIssue s c (.suflt c f) 8 4 (suRng s c.val o 72 false) (q .suflt)) ∧
      (k.pending [f.a, f.b] = false → f.only false true true 0 0x3FFFF = true → suSlotBad k slot = false →
        let n := (field f.imm 5 13).toNat
        let src := field f.imm 3 2
        src ≠ 3 → (src = 1 → k.sreg f.b.toNat = 0) → n ≤ 4096 →
        ∀ oa ob, suOpnd s c.val (k.sreg f.a.toNat) (if src = 1 then 16 * n else 4 * n) = .ok oa →
          suOpnd s c.val (if src = 2 then k.sreg f.b.toNat else 0) (if src = 2 then 16 * n else 0) = .ok ob →
          EngineIssue s c (.susel c f) 8 4
            (suRng s c.val oa (if src = 1 then 16 * n else 4 * n) false ++ suRng s c.val ob (if src = 2 then 16 * n else 0) false) (q .susel)) ∧
      (k.pending [f.d, f.a] = false → f.only true true false 0 7 = true → suSlotBad k slot = false →
        ∀ g o, k.su.cuCfg = some g → suOpnd s c.val (k.sreg f.a.toNat) (16 * g.k) = .ok o →
          EngineIssue s c (.sutopk c f) 8 4 (suRng s c.val o (16 * g.k) true) { (q .sutopk) with sdest := some f.d.toNat })) ∧
    (MayIssue s c true → k.pending [f.d, f.a, f.b] = false → f.only true true true 0 0 = true → field w1 15 49 = 0 →
      let x := ScanWord.of w1
      let first := (field (k.sreg f.d.toNat) 0 40).toNat
      let count := (field (k.sreg f.d.toNat) 40 24).toNat
      (x.form = 0 ∨ field w1 2 4 = 0) → (x.filt = true ∨ f.b = 0) → scanInvalid k x first count = false →
      ∀ oa ob, suOpnd s c.val (k.sreg f.a.toNat) (count * x.cb) = .ok oa →
        suOpnd s c.val (k.sreg f.b.toNat) (if x.filt then count * 8 else 0) = .ok ob →
        EngineIssue s c (.suscan c f w1) 16 4
          (suRng s c.val oa (count * x.cb) false ++ suRng s c.val ob (if x.filt then count * 8 else 0) false ++ x.tabRng) { (q .suscan) with w1 := w1 }))

/-- The MA instructions at issue (R185, R209, R210, R212, Table 10-8): a MAT whose checks pass is queued with its feeder
and destination ranges; MACLR, MADRAIN and MAADD wait for their bank; MASTAT names the scalar it will write. Model
choices: assumption 21. -/
def Obligations.MatrixInstructionsIssue : Prop :=
  ∀ (s : State) (c : CoreId) (f : Fields) (w1 : Word),
    let k := s.core c.val
    let a := arrOf f
    let sA := k.sreg f.a.toNat
    let sB := k.sreg f.b.toNat
    let alive := (k.array a).retired = false
    let idle := k.bankBusy a (bankOf f) = false
    let strip := match (k.ahead a).of (bankOf f) with | some r => r.2.2 | none => false
    let rows := (field f.imm 0 6).toNat
    let cols := (field f.imm 6 8).toNat
    let feeds := fun (t : Tile) => feedRng (2 * a) t.aOff (t.m * t.kbA) ++ feedRng (2 * a + 1) t.bOff (t.n * t.kbB)
    let good := fun (t : Tile) => matReserved f t = false ∧ tileInvalid k a t sB = false ∧
      t.aOff + t.m * t.kbA ≤ 0x40000 ∧ t.bOff + t.n * t.kbB ≤ 0x40000
    (MayIssue s c true → k.pending [f.a, f.b] = false → alive →
      (let w := clearBit w1 57
       let t := Tile.ofWords f w
       good t → (t.clr = true → k.bankBusy a t.bank = false) →
        EngineIssue s c (.matAcc c f w1) 16 a (feeds t) { op := .mat, f := f, w1 := w, sa := sA, sb := sB }) ∧
      (let w := setBit w1 57
       let t := Tile.ofWords f w
       let last := destLast t.m t.n (drainSize t.df) sB
       good t → 0 < t.m → 0 < t.n → ∀ o, decodeOpnd s c.val sA = .ok o → o.fits c.val 0 last = true →
        EngineIssue s c (.matFull c f w1) 16 a (feeds t ++ rngOf s c.val o 0 last true) { op := .mat, f := f, w1 := w, sa := sA, sb := sB })) ∧
    (MayIssue s c false →
      (f.only false false false 3 0x3FFF = true → field f.imm 10 3 ≠ 7 → alive → idle →
        EngineIssue s c (.maclr c f) 8 a [] { op := .maclr, f := f }) ∧
      (k.pending [f.a, f.b] = false → alive → idle → 0 < rows → 0 < cols → rows ≤ tileRows strip → cols ≤ tileCols (k.array a).width strip →
        ∀ o, decodeOpnd s c.val sA = .ok o →
        (f.only false true true 3 0x1FFFF = true → (field f.imm 14 3).toNat < 6 →
          o.fits c.val 0 (destLast rows cols (drainSize (field f.imm 14 3).toNat) sB) = true →
          EngineIssue s c (.madrain c f) 8 a (rngOf s c.val o 0 (destLast rows cols (drainSize (field f.imm 14 3).toNat) sB) true)
            { op := .madrain, f := f, sa := sA, sb := sB }) ∧
        (f.only false true true 3 0x3FFF = true → o.fits c.val 0 (destLast rows cols 16 sB) = true →
          EngineIssue s c (.maadd c f) 8 a (rngOf s c.val o 0 (destLast rows cols 16 sB) false) { op := .maadd, f := f, sa := sA, sb := sB })) ∧
      (k.pending [f.d] = false → f.only true false false 3 3 = true → (field f.imm 0 2 = 3 ∨ idle) →
        EngineIssue s c (.mastat c f) 8 a [] { op := .mastat, f := f, sdest := some f.d.toNat }))



/-! ### The engines at work -/

/-- The core once engine e has taken instruction q from the head of its queue, rest behind it, with its scalar result
(R173, R187, R243). -/
def Sys2Proof.Stated.started (k : Core) (e : Nat) (rest : List QInstr) (q : QInstr) (res : Word) : Core :=
  { k with
    queues := Table.set [] k.queues e rest
    running := Table.set [] k.running e (Table.get [] k.running e ++ [{ q with sres := res }]) }

/-- Every elementwise VE instruction that starts (R226, R229 to R232, R239, Table 11-4): each active element of the
destination is the operation of the sources' elements, an inactive one is kept or, with MZ, zero; no other byte of the
buffers changes. Mask and count results of the VE (R232, Table 11-4): VCMP and VMASK write bits 0 to VL − 1 of their
mask under MEN and MZ and leave the others; VPOPC's result is the number of set bits below VL; VL = 0 touches nothing.
Model choices: assumptions 8, 22 and 25. -/
def Obligations.VectorElementsTakeTheirResults : Prop :=
  (∀ (s : State) (c : CoreId) (q : QInstr) (rest : List QInstr),
    let k := s.core c.val
    let f := q.f
    let et := etOf f
    let el := fun (r i : Nat) => (k.vec r et q.vl).getD i 0
    let ends := fun (dt : Nat) (res : List Nat) => ∃ t, exec (.veStart c) s = .next t ∧
      OnlyCore s t c { (started k 2 rest q 0) with ob := (t.core c.val).ob } ∧
      (t.core c.val).vec f.d.toNat dt q.vl = masked k f (k.vec f.d.toNat dt q.vl) res ∧
      (∀ x : Nat, (x < 4 * 0x40000 + f.d.toNat * 4096 ∨ 4 * 0x40000 + f.d.toNat * 4096 + vecBytes dt q.vl ≤ x) →
        Table.get 0 (t.core c.val).ob x = Table.get 0 k.ob x)
    Clocked s → Table.get [] k.queues 2 = q :: rest → 0 < q.vl → k.obBad = [] → et < 8 →
    (q.op ∈ [EOp.vadd, .vsub, .vmul, .vfma, .vdiv, .vsqrt, .vmin, .vmax, .vand, .vor, .vxor, .vshl, .vshr, .vmov] →
      ends et ((List.range q.vl).map (fun i => elemOp q.op et (satOf f) (el f.a.toNat i) (el f.b.toNat i) (el f.d.toNat i)))) ∧
    (q.op = .vtrn → etFloat et = true → ends et ((k.vec f.a.toNat et q.vl).map (trnElem et (fnOf f)))) ∧
    (q.op = .vcvt → dtOf f < 8 → ends (dtOf f) ((k.vec f.a.toNat et q.vl).map (cvtElem et (dtOf f))))) ∧
  (∀ (s : State) (c : CoreId) (q : QInstr) (rest : List QInstr),
    let k := s.core c.val
    let f := q.f
    let et := etOf f
    let el := fun (r i : Nat) => (k.vec r et q.vl).getD i 0
    let ends := fun (g : Nat → Bool) => ∃ t, exec (.veStart c) s = .next t ∧
      OnlyCore s t c { (started k 2 rest q 0) with ve := { k.ve with masks := (t.core c.val).ve.masks } } ∧
      (∀ m i : Nat, i < 4096 → bit ((t.core c.val).mask m) i =
        if m = f.d.toNat ∧ i < q.vl then (if k.active f i then g i else if mzOf f then false else bit (k.mask m) i) else bit (k.mask m) i)
    Clocked s → Table.get [] k.queues 2 = q :: rest → q.vl ≤ 4096 → k.obBad = [] →
    (q.vl = 0 → ∃ t, exec (.veStart c) s = .next t ∧ OnlyCore s t c (started k 2 rest q 0)) ∧
    (0 < q.vl →
      (q.op = .vcmp → ends (fun i => cmpElem et (condOf f) (el f.a.toNat i) (el f.b.toNat i))) ∧
      (q.op = .vmask → condOf f < 4 → ends (fun i =>
        let x := bit (k.mask f.a.toNat) i
        let y := bit (k.mask f.b.toNat) i
        if condOf f = 0 then x && y else if condOf f = 1 then x || y else if condOf f = 2 then x != y else x && !y)) ∧
      (q.op = .vpopc → ∃ t, exec (.veStart c) s = .next t ∧ OnlyCore s t c
        (started k 2 rest q (BitVec.ofNat 64 ((List.range q.vl).countP (fun i => bit (k.mask (mskOf f)) i)))))))

/-- RU instructions that start (R240 to R242, Tables 11-7 and 11-8): each leaves its accumulator, its scalar result or
its record as the table says, and nothing else of the core changes. Model choices: assumption 31. -/
def Obligations.ReductionUnitResults : Prop :=
  ∀ (s : State) (c : CoreId) (q : QInstr) (rest : List QInstr),
    let k := s.core c.val
    let f := q.f
    let et := etOf f
    let i := (field f.imm 0 3).toNat
    let x := k.xacc i
    let va := k.vec f.a.toNat et q.vl
    let pairs := activePairs k f va
    let ends := fun (ru : Table Exact) (ob : Table Byte) (res : Word) => ∃ t, exec (.ruStart c) s = .next t ∧
      OnlyCore s t c { (started k 3 rest q res) with ru := ru, ob := ob }
    Clocked s → Table.get [] k.queues 3 = q :: rest → k.obBad = [] →
    (q.op = .rclr → ends (Table.set {} k.ru i {}) k.ob 0) ∧
    (q.op = .rsum → 0 < q.vl →
      let active := (List.range q.vl).filter (fun j => !menOf f || bit (k.mask f.d.toNat) j)
      ends (Table.set {} k.ru i ((active.foldl (fun (y : Exact) j => y.addNum (etNum et (va.getD j 0))) x).addCount q.vl)) k.ob 0) ∧
    (q.op = .rrd → ends (Table.set {} k.ru i { x with lossHi := x.lossHi || (x.rounded et).2 }) k.ob (BitVec.ofNat 64 (x.rounded et).1)) ∧
    (q.op = .rmax → ends k.ru k.ob (extremum et true pairs)) ∧
    (q.op = .rmin → ends k.ru k.ob (extremum et false pairs)) ∧
    (q.op = .ror → ends k.ru k.ob (BitVec.ofNat 64 (pairs.foldl (fun a p => a ||| p.2) 0))) ∧
    (∀ b o : Nat, decodeOpnd s c.val q.sa = .ok (.ob b o) →
      (q.op = .rxst → ends k.ru (putBytes k.ob (b * 0x40000 + o) x.record) 0) ∧
      (q.op = .rxadd → recordBad (k.obBytes b o 48) = false →
        ends (Table.set {} k.ru i (x.addRecord (k.obBytes b o 48))) k.ob 0))

/-- The selector (R28, R248): after any offers a slot holds at most K of the offered pairs, each once, in order of key
and then lower ID; either all of them are held or K, and every pair not held comes after every held one; the order of
the offers does not matter. Keys compare unsigned, signed or as fp32 values, ORDER 1 reverses that, a NaN is never
better than a number, and −0 is below +0. Two keys of one ID that compare equal with different bits, as two NaNs do, are
left out: the spec does not say whether they are one pair (assumption 33). -/
def Obligations.SelectorHoldsTheKBestOffers : Prop :=
  ∀ g : SuCfg,
    (∀ xs : List SelEntry,
      (∀ a ∈ xs, ∀ b ∈ xs, a.id = b.id → g.keyBetter a.key b.key = false → g.keyBetter b.key a.key = false → a = b) →
      let held := xs.foldl g.offer []
      let before := fun (a b : SelEntry) => g.keyBetter a.key b.key = true ∨ (g.keyBetter b.key a.key = false ∧ a.id < b.id)
      held.length ≤ g.k ∧ held.Pairwise before ∧ (∀ e ∈ held, e ∈ xs) ∧ (held.length = g.k ∨ ∀ e ∈ xs, e ∈ held) ∧
      (∀ e ∈ xs, e ∈ held ∨ ∀ h ∈ held, before h e) ∧ ∀ ys : List SelEntry, xs.Perm ys → ys.foldl g.offer [] = held) ∧
    ∀ a b : BitVec 32,
      let value := fun (x : BitVec 32) => fp32.decode x.toNat
      let number := fun (x : BitVec 32) => value x ≠ .nan
      (g.kt = 0 → g.keyBetter a b = if g.desc then decide (b.toNat < a.toNat) else decide (a.toNat < b.toNat)) ∧
      (g.kt = 1 → g.keyBetter a b = if g.desc then decide (b.toInt < a.toInt) else decide (a.toInt < b.toInt)) ∧
      (g.kt = 2 → number a → number b →
        g.keyBetter a b = if g.desc then Num.ltTotal true (value b) (value a) else Num.ltTotal false (value a) (value b)) ∧
      (g.kt = 2 → number b → ¬ number a → g.keyBetter a b = false) ∧
      (g.kt = 2 → g.keyBetter 0x80000000 0 = !g.desc ∧ g.keyBetter 0 0x80000000 = g.desc)

/-- SU instructions that start (R247 to R250, R254, R297): with tokens the SU takes its head and SUCFG empties the
slots, SUSEL offers N keys with rising IDs, SUTOPK writes the slot's entries and leaves the slot, SUSCAN offers each
code's distance to each slot; without tokens the start waits; SUTOPK on a slot with a parity error fails the step (R261).
Model choices: assumptions 9 and 126. -/
def Obligations.ScanUnitResults : Prop :=
  ∀ (s : State) (c : CoreId) (q : QInstr) (rest : List QInstr),
    let k := s.core c.val
    let f := q.f
    let tokens := qosStart s k.colour.toNat [(bucketKey 6 c.val, suTime k q)]
    let slot := k.su.slot (field f.imm 0 3).toNat
    let n := (field f.imm 5 13).toNat
    let base := (field q.sb 0 40).toNat
    let ends := fun (su : Su) (ob : Table Byte) (res : Word) => ∃ t, exec (.suStart c) s = .next t ∧
      OnlyCore tokens.2 t c { (started k 4 rest q res) with su := su, ob := ob }
    Clocked s → Table.get [] k.queues 4 = q :: rest → k.obBad = [] →
    (tokens.1 = false → exec (.suStart c) s = .next tokens.2) ∧
    (tokens.1 = true →
      (q.op = .sucfg → ∃ u : Su, ends u k.ob 0 ∧ u.cuCfg = k.su.cuCfg ∧
        u.cfg = some { k := (field f.imm 0 10).toNat + 1, kt := field f.imm 10 2, desc := bit f.imm 12 } ∧
        (∀ i : Nat, i < 8 → u.slot i = { k.su.slot i with entries := [], rejections := 0, bad := false })) ∧
      (∀ b o g, decodeOpnd s c.val q.sa = .ok (.ob b o) → k.su.cfg = some g →
        (q.op = .susel → field f.imm 3 2 = 0 → 0 < n → base + n ≤ 2 ^ 40 → slot.bad = false →
          let offers := (List.range n).map (fun i => (⟨BitVec.ofNat 32 (leField (k.obBytes b o (4 * n)) (4 * i) 4), BitVec.ofNat 40 (base + i)⟩ : SelEntry))
          ends (k.su.setSlot (field f.imm 0 3).toNat { slot with entries := offers.foldl g.offer slot.entries }) k.ob 0) ∧
        (q.op = .sutopk → slot.bad = true → ∃ t, exec (.suStart c) s = .next t ∧ (t.core c.val).csr.stepFail = true) ∧
        (q.op = .sutopk → slot.bad = false → ends k.su (putBytes k.ob (b * 0x40000 + o) (takePad (16 * g.k) (slot.entries.map SelEntry.bytes).flatten))
          (BitVec.ofNat 64 (slot.entries.length + slot.rejections.toNat * 2 ^ 16))) ∧
        (q.op = .suscan →
          let x := ScanWord.of q.w1
          let first := (field q.sd 0 40).toNat
          let count := (field q.sd 40 24).toNat
          x.filt = false → x.qmask ≠ 0 → 0 < count → (∀ y ∈ bitsSet x.qmask, (k.su.slot y).bad = false) →
          ends ((List.range count).foldl (fun u i => (bitsSet x.qmask).foldl
            (scanOne k g x ((List.drop (i * x.cb) (k.obBytes b o (count * x.cb))).take x.cb) 0 (first + i)) u) k.su) k.ob 0)))

/-- An accumulate MAT of int8 operands that clears its bank (R200, R201, R208, R210): cell (i, j) holds the exact dot
product of operand rows i and j. -/
def Obligations.IntegerMatIsTheDotProduct : Prop :=
  ∀ (s : State) (c : CoreId) (a : Fin 2) (q : QInstr) (rest : List QInstr),
    let k := s.core c.val
    let x := k.array a.val
    let t := Tile.ofWords q.f q.w1
    let A := fun (i u : Nat) => (Table.get 0 k.ob (2 * a.val * 0x40000 + (t.aOff + i * t.kbA) + u)).toInt
    let B := fun (j u : Nat) => (Table.get 0 k.ob ((2 * a.val + 1) * 0x40000 + (t.bOff + j * t.kbB) + u)).toInt
    Clocked s → Table.get [] k.queues a.val = q :: rest → q.op = .mat → x.cur = none → x.drainDue t.bank = false →
    x.faulty = [] → k.obBad = [] → t.full = false → t.clr = true → t.strip = false → t.n ≤ 32 → 0 < t.m → 0 < t.n →
    t.opc = 0 → t.af = 0 → t.bf = 0 → t.au = false → t.bu = false → t.we = 0 →
    ∃ y, exec (.maTileStart c a) s = .next y ∧
      (∀ i j : Nat, i < t.m → j < t.n → Table.get {} (((y.core c.val).array a.val).bank t.bank).cells (i * 128 + j) =
        { a := BitVec.ofInt 128 ((List.range t.k).map (fun u => A i u * B j u)).sum, filled := decide (0 < t.k) }) ∧
      (∀ b : Nat, b ≠ t.bank → ((y.core c.val).array a.val).bank b = x.bank b) ∧
      Table.get [] (y.core c.val).queues a.val = rest ∧ (y.core c.val).ob = k.ob ∧ y.mem = s.mem ∧ y.log = s.log

/-- MACLR and MASTAT that start, and the drain (R210, R211, R213, R216, Table 10-8): MACLR clears its bank and records
WE, OPC and STRIP; MASTAT takes its value; a drain leaves the list of due drains and, the last one, lets its instruction
complete; a 1 × 1 RAW128 drain writes the cell's 16 bytes; an array whose bank is still being read out waits.
ENGINE_INSTRUCTION_COMPLETE (R173, R176, R233): the oldest started instruction of an engine leaves, its scoreboard
entries are free, and the scalar it wrote holds its result and is no longer pending, nor is the mask; a core that
a STOP drains is STOPPED once nothing is left (R406). Model choices: assumptions 21 and 96. -/
def Obligations.MatrixArraysStartDrainAndComplete : Prop :=
  (∀ (s : State) (c : CoreId) (a : Fin 2),
    let k := s.core c.val
    let x := k.array a.val
    Clocked s →
    (∀ q rest, x.cur = none → Table.get [] k.queues a.val = q :: rest →
      (q.op = .maclr → x.drainDue (bankOf q.f) = false → ∃ t, exec (.maTileStart c a) s = .next t ∧
        OnlyCore s t c ((started k a.val rest q q.sres).setArray a.val (x.setBank (bankOf q.f)
          { we := field q.f.imm 0 10, opc := field q.f.imm 10 3, strip := bit q.f.imm 13, recorded := true }))) ∧
      (q.op = .mastat → ∃ t, exec (.maTileStart c a) s = .next t ∧
        OnlyCore s t c (started k a.val rest q (mastatValue x (bankOf q.f) (field q.f.imm 0 2).toNat))) ∧
      (q.op = .maclr → x.drainDue (bankOf q.f) = true → exec (.maTileStart c a) s = .next s)) ∧
    (∀ d rest, x.drains = d :: rest → ∃ t, exec (.maDrain c a) s = .next t ∧
      ((t.core c.val).array a.val).drains = rest ∧
      Table.get [] (t.core c.val).running a.val = Table.get [] k.running a.val ++ (if d.final then [d.q] else []) ∧
      (∀ b o : Nat, decodeOpnd s c.val d.dst = .ok (.ob b o) → d.rows = 1 → d.cols = 1 → d.df = 0 → (x.bank d.bank).poison = 0 →
        (t.core c.val).ob = putBytes k.ob (b * 0x40000 + (o + d.off))
          (leBytes 16 ((Table.get {} (x.bank d.bank).cells 0).raw (x.bank d.bank).opc).toNat)))) ∧
  (∀ (s : State) (c : CoreId) (e : Engine) (q : QInstr) (rest : List QInstr),
    let k := s.core c.val
    let i := match e with | .ma0 => 0 | .ma1 => 1 | .ve => 2 | .ru => 3 | .su => 4 | .mv => 5
    let k' := { k with
      running := Table.set [] k.running i rest
      sb := freeEntries k.sb q.entries
      sregs := (match q.sdest with | some d => if d = 0 then k.sregs else Table.set 0 k.sregs d q.sres | none => k.sregs)
      pendS := (match q.sdest with | some d => eraseOnce d k.pendS | none => k.pendS)
      pendM := (match q.mdest with | some m => eraseOnce m k.pendM | none => k.pendM) }
    Clocked s → Table.get [] k.running i = q :: rest →
    exec (.engineInstructionComplete c e) s = .next (withCore s c
      (if k.drainStop = true ∧ k'.drained = true then { k' with st := .stopped, drainStop := false, hold := none } else k')))



/-! ### Access checks and faults -/

/-- The checks of an access to stack or core memory (R109, R132, R135, R136): nothing to check for no bytes; outside the
powered map it is unmapped; control space is refused; colour 0 passes; another colour needs a valid entry that covers
every byte, with RD for a read, with WR and no PRIV for a write, and for a CRED entry a window or the owner. -/
def Obligations.AccessChecksAnswerByTheRegionTable : Prop :=
  ∀ (s : State) (colour : Nat) (agent win : Option Nat) (a n : Nat),
    let map := s.place a n
    let entry := s.regionAt colour a n
    let open_ := map = .sm ∨ ∃ c, map = .cm c
    let inside := fun (w : Window) => w.valid = true ∧ w.base ≤ a ∧ a + n ≤ w.base + w.len
    let byWindow := ∃ w, win = some w ∧ inside (s.window w) ∧ (s.window w).colour.toNat = colour
    let byOwner := ∃ c, agent = some c ∧ ∃ e ∈ s.windows, inside e.2 ∧ e.2.owner = c
    (∀ w, s.check colour agent win w a 0 = .ok) ∧
    (0 < n →
      (∀ w, map = .unmapped → s.check colour agent win w a n = .unmapped) ∧
      (∀ w, map = .ctl → s.check colour agent win w a n = .refused) ∧
      (∀ w, open_ → s.check 0 agent win w a n = .ok) ∧
      (∀ w, open_ → colour ≠ 0 → entry = none → s.check colour agent win w a n = .refused) ∧
      (∀ r, open_ → colour ≠ 0 → entry = some r →
        bit r.attrs 0 = true ∧ r.base * 4096 ≤ a ∧ a + n ≤ (r.last + 1) * 4096 ∧
        (s.check colour agent win false a n = .ok ↔ bit r.attrs 1 = true) ∧
        (s.check colour agent win true a n = .ok ↔
          bit r.attrs 2 = true ∧ bit r.attrs 6 = false ∧ (bit r.attrs 5 = true → byWindow ∨ byOwner))) ∧
      (∀ r ∈ s.regionsOf colour, bit r.attrs 0 = true → r.base * 4096 ≤ a → a + n ≤ (r.last + 1) * 4096 → entry ≠ none))

/-- A program fault of core c (R177, R195, R353, R354): the core is HALTED with STEP_FAIL set, FAULT takes the code if
it was clear, and the record of this moment enters the capture queue where that has room; other cores, memory and
windows stay. A word that decodes to no instruction (R179) is not issued: F_ILLEGAL_OP is raised, the core is HALTED
with STEP_FAIL set, and PC, scalar registers, memory and every other core stay; so does one with a field that its minor
does not use, with F_RESERVED_SET; for a word in order this command does nothing. -/
def Obligations.ProgramFaultHaltsTheCore : Prop :=
  (∀ (s : State) (c : CoreId) (code : BitVec 16) (unit : Nat) (detail : BitVec 16),
    let k := s.core c.val
    let t := raiseP s c.val code unit detail
    OnlyCore { s with log := t.log } t c { k with
      st := .halted, hold := none
      csr := { k.csr with
        stepFail := true, fault := if k.csr.fault = 0 then code else k.csr.fault
        newFault := if k.csr.newFault = 0 then code else k.csr.newFault } } ∧
    (s.log.capq.length < 64 → t.log.capq = s.log.capq ++ [{ (mkRec s code k.colour (some c.val) unit) with detail := detail }]) ∧
    (64 ≤ s.log.capq.length → faultClass code = 1 → t.log.capq = s.log.capq ∧ t.log.capqDrop = true)) ∧
  (∀ (s : State) (c : CoreId) (w0 w1 : Word) (i : Instr), Clocked s → decodeCore c w0 w1 = some i → fieldsInOrder i = true →
    exec (.illegalOpcode c w0 w1) s = .next s) ∧
  (∀ (s : State) (c : CoreId) (w0 w1 : Word) (code : BitVec 16), MayIssue s c (longMaj (majOf w0)) →
    ((decodeCore c w0 w1 = none ∧ code = 0x0202) ∨ (∃ i, decodeCore c w0 w1 = some i ∧ fieldsInOrder i = false ∧ code = 0x0201)) →
    ∃ t, exec (.illegalOpcode c w0 w1) s = .next t ∧
      (t.core c.val).st = .halted ∧ (t.core c.val).csr.stepFail = true ∧
      (t.core c.val).csr.fault = (if (s.core c.val).csr.fault = 0 then code else (s.core c.val).csr.fault) ∧
      (t.core c.val).csr.pc = (s.core c.val).csr.pc ∧ (t.core c.val).csr.issued = (s.core c.val).csr.issued ∧
      (t.core c.val).sregs = (s.core c.val).sregs ∧ t.mem = s.mem ∧ (∀ d : Nat, d ≠ c.val → t.core d = s.core d) ∧
      (s.log.capq.length < 64 → ∃ r : LogRec, t.log.capq = s.log.capq ++ [r] ∧ r.code = code ∧ r.core = some (BitVec.ofNat 6 c.val) ∧
        r.colour = (s.core c.val).colour ∧ r.stroke = s.mast.stroke))

/-! ### The mover -/

/-- The core after an MV instruction of 8 bytes has issued into the mover's queue (R179, R185, R187). -/
def Sys2Proof.Stated.takenMv (k : Core) (op : EOp) (f : Fields) : Core :=
  { (passed k 8) with queues := Table.set [] k.queues 5 (Table.get [] k.queues 5 ++ [{ op := op, f := f }]) }

/-- MVCFG and MVPOST (R153, R154, R157, R172, R173, R185): a full queue of the mover holds either; MVCFG sets a channel's rings and
depth with HEAD and TAIL 0, or raises F_MV_CONFIG where a requirement is broken; MVPOST is held while its ring is full, while slot
TAIL or a range of the descriptor is pending and while entries lack; it reads the 64 bytes of slot TAIL, raises the fault of the
first failed check, or posts the descriptor behind the others with its ranges. Model choices: assumptions 35, 37, 121 and 122. -/
def Obligations.MoverInstructionsConfigureAndPost : Prop :=
  ∀ (s : State) (c : CoreId) (f : Fields), MayIssue s c false →
    let k := s.core c.val
    let n := f.imm.toNat
    let h := k.chan n
    let ring := (field (k.sreg f.a.toNat) 0 32).toNat
    let cring := (field (k.sreg f.a.toNat) 32 32).toNat
    let lg := (k.sreg f.b.toNat).toNat
    let good := 1 ≤ lg ∧ lg ≤ 10 ∧ ring % 64 = 0 ∧ cring % 16 = 0 ∧ ring + 64 * 2 ^ lg ≤ 0x600000 ∧ cring + 16 * 2 ^ lg ≤ 0x600000 ∧
      h.head = h.tail ∧ h.posted = [] ∧ ringGuarded s c.val (cmBase c.val + ring) (64 * 2 ^ lg) = true ∧
      ringGuarded s c.val (cmBase c.val + cring) (16 * 2 ^ lg) = true
    let slot := h.ring + h.tail.toNat % 2 ^ h.depthLog2 * 64
    let d := Desc.decode (s.bytesAt slot 64)
    let room := (Table.get [] k.queues 5).length < 16
    (k.pending [f.a, f.b] = false → f.only false true true 0 0xF = true →
      (¬ room → exec (.mvcfg c f) s = .next (withCore s c (heldByQueue k))) ∧
      (room → good → ∃ t, exec (.mvcfg c f) s = .next t ∧ OnlyCore s t c ((takenMv k .mvcfg f).setChan n
        { h with set := true, ring := cmBase c.val + ring, cring := cmBase c.val + cring, depthLog2 := lg, head := 0, tail := 0 })) ∧
      (room → ¬ good → exec (.mvcfg c f) s = .next (raiseP s c.val fMvConfig 0 0))) ∧
    (f.only false false false 0 0xF = true →
      (¬ room → exec (.mvpost c f) s = .next (withCore s c (heldByQueue k))) ∧
      (room → h.set = false → exec (.mvpost c f) s = .next (raiseP s c.val fMvConfig 0 0)) ∧
      (room → h.set = true → 2 ^ h.depthLog2 ≤ (h.tail - h.head).toNat → exec (.mvpost c f) s = .next (withCore s c (heldByQueue k))) ∧
      (room → h.set = true → (h.tail - h.head).toNat < 2 ^ h.depthLog2 →
        (k.blocked (rngOf s c.val (.cm slot) 0 63 false) = true → exec (.mvpost c f) s = .next (withCore s c (heldByData k))) ∧
        (k.blocked (rngOf s c.val (.cm slot) 0 63 false) = false →
          s.check k.colour.toNat (some c.val) none false slot 64 = .ok → s.detects slot 64 = false →
          let rs := d.ranges s c.val
          (∀ e, d.check s c.val = some e → exec (.mvpost c f) s = .next (raiseP s c.val e 0 0)) ∧
          (d.check s c.val = none → (k.blocked rs = true ∨ 64 < k.sb.length + rs.length) →
            exec (.mvpost c f) s = .next (withCore s c (heldByData k))) ∧
          (d.check s c.val = none → k.blocked rs = false → k.sb.length + rs.length ≤ 64 →
            exec (.mvpost c f) s = .next (withCore s c
              { ((takenMv k .mvpost f).setChan n { h with
                  tail := h.tail + 1, posted := h.posted ++ [{ index := h.tail, desc := d, entries := entriesOf (16 + n) rs }] }) with
                sb := k.sb ++ entriesOf (16 + n) rs })))))

/-- A completion record written by a channel (R161, R162, Table 8-5): 16 bytes at the completion ring's slot, HEAD one
more, the descriptor gone from the channel, HALTED with a failure, and the signal of SIGV. -/
def Sys2Proof.Stated.RecordWritten (s t : State) (c : CoreId) (n : Nat) (p : Posted) (rest : List Posted) (st : Byte) : Prop :=
  let h := (s.core c.val).chan n
  let a := h.cring + p.index.toNat % 2 ^ h.depthLog2 * 16
  let data := leBytes 2 p.index.toNat ++ [st, 0] ++ leBytes 4 p.desc.tag.toNat ++ leBytes 8 p.bytesOk
  (∀ y, t.byteAt y = if a ≤ y ∧ y < a + 16 then data.getD (y - a) 0 else s.byteAt y) ∧
  (t.core c.val).chan n = { h with head := h.head + 1, posted := rest, halted := h.halted || st != 0 } ∧
  (∀ m, m ≠ n → (t.core c.val).chan m = (s.core c.val).chan m) ∧ (∀ d : Nat, d ≠ c.val → t.core d = s.core d) ∧
  t.mesh = s.mesh ++ (if p.desc.sigv then [{
    stype := 6, colour := (s.core c.val).colour, src := s.ownId, core := p.desc.sigCore.toNat, sender := c.val
    slot := BitVec.ofNat 128 (p.desc.sigCore.toNat + 2 ^ p.desc.sigFlag.toNat * 2 ^ 64) }] else [])

/-- Descriptors start in order and end with their record (R152, R161, R162): a channel starts its next descriptor once
those ahead have sent their last pieces, and a MARK has none to send; with every piece settled and its probes answered the record
carries OK, after a failure it carries the
first failing status and the channel is HALTED. Model choices: assumption 18. -/
def Obligations.DescriptorsStartAndComplete : Prop :=
  ∀ (s : State) (c : CoreId) (ch : Fin 16),
    let k := s.core c.val
    let h := k.chan ch.val
    Clocked s →
    (∀ (ahead rest : List Posted) (p : Posted), h.halted = false → h.posted = ahead ++ p :: rest →
      (∀ x ∈ ahead, x.started = true ∧ x.allSent = true ∧ x.fail = none ∧ x.index ≠ p.index) →
      p.started = false → p.allSent = false → p.outst = 0 → p.fail = none →
      let mark := p.desc.op = 6
      ∃ t, exec (.descriptorStart c ch) s = .next t ∧
        OnlyCore s t c { (k.setChan ch.val { h with posted := ahead ++
            { p with started := true, allSent := decide mark, entries := if mark then [] else p.entries } :: rest }) with
          sb := if mark then freeEntries k.sb p.entries else k.sb }) ∧
    (h.halted = true → exec (.descriptorStart c ch) s = .next s) ∧
    (∀ (p : Posted) (rest : List Posted), h.posted = p :: rest → h.halted = false → p.outst = 0 →
      s.check k.colour.toNat (some c.val) none true (h.cring + p.index.toNat % 2 ^ h.depthLog2 * 16) 16 = .ok →
      (p.started = true → p.allSent = true → p.fail = none → (p.desc.probe = false ∨ p.probed = true ∨ p.dies = 0) →
        ∃ t, exec (.descriptorComplete c ch) s = .next t ∧ RecordWritten s t c ch.val p rest 0) ∧
      (∀ st : Byte, st ≠ 0 → p.fail = some st →
        ∃ t, exec (.descriptorHalt c ch) s = .next t ∧ RecordWritten s t c ch.val p rest st))

/-- MOVER_PIECE_START (R103, R158 to R160, R162, R164, R170, R297): in its channel's turn a piece of a local COPY moves the
source's bytes to the destination and changes no other byte, and one for another die leaves as a WRITE that carries them; it waits
for tokens, for its turn, for credits behind the lower channels, and for a TAG; toward an ABSENT die or under a barred entry it
fails. Model choices: assumptions 34, 55, 95 and 100. -/
def Obligations.MoverPiecesMoveTheirBytes : Prop :=
  ∀ (s : State) (c : CoreId) (ch : Fin 16) (p : Posted),
    let k := s.core c.val
    let x := p.piece s.ownId
    let d := p.desc
    let far := d.farDies s.ownId
    let lost := far.any (fun y => (s.die y.toNat).st == .absent) = true
    let barred := ∃ e u, p.needs s.ownId k = some (e, u) ∧ e.barred = true
    let tokens := qosStart s k.colour.toNat (pieceCost s.ownId c.val d x)
    Clocked s → (k.chan ch.val).current = some p →
    (∀ a b : Nat, ∀ die : BitVec 6, d.srcKind = some (.pga s.ownId a) → d.dstKind = some (.pga die b) → d.winv = false →
      ¬ lost → (die ≠ s.ownId → freshTag s c.val ≠ none) →
      (tokens.1 = false → exec (.moverPieceStart c ch) s = .next tokens.2) ∧
      (tokens.1 = true → s.turnTaken c.val ch.val = true → exec (.moverPieceStart c ch) s = .next s) ∧
      (tokens.1 = true → s.turnTaken c.val ch.val = false → localRefusal s c.val none false x.src x.n = none →
        s.mem.bad = [] → s.mem.cmBad = [] →
        (die = s.ownId → localRefusal s c.val none true x.dst x.n = none →
          ∃ t, exec (.moverPieceStart c ch) s = .next t ∧ t.log = s.log ∧ t.windows = s.windows ∧ t.tx = s.tx ∧
            (∀ y, t.byteAt y = if x.dst ≤ y ∧ y < x.dst + x.n then s.byteAt (x.src + (y - x.dst)) else s.byteAt y)) ∧
        (∀ g, die ≠ s.ownId → d.op = 1 → freshTag s c.val = some g →
          ∃ t, exec (.moverPieceStart c ch) s = .next t ∧ t.log = s.log ∧ t.windows = s.windows ∧ t.mem = s.mem ∧
            t.tx = s.tx ++ [{ msg := { plainMsg s die k.colour opWrite (BitVec.ofNat 40 x.dst) g with data := s.bytesAt x.src x.n }, port := none }]))) ∧
    (¬ lost → ¬ barred → (∃ e u, p.needs s.ownId k = some (e, u) ∧ (e.held < u ∨ s.lowerWaits c.val ch.val e = true)) →
      exec (.moverPieceStart c ch) s = .next s) ∧
    (¬ lost → ¬ barred → far ≠ [] → freshTag s c.val = none → exec (.moverPieceStart c ch) s = .next s) ∧
    (lost ∨ barred → exec (.moverPieceStart c ch) s = .next (failDesc s c.val ch.val p.index 1))

/-! ### Receive windows -/

/-- A slot that a test selects waits on the mesh (R272). -/
abbrev Sys2Proof.Stated.Waits (s : State) (hit : MeshSlot → Bool) : Prop := s.mesh.any hit = true

/-- The die once the first slot that a test selects has left its mesh (R272). -/
def Sys2Proof.Stated.taken (s : State) (hit : MeshSlot → Bool) : State := { s with mesh := removeFirst hit s.mesh }

/-- The slot of a type, source, colour and content (R272). -/
def Sys2Proof.Stated.slotOf (ty : Byte) (src : BitVec 6) (colour : BitVec 4) (slot : Slot) (x : MeshSlot) : Bool :=
  x.stype == ty && x.src == src && x.colour == colour && x.slot == slot

/-- The arrival slot of core c, from any source (R272, Table 13-4). -/
def Sys2Proof.Stated.coreArrival (c : Nat) (colour : BitVec 4) (slot : Slot) (x : MeshSlot) : Bool :=
  slotOf 4 x.src colour slot x && (field slot 24 6).toNat == c && !bit slot 30

/-- The arrival slot of a die (R272, Table 13-4). -/
def Sys2Proof.Stated.dieArrival (src : BitVec 6) (colour : BitVec 4) (slot : Slot) (x : MeshSlot) : Bool := slotOf 4 src colour slot x && bit slot 30

/-- The Hoist slot of this die for core c (R272, Table 13-4). -/
def Sys2Proof.Stated.ownHoist (s : State) (c : Nat) (slot : Slot) (x : MeshSlot) : Bool :=
  x.stype == 5 && x.src == s.ownId && x.core == c && x.slot == slot

/-- The units that a window has free, granted and not used, or filled and not released (R163). -/
def Sys2Proof.Stated.unitsOf (s : State) (n : BitVec 8) : Nat :=
  let w := s.window n.toNat
  w.free + ((s.senders.filter (fun e => e.win == n)).map (fun e => e.out)).sum + (w.filled - w.released).toNat

/-- The units of a window balance (R163, R165, R166, R168): a grant, a landed piece and a returned credit move units
between FREE, OUT and FILLED − RELEASED, and their sum stays. -/
def Obligations.WindowUnitsBalance : Prop :=
  ∀ (s : State) (n : BitVec 8) (e : Sender), Clocked s → (s.window n.toNat).valid = true → e.out < 2 ^ 20 →
    (∃ t, exec (.windowGrant n) s = .next t ∧ unitsOf t n = unitsOf s n) ∧
    (∀ (l : Landed) (rest : List Landed), s.landed = l :: rest → l.win = n → l.units ≤ e.out →
      (unitsOf s n) < 2 ^ 32 → s.senders.find? (fun x => x.win == n && x.die == l.die && x.core == l.core) = some e →
      ∃ t, exec .piecePerformed s = .next t ∧ unitsOf t n = unitsOf s n ∧ t.landed = rest) ∧
    (∀ (src : BitVec 6) (colour : BitVec 4) (slot : Slot), winOf slot = (n, e.core, (field slot 32 20).toNat) → (field slot 32 20).toNat ≤ e.out →
      Waits s (slotOf 3 src colour slot) →
      s.resetting colour.toNat = false → (s.window n.toNat).colour = colour →
      s.senders.find? (fun x => x.win == n && x.die == src && x.core == e.core) = some e →
      ∃ t, exec (.windowReleaseSlot src colour slot) s = .next t ∧ unitsOf t n = unitsOf s n ∧
        (t.window n.toNat).free = (s.window n.toNat).free + (field slot 32 20).toNat)

/-- MVREL and WINDOW_GRANT (R163, R165 to R167): the owner's release of u filled units raises RELEASED and FREE by u and
writes OCC; more than FILLED − RELEASED raises F_CREDIT_UNDERFLOW; it is held while the mover's queue is full and while the window
is under a pending range; a grant gives the next sender min(FREE, SHARE − OUT), which leaves FREE and enters its OUT, in a slot to
its die. Credits and pieces at the two ends of a window (R164, R166, R168, R170): a grant slot raises HELD of the core's entry; one
that finds no entry is dropped and counted; a landed piece lowers OUT, raises FILLED and writes OCC; a release slot of a sender
returns units to FREE, and one of no sender is dropped; a slot that is not on the mesh does nothing. Model choices: assumptions 37,
38 and 95. -/
def Obligations.WindowsReleaseAndGrant : Prop :=
  (∀ s : State,
    (∀ (c : CoreId) (f : Fields), MayIssue s c false → (s.core c.val).pending [f.a] = false → f.only false true false 0 0xFF = true →
      let k := s.core c.val
      let w := s.window f.imm.toNat
      let u := (field (k.sreg f.a.toNat) 0 20).toNat
      let room := (Table.get [] k.queues 5).length < 16
      let holds := k.waitsFor (rngOf s c.val (.cm w.base) 0 (w.len - 1 : Nat) true)
      (¬ room → exec (.mvrel c f) s = .next (withCore s c (heldByQueue k))) ∧
      (room → w.valid = true → w.owner = c.val →
        (holds = true → exec (.mvrel c f) s = .next (withCore s c (heldByData k))) ∧
        (holds = false → u = 0 → exec (.mvrel c f) s = .next (withCore s c (takenMv k .mvrel f))) ∧
        (holds = false → (w.filled - w.released).toNat < u → exec (.mvrel c f) s = .next (raiseP s c.val fCreditUnderflow 6 0)) ∧
        (holds = false → 0 < u → u ≤ (w.filled - w.released).toNat →
          let w' := { w with released := w.released + BitVec.ofNat 32 u, free := w.free + u }
          let s' := s.setWindow f.imm.toNat w'
          s'.check w.colour.toNat (some c.val) none true w.occ 8 = .ok →
          exec (.mvrel c f) s = .next (withCore
            (memWrite s' w.occ (leBytes 4 w.filled.toNat ++ leBytes 4 w'.released.toNat)).1 c (takenMv k .mvrel f)))) ∧
      (room → (w.valid = false ∨ w.owner ≠ c.val) → exec (.mvrel c f) s = .next (raiseP s c.val fIllegalOp 0 0))) ∧
    (∀ n : BitVec 8, Clocked s →
      let x := s.window n.toNat
      ((x.valid = false ∨ x.free = 0) → exec (.windowGrant n) s = .next s) ∧
      (∀ i e, x.valid = true → 0 < x.free → nextSender s n x.rr = some (i, e) →
        let u := Nat.min (Nat.min x.free (e.share - e.out)) 0xFFFFF
        exec (.windowGrant n) s = .next (sendSlot
          { (s.setWindow n.toNat { x with free := x.free - u, rr := i + 1 }) with
            senders := setAt s.senders i { e with out := e.out + u, granted := e.granted + BitVec.ofNat 32 u } }
          e.die 2 x.colour e.core.toNat (BitVec.ofNat 128 (n.toNat + e.core.toNat * 0x100 + u * 2 ^ 32)))))) ∧
  (∀ (s : State) (src : BitVec 6) (colour : BitVec 4) (slot : Slot), Clocked s →
    let n : BitVec 8 := field slot 0 8
    let core : BitVec 6 := field slot 8 6
    let u := (field slot 32 20).toNat
    let k := s.core core.toNat
    let w := s.window n.toNat
    let gone := fun (ty : Byte) => taken s (slotOf ty src colour slot)
    (¬ Waits s (slotOf 2 src colour slot) → exec (.windowGrantSlot src colour slot) s = .next s) ∧
    (¬ Waits s (slotOf 3 src colour slot) → exec (.windowReleaseSlot src colour slot) s = .next s) ∧
    (Waits s (slotOf 2 src colour slot) →
      (∀ e, k.credit src n = some e → s.resetting colour.toNat = false → k.colour = colour → e.barred = false →
        exec (.windowGrantSlot src colour slot) s = .next ((gone 2).setCore core.toNat { (k.noteWaits s.ownId e) with
          credits := mapFirst (fun q => q.die == src && q.win == n)
            (fun q => { q with held := q.held + u, received := q.received + BitVec.ofNat 32 u }) k.credits })) ∧
      (k.credit src n = none → exec (.windowGrantSlot src colour slot) s = .next { (gone 2) with slotsDropped := s.slotsDropped + 1 })) ∧
    (Waits s (slotOf 3 src colour slot) →
      (w.valid = true → w.colour = colour → s.resetting colour.toNat = false → s.hasSender n src core = true →
        exec (.windowReleaseSlot src colour slot) s = .next
          ((modSender (gone 3) n src core (fun e => { e with out := sub20 e.out u, returned := e.returned + BitVec.ofNat 32 u })).setWindow
            n.toNat { w with free := w.free + u })) ∧
      (s.hasSender n src core = false → exec (.windowReleaseSlot src colour slot) s = .next { (gone 3) with slotsDropped := s.slotsDropped + 1 })) ∧
    (∀ (l : Landed) (rest : List Landed), s.landed = l :: rest → (s.window l.win.toNat).valid = true → s.hasSender l.win l.die l.core = true →
      let v := s.window l.win.toNat
      let v' := { v with filled := v.filled + BitVec.ofNat 32 l.units }
      let s' := (modSender { s with landed := rest } l.win l.die l.core
        (fun e => { e with out := sub20 e.out l.units, settled := e.settled + BitVec.ofNat 32 l.units })).setWindow l.win.toNat v'
      s'.check v.colour.toNat (some v.owner) none true v.occ 8 = .ok →
      exec .piecePerformed s = .next (memWrite s' v.occ (leBytes 4 v'.filled.toNat ++ leBytes 4 v.released.toNat)).1))



/-! ### Synchronisation and interrupts -/

/-- A counter after a release: RELEASES one more, its cycle noted, SENSE the other, NEXT moved into ARR (R58, R267). -/
def Sys2Proof.Stated.releasedCounter (s : State) (x : Counter) : Counter :=
  { x with
    releases := x.releases + 1, releasedAt := s.cclk + 1, sense := !x.sense, arr := x.next, fail := x.nextFail, next := 0, nextFail := false, darr := 0, told := false }

/-- The Hoist slots of a release: one to each participant in ascending core order (R267, Table 13-4). -/
def Sys2Proof.Stated.hoists (s : State) (n : Nat) (failed : Bool) : List MeshSlot :=
  let x := s.counter n
  (bitsSet x.pmask).map (fun core => {
    stype := 5, colour := x.colour, src := s.ownId, core := core
    slot := BitVec.ofNat 128 (n + (if x.sense then 0x100 else 0) + (if failed then 0x200 else 0) + x.inc.toNat * 0x10000) })

/-- Core arrivals at a counter (R265): counted in the episode of its SENSE, in the next one with Mode B, refused where
the counter is not the core's, and an overrun where the arrival is there already. Completed episodes (R266 to R270): a
LOCAL counter whose ARR equals PMASK releases; a MEMBER sends its die arrival to the root once; a ROOT adds its own bit,
and a die's arrival its bit, until DARR equals DMASK; a stale, refused or repeated die arrival is counted or raised; a
MEMBER releases on its root's Hoist of its INC and SENSE; a slot that is not on the mesh, or is another core's or a die's, changes
nothing. -/
def Obligations.CountersCountArrivalsAndRelease : Prop :=
  (∀ (s : State) (c : CoreId) (colour : BitVec 4) (slot : Slot), Clocked s → s.resetting colour.toNat = false →
    let n := (field slot 0 7).toNat
    let sense := bit slot 8
    let failed := bit slot 9
    let x := s.counter n
    let hit := coreArrival c.val colour slot
    let u := taken s hit
    let mine := x.valid = true ∧ x.colour = colour ∧ bit x.pmask c.val = true
    (¬ Waits s hit → exec (.barrierArrivalSlot c colour slot) s = .next s) ∧
    (Waits s hit → ¬ mine → exec (.barrierArrivalSlot c colour slot) s = .next (raiseD u c.val fBarrierRefused 13 (BitVec.ofNat 16 n) 0)) ∧
    (Waits s hit → mine → sense = x.sense → bit x.arr c.val = false →
      exec (.barrierArrivalSlot c colour slot) s = .next (u.setCounter n { x with arr := setBit x.arr c.val, fail := x.fail || failed })) ∧
    (Waits s hit → mine → sense ≠ x.sense → x.modeB = true → bit x.next c.val = false →
      exec (.barrierArrivalSlot c colour slot) s = .next (u.setCounter n { x with next := setBit x.next c.val, nextFail := x.nextFail || failed })) ∧
    (Waits s hit → mine → ((sense = x.sense ∧ bit x.arr c.val = true) ∨ (sense ≠ x.sense ∧ (x.modeB = false ∨ bit x.next c.val = true))) →
      exec (.barrierArrivalSlot c colour slot) s =
        .next (raiseD (u.setCounter n { x with fail := true }) c.val fBarrierOverrun 13 (BitVec.ofNat 16 n) 0))) ∧
  (∀ s : State, Clocked s →
    (∀ n : Fin 128,
      let x := s.counter n.val
      ((x.valid = false ∨ x.arr ≠ x.pmask) → exec (.counterLocalComplete n) s = .next s) ∧
      (x.valid = true → x.arr = x.pmask →
        (x.role = 0 → ∃ t, exec (.counterLocalComplete n) s = .next t ∧
          t = ({ s with mesh := s.mesh ++ hoists s n.val x.fail }).setCounter n.val (releasedCounter s x)) ∧
        (x.role = 1 → x.told = true → exec (.counterLocalComplete n) s = .next s) ∧
        (x.role = 1 → x.told = false → exec (.counterLocalComplete n) s = .next (sendSlot (s.setCounter n.val { x with told := true }) x.root 4 x.colour 0
          (BitVec.ofNat 128 (n.val + (if x.sense then 0x100 else 0) + (if x.fail then 0x200 else 0) + x.inc.toNat * 0x10000 + 0x40000000)))) ∧
        (x.role = 2 → setBit x.darr s.ownId.toNat ≠ x.dmask →
          exec (.counterLocalComplete n) s = .next (s.setCounter n.val { x with darr := setBit x.darr s.ownId.toNat })) ∧
        (x.role = 2 → setBit x.darr s.ownId.toNat = x.dmask → ∃ t, exec (.counterLocalComplete n) s = .next t ∧ t.counter n.val = releasedCounter s x))) ∧
    (∀ (src : BitVec 6) (colour : BitVec 4) (slot : Slot), s.resetting colour.toNat = false →
      let n := (field slot 0 7).toNat
      let x := s.counter n
      let hit := dieArrival src colour slot
      let hoist := slotOf 5 src colour slot
      let u := taken s hit
      let h := taken s hoist
      (¬ Waits s hit → exec (.dieArrivalSlot src colour slot) s = .next s) ∧
      (¬ Waits s hoist → exec (.hoistSlotMember src colour slot) s = .next s) ∧
      (Waits s hit → (x.valid = false ∨ field slot 16 8 ≠ x.inc) →
        exec (.dieArrivalSlot src colour slot) s = .next (u.setCounter n { x with stale := x.stale + 1 })) ∧
      (Waits s hit → x.valid = true → field slot 16 8 = x.inc → x.colour = colour → bit x.dmask src.toNat = true → bit x.darr src.toNat = false →
        setBit x.darr src.toNat ≠ x.dmask →
        exec (.dieArrivalSlot src colour slot) s = .next (u.setCounter n { x with darr := setBit x.darr src.toNat, fail := x.fail || bit slot 9 })) ∧
      (Waits s hit → x.valid = true → field slot 16 8 = x.inc → x.colour = colour → bit x.dmask src.toNat = true → bit x.darr src.toNat = false →
        setBit x.darr src.toNat = x.dmask → ∃ t, exec (.dieArrivalSlot src colour slot) s = .next t ∧ t.counter n = releasedCounter s x) ∧
      (Waits s hit → x.valid = true → field slot 16 8 = x.inc → (x.colour ≠ colour ∨ bit x.dmask src.toNat = false) →
        exec (.dieArrivalSlot src colour slot) s = .next (raiseUnit u fBarrierRefused x.colour 13 (some src) (BitVec.ofNat 16 n))) ∧
      (Waits s hit → x.valid = true → field slot 16 8 = x.inc → x.colour = colour → bit x.dmask src.toNat = true → bit x.darr src.toNat = true →
        exec (.dieArrivalSlot src colour slot) s =
          .next (raiseUnit (u.setCounter n { x with fail := true }) fBarrierOverrun x.colour 13 (some src) (BitVec.ofNat 16 n))) ∧
      (Waits s hoist → x.valid = true → x.role = 1 → x.root = src → x.colour = colour → field slot 16 8 = x.inc → bit slot 8 = x.sense →
        ∃ t, exec (.hoistSlotMember src colour slot) s = .next t ∧
          t = ({ h with mesh := h.mesh ++ hoists s n (bit slot 9) }).setCounter n (releasedCounter s x)) ∧
      (Waits s hoist → (x.valid = false ∨ x.role ≠ 1 ∨ x.root ≠ src ∨ x.colour ≠ colour ∨ field slot 16 8 ≠ x.inc ∨ bit slot 8 ≠ x.sense) →
        exec (.hoistSlotMember src colour slot) s = .next (h.setCounter n { x with stale := x.stale + 1 }))))

/-- HOIST_RECEIVE (R196, R268): the core's oldest outstanding arrival of that sense is gone, FAIL reaches an open step;
a STEP.END that waits for it commits the step and runs on, or with FAIL enters STEP_HALT with F_STEP_FAILED and fails
the job. A Hoist slot that is not on the mesh does nothing. -/
def Obligations.HoistsEndArrivalsAndSteps : Prop :=
  ∀ (s : State) (c : CoreId) (slot : Slot),
    let k := s.core c.val
    let n := (field slot 0 7).toNat
    let sense := bit slot 8
    let failed := bit slot 9
    let b := Table.get {} k.bars n
    let bars := Table.set {} k.bars n { b with out := removeFirst (· == sense) b.out }
    let job := (s.part k.colour.toNat).job
    let hit := ownHoist s c.val slot
    Clocked s → (¬ Waits s hit → exec (.hoistReceive c slot) s = .next s) ∧ (Waits s hit → s.resetting k.colour.toNat = false →
    (k.hold ≠ some (.stepEnd n sense) → exec (.hoistReceive c slot) s = .next (withCore (taken s hit) c { k with
      bars := bars, csr := { k.csr with stepFail := k.csr.stepFail || (failed && k.csr.stepOpen) } })) ∧
    (k.hold = some (.stepEnd n sense) → sense ∈ b.out →
      (failed = false → job.st ≠ .replaying → ∃ t, exec (.hoistReceive c slot) s = .next t ∧
        t.core c.val = { k with bars := bars, st := .run, hold := none, committedSince := BitVec.allOnes 256
                                csr := { k.csr with committed := k.csr.step, stepOpen := false } } ∧
        (t.part k.colour.toNat).job = { job with stepReplays := 0 } ∧ (∀ d : Nat, d ≠ c.val → t.core d = s.core d) ∧ t.log = s.log) ∧
      (failed = true → ∃ t, exec (.hoistReceive c slot) s = .next t ∧
        (t.core c.val).st = .stepHalt ∧ (t.core c.val).hold = none ∧ (t.core c.val).csr.committed = k.csr.committed ∧
        (t.part k.colour.toNat).job = { job with failed := true, lastFault := 0x0209 } ∧
        (k.csr.fault = 0 → (t.core c.val).csr.fault = 0x0209))))

/-- Signals received and interrupts (R274, R275, R285 to R287): a signal of colour 0 or of the core's colour sets the
flags of a powered core, any other raises F_SIGNAL_REFUSED, and one behind an earlier signal of its sender to that core waits; a coalesced vector forms one message with its COUNT in a new
stroke; the oldest message leaves for the own Hub, or with no Hub is dropped with F_INTR_DROPPED. Model choices:
assumptions 10 and 97. -/
def Obligations.SignalsSetFlagsAndInterruptsLeave : Prop :=
  ∀ s : State, Clocked s →
    (∀ (src : BitVec 6) (colour : BitVec 4) (slot : Slot),
      let hit := slotOf 6 src colour slot
      ((¬ Waits s hit ∨ s.signalBehind hit = true) → exec (.signalSlotReceive src colour slot) s = .next s) ∧
      (Waits s hit → s.signalBehind hit = false → s.resetting colour.toNat = false →
      let n := (field slot 0 6).toNat
      let k := s.core n
      let accepted := n < 48 ∧ k.on = true ∧ (colour = 0 ∨ colour = k.colour)
      (accepted → ∃ t, exec (.signalSlotReceive src colour slot) s = .next t ∧
        t.core n = { k with csr := { k.csr with flags := k.csr.flags ||| field slot 64 64 }, flagSets := k.flagSets ||| field slot 64 64 } ∧
        (∀ d, d ≠ n → t.core d = s.core d) ∧ t.mem = s.mem ∧ t.log = s.log) ∧
      (¬ accepted → exec (.signalSlotReceive src colour slot) s = .next (raiseRec (taken s hit) { (mkRec s fSignalRefused colour none 13) with
        peer := if src = s.ownId then none else some src, detail := BitVec.ofNat 16 n })))) ∧
    ((∀ col < 16, ∀ v < 64, (Table.get {} (s.part col).vectors v).count = 0) → exec .interruptCoalesce s = .next s) ∧
    (∀ col v : Nat, col < 16 → v < 64 →
      (∀ d < 16, ∀ w < 64, (d ≠ col ∨ w ≠ v) → (Table.get {} (s.part d).vectors w).count = 0) →
      let x := Table.get {} (s.part col).vectors v
      x.coal = true → x.mask = false → x.count ≠ 0 → x.fresh ≤ s.mast.stroke → s.queuedIntr col v = false →
      ∃ t, exec .interruptCoalesce s = .next t ∧
        t.intrs = s.intrs ++ [{ colour := BitVec.ofNat 4 col, vector := BitVec.ofNat 6 v, withdraw := false, count := x.count, stroke := x.stroke }] ∧
        Table.get {} (t.part col).vectors v = { x with count := 0 }) ∧
    (s.intrs = [] → exec .interruptSend s = .next s) ∧
    (∀ (m : IntrMsg) (rest : List IntrMsg), s.intrs = m :: rest →
      (s.hub = none → exec .interruptSend s = .next (fwCharge { s with intrs := rest } fIntrDropped m.colour 0)) ∧
      (∀ h, s.hub = some h → exec .interruptSend s = .next (sendSlot { s with intrs := rest } h 7 m.colour 0
        (BitVec.ofNat 128 ((if m.withdraw then 64 else m.vector.toNat) + m.count.toNat * 2 ^ 32 + m.stroke.toNat * 2 ^ 64)))))

/-! ### Mast time and bookings -/

/-- A Mast frame of the own Hub in order: colour 0, stroke n, a period of 1 to 1,000 microseconds, SRC below 3, no
reserved bit (R39, Table 3-2). -/
abbrev Sys2Proof.Stated.GoodFrame (s : State) (src : BitVec 6) (colour : BitVec 4) (slot : Slot) : Prop :=
  s.hub = some src ∧ colour = 0 ∧ 1 ≤ (field slot 64 10).toNat ∧ (field slot 64 10).toNat ≤ 1000 ∧ field slot 80 2 ≠ 3 ∧
  field slot 74 6 = 0 ∧ field slot 83 45 = 0

/-- MAST_FRAME (R39, R42, R44): a bad frame, and one of an earlier stroke, is discarded and counted; the frame of the
same stroke confirms it; the next stroke's begins it at phase 0 in LOCKED; a later one steps the stroke forward and is
counted in STEP_FORWARD; UNLOCKED needs two frames of consecutive strokes. The strokes the die makes itself (R44, R45,
R47, R61): HOLDOVER begins when c reaches C + floor(C / 16), further strokes pass each C, after 64 whole ones the Mast is
LOST with F_MAST_LOST logged, and a period change takes force at its stroke with C nominal, when firmware books the refresh slices
that the new period needs (R52). A frame that is not on the mesh does nothing. Model choices: assumptions 10 and 14. -/
def Obligations.MastFramesMoveTheStroke : Prop :=
  (∀ (s : State) (src : BitVec 6) (colour : BitVec 4) (slot : Slot), Clocked s → ¬ Waits s (slotOf 1 src colour slot) →
    exec (.mastFrame src colour slot) s = .next s) ∧
  (∀ (s : State) (src : BitVec 6) (colour : BitVec 4) (slot : Slot), Clocked s → Waits s (slotOf 1 src colour slot) →
    let m := s.mast
    let n : Word := field slot 0 64
    let more := m.discarded + 1
    let wrap := if m.discarded = 0xFFFFFFFF then setBit m.wrap 2 else m.wrap
    let newWrap := if m.discarded = 0xFFFFFFFF then setBit m.newWrap 2 else m.newWrap
    let fields := fun (t : State) => t.mast.stroke = n ∧ t.mast.st = .locked ∧ t.mast.lastStroke = some n ∧ t.mast.lastAge = 0 ∧ t.mem = s.mem
    (¬ GoodFrame s src colour slot → ∃ t, exec (.mastFrame src colour slot) s = .next t ∧
      t.mast = { m with discarded := more, wrap := wrap, newWrap := newWrap }) ∧
    (GoodFrame s src colour slot →
      (m.st ≠ .unlocked → n < m.stroke → ∃ t, exec (.mastFrame src colour slot) s = .next t ∧
        t.mast = { m with discarded := more, wrap := wrap, newWrap := newWrap, regress := true, newFlags := setBit m.newFlags 2 }) ∧
      (m.st ≠ .unlocked → n = m.stroke → ∃ t, exec (.mastFrame src colour slot) s = .next t ∧ fields t ∧
        t.mast.c = m.c ∧ t.mast.capC = m.capC ∧ t.mast.satur = (if m.st = .locked then m.satur else true)) ∧
      (m.st ≠ .unlocked → n.toNat = m.stroke.toNat + 1 → ∃ t, exec (.mastFrame src colour slot) s = .next t ∧ fields t ∧
        t.mast.c = 0 ∧ t.mast.stepFwd = m.stepFwd ∧
        t.mast.capC = (if m.lastStroke = some m.stroke ∧ m.changedAt ≤ m.stroke ∧ 1250 ≤ m.lastAge then m.lastAge else m.capC)) ∧
      (m.st ≠ .unlocked → m.stroke.toNat + 1 < n.toNat → ∃ t, exec (.mastFrame src colour slot) s = .next t ∧ fields t ∧
        t.mast.c = 0 ∧ t.mast.capC = m.capC ∧ t.mast.stepFwd = m.stepFwd + 1) ∧
      (m.st = .unlocked → (∃ l : Word, m.lastStroke = some l ∧ l.toNat + 1 = n.toNat) →
        ∃ t, exec (.mastFrame src colour slot) s = .next t ∧ fields t ∧ t.mast.c = 0) ∧
      (m.st = .unlocked → m.lastStroke = none → ∃ t, exec (.mastFrame src colour slot) s = .next t ∧
        t.mast.st = .unlocked ∧ t.mast.lastStroke = some n ∧ t.mast.stroke = m.stroke))) ∧
  (∀ s : State, Clocked s →
    let m := s.mast
    (m.st = .locked → m.capC + m.capC / 16 ≤ m.c → exec .holdoverEntry s = .next { s with mast := { m with
      st := .holdover, stroke := m.stroke + 1, c := m.c - m.capC, satur := false, hold := 0, holdC := m.c - m.capC, beats := m.beats + 1 } }) ∧
    ((m.st ≠ .locked ∨ m.c < m.capC + m.capC / 16) → exec .holdoverEntry s = .next s) ∧
    ((m.st = .holdover ∨ m.st = .lost) → m.capC ≤ m.c → exec .extrapolatedStroke s = .next { s with mast := { m with
      stroke := m.stroke + 1, c := m.c - m.capC, hold := m.hold + 1, beats := m.beats + 1 } }) ∧
    (m.st = .holdover → (64 < m.hold ∨ (m.hold = 64 ∧ m.holdC ≤ m.c)) → ∃ t, exec .mastLostEntry s = .next t ∧ t = { s with mast := t.mast, log := t.log } ∧
      t.mast = { m with st := .lost, lost := true, newFlags := setBit m.newFlags 0 } ∧
      (s.log.capq.length < 64 → ∃ r : LogRec, t.log.capq = s.log.capq ++ [r] ∧ r.code = 0x0601 ∧ r.stroke = m.stroke ∧ r.colour = 0)) ∧
    ((m.st ≠ .holdover ∨ m.hold < 64 ∨ (m.hold = 64 ∧ m.c < m.holdC)) → exec .mastLostEntry s = .next s) ∧
    (m.pend = true → m.st ≠ .unlocked → m.effective ≤ m.stroke →
      let m' := { m with period := m.next, capC := m.next.toNat * 1250, changedAt := m.effective, pend := false }
      (s.skovi.up = false → exec .periodChangeEffective s = .next { s with mast := m' }) ∧
      (s.skovi.up = true → 1 ≤ m.next.toNat → m.next.toNat ≤ 1000 → ∃ t, exec .periodChangeEffective s = .next t ∧ t.mast = m' ∧
        let b := Table.get {} t.dieBookings 0
        b.valid = true ∧ b.action = 1 ∧ b.period = 1 ∧ b.param.toNat + 1 = (8192 * m.next.toNat + 31999) / 32000)))

/-- BOOK, BOOKRD and BOOKRDS (R49, R54, R57, R192, Table 3-4): BOOK writes the 16 bytes sA, sB as core booking IMM[4:0]
unless a reserved field is set or the action is not permitted, when it raises F_RESERVED_SET and disarms; old contents that were
due are still owed their firing; BOOKRDS and BOOKRD return its two halves. Bookings that fire (R53 to R57, R114): with none due,
or in a cycle without a CCLK edge, nothing changes; the one due SIGNAL booking of a core sets its flag, counts the merged
occurrences as MISSED, and is disarmed, or with a period moved past them; owed contents fire and leave the entry; a due refresh
slice takes the next row of its half, the halves in turn, and changes no content. Model choices: assumption 83. -/
def Obligations.BookingsAreWrittenAndFire : Prop :=
  (∀ (s : State) (c : CoreId) (f : Fields), f.imm.toNat < 32 → f.x = 0 →
    let k := s.core c.val
    let i := f.imm.toNat
    let old := Table.get {} k.bookings i
    let x : BitVec 128 := (k.sreg f.b.toNat) ++ (k.sreg f.a.toNat)
    let new : Booking := { Booking.ofBits x with firedAt := old.firedAt }
    let owed := k.owed ++ (if old.valid && (old.due s.mast || old.catchup) && !old.skips then [(i, old)] else [])
    (Issues s c [f.a, f.b] → f.d = 0 → bookingBad true x = false →
      exec (.book c f) s = .next (withCore s c { (passed k 8) with
        owed := owed, bookings := Table.set {} k.bookings i { new with past := new.due s.mast } })) ∧
    (Issues s c [f.a, f.b] → f.d = 0 → bookingBad true x = true → ∃ t, exec (.book c f) s = .next t ∧
      (t.core c.val).st = .halted ∧ (t.core c.val).owed = owed ∧ (Table.get {} (t.core c.val).bookings i).valid = false) ∧
    (Issues s c [f.d] → f.a = 0 → f.b = 0 →
      exec (.bookrds c f) s = .next (withCore s c (passed (holding k f.d old.stroke) 8)) ∧
      exec (.bookrd c f) s = .next (withCore s c (passed (holding k f.d
        (BitVec.ofNat 64 (old.phase.toNat + old.period.toNat * 2 ^ 16 + old.action.toNat * 2 ^ 40 + old.colour.toNat * 2 ^ 44 +
          old.param.toNat * 2 ^ 48 + (if old.valid then 2 ^ 60 else 0) + (if old.drop then 2 ^ 61 else 0) + (if old.late then 2 ^ 62 else 0)))) 8)))) ∧
  (∀ s : State, Clocked s →
    ((s.dueBookings = [] ∨ s.edge = false) → exec .bookingFire s = .next s) ∧
    (∀ (c : CoreId) (i : Nat) (old : Option Booking),
      let k := s.core c.val
      let entry := Table.get {} k.bookings i
      let b := old.getD entry
      let n := b.merged s.mast
      let left := if old = none then { (b.after n) with late := b.late || b.past } else entry
      let flag : Word := BitVec.ofNat 64 (2 ^ (b.param.toNat % 64))
      s.edge = true → s.dueBookings = [⟨some c.val, i, old⟩] → (old = none → (b.due s.mast = true ∨ b.catchup = true) ∧ b.skips = false) → b.action = 7 →
      ∃ t, exec .bookingFire s = .next t ∧
        t.core c.val = { k with
          owed := (match old with | some x => eraseOnce (i, x) k.owed | none => k.owed)
          bookings := Table.set {} k.bookings i { left with firedAt := s.cclk + 1 }
          flagSets := k.flagSets ||| flag, csr := { k.csr with flags := k.csr.flags ||| flag } } ∧
        t.mast.missed = s.mast.missed + BitVec.ofNat 32 (n - 1) ∧ (∀ d : Nat, d ≠ c.val → t.core d = s.core d) ∧ t.mem = s.mem ∧
        (old = none → b.period = 0 → left.valid = false ∧ left.stroke = b.stroke) ∧
        (old = none → b.period ≠ 0 → left.valid = b.valid ∧ left.stroke = b.stroke + BitVec.ofNat 64 (n * b.period.toNat))) ∧
    (∀ (v : Fin 48) (upper : Bool),
      let half := if upper then 1 else 0
      let key := 2 * v.val + half
      let due := Table.get 0 s.mem.sliceDue v.val
      let turn := Table.get 0 s.mem.sliceNext v.val = half
      ((due = 0 ∨ ¬ turn) → exec (.refreshSlice v upper) s = .next s) ∧
      (0 < due → turn → ∃ t, exec (.refreshSlice v upper) s = .next t ∧ t = { s with mem := t.mem } ∧ t.mem.cells = s.mem.cells ∧
        t.mem.bad = s.mem.bad ∧ Table.get 0 t.mem.sliceDue v.val = due - 1 ∧ Table.get 0 t.mem.sliceNext v.val = 1 - half ∧
        Table.get 0 t.mem.sliceRow key = (Table.get 0 s.mem.sliceRow key + 1) % 4096)))



/-! ### Halyard links -/

/-- A half of 32 data lanes, from lane k on, can be repaired: at most two of them fail (R409). -/
def Sys2Proof.Stated.mendable (w : Word) (k : Nat) : Bool := decide (((List.range 32).filter (fun i => bit w (k + i))).length ≤ 2)

/-- REPAIR_MAP: the redundant lanes that the halves in use take for the failing lanes of each direction, the lower lane first
(R409, Table 19-20; assumption 113). -/
def Sys2Proof.Stated.spares (rx tx : Word) (low high : Bool) : Byte :=
  let bits := fun (w : Word) (k : Nat) =>
    let n := ((List.range 32).filter (fun i => bit w (k + i))).length
    if n = 0 then 0 else if n = 1 then 1 else 3
  BitVec.ofNat 8 ((if low then bits rx 0 + 16 * bits tx 0 else 0) + (if high then 4 * bits rx 32 + 64 * bits tx 32 else 0))

/-- Port states (R62 to R64, R66, R81, R92, R105, R400, R409, R410, Table 4-3): ENABLE trains a DISABLED or held port; DISABLE
rests it; RESET clears its counters and trains it again; a trained mainband sends its INIT at x64, or at x32 over the one half whose
lanes can be repaired; three attempts that fail at 32 GT/s go on at 16 GT/s and three there end DOWN; an option that a partner asks
for and that is not supported is answered with the nearest one, or counted; 17 replays enter RETRAIN; a retrain ends ACTIVE, is
tried again, or after three failures steps down a rung, which bounds the next training, or goes DOWN; a partner's request is
followed. The sideband (R66, R92): it comes up with a new link layer, is lost by report or by 4,096 CCLK of silence
and takes the port DOWN with it, and tells the partner a changed state. Model choices: assumptions 46, 47, 87, 104 and 113. -/
def Obligations.PortsChangeState : Prop :=
  (∀ (s : State) (p : PortId),
    let x := s.port p.val
    let becomes := fun (i : Instr) (f : Port → Prop) => ∃ t, exec i s = .next t ∧ f (t.port p.val)
    Powered s →
    ((x.st = .disabled ∨ x.held = true) →
      becomes (.portEnable p) (fun y => y.st = .training ∧ y.held = false ∧ y.vc3Side = true) ∧
      becomes (.hlCtrlEnable p) (fun y => y.st = .training ∧ y.held = false ∧ y.vc3Side = true)) ∧
    (x.st ≠ .disabled → x.held = false → exec (.portEnable p) s = .next s ∧ exec (.hlCtrlEnable p) s = .next s) ∧
    (x.st ≠ .disabled → becomes (.hlCtrlDisable p) (fun y => y.st = .disabled ∧ y.sbUp = false) ∧
      becomes (.hlCtrlReset p) (fun y => y.st = .training ∧ y.held = false ∧ y.flaps = [] ∧ y.counts = PortCounts.mk 0 0 0 0 0 0 0 0 0 0 0 0)) ∧
    (x.st = .disabled → exec (.hlCtrlDisable p) s = .next s ∧
      exec (.hlCtrlReset p) s = .next (s.setPort p.val { x with
        counts := PortCounts.mk 0 0 0 0 0 0 0 0 0 0 0 0, flaps := [], held := false, capX64 := true, capRate32 := true })) ∧
    (x.st = .training → x.sbUp = true → x.main.lastInit = none →
      let tries32 := x.capRate32 && x.askRate32 && !x.slow
      let failed := fun (i : Instr) =>
        (x.attempts < 2 → exec i s = .next (s.setPort p.val { x with attempts := x.attempts + 1 })) ∧
        (2 ≤ x.attempts → tries32 = true → exec i s = .next (s.setPort p.val { x with slow := true, attempts := 0 })) ∧
        (2 ≤ x.attempts → tries32 = false → becomes i (fun y => y.st = .down))
      failed (.trainingComplete p .failed) ∧
      (∀ (rx tx : Word) (rev : Bool),
        let low := mendable rx 0 && mendable tx 0
        let high := mendable rx 32 && mendable tx 32
        let wide := low && high && x.capX64 && x.askX64
        (low = false → high = false → failed (.trainingComplete p (.trained rx tx rev))) ∧
        ((low || high) = true → exec (.trainingComplete p (.trained rx tx rev)) s = .next (putInit (s.setPort p.val { x with
          x64 := wide, rate32 := tries32, reversed := rev, upper := !wide && !low
          repairMap := spares rx tx low (high && (wide || !low)) }) p .main))) ∧
      (∀ o ∈ [PartnerOption.standardPackage, .retimer, .lowPower],
        exec (.trainingComplete p (.asked o)) s = .next (s.setPort p.val { x with asks := x.asks + 1 })) ∧
      (∀ n : Nat, exec (.trainingComplete p (.asked (.width n))) s =
        let y := if 64 ≤ n then x else { x with askX64 := false }
        .next (if n = 64 ∨ n = 32 then s.setPort p.val y else { (s.setPort p.val y) with out := .offer p (if 64 ≤ n then .x64 else .x32) :: s.out }))) ∧
    (x.st = .active → x.main.replays = 17 → exec (.retrainEntry p) s = .next (s.setPort p.val
      { x with st := .retrain, stChanged := true, failedRetrains := 0, main := { x.main with resend := 0 } })) ∧
    (x.main.replays < 17 → exec (.retrainEntry p) s = .next s) ∧
    (x.st = .retrain → ∀ (ok : Bool) (rx tx : Word),
      let low := x.x64 || !x.upper
      let high := x.x64 || x.upper
      let mends := ok = true ∧ (low = true → (mendable rx 0 && mendable tx 0) = true) ∧ (high = true → (mendable rx 32 && mendable tx 32) = true)
      (mends → exec (.retrainAttemptDone p ok ⟨rx, tx⟩) s = .next (s.setPort p.val { x with
        st := .active, stChanged := true, repairMap := spares rx tx low high, failedRetrains := 0
        counts := { x.counts with retrain := satInc16 x.counts.retrain }
        main := { x.main with replays := 0, resend := x.main.retry.length, lastProgress := s.cclk, lastSent := s.cclk } })) ∧
      (¬ mends → x.failedRetrains < 2 → exec (.retrainAttemptDone p ok ⟨rx, tx⟩) s = .next (s.setPort p.val { x with
        failedRetrains := x.failedRetrains + 1, counts := { x.counts with retrain := satInc16 x.counts.retrain } })) ∧
      (¬ mends → 2 ≤ x.failedRetrains → (x.x64 = true ∨ x.rate32 = true) → becomes (.retrainAttemptDone p ok ⟨rx, tx⟩) (fun y =>
        y.st = .training ∧ y.capX64 = false ∧ y.capRate32 = (x.x64 && x.rate32))) ∧
      (¬ mends → 2 ≤ x.failedRetrains → x.x64 = false → x.rate32 = false → becomes (.retrainAttemptDone p ok ⟨rx, tx⟩) (fun y => y.st = .down))) ∧
    ((x.st = .disabled ∨ x.st = .down) → exec (.linkDown p) s = .next s) ∧
    (x.st ≠ .disabled → x.st ≠ .down → becomes (.linkDown p) (fun y => y.st = .down ∧
      y.flaps = x.flaps.filter (fun b => decide (s.mast.beats < b + 1024)) ++ [s.mast.beats])) ∧
    (x.sbUp = true → x.st ≠ .disabled →
      (x.held = false → (x.st = .training → x.main.lastInit.isSome = true) →
        becomes (.partnerTrainingRequest p .train) (fun y => y.st = .training)) ∧
      (x.st = .active → becomes (.partnerTrainingRequest p .retrain) (fun y => y.st = .retrain)) ∧
      becomes (.partnerTrainingRequest p .down) (fun y => y.st = .down))) ∧
  (∀ (s : State) (p : PortId),
    let x := s.port p.val
    let becomes := fun (i : Instr) (f : Port → Prop) => ∃ t, exec i s = .next t ∧ f (t.port p.val)
    let lost := fun (y : Port) => y.sbUp = false ∧ y.penBeat = none ∧ (x.st = .disabled ∨ y.st = .down)
    Powered s →
    (x.sbUp = false → x.st ≠ .disabled → becomes (.sidebandUp p) (fun y => y.sbUp = true ∧ y.vc3Side = true ∧ y.lastSb = s.cclk ∧ y.st = x.st)) ∧
    ((x.sbUp = true ∨ x.st = .disabled) → exec (.sidebandUp p) s = .next s) ∧
    (x.sbUp = true → becomes (.sidebandDown p) lost) ∧
    (x.sbUp = false → exec (.sidebandDown p) s = .next s) ∧
    (x.sbUp = true → x.st ≠ .active → x.lastSb + 4096 ≤ s.cclk → becomes (.sidebandSilence p) lost) ∧
    ((x.st = .active ∨ s.cclk < x.lastSb + 4096) → exec (.sidebandSilence p) s = .next s) ∧
    (x.sbUp = true → (x.stChanged = true ∨ x.st ≠ .active) → exec (.linkStateMessage p) s = .next
      { (s.setPort p.val { x with stChanged := false, lastLinkState := s.cclk }) with out := .linkState p x.st :: s.out }))

/-- The link layer receives (R64, R65, R70, R72, R79, R80): the first INIT of a training sets credits and sequences and
with ECHO enters ACTIVE; a NOP's trailer releases acknowledged flits and returns credits; a NAK also replays from its
SEQ; a flit with a bad CRC is counted and NAKed; one in sequence is taken where a buffer is free, a duplicate is
counted, any other is counted and NAKed; one of a reserved FTYPE gives its trailer and is logged (R67); a wrong length is no
flit. Model choices: assumptions 46, 49, 84 and 115. -/
def Obligations.LinkLayerReceives : Prop :=
  ∀ (s : State) (p : PortId) (path : Path), Powered s →
    let x := s.port p.val
    let l := x.link path
    (x.st = .training → x.main.gotInit = false → x.main.initDone = false → ∀ (counts : Word) (echo : Bool),
      ∃ t, exec (.initReceive p .main counts echo) s = .next t ∧
        (let y := t.port p.val
         y.main.gotInit = true ∧ y.main.txSeq = 0 ∧ y.main.expect = 0 ∧ y.main.retry = [] ∧
         y.main.credits = [(field counts 0 16).toNat, (field counts 16 16).toNat, (field counts 32 16).toNat,
           if x.vc3Side then 0 else (field counts 48 16).toNat] ∧
         y.vc3Total = (field counts 48 16).toNat ∧ y.st = (if echo || x.main.confirmed then .active else .training))) ∧
    (x.carries path = true → l.initDone = true →
      let heardNow := fun (y : Port) => match path with
        | .main => { y with lastHeard := s.mast.beats, silentSeen := false, lastFlit := s.mast.beats }
        | .side => { y with lastHeard := s.mast.beats, silentSeen := false, lastSb := s.cclk }
      (∀ tr : Trailer, ∃ t, exec (.nopReceive p path tr) s = .next t ∧
        t.port p.val = heardNow (x.setLink path (Link.take s.cclk tr { l with confirmed := true })) ∧ t.mem = s.mem ∧ t.tx = s.tx) ∧
      (∀ (tr : Trailer) (q : BitVec 10), ∃ t, exec (.nakReceive p path q tr) s = .next t ∧
        (let l' := Link.take s.cclk tr { l with confirmed := true }
         (t.port p.val).link path = l'.replay s.cclk (l'.fromSeq q) path ∧ (t.port p.val).counts.nakRx = x.counts.nakRx + 1)) ∧
      (∀ f : Flit, f.payload.length = 224 →
        (f.good = false → exec (.msgFlitReceive p path f) s = .next (sendNak (countPort s p 0) p path)) ∧
        (f.good = true → 4 ≤ f.ftype.toNat → exec (.msgFlitReceive p path f) s =
          .next (protocolError (s.setPort p.val (x.setLink path (Link.take s.cclk f.trailer l))) p f.colour f.src)) ∧
        (f.good = true → f.ftype = 1 → ∃ u : State,
          u.port p.val = x.setLink path (Link.take s.cclk f.trailer { l with confirmed := true }) ∧ (∀ q : Nat, q ≠ p.val → u.port q = s.port q) ∧
          u = { s with ports := u.ports } ∧
          (((l.expect - f.seq).toNat ≠ 0 ∧ (l.expect - f.seq).toNat ≤ 256) → ∃ t, exec (.msgFlitReceive p path f) s = .next t ∧
            (t.port p.val).counts.dup = x.counts.dup + 1 ∧ t.arrived = s.arrived ∧ t.tx = s.tx ∧ ((t.port p.val).link path).expect = l.expect) ∧
          (256 < (l.expect - f.seq).toNat → exec (.msgFlitReceive p path f) s = .next (sendNak (countPort u p 1) p path)) ∧
          (f.seq = l.expect → natAt x.rxHeld f.vc.toNat < natAt (bufferCounts path) f.vc.toNat →
            exec (.msgFlitReceive p path f) s = .next (takeFlit (heard (u.setPort p.val
              { ((u.port p.val).modLink path (fun l => { l with expect := l.expect + 1, ackDue := true })) with
                rxHeld := setAt x.rxHeld f.vc.toNat (natAt x.rxHeld f.vc.toNat + 1) }) p path) p path f))))) ∧
    (∀ f : Flit, f.payload.length ≠ 224 → exec (.msgFlitReceive p path f) s = .fault (.illFormed "MSG_FLIT_RECEIVE")) ∧
    (∀ t0 : Nat, l.lastInit = some t0 → l.initDone = false → x.st = .training → x.sbUp = true →
      exec (.initResend p path) s = .next (if t0 + 64 ≤ s.cclk then putInit s p path else s))

/-- The link layer sends (R69, R72, R75, R79, R80, R84, R92): a timer of 512 CCLK replays the retry buffer; owed
acknowledgements and an idle mainband send a NOP; a due replay goes first; a lone message of one flit takes a credit and
a sequence number and stays in the retry buffer; VC3 moves with its credits to the path it should use; what has no route
leaves the queue. Model choices: assumption 84. -/
def Obligations.LinkLayerSends : Prop :=
  ∀ (s : State) (p : PortId) (path : Path), Powered s →
    let x := s.port p.val
    let l := x.link path
    (x.carries path = true →
      (l.retry ≠ [] → l.replays < 16 → l.lastProgress + 512 ≤ s.cclk → ∃ t, exec (.replayTimer p path) s = .next t ∧
        (t.port p.val).link path = { l with replays := l.replays + 1, resend := l.retry.length, lastProgress := s.cclk } ∧
        (t.port p.val).counts.timerReplay = x.counts.timerReplay + 1) ∧
      ((l.retry = [] ∨ s.cclk < l.lastProgress + 512) → exec (.replayTimer p path) s = .next s) ∧
      ((l.ackDue = true ∨ l.freeDue = true) → exec (.ackTrailerDue p path) s = .next (putNop s p path)) ∧
      (l.ackDue = false → l.freeDue = false → exec (.ackTrailerDue p path) s = .next s) ∧
      (∀ f : Flit, l.replays < 17 → 0 < l.resend → l.retry[l.retry.length - l.resend]? = some f →
        exec (.flitTransmit p path) s = .next (putFlit (countPort (s.setPort p.val (x.setLink path { l with resend := l.resend - 1 })) p 5) p path f)) ∧
      (l.replays < 17 → l.resend = 0 → s.tx = [] → exec (.flitTransmit p path) s = .next s)) ∧
    (x.carries .main = true → exec (.idleNop p) s = .next (if x.main.lastSent + 1024 ≤ s.cclk then putNop s p .main else s)) ∧
    (∀ m : Msg, s.tx = [{ msg := m, port := some p }] → vcOf m.op = 0 → m.colour = 0 → m.data.length ≤ 224 → m.op ≠ 5 →
      x.carries .main = true → x.main.replays < 17 → x.main.resend = 0 → x.main.retry.length < 256 → 0 < natAt x.main.credits 0 →
      Table.get 0 x.fwdOpen 0 = 0 → s.member.fenced = false → s.member.id.isSome = true →
      ∃ t, exec (.flitTransmit p .main) s = .next t ∧ t.tx = [] ∧ (t.port p.val).main.txSeq = x.main.txSeq + 1 ∧
        (t.port p.val).main.retry = x.main.retry ++ [{ (m.flit 0 0 0) with seq := x.main.txSeq }] ∧
        (t.port p.val).main.credits = setAt x.main.credits 0 (natAt x.main.credits 0 - 1)) ∧
    (x.wantsSide = x.vc3Side → exec (.vc3PathMove p) s = .next s) ∧
    (x.vc3Side = true → x.st = .active → s.tx = [] → Table.get 0 x.fwdOpen 7 = 0 → x.side.retry = [] → x.vc3Total ≤ natAt x.side.credits 3 →
      x.main.initDone = true → exec (.vc3PathMove p) s = .next (s.setPort p.val { x with
        vc3Side := false, side := { x.side with credits := setAt x.side.credits 3 0 }
        main := { x.main with credits := setAt x.main.credits 3 (natAt x.side.credits 3) } })) ∧
    ((∀ y ∈ s.tx, y.port.isSome = true ∨ (s.outPort y).isSome = true) → exec .queuedMessageReroute s = .next s) ∧
    (∀ (m : Msg) (rest : List TxMsg) (q : Req), s.tx = { msg := m, port := none } :: rest → s.outPort { msg := m, port := none } = none →
      s.reqs.find? (fun r => isRequest m.op && r.tag == m.tag && r.die == m.dst) = some q →
      exec .queuedMessageReroute s = .next (settle { s with tx := rest } q 1 []))

/-! ### Messages and responses -/

/-- The answer that leaves for a request: from its destination to its source on VC1 with its TAG (R77, R88). -/
def Sys2Proof.Stated.answerTo (m : Msg) (op status : BitVec 4) (data : List Byte) : TxMsg :=
  { msg := { src := m.dst, dst := m.src, colour := m.colour, op := op, addr := m.addr, tag := m.tag, win := 0, winv := false
             status := status, ll := false, data := data, bad := false }
    port := none }

/-- Requests performed at their destination (R68, R69, R78, R119, R120, R143, R144, R220): a WRITE whose page the colour may
write puts its bytes and nothing else and is acknowledged; refused, it changes no byte; of one still arriving the whole granules
are performed; a READ answers the bytes; a LEDGER slot is added into its 16 bytes; a probe is acknowledged once no earlier request
of its source and colour waits; a whole WRITE to an entry with EA = 1 is acknowledged as it arrives and never again.
Model choices: assumptions 9, 49 and 50. -/
def Obligations.MessagesArePerformedWhole : Prop :=
  ∀ (s : State) (m : Msg),
    let a := m.addr.toNat
    let w := s.arrival m
    let page := s.check m.colour.toNat none (if m.winv then some m.win.toNat else none) true (a / 4096 * 4096) 4096
    let whole := (s.receiving m = none ∨ ∃ b ∈ s.arrived, b.msg = m) ∧ w.done = 0 ∧ w.hurt = false ∧ w.total = m.data.length
    let acked := fun (st : BitVec 4) => if w.acked then [] else [answerTo m 4 st []]
    Clocked s → (s.die m.src.toNat).st ≠ .absent → s.resetting m.colour.toNat = false → s.mem.bad = [] → s.mem.cmBad = [] → m.bad = false →
    (whole → m.op = 0 → 0 < m.data.length → a % 4096 + m.data.length ≤ 4096 →
      (page = .ok → ∃ t, exec (.writeMessage m) s = .next t ∧ t.tx = s.tx ++ acked 0 ∧
        (∀ y, t.byteAt y = if a ≤ y ∧ y < a + m.data.length then m.data.getD (y - a) 0 else s.byteAt y) ∧
        t.landed = s.landed ++ (if m.winv then [{ win := m.win, die := m.src, core := field m.tag 6 6, units := ceilDiv m.data.length 256 }] else []) ∧
        t.log = s.log ∧ t.cores = s.cores) ∧
      (page ≠ .ok → ∃ t, exec (.writeMessage m) s = .next t ∧ t.tx = s.tx ++ acked 3 ∧ t.mem = s.mem ∧ t.landed = s.landed)) ∧
    (∀ (p : PortId) (r : RxPart), (∀ b ∈ s.arrived, b.msg ≠ m) → s.receiving m = some (p, r) → m.op = 0 → r.done = 0 → page = .ok →
      let upTo := (a + m.data.length) / 64 * 64
      a < upTo → ∃ t, exec (.writeMessage m) s = .next t ∧ t.tx = s.tx ∧ t.arrived = s.arrived ∧
        (∀ y, t.byteAt y = if a ≤ y ∧ y < upTo then m.data.getD (y - a) 0 else s.byteAt y)) ∧
    (∀ n : Nat, leField m.data 0 4 = n →
      (1 ≤ n → n ≤ 4096 → s.check m.colour.toNat none none false a n = .ok →
        ∃ t, exec (.readMessage m) s = .next t ∧ t.tx = s.tx ++ [answerTo m 3 0 (s.bytesAt a n)] ∧ t.mem = s.mem ∧ t.log = s.log) ∧
      (1 ≤ n → n ≤ 4096 → s.check m.colour.toNat none none false a n ≠ .ok →
        ∃ t, exec (.readMessage m) s = .next t ∧ t.tx = s.tx ++ [answerTo m 3 3 []] ∧ t.mem = s.mem) ∧
      ((n = 0 ∨ 4096 < n) → ∃ t, exec (.readMessage m) s = .next t ∧ t.tx = s.tx ++ [answerTo m 3 5 []] ∧ t.mem = s.mem)) ∧
    (whole → m.op = 2 → m.data.length = 16 → a % 16 = 0 → page = .ok →
      ∃ t, exec (.ledgerMessage m) s = .next t ∧ t.tx = s.tx ++ acked 0 ∧
        (∀ y, t.byteAt y = if a ≤ y ∧ y < a + 16 then
          (leBytes 16 (ledgerAdd (Config.freeLedger s.free) (BitVec.ofNat 128 (leNat (s.bytesAt a 16))) (BitVec.ofNat 128 (leNat m.data))).toNat).getD (y - a) 0
          else s.byteAt y)) ∧
    (m.data = [] → s.arrived = [] →
      (s.receiving m = none → exec (.writeMessage m) s = .next { s with tx := s.tx ++ [answerTo m 4 0 []] }) ∧
      exec (.fenceProbe m) s = .next { s with tx := s.tx ++ [answerTo m 4 0 []] }) ∧
    (∀ b : Arrived, m.data = [] → s.arrived = [b] → b.msg ≠ m → isRequest b.msg.op = true → b.msg.src = m.src → b.msg.colour = m.colour →
      exec (.fenceProbe m) s = .next s) ∧
    (∀ (p : PortId) (path : Path) (vc : Nat) (r : RxPart) (e : Region), r.msg = m → m.op = 0 → r.total ≠ 0 → m.colour ≠ 0 → page = .ok →
      s.regionAt m.colour.toNat (a / 4096 * 4096) 4096 = some e →
      let early := bit e.attrs 3
      messageDone s p path vc r = { s with
        arrived := s.arrived ++ [{ msg := m, port := p, path := path, flits := 1, vc := vc, done := r.done, total := r.total, hurt := r.hurt, acked := early }]
        tx := s.tx ++ (if early then [answerTo m 4 0 []] else []) })

/-- Responses, timeouts and CTRL flits (R68, R71, R88, R146, R272, R297): a response ends the request of its TAG and die, waits
while the write of its bytes has no tokens, and is discarded where no request waits; a request unanswered for 2^17 CCLK ends with a
failed step of its core, and its TAG waits for the late response; a CTRL slot goes onto the mesh, and a broken CTRL message, or a
slot with a reserved bit, is logged at the port it came by. Model choices: assumptions 48, 86, 90, 94, 112 and 114. -/
def Obligations.ResponsesEndTheirRequests : Prop :=
  ∀ s : State, Clocked s →
    (∀ m : Msg, s.arrived = [] →
      ((∀ q ∈ s.reqs, q.tag ≠ m.tag) →
        let t := { s with late := s.late.filter (fun e => !(e.1 == m.tag && (e.2 == m.src || m.status == 1))) }
        exec (.readDataReceive m) s = .next t ∧ exec (.writeAckReceive m) s = .next t) ∧
      (∀ q : Req, s.reqs = [q] → q.tag = m.tag → (q.die = m.src ∨ m.status = 1) →
        (q.kind.wantsData = true →
          ((m.status ≠ 0 ∨ s.writeShort q = false) → exec (.readDataReceive m) s = .next (settle s q (m.status.setWidth 8) m.data)) ∧
          (m.status = 0 → s.writeShort q = true → ∃ t, exec (.readDataReceive m) s = .next t ∧ t.reqs = s.reqs ∧ t.mem = s.mem)) ∧
        (q.kind.wantsAck = true → exec (.writeAckReceive m) s = .next (settle s q (m.status.setWidth 8) m.data)) ∧
        (∀ c : Nat, q.kind = .fence c → m.status = 0 → exec (.writeAckReceive m) s = .next { s with reqs := [] }) ∧
        (∀ c : Nat, q.kind = .fence c → m.status ≠ 0 → ∃ t, exec (.writeAckReceive m) s = .next t ∧ t.reqs = [] ∧
          t.core c = { s.core c with fenceBad := true } ∧ t.mem = s.mem))) ∧
    (∀ tag : BitVec 12,
      ((∀ q ∈ s.reqs, q.tag = tag → ∀ t0, q.sentAt = some t0 → s.cclk < t0 + 2 ^ 17) → exec (.requestTimeout tag) s = .next s) ∧
      (∀ (q : Req) (c : CoreId), s.arrived = [] →
        s.reqs.find? (fun r => r.tag == tag && (match r.sentAt with | some t0 => decide (t0 + 2 ^ 17 ≤ s.cclk) | none => false)) = some q →
        q.kind = .fence c.val →
        ∃ t, exec (.requestTimeout tag) s = .next t ∧ t.reqs = removeFirst (fun r => r.tag == tag) s.reqs ∧ t.late = s.late ++ [(tag, q.die)] ∧
          (t.core c.val).fenceBad = true ∧ (t.core c.val).csr.stepFail = true ∧
          ((s.core c.val).csr.fault = 0 → (t.core c.val).csr.fault = 0x0505))) ∧
    (∀ m : Msg,
      let u := takeMsg s m
      let wrong := protocolError u (s.arrival m).port m.colour m.src
      (∀ (stype : Byte) (slot : Slot), m.bad = false → m.data = ctrlPayload stype slot → 1 ≤ stype.toNat → stype.toNat ≤ 7 →
        (slotReserved stype.toNat slot = false → exec (.ctrlFlitReceive m) s =
          .next { u with mesh := u.mesh ++ [{ stype := stype, colour := m.colour, src := m.src, core := 0, slot := slot }] }) ∧
        (slotReserved stype.toNat slot = true → exec (.ctrlFlitReceive m) s = .next wrong)) ∧
      ((m.bad = true ∨ leField m.data 221 3 ≠ 0) → exec (.ctrlFlitReceive m) s = .next wrong))



/-! ### Pennants and membership -/

/-- Pennants leave (R89, R91, R101): a PERIODIC one at once when a sideband comes up and again when it is due; after a
change a TRIGGERED one at once and in each of the next three strokes, its count one less, with the report that is owed; without
a sideband none. -/
def Obligations.PennantsLeaveWhenDue : Prop :=
  ∀ (s : State) (p : PortId), Powered s →
    let x := s.port p.val
    (x.sbUp = false → exec (.pennantPeriodicSend p) s = .next s ∧ exec (.pennantTriggeredSend p) s = .next s) ∧
    (x.sbUp = true → x.trig = 0 →
      (x.penBeat = none → exec (.pennantPeriodicSend p) s = .next (sendPennant s p false)) ∧
      (∀ b : Nat, x.penBeat = some b →
        (b + 1024 ≤ s.mast.beats → exec (.pennantPeriodicSend p) s = .next (sendPennant s p false)) ∧
        (s.member.id = none → b < s.mast.beats → exec (.pennantPeriodicSend p) s = .next (sendPennant s p false)) ∧
        (s.member.id.isSome = true → (s.partnerOf p.val).isSome = true → s.mast.beats < b + 1024 → exec (.pennantPeriodicSend p) s = .next s))) ∧
    (x.sbUp = true → 0 < x.trig → x.trig ≠ 4 → x.penBeat = some s.mast.beats → exec (.pennantTriggeredSend p) s = .next s) ∧
    (x.sbUp = true → 0 < x.trig → (x.trig = 4 ∨ x.penBeat ≠ some s.mast.beats) →
      ((s.member.owe = false ∨ s.member.assigner = true ∨ s.member.id = none) →
        exec (.pennantTriggeredSend p) s = .next ((sendPennant s p true).modPort p.val (fun y => { y with trig := y.trig - 1 }))) ∧
      (s.member.owe = true → s.member.assigner = false → s.member.id.isSome = true →
        ∃ t, exec (.pennantTriggeredSend p) s = .next t ∧ t.member = { s.member with changed := 0, owe := false } ∧ (t.port p.val).trig = x.trig - 1)) ∧
    (∀ trig : Bool, let t := sendPennant s p trig
      t.tx.length = s.tx.length + 1 ∧ (t.port p.val).penBeat = some s.mast.beats ∧ (t.port p.val).assign = none ∧
      (∃ m : TxMsg, t.tx = s.tx ++ [m] ∧ m.port = some p ∧ m.msg.ll = true ∧ m.msg.op = 6 ∧ m.msg.data.length = 88))

/-- Pennants arrive (R90, R93, R94, R104): a broken one is discarded and logged; the first of an ID on a usable port
makes its entry PROVISIONAL; one that names a held ID with another UID replaces the entry on the port that reaches it and is
logged on another; a CONFIRM_REQ of a known die is answered, of an unknown one held; a CONFIRM_ACK in time
with the NONCE and the own UID makes the entry VERIFIED, any other is discarded; a FENCE fences, and a REINSTATE frees,
the named ID. Model choices: assumptions 45, 116, 118 and 119. -/
def Obligations.PennantsChangeTheDieTable : Prop :=
  ∀ (s : State) (p : PortId) (pn : Pennant), Powered s →
    (∀ ll : Bool,
      let mine := fun (b : Arrived) => b.port == p && b.msg.ll == ll
      s.pennantBad pn mine = true → exec (.pennantLinkReceive p ll pn) s = .next (pennantConflict (takePennant s pn mine) p)) ∧
    (s.pennantBad pn (fun b => b.port == p && b.msg.ll == true) = false → (pn.kind = 0 ∨ pn.kind = 1) → pn.idV = true → pn.targetV = false → pn.epoch ≤ s.member.epoch →
      s.member.id ≠ some pn.dieId → (s.die pn.dieId.toNat).st = .absent → (s.die pn.dieId.toNat).fenced = false → (s.port p.val).usable = true →
      ∃ t, exec (.pennantLinkReceive p true pn) s = .next t ∧
        (let e := t.die pn.dieId.toNat
         e.st = .provisional ∧ e.count = 1 ∧ e.direct = true ∧ e.port = p ∧ e.dist = 1 ∧ e.uid = pn.uid ∧ e.role = pn.role) ∧
        (t.port p.val).partner = some (pn.dieId, true, pn.port, pn.role, pn.uid)) ∧
    (∀ src : BitVec 6, s.arrived = [] → pn.bad = false → pn.idV = true →
      let d := pn.dieId.toNat
      let e := s.die d
      (s.member.id = some pn.dieId → pn.uid ≠ Config.uid → exec (.confirmReqReceive p src pn) s = .next (pennantConflict s p)) ∧
      (s.member.id ≠ some pn.dieId → e.heldByOther pn.uid = true →
        (e.port = p → ∃ t, exec (.confirmReqReceive p src pn) s = .next t ∧ (t.die d).st = .provisional ∧ (t.die d).uid = pn.uid ∧ (t.die d).port = p) ∧
        (e.port ≠ p → ¬ (e.direct = true ∧ (s.port e.port.val).lastHeard + 16 ≤ s.mast.beats) →
          exec (.confirmReqReceive p src pn) s = .next (pennantConflict s p)))) ∧
    (∀ src : BitVec 6, s.arrived = [] → pn.bad = false → pn.epoch ≤ s.member.epoch →
      (pn.idV = false ∨ (s.member.id ≠ some pn.dieId ∧ (s.die pn.dieId.toNat).heldByOther pn.uid = false)) →
      ((s.die src.toNat).st = .absent → exec (.confirmReqReceive p src pn) s =
        .next { s with member := { s.member with held := s.member.held ++ [{ src := src, pn := pn, beat := s.mast.beats }] } }) ∧
      ((s.die src.toNat).st ≠ .absent → exec (.confirmReqReceive p src pn) s = .next (sendAck s src pn)) ∧
      (s.member.handshakes.any (fun h => h.id == src) = false → exec (.confirmAckReceive p src pn) s = .next s) ∧
      (∀ h : Handshake, s.member.handshakes.find? (fun x => x.id == src) = some h →
        ((h.nonce ≠ pn.nonce ∨ pn.peerUid ≠ Config.uid ∨ h.beat + 4 ≤ s.mast.beats) → exec (.confirmAckReceive p src pn) s = .next s) ∧
        (h.nonce = pn.nonce → pn.peerUid = Config.uid → s.mast.beats < h.beat + 4 → (s.die src.toNat).st = .provisional →
          (s.die src.toNat).fenced = false → (s.die src.toNat).uid = pn.uid → pn.incompatible = false →
          ∃ t, exec (.confirmAckReceive p src pn) s = .next t ∧ (t.die src.toNat).st = .verified ∧ (t.die src.toNat).uid = pn.uid ∧
            t.member.handshakes = s.member.handshakes.filter (fun x => x.id != src)))) ∧
    (s.arrived = [] → (pn.bad = true ∨ pn.targetV = false) →
      exec (.fencePennantReceive pn) s = .next (pennantConflict s (s.die pn.dieId.toNat).port) ∧
      exec (.reinstatePennantReceive pn) s = .next (pennantConflict s (s.die pn.dieId.toNat).port)) ∧
    (s.arrived = [] → pn.bad = false → pn.targetV = true → pn.epoch ≤ s.member.epoch →
      (s.member.id ≠ some pn.targetId →
        (∃ t, exec (.fencePennantReceive pn) s = .next t ∧ (t.die pn.targetId.toNat).fenced = true ∧ (t.die pn.targetId.toNat).st = .absent) ∧
        (∃ t, exec (.reinstatePennantReceive pn) s = .next t ∧ (t.die pn.targetId.toNat).fenced = false ∧
          (t.die pn.targetId.toNat).st = (s.die pn.targetId.toNat).st)) ∧
      (s.member.id = some pn.targetId → pn.peerUid ≠ Config.uid →
        exec (.fencePennantReceive pn) s = .next s ∧ exec (.reinstatePennantReceive pn) s = .next s) ∧
      (s.member.id = some pn.targetId → pn.peerUid = Config.uid →
        (∃ t, exec (.fencePennantReceive pn) s = .next t ∧ t.member.fenced = true ∧ t.member.health = 2 ∧ t.member.assigner = false) ∧
        (∃ t, exec (.reinstatePennantReceive pn) s = .next t ∧ t.member.fenced = false)))

/-- What time does to membership (R92 to R94, R96, R97, R99, R101): a handshake unanswered for 4 strokes drops the entry
and a held request expires; 16 silent strokes drop the partner; reports raise the epoch at the next stroke boundary; the
lowest UID takes over as assigner; reported dies get the lowest free ID; a failed route gives way to the best one. Model
choices: assumptions 44 and 45. -/
def Obligations.MembershipFollowsTime : Prop :=
  ∀ s : State, Powered s →
    let m := s.member
    let jobless := ∀ c : Nat, c < 16 → (s.part c).job.live = false
    (∀ id : BitVec 6,
      (m.handshakes.any (fun h => h.id == id) = false → exec (.handshakeTimeout id) s = .next s) ∧
      (∀ h, m.handshakes.find? (fun x => x.id == id) = some h →
        (s.mast.beats < h.beat + 4 → exec (.handshakeTimeout id) s = .next s) ∧
        (h.beat + 4 ≤ s.mast.beats → (s.die id.toNat).st = .provisional → ∃ t, exec (.handshakeTimeout id) s = .next t ∧
          (t.die id.toNat).st = .absent ∧ t.member.handshakes.any (fun x => x.id == id) = false)) ∧
      exec (.confirmHoldExpiry id) s = .next { s with member := { m with
        held := m.held.filter (fun h => !(h.src == id && decide (h.beat + 4 ≤ s.mast.beats))) } }) ∧
    (∀ p : PortId,
      let x := s.port p.val
      (s.mast.beats < x.lastHeard + 16 → exec (.partnerSilence p) s = .next s) ∧
      (x.silentSeen = false → x.partner.isSome = true → x.lastHeard + 16 ≤ s.mast.beats → ∃ t, exec (.partnerSilence p) s = .next t ∧
        (t.port p.val).silentSeen = true ∧
        (∀ d : Nat, d < 64 → (s.die d).direct = true → (s.die d).port = p → m.id ≠ some (BitVec.ofNat 6 d) → (t.die d).st = .absent))) ∧
    ((m.assigner = false ∨ m.reported = false ∨ m.epoch = 0xFFFFFFFF) → exec .epochIncrement s = .next s) ∧
    (m.assigner = true → m.reported = true → m.reportBeat < s.mast.beats → m.epoch ≠ 0xFFFFFFFF → jobless →
      ∃ t, exec .epochIncrement s = .next t ∧
        t.member = { m with epoch := m.epoch + 1, mask := m.reports, reports := 0, reported := false } ∧
        (∀ p : Nat, p < 4 → (s.port p).sbUp = true → (t.port p).trig = 4)) ∧
    (m.assigner = false → m.fenced = false → s.leaderUid = Config.uid → m.leaderSince + 4 ≤ s.mast.beats → jobless →
      m.dies.any (fun e => e.2.st == .verified && e.2.role == 1 && e.2.assigner) = false →
      ∃ t, exec .assignerTakeover s = .next t ∧ t.member.assigner = true ∧ t.member.id = some (m.id.getD 0) ∧
        t.member.epoch = (if m.epoch = 0 then 1 else m.epoch)) ∧
    ((m.assigner = true ∨ m.fenced = true ∨ s.leaderUid ≠ Config.uid ∨ s.mast.beats < m.leaderSince + 4) → exec .assignerTakeover s = .next s) ∧
    ((m.assigner = false ∨ m.wanting = []) → exec .idAssignRound s = .next s) ∧
    (∀ (w : Want) (d : BitVec 6), m.assigner = true → m.wanting = [w] → w.relay = none → m.wantBeat + 4 ≤ s.mast.beats →
      m.given.find? (fun g => g.1 == w.uid) = none → s.freeId = some d →
      ∃ t, exec .idAssignRound s = .next t ∧ t.member = { m with wanting := [], firstRound := false, given := m.given ++ [(w.uid, d)] } ∧
        (t.port w.port.val).assign = some (w.uid, d)) ∧
    ((∀ e ∈ m.dies, s.routeFails e.1 = false ∧ (m.id = some (BitVec.ofNat 6 e.1) ∨ s.reached e.1 = true)) →
      exec .routeRecompute s = .next s) ∧
    (∀ (q d : Nat) (f e : DieEntry) (r : PortId × Nat), q < d → d < 64 → m.dies = [(q, f), (d, e)] → m.id ≠ some (BitVec.ofNat 6 d) →
      s.routeFails q = false → s.reached q = true → s.routeFails d = true → s.bestRoute d = some r → ∃ t, exec .routeRecompute s = .next t ∧
        (t.die d).port = r.1 ∧ (t.die d).dist = BitVec.ofNat 3 r.2 ∧ (t.die d).st = e.st)

/-! ### Mailboxes -/

/-- The host may write mailbox mb: the admin mailbox, or that of a colour with a partition (R306). -/
abbrev Sys2Proof.Stated.HostMayWrite (s : State) (mb : Nat) : Prop := mb = 0 ∨ (s.part mb).present = true

/-- A message of a Hub whose range of n bytes lies in window mb, admitted by its colour, with nothing waiting before it, and whose
answer has a way back, over the sideband where the Hub is ABSENT (R103, R136, R304). -/
abbrev Sys2Proof.Stated.HubMessage (s : State) (m : Msg) (mb n : Nat) : Prop :=
  m.bad = false ∧ s.arrived = [] ∧ (s.die m.src.toNat).role = 1 ∧
    ((s.die m.src.toNat).st ≠ .absent ∨ (s.die m.src.toNat).sbReach = true) ∧ (m.colour = 0 ∨ m.colour.toNat = mb) ∧
    mbBase mb ≤ m.addr.toNat ∧ m.addr.toNat + n ≤ mbBase mb + 0x10000 ∧ 1 ≤ n ∧ n ≤ 4096

/-- Only mailbox mb changes between s and t, and it becomes x. -/
def Sys2Proof.Stated.OnlyMailbox (s t : State) (mb : Nat) (x : Mailbox) : Prop :=
  t = { s with mailboxes := t.mailboxes } ∧ t.mailbox mb = x ∧ ∀ m : Nat, m ≠ mb → t.mailbox m = s.mailbox m

/-- Mailbox windows (R136, R304 to R307, R317): REQ_TAIL and RSP_HEAD take a value in range, else TAIL_OVER or HEAD_OVER
is set; a window without a partition refuses with BAD_ACCESS; an MB_WRITE puts its bytes into request slots the host
owns and nowhere else, an MB_READ answers the window's bytes, a message from no Hub is refused whole, a malformed one
sets BAD_MESSAGE, one behind another of its mailbox waits, and a Pennant is no mailbox message. Model choices: assumption 57. -/
def Obligations.MailboxWindowsTakeTheHostsWrites : Prop :=
  ∀ (s : State) (mb : Fin 16), Clocked s →
    let b := s.mailbox mb.val
    let becomes := fun (i : Instr) (x : Mailbox) => ∃ t, exec i s = .next t ∧ OnlyMailbox s t mb.val x
    (¬ HostMayWrite s mb.val → ∀ v : Word,
      becomes (.reqTailWrite mb v) (b.raise 2) ∧ becomes (.rspHeadWrite mb v) (b.raise 2) ∧
      becomes (.doorbell mb) (b.raise 2)) ∧
    (HostMayWrite s mb.val → ∀ v : Word,
      let x : BitVec 16 := v.setWidth 16
      becomes (.reqTailWrite mb v)
        (if (x - b.reqHead).toNat ≤ 64 ∧ (x - b.reqSeen).toNat ≤ (x - b.reqHead).toNat then { b with reqTail := x } else (b.raise 0)) ∧
      becomes (.rspHeadWrite mb v)
        (if (x - b.rspHead).toNat ≤ (b.rspTail - b.rspHead).toNat then { b with rspHead := x } else (b.raise 1)) ∧
      becomes (.doorbell mb) { b with bell := true }) ∧
    (∀ (m : Msg) (d : List Byte),
      let off := m.addr.toNat - mbBase mb.val
      m.data = [0x10, 0, 0, 0, 0, 0, 0, 0] ++ d → HubMessage s m mb.val d.length →
        (HostMayWrite s mb.val → off + d.length ≤ 0x4000 → (∀ x < off + d.length, off ≤ x → b.skoviOwns (x / 256) = false) →
          ∃ t x, exec (.mbWrite m) s = .next { t with tx := s.tx ++ [answerTo m 6 0 [0x13, 0, 0, 0, 0, 0, 0, 0]] } ∧ OnlyMailbox s t mb.val x ∧
            x = { b with ram := x.ram } ∧ ∀ y, x.byte y = if off ≤ y ∧ y < off + d.length then d.getD (y - off) 0 else b.byte y) ∧
        (¬ HostMayWrite s mb.val → ∃ t, exec (.mbWrite m) s = .next { t with tx := s.tx ++ [answerTo m 6 0 [0x13, 0, 0, 0, 0, 0, 0, 0]] } ∧
          OnlyMailbox s t mb.val (b.raise 2))) ∧
    (∀ (m : Msg) (n : Nat), m.data = [0x11, 0] ++ leBytes 2 n ++ [0, 0, 0, 0] → HubMessage s m mb.val n →
      exec (.mbRead m) s = .next { s with tx := s.tx ++ [answerTo m 6 0 ([0x12, 0, 0, 0, 0, 0, 0, 0] ++ b.bytes (m.addr.toNat - mbBase mb.val) n)] }) ∧
    (∀ i : Nat, i < 4 → b.raise i = { b with err := setBit b.err i, newErr := setBit b.newErr i }) ∧
    (∀ m : Msg, leField m.data 0 1 = 1 → exec (.mbWrite m) s = .next s ∧ exec (.mbRead m) s = .next s) ∧
    (∀ (m : Msg) (a a' : Arrived), s.arrived = [a, a'] → a'.msg = m → a.msg ≠ m → a.msg.op = 6 → leField a.msg.data 0 1 ≠ 1 →
      mbBase mb.val ≤ a.msg.addr.toNat → a.msg.addr.toNat < mbBase mb.val + 0x10000 →
      mbBase mb.val ≤ m.addr.toNat → m.addr.toNat < mbBase mb.val + 0x10000 → exec (.mbWrite m) s = .next s ∧ exec (.mbRead m) s = .next s) ∧
    (∀ m : Msg, s.arrived = [] → (s.die m.src.toNat).st ≠ .absent → leField m.data 0 1 ≠ 0x11 → leField m.data 0 1 ≠ 1 →
      ((s.die m.src.toNat).role ≠ 1 → ∃ t, exec (.mbWrite m) s = .next t ∧
        t = { s with log := t.log, tx := s.tx ++ [answerTo m 6 3 [0x13, 0, 0, 0, 0, 0, 0, 0]] }) ∧
      (m.data.length ≤ 8 → (s.die m.src.toNat).role = 1 → (m.colour = 0 ∨ m.colour.toNat = mb.val) → mbBase mb.val ≤ m.addr.toNat →
        m.addr.toNat < mbBase mb.val + 0x10000 → ∃ t, exec (.mbWrite m) s = .next t ∧ t.mailbox mb.val = (b.raise 3) ∧
          t.tx = s.tx ++ [answerTo m 6 5 [0x13, 0, 0, 0, 0, 0, 0, 0]]))

/-- A mailbox that Skovi serves. -/
abbrev Sys2Proof.Stated.Serves (s : State) (mb : Nat) : Prop :=
  Clocked s ∧ s.skovi.up = true ∧ ((s.mailbox mb).st = .ready ∨ (s.mailbox mb).st = .resetting)

/-- Acceptance, posts and notification (R308, R310, R312, R317, R319, R397): a command is accepted under R310 only, with
a copy of its slot; a poll leaves nothing acceptable; a post writes the response slot, in the order of completion (R315), and
passes the answered slots; a post of a slot outside the accepted ones is logged; at most one notification leaves in a microsecond; HEARTBEAT rises
where the mailbox is served. Model choices: assumptions 56 and 58. -/
def Obligations.CommandsAreAcceptedAndPosted : Prop :=
  ∀ (s : State) (mb : Fin 16), Clocked s → s.skovi.up = true →
    let b := s.mailbox mb.val
    let may := b.reqSeen ≠ b.reqTail ∧ b.st = .ready ∧ ((b.reqSeen - b.reqHead).toNat - popcount b.done) + (b.rspTail - b.rspHead).toNat < 64
    (may → ∃ t, exec (.commandAccept mb) s = .next t ∧ OnlyMailbox s t mb.val { b with
      reqSeen := b.reqSeen + 1, accepted := b.accepted ++ [{ idx := b.reqSeen, bytes := b.bytes (b.reqSeen.toNat % 64 * 256) 256 }] }) ∧
    (¬ may → ∃ t, exec (.commandAccept mb) s = .next t ∧ OnlyMailbox s t mb.val b) ∧
    (popcount b.done ≤ (b.reqSeen - b.reqHead).toNat → ∃ t x, exec (.mailboxPoll mb) s = .next t ∧ OnlyMailbox s t mb.val x ∧
      x.accepts = false ∧ (∃ new : List Cmd, x.accepted = b.accepted ++ new ∧ x.reqSeen = b.reqSeen + BitVec.ofNat 16 new.length) ∧
      (¬ may → x = { b with bell := false })) ∧
    (∀ slot : BitVec 6, b.postBad slot.toNat = true →
      exec (.mbPost mb slot) s = .next (raiseUnit s fMailboxProtocol (BitVec.ofNat 4 mb.val) 16 none 0)) ∧
    (∀ (slot : BitVec 6) (c : Cmd) (st : BitVec 16) (p : List Byte), b.postBad slot.toNat = false →
      b.accepted.find? (fun x => x.idx.toNat % 64 == slot.toNat) = some c → c.resp = some (st, p) → p.length ≤ 240 → c.bytes.length = 256 →
      (b.finished.head? ≠ some c.idx → exec (.mbPost mb slot) s = .next s) ∧
      (b.finished.head? = some c.idx → ∃ t, exec (.mbPost mb slot) s = .next t ∧
        (let x := t.mailbox mb.val
         x.rspTail = b.rspTail + 1 ∧ x.finished = b.finished.filter (fun y => y != c.idx) ∧ x.accepted = b.accepted.filter (fun y => y.idx != c.idx) ∧ x.notify = (b.notify || !c.quiet) ∧
         x.bytes (0x4000 + b.rspTail.toNat % 64 * 256) 256 =
          leBytes 2 st.toNat ++ (c.bytes.drop 2).take 2 ++ leBytes 2 p.length ++ c.bytes.take 2 ++ leBytes 2 c.idx.toNat ++ leBytes 6 0 ++
            p ++ List.replicate (240 - p.length) 0) ∧
        (c.opcode = 0x21 → st = 0 → t.boot.warmAt = some (BitVec.ofNat 4 mb.val, b.rspTail, s.now)) ∧
        ((c.opcode ≠ 0x21 ∨ st ≠ 0) → t.boot = s.boot) ∧
        (b.done = 0 → b.reqHead.toNat % 64 = slot.toNat → (t.mailbox mb.val).reqHead = b.reqHead + 1 ∧ (t.mailbox mb.val).done = 0) ∧
        (b.done = 0 → b.reqHead.toNat % 64 ≠ slot.toNat → (t.mailbox mb.val).reqHead = b.reqHead ∧ (t.mailbox mb.val).done = setBit 0 slot.toNat))) ∧
    (b.notify = false → exec (.mbNotify mb) s = .next s) ∧
    (∀ x : Nat, b.lastNotify = some x → s.now < x + 1250 → exec (.mbNotify mb) s = .next s) ∧
    (b.notify = true → (∀ x : Nat, b.lastNotify = some x → x + 1250 ≤ s.now) → ∃ t, exec (.mbNotify mb) s = .next t ∧
      t.mailbox mb.val = { b with notify := false, lastNotify := some s.now } ∧
      (s.hub = none → t.tx = s.tx) ∧
      (∀ h, s.hub = some h → ∃ m : Msg, t.tx = s.tx ++ [{ msg := m, port := none }] ∧ m.dst = h ∧ m.op = 6 ∧ m.addr.toNat = mbBase mb.val ∧
        m.data = [0x02, BitVec.ofNat 8 mb.val] ++ leBytes 2 b.rspTail.toNat ++ leBytes 4 b.mbEpoch.toNat)) ∧
    (∃ t, exec .heartbeatTick s = .next t ∧ t = { s with mailboxes := t.mailboxes } ∧ ∀ m : Nat, m < 16 →
      t.mailbox m = (if (s.mailbox m).st = .ready ∨ (s.mailbox m).st = .resetting then { s.mailbox m with heartbeat := (s.mailbox m).heartbeat + 1 } else s.mailbox m))

/-- A restart of Skovi (R320, R329, R361): every mailbox that is not OFFLINE reads RESTARTING, firmware stops, and
cores, windows, ports and memory go on; at its end MB_EPOCH has risen, each accepted command but a running partition
reset has left with ST_RESTARTED, and mailboxes are READY or RESETTING; an activation that does not come up falls back
to the build before once 50 ms have passed. Model choices: assumptions 62, 63 and 80. -/
def Obligations.SkoviRestartsWithoutStoppingTheDie : Prop :=
  ∀ s : State, Clocked s →
    let asked := fun (x : RestartCause) => ∃ t, exec (.skoviRestart x) s = .next t ∧ t.skovi.up = false ∧ t.skovi.restarting = true ∧
      t.skovi.restartAt = s.now ∧ t.skovi.transfers = [] ∧
      (∀ m : Nat, m < 16 → t.mailbox m = (if (s.mailbox m).st = .offline then s.mailbox m else { s.mailbox m with st := .restarting })) ∧
      t.cores = s.cores ∧ t.windows = s.windows ∧ t.ports = s.ports ∧ t.mem = s.mem ∧ t.counters = s.counters
    (s.skovi.up = false → ∀ x, exec (.skoviRestart x) s = .next s) ∧
    (s.skovi.up = true → asked .watchdog ∧ asked .parity ∧ (s.activationPosted = true → asked .activation) ∧
      (s.activationPosted = false → exec (.skoviRestart .activation) s = .next s)) ∧
    (s.skovi.restarting = false → exec .skoviRestartDone s = .next s) ∧
    (s.skovi.restarting = true → s.skovi.restarts.length < 3 → ∃ t, exec .skoviRestartDone s = .next t ∧ t.skovi.up = true ∧
      t.skovi.restarting = false ∧ t.skovi.mbEpoch = s.skovi.mbEpoch + 1 ∧ t.cores = s.cores ∧ t.windows = s.windows ∧ t.mem = s.mem ∧
      (∀ m : Nat, m < 16 → (s.mailbox m).st ≠ .restarting → t.mailbox m = s.mailbox m) ∧
      (∀ m : Nat, m < 16 → (s.mailbox m).st = .restarting →
        (t.mailbox m).mbEpoch = s.skovi.mbEpoch + 1 ∧ ((t.mailbox m).st = .ready ∨ (t.mailbox m).st = .resetting) ∧
        (∀ c ∈ (t.mailbox m).accepted, c ∈ (s.mailbox m).accepted ∧ c.running = true ∧ c.opcode = 0x0062) ∧
        (t.mailbox m).rspTail = (s.mailbox m).rspTail +
          BitVec.ofNat 16 ((s.mailbox m).accepted.filter (fun c => !(c.running && c.opcode == 0x0062))).length)) ∧
    (s.skovi.restarting = true → s.skovi.activating = true → s.skovi.restartAt + 62500000 ≤ s.now → ∃ t, exec .fwActivateFallback s = .next t ∧
      t.skovi.restartAt = s.now ∧ t.skovi.active = s.skovi.prev ∧ t.skovi.activeSha = s.skovi.prevSha ∧ t.boot.image = s.skovi.prevImage ∧ t.skovi.activating = false) ∧
    ((s.skovi.restarting = false ∨ s.skovi.activating = false ∨ s.now < s.skovi.restartAt + 62500000) → exec .fwActivateFallback s = .next s)

/-! ### Mailbox commands: checks and reports -/

/-- The command at index i of mailbox mb may run, has this opcode, passes the header checks and the mailbox's, and its
payload p fits its layout (R313 to R315, R324, R326). -/
abbrev Sys2Proof.Stated.Runs (s : State) (mb : Fin 16) (i : BitVec 16) (op : Nat) (layout : Layout) (p : List Byte) : Prop :=
  Serves s mb.val ∧ layout.fits p = true ∧ mailboxTakes mb.val op p = true ∧
    ∃ c ∈ s.waitingCmd mb.val i, c.opcode = op ∧ s.mayStart mb.val c = true ∧ headerStatus c.bytes true = 0 ∧ c.payload = p

/-- The die once the command at index i of mailbox mb is performed and the mailbox has had its turn (R308, R315). -/
def Sys2Proof.Stated.responded (s : State) (mb : Nat) (i st : BitVec 16) (b : List Byte) : State := serve (answer s mb i st b) mb

/-- A command that moves bulk data may run, and neither it nor a transfer of it is at work (R314; assumption 129). -/
abbrev Sys2Proof.Stated.Begins (s : State) (mb : Fin 16) (i : BitVec 16) (op : Nat) (layout : Layout) (p : List Byte) : Prop :=
  Runs s mb i op layout p ∧ s.atWork mb.val i op = none ∧ s.transfersOf (.cmd mb.val i) = []

/-- A command at work does nothing while it waits; then it ends in ST_BULK_FAILED where a transfer failed, else as u says
(R314, R325). -/
def Sys2Proof.Stated.Concludes (j : Instr) (s : State) (mb : Nat) (i : BitVec 16) (op : Nat) (u : Cmd → State) : Prop :=
  Clocked s → s.skovi.up = true → ∀ c, s.atWork mb i op = some c →
    (s.cmdReady mb c = false → exec j s = .next s) ∧
    (s.cmdReady mb c = true → s.cmdFailed mb c = true → exec j s = .next (finishCmd s mb c 0x0501 [])) ∧
    (s.cmdReady mb c = true → s.cmdFailed mb c = false → exec j s = .next (u c))

/-- The first message of a transfer of n bytes begun on s: colour 0, to the reference's die, up to the end of its page (R18, R25,
R78, R314). -/
def Sys2Proof.Stated.FirstPart (s v : State) (r : BulkRef) (op : BitVec 4) (data : List Byte) : Prop :=
  (∀ x ∈ s.skovi.transfers, x.due = false) → ∀ tag, freshTag s skoviTag = some tag → ∃ m more, v.tx = s.tx ++ { msg := m, port := none } :: more ∧
    m.dst = r.die ∧ m.colour = 0 ∧ m.op = op ∧ m.tag = tag ∧ m.addr = BitVec.ofNat 40 r.addr ∧ m.data = data

/-- A command j begun on s writes data to a bulk reference, at most its LENGTH bytes, from the state t; its report waits for the
WRITEs, or the command goes on at once where there is nothing to write (R314, R325). -/
def Sys2Proof.Stated.Delivers (j : Instr) (s t : State) (mb : Nat) (i : BitVec 16) (op : Nat) (r : BulkRef) (data report : List Byte) : Prop :=
  let v := serve (writeBulk t mb i r data report) mb
  (∃ c, v.atWork mb i op = some c ∧ c.report = report ∧ v.cmdReady mb c = (data.take r.len == [])) ∧
  (data.take r.len = [] → exec j s = exec j v) ∧
  (data.take r.len ≠ [] → exec j s = .next v ∧ FirstPart t v r 0 ((data.take r.len).take (4096 - r.addr % 4096)))

/-- A command j begun on s reads a bulk reference and goes on in phase n once the bytes are here (R314). -/
def Sys2Proof.Stated.Fetches (j : Instr) (s : State) (mb : Nat) (i : BitVec 16) (op : Nat) (r : BulkRef) (n : Nat) : Prop :=
  let v := serve (readBulk s mb i r n) mb
  (∃ c, v.atWork mb i op = some c ∧ c.phase = n ∧ v.cmdReady mb c = (r.len == 0)) ∧
  (r.len = 0 → exec j s = exec j v) ∧
  (r.len ≠ 0 → exec j s = .next v ∧ FirstPart s v r 1 (leBytes 4 (min r.len (4096 - r.addr % 4096))))

/-- The checks of every mailbox command, in order (R313, R315, R324): a nonzero reserved header field, a LEN above 240,
another major level, an opcode that is unknown, a mailbox that does not take it: each answers its status and nothing
else; a command that may not start, or that is not there, changes nothing; the admin mailbox starts before the partition
mailboxes, and these in turn after the one served last. Model choices: assumption 60. -/
def Obligations.CommandsAreCheckedInOrder : Prop :=
  ∀ (s : State) (mb : Fin 16) (i : BitVec 16) (man : Option Manifest) (tests : List ArrayReport) (x : Nat × Instr), Serves s mb.val →
    s.atWork mb.val i x.1 = none →
    x ∈ ([(0x01, .identify mb i), (0x02, .fwInfo mb i), (0x10, .fwStage mb i .overPorts), (0x11, .fwActivate mb i), (0x20, .dieState mb i),
      (0x21, .warmReset mb i), (0x30, .mastConfig mb i), (0x31, .mastStatus mb i), (0x40, .linkStatus mb i), (0x41, .linkReset mb i),
      (0x50, .peerTable mb i .overPorts), (0x51, .dieFence mb i), (0x52, .dieReinstate mb i), (0x60, .partCreate mb i), (0x61, .partDestroy mb i),
      (0x62, .partReset mb i), (0x63, .partQuery mb i), (0x70, .qosSet mb i), (0x71, .powerPlan mb i), (0x80, .telemetry mb i .overPorts),
      (0x81, .errlogRead mb i .overPorts), (0x82, .errlogClear mb i), (0x90, .arrayMap mb i), (0xA0, .debugChallenge mb i), (0xA1, .debugUnlock mb i),
      (0x100, .imageStage mb i man .overPorts .overPorts), (0x101, .imageCommit mb i), (0x102, .imageQuery mb i), (0x103, .imageEvict mb i),
      (0x110, .rqCreate mb i), (0x111, .rqBind mb i), (0x120, .jobLaunch mb i .overPorts tests), (0x121, .jobAbort mb i), (0x122, .jobStatus mb i),
      (0x130, .indexAttach mb i), (0x131, .indexDetach mb i), (0x140, .intrConfig mb i), (0x150, .replayPolicy mb i),
      (0x160, .partTelemetry mb i .overPorts)] : List (Nat × Instr)) →
    (s.waitingCmd mb.val i = none → exec x.2 s = .next s) ∧
    ∀ c, s.waitingCmd mb.val i = some c →
      let rsv := leField c.bytes 6 1 / 4 ≠ 0 ∨ leField c.bytes 7 1 ≠ 0 ∨ leField c.bytes 10 6 ≠ 0
      let long := 240 < leField c.bytes 4 2
      let lvl := leField c.bytes 8 1 ≠ 2
      let own := if mb.val = 0 then x.1 < 0x100 else 0x100 ≤ x.1 ∨ (x.1 = 0x62 ∧ leField c.payload 0 1 % 16 = mb.val)
      let gives := fun (j : Instr) (st : BitVec 16) => exec j s = .next (responded s mb.val i st [])
      ((c.opcode ≠ x.1 ∨ s.mayStart mb.val c = false) → exec x.2 s = .next s) ∧
      (c.opcode = x.1 → s.mayStart mb.val c = true →
        (rsv → gives x.2 0x0101) ∧
        (¬ rsv → long → gives x.2 0x0102) ∧
        (¬ rsv → ¬ long → lvl → gives x.2 0x0103) ∧
        (¬ rsv → ¬ long → ¬ lvl → ¬ own → gives x.2 0x0105)) ∧
      (c.opcode ∉ knownOpcodes → s.mayStart mb.val c = true →
        (rsv → gives (.unknownOpcodeCommand mb i) 0x0101) ∧
        (¬ rsv → long → gives (.unknownOpcodeCommand mb i) 0x0102) ∧
        (¬ rsv → ¬ long → lvl → gives (.unknownOpcodeCommand mb i) 0x0103) ∧
        (¬ rsv → ¬ long → ¬ lvl → gives (.unknownOpcodeCommand mb i) 0x0104)) ∧
      (c.opcode ∈ knownOpcodes → exec (.unknownOpcodeCommand mb i) s = .next s) ∧
      (s.skovi.lastMb ≤ 15 → (s.mayStart mb.val c = true ↔ s.canStart mb.val c = true ∧ (mb.val ≠ 0 → s.hasStart 0 = false ∧
        ∀ k : Nat, 1 ≤ k → k ≤ 15 → (k + 14 - s.skovi.lastMb) % 15 < (mb.val + 14 - s.skovi.lastMb) % 15 → s.hasStart k = false)))

/-- The admin reports (R327, R328, R331, R356): IDENTIFY, FW_INFO, DIE_STATE, MAST_STATUS with its CLEAR, LINK_STATUS,
PEER_TABLE, PART_QUERY, TELEMETRY, ERRLOG_READ, ERRLOG_CLEAR and ARRAY_MAP answer the state in the layout of Table 16-2
and change nothing else; those that write to a bulk reference answer once it is written. Model choices: assumptions 9, 64 and 129. -/
def Obligations.AdminReportsAnswerTheState : Prop :=
  ∀ (s : State) (mb : Fin 16) (i : BitVec 16) (p : List Byte),
    let gives := fun (j : Instr) (t : State) (st : BitVec 16) (b : List Byte) => exec j s = .next (responded t mb.val i st b)
    (Runs s mb i 0x01 [] p → gives (.identify mb i) s 0 (leBytes 2 0x0040 ++ [0xB1, BitVec.ofNat 8 (s.ownId.toNat + (if s.member.id.isSome then 64 else 0))] ++
      leBytes 4 0 ++ leBytes 8 Config.uid.toNat ++ leBytes 2 0x0204 ++ leBytes 2 0 ++ leBytes 4 s.skovi.active.toNat)) ∧
    (Runs s mb i 0x02 [] p → gives (.fwInfo mb i) s 0 (leBytes 4 s.skovi.active.toNat ++ leBytes 48 s.skovi.activeSha.toNat ++
      (match s.skovi.staged with
        | some g => leBytes 4 (imageBuild g).toNat ++ leBytes 48 (Config.sha384 g).toNat
        | none => leBytes 52 0) ++ leBytes 48 Config.fwKeyHash.toNat)) ∧
    (Runs s mb i 0x20 [] p → ∃ b, gives (.dieState mb i) s 0 b ∧ b.length = 33 ∧ leField b 0 1 = s.member.health.toNat ∧
      leField b 1 1 = (match s.mast.st with | .unlocked => 0 | .locked => 1 | .holdover => 2 | .lost => 3) ∧
      leField b 4 1 = (if s.member.fenced then 1 else 0) ∧ leField b 8 4 = s.member.epoch.toNat ∧ leField b 12 4 = s.skovi.mbEpoch.toNat ∧
      leField b 16 2 = s.mem.layersOn.toNat) ∧
    (Runs s mb i 0x31 [(0, 1, 0x01)] p → ∃ b, b.length = 36 ∧ leField b 2 2 = s.mast.period.toNat ∧ leField b 8 8 = s.mast.stroke.toNat ∧
      leField b 24 4 = s.mast.stepFwd.toNat ∧ leField b 28 4 = s.mast.missed.toNat ∧ leField b 32 4 = s.mast.discarded.toNat ∧
      (leField p 0 1 = 0 → gives (.mastStatus mb i) s 0 b) ∧
      (leField p 0 1 = 1 → gives (.mastStatus mb i) { s with mast := { s.mast with lost := false, regress := false } } 0 b)) ∧
    (Runs s mb i 0x40 [] p → gives (.linkStatus mb i) s 0 ((s.port 0).report ++ (s.port 1).report ++ (s.port 2).report ++ (s.port 3).report)) ∧
    (Runs s mb i 0x63 [(0, 1, 0x0F)] p →
      ((s.part (leField p 0 1)).present = false → gives (.partQuery mb i) s 0x0204 []) ∧
      ((s.part (leField p 0 1)).present = true → gives (.partQuery mb i) s 0 (s.part (leField p 0 1)).report)) ∧
    (Runs s mb i 0x90 [(0, 1, 0x3F)] p → gives (.arrayMap mb i) s 0 ((List.range 16).flatMap (fun k => s.arrayReport (leField p 0 1 + k)))) ∧
    (Runs s mb i 0x82 [] p → gives (.errlogClear mb i) { s with log := { s.log with entries := [], overflow := 0 } } 0 (leBytes 2 s.log.overflow.toNat)) ∧
    Concludes (.peerTable mb i .overPorts) s mb.val i 0x50 (fun c => finishCmd (if leField c.payload 0 1 = 1 then refreshRoutes s else s) mb.val c 0 c.report) ∧
    Concludes (.telemetry mb i .overPorts) s mb.val i 0x80 (fun c => finishCmd s mb.val c 0 c.report) ∧
    Concludes (.errlogRead mb i .overPorts) s mb.val i 0x81 (fun c => finishCmd s mb.val c 0 c.report) ∧
    (Begins s mb i 0x50 ((0, 1, 0x01) :: bulkBits 8) p →
      (s.bulk p 8 = none → gives (.peerTable mb i .overPorts) s 0x0101 []) ∧
      (∀ r, s.bulk p 8 = some r →
        let t := if leField p 0 1 = 1 then refreshRoutes s else s
        Delivers (.peerTable mb i .overPorts) s s mb.val i 0x50 r ((List.range 64).flatMap (fun d => (t.die d).report))
          (leBytes 4 t.member.epoch.toNat ++ leBytes 4 2048))) ∧
    (Begins s mb i 0x80 ((0, 1, 0xFF) :: bulkBits 8) p →
      ((s.bulk p 8 = none ∨ 5 ≤ leField p 0 1) → gives (.telemetry mb i .overPorts) s 0x0101 []) ∧
      (∀ r, s.bulk p 8 = some r → leField p 0 1 ≤ 4 →
        let t := if leField p 0 1 = 0 then countConflicts s else s
        let data := (t.extended (leField p 0 1)).flatMap (fun v => leBytes 8 v.toNat)
        Delivers (.telemetry mb i .overPorts) s t mb.val i 0x80 r data (leBytes 8 data.length ++ leBytes 8 s.mast.stroke.toNat))) ∧
    (Begins s mb i 0x81 ([(0, 4, 0xFF), (4, 4, 0)] ++ bulkBits 8) p →
      ((s.bulk p 8 = none ∨ 512 < leField p 2 2) → gives (.errlogRead mb i .overPorts) s 0x0101 []) ∧
      (∀ r, s.bulk p 8 = some r → leField p 2 2 ≤ 512 →
        let data := (s.log.readFrom (BitVec.ofNat 16 (leField p 0 2)) (leField p 2 2)).flatMap LogRec.report
        Delivers (.errlogRead mb i .overPorts) s s mb.val i 0x81 r data (leBytes 2 (s.log.nextIndex - BitVec.ofNat 16 s.log.entries.length).toNat ++
          leBytes 2 s.log.entries.length ++ leBytes 2 s.log.overflow.toNat ++ leBytes 2 data.length)))

/-- The admin commands with an effect on firmware, time, links and membership (R104, R296, R298, R301, R329 to R332,
R336), each under the common checks: FW_STAGE reads the bulk reference and stages an image of good form and signature,
else ST_AUTH_FAILED; FW_ACTIVATE takes the staged build of level 2; WARM_RESET is answered where FORCE is set or no
partition is present; MAST_CONFIG schedules a period for a stroke at least two ahead; LINK_RESET resets a port;
DIE_FENCE and DIE_REINSTATE change FENCED of the named ID and UID; QOS_SET sets the weights or an entry that waits for
the refill and leaves the level; DEBUG_CHALLENGE opens a challenge with a free NONCE, DEBUG_UNLOCK sets the level or
counts a failure, the third locks, and an open challenge expires after 1 s. Model choices: assumptions 42, 61, 62, 65
and 75. -/
def Obligations.AdminCommandsTakeEffect : Prop :=
  ∀ (s : State) (mb : Fin 16) (i : BitVec 16) (p : List Byte),
    let gives := fun (j : Instr) (t : State) (st : BitVec 16) (b : List Byte) => exec j s = .next (responded t mb.val i st b)
    (Begins s mb i 0x10 (bulkBits 0) p →
      ((s.bulk p 0 = none ∨ ∃ r, s.bulk p 0 = some r ∧ (r.len = 0 ∨ 0x800000 < r.len)) → gives (.fwStage mb i .overPorts) s 0x0101 []) ∧
      (∀ r, s.bulk p 0 = some r → 1 ≤ r.len → r.len ≤ 0x800000 → Fetches (.fwStage mb i .overPorts) s mb.val i 0x10 r 1)) ∧
    Concludes (.fwStage mb i .overPorts) s mb.val i 0x10 (fun c =>
      let g := (s.cmdBytes mb.val c).take (imageLength (s.cmdBytes mb.val c))
      if imageForm g = true ∧ imageSigned g = true then
        finishCmd { s with skovi := { s.skovi with staged := some g } } mb.val c 0 (leBytes 4 (imageBuild g).toNat ++ leBytes 48 (Config.sha384 g).toNat)
      else finishCmd s mb.val c 0x0401 []) ∧
    (Runs s mb i 0x11 [(0, 4, 0xFF)] p →
      (s.skovi.staged = none → gives (.fwActivate mb i) s 0x0206 []) ∧
      (∀ g, s.skovi.staged = some g → (imageBuild g).toNat ≠ leField p 0 4 → gives (.fwActivate mb i) s 0x0206 []) ∧
      (∀ g, s.skovi.staged = some g → (imageBuild g).toNat = leField p 0 4 → imageMajor g ≠ 2 → gives (.fwActivate mb i) s 0x0305 []) ∧
      (∀ g, s.skovi.staged = some g → (imageBuild g).toNat = leField p 0 4 → imageMajor g = 2 →
        gives (.fwActivate mb i) { s with skovi := { s.skovi with activating := true } } 0 [])) ∧
    (Runs s mb i 0x21 [(0, 1, 0x01)] p →
      (leField p 0 1 = 0 → (∃ e ∈ s.parts, e.2.present = true) → gives (.warmReset mb i) s 0x0202 []) ∧
      (leField p 0 1 = 1 → gives (.warmReset mb i) s 0 []) ∧
      ((∀ e ∈ s.parts, e.2.present = false) → gives (.warmReset mb i) s 0 [])) ∧
    (Runs s mb i 0x30 [(0, 2, 0xFF), (8, 8, 0xFF)] p →
      let us := leField p 0 2
      let e := leField p 8 8
      let fits := s.mast.st ≠ .unlocked ∧ s.mast.stroke.toNat + 2 ≤ e
      ((us = 0 ∨ 1000 < us) → gives (.mastConfig mb i) s 0x0101 []) ∧
      (1 ≤ us → us ≤ 1000 → ¬ fits → gives (.mastConfig mb i) s 0x0206 []) ∧
      (1 ≤ us → us ≤ 1000 → fits → ∃ t, gives (.mastConfig mb i) t 0 (leBytes 8 e) ∧ t = { s with mast := t.mast, dieBookings := t.dieBookings, owed := t.owed } ∧
        t.mast = { s.mast with next := BitVec.ofNat 10 us, effective := BitVec.ofNat 64 e, regNext := BitVec.ofNat 10 us
                               regEffective := BitVec.ofNat 64 e, pend := true })) ∧
    (Runs s mb i 0x41 [(0, 1, 0x03)] p → ∀ q : PortId, leField p 0 1 = q.val → gives (.linkReset mb i) (portReset s q) 0 []) ∧
    (∀ d : BitVec 6, leField p 0 1 = d.toNat →
      let wrong := s.member.id = some d ∨ 60 ≤ d.toNat
      let found := (s.die d.toNat).uid = BitVec.ofNat 64 (leField p 8 8)
      (Runs s mb i 0x51 [(0, 1, 0x3F), (8, 8, 0xFF)] p →
        (wrong → gives (.dieFence mb i) s 0x0101 []) ∧
        (¬ wrong → ¬ found → gives (.dieFence mb i) s 0x0204 []) ∧
        (¬ wrong → found → ∃ t, gives (.dieFence mb i) t 0 [] ∧ (t.die d.toNat).fenced = true ∧ (t.die d.toNat).st = .absent)) ∧
      (Runs s mb i 0x52 [(0, 1, 0x3F), (8, 8, 0xFF)] p →
        (wrong → gives (.dieReinstate mb i) s 0x0101 []) ∧
        (¬ wrong → ¬ found → gives (.dieReinstate mb i) s 0x0204 []) ∧
        (¬ wrong → found → (s.die d.toNat).fenced = false → gives (.dieReinstate mb i) s 0x0206 []) ∧
        (¬ wrong → found → (s.die d.toNat).fenced = true → ∃ t, gives (.dieReinstate mb i) t 0 [] ∧ (t.die d.toNat).fenced = false))) ∧
    (leField p 0 1 = 0 → Runs s mb i 0x70 [(0, 1, 0x0F), (1, 1, 0x07), (2, 1, 0x7F), (8, 3, 0xFF)] p →
      let w := [leField p 8 1, leField p 9 1, leField p 10 1]
      ((∃ x ∈ w, x = 0 ∨ 15 < x) → gives (.qosSet mb i) s 0x0101 []) ∧
      ((∀ x ∈ w, 1 ≤ x ∧ x ≤ 15) → gives (.qosSet mb i) { s with skovi := { s.skovi with weights := w.map (BitVec.ofNat 4) } } 0 [])) ∧
    (leField p 0 1 ≠ 0 → Runs s mb i 0x70 [(0, 1, 0x0F), (1, 1, 0x07), (2, 1, 0x7F), (8, 8, 0xFF)] p →
      let col := leField p 0 1
      let bucket := leField p 1 1
      let inst := leField p 2 1
      let e : Word := BitVec.ofNat 64 (leField p 8 8)
      let bad := bit e 31 = true ∨ field e 60 4 ≠ 0 ∨ (bit e 30 = false ∧ (field e 0 28 = 0 ∨ (field e 32 28).toNat < (field e 0 28).toNat))
      let own := bucket = 1 ∨ bucket = 6
      let key := fun (k : Nat) => bucketKey bucket (if own then k else 0)
      let named := fun (k : Nat) => own → bit (s.part col).cores k = true ∧ (64 ≤ inst ∨ k = inst)
      ((bucket = 7 ∨ bad ∨ (own ∧ 48 ≤ inst ∧ inst < 64)) → gives (.qosSet mb i) s 0x0101 []) ∧
      (bucket < 7 → ¬ bad → (own → inst < 48 ∨ 64 ≤ inst) → (s.part col).present = false → gives (.qosSet mb i) s 0x0204 []) ∧
      (bucket < 7 → ¬ bad → (own → inst < 48 ∨ 64 ≤ inst) → (s.part col).present = true →
        ∃ t, gives (.qosSet mb i) t 0 [] ∧ ∀ k : Nat, k < 48 → (t.bucket col (key k)).level = (s.bucket col (key k)).level ∧
          (named k → (t.bucket col (key k)).nextEntry = some e) ∧
          (¬ named k → (t.bucket col (key k)).nextEntry = (s.bucket col (key k)).nextEntry))) ∧
    (Runs s mb i 0xA0 [] p →
      (s.dbg.locked = true → gives (.debugChallenge mb i) s 0x0402 []) ∧
      (s.dbg.locked = false → gives (.debugChallenge mb i)
        { s with free := s.free + 1, dbg := { s.dbg with nonce := Config.freeNonce s.free, seq := s.dbg.seq + 1, challenge := true, issuedAt := s.now } } 0
        (leBytes 8 Config.uid.toNat ++ leBytes 32 (Config.freeNonce s.free).toNat ++ leBytes 4 (s.dbg.seq + 1).toNat))) ∧
    (Runs s mb i 0xA1 [(0, 5, 0xFF), (6, 98, 0xFF)] p →
      let lv := leField p 4 1
      let form := lv ≤ 2 ∧ (lv = 0 → leField p 8 96 = 0)
      let opened := s.dbg.challenge = true ∧ s.dbg.seq.toNat = leField p 0 4 ∧ s.now < s.dbg.issuedAt + 1250000000
      (¬ form → gives (.debugUnlock mb i) s 0x0101 []) ∧
      (form → s.dbg.locked = true → gives (.debugUnlock mb i) s 0x0402 []) ∧
      (form → s.dbg.locked = false → ¬ opened → gives (.debugUnlock mb i) s 0x0206 []) ∧
      (form → s.dbg.locked = false → opened → 1 ≤ lv → s.unlockOk p = true → gives (.debugUnlock mb i)
        { s with dbg := { s.dbg with level := BitVec.ofNat 2 lv, mask := BitVec.ofNat 16 (leField p 6 2), challenge := false, fails := 0 } } 0 [BitVec.ofNat 8 lv]) ∧
      (form → s.dbg.locked = false → opened → 1 ≤ lv → s.unlockOk p = false → gives (.debugUnlock mb i)
        { s with dbg := { s.dbg with fails := s.dbg.fails + 1, locked := s.dbg.fails + 1 == 3 } } 0x0401 [])) ∧
    (Clocked s → s.dbg.challenge = true → s.dbg.issuedAt + 1250000000 ≤ s.now →
      exec .debugChallengeExpiry s = .next { s with dbg := { s.dbg with challenge := false } }) ∧
    (Clocked s → (s.dbg.challenge = false ∨ s.now < s.dbg.issuedAt + 1250000000) → exec .debugChallengeExpiry s = .next s)

/-- POWER_PLAN (R124 to R126, R335): it is refused where it enables no port or takes a core or granule in use; else the
layers and cores it leaves out lose their power and contents at once, and those it adds power up with zeros; a plan that
adds nothing disables and enables its ports and answers with what is in force. Model choices: assumption 63. -/
def Obligations.PowerPlansPowerLayersAndCores : Prop :=
  ∀ s : State, Clocked s →
    (∀ (mb : Fin 16) (i : BitVec 16) (p : List Byte), Runs s mb i 0x71 [(0, 1, 0xFF), (1, 1, 0x0F), (8, 6, 0xFF), (16, 1, 0x0F)] p →
      let layers : BitVec 12 := BitVec.ofNat 12 (leField p 0 2)
      let cores : BitVec 48 := BitVec.ofNat 48 (leField p 8 6)
      (leField p 16 1 = 0 → exec (.powerPlan mb i) s = .next (responded s mb.val i 0x0101 [])) ∧
      (leField p 16 1 ≠ 0 → planInUse s layers cores = true → exec (.powerPlan mb i) s = .next (responded s mb.val i 0x0202 [])) ∧
      (leField p 16 1 ≠ 0 → planInUse s layers cores = false → layers &&& ~~~ s.mem.layersOn ≠ 0 → ∃ t, exec (.powerPlan mb i) s = .next t ∧
        t.mem.layersOn = s.mem.layersOn &&& layers ∧ t.mem.layersUp = layers &&& ~~~ s.mem.layersOn ∧
        (∀ c : Nat, c < 48 → ((t.core c).on = true ↔ (s.core c).on = true ∧ bit cores c = true)) ∧
        (∀ (l : Fin 12) (a : Nat), leField p 16 1 = 15 → bit s.mem.layersOn l.val = true → bit layers l.val = false →
          l.val * 0x180000000 ≤ a → a < (l.val + 1) * 0x180000000 → t.byteAt a = 0)) ∧
      (leField p 16 1 ≠ 0 → planInUse s layers cores = false → layers &&& ~~~ s.mem.layersOn = 0 →
        (∀ c : Nat, c < 48 → bit cores c = true → (s.core c).on = true) → (s.mailbox 0).accepted.length = 1 →
        ∃ t, exec (.powerPlan mb i) s = .next (responded t mb.val i 0 t.planReport) ∧ t.mem.layersOn = layers ∧
          (∀ c : Nat, c < 48 → (t.core c).on = bit cores c) ∧
          ∀ q : PortId,
            (bit (BitVec.ofNat 4 (leField p 16 1)) q.val = false → (t.port q.val).st = .disabled) ∧
            (bit (BitVec.ofNat 4 (leField p 16 1)) q.val = true → (s.port q.val).st = .disabled → (t.port q.val).st = .training))) ∧
    (∀ l : Fin 12,
      (bit s.mem.layersUp l.val = false → exec (.layerPowerUpDone l) s = .next s) ∧
      (bit s.mem.layersUp l.val = true → ∃ t, exec (.layerPowerUpDone l) s = .next t ∧ t.mem.layersOn = setBit s.mem.layersOn l.val ∧
        t.mem.layersUp = clearBit s.mem.layersUp l.val ∧
        (∀ a : Nat, l.val * 0x180000000 ≤ a → a < (l.val + 1) * 0x180000000 → t.byteAt a = 0))) ∧
    (∀ c : CoreId,
      ((bit s.mem.coresUp c.val = false ∨ s.mem.layersUp ≠ 0) → exec (.corePowerUpDone c) s = .next s) ∧
      (bit s.mem.coresUp c.val = true → s.mem.layersUp = 0 → ∃ t, exec (.corePowerUpDone c) s = .next t ∧ (t.core c.val).on = true ∧
        t.mem.coresUp = clearBit s.mem.coresUp c.val ∧ (t.core c.val).st = .stopped ∧
        (∀ a : Nat, cmBase c.val ≤ a → a < cmBase c.val + 0x600000 → t.byteAt a = 0)))

/-! ### Partitions -/

/-- Partitions come and go (R60, R279, R290 to R294, R306, R333, R334; Tables 6-4 and 14-2): PART_CREATE checks in order
and gives a colour its cores, granules, counters and bookings with zeroed cores and a READY window; PART_RESET stops the
colour's cores, clears what a core reset clears but for operand buffers and scalar registers, removes its windows and counters and
waits for its requests; PARTITION_DRAIN_END answers it and
withdraws interrupts; PART_DESTROY leaves nothing of the colour and an OFFLINE window. Model choices: assumption 41. -/
def Obligations.PartitionsAreCreatedResetAndDestroyed : Prop :=
  ∀ (s : State) (mb : Fin 16) (i : BitVec 16) (p : List Byte),
    let col := leField p 0 1
    let gives := fun (j : Instr) (t : State) (st : BitVec 16) (b : List Byte) => exec j s = .next (responded t mb.val i st b)
    let cores : BitVec 48 := BitVec.ofNat 48 (leField p 8 6)
    let granules := bitsOf (leField p 16 36) 288
    let n := leField p 52 1
    let k := leField p 53 1
    let free := (∀ c ∈ bitsSet cores, s.ownerOf c = 0 ∧ (s.core c).on = true) ∧
      ∀ g ∈ granules, s.granuleOwned g = false ∧ bit s.mem.layersOn (g / 24) = true
    let tooMany := 64 < (Partn.baseRegions { cores := cores, granules := granules }).length
    (Runs s mb i 0x60 [(0, 1, 0x0F), (8, 6, 0xFF), (16, 38, 0xFF)] p →
      ((col = 0 ∨ 128 < n ∨ 224 < k) → gives (.partCreate mb i) s 0x0101 []) ∧
      (col ≠ 0 → n ≤ 128 → k ≤ 224 →
        ((s.part col).present = true → gives (.partCreate mb i) s 0x0203 []) ∧
        ((s.part col).present = false →
          (¬ free → gives (.partCreate mb i) s 0x0202 []) ∧
          (free → (s.freeRun k = none ∨ s.freeCounters.length < n ∨ tooMany) → gives (.partCreate mb i) s 0x0201 []) ∧
          (∀ first, free → s.freeRun k = some first → n ≤ s.freeCounters.length → ¬ tooMany → ∃ t,
            gives (.partCreate mb i) t 0 (leBytes 16 (t.part col).counters.toNat ++ [BitVec.ofNat 8 first]) ∧
            t.part col = { present := true, cores := cores, granules := granules, counters := (t.part col).counters, bookFirst := first, bookCount := k } ∧
            popcount (t.part col).counters = n ∧ (∀ x, bit (t.part col).counters x = true → s.counterOwner x = 0) ∧
            ((∀ e ∈ s.queues, e.2.colour.toNat ≠ col) → t.regionsOf col = (t.part col).baseRegions) ∧
            t.mailbox col = { st := .ready, info := BitVec.ofNat 24 (0x0204 + col * 2 ^ 16 + col * 2 ^ 20), mbEpoch := s.skovi.mbEpoch } ∧
            (∀ c ∈ bitsSet cores, (t.core c).colour.toNat = col ∧ (t.core c).st = .stopped ∧ (t.core c).ob = [] ∧
              ((∀ e ∈ s.windows, e.2.valid = true → bit cores e.2.owner = false) →
                ∀ a : Nat, cmBase c ≤ a → a < cmBase c + 0x600000 → t.byteAt a = 0)))))) ∧
    (Runs s mb i 0x62 [(0, 1, 0x0F)] p →
      ((s.part col).present = false → gives (.partReset mb i) s 0x0101 []) ∧
      ((s.part col).present = true → (s.part col).resetting = false → ∃ t, exec (.partReset mb i) s = .next t ∧ (t.part col).resetting = true ∧
        (t.part col).resetBy = (s.part col).resetBy ++ [(BitVec.ofNat 4 mb.val, i, 0x0001)] ∧
        (∀ c ∈ bitsSet (s.part col).cores, let k := t.core c
          k.st = .stopped ∧ k.queues = [] ∧ k.csr.flags = 0 ∧ k.csr.admitCut = 0 ∧ k.csr.cycle = 0 ∧ k.shadow = [] ∧ k.icache = [] ∧ k.ccache = [] ∧
          k.ob = (s.core c).ob ∧ k.sregs = (s.core c).sregs) ∧ (∀ e ∈ t.windows, e.2.colour.toNat ≠ col) ∧
        (∀ x : Nat, (t.counter x).colour.toNat = col → (t.counter x).valid = false)) ∧
      ((s.part col).present = true → (s.part col).resetting = true → ∃ t, exec (.partReset mb i) s = .next t ∧ t.cores = s.cores ∧
        (t.part col).resetBy = (s.part col).resetBy ++ [(BitVec.ofNat 4 mb.val, i, 0x0001)])) ∧
    (Runs s mb i 0x61 [(0, 1, 0x0F)] p →
      let lent := ∃ l ∈ (s.part col).lent, (s.die l.2.1.toNat).st = .verified
      ((s.part col).present = false → gives (.partDestroy mb i) s 0x0204 []) ∧
      ((s.part col).present = true → lent → gives (.partDestroy mb i) s 0x0202 []) ∧
      ((s.part col).present = true → ¬ lent → (s.part col).job.live = false → ∃ t, gives (.partDestroy mb i) t 0 [] ∧ t.part col = {} ∧
        t.regionsOf col = [] ∧ (t.mailbox col).st = .offline ∧ (∀ x : Nat, bit (s.part col).counters x = true → t.counter x = {}) ∧
        (∀ e ∈ t.queues, e.2.colour.toNat ≠ col)) ∧
      ((s.part col).present = true → ¬ lent → (s.part col).job.live = true → (s.part col).resetting = false → ∃ t, exec (.partDestroy mb i) s = .next t ∧
        (t.part col).resetting = true ∧ (t.part col).destroying = true ∧
        (t.part col).resetBy = (s.part col).resetBy ++ [(BitVec.ofNat 4 mb.val, i, 0)])) ∧
    (∀ c : BitVec 4, Clocked s → s.skovi.up = true →
      let x := s.part c.toNat
      ((x.resetting = false ∨ ∃ q ∈ s.reqs, q.colour = c) → exec (.partitionDrainEnd c) s = .next s) ∧
      (x.resetting = true → (∀ q ∈ s.reqs, q.colour ≠ c) → ∃ t, exec (.partitionDrainEnd c) s = .next t ∧
        (t.part c.toNat).resetting = false ∧ (x.resetJob = false → x.destroying = false → ∀ k ∈ bitsSet x.cores, (t.core k).ve = {}) ∧ (∃ m ∈ t.intrs, m.colour = c ∧ m.withdraw = true) ∧ (x.destroying = true → t.part c.toNat = {}) ∧
        (∀ (m : BitVec 4) (j st : BitVec 16), x.resetBy = [(m, j, st)] → (t.mailbox m.toNat).accepted = (s.mailbox m.toNat).accepted.map (fun y =>
          if y.idx == j && y.resp.isNone then { y with resp := some (st, []), running := false } else y))))

/-- The commands of a partition for its queues, indices, vectors and policy (R244 to R246, R284, R286, R337, R344 to
R346, R349), each under the common checks: RQ_CREATE records a queue whose ring lies in the core memory of an own core
and gives it its region entry, RQ_BIND binds it with ROWS and CUT at HEAD or unbinds it; INDEX_ATTACH keeps the header
of a share that Tables 12-2 and 12-3 allow, both log a failed granule they read (R120), INDEX_DETACH removes it; INTR_CONFIG installs all of its entries or none;
REPLAY_POLICY takes effect at once, or with a job at its next step boundary. Model choices: assumptions 66, 72 and 127. -/
def Obligations.PartitionCommandsKeepTheirRecords : Prop :=
  ∀ (s : State) (mb : Fin 16) (i : BitVec 16) (p : List Byte),
    let col := mb.val
    let x := s.part col
    let gives := fun (j : Instr) (t : State) (st : BitVec 16) (b : List Byte) => exec j s = .next (responded t col i st b)
    (Runs s mb i 0x110 [(0, 2, 0x3F), (8, 10, 0xFF)] p →
      let q := leField p 0 1
      let c := leField p 1 1
      let r : ReqQueue := { used := true, colour := BitVec.ofNat 4 col, core := c, base := leField p 8 8, entryLog2 := leField p 16 1, depthLog2 := leField p 17 1 }
      let good := c < 48 ∧ bit x.cores c = true ∧ 6 ≤ r.entryLog2 ∧ r.entryLog2 ≤ 12 ∧ 1 ≤ r.depthLog2 ∧ r.depthLog2 ≤ 12 ∧
        cmBase c ≤ r.base ∧ r.base + (64 + 2 ^ r.depthLog2 * 2 ^ r.entryLog2) ≤ cmBase c + 0x600000
      let t : State := { s with queues := Table.set {} s.queues q r }
      (¬ good → gives (.rqCreate mb i) s 0x0101 []) ∧
      (good → (s.rqueue q).used = true → gives (.rqCreate mb i) s (if (s.rqueue q).colour.toNat = col then 0x0203 else 0x0202) []) ∧
      (good → (s.rqueue q).used = false → x.job.live = true → gives (.rqCreate mb i) s 0x0205 []) ∧
      (good → (s.rqueue q).used = false → x.job.live = false →
        (64 < (regionTable t col x).length → gives (.rqCreate mb i) s 0x0201 []) ∧
        ((regionTable t col x).length ≤ 64 → gives (.rqCreate mb i) { t with regions := Table.set [] s.regions col (regionTable t col x) } 0 []))) ∧
    (Runs s mb i 0x111 [(0, 1, 0x3F), (1, 1, 0x01), (2, 2, 0xFF)] p →
      let q := leField p 0 1
      let rows := leField p 2 2
      let r := s.rqueue q
      let form := 1 ≤ rows ∧ rows ≤ 4096
      let mine := r.used = true ∧ r.colour.toNat = col
      let busy := x.declares (fun y => y.queues.contains (BitVec.ofNat 6 q)) = true
      (¬ form → gives (.rqBind mb i) s 0x0101 []) ∧
      (form → ¬ mine → gives (.rqBind mb i) s 0x0204 []) ∧
      (form → mine → busy → gives (.rqBind mb i) s 0x0205 []) ∧
      (form → mine → ¬ busy → leField p 1 1 = 1 → gives (.rqBind mb i) (s.setRqueue q { r with bound := false, rows := 0, cut := 0 }) 0 []) ∧
      (form → mine → ¬ busy → leField p 1 1 ≠ 1 → gives (.rqBind mb i) ((fwReads s [(r.base + 8, 2)]).setRqueue q
        { r with bound := true, rows := rows, cut := BitVec.ofNat 16 (leNat (s.bytesAt (r.base + 8) 2)) }) 0 [])) ∧
    (Runs s mb i 0x130 [(0, 1, 0x0F), (8, 8, 0xFF)] p →
      let n := leField p 0 1
      let a := leField p 8 8
      (∀ q : List (Nat × Nat), s.mem.bad = [] → s.mem.cmBad = [] → fwReads s q = s) ∧
      (Table.get [] x.indices n ≠ [] → gives (.indexAttach mb i) s 0x0203 []) ∧
      let u := fwReads s (indexReads s col a)
      (Table.get [] x.indices n = [] → indexOk s col a = false → gives (.indexAttach mb i) u 0x0307 []) ∧
      (Table.get [] x.indices n = [] → indexOk s col a = true → ∃ t b, gives (.indexAttach mb i) t 0 b ∧ t = { u with parts := t.parts } ∧
        t.part col = { x with indices := (t.part col).indices } ∧ Table.get [] (t.part col).indices n = s.bytesAt a 64 ∧
        (∀ m, m ≠ n → Table.get [] (t.part col).indices m = Table.get [] x.indices m) ∧ leField b 0 4 = leField (s.bytesAt a 64) 8 4)) ∧
    (Runs s mb i 0x131 [(0, 1, 0x0F)] p →
      let n := leField p 0 1
      let busy := x.declares (fun y => y.indices.contains (BitVec.ofNat 4 n)) = true
      (Table.get [] x.indices n = [] → gives (.indexDetach mb i) s 0x0204 []) ∧
      (Table.get [] x.indices n ≠ [] → busy → gives (.indexDetach mb i) s 0x0202 []) ∧
      (Table.get [] x.indices n ≠ [] → ¬ busy → gives (.indexDetach mb i) (s.modPart col (fun y => { y with indices := Table.set [] y.indices n [] })) 0 [])) ∧
    (Runs s mb i 0x140 [(0, 1, 0x3F), (1, 1, 0xFF), (8, 8 * Nat.min 29 (leField p 1 1), 0xFF)] p →
      let first := leField p 0 1
      let n := leField p 1 1
      let entry := fun (k : Nat) => (p.drop (8 + 8 * k)).take 8
      let good := 1 ≤ n ∧ n ≤ 29 ∧ first + n ≤ 64 ∧ ∀ k, k < n → vectorBad x (entry k) = false
      (¬ good → gives (.intrConfig mb i) s 0x0101 []) ∧
      (good → ∃ t, gives (.intrConfig mb i) t 0 [] ∧
        (∀ k, k < n →
          let y : Vector := Table.get {} (t.part col).vectors (first + k)
          y.src.toNat = leField (entry k) 0 1 % 4 ∧ y.mask = (leField (entry k) 0 1 / 4 % 2 == 1) ∧ y.coal = (leField (entry k) 0 1 / 8 % 2 == 1) ∧
          y.core.toNat = leField (entry k) 1 1 ∧ y.flag.toNat = leField (entry k) 2 1 ∧ y.event.toNat = leField (entry k) 3 1) ∧
        (∀ v, (v < first ∨ first + n ≤ v) → Table.get {} (t.part col).vectors v = Table.get {} x.vectors v))) ∧
    (Runs s mb i 0x150 [(0, 3, 0xFF)] p →
      let mode := leField p 0 1
      let most := leField p 1 1
      let again := leField p 2 1
      let good := (mode = 0 ∧ most = 0 ∨ mode = 1 ∧ 1 ≤ most ∧ most ≤ 3) ∧ again ≤ 15
      (¬ good → gives (.replayPolicy mb i) s 0x0101 []) ∧
      (good → gives (.replayPolicy mb i) (s.setPart col (if x.job.live then { x with policyNext := some (mode == 1, most, again) }
        else { x with replay := mode == 1, maxReplay := most, restartsMax := again, policyNext := none })) 0 []))

/-! ### Images and jobs -/

/-- Images (R127, R134, R137, R338 to R343): IMAGE_STAGE reads and checks the manifest, its DIGEST, role and room in order, asks its
lenders in turn for what is short, then reads the share; of a good share the local ranges are written here and the image is STAGED, a
failed read leaves it in STAGING, and a wrong digest leaves nothing; IMAGE_COMMIT installs its regions, IMAGE_EVICT removes it, and
IMAGE_QUERY reports it. Model choices: assumptions 46, 61, 67 and 129. -/
def Obligations.ImagesAreStagedCommittedAndEvicted : Prop :=
  ∀ (s : State) (mb : Fin 16) (i : BitVec 16) (p : List Byte),
    let col := mb.val
    let x := s.part col
    let d : BitVec 256 := BitVec.ofNat 256 (leField p 0 32)
    let gives := fun (j : Instr) (t : State) (st : BitVec 16) (b : List Byte) => exec j s = .next (responded t col i st b)
    (Begins s mb i 0x100 ([(0, 32, 0xFF), (64, 1, 0x3F), (65, 1, 0x01), (66, 6, 0), (72, 8, 0xFF)] ++ bulkBits 32 ++ bulkBits 48) p → ∀ man : Option Manifest,
      ((s.bulk p 32 = none ∨ s.bulk p 48 = none) → gives (.imageStage mb i man .overPorts .overPorts) s 0x0101 []) ∧
      ∀ rm rs : BulkRef, s.bulk p 32 = some rm → s.bulk p 48 = some rs →
        ((x.image d).isSome = true → gives (.imageStage mb i man .overPorts .overPorts) s 0x0203 []) ∧
        (x.image d = none → 4 ≤ x.images.length → gives (.imageStage mb i man .overPorts .overPorts) s 0x0201 []) ∧
        (x.image d = none → x.images.length < 4 → Fetches (.imageStage mb i man .overPorts .overPorts) s col i 0x100 rm 1)) ∧
    (Clocked s → s.skovi.up = true → ∀ (man : Option Manifest) (c : Cmd), s.atWork col i 0x100 = some c →
      let ends := fun (st : BitVec 16) (b : List Byte) => exec (.imageStage mb i man .overPorts .overPorts) s = .next (finishCmd s col c st b)
      let without := fun (t : State) => t.part col = { x with images := x.images.filter (fun h => h.digest != digestOf c.payload) }
      let inPhase := fun (t : State) (n : Nat) => ∃ y ∈ (t.mailbox col).accepted, y.idx = i ∧ y.running = true ∧ y.phase = n
      (s.cmdReady col c = false → exec (.imageStage mb i man .overPorts .overPorts) s = .next s) ∧
      (s.cmdReady col c = true → c.phase = 1 →
        (s.cmdFailed col c = true → ends 0x0501 []) ∧
        (s.cmdFailed col c = false → man = none → ends 0x0401 []) ∧
        ∀ m : Manifest, s.cmdFailed col c = false → man = some m →
          (m.bytes ≠ s.cmdBytes col c → exec (.imageStage mb i man .overPorts .overPorts) s = .next s) ∧
          (m.bytes = s.cmdBytes col c →
            let signed := Config.keyHashVerify Config.imgKeyHash (Config.sha384 m.bytes) m.sig = true
            let role := m.roles.find? (fun r => r.number.toNat == leField c.payload 64 1)
            (¬ signed → ends 0x0401 []) ∧
            (signed → m.digest ≠ digestOf c.payload → ends 0x0403 []) ∧
            (signed → m.digest = digestOf c.payload → role = none → ends 0x0305 []) ∧
            (∀ r : Role, signed → m.digest = digestOf c.payload → role = some r →
              let suits := (0x0040, 0xB1, 0x0204) ∈ m.accepts ∧ r.cores &&& ~~~ x.cores = 0 ∧ r.layers &&& ~~~ s.mem.layersOn = 0
              let need := roleNeed r
              let free := x.freeGranules.length * 0x10000000
              let gs := granulesFor (r.image.map (fun w => w.range) ++ r.state)
              let g : Image := { digest := m.digest, st := .staging, man := m, role := r, need := need, granules := gs, golden := (c.payload.drop 48).take 16 }
              (¬ suits → ends 0x0305 []) ∧
              (suits → free < need → (leField c.payload 65 1 = 0 ∨ leField c.payload 72 8 = 0) →
                ends 0x0201 (leBytes 8 need ++ leBytes 8 free ++ leBytes 8 (need - free))) ∧
              (suits → need ≤ free → (∃ k ∈ gs, k ∉ x.freeGranules) → ends 0x0305 []) ∧
              (suits → need ≤ free → (∀ k ∈ gs, k ∈ x.freeGranules) → x.image m.digest = none → (s.bulk c.payload 48).isSome = true →
                ∃ t, exec (.imageStage mb i man .overPorts .overPorts) s = .next t ∧ t.part col = { x with images := x.images ++ [g] } ∧ inPhase t 3)))) ∧
      (s.cmdReady col c = true → ∀ g : Image, x.image (digestOf c.payload) = some g →
        (c.phase = 2 →
          let h := g.granted c.replies
          (h.wants = 0 → (s.bulk c.payload 48).isSome = true → ∃ t, exec (.imageStage mb i man .overPorts .overPorts) s = .next t ∧ inPhase t 3 ∧
            (t.part col).image (digestOf c.payload) = some { h with passNs := passNs s h.borrowed h.lends }) ∧
          (h.wants ≠ 0 → c.asks = [] → ∃ t, exec (.imageStage mb i man .overPorts .overPorts) s = .next (finishCmd t col c 0x0201 c.report) ∧ without t ∧
            t.skovi.peers.length = s.skovi.peers.length + h.lends.length) ∧
          (∀ (e : Nat) (l : List Nat), h.wants ≠ 0 → c.asks = e :: l → ∃ t m, exec (.imageStage mb i man .overPorts .overPorts) s = .next t ∧ inPhase t 2 ∧
            t.tx = s.tx ++ [{ msg := m, port := none }] ∧ m.dst = BitVec.ofNat 6 e ∧ m.op = 6 ∧
            m.data = [0x31, BitVec.ofNat 8 col] ++ leBytes 2 s.skovi.seqno.toNat ++ leBytes 4 0 ++ leBytes 32 g.digest.toNat ++ leBytes 2 h.wants)) ∧
        (c.phase = 3 →
          (s.cmdFailed col c = true → ∃ t, exec (.imageStage mb i man .overPorts .overPorts) s = .next (finishCmd t col c 0x0501 []) ∧ t = { s with mem := t.mem }) ∧
          (s.cmdFailed col c = false → Config.sha384 (s.cmdBytes col c) ≠ g.role.shareSha →
            ∃ t, exec (.imageStage mb i man .overPorts .overPorts) s = .next (finishCmd t col c 0x0403 []) ∧ without t ∧ t.mem = s.mem) ∧
          (s.cmdFailed col c = false → Config.sha384 (s.cmdBytes col c) = g.role.shareSha → g.borrowed = 0 →
            ∃ t, exec (.imageStage mb i man .overPorts .overPorts) s = .next (finishCmd t col c 0 (c.report ++ stageReport g)) ∧
              (t.part col).image (digestOf c.payload) = some { g with st := .staged } ∧
              ∀ w, g.role.image = [w] → w.range.len = (s.cmdBytes col c).length → ∀ a, t.byteAt a =
                if w.range.base ≤ a ∧ a < w.range.base + w.range.len then (s.cmdBytes col c).getD (a - w.range.base) 0 else s.byteAt a) ∧
          (s.cmdFailed col c = false → Config.sha384 (s.cmdBytes col c) = g.role.shareSha → g.borrowed ≠ 0 →
            ∃ t, exec (.imageStage mb i man .overPorts .overPorts) s = .next t ∧ inPhase t 4 ∧ t.parts = s.parts)) ∧
        (c.phase = 4 →
          (s.cmdFailed col c = true → ends 0x0501 []) ∧
          (s.cmdFailed col c = false → ∃ t, exec (.imageStage mb i man .overPorts .overPorts) s = .next (finishCmd t col c 0 (c.report ++ stageReport g)) ∧
            t = { s with parts := t.parts } ∧ (t.part col).image (digestOf c.payload) = some { g with st := .staged })))) ∧
    (Runs s mb i 0x101 [(0, 32, 0xFF)] p →
      (x.image d = none → gives (.imageCommit mb i) s 0x0204 []) ∧
      ∀ g, x.image d = some g →
        let y : Partn := { x with images := x.images.map (fun h => if h.digest == d then { h with st := .committed } else h) }
        (g.st ≠ .staged → gives (.imageCommit mb i) s 0x0206 []) ∧
        (g.st = .staged → x.job.live = true → gives (.imageCommit mb i) s 0x0205 []) ∧
        (g.st = .staged → x.job.live = false →
          (64 < (regionTable (s.setPart col y) col y).length → gives (.imageCommit mb i) s 0x0201 []) ∧
          ((regionTable (s.setPart col y) col y).length ≤ 64 → ∃ t, gives (.imageCommit mb i) t 0 [if g.borrowed = 0 then 0 else 1] ∧
            t = { s with parts := t.parts, regions := t.regions } ∧ t.part col = y ∧ t.regionsOf col = regionTable (s.setPart col y) col y))) ∧
    (Runs s mb i 0x103 [(0, 32, 0xFF)] p →
      (x.image d = none → gives (.imageEvict mb i) s 0x0204 []) ∧
      ∀ g, x.image d = some g →
        (x.job.live = true → x.job.digest = d → gives (.imageEvict mb i) s 0x0202 []) ∧
        ((x.job.live = false ∨ x.job.digest ≠ d) → ∃ t, gives (.imageEvict mb i) t 0 [] ∧
          t.part col = { x with images := x.images.filter (fun h => h.digest != d) } ∧ t.regionsOf col = regionTable t col (t.part col) ∧
          t.skovi.peers.length = s.skovi.peers.length + g.lends.length ∧
          (∀ w ∈ g.localRanges, ∀ a, w.range.base ≤ a → a < w.range.base + w.range.len → t.byteAt a = 0) ∧
          (∀ w ∈ g.role.state, ∀ a, w.base ≤ a → a < w.base + w.len → t.byteAt a = 0))) ∧
    (Runs s mb i 0x102 [(0, 32, 0xFF)] p →
      (d = 0 → gives (.imageQuery mb i) s 0 (takePad 128 (x.images.flatMap (fun g => leBytes 32 g.digest.toNat)))) ∧
      (d ≠ 0 → x.image d = none → gives (.imageQuery mb i) s 0x0204 []) ∧
      (∀ g, d ≠ 0 → x.image d = some g → gives (.imageQuery mb i) s 0 g.report))

/-- Jobs (R102, R197, R278, R290, R337, R347 to R350, R358, R360): JOB_LAUNCH asks every other die of DIE_SET, and answers the first
failed check, with no effect before the seventh, or puts the job in force and its entry cores into RUN; JOB_ABORT begins the reset
that ends it with reason 3; JOB_STATUS and PART_TELEMETRY report; STEP_REPAIR fetches failed weights again, then replays a failed step
while the policy allows one and aborts the job otherwise. Model choices: assumptions 43, 54, 69, 70, 91, 92, 124 and 129. -/
def Obligations.JobsLaunchReplayAndAbort : Prop :=
  ∀ (s : State) (mb : Fin 16) (i : BitVec 16) (p : List Byte),
    let col := mb.val
    let x := s.part col
    let gives := fun (j : Instr) (t : State) (st : BitVec 16) (b : List Byte) => exec j s = .next (responded t col i st b)
    (Begins s mb i 0x120 [(0, 36, 0xFF), (40, 8, 0xFF)] p → ∀ tests : List ArrayReport,
      let d : BitVec 256 := BitVec.ofNat 256 (leField p 0 32)
      let dies : Word := BitVec.ofNat 64 (leField p 40 8)
      let far := (bitsSet dies).filter (fun e => e != s.ownId.toNat)
      let j := Instr.jobLaunch mb i .overPorts tests
      (x.image d = none → gives j s 0x0204 []) ∧
      ∀ g, x.image d = some g →
        (g.st ≠ .committed → gives j s 0x0206 []) ∧
        (g.st = .committed → x.job.live = true → gives j s 0x0205 []) ∧
        (g.st = .committed → x.job.live = false → (bit dies s.ownId.toNat = false ∨ field dies 60 4 ≠ 0) → gives j s 0x0101 []) ∧
        (g.st = .committed → x.job.live = false → bit dies s.ownId.toNat = true → field dies 60 4 = 0 →
          (s.diesOk dies = false → gives j s 0x0301 []) ∧
          (s.diesOk dies = true → far = [] → exec j s = exec j (serve (toPhase s col i 1) col)) ∧
          (s.diesOk dies = true → far ≠ [] → ∃ t c, exec j s = .next t ∧ t.atWork col i 0x120 = some c ∧ c.awaited = far.map (BitVec.ofNat 6) ∧
            c.replies = [] ∧ t.cores = s.cores ∧ t.parts = s.parts ∧ t.tx.length = s.tx.length + far.length ∧
            ∀ k : Nat, k < far.length → ∃ m, t.tx[s.tx.length + k]? = some { msg := m, port := none } ∧ m.dst = BitVec.ofNat 6 (far.getD k 0) ∧ m.op = 6 ∧
              m.data = [0x34, BitVec.ofNat 8 col] ++ leBytes 2 (s.skovi.seqno.toNat + k) ++ leBytes 4 (leField p 32 4) ++ leBytes 32 (leField p 0 32) ++
                leBytes 8 (leField p 40 8)))) ∧
    (Clocked s → s.skovi.up = true → ∀ (c : Cmd) (tests : List ArrayReport), s.atWork col i 0x120 = some c →
      let d : BitVec 256 := BitVec.ofNat 256 (leField c.payload 0 32)
      let dies : Word := BitVec.ofNat 64 (leField c.payload 40 8)
      let j := Instr.jobLaunch mb i .overPorts tests
      let away := s.diesOk dies = false ∨ ∃ r ∈ c.replies, r.2.1 = 0x0301
      let refused := ∃ r ∈ c.replies, r.2.1 ≠ 0
      (s.cmdReady col c = false → exec j s = .next s) ∧
      (s.cmdReady col c = true → ∀ g, x.image d = some g →
        let lenders := ∀ l ∈ g.lends, bit dies l.die.toNat = true
        let u := checkArrays (retestArrays s g tests)
        (away → exec j s = .next (finishCmd s col c 0x0301 [])) ∧
        (¬ away → refused → exec j s = .next (finishCmd s col c 0x0302 [])) ∧
        (¬ away → ¬ refused → ¬ lenders → exec j s = .next (finishCmd s col c 0x0303 [])) ∧
        (¬ away → ¬ refused → lenders → launchRest u col g ≠ 0 → exec j s = .next (finishCmd u col c (launchRest u col g) [])) ∧
        (¬ away → ¬ refused → lenders → launchRest u col g = 0 → ∃ t b, exec j s = .next (finishCmd t col c 0 b) ∧ b.length = 17 ∧
          (t.part col).job = { id := BitVec.ofNat 32 (leField c.payload 32 4), st := .running, digest := g.digest, dieSet := dies, epoch := u.member.epoch
                               launchStroke := s.mast.stroke } ∧
          (∀ e ∈ g.role.entries, (t.core e.1.val).st = .run ∧
            ((g.role.entries.map (fun y => y.1)).Nodup → (t.core e.1.val).csr.pc = e.2 &&& ~~~ (7 : Dla))) ∧
          (s.windows = [] → g.role.windows = [] → g.role.initCm = [] → g.role.directory = none →
            ∀ k ∈ bitsSet g.role.cores, ∀ a, cmBase k ≤ a → a < cmBase k + 0x600000 → t.byteAt a = 0)))) ∧
    (Runs s mb i 0x121 [(0, 4, 0xFF)] p →
      ((x.job.live = false ∨ x.job.id.toNat ≠ leField p 0 4) → gives (.jobAbort mb i) s 0x0204 []) ∧
      (x.job.live = true → x.job.id.toNat = leField p 0 4 → ∃ t, exec (.jobAbort mb i) s = .next t ∧ (t.part col).resetting = true ∧
        (t.part col).resetReason = 3 ∧ (t.part col).resetBy = x.resetBy ++ [(BitVec.ofNat 4 col, i, 0)] ∧
        (x.resetting = false → ∀ c ∈ bitsSet x.cores, (t.core c).st = .stopped))) ∧
    (Runs s mb i 0x122 [(0, 4, 0xFF)] p →
      (leField p 0 4 ≠ 0 → x.job.id.toNat ≠ leField p 0 4 → gives (.jobStatus mb i) s 0x0204 []) ∧
      ((leField p 0 4 = 0 ∨ x.job.id.toNat = leField p 0 4) → gives (.jobStatus mb i) s 0 (s.jobReport col) ∧ (s.jobReport col).length = 40 ∧
        leField (s.jobReport col) 0 4 = x.job.id.toNat ∧ leField (s.jobReport col) 5 1 = x.job.reason.toNat ∧
        leField (s.jobReport col) 8 4 = x.job.epoch.toNat ∧ leField (s.jobReport col) 16 4 = x.job.replays.toNat ∧
        leField (s.jobReport col) 20 4 = x.job.restarts.toNat ∧ leField (s.jobReport col) 32 8 = x.job.launchStroke.toNat)) ∧
    Concludes (.partTelemetry mb i .overPorts) s col i 0x160 (fun c => finishCmd s col c 0 c.report) ∧
    (Begins s mb i 0x160 ((0, 1, 0xFF) :: bulkBits 8) p →
      ((s.bulk p 8 = none ∨ 4 ≤ leField p 0 1) → gives (.partTelemetry mb i .overPorts) s 0x0101 []) ∧
      (∀ r, s.bulk p 8 = some r → leField p 0 1 < 4 →
        let data := (s.partValues col (leField p 0 1)).flatMap (fun v => leBytes 8 v.toNat)
        Delivers (.partTelemetry mb i .overPorts) s s col i 0x160 r data (leBytes 8 data.length ++ leBytes 8 s.mast.stroke.toNat))) ∧
    (∀ c : BitVec 4, Clocked s → s.skovi.up = true → (∀ e ∈ s.skovi.rowHits, e.2 < 3) →
      let y := s.part c.toNat
      let cs := s.jobCores c.toNat
      let failed := y.job.live = true ∧ y.job.failed = true ∧ y.resetting = false
      let again := y.replay = true ∧ y.job.stepReplays < y.maxReplay
      let replays := fun (t : State) =>
        (t.part c.toNat).job = { y.job with
          st := .replaying, failed := false, fromWatch := false, stepReplays := y.job.stepReplays + 1, replays := y.job.replays + 1 } ∧
        ∀ k ∈ cs, (t.core k).sregs = (s.core k).shadow ∧ (t.core k).csr.pc = (s.core k).csr.stepPc ∧ (t.core k).csr.stepFail = false ∧
          (t.core k).st = .run ∧ (t.core k).ccFill = none
      let aborts := fun (t : State) (restart : Bool) =>
        (t.part c.toNat).resetting = true ∧ (t.part c.toNat).resetPolicy = true ∧ (t.part c.toNat).resetRestart = restart ∧
          (t.part c.toNat).resetReason = 2 ∧ ∀ k ∈ bitsSet y.cores, (t.core k).st = .stopped
      (¬ failed → exec (.stepRepair c .overPorts) s = .next s) ∧
      (y.repair = none → (s.log.capq ≠ [] ∨ s.log.waiting ≠ []) → exec (.stepRepair c .overPorts) s = .next s) ∧
      (failed → y.repair = none → y.job.fromWatch = false → s.log.capq = [] → s.log.waiting = [] → s.skovi.records = [] →
        (∀ k ∈ cs, (s.core k).settledStep) →
        (again → ∃ t, exec (.stepRepair c .overPorts) s = .next t ∧ replays t) ∧
        (¬ again → ∃ t, exec (.stepRepair c .overPorts) s = .next t ∧ aborts t true)) ∧
      (∀ (r : Repair) (g : Nat) (golden : Bool) (f : Transfer), failed → y.repair = some r → r.failed = false → r.todo = [(g, golden)] →
        s.transfersOf (.refetch c.toNat g golden) = [f] →
        (f.done = false → ∃ t, exec (.stepRepair c .overPorts) s = .next t ∧ t.mem = s.mem ∧ (t.part c.toNat).repair = some r ∧ t.cores = s.cores) ∧
        (f.done = true → f.failed = false → again → (∀ k ∈ cs, (s.core k).chans = [] ∧ (s.core k).credits = []) →
          ∃ t, exec (.stepRepair c .overPorts) s = .next t ∧ replays t ∧
            ∀ a, t.byteAt a = if g * 64 ≤ a ∧ a < g * 64 + 64 then (takePad 64 f.bytes).getD (a - g * 64) 0 else s.byteAt a) ∧
        (f.done = true → f.failed = true → golden = false → (s.transfersOf (.refetch c.toNat g true)) = [] →
          ∃ t, exec (.stepRepair c .overPorts) s = .next t ∧ (t.part c.toNat).repair = some { r with todo := [(g, true)] } ∧ t.mem = s.mem) ∧
        (f.done = true → f.failed = true → golden = true → ∃ t, exec (.stepRepair c .overPorts) s = .next t ∧ aborts t false ∧
          ∀ h ∈ (t.part c.toNat).images, h.digest = y.job.digest → h.st = .broken)))

/-! ### Firmware messages between dies -/

/-- A firmware message to a die of this one: preamble and body on MGMT of colour 0 (R321, Table 15-8). -/
def Sys2Proof.Stated.fwMsg (s : State) (dst : BitVec 6) (mtype : Byte) (colour : BitVec 4) (seq : BitVec 16) (job : BitVec 32) (body : List Byte) : TxMsg :=
  { msg := { src := s.ownId, dst := dst, colour := 0, op := 6, addr := 0, tag := 0, win := 0, winv := false, status := 0, ll := false
             data := [mtype, colour.setWidth 8] ++ leBytes 2 seq.toNat ++ leBytes 4 job.toNat ++ body, bad := false }
    port := none }

/-- The PEER_REPLY to a request. -/
def Sys2Proof.Stated.replied (s : State) (m : Msg) (st : Nat) (granules : List Nat) : TxMsg :=
  fwMsg s m.src 0x30 (BitVec.ofNat 4 (leField m.data 1 1 % 16)) (BitVec.ofNat 16 (leField m.data 2 2)) (BitVec.ofNat 32 (leField m.data 4 4))
    (leBytes 2 st ++ leBytes 2 granules.length ++ granules.flatMap (leBytes 2))

/-- Firmware messages (R127, R171, R184, R321 to R323, R340, R342, R347): a broken message is logged and a broken
request answered ST_BAD_FIELD; a repeated SEQNO gets its stored reply and no act; LEND_REQ lends free granules,
LEND_RELEASE zeroes and returns them, LAUNCH_CHECK tells whether the colour is here, AUDIT_SNAP is compared, JOB_EVENT
is acted upon, PEER_REPLY ends its request and tells its command; an unanswered request goes again after 1 ms, at most three times,
and then counts as a die that is absent. A Hub's message to a mailbox window is a mailbox message (R411). Model choices: assumptions
73 and 129. -/
def Obligations.FirmwareMessagesAreAnsweredOnce : Prop :=
  ∀ s : State, Clocked s → s.skovi.up = true → s.arrived = [] →
    (∀ m : Msg,
      let col := leField m.data 1 1 % 16
      let seq : BitVec 16 := BitVec.ofNat 16 (leField m.data 2 2)
      let t := leField m.data 0 1
      let body := m.data.drop 8
      let requests : List (Nat × Instr) := [(0x31, .lendReq m), (0x32, .lendRelease m), (0x33, .auditSnap m), (0x34, .launchCheck m), (0x35, .jobEvent m)]
      (∀ x ∈ requests, t ≠ x.1 → exec x.2 s = .next s) ∧
      (t ≠ 0x30 → exec (.peerReply m) s = .next s) ∧
      (∀ x ∈ (0x30, Instr.peerReply m) :: requests, t = x.1 → s.forMailbox m = true → exec x.2 s = exec (.mbWrite m) s) ∧
      (s.forMailbox m = false → ∀ x ∈ requests, t = x.1 → peerOk m = false → ∃ u, exec x.2 s = .next u ∧ u = { s with log := u.log, tx := s.tx ++ [replied s m 0x0101 []] }) ∧
      (s.forMailbox m = false → t = 0x30 → peerOk m = false → ∃ u, exec (.peerReply m) s = .next u ∧ u = { s with log := u.log }) ∧
      (s.forMailbox m = false → t = 0x30 → peerOk m = true →
        let hit := fun (q : PeerReq) => q.die == m.src && q.seqno == seq
        let rest : State := { s with skovi := { s.skovi with peers := removeFirst hit s.skovi.peers } }
        (s.skovi.peers.find? hit = none → exec (.peerReply m) s = .next s) ∧
        ∀ q, s.skovi.peers.find? hit = some q →
          (q.who = none → exec (.peerReply m) s = .next rest) ∧
          (∀ (k : Nat) (i : BitVec 16), q.who = some (k, i) → ∃ u, exec (.peerReply m) s = .next u ∧ u = { rest with mailboxes := u.mailboxes } ∧
            (u.mailbox k).accepted = (s.mailbox k).accepted.map (fun c => if c.idx == i then { c with replies := c.replies ++
              [(q.die, BitVec.ofNat 16 (leField body 0 2), (List.range (leField body 2 2)).map (fun n => leField body (4 + 2 * n) 2))] } else c))) ∧
      (s.forMailbox m = false → peerOk m = true → ∀ y, s.skovi.replies.find? (fun y => y.1 == m.src && y.2.1 == seq) = some y →
        (t = 0x33 → leField m.data 8 8 ≤ s.skovi.auditStroke.toNat) → ∀ x ∈ requests, t = x.1 → exec x.2 s = .next { s with
          tx := s.tx ++ [fwMsg s m.src 0x30 (BitVec.ofNat 4 col) seq (BitVec.ofNat 32 (leField m.data 4 4)) y.2.2] }) ∧
      (s.forMailbox m = false → peerOk m = true → s.skovi.replies.find? (fun y => y.1 == m.src && y.2.1 == seq) = none →
        let answered := fun (j : Instr) (st : Nat) (gs : List Nat) (f : State → Prop) =>
          ∃ u, exec j s = .next u ∧ u.tx = s.tx ++ [replied s m st gs] ∧
            u.skovi.replies.find? (fun y => y.1 == m.src && y.2.1 == seq) = some (m.src, seq, leBytes 2 st ++ leBytes 2 gs.length ++ gs.flatMap (leBytes 2)) ∧ f u
        let d : BitVec 256 := BitVec.ofNat 256 (leField body 0 32)
        let p := s.part col
        (t = 0x31 → p.present = false → answered (.lendReq m) 0x0302 [] (fun u => u.parts = s.parts)) ∧
        (t = 0x31 → p.present = true →
          let gs := p.freeGranules.take (leField body 32 2)
          answered (.lendReq m) 0 gs (fun u => u.part col = { p with lent := p.lent ++ gs.map (fun g => (g, m.src, d)) })) ∧
        (t = 0x32 →
          let named := (List.range (leField body 32 2)).map (fun k => leField body (34 + 2 * k) 2)
          let back := fun (l : Nat × BitVec 6 × BitVec 256) => l.2.1 == m.src && l.2.2 == d && (named.isEmpty || named.contains l.1)
          answered (.lendRelease m) 0 [] (fun u => u.part col = { p with lent := p.lent.filter (fun l => !back l) } ∧
            ∀ l ∈ p.lent, back l = true → ∀ a, l.1 * 0x10000000 ≤ a → a < (l.1 + 1) * 0x10000000 → u.byteAt a = 0)) ∧
        (t = 0x34 → answered (.launchCheck m) (if p.present then 0 else 0x0302) [] (fun u => u.parts = s.parts)) ∧
        (t = 0x33 → leField body 0 8 < s.skovi.auditStroke.toNat → answered (.auditSnap m) 0 [] (fun u =>
          u.senders = if leField body 8 1 = 0 then s.senders else s.senders.map (fun e => if e.die == m.src then { e with lastD := none } else e))) ∧
        (t = 0x33 → leField body 0 8 = s.skovi.auditStroke.toNat → leField body 8 1 = 1 → body.length = 32 →
          let c := [BitVec.ofNat 32 (leField body 20 4), BitVec.ofNat 32 (leField body 24 4), BitVec.ofNat 32 (leField body 28 4)]
          let hit := fun (e : Sender) => e.win == BitVec.ofNat 8 (leField body 16 1) && e.die == m.src && e.core == BitVec.ofNat 6 (leField body 17 1)
          ∀ e, s.senders.find? hit = some e →
            let n := (e.diff c).toNat
            let twice := ∃ x, e.lastD = some x ∧ x.1 = e.diff c ∧ x.2.1 = e.snap ++ c ∧ x.2.2 + 2 ^ 18 ≤ s.cclk
            ((n = 0 ∨ ¬ twice) → answered (.auditSnap m) 0 [] (fun u =>
              u.senders.find? hit = some { e with lastD := if n = 0 then none else some (e.diff c, e.snap ++ c, s.cclk), compared := true })) ∧
            (n ≠ 0 → twice → n < 2 ^ 31 → n ≤ e.out → answered (.auditSnap m) 0 [] (fun u =>
              (u.window e.win.toNat).free = (s.window e.win.toNat).free + n ∧
              u.senders.find? hit = some { e with out := e.out - n, correction := e.correction + e.diff c, lastD := none, compared := true }))) ∧
        (t = 0x35 →
          let j := p.job
          let mine := j.live = true ∧ j.id.toNat = leField m.data 4 4
          (¬ mine → answered (.jobEvent m) 0 [] (fun u => u.parts = s.parts)) ∧
          (mine → leField body 0 1 = 0 → j.watchdog ≠ some (BitVec.ofNat 32 (leField body 4 4)) → answered (.jobEvent m) 0 [] (fun u =>
            (u.part col).job.failed = true ∧ (u.part col).job.fromWatch = true ∧ (u.part col).job.watchdog = some (BitVec.ofNat 32 (leField body 4 4)))) ∧
          (mine → leField body 0 1 = 1 → p.resetting = false → ∃ u, exec (.jobEvent m) s = .next u ∧ (u.part col).resetting = true ∧
            (u.part col).resetPolicy = true ∧ (u.part col).resetRestart = false ∧ (u.part col).resetReason.toNat = leField body 1 1) ∧
          (mine → leField body 0 1 = 2 → j.dieSet &&& ~~~ (setBit j.ends m.src.toNat) ≠ 0 → answered (.jobEvent m) 0 [] (fun u =>
            (u.part col).job = { j with ends := setBit j.ends m.src.toNat })) ∧
          (mine → leField body 0 1 = 2 → j.dieSet &&& ~~~ (setBit j.ends m.src.toNat) = 0 → answered (.jobEvent m) 0 [] (fun u =>
            (u.part col).job.st = .ended ∧ (u.part col).job.reason = 1)))) ∧
      (s.forMailbox m = false → t = 0x33 → peerOk m = true → s.skovi.auditStroke.toNat < leField m.data 8 8 → exec (.auditSnap m) s = .next s)) ∧
    (∀ (die : BitVec 6) (seq : BitVec 16),
      (s.skovi.peers.find? (fun q => q.die == die && q.seqno == seq) = none → exec (.peerRequestResend die seq) s = .next s) ∧
      (∀ q, s.skovi.peers.find? (fun q => q.die == die && q.seqno == seq) = some q →
        (s.now < q.sentAt + 1250000 → exec (.peerRequestResend die seq) s = .next s) ∧
        (q.sentAt + 1250000 ≤ s.now → q.resends < 3 → exec (.peerRequestResend die seq) s = .next { s with
          skovi := { s.skovi with peers := mapFirst (fun q => q.die == die && q.seqno == seq) (fun q => { q with resends := q.resends + 1, sentAt := s.now }) s.skovi.peers }
          tx := s.tx ++ [fwMsg s q.die q.mtype q.colour q.seqno q.jobId q.body] }) ∧
        (q.sentAt + 1250000 ≤ s.now → 3 ≤ q.resends → q.mtype ≠ 0x33 → q.mtype ≠ 0x35 →
          let rest : State := { s with skovi := { s.skovi with peers := removeFirst (fun q => q.die == die && q.seqno == seq) s.skovi.peers } }
          (q.who = none → exec (.peerRequestResend die seq) s = .next rest) ∧
          (∀ (k : Nat) (i : BitVec 16), q.who = some (k, i) → ∃ u, exec (.peerRequestResend die seq) s = .next u ∧ u = { rest with mailboxes := u.mailboxes } ∧
            (u.mailbox k).accepted = (s.mailbox k).accepted.map (fun c => if c.idx == i then { c with replies := c.replies ++ [(die, 0x0301, [])] } else c)))))

/-! ### Registers, the debug engine and CU_CTRL -/

/-- Control space as Skovi writes it (R354, R393 to R396, R399 to R403): a write takes effect on registers it covers
whole only; a W1C bit that hardware set in the same CCLK stays (R11); CAPQ_POP moves the oldest record into the log; a period change is scheduled or ignored; the
debug engine refuses by COLOUR, LEVEL and UNMAPPED in that order, or moves its words, and reports when it completes.
Model choices: assumption 74. -/
def Obligations.RegistersTakeWholeWrites : Prop :=
  ∀ s : State, Clocked s →
    let put := fun (a : Dla) (v : Word) => exec (.registerWrite a (leBytes 8 v.toNat)) s
    (∀ (a : Dla) (data : List Byte), mbOf a.toNat = none → data.length < 8 → exec (.registerWrite a data) s = .next s) ∧
    (∀ v : Word,
      put 0xF000000100 v = .next { s with log := { s.log with faultSum := s.log.faultSum &&& ~~~ (v.setWidth 5 &&& ~~~ s.log.newSum), capqDrop := s.log.capqDrop && (!bit v 5 || s.log.newDrop) } } ∧
      put 0xF000020020 v = .next { s with mast := { s.mast with
        lost := s.mast.lost && (!bit v 0 || bit s.mast.newFlags 0), mismatch := s.mast.mismatch && (!bit v 1 || bit s.mast.newFlags 1)
        regress := s.mast.regress && (!bit v 2 || bit s.mast.newFlags 2) } } ∧
      put 0xF000020050 v = .next { s with mast := { s.mast with wrap := s.mast.wrap &&& ~~~ (v.setWidth 3 &&& ~~~ s.mast.newWrap) } } ∧
      (∀ q : PortId, ∃ t, put (BitVec.ofNat 40 (0xF000010080 + q.val * 0x4000)) v = .next t ∧
        (t.port q.val).counts = { (s.port q.val).counts with wrap := (s.port q.val).counts.wrap &&& ~~~ (v.setWidth 8 &&& ~~~ (s.port q.val).counts.newWrap) }) ∧
      put 0xF000000000 v = .next s ∧ put 0xF000020008 v = .next s ∧
      (v = 3 → put 0xF000010008 v = .next s) ∧
      (∀ t, put 0xF000030100 v = .next t → readRegister t 0xF000030100 = v &&& 0xFFFFFFFFF8) ∧
      (∃ t, put 0xF000030200 v = .next t ∧ readRegister t 0xF000030200 = v) ∧
      (∀ (c : CoreId) (base : Dla), base.toNat = 0xF001000000 + c.val * 0x10000 → (s.core c.val).on = true →
        (∃ t, put (base + 0x200) v = .next t ∧ t.core c.val = { s.core c.val with csr := { (s.core c.val).csr with
          flags := (s.core c.val).csr.flags &&& ~~~ (v &&& ~~~ (s.core c.val).flagSets) } }) ∧
        (∃ t, put (base + 0x1A8) v = .next t ∧ t.core c.val = { s.core c.val with csr := { (s.core c.val).csr with
          wrap := (s.core c.val).csr.wrap &&& ~~~ (v.setWidth 5 &&& ~~~ (s.core c.val).csr.newWrap) } }) ∧
        ((s.core c.val).st = .stopped → ∃ t, put (base + 0x8008) v = .next t ∧ readRegister t (base + 0x8008).toNat = v &&& 0xFFFFFFFFF8) ∧
        ((s.core c.val).st = .run → put (base + 0x8008) v = .next s) ∧
        put (base + 0x8000) 1 = exec (.cuRun c) s ∧ put (base + 0x8000) 3 = .next s)) ∧
    (∀ period e : Word,
      let us := (field period 16 10).toNat
      let fits := s.mast.st ≠ .unlocked ∧ s.mast.stroke.toNat + 2 ≤ e.toNat ∧ 1 ≤ us ∧ us ≤ 1000
      (fits → ∃ t, exec (.mastPeriodWrite period e) s = .next t ∧ t = { s with mast := t.mast, dieBookings := t.dieBookings, owed := t.owed } ∧
        t.mast = { s.mast with next := field period 16 10, effective := e, regNext := field period 16 10, regEffective := e, pend := true }) ∧
      (¬ fits → exec (.mastPeriodWrite period e) s = .next s)) ∧
    (s.log.capq = [] → exec .capqPop s = .next s) ∧
    (∀ (r : LogRec) (l : List LogRec), s.skovi.up = true → s.log.capq = r :: l → ∃ t, exec .capqPop s = .next t ∧
      t.log.capq = l ++ s.log.waiting.take 1 ∧ t.log.waiting = s.log.waiting.drop 1 ∧
      (s.log.entries = [] → t.log.entries = [{ r with index := s.log.nextIndex, repeats := 0 }] ∧ t.log.nextIndex = s.log.nextIndex + 1) ∧
      t.cores = s.cores ∧ t.mem = s.mem) ∧
    (∀ ctrl : Word,
      let n := (field ctrl 4 5).toNat + 1
      let a := s.dbg.addr.toNat
      let go := bit ctrl 0 = true ∧ s.dbg.busy = false
      let colours := s.debugColours a n
      let i := if bit ctrl 1 then Instr.dbgWrite ctrl else .dbgRead ctrl
      (¬ go → exec i s = .next s) ∧
      (go → colours = false → exec i s = .next { s with dbg := { s.dbg with result := 2 } }) ∧
      (go → colours = true → (s.dbg.level = 0 ∨ (bit ctrl 1 = true ∧ s.dbg.level ≠ 2)) → exec i s = .next { s with dbg := { s.dbg with result := 1 } }) ∧
      (go → colours = true → s.dbg.level ≠ 0 → (bit ctrl 1 = true → s.dbg.level = 2) → s.place a (8 * n) = .unmapped →
        exec i s = .next { s with dbg := { s.dbg with result := 3 } }) ∧
      (go → colours = true → s.dbg.level ≠ 0 → s.place a (8 * n) ≠ .unmapped → s.detects a (8 * n) = false →
        (bit ctrl 1 = false → ∃ t, exec (.dbgRead ctrl) s = .next t ∧ t = { s with dbg := t.dbg } ∧ t.dbg.busy = true ∧ t.dbg.settle = 0 ∧
          ∀ k, k < n → Table.get 0 t.dbg.data k = BitVec.ofNat 64 (leNat (s.bytesAt (a + 8 * k) 8))) ∧
        (bit ctrl 1 = true → s.dbg.level = 2 → ∃ t, exec (.dbgWrite ctrl) s = .next t ∧ t.dbg = { s.dbg with busy := true, settle := 0 } ∧
          (∀ b, b < a ∨ a + 8 * n ≤ b → t.byteAt b = s.byteAt b) ∧
          ∀ k, k < n → t.bytesAt (a + 8 * k) 8 = leBytes 8 (Table.get 0 s.dbg.data k).toNat))) ∧
    (s.dbg.busy = true → exec .debugAccessComplete s = .next { s with dbg := { s.dbg with busy := false, result := s.dbg.settle } }) ∧
    (s.dbg.busy = false → exec .debugAccessComplete s = .next s)

/-- CU_CTRL (R175, R198, R223, R279, R405, R406): a powered-down core ignores it; each action has its effect in the
states R406 names and logs F_STATE_MISMATCH in the others, and only a core that a partition owns runs (R281); core reset keeps colour, operand buffers and bypass maps and
nothing else of the CU; an engine reset empties that engine's queue, frees the entries of what it had started and fails the step;
REPLAY restores s1 to s31 and PC, lets no older fill write a register, and leaves STATE. Model choices: assumption 40. -/
def Obligations.CoreControlsActInTheirStates : Prop :=
  ∀ (s : State) (c : CoreId), Clocked s →
    let k := s.core c.val
    let still := k.st = .stopped ∨ k.st = .stepHalt ∨ k.st = .halted
    let refused := fun (i : Instr) => ∃ t, exec i s = .next t ∧ t.cores = s.cores ∧ t.mem = s.mem ∧ bit t.log.faultSum 4 = true
    (k.on = false → exec (.cuRun c) s = .next s ∧ exec (.cuStop c) s = .next s ∧ exec (.cuCoreReset c) s = .next s ∧ exec (.cuReplay c) s = .next s ∧
      ∀ e, exec (.cuEngineReset c e) s = .next s) ∧
    (k.on = true →
      (k.colour = 0 → exec (.cuRun c) s = .next s) ∧
      (k.colour ≠ 0 → still → exec (.cuRun c) s = .next (withCore s c { k with st := .run, hold := none, committedSince := 0 })) ∧
      (k.colour ≠ 0 → ¬ still → refused (.cuRun c)) ∧
      ((k.st = .run ∨ k.st = .wait) → k.drained = true → exec (.cuStop c) s = .next (withCore s c { k with st := .stopped, hold := none, drainStop := false })) ∧
      ((k.st = .run ∨ k.st = .wait) → k.drained = false → exec (.cuStop c) s = .next (withCore s c { k with drainStop := true, hold := none })) ∧
      (still → refused (.cuStop c)) ∧
      (∃ t, exec (.cuCoreReset c) s = .next t ∧
        (let y := t.core c.val
         y.on = true ∧ y.colour = k.colour ∧ y.ob = k.ob ∧ y.st = .stopped ∧ y.csr = {} ∧ y.sregs = [] ∧ y.shadow = [] ∧ y.queues = [] ∧ y.running = [] ∧
         y.sb = [] ∧ y.ve = {} ∧ y.ru = [] ∧ y.icache = [] ∧ y.ccache = [] ∧ y.bars = [] ∧
         (∀ n : Nat, (Table.get {} y.arrays n).bad = (Table.get {} k.arrays n).bad ∧ (Table.get {} y.arrays n).retired = (Table.get {} k.arrays n).retired ∧
           (Table.get {} y.arrays n).banks = [])) ∧
        ∀ x : Nat, x ≠ c.val → t.core x = s.core x) ∧
      (∀ e : BitVec 3, e.toNat < 6 → ∃ t, exec (.cuEngineReset c e) s = .next t ∧ Table.get [] (t.core c.val).queues e.toNat = [] ∧
        Table.get [] (t.core c.val).running e.toNat = [] ∧ (t.core c.val).csr = { k.csr with stepFail := true } ∧ (t.core c.val).st = k.st ∧
        (e = 2 → (t.core c.val).ve = {}) ∧ (e = 5 → (t.core c.val).sb = []) ∧
        (∀ q : QInstr, e.toNat < 2 → k.queue e.toNat = [] → k.run e.toNat = [] → (Table.get {} k.arrays e.toNat).inside = [q] →
          k.sb = q.entries → (t.core c.val).sb = []) ∧ ∀ x : Nat, x ≠ c.val → t.core x = s.core x) ∧
      (∀ e : BitVec 3, 6 ≤ e.toNat → refused (.cuEngineReset c e)) ∧
      ((k.st = .stepHalt ∨ k.st = .halted) → k.csr.stepOpen = true → ∃ t, exec (.cuReplay c) s = .next t ∧
        (let y := t.core c.val
         y.st = k.st ∧ y.sregs = k.shadow ∧ y.csr = { k.csr with pc := k.csr.stepPc, stepFail := false } ∧ y.sb = [] ∧ y.pendS = [] ∧ y.ccFill = none ∧
         ∀ e, e < 6 → Table.get [] y.queues e = [] ∧ Table.get [] y.running e = []) ∧
        ∀ x : Nat, x ≠ c.val → t.core x = s.core x) ∧
      (¬ ((k.st = .stepHalt ∨ k.st = .halted) ∧ k.csr.stepOpen = true) → refused (.cuReplay c)))

/-! ### Reset, clocks, temperature and boot -/

/-- The die after a warm reset of s (R60, R96, R289, R388, R395): everything but the AUX domain at reset, a warm boot at
stage 1, the error log and the held image kept, and every port that is not DISABLED training with its sideband as it was.
-/
def Sys2Proof.Stated.WarmBooted (s t : State) : Prop :=
  t.boot.stage = 1 ∧ t.boot.warm = true ∧ t.boot.result = .inProgress ∧ t.boot.refclkLost = false ∧ t.boot.tripped = false ∧
  t.boot.imageHash = s.boot.imageHash ∧ (s.boot.imageOk = true → (s.boot.warm = true ∨ 5 ≤ s.boot.stage) → t.boot.image = s.boot.image ∧ t.boot.imageOk = true) ∧
  t.log.entries = s.log.entries ∧ t.log.nextIndex = s.log.nextIndex ∧ t.log.capq = [] ∧ t.skovi.active = s.skovi.active ∧ t.skovi.up = false ∧
  t.mem = {} ∧ t.mast = {} ∧ t.dieBookings = [] ∧ t.cores = [] ∧ t.counters = [] ∧ t.windows = [] ∧ t.senders = [] ∧ t.parts = [] ∧ t.regions = [] ∧
  t.queues = [] ∧ t.mailboxes = [] ∧ t.member = {} ∧ t.reqs = [] ∧ t.late = [] ∧ t.arrived = [] ∧ t.mesh = [] ∧ t.owed = [] ∧ t.dbg = {} ∧
  t.skovi.retired = [] ∧ t.skovi.rowHits = [] ∧ t.skovi.transfers = [] ∧ t.skovi.peers = [] ∧ t.pending = s.pending ∧
  (∀ p : PortId, (s.port p.val).st = .disabled → (t.port p.val).st = .disabled) ∧
  ∀ p : PortId, (s.port p.val).st ≠ .disabled → (t.port p.val).st = .training ∧ (t.port p.val).sbUp = (s.port p.val).sbUp

/-- Resets, clocks and temperature (R289, R330, R373, R374, R376, R377, R379 to R381, R391): PORST_N low puts every
field at reset; its release samples TEST_MODE; a lost REFCLK or a trip takes every mainband down, and its end boots
warm; WARM_RESET is performed once its response is read or 10 ms have passed; the stretch ratio moves by one step with
the sensors and the power. Model choices: assumptions 78, 79, 81 and 82. -/
def Obligations.ResetsClocksAndTemperature : Prop :=
  ∀ s : State,
    (exec .porstAssert s = .next { State.reset with pending := s.pending, now := s.now, cclk := s.cclk, free := s.free, out := s.out }) ∧
    (∀ test : Bool, s.boot.porstLow = true → exec (.porstRelease test) s =
      .next { s with boot := { s.boot with porstLow := false, testState := test, stage := if test then 0 else 1 } }) ∧
    (∀ test : Bool, s.boot.porstLow = false → exec (.porstRelease test) s = .next s) ∧
    (Powered s →
      (s.boot.refclkLost = true → exec .refclkLoss s = .next s) ∧
      (s.boot.refclkLost = false → ∃ t, exec .refclkLoss s = .next t ∧ t.boot.refclkLost = true ∧
        ∀ p : PortId, (t.port p.val).st = if (s.port p.val).st = .disabled then .disabled else .down) ∧
      (s.boot.refclkLost = true → s.boot.tripped = false → ∃ t, exec .refclkReturn s = .next t ∧ WarmBooted s t) ∧
      (s.boot.refclkLost = true → s.boot.tripped = true → exec .refclkReturn s = .next { s with boot := { s.boot with refclkLost := false } }) ∧
      (∀ sensor : Fin 64,
        (s.boot.tripped = true → exec (.thermtrip sensor) s = .next s) ∧
        (s.boot.tripped = false → ∃ t, exec (.thermtrip sensor) s = .next t ∧ t.boot.tripped = true ∧ bit t.log.faultSum (faultClass fThermtrip) = true ∧
          (∀ p : PortId, (t.port p.val).st = if (s.port p.val).st = .disabled then .disabled else .down))) ∧
      (s.boot.tripped = true → ∃ t, exec .railsReturn s = .next t ∧ WarmBooted s t) ∧
      (s.boot.tripped = false → exec .railsReturn s = .next s)) ∧
    (Clocked s →
      (s.boot.warmAt = none → exec .warmResetPerform s = .next s) ∧
      (∀ (m : BitVec 4) (x : BitVec 16) (t0 : Nat), s.boot.warmAt = some (m, x, t0) →
        let b := s.mailbox m.toNat
        let due := (b.rspTail - b.rspHead).toNat < (b.rspTail - x).toNat ∨ t0 + 12500000 ≤ s.now
        (due → ∃ t, exec .warmResetPerform s = .next t ∧ WarmBooted s t) ∧ (¬ due → exec .warmResetPerform s = .next s))) ∧
    (∀ (temps : List (BitVec 16)) (power : BitVec 16),
      (temps.length ≠ 64 → exec (.thermalUpdate temps power) s = .fault (.illFormed "THERMAL_UPDATE")) ∧
      (Clocked s → temps.length = 64 →
        let layer := fun (i : Nat) => 48 ≤ i ∧ i < 60
        let dark := fun (i : Nat) => (i < 48 ∧ (s.core i).on = false) ∨ (layer i ∧ bit s.mem.layersOn (i - 48) = false)
        let reads := fun (i : Nat) => if dark i then (0x8000 : BitVec 16) else temps.getD i 0
        let hot := (∃ i, i < 64 ∧ (if layer i then 1520 else 1680) < (reads i).toInt) ∨ 3680 < power.toNat
        let cool := (∀ i, i < 64 → (reads i).toInt < (if layer i then 1488 else 1648)) ∧ power.toNat < 3520
        let n := s.therm.ratio
        ∃ t, exec (.thermalUpdate temps power) s = .next t ∧ t = { s with therm := t.therm, log := t.log } ∧ t.therm.power = power ∧
          (hot → 4 < n → t.therm.ratio = n - 1 ∧ bit t.log.faultSum (faultClass fThermalThrottle) = true) ∧
          (hot → n ≤ 4 → t.therm.ratio = n ∧ t.log = s.log) ∧
          (cool → n < 16 → t.therm.ratio = n + 1 ∧ t.log = s.log) ∧ (cool → 16 ≤ n → t.therm.ratio = n) ∧
          (¬ hot → ¬ cool → t.therm.ratio = n ∧ t.log = s.log) ∧ (t.therm.throttling = true ↔ t.therm.ratio < 16) ∧
          ∀ i, i < 64 → Table.get 0x8000 t.therm.temps i = reads i))

/-- The FW_REQ for the bytes of an offset on a port (R383, Table 18-7). -/
def Sys2Proof.Stated.loadMsg (s : State) (p : PortId) (mtype : Byte) (len off : Nat) (data : List Byte) : TxMsg :=
  { msg := { src := s.ownId, dst := 0, colour := 0, op := 6, addr := 0, tag := 0, win := 0, winv := false, status := 0, ll := true
             data := [mtype, 0] ++ leBytes 2 len ++ leBytes 4 off ++ data, bad := false }
    port := some p }

/-- Boot (R46, R96, R217, R303, R382 to R388, R391; Table 18-6): each stage leaves what Table 18-6 says and enters the
next; the firmware pull asks the first source for offset 0, takes data for outstanding offsets only, authenticates a
whole image, moves on from a source that fails, and starts again after 1 s; rows that fail their test take spare rows, and where a
bank has too few its layer or core stays off (R122, R123); the last stage zeroes stack memory and makes
the admin mailbox READY. Model choices: assumptions 42, 76 and 77. -/
def Obligations.BootStagesFollowInOrder : Prop :=
  ∀ s : State,
    let b := s.boot
    let done := fun (r : BootReport) => exec (.bootStageDone r) s
    (∀ r : BootReport, b.porstLow = false → b.testState = true → s.halted = false → done r = .next { s with boot := { b with testReady := true } }) ∧
    (∀ r : BootReport, Clocked s →
      (r.ok = false → done r = .next { s with boot := { b with savedTraining := false } }) ∧
      (r.ok = true →
        (b.stage = 1 → done r = .next { s with boot := { b with stage := 2, result := .inProgress } }) ∧
        (b.stage = 2 → b.warm = true → b.imageOk = true → Config.sha384 b.image = b.imageHash →
          done r = .next { s with boot := { b with stage := 4, result := .inProgress } }) ∧
        (b.stage = 2 → b.warm = false →
          (s.pullOrder = [] → ∃ t, done r = .next t ∧ t.boot.stage = 3 ∧ t.boot.result = .noSource ∧ t.boot.failedAt = s.now ∧ t.tx = s.tx) ∧
          (∀ q l, s.pullOrder = q :: l → ∃ t, done r = .next t ∧ t.boot.stage = 3 ∧ t.boot.result = .inProgress ∧ t.boot.sources = q :: l ∧
            t.boot.fwOut = [0] ∧ t.boot.image = [] ∧ t.tx = s.tx ++ [loadMsg s q 0x20 4096 0 []])) ∧
        (b.stage = 4 → b.imageOk = false → done r = .next s) ∧
        (b.stage = 4 → b.imageOk = true → ∃ t, done r = .next t ∧ t.boot.stage = 5 ∧ t.skovi.up = true ∧
          t.skovi.active = BitVec.ofNat 32 (leField b.image 4 4) ∧ t.mem = s.mem) ∧
        (b.stage = 5 → ∃ t, done r = .next t ∧ t.boot.stage = 6 ∧ t.mem.layersOn = ~~~ badLayers r ∧
          t.boot.layerFailed = (b.layerFailed || badLayers r != 0) ∧ (t.boot.result = if badLayers r = 0 then .inProgress else .layerFailed) ∧
          (∀ x ∈ t.skovi.retired, x ∈ r.rows) ∧ (∀ x ∈ r.rows, shortBank r.rows x = false → x ∈ t.skovi.retired)) ∧
        (∀ l : Fin 12, bit (badLayers r) l.val = true ↔ bit r.layersFailed l.val = true ∨
          ∃ x ∈ r.rows, x < 2 ^ 30 ∧ x / (48 * 16 * 4096) = l.val ∧ shortBank r.rows x = true) ∧
        (∀ c : CoreId, bit (badCores r) c.val = true ↔ bit r.coresFailed c.val = true ∨
          ∃ x ∈ r.rows, 2 ^ 30 ≤ x ∧ (x - 2 ^ 30) / (32 * 3072) = c.val ∧ shortBank r.rows x = true) ∧
        (b.stage = 6 → s.cores = [] → (r.arrays.filter (fun x => x.rowFault || decide (4 < popcount x.bad))).length < 4 → ∃ t, done r = .next t ∧
          t.boot.stage = 7 ∧ (∀ c : CoreId, (t.core c.val).on = !bit (badCores r) c.val) ∧ t.boot.coreFailed = (b.coreFailed || badCores r != 0) ∧
          (t.boot.result = if badCores r = 0 then .inProgress else .coreFailed) ∧
          ∀ x, r.arrays = [x] → (Table.get {} (t.core x.core.val).arrays x.array.val).bad = x.bad ∧
            (Table.get {} (t.core x.core.val).arrays x.array.val).retired = (x.rowFault || decide (4 < popcount x.bad))) ∧
        (b.stage = 7 → done r = .next { s with boot := { b with stage := 8, result := .inProgress } }) ∧
        (b.stage = 8 → (∃ p : PortId, (s.port p.val).st = .training) → done r = .next s) ∧
        (b.stage = 8 → (∀ p : PortId, (s.port p.val).st ≠ .training) → ∃ t, done r = .next t ∧ t.boot.stage = 9 ∧
          ((∃ p : PortId, (s.port p.val).st = .down) → t.boot.portFailed = true ∧ t.boot.result = .portFailed) ∧
          ((∀ p : PortId, (s.port p.val).st ≠ .down) → t.boot.portFailed = b.portFailed ∧ t.boot.result = .inProgress)) ∧
        (b.stage = 9 → s.hub = none → done r = .next s) ∧
        (∀ h, b.stage = 9 → s.hub = some h → done r = .next (if s.member.id.isSome = true ∧ (s.die h.toNat).st = .verified then
          { s with boot := { b with stage := 10, result := .inProgress } } else s)) ∧
        (b.stage = 10 → done r = .next (if s.mast.st = .unlocked then s else { s with boot := { b with stage := 11, result := .inProgress } })) ∧
        (b.stage = 11 → b.result = .inProgress → ∃ t, done r = .next t ∧ t.boot.result = .complete ∧ t.skovi.mbEpoch = 1 ∧
          t.mailbox 0 = { st := .ready, info := 0x0204, mbEpoch := 1 } ∧ (∀ a : Nat, a < 0x1200000000 → t.byteAt a = 0) ∧
          (s.member.fenced = false → b.layerFailed = false → b.coreFailed = false → b.portFailed = false → t.member.health = 0) ∧
          (s.member.fenced = true → t.member.health = 2)) ∧
        (b.stage = 11 → b.result = .complete → done r = .next s))) ∧
    (Powered s → s.arrived = [] →
      (∀ (p : PortId) (m : Msg), s.halted = false → s.forMailbox m = true → exec (.fwData p m) s = exec (.mbWrite m) s ∧ exec (.fwReq p m) s = exec (.mbWrite m) s) ∧
      (∀ (p : PortId) (m : Msg), s.forMailbox m = false →
        let off := leField m.data 4 4
        let d := m.data.drop 8
        let wellFormed := m.bad = false ∧ m.ll = true ∧ leField m.data 0 1 = 0x21 ∧ leField m.data 1 1 = 0 ∧ leField m.data 2 2 = d.length ∧ d.length ≤ 4096
        let wanted := b.stage = 3 ∧ b.result = .inProgress ∧ b.sources.head? = some p ∧ off ∈ b.fwOut
        (¬ (wellFormed ∧ wanted) → exec (.fwData p m) s = .next s) ∧
        (wellFormed → wanted → d = [] → exec (.fwData p m) s = .next (pullFrom s (b.sources.drop 1))) ∧
        (wellFormed → wanted → d ≠ [] → b.fwOut = [off] → off = b.image.length → d.length = b.chunk off → 256 ≤ (b.image ++ d).length →
          imageLength (b.image ++ d) = (b.image ++ d).length → imageLength (b.image ++ d) ≤ b.fwNext → imageAccepted (b.image ++ d) = true →
          ∃ t, exec (.fwData p m) s = .next t ∧ t.boot.stage = 4 ∧ t.boot.imageOk = true ∧ t.boot.image = b.image ++ d ∧
            t.boot.imageHash = Config.sha384 (b.image ++ d) ∧ t.tx = s.tx)) ∧
      (∀ (p : PortId) (n off : Nat) (m : Msg), s.forMailbox m = false → m.bad = false → m.ll = true → m.data = [0x20, 0] ++ leBytes 2 n ++ leBytes 4 off → 1 ≤ n → n ≤ 4096 →
        off < 2 ^ 32 →
        let d := if b.imageOk then (b.image.drop off).take n else []
        exec (.fwReq p m) s = .next { s with tx := s.tx ++ [loadMsg s p 0x21 d.length off d] }) ∧
      ((b.stage ≠ 3 ∨ b.result ≠ .inProgress ∨ b.fwOut = [] ∨ s.now < b.fwSentAt + 1250000) → exec .fwReqResend s = .next s) ∧
      (b.stage = 3 → b.result = .inProgress → b.fwSentAt + 1250000 ≤ s.now →
        (b.fwOut ≠ [] → 2 ≤ b.fwTries → exec .fwReqResend s = .next (pullFrom s (b.sources.drop 1))) ∧
        (∀ off q l, b.fwOut = [off] → b.sources = q :: l → b.fwTries < 2 → ∃ t, exec .fwReqResend s = .next t ∧ t.boot.fwTries = b.fwTries + 1 ∧
          t.boot.fwSentAt = s.now ∧ t.tx = s.tx ++ [loadMsg s q 0x20 (b.chunk off) off []])) ∧
      ((b.result ≠ .noSource ∧ b.result ≠ .authFailed ∨ b.stage ≠ 3 ∨ s.now < b.failedAt + 1250000000) → exec .bootSourceRetry s = .next s) ∧
      (b.stage = 3 → (b.result = .noSource ∨ b.result = .authFailed) → b.failedAt + 1250000000 ≤ s.now → ∃ t, exec .bootSourceRetry s = .next t ∧
        t.boot.stage = 3 ∧ t.boot.sources = s.pullOrder ∧ t.boot.image = []))

/-! ### The test port -/

/-- The test instructions (R389 to R391, Table 18-9): nothing is in force under PORST_N low; BYPASS, IDCODE, SAMPLE and
BOOTSTAT work always; the others are BYPASS outside the test state and before its zero fill has ended. What the spec
gives no value for is a free value. Model choices: assumptions 9, 11 and 12. -/
def Obligations.TestInstructionsAnswer : Prop :=
  ∀ s : State,
    let inForce := fun (u : State) (i : TestInstr) => { u with test := { u.test with ir := i } }
    let shifts := fun (u : State) (w : Word) => { u with out := .tdo w :: u.out }
    let drawn : State := { s with free := s.free + 1 }
    (s.boot.porstLow = true → ∀ i ∈ ([.bypass, .idcode, .sample, .bootstat] : List Instr), exec i s = .next (if i = .sample then drawn else s)) ∧
    (s.boot.porstLow = false →
      exec .bypass s = .next (inForce s .bypass) ∧
      (∃ w : Word, exec .idcode s = .next (shifts (inForce s .idcode) w) ∧ field w 28 4 = 1 ∧ field w 12 16 = 0x0040 ∧ bit w 0 = true ∧ field w 32 32 = 0) ∧
      exec .sample s = .next (shifts (inForce drawn .sample) (Config.freeWord s.free)) ∧
      (∃ w : Word, exec .bootstat s = .next (shifts (inForce s .bootstat) w) ∧ (s.boot.stage < 16 → (field w 0 4).toNat = s.boot.stage)) ∧
      (∀ l : Fin 12, (s.boot.testState = false ∨ s.boot.testReady = false) →
        ∀ i ∈ ([.preload, .extest, .hlloop, .stacksel l, .mbist, .corescan] : List Instr), exec i s = .next (inForce s .bypass)) ∧
      (s.boot.testState = true → s.boot.testReady = true →
        exec .preload s = .next (inForce { drawn with test := { s.test with boundary := Config.freeWord s.free } } .preload) ∧
        exec .extest s = .next (shifts (inForce drawn .extest) (Config.freeWord s.free)) ∧
        exec .hlloop s = .next (inForce s .hlloop) ∧
        (∀ l : Fin 12, exec (.stacksel l) s = .next (inForce s (.stacksel l))) ∧
        exec .mbist s = .next (shifts (inForce drawn .mbist) (Config.freeWord s.free)) ∧
        exec .corescan s = .next (shifts (inForce drawn .corescan) (Config.freeWord s.free))))
end

