-- ==== Sys2Proof/Laws/Table.lean ====
section
/-!
SUPPORT. The laws of sparse tables: what is read after a write, and that every write keeps the canonical form.
-/
namespace Sys2Proof.Machine

variable {α : Type} (d : α)

/-! ### Read after write -/

/-- A value put at a key is read there and nowhere else. -/
theorem Table.get_put (t : Table α) (j i : Nat) (w : α) :
    Table.get d (Table.put t j w) i = if i = j then w else Table.get d t i := by
  induction t with
  | nil => simp [Table.put, Table.get]
  | cons e t ih =>
    obtain ⟨k, v⟩ := e
    simp only [Table.put]
    split
    · simp [Table.get]
    · split
      · subst_vars; simp [Table.get]; split <;> simp_all
      · simp only [Table.get, ih]; split <;> split <;> simp_all

/-- A dropped key reads as the default. -/
theorem Table.get_drop (t : Table α) (j i : Nat) :
    Table.get d (Table.drop t j) i = if i = j then d else Table.get d t i := by
  induction t with
  | nil => simp [Table.drop, Table.get]
  | cons e t ih =>
    obtain ⟨k, v⟩ := e
    simp only [Table.drop, List.filter_cons] at ih ⊢
    by_cases hk : k = j
    · subst hk; simp [Table.get, ih]; split <;> simp_all
    · simp [hk, Table.get, ih]; split <;> simp_all

/-- A filter on keys reads as the default where it drops. -/
theorem Table.get_filter (t : Table α) (p : Nat → Bool) (i : Nat) :
    Table.get d (t.filter (fun e => p e.1)) i = if p i = true then Table.get d t i else d := by
  induction t with
  | nil => simp [Table.get]
  | cons e t ih =>
    obtain ⟨k, v⟩ := e
    simp only [List.filter_cons]
    by_cases hk : p k = true
    · simp only [hk, if_true, Table.get, ih]
      by_cases hi : i = k
      · subst hi; simp [hk]
      · simp [hi]
    · rw [if_neg hk, ih]
      by_cases hi : i = k
      · subst hi; simp [hk]
      · simp [hi, Table.get]

variable [DecidableEq α]

/-- Read after write. -/
theorem Table.get_set (t : Table α) (j i : Nat) (w : α) :
    Table.get d (Table.set d t j w) i = if i = j then w else Table.get d t i := by
  unfold Table.set; split
  · subst_vars; exact Table.get_drop ..
  · exact Table.get_put ..

/-- The key written reads as the value written. -/
@[simp] theorem Table.get_set_same (t : Table α) (j : Nat) (w : α) : Table.get d (Table.set d t j w) j = w := by
  simp [Table.get_set]

/-- A key not written reads as before. -/
theorem Table.get_set_other (t : Table α) (j i : Nat) (w : α) (h : i ≠ j) :
    Table.get d (Table.set d t j w) i = Table.get d t i := by
  simp [Table.get_set, h]

/-- A second write at the same key covers the first, where the first is no default. -/
theorem Table.set_set_of_ne (t : Table α) (j : Nat) (v w : α) (hv : v ≠ d) (hw : w ≠ d) :
    Table.set d (Table.set d t j v) j w = Table.set d t j w := by
  simp only [Table.set, hv, hw, if_false]
  induction t with
  | nil => simp [Table.put]
  | cons e t ih =>
    obtain ⟨k, x⟩ := e
    simp only [Table.put]
    by_cases h1 : j < k
    · simp [h1, Table.put]
    · by_cases h2 : j = k
      · simp [h2, Table.put]
      · simp [h1, h2, Table.put, ih]

/-- An update changes a key that its list names, any other reads as before. -/
theorem Table.get_update_other (f : Nat → α → α) (js : List Nat) (t : Table α) (i : Nat) (h : i ∉ js) :
    Table.get d (Table.update d f js t) i = Table.get d t i := by
  induction js generalizing t with
  | nil => rfl
  | cons j js ih =>
    simp only [List.mem_cons, not_or] at h
    simp only [Table.update]
    rw [ih _ h.2, Table.get_set_other _ _ _ _ _ h.1]

/-- An update without repeats applies its function once at each key it names. -/
theorem Table.get_update_mem (f : Nat → α → α) (js : List Nat) (t : Table α) (i : Nat) (hn : js.Nodup) (h : i ∈ js) :
    Table.get d (Table.update d f js t) i = f i (Table.get d t i) := by
  induction js generalizing t with
  | nil => simp at h
  | cons j js ih =>
    simp only [List.nodup_cons] at hn
    simp only [Table.update]
    by_cases hi : i = j
    · subst hi; rw [Table.get_update_other _ _ _ _ _ hn.1, Table.get_set_same]
    · have : i ∈ js := by simpa [hi] using h
      rw [ih _ hn.2 this, Table.get_set_other _ _ _ _ _ hi]

/-! ### The canonical form -/

omit [DecidableEq α] in
/-- A rising table rises from any lower bound. -/
theorem Table.rising_mono {a b : Nat} {t : Table α} (h : a ≤ b) (hb : Table.rising b t = true) : Table.rising a t = true := by
  cases t with
  | nil => rfl
  | cons e t =>
    obtain ⟨k, v⟩ := e
    simp only [Table.rising, Bool.and_eq_true, decide_eq_true_eq] at hb ⊢
    exact ⟨Nat.le_trans h hb.1, hb.2⟩

omit [DecidableEq α] in
/-- Filtering keeps keys rising. -/
theorem Table.rising_filter (p : Nat × α → Bool) {a : Nat} {t : Table α} (h : Table.rising a t = true) :
    Table.rising a (t.filter p) = true := by
  induction t generalizing a with
  | nil => rfl
  | cons e t ih =>
    obtain ⟨k, v⟩ := e
    simp only [Table.rising, Bool.and_eq_true, decide_eq_true_eq] at h
    simp only [List.filter_cons]
    split
    · simp only [Table.rising, Bool.and_eq_true, decide_eq_true_eq]; exact ⟨h.1, ih h.2⟩
    · exact Table.rising_mono (Nat.le_succ_of_le h.1) (ih h.2)

omit [DecidableEq α] in
/-- Putting a value keeps keys rising. -/
theorem Table.rising_put {a : Nat} {t : Table α} (j : Nat) (w : α) (ha : a ≤ j) (h : Table.rising a t = true) :
    Table.rising a (Table.put t j w) = true := by
  induction t generalizing a with
  | nil => simp [Table.put, Table.rising, ha]
  | cons e t ih =>
    obtain ⟨k, v⟩ := e
    simp only [Table.rising, Bool.and_eq_true, decide_eq_true_eq] at h
    simp only [Table.put]
    split
    · simp only [Table.rising, Bool.and_eq_true, decide_eq_true_eq]; exact ⟨ha, by omega, h.2⟩
    · split
      · subst_vars; simp only [Table.rising, Bool.and_eq_true, decide_eq_true_eq]; exact ⟨ha, h.2⟩
      · simp only [Table.rising, Bool.and_eq_true, decide_eq_true_eq]; exact ⟨h.1, ih (by omega) h.2⟩

omit [DecidableEq α] in
/-- What a put table lists: the new value, or what was listed. -/
theorem Table.mem_put {t : Table α} {j : Nat} {w : α} {e : Nat × α} (h : e ∈ Table.put t j w) : e = (j, w) ∨ e ∈ t := by
  induction t with
  | nil => simpa [Table.put] using h
  | cons x t ih =>
    obtain ⟨k, v⟩ := x
    simp only [Table.put] at h
    split at h
    · simpa using h
    · split at h
      · simp only [List.mem_cons] at h ⊢; tauto
      · simp only [List.mem_cons] at h ⊢
        rcases h with h | h
        · exact Or.inr (Or.inl h)
        · rcases ih h with h | h
          · exact Or.inl h
          · exact Or.inr (Or.inr h)

/-- A filter keeps the canonical form. -/
theorem Table.wf_filter (p : Nat × α → Bool) {t : Table α} (h : Table.wf d t = true) : Table.wf d (t.filter p) = true := by
  simp only [Table.wf, Bool.and_eq_true, List.all_eq_true] at h ⊢
  exact ⟨Table.rising_filter p h.1, fun e he => h.2 e (List.mem_filter.mp he).1⟩

/-- A write keeps the canonical form. -/
theorem Table.wf_set {t : Table α} (j : Nat) (w : α) (h : Table.wf d t = true) : Table.wf d (Table.set d t j w) = true := by
  unfold Table.set
  split
  · exact Table.wf_filter d _ h
  · simp only [Table.wf, Bool.and_eq_true, List.all_eq_true] at h ⊢
    refine ⟨Table.rising_put j w (Nat.zero_le _) h.1, fun e he => ?_⟩
    rcases Table.mem_put he with rfl | he
    · simpa using ‹¬ w = d›
    · exact h.2 e he

end Sys2Proof.Machine
end

