-- ==== Sys2Proof/Laws/State.lean ====
section
/-!
SUPPORT. What each named update of the die leaves as it was, one lemma per field, and what it puts where it writes.
-/
namespace Sys2Proof.Machine

/-! ### setCore -/

@[simp] theorem State.setCore_pending (s : State) (c : Nat) (k : Core) : (s.setCore c k).pending = s.pending := rfl
@[simp] theorem State.setCore_now (s : State) (c : Nat) (k : Core) : (s.setCore c k).now = s.now := rfl
@[simp] theorem State.setCore_cclk (s : State) (c : Nat) (k : Core) : (s.setCore c k).cclk = s.cclk := rfl
@[simp] theorem State.setCore_free (s : State) (c : Nat) (k : Core) : (s.setCore c k).free = s.free := rfl
@[simp] theorem State.setCore_boot (s : State) (c : Nat) (k : Core) : (s.setCore c k).boot = s.boot := rfl
@[simp] theorem State.setCore_mast (s : State) (c : Nat) (k : Core) : (s.setCore c k).mast = s.mast := rfl
@[simp] theorem State.setCore_dieBookings (s : State) (c : Nat) (k : Core) : (s.setCore c k).dieBookings = s.dieBookings := rfl
@[simp] theorem State.setCore_owed (s : State) (c : Nat) (k : Core) : (s.setCore c k).owed = s.owed := rfl
@[simp] theorem State.setCore_ports (s : State) (c : Nat) (k : Core) : (s.setCore c k).ports = s.ports := rfl
@[simp] theorem State.setCore_mem (s : State) (c : Nat) (k : Core) : (s.setCore c k).mem = s.mem := rfl
@[simp] theorem State.setCore_member (s : State) (c : Nat) (k : Core) : (s.setCore c k).member = s.member := rfl
@[simp] theorem State.setCore_counters (s : State) (c : Nat) (k : Core) : (s.setCore c k).counters = s.counters := rfl
@[simp] theorem State.setCore_windows (s : State) (c : Nat) (k : Core) : (s.setCore c k).windows = s.windows := rfl
@[simp] theorem State.setCore_senders (s : State) (c : Nat) (k : Core) : (s.setCore c k).senders = s.senders := rfl
@[simp] theorem State.setCore_regions (s : State) (c : Nat) (k : Core) : (s.setCore c k).regions = s.regions := rfl
@[simp] theorem State.setCore_parts (s : State) (c : Nat) (k : Core) : (s.setCore c k).parts = s.parts := rfl
@[simp] theorem State.setCore_queues (s : State) (c : Nat) (k : Core) : (s.setCore c k).queues = s.queues := rfl
@[simp] theorem State.setCore_mailboxes (s : State) (c : Nat) (k : Core) : (s.setCore c k).mailboxes = s.mailboxes := rfl
@[simp] theorem State.setCore_skovi (s : State) (c : Nat) (k : Core) : (s.setCore c k).skovi = s.skovi := rfl
@[simp] theorem State.setCore_log (s : State) (c : Nat) (k : Core) : (s.setCore c k).log = s.log := rfl
@[simp] theorem State.setCore_therm (s : State) (c : Nat) (k : Core) : (s.setCore c k).therm = s.therm := rfl
@[simp] theorem State.setCore_dbg (s : State) (c : Nat) (k : Core) : (s.setCore c k).dbg = s.dbg := rfl
@[simp] theorem State.setCore_test (s : State) (c : Nat) (k : Core) : (s.setCore c k).test = s.test := rfl
@[simp] theorem State.setCore_intrs (s : State) (c : Nat) (k : Core) : (s.setCore c k).intrs = s.intrs := rfl
@[simp] theorem State.setCore_reqs (s : State) (c : Nat) (k : Core) : (s.setCore c k).reqs = s.reqs := rfl
@[simp] theorem State.setCore_mesh (s : State) (c : Nat) (k : Core) : (s.setCore c k).mesh = s.mesh := rfl
@[simp] theorem State.setCore_landed (s : State) (c : Nat) (k : Core) : (s.setCore c k).landed = s.landed := rfl
@[simp] theorem State.setCore_arrived (s : State) (c : Nat) (k : Core) : (s.setCore c k).arrived = s.arrived := rfl
@[simp] theorem State.setCore_tx (s : State) (c : Nat) (k : Core) : (s.setCore c k).tx = s.tx := rfl
@[simp] theorem State.setCore_msgs (s : State) (c : Nat) (k : Core) : (s.setCore c k).msgs = s.msgs := rfl
@[simp] theorem State.setCore_late (s : State) (c : Nat) (k : Core) : (s.setCore c k).late = s.late := rfl
@[simp] theorem State.setCore_slotsDropped (s : State) (c : Nat) (k : Core) : (s.setCore c k).slotsDropped = s.slotsDropped := rfl
@[simp] theorem State.setCore_out (s : State) (c : Nat) (k : Core) : (s.setCore c k).out = s.out := rfl

/-! ### modCore -/

@[simp] theorem State.modCore_pending (s : State) (c : Nat) (f : Core → Core) : (s.modCore c f).pending = s.pending := rfl
@[simp] theorem State.modCore_now (s : State) (c : Nat) (f : Core → Core) : (s.modCore c f).now = s.now := rfl
@[simp] theorem State.modCore_cclk (s : State) (c : Nat) (f : Core → Core) : (s.modCore c f).cclk = s.cclk := rfl
@[simp] theorem State.modCore_free (s : State) (c : Nat) (f : Core → Core) : (s.modCore c f).free = s.free := rfl
@[simp] theorem State.modCore_boot (s : State) (c : Nat) (f : Core → Core) : (s.modCore c f).boot = s.boot := rfl
@[simp] theorem State.modCore_mast (s : State) (c : Nat) (f : Core → Core) : (s.modCore c f).mast = s.mast := rfl
@[simp] theorem State.modCore_dieBookings (s : State) (c : Nat) (f : Core → Core) : (s.modCore c f).dieBookings = s.dieBookings := rfl
@[simp] theorem State.modCore_owed (s : State) (c : Nat) (f : Core → Core) : (s.modCore c f).owed = s.owed := rfl
@[simp] theorem State.modCore_ports (s : State) (c : Nat) (f : Core → Core) : (s.modCore c f).ports = s.ports := rfl
@[simp] theorem State.modCore_mem (s : State) (c : Nat) (f : Core → Core) : (s.modCore c f).mem = s.mem := rfl
@[simp] theorem State.modCore_member (s : State) (c : Nat) (f : Core → Core) : (s.modCore c f).member = s.member := rfl
@[simp] theorem State.modCore_counters (s : State) (c : Nat) (f : Core → Core) : (s.modCore c f).counters = s.counters := rfl
@[simp] theorem State.modCore_windows (s : State) (c : Nat) (f : Core → Core) : (s.modCore c f).windows = s.windows := rfl
@[simp] theorem State.modCore_senders (s : State) (c : Nat) (f : Core → Core) : (s.modCore c f).senders = s.senders := rfl
@[simp] theorem State.modCore_regions (s : State) (c : Nat) (f : Core → Core) : (s.modCore c f).regions = s.regions := rfl
@[simp] theorem State.modCore_parts (s : State) (c : Nat) (f : Core → Core) : (s.modCore c f).parts = s.parts := rfl
@[simp] theorem State.modCore_queues (s : State) (c : Nat) (f : Core → Core) : (s.modCore c f).queues = s.queues := rfl
@[simp] theorem State.modCore_mailboxes (s : State) (c : Nat) (f : Core → Core) : (s.modCore c f).mailboxes = s.mailboxes := rfl
@[simp] theorem State.modCore_skovi (s : State) (c : Nat) (f : Core → Core) : (s.modCore c f).skovi = s.skovi := rfl
@[simp] theorem State.modCore_log (s : State) (c : Nat) (f : Core → Core) : (s.modCore c f).log = s.log := rfl
@[simp] theorem State.modCore_therm (s : State) (c : Nat) (f : Core → Core) : (s.modCore c f).therm = s.therm := rfl
@[simp] theorem State.modCore_dbg (s : State) (c : Nat) (f : Core → Core) : (s.modCore c f).dbg = s.dbg := rfl
@[simp] theorem State.modCore_test (s : State) (c : Nat) (f : Core → Core) : (s.modCore c f).test = s.test := rfl
@[simp] theorem State.modCore_intrs (s : State) (c : Nat) (f : Core → Core) : (s.modCore c f).intrs = s.intrs := rfl
@[simp] theorem State.modCore_reqs (s : State) (c : Nat) (f : Core → Core) : (s.modCore c f).reqs = s.reqs := rfl
@[simp] theorem State.modCore_mesh (s : State) (c : Nat) (f : Core → Core) : (s.modCore c f).mesh = s.mesh := rfl
@[simp] theorem State.modCore_landed (s : State) (c : Nat) (f : Core → Core) : (s.modCore c f).landed = s.landed := rfl
@[simp] theorem State.modCore_arrived (s : State) (c : Nat) (f : Core → Core) : (s.modCore c f).arrived = s.arrived := rfl
@[simp] theorem State.modCore_tx (s : State) (c : Nat) (f : Core → Core) : (s.modCore c f).tx = s.tx := rfl
@[simp] theorem State.modCore_msgs (s : State) (c : Nat) (f : Core → Core) : (s.modCore c f).msgs = s.msgs := rfl
@[simp] theorem State.modCore_late (s : State) (c : Nat) (f : Core → Core) : (s.modCore c f).late = s.late := rfl
@[simp] theorem State.modCore_slotsDropped (s : State) (c : Nat) (f : Core → Core) : (s.modCore c f).slotsDropped = s.slotsDropped := rfl
@[simp] theorem State.modCore_out (s : State) (c : Nat) (f : Core → Core) : (s.modCore c f).out = s.out := rfl

/-! ### setPort -/

@[simp] theorem State.setPort_pending (s : State) (p : Nat) (x : Port) : (s.setPort p x).pending = s.pending := rfl
@[simp] theorem State.setPort_now (s : State) (p : Nat) (x : Port) : (s.setPort p x).now = s.now := rfl
@[simp] theorem State.setPort_cclk (s : State) (p : Nat) (x : Port) : (s.setPort p x).cclk = s.cclk := rfl
@[simp] theorem State.setPort_free (s : State) (p : Nat) (x : Port) : (s.setPort p x).free = s.free := rfl
@[simp] theorem State.setPort_boot (s : State) (p : Nat) (x : Port) : (s.setPort p x).boot = s.boot := rfl
@[simp] theorem State.setPort_mast (s : State) (p : Nat) (x : Port) : (s.setPort p x).mast = s.mast := rfl
@[simp] theorem State.setPort_dieBookings (s : State) (p : Nat) (x : Port) : (s.setPort p x).dieBookings = s.dieBookings := rfl
@[simp] theorem State.setPort_owed (s : State) (p : Nat) (x : Port) : (s.setPort p x).owed = s.owed := rfl
@[simp] theorem State.setPort_mem (s : State) (p : Nat) (x : Port) : (s.setPort p x).mem = s.mem := rfl
@[simp] theorem State.setPort_member (s : State) (p : Nat) (x : Port) : (s.setPort p x).member = s.member := rfl
@[simp] theorem State.setPort_cores (s : State) (p : Nat) (x : Port) : (s.setPort p x).cores = s.cores := rfl
@[simp] theorem State.setPort_counters (s : State) (p : Nat) (x : Port) : (s.setPort p x).counters = s.counters := rfl
@[simp] theorem State.setPort_windows (s : State) (p : Nat) (x : Port) : (s.setPort p x).windows = s.windows := rfl
@[simp] theorem State.setPort_senders (s : State) (p : Nat) (x : Port) : (s.setPort p x).senders = s.senders := rfl
@[simp] theorem State.setPort_regions (s : State) (p : Nat) (x : Port) : (s.setPort p x).regions = s.regions := rfl
@[simp] theorem State.setPort_parts (s : State) (p : Nat) (x : Port) : (s.setPort p x).parts = s.parts := rfl
@[simp] theorem State.setPort_queues (s : State) (p : Nat) (x : Port) : (s.setPort p x).queues = s.queues := rfl
@[simp] theorem State.setPort_mailboxes (s : State) (p : Nat) (x : Port) : (s.setPort p x).mailboxes = s.mailboxes := rfl
@[simp] theorem State.setPort_skovi (s : State) (p : Nat) (x : Port) : (s.setPort p x).skovi = s.skovi := rfl
@[simp] theorem State.setPort_log (s : State) (p : Nat) (x : Port) : (s.setPort p x).log = s.log := rfl
@[simp] theorem State.setPort_therm (s : State) (p : Nat) (x : Port) : (s.setPort p x).therm = s.therm := rfl
@[simp] theorem State.setPort_dbg (s : State) (p : Nat) (x : Port) : (s.setPort p x).dbg = s.dbg := rfl
@[simp] theorem State.setPort_test (s : State) (p : Nat) (x : Port) : (s.setPort p x).test = s.test := rfl
@[simp] theorem State.setPort_intrs (s : State) (p : Nat) (x : Port) : (s.setPort p x).intrs = s.intrs := rfl
@[simp] theorem State.setPort_reqs (s : State) (p : Nat) (x : Port) : (s.setPort p x).reqs = s.reqs := rfl
@[simp] theorem State.setPort_mesh (s : State) (p : Nat) (x : Port) : (s.setPort p x).mesh = s.mesh := rfl
@[simp] theorem State.setPort_landed (s : State) (p : Nat) (x : Port) : (s.setPort p x).landed = s.landed := rfl
@[simp] theorem State.setPort_arrived (s : State) (p : Nat) (x : Port) : (s.setPort p x).arrived = s.arrived := rfl
@[simp] theorem State.setPort_tx (s : State) (p : Nat) (x : Port) : (s.setPort p x).tx = s.tx := rfl
@[simp] theorem State.setPort_msgs (s : State) (p : Nat) (x : Port) : (s.setPort p x).msgs = s.msgs := rfl
@[simp] theorem State.setPort_late (s : State) (p : Nat) (x : Port) : (s.setPort p x).late = s.late := rfl
@[simp] theorem State.setPort_slotsDropped (s : State) (p : Nat) (x : Port) : (s.setPort p x).slotsDropped = s.slotsDropped := rfl
@[simp] theorem State.setPort_out (s : State) (p : Nat) (x : Port) : (s.setPort p x).out = s.out := rfl

/-! ### modPort -/

@[simp] theorem State.modPort_pending (s : State) (p : Nat) (f : Port → Port) : (s.modPort p f).pending = s.pending := rfl
@[simp] theorem State.modPort_now (s : State) (p : Nat) (f : Port → Port) : (s.modPort p f).now = s.now := rfl
@[simp] theorem State.modPort_cclk (s : State) (p : Nat) (f : Port → Port) : (s.modPort p f).cclk = s.cclk := rfl
@[simp] theorem State.modPort_free (s : State) (p : Nat) (f : Port → Port) : (s.modPort p f).free = s.free := rfl
@[simp] theorem State.modPort_boot (s : State) (p : Nat) (f : Port → Port) : (s.modPort p f).boot = s.boot := rfl
@[simp] theorem State.modPort_mast (s : State) (p : Nat) (f : Port → Port) : (s.modPort p f).mast = s.mast := rfl
@[simp] theorem State.modPort_dieBookings (s : State) (p : Nat) (f : Port → Port) : (s.modPort p f).dieBookings = s.dieBookings := rfl
@[simp] theorem State.modPort_owed (s : State) (p : Nat) (f : Port → Port) : (s.modPort p f).owed = s.owed := rfl
@[simp] theorem State.modPort_mem (s : State) (p : Nat) (f : Port → Port) : (s.modPort p f).mem = s.mem := rfl
@[simp] theorem State.modPort_member (s : State) (p : Nat) (f : Port → Port) : (s.modPort p f).member = s.member := rfl
@[simp] theorem State.modPort_cores (s : State) (p : Nat) (f : Port → Port) : (s.modPort p f).cores = s.cores := rfl
@[simp] theorem State.modPort_counters (s : State) (p : Nat) (f : Port → Port) : (s.modPort p f).counters = s.counters := rfl
@[simp] theorem State.modPort_windows (s : State) (p : Nat) (f : Port → Port) : (s.modPort p f).windows = s.windows := rfl
@[simp] theorem State.modPort_senders (s : State) (p : Nat) (f : Port → Port) : (s.modPort p f).senders = s.senders := rfl
@[simp] theorem State.modPort_regions (s : State) (p : Nat) (f : Port → Port) : (s.modPort p f).regions = s.regions := rfl
@[simp] theorem State.modPort_parts (s : State) (p : Nat) (f : Port → Port) : (s.modPort p f).parts = s.parts := rfl
@[simp] theorem State.modPort_queues (s : State) (p : Nat) (f : Port → Port) : (s.modPort p f).queues = s.queues := rfl
@[simp] theorem State.modPort_mailboxes (s : State) (p : Nat) (f : Port → Port) : (s.modPort p f).mailboxes = s.mailboxes := rfl
@[simp] theorem State.modPort_skovi (s : State) (p : Nat) (f : Port → Port) : (s.modPort p f).skovi = s.skovi := rfl
@[simp] theorem State.modPort_log (s : State) (p : Nat) (f : Port → Port) : (s.modPort p f).log = s.log := rfl
@[simp] theorem State.modPort_therm (s : State) (p : Nat) (f : Port → Port) : (s.modPort p f).therm = s.therm := rfl
@[simp] theorem State.modPort_dbg (s : State) (p : Nat) (f : Port → Port) : (s.modPort p f).dbg = s.dbg := rfl
@[simp] theorem State.modPort_test (s : State) (p : Nat) (f : Port → Port) : (s.modPort p f).test = s.test := rfl
@[simp] theorem State.modPort_intrs (s : State) (p : Nat) (f : Port → Port) : (s.modPort p f).intrs = s.intrs := rfl
@[simp] theorem State.modPort_reqs (s : State) (p : Nat) (f : Port → Port) : (s.modPort p f).reqs = s.reqs := rfl
@[simp] theorem State.modPort_mesh (s : State) (p : Nat) (f : Port → Port) : (s.modPort p f).mesh = s.mesh := rfl
@[simp] theorem State.modPort_landed (s : State) (p : Nat) (f : Port → Port) : (s.modPort p f).landed = s.landed := rfl
@[simp] theorem State.modPort_arrived (s : State) (p : Nat) (f : Port → Port) : (s.modPort p f).arrived = s.arrived := rfl
@[simp] theorem State.modPort_tx (s : State) (p : Nat) (f : Port → Port) : (s.modPort p f).tx = s.tx := rfl
@[simp] theorem State.modPort_msgs (s : State) (p : Nat) (f : Port → Port) : (s.modPort p f).msgs = s.msgs := rfl
@[simp] theorem State.modPort_late (s : State) (p : Nat) (f : Port → Port) : (s.modPort p f).late = s.late := rfl
@[simp] theorem State.modPort_slotsDropped (s : State) (p : Nat) (f : Port → Port) : (s.modPort p f).slotsDropped = s.slotsDropped := rfl
@[simp] theorem State.modPort_out (s : State) (p : Nat) (f : Port → Port) : (s.modPort p f).out = s.out := rfl

/-! ### setCounter -/

@[simp] theorem State.setCounter_pending (s : State) (n : Nat) (x : Counter) : (s.setCounter n x).pending = s.pending := rfl
@[simp] theorem State.setCounter_now (s : State) (n : Nat) (x : Counter) : (s.setCounter n x).now = s.now := rfl
@[simp] theorem State.setCounter_cclk (s : State) (n : Nat) (x : Counter) : (s.setCounter n x).cclk = s.cclk := rfl
@[simp] theorem State.setCounter_free (s : State) (n : Nat) (x : Counter) : (s.setCounter n x).free = s.free := rfl
@[simp] theorem State.setCounter_boot (s : State) (n : Nat) (x : Counter) : (s.setCounter n x).boot = s.boot := rfl
@[simp] theorem State.setCounter_mast (s : State) (n : Nat) (x : Counter) : (s.setCounter n x).mast = s.mast := rfl
@[simp] theorem State.setCounter_dieBookings (s : State) (n : Nat) (x : Counter) : (s.setCounter n x).dieBookings = s.dieBookings := rfl
@[simp] theorem State.setCounter_owed (s : State) (n : Nat) (x : Counter) : (s.setCounter n x).owed = s.owed := rfl
@[simp] theorem State.setCounter_ports (s : State) (n : Nat) (x : Counter) : (s.setCounter n x).ports = s.ports := rfl
@[simp] theorem State.setCounter_mem (s : State) (n : Nat) (x : Counter) : (s.setCounter n x).mem = s.mem := rfl
@[simp] theorem State.setCounter_member (s : State) (n : Nat) (x : Counter) : (s.setCounter n x).member = s.member := rfl
@[simp] theorem State.setCounter_cores (s : State) (n : Nat) (x : Counter) : (s.setCounter n x).cores = s.cores := rfl
@[simp] theorem State.setCounter_windows (s : State) (n : Nat) (x : Counter) : (s.setCounter n x).windows = s.windows := rfl
@[simp] theorem State.setCounter_senders (s : State) (n : Nat) (x : Counter) : (s.setCounter n x).senders = s.senders := rfl
@[simp] theorem State.setCounter_regions (s : State) (n : Nat) (x : Counter) : (s.setCounter n x).regions = s.regions := rfl
@[simp] theorem State.setCounter_parts (s : State) (n : Nat) (x : Counter) : (s.setCounter n x).parts = s.parts := rfl
@[simp] theorem State.setCounter_queues (s : State) (n : Nat) (x : Counter) : (s.setCounter n x).queues = s.queues := rfl
@[simp] theorem State.setCounter_mailboxes (s : State) (n : Nat) (x : Counter) : (s.setCounter n x).mailboxes = s.mailboxes := rfl
@[simp] theorem State.setCounter_skovi (s : State) (n : Nat) (x : Counter) : (s.setCounter n x).skovi = s.skovi := rfl
@[simp] theorem State.setCounter_log (s : State) (n : Nat) (x : Counter) : (s.setCounter n x).log = s.log := rfl
@[simp] theorem State.setCounter_therm (s : State) (n : Nat) (x : Counter) : (s.setCounter n x).therm = s.therm := rfl
@[simp] theorem State.setCounter_dbg (s : State) (n : Nat) (x : Counter) : (s.setCounter n x).dbg = s.dbg := rfl
@[simp] theorem State.setCounter_test (s : State) (n : Nat) (x : Counter) : (s.setCounter n x).test = s.test := rfl
@[simp] theorem State.setCounter_intrs (s : State) (n : Nat) (x : Counter) : (s.setCounter n x).intrs = s.intrs := rfl
@[simp] theorem State.setCounter_reqs (s : State) (n : Nat) (x : Counter) : (s.setCounter n x).reqs = s.reqs := rfl
@[simp] theorem State.setCounter_mesh (s : State) (n : Nat) (x : Counter) : (s.setCounter n x).mesh = s.mesh := rfl
@[simp] theorem State.setCounter_landed (s : State) (n : Nat) (x : Counter) : (s.setCounter n x).landed = s.landed := rfl
@[simp] theorem State.setCounter_arrived (s : State) (n : Nat) (x : Counter) : (s.setCounter n x).arrived = s.arrived := rfl
@[simp] theorem State.setCounter_tx (s : State) (n : Nat) (x : Counter) : (s.setCounter n x).tx = s.tx := rfl
@[simp] theorem State.setCounter_msgs (s : State) (n : Nat) (x : Counter) : (s.setCounter n x).msgs = s.msgs := rfl
@[simp] theorem State.setCounter_late (s : State) (n : Nat) (x : Counter) : (s.setCounter n x).late = s.late := rfl
@[simp] theorem State.setCounter_slotsDropped (s : State) (n : Nat) (x : Counter) : (s.setCounter n x).slotsDropped = s.slotsDropped := rfl
@[simp] theorem State.setCounter_out (s : State) (n : Nat) (x : Counter) : (s.setCounter n x).out = s.out := rfl

/-! ### setWindow -/

@[simp] theorem State.setWindow_pending (s : State) (w : Nat) (x : Window) : (s.setWindow w x).pending = s.pending := rfl
@[simp] theorem State.setWindow_now (s : State) (w : Nat) (x : Window) : (s.setWindow w x).now = s.now := rfl
@[simp] theorem State.setWindow_cclk (s : State) (w : Nat) (x : Window) : (s.setWindow w x).cclk = s.cclk := rfl
@[simp] theorem State.setWindow_free (s : State) (w : Nat) (x : Window) : (s.setWindow w x).free = s.free := rfl
@[simp] theorem State.setWindow_boot (s : State) (w : Nat) (x : Window) : (s.setWindow w x).boot = s.boot := rfl
@[simp] theorem State.setWindow_mast (s : State) (w : Nat) (x : Window) : (s.setWindow w x).mast = s.mast := rfl
@[simp] theorem State.setWindow_dieBookings (s : State) (w : Nat) (x : Window) : (s.setWindow w x).dieBookings = s.dieBookings := rfl
@[simp] theorem State.setWindow_owed (s : State) (w : Nat) (x : Window) : (s.setWindow w x).owed = s.owed := rfl
@[simp] theorem State.setWindow_ports (s : State) (w : Nat) (x : Window) : (s.setWindow w x).ports = s.ports := rfl
@[simp] theorem State.setWindow_mem (s : State) (w : Nat) (x : Window) : (s.setWindow w x).mem = s.mem := rfl
@[simp] theorem State.setWindow_member (s : State) (w : Nat) (x : Window) : (s.setWindow w x).member = s.member := rfl
@[simp] theorem State.setWindow_cores (s : State) (w : Nat) (x : Window) : (s.setWindow w x).cores = s.cores := rfl
@[simp] theorem State.setWindow_counters (s : State) (w : Nat) (x : Window) : (s.setWindow w x).counters = s.counters := rfl
@[simp] theorem State.setWindow_senders (s : State) (w : Nat) (x : Window) : (s.setWindow w x).senders = s.senders := rfl
@[simp] theorem State.setWindow_regions (s : State) (w : Nat) (x : Window) : (s.setWindow w x).regions = s.regions := rfl
@[simp] theorem State.setWindow_parts (s : State) (w : Nat) (x : Window) : (s.setWindow w x).parts = s.parts := rfl
@[simp] theorem State.setWindow_queues (s : State) (w : Nat) (x : Window) : (s.setWindow w x).queues = s.queues := rfl
@[simp] theorem State.setWindow_mailboxes (s : State) (w : Nat) (x : Window) : (s.setWindow w x).mailboxes = s.mailboxes := rfl
@[simp] theorem State.setWindow_skovi (s : State) (w : Nat) (x : Window) : (s.setWindow w x).skovi = s.skovi := rfl
@[simp] theorem State.setWindow_log (s : State) (w : Nat) (x : Window) : (s.setWindow w x).log = s.log := rfl
@[simp] theorem State.setWindow_therm (s : State) (w : Nat) (x : Window) : (s.setWindow w x).therm = s.therm := rfl
@[simp] theorem State.setWindow_dbg (s : State) (w : Nat) (x : Window) : (s.setWindow w x).dbg = s.dbg := rfl
@[simp] theorem State.setWindow_test (s : State) (w : Nat) (x : Window) : (s.setWindow w x).test = s.test := rfl
@[simp] theorem State.setWindow_intrs (s : State) (w : Nat) (x : Window) : (s.setWindow w x).intrs = s.intrs := rfl
@[simp] theorem State.setWindow_reqs (s : State) (w : Nat) (x : Window) : (s.setWindow w x).reqs = s.reqs := rfl
@[simp] theorem State.setWindow_mesh (s : State) (w : Nat) (x : Window) : (s.setWindow w x).mesh = s.mesh := rfl
@[simp] theorem State.setWindow_landed (s : State) (w : Nat) (x : Window) : (s.setWindow w x).landed = s.landed := rfl
@[simp] theorem State.setWindow_arrived (s : State) (w : Nat) (x : Window) : (s.setWindow w x).arrived = s.arrived := rfl
@[simp] theorem State.setWindow_tx (s : State) (w : Nat) (x : Window) : (s.setWindow w x).tx = s.tx := rfl
@[simp] theorem State.setWindow_msgs (s : State) (w : Nat) (x : Window) : (s.setWindow w x).msgs = s.msgs := rfl
@[simp] theorem State.setWindow_late (s : State) (w : Nat) (x : Window) : (s.setWindow w x).late = s.late := rfl
@[simp] theorem State.setWindow_slotsDropped (s : State) (w : Nat) (x : Window) : (s.setWindow w x).slotsDropped = s.slotsDropped := rfl
@[simp] theorem State.setWindow_out (s : State) (w : Nat) (x : Window) : (s.setWindow w x).out = s.out := rfl

/-! ### setPart -/

@[simp] theorem State.setPart_pending (s : State) (c : Nat) (x : Partn) : (s.setPart c x).pending = s.pending := rfl
@[simp] theorem State.setPart_now (s : State) (c : Nat) (x : Partn) : (s.setPart c x).now = s.now := rfl
@[simp] theorem State.setPart_cclk (s : State) (c : Nat) (x : Partn) : (s.setPart c x).cclk = s.cclk := rfl
@[simp] theorem State.setPart_free (s : State) (c : Nat) (x : Partn) : (s.setPart c x).free = s.free := rfl
@[simp] theorem State.setPart_boot (s : State) (c : Nat) (x : Partn) : (s.setPart c x).boot = s.boot := rfl
@[simp] theorem State.setPart_mast (s : State) (c : Nat) (x : Partn) : (s.setPart c x).mast = s.mast := rfl
@[simp] theorem State.setPart_dieBookings (s : State) (c : Nat) (x : Partn) : (s.setPart c x).dieBookings = s.dieBookings := rfl
@[simp] theorem State.setPart_owed (s : State) (c : Nat) (x : Partn) : (s.setPart c x).owed = s.owed := rfl
@[simp] theorem State.setPart_ports (s : State) (c : Nat) (x : Partn) : (s.setPart c x).ports = s.ports := rfl
@[simp] theorem State.setPart_mem (s : State) (c : Nat) (x : Partn) : (s.setPart c x).mem = s.mem := rfl
@[simp] theorem State.setPart_member (s : State) (c : Nat) (x : Partn) : (s.setPart c x).member = s.member := rfl
@[simp] theorem State.setPart_cores (s : State) (c : Nat) (x : Partn) : (s.setPart c x).cores = s.cores := rfl
@[simp] theorem State.setPart_counters (s : State) (c : Nat) (x : Partn) : (s.setPart c x).counters = s.counters := rfl
@[simp] theorem State.setPart_windows (s : State) (c : Nat) (x : Partn) : (s.setPart c x).windows = s.windows := rfl
@[simp] theorem State.setPart_senders (s : State) (c : Nat) (x : Partn) : (s.setPart c x).senders = s.senders := rfl
@[simp] theorem State.setPart_regions (s : State) (c : Nat) (x : Partn) : (s.setPart c x).regions = s.regions := rfl
@[simp] theorem State.setPart_queues (s : State) (c : Nat) (x : Partn) : (s.setPart c x).queues = s.queues := rfl
@[simp] theorem State.setPart_mailboxes (s : State) (c : Nat) (x : Partn) : (s.setPart c x).mailboxes = s.mailboxes := rfl
@[simp] theorem State.setPart_skovi (s : State) (c : Nat) (x : Partn) : (s.setPart c x).skovi = s.skovi := rfl
@[simp] theorem State.setPart_log (s : State) (c : Nat) (x : Partn) : (s.setPart c x).log = s.log := rfl
@[simp] theorem State.setPart_therm (s : State) (c : Nat) (x : Partn) : (s.setPart c x).therm = s.therm := rfl
@[simp] theorem State.setPart_dbg (s : State) (c : Nat) (x : Partn) : (s.setPart c x).dbg = s.dbg := rfl
@[simp] theorem State.setPart_test (s : State) (c : Nat) (x : Partn) : (s.setPart c x).test = s.test := rfl
@[simp] theorem State.setPart_intrs (s : State) (c : Nat) (x : Partn) : (s.setPart c x).intrs = s.intrs := rfl
@[simp] theorem State.setPart_reqs (s : State) (c : Nat) (x : Partn) : (s.setPart c x).reqs = s.reqs := rfl
@[simp] theorem State.setPart_mesh (s : State) (c : Nat) (x : Partn) : (s.setPart c x).mesh = s.mesh := rfl
@[simp] theorem State.setPart_landed (s : State) (c : Nat) (x : Partn) : (s.setPart c x).landed = s.landed := rfl
@[simp] theorem State.setPart_arrived (s : State) (c : Nat) (x : Partn) : (s.setPart c x).arrived = s.arrived := rfl
@[simp] theorem State.setPart_tx (s : State) (c : Nat) (x : Partn) : (s.setPart c x).tx = s.tx := rfl
@[simp] theorem State.setPart_msgs (s : State) (c : Nat) (x : Partn) : (s.setPart c x).msgs = s.msgs := rfl
@[simp] theorem State.setPart_late (s : State) (c : Nat) (x : Partn) : (s.setPart c x).late = s.late := rfl
@[simp] theorem State.setPart_slotsDropped (s : State) (c : Nat) (x : Partn) : (s.setPart c x).slotsDropped = s.slotsDropped := rfl
@[simp] theorem State.setPart_out (s : State) (c : Nat) (x : Partn) : (s.setPart c x).out = s.out := rfl

/-! ### modPart -/

@[simp] theorem State.modPart_pending (s : State) (c : Nat) (f : Partn → Partn) : (s.modPart c f).pending = s.pending := rfl
@[simp] theorem State.modPart_now (s : State) (c : Nat) (f : Partn → Partn) : (s.modPart c f).now = s.now := rfl
@[simp] theorem State.modPart_cclk (s : State) (c : Nat) (f : Partn → Partn) : (s.modPart c f).cclk = s.cclk := rfl
@[simp] theorem State.modPart_free (s : State) (c : Nat) (f : Partn → Partn) : (s.modPart c f).free = s.free := rfl
@[simp] theorem State.modPart_boot (s : State) (c : Nat) (f : Partn → Partn) : (s.modPart c f).boot = s.boot := rfl
@[simp] theorem State.modPart_mast (s : State) (c : Nat) (f : Partn → Partn) : (s.modPart c f).mast = s.mast := rfl
@[simp] theorem State.modPart_dieBookings (s : State) (c : Nat) (f : Partn → Partn) : (s.modPart c f).dieBookings = s.dieBookings := rfl
@[simp] theorem State.modPart_owed (s : State) (c : Nat) (f : Partn → Partn) : (s.modPart c f).owed = s.owed := rfl
@[simp] theorem State.modPart_ports (s : State) (c : Nat) (f : Partn → Partn) : (s.modPart c f).ports = s.ports := rfl
@[simp] theorem State.modPart_mem (s : State) (c : Nat) (f : Partn → Partn) : (s.modPart c f).mem = s.mem := rfl
@[simp] theorem State.modPart_member (s : State) (c : Nat) (f : Partn → Partn) : (s.modPart c f).member = s.member := rfl
@[simp] theorem State.modPart_cores (s : State) (c : Nat) (f : Partn → Partn) : (s.modPart c f).cores = s.cores := rfl
@[simp] theorem State.modPart_counters (s : State) (c : Nat) (f : Partn → Partn) : (s.modPart c f).counters = s.counters := rfl
@[simp] theorem State.modPart_windows (s : State) (c : Nat) (f : Partn → Partn) : (s.modPart c f).windows = s.windows := rfl
@[simp] theorem State.modPart_senders (s : State) (c : Nat) (f : Partn → Partn) : (s.modPart c f).senders = s.senders := rfl
@[simp] theorem State.modPart_regions (s : State) (c : Nat) (f : Partn → Partn) : (s.modPart c f).regions = s.regions := rfl
@[simp] theorem State.modPart_queues (s : State) (c : Nat) (f : Partn → Partn) : (s.modPart c f).queues = s.queues := rfl
@[simp] theorem State.modPart_mailboxes (s : State) (c : Nat) (f : Partn → Partn) : (s.modPart c f).mailboxes = s.mailboxes := rfl
@[simp] theorem State.modPart_skovi (s : State) (c : Nat) (f : Partn → Partn) : (s.modPart c f).skovi = s.skovi := rfl
@[simp] theorem State.modPart_log (s : State) (c : Nat) (f : Partn → Partn) : (s.modPart c f).log = s.log := rfl
@[simp] theorem State.modPart_therm (s : State) (c : Nat) (f : Partn → Partn) : (s.modPart c f).therm = s.therm := rfl
@[simp] theorem State.modPart_dbg (s : State) (c : Nat) (f : Partn → Partn) : (s.modPart c f).dbg = s.dbg := rfl
@[simp] theorem State.modPart_test (s : State) (c : Nat) (f : Partn → Partn) : (s.modPart c f).test = s.test := rfl
@[simp] theorem State.modPart_intrs (s : State) (c : Nat) (f : Partn → Partn) : (s.modPart c f).intrs = s.intrs := rfl
@[simp] theorem State.modPart_reqs (s : State) (c : Nat) (f : Partn → Partn) : (s.modPart c f).reqs = s.reqs := rfl
@[simp] theorem State.modPart_mesh (s : State) (c : Nat) (f : Partn → Partn) : (s.modPart c f).mesh = s.mesh := rfl
@[simp] theorem State.modPart_landed (s : State) (c : Nat) (f : Partn → Partn) : (s.modPart c f).landed = s.landed := rfl
@[simp] theorem State.modPart_arrived (s : State) (c : Nat) (f : Partn → Partn) : (s.modPart c f).arrived = s.arrived := rfl
@[simp] theorem State.modPart_tx (s : State) (c : Nat) (f : Partn → Partn) : (s.modPart c f).tx = s.tx := rfl
@[simp] theorem State.modPart_msgs (s : State) (c : Nat) (f : Partn → Partn) : (s.modPart c f).msgs = s.msgs := rfl
@[simp] theorem State.modPart_late (s : State) (c : Nat) (f : Partn → Partn) : (s.modPart c f).late = s.late := rfl
@[simp] theorem State.modPart_slotsDropped (s : State) (c : Nat) (f : Partn → Partn) : (s.modPart c f).slotsDropped = s.slotsDropped := rfl
@[simp] theorem State.modPart_out (s : State) (c : Nat) (f : Partn → Partn) : (s.modPart c f).out = s.out := rfl

/-! ### setRqueue -/

@[simp] theorem State.setRqueue_pending (s : State) (q : Nat) (x : ReqQueue) : (s.setRqueue q x).pending = s.pending := rfl
@[simp] theorem State.setRqueue_now (s : State) (q : Nat) (x : ReqQueue) : (s.setRqueue q x).now = s.now := rfl
@[simp] theorem State.setRqueue_cclk (s : State) (q : Nat) (x : ReqQueue) : (s.setRqueue q x).cclk = s.cclk := rfl
@[simp] theorem State.setRqueue_free (s : State) (q : Nat) (x : ReqQueue) : (s.setRqueue q x).free = s.free := rfl
@[simp] theorem State.setRqueue_boot (s : State) (q : Nat) (x : ReqQueue) : (s.setRqueue q x).boot = s.boot := rfl
@[simp] theorem State.setRqueue_mast (s : State) (q : Nat) (x : ReqQueue) : (s.setRqueue q x).mast = s.mast := rfl
@[simp] theorem State.setRqueue_dieBookings (s : State) (q : Nat) (x : ReqQueue) : (s.setRqueue q x).dieBookings = s.dieBookings := rfl
@[simp] theorem State.setRqueue_owed (s : State) (q : Nat) (x : ReqQueue) : (s.setRqueue q x).owed = s.owed := rfl
@[simp] theorem State.setRqueue_ports (s : State) (q : Nat) (x : ReqQueue) : (s.setRqueue q x).ports = s.ports := rfl
@[simp] theorem State.setRqueue_mem (s : State) (q : Nat) (x : ReqQueue) : (s.setRqueue q x).mem = s.mem := rfl
@[simp] theorem State.setRqueue_member (s : State) (q : Nat) (x : ReqQueue) : (s.setRqueue q x).member = s.member := rfl
@[simp] theorem State.setRqueue_cores (s : State) (q : Nat) (x : ReqQueue) : (s.setRqueue q x).cores = s.cores := rfl
@[simp] theorem State.setRqueue_counters (s : State) (q : Nat) (x : ReqQueue) : (s.setRqueue q x).counters = s.counters := rfl
@[simp] theorem State.setRqueue_windows (s : State) (q : Nat) (x : ReqQueue) : (s.setRqueue q x).windows = s.windows := rfl
@[simp] theorem State.setRqueue_senders (s : State) (q : Nat) (x : ReqQueue) : (s.setRqueue q x).senders = s.senders := rfl
@[simp] theorem State.setRqueue_regions (s : State) (q : Nat) (x : ReqQueue) : (s.setRqueue q x).regions = s.regions := rfl
@[simp] theorem State.setRqueue_parts (s : State) (q : Nat) (x : ReqQueue) : (s.setRqueue q x).parts = s.parts := rfl
@[simp] theorem State.setRqueue_mailboxes (s : State) (q : Nat) (x : ReqQueue) : (s.setRqueue q x).mailboxes = s.mailboxes := rfl
@[simp] theorem State.setRqueue_skovi (s : State) (q : Nat) (x : ReqQueue) : (s.setRqueue q x).skovi = s.skovi := rfl
@[simp] theorem State.setRqueue_log (s : State) (q : Nat) (x : ReqQueue) : (s.setRqueue q x).log = s.log := rfl
@[simp] theorem State.setRqueue_therm (s : State) (q : Nat) (x : ReqQueue) : (s.setRqueue q x).therm = s.therm := rfl
@[simp] theorem State.setRqueue_dbg (s : State) (q : Nat) (x : ReqQueue) : (s.setRqueue q x).dbg = s.dbg := rfl
@[simp] theorem State.setRqueue_test (s : State) (q : Nat) (x : ReqQueue) : (s.setRqueue q x).test = s.test := rfl
@[simp] theorem State.setRqueue_intrs (s : State) (q : Nat) (x : ReqQueue) : (s.setRqueue q x).intrs = s.intrs := rfl
@[simp] theorem State.setRqueue_reqs (s : State) (q : Nat) (x : ReqQueue) : (s.setRqueue q x).reqs = s.reqs := rfl
@[simp] theorem State.setRqueue_mesh (s : State) (q : Nat) (x : ReqQueue) : (s.setRqueue q x).mesh = s.mesh := rfl
@[simp] theorem State.setRqueue_landed (s : State) (q : Nat) (x : ReqQueue) : (s.setRqueue q x).landed = s.landed := rfl
@[simp] theorem State.setRqueue_arrived (s : State) (q : Nat) (x : ReqQueue) : (s.setRqueue q x).arrived = s.arrived := rfl
@[simp] theorem State.setRqueue_tx (s : State) (q : Nat) (x : ReqQueue) : (s.setRqueue q x).tx = s.tx := rfl
@[simp] theorem State.setRqueue_msgs (s : State) (q : Nat) (x : ReqQueue) : (s.setRqueue q x).msgs = s.msgs := rfl
@[simp] theorem State.setRqueue_late (s : State) (q : Nat) (x : ReqQueue) : (s.setRqueue q x).late = s.late := rfl
@[simp] theorem State.setRqueue_slotsDropped (s : State) (q : Nat) (x : ReqQueue) : (s.setRqueue q x).slotsDropped = s.slotsDropped := rfl
@[simp] theorem State.setRqueue_out (s : State) (q : Nat) (x : ReqQueue) : (s.setRqueue q x).out = s.out := rfl

/-! ### setMailbox -/

@[simp] theorem State.setMailbox_pending (s : State) (m : Nat) (x : Mailbox) : (s.setMailbox m x).pending = s.pending := rfl
@[simp] theorem State.setMailbox_now (s : State) (m : Nat) (x : Mailbox) : (s.setMailbox m x).now = s.now := rfl
@[simp] theorem State.setMailbox_cclk (s : State) (m : Nat) (x : Mailbox) : (s.setMailbox m x).cclk = s.cclk := rfl
@[simp] theorem State.setMailbox_free (s : State) (m : Nat) (x : Mailbox) : (s.setMailbox m x).free = s.free := rfl
@[simp] theorem State.setMailbox_boot (s : State) (m : Nat) (x : Mailbox) : (s.setMailbox m x).boot = s.boot := rfl
@[simp] theorem State.setMailbox_mast (s : State) (m : Nat) (x : Mailbox) : (s.setMailbox m x).mast = s.mast := rfl
@[simp] theorem State.setMailbox_dieBookings (s : State) (m : Nat) (x : Mailbox) : (s.setMailbox m x).dieBookings = s.dieBookings := rfl
@[simp] theorem State.setMailbox_owed (s : State) (m : Nat) (x : Mailbox) : (s.setMailbox m x).owed = s.owed := rfl
@[simp] theorem State.setMailbox_ports (s : State) (m : Nat) (x : Mailbox) : (s.setMailbox m x).ports = s.ports := rfl
@[simp] theorem State.setMailbox_mem (s : State) (m : Nat) (x : Mailbox) : (s.setMailbox m x).mem = s.mem := rfl
@[simp] theorem State.setMailbox_member (s : State) (m : Nat) (x : Mailbox) : (s.setMailbox m x).member = s.member := rfl
@[simp] theorem State.setMailbox_cores (s : State) (m : Nat) (x : Mailbox) : (s.setMailbox m x).cores = s.cores := rfl
@[simp] theorem State.setMailbox_counters (s : State) (m : Nat) (x : Mailbox) : (s.setMailbox m x).counters = s.counters := rfl
@[simp] theorem State.setMailbox_windows (s : State) (m : Nat) (x : Mailbox) : (s.setMailbox m x).windows = s.windows := rfl
@[simp] theorem State.setMailbox_senders (s : State) (m : Nat) (x : Mailbox) : (s.setMailbox m x).senders = s.senders := rfl
@[simp] theorem State.setMailbox_regions (s : State) (m : Nat) (x : Mailbox) : (s.setMailbox m x).regions = s.regions := rfl
@[simp] theorem State.setMailbox_parts (s : State) (m : Nat) (x : Mailbox) : (s.setMailbox m x).parts = s.parts := rfl
@[simp] theorem State.setMailbox_queues (s : State) (m : Nat) (x : Mailbox) : (s.setMailbox m x).queues = s.queues := rfl
@[simp] theorem State.setMailbox_skovi (s : State) (m : Nat) (x : Mailbox) : (s.setMailbox m x).skovi = s.skovi := rfl
@[simp] theorem State.setMailbox_log (s : State) (m : Nat) (x : Mailbox) : (s.setMailbox m x).log = s.log := rfl
@[simp] theorem State.setMailbox_therm (s : State) (m : Nat) (x : Mailbox) : (s.setMailbox m x).therm = s.therm := rfl
@[simp] theorem State.setMailbox_dbg (s : State) (m : Nat) (x : Mailbox) : (s.setMailbox m x).dbg = s.dbg := rfl
@[simp] theorem State.setMailbox_test (s : State) (m : Nat) (x : Mailbox) : (s.setMailbox m x).test = s.test := rfl
@[simp] theorem State.setMailbox_intrs (s : State) (m : Nat) (x : Mailbox) : (s.setMailbox m x).intrs = s.intrs := rfl
@[simp] theorem State.setMailbox_reqs (s : State) (m : Nat) (x : Mailbox) : (s.setMailbox m x).reqs = s.reqs := rfl
@[simp] theorem State.setMailbox_mesh (s : State) (m : Nat) (x : Mailbox) : (s.setMailbox m x).mesh = s.mesh := rfl
@[simp] theorem State.setMailbox_landed (s : State) (m : Nat) (x : Mailbox) : (s.setMailbox m x).landed = s.landed := rfl
@[simp] theorem State.setMailbox_arrived (s : State) (m : Nat) (x : Mailbox) : (s.setMailbox m x).arrived = s.arrived := rfl
@[simp] theorem State.setMailbox_tx (s : State) (m : Nat) (x : Mailbox) : (s.setMailbox m x).tx = s.tx := rfl
@[simp] theorem State.setMailbox_msgs (s : State) (m : Nat) (x : Mailbox) : (s.setMailbox m x).msgs = s.msgs := rfl
@[simp] theorem State.setMailbox_late (s : State) (m : Nat) (x : Mailbox) : (s.setMailbox m x).late = s.late := rfl
@[simp] theorem State.setMailbox_slotsDropped (s : State) (m : Nat) (x : Mailbox) : (s.setMailbox m x).slotsDropped = s.slotsDropped := rfl
@[simp] theorem State.setMailbox_out (s : State) (m : Nat) (x : Mailbox) : (s.setMailbox m x).out = s.out := rfl

/-! ### modMailbox -/

@[simp] theorem State.modMailbox_pending (s : State) (m : Nat) (f : Mailbox → Mailbox) : (s.modMailbox m f).pending = s.pending := rfl
@[simp] theorem State.modMailbox_now (s : State) (m : Nat) (f : Mailbox → Mailbox) : (s.modMailbox m f).now = s.now := rfl
@[simp] theorem State.modMailbox_cclk (s : State) (m : Nat) (f : Mailbox → Mailbox) : (s.modMailbox m f).cclk = s.cclk := rfl
@[simp] theorem State.modMailbox_free (s : State) (m : Nat) (f : Mailbox → Mailbox) : (s.modMailbox m f).free = s.free := rfl
@[simp] theorem State.modMailbox_boot (s : State) (m : Nat) (f : Mailbox → Mailbox) : (s.modMailbox m f).boot = s.boot := rfl
@[simp] theorem State.modMailbox_mast (s : State) (m : Nat) (f : Mailbox → Mailbox) : (s.modMailbox m f).mast = s.mast := rfl
@[simp] theorem State.modMailbox_dieBookings (s : State) (m : Nat) (f : Mailbox → Mailbox) : (s.modMailbox m f).dieBookings = s.dieBookings := rfl
@[simp] theorem State.modMailbox_owed (s : State) (m : Nat) (f : Mailbox → Mailbox) : (s.modMailbox m f).owed = s.owed := rfl
@[simp] theorem State.modMailbox_ports (s : State) (m : Nat) (f : Mailbox → Mailbox) : (s.modMailbox m f).ports = s.ports := rfl
@[simp] theorem State.modMailbox_mem (s : State) (m : Nat) (f : Mailbox → Mailbox) : (s.modMailbox m f).mem = s.mem := rfl
@[simp] theorem State.modMailbox_member (s : State) (m : Nat) (f : Mailbox → Mailbox) : (s.modMailbox m f).member = s.member := rfl
@[simp] theorem State.modMailbox_cores (s : State) (m : Nat) (f : Mailbox → Mailbox) : (s.modMailbox m f).cores = s.cores := rfl
@[simp] theorem State.modMailbox_counters (s : State) (m : Nat) (f : Mailbox → Mailbox) : (s.modMailbox m f).counters = s.counters := rfl
@[simp] theorem State.modMailbox_windows (s : State) (m : Nat) (f : Mailbox → Mailbox) : (s.modMailbox m f).windows = s.windows := rfl
@[simp] theorem State.modMailbox_senders (s : State) (m : Nat) (f : Mailbox → Mailbox) : (s.modMailbox m f).senders = s.senders := rfl
@[simp] theorem State.modMailbox_regions (s : State) (m : Nat) (f : Mailbox → Mailbox) : (s.modMailbox m f).regions = s.regions := rfl
@[simp] theorem State.modMailbox_parts (s : State) (m : Nat) (f : Mailbox → Mailbox) : (s.modMailbox m f).parts = s.parts := rfl
@[simp] theorem State.modMailbox_queues (s : State) (m : Nat) (f : Mailbox → Mailbox) : (s.modMailbox m f).queues = s.queues := rfl
@[simp] theorem State.modMailbox_skovi (s : State) (m : Nat) (f : Mailbox → Mailbox) : (s.modMailbox m f).skovi = s.skovi := rfl
@[simp] theorem State.modMailbox_log (s : State) (m : Nat) (f : Mailbox → Mailbox) : (s.modMailbox m f).log = s.log := rfl
@[simp] theorem State.modMailbox_therm (s : State) (m : Nat) (f : Mailbox → Mailbox) : (s.modMailbox m f).therm = s.therm := rfl
@[simp] theorem State.modMailbox_dbg (s : State) (m : Nat) (f : Mailbox → Mailbox) : (s.modMailbox m f).dbg = s.dbg := rfl
@[simp] theorem State.modMailbox_test (s : State) (m : Nat) (f : Mailbox → Mailbox) : (s.modMailbox m f).test = s.test := rfl
@[simp] theorem State.modMailbox_intrs (s : State) (m : Nat) (f : Mailbox → Mailbox) : (s.modMailbox m f).intrs = s.intrs := rfl
@[simp] theorem State.modMailbox_reqs (s : State) (m : Nat) (f : Mailbox → Mailbox) : (s.modMailbox m f).reqs = s.reqs := rfl
@[simp] theorem State.modMailbox_mesh (s : State) (m : Nat) (f : Mailbox → Mailbox) : (s.modMailbox m f).mesh = s.mesh := rfl
@[simp] theorem State.modMailbox_landed (s : State) (m : Nat) (f : Mailbox → Mailbox) : (s.modMailbox m f).landed = s.landed := rfl
@[simp] theorem State.modMailbox_arrived (s : State) (m : Nat) (f : Mailbox → Mailbox) : (s.modMailbox m f).arrived = s.arrived := rfl
@[simp] theorem State.modMailbox_tx (s : State) (m : Nat) (f : Mailbox → Mailbox) : (s.modMailbox m f).tx = s.tx := rfl
@[simp] theorem State.modMailbox_msgs (s : State) (m : Nat) (f : Mailbox → Mailbox) : (s.modMailbox m f).msgs = s.msgs := rfl
@[simp] theorem State.modMailbox_late (s : State) (m : Nat) (f : Mailbox → Mailbox) : (s.modMailbox m f).late = s.late := rfl
@[simp] theorem State.modMailbox_slotsDropped (s : State) (m : Nat) (f : Mailbox → Mailbox) : (s.modMailbox m f).slotsDropped = s.slotsDropped := rfl
@[simp] theorem State.modMailbox_out (s : State) (m : Nat) (f : Mailbox → Mailbox) : (s.modMailbox m f).out = s.out := rfl

/-! ### setDie -/

@[simp] theorem State.setDie_pending (s : State) (d : Nat) (x : DieEntry) : (s.setDie d x).pending = s.pending := rfl
@[simp] theorem State.setDie_now (s : State) (d : Nat) (x : DieEntry) : (s.setDie d x).now = s.now := rfl
@[simp] theorem State.setDie_cclk (s : State) (d : Nat) (x : DieEntry) : (s.setDie d x).cclk = s.cclk := rfl
@[simp] theorem State.setDie_free (s : State) (d : Nat) (x : DieEntry) : (s.setDie d x).free = s.free := rfl
@[simp] theorem State.setDie_boot (s : State) (d : Nat) (x : DieEntry) : (s.setDie d x).boot = s.boot := rfl
@[simp] theorem State.setDie_mast (s : State) (d : Nat) (x : DieEntry) : (s.setDie d x).mast = s.mast := rfl
@[simp] theorem State.setDie_dieBookings (s : State) (d : Nat) (x : DieEntry) : (s.setDie d x).dieBookings = s.dieBookings := rfl
@[simp] theorem State.setDie_owed (s : State) (d : Nat) (x : DieEntry) : (s.setDie d x).owed = s.owed := rfl
@[simp] theorem State.setDie_ports (s : State) (d : Nat) (x : DieEntry) : (s.setDie d x).ports = s.ports := rfl
@[simp] theorem State.setDie_mem (s : State) (d : Nat) (x : DieEntry) : (s.setDie d x).mem = s.mem := rfl
@[simp] theorem State.setDie_cores (s : State) (d : Nat) (x : DieEntry) : (s.setDie d x).cores = s.cores := rfl
@[simp] theorem State.setDie_counters (s : State) (d : Nat) (x : DieEntry) : (s.setDie d x).counters = s.counters := rfl
@[simp] theorem State.setDie_windows (s : State) (d : Nat) (x : DieEntry) : (s.setDie d x).windows = s.windows := rfl
@[simp] theorem State.setDie_senders (s : State) (d : Nat) (x : DieEntry) : (s.setDie d x).senders = s.senders := rfl
@[simp] theorem State.setDie_regions (s : State) (d : Nat) (x : DieEntry) : (s.setDie d x).regions = s.regions := rfl
@[simp] theorem State.setDie_parts (s : State) (d : Nat) (x : DieEntry) : (s.setDie d x).parts = s.parts := rfl
@[simp] theorem State.setDie_queues (s : State) (d : Nat) (x : DieEntry) : (s.setDie d x).queues = s.queues := rfl
@[simp] theorem State.setDie_mailboxes (s : State) (d : Nat) (x : DieEntry) : (s.setDie d x).mailboxes = s.mailboxes := rfl
@[simp] theorem State.setDie_skovi (s : State) (d : Nat) (x : DieEntry) : (s.setDie d x).skovi = s.skovi := rfl
@[simp] theorem State.setDie_log (s : State) (d : Nat) (x : DieEntry) : (s.setDie d x).log = s.log := rfl
@[simp] theorem State.setDie_therm (s : State) (d : Nat) (x : DieEntry) : (s.setDie d x).therm = s.therm := rfl
@[simp] theorem State.setDie_dbg (s : State) (d : Nat) (x : DieEntry) : (s.setDie d x).dbg = s.dbg := rfl
@[simp] theorem State.setDie_test (s : State) (d : Nat) (x : DieEntry) : (s.setDie d x).test = s.test := rfl
@[simp] theorem State.setDie_intrs (s : State) (d : Nat) (x : DieEntry) : (s.setDie d x).intrs = s.intrs := rfl
@[simp] theorem State.setDie_reqs (s : State) (d : Nat) (x : DieEntry) : (s.setDie d x).reqs = s.reqs := rfl
@[simp] theorem State.setDie_mesh (s : State) (d : Nat) (x : DieEntry) : (s.setDie d x).mesh = s.mesh := rfl
@[simp] theorem State.setDie_landed (s : State) (d : Nat) (x : DieEntry) : (s.setDie d x).landed = s.landed := rfl
@[simp] theorem State.setDie_arrived (s : State) (d : Nat) (x : DieEntry) : (s.setDie d x).arrived = s.arrived := rfl
@[simp] theorem State.setDie_tx (s : State) (d : Nat) (x : DieEntry) : (s.setDie d x).tx = s.tx := rfl
@[simp] theorem State.setDie_msgs (s : State) (d : Nat) (x : DieEntry) : (s.setDie d x).msgs = s.msgs := rfl
@[simp] theorem State.setDie_late (s : State) (d : Nat) (x : DieEntry) : (s.setDie d x).late = s.late := rfl
@[simp] theorem State.setDie_slotsDropped (s : State) (d : Nat) (x : DieEntry) : (s.setDie d x).slotsDropped = s.slotsDropped := rfl
@[simp] theorem State.setDie_out (s : State) (d : Nat) (x : DieEntry) : (s.setDie d x).out = s.out := rfl

/-! ### What is read back -/

theorem State.core_setCore (s : State) (i j : Nat) (x : Core) : (s.setCore i x).core j = if j = i then x else s.core j := by
  simp [State.setCore, State.core, Table.get_set]
@[simp] theorem State.core_setCore_same (s : State) (i : Nat) (x : Core) : (s.setCore i x).core i = x := by
  simp [State.core_setCore]
theorem State.port_setPort (s : State) (i j : Nat) (x : Port) : (s.setPort i x).port j = if j = i then x else s.port j := by
  simp [State.setPort, State.port, Table.get_set]
@[simp] theorem State.port_setPort_same (s : State) (i : Nat) (x : Port) : (s.setPort i x).port i = x := by
  simp [State.port_setPort]
theorem State.counter_setCounter (s : State) (i j : Nat) (x : Counter) : (s.setCounter i x).counter j = if j = i then x else s.counter j := by
  simp [State.setCounter, State.counter, Table.get_set]
@[simp] theorem State.counter_setCounter_same (s : State) (i : Nat) (x : Counter) : (s.setCounter i x).counter i = x := by
  simp [State.counter_setCounter]
theorem State.window_setWindow (s : State) (i j : Nat) (x : Window) : (s.setWindow i x).window j = if j = i then x else s.window j := by
  simp [State.setWindow, State.window, Table.get_set]
@[simp] theorem State.window_setWindow_same (s : State) (i : Nat) (x : Window) : (s.setWindow i x).window i = x := by
  simp [State.window_setWindow]
theorem State.part_setPart (s : State) (i j : Nat) (x : Partn) : (s.setPart i x).part j = if j = i then x else s.part j := by
  simp [State.setPart, State.part, Table.get_set]
@[simp] theorem State.part_setPart_same (s : State) (i : Nat) (x : Partn) : (s.setPart i x).part i = x := by
  simp [State.part_setPart]
theorem State.rqueue_setRqueue (s : State) (i j : Nat) (x : ReqQueue) : (s.setRqueue i x).rqueue j = if j = i then x else s.rqueue j := by
  simp [State.setRqueue, State.rqueue, Table.get_set]
@[simp] theorem State.rqueue_setRqueue_same (s : State) (i : Nat) (x : ReqQueue) : (s.setRqueue i x).rqueue i = x := by
  simp [State.rqueue_setRqueue]
theorem State.mailbox_setMailbox (s : State) (i j : Nat) (x : Mailbox) : (s.setMailbox i x).mailbox j = if j = i then x else s.mailbox j := by
  simp [State.setMailbox, State.mailbox, Table.get_set]
@[simp] theorem State.mailbox_setMailbox_same (s : State) (i : Nat) (x : Mailbox) : (s.setMailbox i x).mailbox i = x := by
  simp [State.mailbox_setMailbox]
theorem State.die_setDie (s : State) (i j : Nat) (x : DieEntry) : (s.setDie i x).die j = if j = i then x else s.die j := by
  simp [State.setDie, State.die, Table.get_set]
@[simp] theorem State.die_setDie_same (s : State) (i : Nat) (x : DieEntry) : (s.setDie i x).die i = x := by
  simp [State.die_setDie]
theorem State.core_modCore (s : State) (i j : Nat) (f : Core → Core) : (s.modCore i f).core j = if j = i then f (s.core i) else s.core j := by
  simp [State.modCore, State.core_setCore]
@[simp] theorem State.core_modCore_same (s : State) (i : Nat) (f : Core → Core) : (s.modCore i f).core i = f (s.core i) := by
  simp [State.core_modCore]
theorem State.port_modPort (s : State) (i j : Nat) (f : Port → Port) : (s.modPort i f).port j = if j = i then f (s.port i) else s.port j := by
  simp [State.modPort, State.port_setPort]
@[simp] theorem State.port_modPort_same (s : State) (i : Nat) (f : Port → Port) : (s.modPort i f).port i = f (s.port i) := by
  simp [State.port_modPort]
theorem State.part_modPart (s : State) (i j : Nat) (f : Partn → Partn) : (s.modPart i f).part j = if j = i then f (s.part i) else s.part j := by
  simp [State.modPart, State.part_setPart]
@[simp] theorem State.part_modPart_same (s : State) (i : Nat) (f : Partn → Partn) : (s.modPart i f).part i = f (s.part i) := by
  simp [State.part_modPart]
theorem State.mailbox_modMailbox (s : State) (i j : Nat) (f : Mailbox → Mailbox) : (s.modMailbox i f).mailbox j = if j = i then f (s.mailbox i) else s.mailbox j := by
  simp [State.modMailbox, State.mailbox_setMailbox]
@[simp] theorem State.mailbox_modMailbox_same (s : State) (i : Nat) (f : Mailbox → Mailbox) : (s.modMailbox i f).mailbox i = f (s.mailbox i) := by
  simp [State.mailbox_modMailbox]

/-! ### An update of one table leaves what is read of the others -/

@[simp] theorem State.port_setCore (s : State) (c : Nat) (k : Core) (i : Nat) : (s.setCore c k).port i = s.port i := rfl
@[simp] theorem State.counter_setCore (s : State) (c : Nat) (k : Core) (i : Nat) : (s.setCore c k).counter i = s.counter i := rfl
@[simp] theorem State.window_setCore (s : State) (c : Nat) (k : Core) (i : Nat) : (s.setCore c k).window i = s.window i := rfl
@[simp] theorem State.part_setCore (s : State) (c : Nat) (k : Core) (i : Nat) : (s.setCore c k).part i = s.part i := rfl
@[simp] theorem State.rqueue_setCore (s : State) (c : Nat) (k : Core) (i : Nat) : (s.setCore c k).rqueue i = s.rqueue i := rfl
@[simp] theorem State.mailbox_setCore (s : State) (c : Nat) (k : Core) (i : Nat) : (s.setCore c k).mailbox i = s.mailbox i := rfl
@[simp] theorem State.die_setCore (s : State) (c : Nat) (k : Core) (i : Nat) : (s.setCore c k).die i = s.die i := rfl
@[simp] theorem State.port_modCore (s : State) (c : Nat) (f : Core → Core) (i : Nat) : (s.modCore c f).port i = s.port i := rfl
@[simp] theorem State.counter_modCore (s : State) (c : Nat) (f : Core → Core) (i : Nat) : (s.modCore c f).counter i = s.counter i := rfl
@[simp] theorem State.window_modCore (s : State) (c : Nat) (f : Core → Core) (i : Nat) : (s.modCore c f).window i = s.window i := rfl
@[simp] theorem State.part_modCore (s : State) (c : Nat) (f : Core → Core) (i : Nat) : (s.modCore c f).part i = s.part i := rfl
@[simp] theorem State.rqueue_modCore (s : State) (c : Nat) (f : Core → Core) (i : Nat) : (s.modCore c f).rqueue i = s.rqueue i := rfl
@[simp] theorem State.mailbox_modCore (s : State) (c : Nat) (f : Core → Core) (i : Nat) : (s.modCore c f).mailbox i = s.mailbox i := rfl
@[simp] theorem State.die_modCore (s : State) (c : Nat) (f : Core → Core) (i : Nat) : (s.modCore c f).die i = s.die i := rfl
@[simp] theorem State.core_setPort (s : State) (p : Nat) (x : Port) (i : Nat) : (s.setPort p x).core i = s.core i := rfl
@[simp] theorem State.counter_setPort (s : State) (p : Nat) (x : Port) (i : Nat) : (s.setPort p x).counter i = s.counter i := rfl
@[simp] theorem State.window_setPort (s : State) (p : Nat) (x : Port) (i : Nat) : (s.setPort p x).window i = s.window i := rfl
@[simp] theorem State.part_setPort (s : State) (p : Nat) (x : Port) (i : Nat) : (s.setPort p x).part i = s.part i := rfl
@[simp] theorem State.rqueue_setPort (s : State) (p : Nat) (x : Port) (i : Nat) : (s.setPort p x).rqueue i = s.rqueue i := rfl
@[simp] theorem State.mailbox_setPort (s : State) (p : Nat) (x : Port) (i : Nat) : (s.setPort p x).mailbox i = s.mailbox i := rfl
@[simp] theorem State.die_setPort (s : State) (p : Nat) (x : Port) (i : Nat) : (s.setPort p x).die i = s.die i := rfl
@[simp] theorem State.core_modPort (s : State) (p : Nat) (f : Port → Port) (i : Nat) : (s.modPort p f).core i = s.core i := rfl
@[simp] theorem State.counter_modPort (s : State) (p : Nat) (f : Port → Port) (i : Nat) : (s.modPort p f).counter i = s.counter i := rfl
@[simp] theorem State.window_modPort (s : State) (p : Nat) (f : Port → Port) (i : Nat) : (s.modPort p f).window i = s.window i := rfl
@[simp] theorem State.part_modPort (s : State) (p : Nat) (f : Port → Port) (i : Nat) : (s.modPort p f).part i = s.part i := rfl
@[simp] theorem State.rqueue_modPort (s : State) (p : Nat) (f : Port → Port) (i : Nat) : (s.modPort p f).rqueue i = s.rqueue i := rfl
@[simp] theorem State.mailbox_modPort (s : State) (p : Nat) (f : Port → Port) (i : Nat) : (s.modPort p f).mailbox i = s.mailbox i := rfl
@[simp] theorem State.die_modPort (s : State) (p : Nat) (f : Port → Port) (i : Nat) : (s.modPort p f).die i = s.die i := rfl
@[simp] theorem State.core_setCounter (s : State) (n : Nat) (x : Counter) (i : Nat) : (s.setCounter n x).core i = s.core i := rfl
@[simp] theorem State.port_setCounter (s : State) (n : Nat) (x : Counter) (i : Nat) : (s.setCounter n x).port i = s.port i := rfl
@[simp] theorem State.window_setCounter (s : State) (n : Nat) (x : Counter) (i : Nat) : (s.setCounter n x).window i = s.window i := rfl
@[simp] theorem State.part_setCounter (s : State) (n : Nat) (x : Counter) (i : Nat) : (s.setCounter n x).part i = s.part i := rfl
@[simp] theorem State.rqueue_setCounter (s : State) (n : Nat) (x : Counter) (i : Nat) : (s.setCounter n x).rqueue i = s.rqueue i := rfl
@[simp] theorem State.mailbox_setCounter (s : State) (n : Nat) (x : Counter) (i : Nat) : (s.setCounter n x).mailbox i = s.mailbox i := rfl
@[simp] theorem State.die_setCounter (s : State) (n : Nat) (x : Counter) (i : Nat) : (s.setCounter n x).die i = s.die i := rfl
@[simp] theorem State.core_setWindow (s : State) (w : Nat) (x : Window) (i : Nat) : (s.setWindow w x).core i = s.core i := rfl
@[simp] theorem State.port_setWindow (s : State) (w : Nat) (x : Window) (i : Nat) : (s.setWindow w x).port i = s.port i := rfl
@[simp] theorem State.counter_setWindow (s : State) (w : Nat) (x : Window) (i : Nat) : (s.setWindow w x).counter i = s.counter i := rfl
@[simp] theorem State.part_setWindow (s : State) (w : Nat) (x : Window) (i : Nat) : (s.setWindow w x).part i = s.part i := rfl
@[simp] theorem State.rqueue_setWindow (s : State) (w : Nat) (x : Window) (i : Nat) : (s.setWindow w x).rqueue i = s.rqueue i := rfl
@[simp] theorem State.mailbox_setWindow (s : State) (w : Nat) (x : Window) (i : Nat) : (s.setWindow w x).mailbox i = s.mailbox i := rfl
@[simp] theorem State.die_setWindow (s : State) (w : Nat) (x : Window) (i : Nat) : (s.setWindow w x).die i = s.die i := rfl
@[simp] theorem State.core_setPart (s : State) (c : Nat) (x : Partn) (i : Nat) : (s.setPart c x).core i = s.core i := rfl
@[simp] theorem State.port_setPart (s : State) (c : Nat) (x : Partn) (i : Nat) : (s.setPart c x).port i = s.port i := rfl
@[simp] theorem State.counter_setPart (s : State) (c : Nat) (x : Partn) (i : Nat) : (s.setPart c x).counter i = s.counter i := rfl
@[simp] theorem State.window_setPart (s : State) (c : Nat) (x : Partn) (i : Nat) : (s.setPart c x).window i = s.window i := rfl
@[simp] theorem State.rqueue_setPart (s : State) (c : Nat) (x : Partn) (i : Nat) : (s.setPart c x).rqueue i = s.rqueue i := rfl
@[simp] theorem State.mailbox_setPart (s : State) (c : Nat) (x : Partn) (i : Nat) : (s.setPart c x).mailbox i = s.mailbox i := rfl
@[simp] theorem State.die_setPart (s : State) (c : Nat) (x : Partn) (i : Nat) : (s.setPart c x).die i = s.die i := rfl
@[simp] theorem State.core_modPart (s : State) (c : Nat) (f : Partn → Partn) (i : Nat) : (s.modPart c f).core i = s.core i := rfl
@[simp] theorem State.port_modPart (s : State) (c : Nat) (f : Partn → Partn) (i : Nat) : (s.modPart c f).port i = s.port i := rfl
@[simp] theorem State.counter_modPart (s : State) (c : Nat) (f : Partn → Partn) (i : Nat) : (s.modPart c f).counter i = s.counter i := rfl
@[simp] theorem State.window_modPart (s : State) (c : Nat) (f : Partn → Partn) (i : Nat) : (s.modPart c f).window i = s.window i := rfl
@[simp] theorem State.rqueue_modPart (s : State) (c : Nat) (f : Partn → Partn) (i : Nat) : (s.modPart c f).rqueue i = s.rqueue i := rfl
@[simp] theorem State.mailbox_modPart (s : State) (c : Nat) (f : Partn → Partn) (i : Nat) : (s.modPart c f).mailbox i = s.mailbox i := rfl
@[simp] theorem State.die_modPart (s : State) (c : Nat) (f : Partn → Partn) (i : Nat) : (s.modPart c f).die i = s.die i := rfl
@[simp] theorem State.core_setRqueue (s : State) (q : Nat) (x : ReqQueue) (i : Nat) : (s.setRqueue q x).core i = s.core i := rfl
@[simp] theorem State.port_setRqueue (s : State) (q : Nat) (x : ReqQueue) (i : Nat) : (s.setRqueue q x).port i = s.port i := rfl
@[simp] theorem State.counter_setRqueue (s : State) (q : Nat) (x : ReqQueue) (i : Nat) : (s.setRqueue q x).counter i = s.counter i := rfl
@[simp] theorem State.window_setRqueue (s : State) (q : Nat) (x : ReqQueue) (i : Nat) : (s.setRqueue q x).window i = s.window i := rfl
@[simp] theorem State.part_setRqueue (s : State) (q : Nat) (x : ReqQueue) (i : Nat) : (s.setRqueue q x).part i = s.part i := rfl
@[simp] theorem State.mailbox_setRqueue (s : State) (q : Nat) (x : ReqQueue) (i : Nat) : (s.setRqueue q x).mailbox i = s.mailbox i := rfl
@[simp] theorem State.die_setRqueue (s : State) (q : Nat) (x : ReqQueue) (i : Nat) : (s.setRqueue q x).die i = s.die i := rfl
@[simp] theorem State.core_setMailbox (s : State) (m : Nat) (x : Mailbox) (i : Nat) : (s.setMailbox m x).core i = s.core i := rfl
@[simp] theorem State.port_setMailbox (s : State) (m : Nat) (x : Mailbox) (i : Nat) : (s.setMailbox m x).port i = s.port i := rfl
@[simp] theorem State.counter_setMailbox (s : State) (m : Nat) (x : Mailbox) (i : Nat) : (s.setMailbox m x).counter i = s.counter i := rfl
@[simp] theorem State.window_setMailbox (s : State) (m : Nat) (x : Mailbox) (i : Nat) : (s.setMailbox m x).window i = s.window i := rfl
@[simp] theorem State.part_setMailbox (s : State) (m : Nat) (x : Mailbox) (i : Nat) : (s.setMailbox m x).part i = s.part i := rfl
@[simp] theorem State.rqueue_setMailbox (s : State) (m : Nat) (x : Mailbox) (i : Nat) : (s.setMailbox m x).rqueue i = s.rqueue i := rfl
@[simp] theorem State.die_setMailbox (s : State) (m : Nat) (x : Mailbox) (i : Nat) : (s.setMailbox m x).die i = s.die i := rfl
@[simp] theorem State.core_modMailbox (s : State) (m : Nat) (f : Mailbox → Mailbox) (i : Nat) : (s.modMailbox m f).core i = s.core i := rfl
@[simp] theorem State.port_modMailbox (s : State) (m : Nat) (f : Mailbox → Mailbox) (i : Nat) : (s.modMailbox m f).port i = s.port i := rfl
@[simp] theorem State.counter_modMailbox (s : State) (m : Nat) (f : Mailbox → Mailbox) (i : Nat) : (s.modMailbox m f).counter i = s.counter i := rfl
@[simp] theorem State.window_modMailbox (s : State) (m : Nat) (f : Mailbox → Mailbox) (i : Nat) : (s.modMailbox m f).window i = s.window i := rfl
@[simp] theorem State.part_modMailbox (s : State) (m : Nat) (f : Mailbox → Mailbox) (i : Nat) : (s.modMailbox m f).part i = s.part i := rfl
@[simp] theorem State.rqueue_modMailbox (s : State) (m : Nat) (f : Mailbox → Mailbox) (i : Nat) : (s.modMailbox m f).rqueue i = s.rqueue i := rfl
@[simp] theorem State.die_modMailbox (s : State) (m : Nat) (f : Mailbox → Mailbox) (i : Nat) : (s.modMailbox m f).die i = s.die i := rfl
@[simp] theorem State.core_setDie (s : State) (d : Nat) (x : DieEntry) (i : Nat) : (s.setDie d x).core i = s.core i := rfl
@[simp] theorem State.port_setDie (s : State) (d : Nat) (x : DieEntry) (i : Nat) : (s.setDie d x).port i = s.port i := rfl
@[simp] theorem State.counter_setDie (s : State) (d : Nat) (x : DieEntry) (i : Nat) : (s.setDie d x).counter i = s.counter i := rfl
@[simp] theorem State.window_setDie (s : State) (d : Nat) (x : DieEntry) (i : Nat) : (s.setDie d x).window i = s.window i := rfl
@[simp] theorem State.part_setDie (s : State) (d : Nat) (x : DieEntry) (i : Nat) : (s.setDie d x).part i = s.part i := rfl
@[simp] theorem State.rqueue_setDie (s : State) (d : Nat) (x : DieEntry) (i : Nat) : (s.setDie d x).rqueue i = s.rqueue i := rfl
@[simp] theorem State.mailbox_setDie (s : State) (d : Nat) (x : DieEntry) (i : Nat) : (s.setDie d x).mailbox i = s.mailbox i := rfl

end Sys2Proof.Machine
end

