-- ==== Sys2Proof/Laws/Memory.lean ====
section
/-!
SUPPORT. The laws of stack and core memory: a byte reads back what was written, a zeroed range reads zero, every other byte
is left alone, and both operations keep the canonical form.
-/
namespace Sys2Proof.Machine

/-! ### Bytes put into a table -/

/-- Bytes put from address a are read there, every other address as before. -/
theorem get_putBytes (t : Table Byte) (a b : Nat) (data : List Byte) :
    Table.get 0 (putBytes t a data) b = if a ≤ b ∧ b < a + data.length then data.getD (b - a) 0 else Table.get 0 t b := by
  induction data generalizing t a with
  | nil => simp [putBytes]
  | cons x xs ih =>
    simp only [putBytes, ih, Table.get_set, List.length_cons]
    by_cases h : b = a
    · subst h; simp
    · by_cases h1 : a + 1 ≤ b ∧ b < a + 1 + xs.length
      · have h2 : a ≤ b ∧ b < a + (xs.length + 1) := by omega
        rw [if_pos h1, if_pos h2]
        obtain ⟨n, rfl⟩ : ∃ n, b = a + 1 + n := ⟨b - (a + 1), by omega⟩
        have e1 : a + 1 + n - (a + 1) = n := by omega
        have e2 : a + 1 + n - a = n + 1 := by omega
        rw [e1, e2]; simp
      · have h2 : ¬ (a ≤ b ∧ b < a + (xs.length + 1)) := by omega
        rw [if_neg h1, if_neg h2, if_neg h]

/-- Putting bytes keeps the canonical form. -/
theorem putBytes_wf {t : Table Byte} (a : Nat) (data : List Byte) (h : Table.wf 0 t = true) : Table.wf 0 (putBytes t a data) = true := by
  induction data generalizing t a with
  | nil => exact h
  | cons x xs ih => exact ih _ (Table.wf_set 0 a x h)

/-! ### memWrite -/

/-- A write of memory puts its bytes and leaves every other address as it was (R118, R119). -/
theorem byteAt_memWrite (s : State) (a : Nat) (data : List Byte) (b : Nat) :
    (memWrite s a data).1.byteAt b = if a ≤ b ∧ b < a + data.length then data.getD (b - a) 0 else s.byteAt b :=
  get_putBytes ..

/-- A write of memory changes memory only. -/
theorem memWrite_eq (s : State) (a : Nat) (data : List Byte) : (memWrite s a data).1 = { s with mem := (memWrite s a data).1.mem } := rfl

/-- A write of memory keeps its canonical form. -/
theorem memWrite_wf (s : State) (a : Nat) (data : List Byte) (h : s.mem.wf = true) : (memWrite s a data).1.mem.wf = true :=
  putBytes_wf a data h

/-- A write of memory leaves the powered layers as they were. -/
@[simp] theorem memWrite_layersOn (s : State) (a : Nat) (data : List Byte) : (memWrite s a data).1.mem.layersOn = s.mem.layersOn := rfl

/-! ### zeroRange -/

/-- A zeroed range reads zero, every other address as before (R126 to R128). -/
theorem byteAt_zeroRange (s : State) (a n b : Nat) : (zeroRange s a n).byteAt b = if a ≤ b ∧ b < a + n then 0 else s.byteAt b := by
  have h := Table.get_filter (0 : Byte) s.mem.cells (fun k => !(decide (a ≤ k) && decide (k < a + n))) b
  simp only [State.byteAt, zeroRange]
  rw [h]
  by_cases hb : a ≤ b ∧ b < a + n
  · simp [hb.1, hb.2]
  · rw [if_neg hb, if_pos]
    simp only [Bool.not_eq_true', Bool.and_eq_false_iff, decide_eq_false_iff_not]
    omega

/-- A zeroed range changes memory only. -/
theorem zeroRange_eq (s : State) (a n : Nat) : zeroRange s a n = { s with mem := (zeroRange s a n).mem } := rfl

/-- Zeroing a range keeps the canonical form. -/
theorem zeroRange_wf (s : State) (a n : Nat) (h : s.mem.wf = true) : (zeroRange s a n).mem.wf = true :=
  Table.wf_filter 0 _ h

/-- Zeroing a range leaves the powered layers as they were. -/
@[simp] theorem zeroRange_layersOn (s : State) (a n : Nat) : (zeroRange s a n).mem.layersOn = s.mem.layersOn := rfl

/-! ### Reading several bytes -/

/-- n bytes are read from the same cells whatever else changes. -/
theorem bytesAt_congr {s t : State} (a n : Nat) (h : ∀ b, a ≤ b → b < a + n → t.byteAt b = s.byteAt b) : t.bytesAt a n = s.bytesAt a n := by
  induction n generalizing a with
  | zero => rfl
  | succ n ih =>
    simp only [State.bytesAt]
    rw [h a (Nat.le_refl _) (by omega), ih (a + 1) (fun b hb hb' => h b (by omega) (by omega))]

/-- n bytes are n bytes. -/
@[simp] theorem bytesAt_length (s : State) (a n : Nat) : (s.bytesAt a n).length = n := by
  induction n generalizing a with
  | zero => rfl
  | succ n ih => simp [State.bytesAt, ih]

end Sys2Proof.Machine
end

