-- ==== Sys2Proof/Laws/CanonicalBase.lean ====
section
/-! SUPPORT. The rules by which a command keeps the memory in its canonical form: folds over the die, the two guards of a
command (PORST_N and CCLK), and the projections of a pair. The files that follow give one lemma, named after its operation, for
every operation that answers a die, and one for every command. -/

namespace Sys2Proof.Machine

theorem foldl_wf {β : Type} (f : State → β → State) (l : List β) (s : State) (hs : s.mem.wf = true)
    (hf : ∀ s x, s.mem.wf = true → (f s x).mem.wf = true) : (l.foldl f s).mem.wf = true := by
  induction l generalizing s with
  | nil => exact hs
  | cons x l ih => exact ih _ (hf _ _ hs)
theorem foldl_fst_wf {β γ : Type} (f : State × γ → β → State × γ) (l : List β) (a : State × γ) (ha : a.1.mem.wf = true)
    (hf : ∀ a x, a.1.mem.wf = true → (f a x).1.mem.wf = true) : (l.foldl f a).1.mem.wf = true := by
  induction l generalizing a with
  | nil => exact ha
  | cons x l ih => exact ih _ (hf _ _ ha)
theorem wf_mk {m : MemSys} (b cb l sd sn sr st rw cw ca lu cu) (h : m.wf = true)
    : MemSys.wf ⟨m.cells, b, cb, l, sd, sn, sr, st, rw, cw, ca, lu, cu⟩ = true := h
theorem fst_wf {β : Type} {x : State × β} {s : State} {d : β} (e : x = (s, d)) (h : x.1.mem.wf = true) : s.mem.wf = true := by
  rw [e] at h; exact h
theorem snd_wf {β : Type} {x : β × State} {s : State} {d : β} (e : x = (d, s)) (h : x.2.mem.wf = true) : s.mem.wf = true := by
  rw [e] at h; exact h
/-- The answer, where it is a next state, has a memory in canonical form. -/
def Keeps (r : Result) : Prop := ∀ t, r = .next t → t.mem.wf = true
theorem keeps_next {s : State} (h : s.mem.wf = true) : Keeps (.next s) := by
  intro t e; cases e; exact h
theorem keeps_refused (r : Refusal) : Keeps (.refused r) := by
  intro t e; cases e
theorem keeps_fault (f : Fault) : Keeps (.fault f) := by
  intro t e; cases e
theorem keeps_live {s : State} {f : State → State} (hm : s.mem.wf = true) (hf : (f s).mem.wf = true) : Keeps (live s f) := by
  unfold live; apply keeps_next; split <;> assumption
theorem keeps_awake {s : State} {f : State → State} (hm : s.mem.wf = true) (hf : (f s).mem.wf = true) : Keeps (awake s f) := by
  unfold awake; apply keeps_next; split <;> assumption
theorem getD_wf {o : Option State} {s : State} (h : ∀ t, o = some t → t.mem.wf = true) (hs : s.mem.wf = true) : (o.getD s).mem.wf = true := by
  cases o with
  | none => exact hs
  | some t => exact h t rfl
theorem id_wf {s : State} (h : s.mem.wf = true) : (id s).mem.wf = true := h
theorem mk_wf : MemSys.wf {} = true := by decide
theorem reset_wf : State.reset.mem.wf = true := mk_wf
theorem ite_wf (p : Prop) [Decidable p] (a b : State) (ha : a.mem.wf = true) (hb : b.mem.wf = true) : (if p then a else b).mem.wf = true := by
  split <;> assumption
theorem setCore_wf (s : State) (c : Nat) (k : Core) (hm : s.mem.wf = true) : (s.setCore c k).mem.wf = true := by
  rw [State.setCore_mem]; exact hm
theorem setMailbox_wf (s : State) (i : Nat) (b : Mailbox) (hm : s.mem.wf = true) : (s.setMailbox i b).mem.wf = true := by
  rw [State.setMailbox_mem]; exact hm
theorem foldl_snd_wf {β γ : Type} (f : γ × State → β → γ × State) (l : List β) (a : γ × State) (ha : a.2.mem.wf = true)
    (hf : ∀ a x, a.2.mem.wf = true → (f a x).2.mem.wf = true) : (l.foldl f a).2.mem.wf = true := by
  induction l generalizing a with
  | nil => exact ha
  | cons x l ih => exact ih _ (hf _ _ ha)

end Sys2Proof.Machine
end

