-- ==== Sys2Proof/Laws/CanonicalDie.lean ====
section
/-! SUPPORT. The memory keeps its canonical form under the die: shared operations, transfers, waits, movers, the Mast, the Sync unit, windows, resets and bookings. -/

namespace Sys2Proof.Machine

/-! ### Ops -/

theorem takeFree_wf (s : State) (hm : s.mem.wf = true) : (takeFree s).2.mem.wf = true := by
  unfold takeFree
  repeat' (first | with_reducible assumption)

theorem takeFreeBytes_wf (s : State) (n : Nat) (hm : s.mem.wf = true) : (takeFreeBytes s n).2.mem.wf = true := by
  unfold takeFreeBytes
  repeat' (first | with_reducible assumption)

theorem setFault_wf (s : State) (c : Nat) (code : BitVec 16) (hm : s.mem.wf = true) : (setFault s c code).mem.wf = true := by
  unfold setFault
  repeat' (first | with_reducible assumption | (simp only [State.modCore_mem]))

theorem raiseRec_wf (s : State) (r : LogRec) (hm : s.mem.wf = true) : (raiseRec s r).mem.wf = true := by
  unfold raiseRec
  repeat' (first | with_reducible assumption | with_reducible apply setFault_wf | dsimp only | split)

theorem raiseCore_wf (s : State) (c : Nat) (code : BitVec 16) (unit : Nat) (detail : BitVec 16)
    (hm : s.mem.wf = true) : (raiseCore s c code unit detail).mem.wf = true := by
  unfold raiseCore
  repeat' (first | with_reducible assumption | with_reducible apply raiseRec_wf)

theorem raiseUnit_wf (s : State) (code : BitVec 16) (colour : BitVec 4) (unit : Nat) (peer : Option (BitVec 6)) (detail : BitVec 16)
    (hm : s.mem.wf = true) : (raiseUnit s code colour unit peer detail).mem.wf = true := by
  unfold raiseUnit
  repeat' (first | with_reducible assumption | with_reducible apply raiseRec_wf)

theorem fwLog_wf (s : State) (r : LogRec) (hm : s.mem.wf = true) : (fwLog s r).mem.wf = true := by
  unfold fwLog
  repeat' (first | with_reducible assumption)

theorem fwRaise_wf (s : State) (code : BitVec 16) (colour : BitVec 4) (detail : BitVec 16)
    (hm : s.mem.wf = true) : (fwRaise s code colour detail).mem.wf = true := by
  unfold fwRaise
  repeat' (first | with_reducible assumption | with_reducible apply fwLog_wf)

theorem failStep_wf (s : State) (c : Nat) (hm : s.mem.wf = true) : (failStep s c).mem.wf = true := by
  unfold failStep
  repeat' (first | with_reducible assumption | (simp only [State.modCore_mem]))

theorem raiseD_wf (s : State) (c : Nat) (code : BitVec 16) (unit : Nat) (detail : BitVec 16) (addr : Nat)
    (hm : s.mem.wf = true) : (raiseD s c code unit detail addr).mem.wf = true := by
  unfold raiseD
  repeat' (first | with_reducible assumption | with_reducible apply raiseRec_wf | with_reducible apply failStep_wf)

theorem raiseP_wf (s : State) (c : Nat) (code : BitVec 16) (unit : Nat) (detail : BitVec 16)
    (hm : s.mem.wf = true) : (raiseP s c code unit detail).mem.wf = true := by
  unfold raiseP
  repeat' (first | with_reducible assumption | with_reducible apply raiseCore_wf | with_reducible apply failStep_wf | (simp only [State.modCore_mem]))

theorem detectFor_wf (s : State) (c : Nat) (a n : Nat) (hm : s.mem.wf = true) : (detectFor s c a n).mem.wf = true := by
  unfold detectFor
  repeat' (first | with_reducible assumption | with_reducible apply raiseD_wf | with_reducible apply foldl_wf | with_reducible apply foldl_fst_wf
                 | with_reducible apply foldl_snd_wf | dsimp only | split | (intro _))

theorem detectRemote_wf (s : State) (colour : BitVec 4) (a n : Nat) (peer : Option (BitVec 6))
    (hm : s.mem.wf = true) : (detectRemote s colour a n peer).mem.wf = true := by
  unfold detectRemote
  repeat' (first | with_reducible assumption | with_reducible apply raiseRec_wf | with_reducible apply foldl_wf | with_reducible apply foldl_fst_wf
                 | with_reducible apply foldl_snd_wf | dsimp only | split | (intro _))

theorem send_wf (s : State) (m : Msg) (hm : s.mem.wf = true) : (send s m).mem.wf = true := by
  unfold send
  repeat' (first | with_reducible assumption)

theorem sendOn_wf (s : State) (p : PortId) (m : Msg) (hm : s.mem.wf = true) : (sendOn s p m).mem.wf = true := by
  unfold sendOn
  repeat' (first | with_reducible assumption)

theorem meshSlot_wf (s : State) (stype : Byte) (colour : BitVec 4) (core : Nat) (slot : Slot)
    (hm : s.mem.wf = true) : (meshSlot s stype colour core slot).mem.wf = true := by
  unfold meshSlot
  repeat' (first | with_reducible assumption)

theorem meshSignal_wf (s : State) (c : Nat) (colour : BitVec 4) (core : Nat) (slot : Slot)
    (hm : s.mem.wf = true) : (meshSignal s c colour core slot).mem.wf = true := by
  unfold meshSignal
  repeat' (first | with_reducible assumption)

theorem takeMesh_wf (s : State) (hit : MeshSlot → Bool) (f : State → State)
    (hm : s.mem.wf = true) (hf : ∀ x0, x0.mem.wf = true → (f x0).mem.wf = true) : (takeMesh s hit f).mem.wf = true := by
  unfold takeMesh
  repeat' (first | with_reducible assumption | apply hf | dsimp only | split)

theorem sendSlot_wf (s : State) (dst : BitVec 6) (stype : Byte) (colour : BitVec 4) (core : Nat) (slot : Slot)
    (hm : s.mem.wf = true) : (sendSlot s dst stype colour core slot).mem.wf = true := by
  unfold sendSlot
  repeat' (first | with_reducible assumption | with_reducible apply send_wf | with_reducible apply meshSlot_wf | dsimp only | split)

theorem emit_wf (s : State) (o : Out) (hm : s.mem.wf = true) : (emit s o).mem.wf = true := by
  unfold emit
  repeat' (first | with_reducible assumption)

/-! ### Flags -/

theorem setFlag_wf (s : State) (c f : Nat) (hm : s.mem.wf = true) : (setFlag s c f).mem.wf = true := by
  unfold setFlag
  repeat' (first | with_reducible assumption | (simp only [State.modCore_mem]))

/-! ### Operands -/

theorem detectOpnd_wf (s : State) (c : Nat) (o : Opnd) (off : Int) (n unit : Nat)
    (hm : s.mem.wf = true) : (detectOpnd s c o off n unit).mem.wf = true := by
  unfold detectOpnd
  repeat' (first | with_reducible assumption | with_reducible apply raiseD_wf | with_reducible apply detectFor_wf | dsimp only | split)

theorem writeOpnd_wf (s : State) (c : Nat) (o : Opnd) (off : Int) (data : List Byte) (poison : Bool)
    (hm : s.mem.wf = true) : (writeOpnd s c o off data poison).mem.wf = true := by
  unfold writeOpnd
  repeat' (first | with_reducible assumption | with_reducible apply memWrite_wf | with_reducible apply raiseP_wf | (simp only [State.setCore_mem])
                 | dsimp only | split | (intro _) | (refine fst_wf (by assumption) ?_) | (refine snd_wf (by assumption) ?_)
                 | (exact wf_mk _ _ _ _ _ _ _ _ _ _ _ _ (by with_reducible assumption))
                 | (exact wf_mk _ _ _ _ _ _ _ _ _ _ _ _ (memWrite_wf _ _ _ (by with_reducible assumption))))

theorem fetchOpnd_wf (s : State) (c : Nat) (o : Opnd) (off : Int) (n : Nat) (unit : Nat)
    (hm : s.mem.wf = true) : (fetchOpnd s c o off n unit).2.mem.wf = true := by
  unfold fetchOpnd
  repeat' (first | with_reducible assumption | with_reducible apply takeFreeBytes_wf | with_reducible apply raiseP_wf
                 | with_reducible apply detectOpnd_wf | dsimp only | split)

theorem refuse_wf (s : State) (c : Nat) (code : BitVec 16) (hm : s.mem.wf = true) : (refuse s c code).mem.wf = true := by
  unfold refuse
  repeat' (first | with_reducible assumption | with_reducible apply raiseP_wf)

theorem issue_wf (c : Nat) (long fieldsOk : Bool) (regs : List (BitVec 5)) (eff : State → State) (s : State)
    (hm : s.mem.wf = true) (heff : ∀ x0, x0.mem.wf = true → (eff x0).mem.wf = true) : (issue c long fieldsOk regs eff s).mem.wf = true := by
  unfold issue
  repeat' (first | with_reducible assumption | with_reducible apply refuse_wf | apply heff | (simp only [State.setCore_mem]) | dsimp only | split)

theorem issued_wf (s : State) (c : Nat) (hm : s.mem.wf = true) : (issued s c).mem.wf = true := by
  unfold issued
  repeat' (first | with_reducible assumption | (simp only [State.modCore_mem]))

theorem heldData_wf (s : State) (c : Nat) (hm : s.mem.wf = true) : (heldData s c).mem.wf = true := by
  unfold heldData
  repeat' (first | with_reducible assumption | (simp only [State.modCore_mem]))

theorem heldQueue_wf (s : State) (c : Nat) (hm : s.mem.wf = true) : (heldQueue s c).mem.wf = true := by
  unfold heldQueue
  repeat' (first | with_reducible assumption | (simp only [State.modCore_mem]))

theorem mvIssue_wf (c : Nat) (op : EOp) (f : Fields) (eff : (State → State) → State → State) (s : State) (hm : s.mem.wf = true)
    (hf : ∀ k t, (∀ s, s.mem.wf = true → (k s).mem.wf = true) → t.mem.wf = true → (eff k t).mem.wf = true) :
    (mvIssue c op f eff s).mem.wf = true := by
  unfold mvIssue
  split
  · exact heldQueue_wf _ _ hm
  · exact hf _ _ (fun s h => by rw [State.modCore_mem]; exact h) hm

theorem pushEngine_wf (c e : Nat) (long : Bool) (rs : List Rng) (bankHold : Bool) (q : QInstr) (s : State)
    (hm : s.mem.wf = true) : (pushEngine c e long rs bankHold q s).mem.wf = true := by
  unfold pushEngine
  repeat' (first | with_reducible assumption | with_reducible apply heldData_wf | with_reducible apply heldQueue_wf
                 | (simp only [State.setCore_mem]) | dsimp only | split)

/-! ### Qos -/

theorem modBucket_wf (s : State) (colour key : Nat) (g : Bucket → Bucket) (hm : s.mem.wf = true) : (modBucket s colour key g).mem.wf = true := by
  unfold modBucket
  repeat' (first | with_reducible assumption | (simp only [State.modPart_mem]))

theorem qosStart_wf (s : State) (colour : Nat) (costs : List (Nat × Nat)) (hm : s.mem.wf = true) : (qosStart s colour costs).2.mem.wf = true := by
  unfold qosStart
  repeat' (first | with_reducible assumption | with_reducible apply modBucket_wf | with_reducible apply foldl_wf
                 | with_reducible apply foldl_fst_wf | with_reducible apply foldl_snd_wf | dsimp only | split | (intro _))

/-! ### Transfer -/

theorem sendReq_wf (s : State) (q : Req) (m : Msg) (hm : s.mem.wf = true) : (sendReq s q m).mem.wf = true := by
  unfold sendReq
  repeat' (first | with_reducible assumption | with_reducible apply send_wf)

theorem modTransfer_wf (s : State) (num : Nat) (f : Transfer → Transfer) (hm : s.mem.wf = true) : (modTransfer s num f).mem.wf = true := by
  unfold modTransfer
  repeat' (first | with_reducible assumption)

theorem sendPart_wf (s : State) (t : Transfer) (tag : BitVec 12) (hm : s.mem.wf = true) : (sendPart s t tag).mem.wf = true := by
  unfold sendPart
  repeat' (first | with_reducible assumption | with_reducible apply sendReq_wf | with_reducible apply modTransfer_wf)

theorem sendParts_wf (n : Nat) (s : State) (hm : s.mem.wf = true) : (sendParts n s).mem.wf = true := by
  induction n generalizing s with
  | zero => exact hm
  | succ n ih =>
    unfold sendParts
    split
    · exact ih _ (sendPart_wf _ _ _ hm)
    · exact hm

theorem startTransfer_wf (s : State) (who : Purpose) (write : Bool) (die : BitVec 6) (addr len : Nat) (data : List Byte)
    (hm : s.mem.wf = true) : (startTransfer s who write die addr len data).mem.wf = true := by
  unfold startTransfer
  repeat' (first | with_reducible assumption | with_reducible apply sendParts_wf)

theorem settlePart_wf (s : State) (num off len : Nat) (write : Bool) (st : Byte) (data : List Byte)
    (hm : s.mem.wf = true) : (settlePart s num off len write st data).mem.wf = true := by
  unfold settlePart
  repeat' (first | with_reducible assumption | with_reducible apply modTransfer_wf | with_reducible apply sendParts_wf)

theorem dropTransfers_wf (s : State) (sel : Purpose → Bool) (hm : s.mem.wf = true) : (dropTransfers s sel).mem.wf = true := by
  unfold dropTransfers
  repeat' (first | with_reducible assumption)

/-! ### Wait -/

theorem waitOp_wf (s : State) (c : Nat) (h : Hold) (hm : s.mem.wf = true) : (waitOp s c h).mem.wf = true := by
  unfold waitOp
  repeat' (first | with_reducible assumption | (simp only [State.setCore_mem]) | dsimp only | split)

theorem execWaitAll_wf (c : CoreId) (f : Fields) (s : State) (hm : s.mem.wf = true) : Keeps (execWaitAll c f s) := by
  unfold execWaitAll
  repeat' (first | with_reducible assumption | with_reducible apply issue_wf | with_reducible apply waitOp_wf | with_reducible apply keeps_live
                 | dsimp only | split | (intro _))

theorem execWaitAny_wf (c : CoreId) (f : Fields) (s : State) (hm : s.mem.wf = true) : Keeps (execWaitAny c f s) := by
  unfold execWaitAny
  repeat' (first | with_reducible assumption | with_reducible apply refuse_wf | with_reducible apply issue_wf | with_reducible apply waitOp_wf
                 | with_reducible apply keeps_live | dsimp only | split | (intro _))

theorem execWaitBar_wf (c : CoreId) (f : Fields) (s : State) (hm : s.mem.wf = true) : Keeps (execWaitBar c f s) := by
  unfold execWaitBar
  repeat' (first | with_reducible assumption | with_reducible apply issue_wf | with_reducible apply waitOp_wf | with_reducible apply keeps_live
                 | dsimp only | split | (intro _))

theorem execWaitBook_wf (c : CoreId) (f : Fields) (s : State) (hm : s.mem.wf = true) : Keeps (execWaitBook c f s) := by
  unfold execWaitBook
  repeat' (first | with_reducible assumption | with_reducible apply refuse_wf | with_reducible apply issue_wf | with_reducible apply waitOp_wf
                 | with_reducible apply keeps_live | dsimp only | split | (intro _))

theorem execWaitFill_wf (c : CoreId) (f : Fields) (s : State) (hm : s.mem.wf = true) : Keeps (execWaitFill c f s) := by
  unfold execWaitFill
  repeat' (first | with_reducible assumption | with_reducible apply refuse_wf | with_reducible apply issue_wf | with_reducible apply waitOp_wf
                 | with_reducible apply keeps_live | dsimp only | split | (intro _))

theorem execWaitComplete_wf (c : CoreId) (s : State) (hm : s.mem.wf = true) : Keeps (execWaitComplete c s) := by
  unfold execWaitComplete
  repeat' (first | with_reducible assumption | with_reducible apply keeps_live | (simp only [State.setCore_mem]) | dsimp only | split)

theorem arriveAt_wf (s : State) (c n : Nat) (hm : s.mem.wf = true) : (arriveAt s c n).mem.wf = true := by
  unfold arriveAt
  repeat' (first | with_reducible assumption | with_reducible apply meshSlot_wf | (simp only [State.modCore_mem]))

theorem execArrive_wf (c : CoreId) (f : Fields) (s : State) (hm : s.mem.wf = true) : Keeps (execArrive c f s) := by
  unfold execArrive
  repeat' (first | with_reducible assumption | with_reducible apply issue_wf | with_reducible apply issued_wf | with_reducible apply arriveAt_wf
                 | with_reducible apply keeps_live | dsimp only | split | (intro _))

theorem signalTo_wf (s : State) (c : Nat) (target : Word) (mask : Word) (hm : s.mem.wf = true) : (signalTo s c target mask).mem.wf = true := by
  unfold signalTo
  repeat' (first | with_reducible assumption | with_reducible apply failStep_wf | with_reducible apply meshSignal_wf
                 | with_reducible apply sendSlot_wf | dsimp only | split)

theorem execSignal_wf (c : CoreId) (f : Fields) (s : State) (hm : s.mem.wf = true) : Keeps (execSignal c f s) := by
  unfold execSignal
  repeat' (first | with_reducible assumption | with_reducible apply refuse_wf | with_reducible apply issue_wf | with_reducible apply issued_wf
                 | with_reducible apply signalTo_wf | with_reducible apply keeps_live | dsimp only | split | (intro _))

theorem fenceEnd_wf (s : State) (c : Nat) (h : Hold) (hm : s.mem.wf = true) : (fenceEnd s c h).mem.wf = true := by
  unfold fenceEnd
  repeat' (first | with_reducible assumption | (simp only [State.modCore_mem]))

theorem fenceOp_wf (s : State) (c : Nat) (h : Hold) (hm : s.mem.wf = true) : (fenceOp s c h).mem.wf = true := by
  unfold fenceOp
  repeat' (first | with_reducible assumption | with_reducible apply issued_wf | with_reducible apply fenceEnd_wf | (simp only [State.modCore_mem])
                 | dsimp only | split)

theorem execFenceC_wf (c : CoreId) (f : Fields) (s : State) (hm : s.mem.wf = true) : Keeps (execFenceC c f s) := by
  unfold execFenceC
  repeat' (first | with_reducible assumption | with_reducible apply issue_wf | with_reducible apply fenceOp_wf | with_reducible apply keeps_live
                 | dsimp only | split | (intro _))

theorem execFenceD_wf (c : CoreId) (f : Fields) (s : State) (hm : s.mem.wf = true) : Keeps (execFenceD c f s) := by
  unfold execFenceD
  repeat' (first | with_reducible assumption | with_reducible apply issue_wf | with_reducible apply fenceOp_wf | with_reducible apply keeps_live
                 | dsimp only | split | (intro _))

theorem execFenceP_wf (c : CoreId) (f : Fields) (s : State) (hm : s.mem.wf = true) : Keeps (execFenceP c f s) := by
  unfold execFenceP
  repeat' (first | with_reducible assumption | with_reducible apply issue_wf | with_reducible apply fenceOp_wf | with_reducible apply keeps_live
                 | dsimp only | split | (intro _))

theorem sendProbe_wf (c : Nat) (s : State) (d : Nat) (hm : s.mem.wf = true) : (sendProbe c s d).mem.wf = true := by
  unfold sendProbe
  repeat' (first | with_reducible assumption | with_reducible apply send_wf | (simp only [State.modCore_mem]) | dsimp only | split)

theorem execFenceComplete_wf (c : CoreId) (s : State) (hm : s.mem.wf = true) : Keeps (execFenceComplete c s) := by
  unfold execFenceComplete
  repeat' (first | with_reducible assumption | with_reducible apply fenceEnd_wf | with_reducible apply sendProbe_wf
                 | with_reducible apply keeps_live | with_reducible apply foldl_wf | with_reducible apply foldl_fst_wf
                 | with_reducible apply foldl_snd_wf | (simp only [State.modCore_mem]) | dsimp only | split)

theorem execCinv_wf (c : CoreId) (f : Fields) (s : State) (hm : s.mem.wf = true) : Keeps (execCinv c f s) := by
  unfold execCinv
  repeat' (first | with_reducible assumption | with_reducible apply refuse_wf | with_reducible apply issue_wf | with_reducible apply keeps_live
                 | (simp only [State.modCore_mem]) | dsimp only | split | (intro _))

theorem execStepBegin_wf (c : CoreId) (f : Fields) (s : State) (hm : s.mem.wf = true) : Keeps (execStepBegin c f s) := by
  unfold execStepBegin
  repeat' (first | with_reducible assumption | with_reducible apply refuse_wf | with_reducible apply issue_wf | with_reducible apply heldData_wf
                 | with_reducible apply keeps_live | (simp only [State.modCore_mem]) | dsimp only | split | (intro _))

theorem execStepEnd_wf (c : CoreId) (f : Fields) (s : State) (hm : s.mem.wf = true) : Keeps (execStepEnd c f s) := by
  unfold execStepEnd
  repeat' (first | with_reducible assumption | with_reducible apply refuse_wf | with_reducible apply issue_wf | with_reducible apply arriveAt_wf
                 | with_reducible apply keeps_live | (simp only [State.modCore_mem]) | dsimp only | split | (intro _))

theorem execHalt_wf (c : CoreId) (f : Fields) (s : State) (hm : s.mem.wf = true) : Keeps (execHalt c f s) := by
  unfold execHalt
  repeat' (first | with_reducible assumption | with_reducible apply refuse_wf | with_reducible apply issue_wf | with_reducible apply keeps_live
                 | (simp only [State.modCore_mem]) | dsimp only | split | (intro _))

theorem execSetvl_wf (c : CoreId) (f : Fields) (s : State) (hm : s.mem.wf = true) : Keeps (execSetvl c f s) := by
  unfold execSetvl
  repeat' (first | with_reducible assumption | with_reducible apply refuse_wf | with_reducible apply issue_wf | with_reducible apply keeps_live
                 | (simp only [State.modCore_mem]) | dsimp only | split | (intro _))

/-! ### Mover -/

theorem modChan_wf (s : State) (c n : Nat) (g : Chan → Chan) (hm : s.mem.wf = true) : (modChan s c n g).mem.wf = true := by
  unfold modChan
  repeat' (first | with_reducible assumption | (simp only [State.modCore_mem]))

theorem execMvcfg_wf (c : CoreId) (f : Fields) (s : State) (hm : s.mem.wf = true) : Keeps (execMvcfg c f s) := by
  unfold execMvcfg
  apply keeps_live hm
  apply issue_wf _ _ _ _ _ _ hm
  intro s hs
  apply mvIssue_wf _ _ _ _ _ hs
  intro k t hk ht
  repeat' (first | with_reducible assumption | with_reducible apply hk | with_reducible apply refuse_wf | (simp only [State.modCore_mem])
                 | dsimp only | split)

theorem postDesc_wf (s : State) (c n : Nat) (d : Desc) (rs : List Rng) (hm : s.mem.wf = true) : (postDesc s c n d rs).mem.wf = true := by
  unfold postDesc
  repeat' (first | with_reducible assumption | (simp only [State.modCore_mem]))

theorem execMvpost_wf (c : CoreId) (f : Fields) (s : State) (hm : s.mem.wf = true) : Keeps (execMvpost c f s) := by
  unfold execMvpost
  apply keeps_live hm
  apply issue_wf _ _ _ _ _ _ hm
  intro s hs
  apply mvIssue_wf _ _ _ _ _ hs
  intro k t hk ht
  repeat' (first | with_reducible assumption | with_reducible apply hk | with_reducible apply fetchOpnd_wf | with_reducible apply refuse_wf
                 | with_reducible apply heldData_wf | with_reducible apply heldQueue_wf | with_reducible apply postDesc_wf | dsimp only | split)

theorem freeSettled_wf (s : State) (c n : Nat) (idx : BitVec 16) (hm : s.mem.wf = true) : (freeSettled s c n idx).mem.wf = true := by
  unfold freeSettled
  repeat' (first | with_reducible assumption | (simp only [State.modCore_mem]))

theorem pieceDone_wf (s : State) (c n : Nat) (idx : BitVec 16) (bytes : Nat) (st : Byte)
    (hm : s.mem.wf = true) : (pieceDone s c n idx bytes st).mem.wf = true := by
  unfold pieceDone
  repeat' (first | with_reducible assumption | with_reducible apply failStep_wf | with_reducible apply modChan_wf
                 | with_reducible apply freeSettled_wf | dsimp only | split)

theorem modSender_wf (s : State) (win : BitVec 8) (die core : BitVec 6) (g : Sender → Sender)
    (hm : s.mem.wf = true) : (modSender s win die core g).mem.wf = true := by
  unfold modSender
  repeat' (first | with_reducible assumption)

theorem refuseUnits_wf (s : State) (win : BitVec 8) (die core : BitVec 6) (u : Nat)
    (hm : s.mem.wf = true) : (refuseUnits s win die core u).mem.wf = true := by
  unfold refuseUnits
  repeat' (first | with_reducible assumption | with_reducible apply modSender_wf | (simp only [State.setWindow_mem]) | dsimp only | split)

theorem moverWrite_wf (s : State) (c : Nat) (win : Option Nat) (a : Nat) (data : List Byte)
    (hm : s.mem.wf = true) : (moverWrite s c win a data).1.mem.wf = true := by
  unfold moverWrite
  repeat' (first | with_reducible assumption | with_reducible apply memWrite_wf | with_reducible apply raiseP_wf
                 | with_reducible apply detectFor_wf | dsimp only | split)

theorem moverRead_wf (s : State) (c a n : Nat) (hm : s.mem.wf = true) : (moverRead s c a n).1.mem.wf = true := by
  unfold moverRead
  repeat' (first | with_reducible assumption | with_reducible apply raiseP_wf | with_reducible apply detectFor_wf | dsimp only | split)

theorem markEarly_wf (s : State) (c : Nat) (die : BitVec 6) (a : Nat) (hm : s.mem.wf = true) : (markEarly s c die a).mem.wf = true := by
  unfold markEarly
  repeat' (first | with_reducible assumption | with_reducible apply takeFree_wf | (simp only [State.modCore_mem]) | dsimp only | split)

theorem deliver_wf (s : State) (c n : Nat) (idx : BitVec 16) (d : Desc) (dst : Nat) (data : List Byte)
    (hm : s.mem.wf = true) : (deliver s c n idx d dst data).mem.wf = true := by
  unfold deliver
  repeat' (first | with_reducible assumption | with_reducible apply writeOpnd_wf | with_reducible apply sendReq_wf
                 | with_reducible apply modChan_wf | with_reducible apply pieceDone_wf | with_reducible apply refuseUnits_wf
                 | with_reducible apply moverWrite_wf | with_reducible apply markEarly_wf | dsimp only | split)

theorem barCredit_wf (s : State) (c : Nat) (die : BitVec 6) (win : BitVec 8) (hm : s.mem.wf = true) : (barCredit s c die win).mem.wf = true := by
  unfold barCredit
  repeat' (first | with_reducible assumption | (simp only [State.modCore_mem]))

theorem refundPiece_wf (s : State) (c : Nat) (d : Desc) (u : Nat) (hm : s.mem.wf = true) : (refundPiece s c d u).mem.wf = true := by
  unfold refundPiece
  repeat' (first | with_reducible assumption | (simp only [State.modCore_mem]) | dsimp only | split)

theorem clearSettled_wf (s : State) (c : Nat) (hm : s.mem.wf = true) : (clearSettled s c).mem.wf = true := by
  unfold clearSettled
  repeat' (first | with_reducible assumption | (simp only [State.modCore_mem]) | dsimp only | split)

theorem settle_wf (s : State) (q : Req) (st : Byte) (data : List Byte) (hm : s.mem.wf = true) : (settle s q st data).mem.wf = true := by
  unfold settle
  repeat' (first | with_reducible assumption | with_reducible apply qosStart_wf | with_reducible apply settlePart_wf
                 | with_reducible apply pieceDone_wf | with_reducible apply deliver_wf | with_reducible apply barCredit_wf
                 | with_reducible apply refundPiece_wf | with_reducible apply clearSettled_wf | (simp only [State.modCore_mem]) | dsimp only | split)

theorem execDescriptorStart_wf (c : CoreId) (ch : Fin 16) (s : State) (hm : s.mem.wf = true) : Keeps (execDescriptorStart c ch s) := by
  unfold execDescriptorStart
  repeat' (first | with_reducible assumption | with_reducible apply modChan_wf | with_reducible apply freeSettled_wf
                 | with_reducible apply keeps_live | dsimp only | split)

theorem failDesc_wf (s : State) (c n : Nat) (idx : BitVec 16) (st : Byte) (hm : s.mem.wf = true) : (failDesc s c n idx st).mem.wf = true := by
  unfold failDesc
  repeat' (first | with_reducible assumption | with_reducible apply failStep_wf | with_reducible apply modChan_wf
                 | with_reducible apply freeSettled_wf)

theorem spendCredit_wf (s : State) (c : Nat) (e : Credit) (u : Nat) (hm : s.mem.wf = true) : (spendCredit s c e u).mem.wf = true := by
  unfold spendCredit
  repeat' (first | with_reducible assumption | (simp only [State.modCore_mem]))

theorem startPiece_wf (s : State) (c n : Nat) (p : Posted) (hm : s.mem.wf = true) : (startPiece s c n p).mem.wf = true := by
  unfold startPiece
  repeat' (first | with_reducible assumption | with_reducible apply fetchOpnd_wf | with_reducible apply sendReq_wf
                 | with_reducible apply modChan_wf | with_reducible apply pieceDone_wf | with_reducible apply moverRead_wf
                 | with_reducible apply deliver_wf | with_reducible apply refundPiece_wf | dsimp only | split | (intro _)
                 | (refine fst_wf (by assumption) ?_))

theorem runPiece_wf (s : State) (c n : Nat) (p : Posted) (hm : s.mem.wf = true) : (runPiece s c n p).mem.wf = true := by
  unfold runPiece
  repeat' (first | with_reducible assumption | with_reducible apply freeSettled_wf | with_reducible apply startPiece_wf)

theorem execMoverPieceStart_wf (c : CoreId) (ch : Fin 16) (s : State) (hm : s.mem.wf = true) : Keeps (execMoverPieceStart c ch s) := by
  unfold execMoverPieceStart
  repeat' (first | with_reducible assumption | with_reducible apply qosStart_wf | with_reducible apply failDesc_wf
                 | with_reducible apply spendCredit_wf | with_reducible apply runPiece_wf | with_reducible apply keeps_live
                 | (simp only [State.modCore_mem]) | dsimp only | split)

theorem writeRecord_wf (s : State) (c n : Nat) (p : Posted) (st : Byte) (hm : s.mem.wf = true) : (writeRecord s c n p st).mem.wf = true := by
  unfold writeRecord
  repeat' (first | with_reducible assumption | with_reducible apply meshSignal_wf | with_reducible apply writeOpnd_wf
                 | with_reducible apply modChan_wf | dsimp only | split)

theorem probeDesc_wf (c n : Nat) (idx : BitVec 16) (s : State) (die : Nat) (hm : s.mem.wf = true) : (probeDesc c n idx s die).mem.wf = true := by
  unfold probeDesc
  repeat' (first | with_reducible assumption | with_reducible apply sendReq_wf | with_reducible apply modChan_wf
                 | with_reducible apply pieceDone_wf | dsimp only | split)

theorem execDescriptorComplete_wf (c : CoreId) (ch : Fin 16) (s : State) (hm : s.mem.wf = true) : Keeps (execDescriptorComplete c ch s) := by
  unfold execDescriptorComplete
  repeat' (first | with_reducible assumption | with_reducible apply modChan_wf | with_reducible apply writeRecord_wf
                 | with_reducible apply probeDesc_wf | with_reducible apply keeps_live | with_reducible apply foldl_wf
                 | with_reducible apply foldl_fst_wf | with_reducible apply foldl_snd_wf | dsimp only | split)

theorem execDescriptorHalt_wf (c : CoreId) (ch : Fin 16) (s : State) (hm : s.mem.wf = true) : Keeps (execDescriptorHalt c ch s) := by
  unfold execDescriptorHalt
  repeat' (first | with_reducible assumption | with_reducible apply writeRecord_wf | with_reducible apply keeps_live | dsimp only | split)

/-! ### Mast -/

theorem mapBookings_wf (f : Booking → Booking) (s : State) (hm : s.mem.wf = true) : (mapBookings f s).mem.wf = true := by
  unfold mapBookings
  repeat' (first | with_reducible assumption)

theorem acceptFrame_wf (s : State) (f : Frame) (hm : s.mem.wf = true) : (acceptFrame s f).mem.wf = true := by
  unfold acceptFrame
  repeat' (first | with_reducible assumption | with_reducible apply raiseUnit_wf | dsimp only | split)

theorem takeFrame_wf (s : State) (f : Frame) (hm : s.mem.wf = true) : (takeFrame s f).mem.wf = true := by
  unfold takeFrame
  repeat' (first | with_reducible assumption | with_reducible apply mapBookings_wf | with_reducible apply acceptFrame_wf | dsimp only | split)

theorem execMastFrame_wf (src : BitVec 6) (colour : BitVec 4) (slot : Slot) (s : State)
    (hm : s.mem.wf = true) : Keeps (execMastFrame src colour slot s) := by
  unfold execMastFrame
  repeat' (first | with_reducible assumption | with_reducible apply takeMesh_wf | with_reducible apply takeFrame_wf
                 | with_reducible apply keeps_live | dsimp only | split | (intro _))

theorem execHoldoverEntry_wf (s : State) (hm : s.mem.wf = true) : Keeps (execHoldoverEntry s) := by
  unfold execHoldoverEntry
  repeat' (first | with_reducible assumption | with_reducible apply keeps_live | dsimp only | split)

theorem execExtrapolatedStroke_wf (s : State) (hm : s.mem.wf = true) : Keeps (execExtrapolatedStroke s) := by
  unfold execExtrapolatedStroke
  repeat' (first | with_reducible assumption | with_reducible apply keeps_live | dsimp only | split)

theorem execMastLostEntry_wf (s : State) (hm : s.mem.wf = true) : Keeps (execMastLostEntry s) := by
  unfold execMastLostEntry
  repeat' (first | with_reducible assumption | with_reducible apply raiseUnit_wf | with_reducible apply keeps_live | dsimp only | split)

theorem scheduleSlices_wf (s : State) (n : Nat) (hm : s.mem.wf = true) : (scheduleSlices s n).mem.wf = true := by
  unfold scheduleSlices
  repeat' (first | with_reducible assumption | with_reducible apply foldl_wf | with_reducible apply foldl_fst_wf
                 | with_reducible apply foldl_snd_wf | dsimp only | split | (intro _) | (refine fst_wf (by assumption) ?_)
                 | (refine snd_wf (by assumption) ?_) | (exact wf_mk _ _ _ _ _ _ _ _ _ _ _ _ (by with_reducible assumption)))

theorem execRefreshSlice_wf (v : Fin 48) (upper : Bool) (s : State) (hm : s.mem.wf = true) : Keeps (execRefreshSlice v upper s) := by
  unfold execRefreshSlice
  repeat' (first | with_reducible assumption | with_reducible apply keeps_live | dsimp only | split | (intro _)
                 | (refine fst_wf (by assumption) ?_) | (refine snd_wf (by assumption) ?_)
                 | (exact wf_mk _ _ _ _ _ _ _ _ _ _ _ _ (by with_reducible assumption)))

/-! ### Sync -/

theorem dropSlot_wf (s : State) (hm : s.mem.wf = true) : (dropSlot s).mem.wf = true := by
  unfold dropSlot
  repeat' (first | with_reducible assumption)

theorem formIntr_wf (s : State) (colour v : Nat) (hm : s.mem.wf = true) : (formIntr s colour v).mem.wf = true := by
  unfold formIntr
  repeat' (first | with_reducible assumption | (simp only [State.setPart_mem]) | dsimp only | split)

theorem vecEvent_wf (colour : Nat) (s : State) (v : Nat) (hm : s.mem.wf = true) : (vecEvent colour s v).mem.wf = true := by
  unfold vecEvent
  repeat' (first | with_reducible assumption | with_reducible apply formIntr_wf | (simp only [State.setPart_mem]) | dsimp only | split)

theorem fwEvent_wf (s : State) (colour : Nat) (ev : Byte) (hm : s.mem.wf = true) : (fwEvent s colour ev).mem.wf = true := by
  unfold fwEvent
  repeat' (first | with_reducible assumption | with_reducible apply vecEvent_wf | with_reducible apply foldl_wf | with_reducible apply foldl_fst_wf
                 | with_reducible apply foldl_snd_wf | dsimp only | split)

theorem fwFault_wf (s : State) (r : LogRec) (hm : s.mem.wf = true) : (fwFault s r).mem.wf = true := by
  unfold fwFault
  repeat' (first | with_reducible assumption | with_reducible apply fwLog_wf | with_reducible apply fwEvent_wf)

theorem fwCharge_wf (s : State) (code : BitVec 16) (colour : BitVec 4) (detail : BitVec 16)
    (hm : s.mem.wf = true) : (fwCharge s code colour detail).mem.wf = true := by
  unfold fwCharge
  repeat' (first | with_reducible assumption | with_reducible apply fwFault_wf)

theorem setFlags_wf (s : State) (core : Nat) (mask : Word) (hm : s.mem.wf = true) : (setFlags s core mask).mem.wf = true := by
  unfold setFlags
  repeat' (first | with_reducible assumption | with_reducible apply vecEvent_wf | with_reducible apply foldl_wf | with_reducible apply foldl_fst_wf
                 | with_reducible apply foldl_snd_wf | (simp only [State.modCore_mem]) | dsimp only | split)

theorem execInterruptCoalesce_wf (s : State) (hm : s.mem.wf = true) : Keeps (execInterruptCoalesce s) := by
  unfold execInterruptCoalesce
  repeat' (first | with_reducible assumption | with_reducible apply formIntr_wf | with_reducible apply keeps_live | with_reducible apply foldl_wf
                 | with_reducible apply foldl_fst_wf | with_reducible apply foldl_snd_wf | dsimp only | split | (intro _))

theorem execInterruptSend_wf (s : State) (hm : s.mem.wf = true) : Keeps (execInterruptSend s) := by
  unfold execInterruptSend
  repeat' (first | with_reducible assumption | with_reducible apply sendSlot_wf | with_reducible apply fwCharge_wf
                 | with_reducible apply keeps_live | dsimp only | split)

theorem release_wf (s : State) (n : Nat) (failed : Bool) (hm : s.mem.wf = true) : (release s n failed).mem.wf = true := by
  unfold release
  repeat' (first | with_reducible assumption | with_reducible apply meshSlot_wf | with_reducible apply foldl_wf | with_reducible apply foldl_fst_wf
                 | with_reducible apply foldl_snd_wf | (simp only [State.setCounter_mem]) | dsimp only | split | (intro _))

theorem rootRelease_wf (s : State) (n : Nat) (hm : s.mem.wf = true) : (rootRelease s n).mem.wf = true := by
  unfold rootRelease
  repeat' (first | with_reducible assumption | with_reducible apply sendSlot_wf | with_reducible apply release_wf | with_reducible apply foldl_wf
                 | with_reducible apply foldl_fst_wf | with_reducible apply foldl_snd_wf | dsimp only | split | (intro _))

theorem execBarrierArrivalSlot_wf (c : CoreId) (colour : BitVec 4) (slot : Slot) (s : State)
    (hm : s.mem.wf = true) : Keeps (execBarrierArrivalSlot c colour slot s) := by
  unfold execBarrierArrivalSlot
  repeat' (first | with_reducible assumption | with_reducible apply raiseD_wf | with_reducible apply takeMesh_wf | with_reducible apply dropSlot_wf
                 | with_reducible apply keeps_next | with_reducible apply keeps_live | (simp only [State.setCounter_mem]) | dsimp only | split
                 | (intro _))

theorem execCounterLocalComplete_wf (n : Fin 128) (s : State) (hm : s.mem.wf = true) : Keeps (execCounterLocalComplete n s) := by
  unfold execCounterLocalComplete
  repeat' (first | with_reducible assumption | with_reducible apply sendSlot_wf | with_reducible apply release_wf
                 | with_reducible apply rootRelease_wf | with_reducible apply keeps_live | (simp only [State.setCounter_mem]) | dsimp only | split)

theorem execDieArrivalSlot_wf (src : BitVec 6) (colour : BitVec 4) (slot : Slot) (s : State)
    (hm : s.mem.wf = true) : Keeps (execDieArrivalSlot src colour slot s) := by
  unfold execDieArrivalSlot
  repeat' (first | with_reducible assumption | with_reducible apply raiseUnit_wf | with_reducible apply takeMesh_wf
                 | with_reducible apply dropSlot_wf | with_reducible apply rootRelease_wf | with_reducible apply keeps_live
                 | (simp only [State.setCounter_mem]) | dsimp only | split | (intro _))

theorem execHoistSlotMember_wf (src : BitVec 6) (colour : BitVec 4) (slot : Slot) (s : State)
    (hm : s.mem.wf = true) : Keeps (execHoistSlotMember src colour slot s) := by
  unfold execHoistSlotMember
  repeat' (first | with_reducible assumption | with_reducible apply takeMesh_wf | with_reducible apply dropSlot_wf
                 | with_reducible apply release_wf | with_reducible apply keeps_live | (simp only [State.setCounter_mem]) | dsimp only | split
                 | (intro _))

theorem stepRelease_wf (s : State) (c : Nat) (failed : Bool) (hm : s.mem.wf = true) : (stepRelease s c failed).mem.wf = true := by
  unfold stepRelease
  repeat' (first | with_reducible assumption | with_reducible apply raiseCore_wf | with_reducible apply fwEvent_wf
                 | (simp only [State.setCore_mem, State.modPart_mem]) | dsimp only | split)

theorem execHoistReceive_wf (c : CoreId) (slot : Slot) (s : State) (hm : s.mem.wf = true) : Keeps (execHoistReceive c slot s) := by
  unfold execHoistReceive
  repeat' (first | with_reducible assumption | with_reducible apply takeMesh_wf | with_reducible apply dropSlot_wf
                 | with_reducible apply stepRelease_wf | with_reducible apply keeps_live | (simp only [State.setCore_mem]) | dsimp only | split
                 | (intro _))

theorem reinitCounter_wf (s : State) (n : Nat) (hm : s.mem.wf = true) : (reinitCounter s n).mem.wf = true := by
  unfold reinitCounter
  repeat' (first | with_reducible assumption | with_reducible apply foldl_wf | with_reducible apply foldl_fst_wf
                 | with_reducible apply foldl_snd_wf | (simp only [State.modCore_mem, State.setCounter_mem]) | dsimp only | split | (intro _))

theorem execSignalSlotReceive_wf (src : BitVec 6) (colour : BitVec 4) (slot : Slot) (s : State)
    (hm : s.mem.wf = true) : Keeps (execSignalSlotReceive src colour slot s) := by
  unfold execSignalSlotReceive
  repeat' (first | with_reducible assumption | with_reducible apply raiseRec_wf | with_reducible apply takeMesh_wf
                 | with_reducible apply dropSlot_wf | with_reducible apply setFlags_wf | with_reducible apply keeps_live | dsimp only | split
                 | (intro _))

/-! ### Window -/

theorem putWindow_wf (s : State) (n : Nat) (w : Window) (hm : s.mem.wf = true) : (putWindow s n w).mem.wf = true := by
  unfold putWindow
  repeat' (first | with_reducible assumption | with_reducible apply memWrite_wf | with_reducible apply raiseCore_wf
                 | (simp only [State.setWindow_mem]) | dsimp only | split)

theorem execMvrel_wf (c : CoreId) (f : Fields) (s : State) (hm : s.mem.wf = true) : Keeps (execMvrel c f s) := by
  unfold execMvrel
  apply keeps_live hm
  apply issue_wf _ _ _ _ _ _ hm
  intro s hs
  apply mvIssue_wf _ _ _ _ _ hs
  intro k t hk ht
  repeat' (first | with_reducible assumption | with_reducible apply hk | with_reducible apply raiseP_wf | with_reducible apply refuse_wf
                 | with_reducible apply heldData_wf | with_reducible apply putWindow_wf | dsimp only | split)

theorem execWindowGrant_wf (w : BitVec 8) (s : State) (hm : s.mem.wf = true) : Keeps (execWindowGrant w s) := by
  unfold execWindowGrant
  repeat' (first | with_reducible assumption | with_reducible apply sendSlot_wf | with_reducible apply keeps_live
                 | (simp only [State.setWindow_mem]) | dsimp only | split)

theorem execWindowGrantSlot_wf (src : BitVec 6) (colour : BitVec 4) (slot : Slot) (s : State)
    (hm : s.mem.wf = true) : Keeps (execWindowGrantSlot src colour slot s) := by
  unfold execWindowGrantSlot
  repeat' (first | with_reducible assumption | with_reducible apply takeMesh_wf | with_reducible apply dropSlot_wf
                 | with_reducible apply keeps_live | (simp only [State.setCore_mem]) | dsimp only | split | (intro _))

theorem execWindowReleaseSlot_wf (src : BitVec 6) (colour : BitVec 4) (slot : Slot) (s : State)
    (hm : s.mem.wf = true) : Keeps (execWindowReleaseSlot src colour slot s) := by
  unfold execWindowReleaseSlot
  repeat' (first | with_reducible assumption | with_reducible apply takeMesh_wf | with_reducible apply modSender_wf
                 | with_reducible apply dropSlot_wf | with_reducible apply keeps_live | (simp only [State.setWindow_mem]) | dsimp only | split
                 | (intro _))

theorem fillUnits_wf (s : State) (win : BitVec 8) (die core : BitVec 6) (u : Nat)
    (hm : s.mem.wf = true) : (fillUnits s win die core u).mem.wf = true := by
  unfold fillUnits
  repeat' (first | with_reducible assumption | with_reducible apply modSender_wf | with_reducible apply putWindow_wf | dsimp only | split)

theorem execPiecePerformed_wf (s : State) (hm : s.mem.wf = true) : Keeps (execPiecePerformed s) := by
  unfold execPiecePerformed
  repeat' (first | with_reducible assumption | with_reducible apply fillUnits_wf | with_reducible apply keeps_live | dsimp only | split)

theorem releaseSlots_wf (colour : BitVec 4) (c : Nat) (e : Credit) (n u : Nat) (s : State) (hm : s.mem.wf = true) :
    (releaseSlots colour c e n u s).mem.wf = true := by
  induction n generalizing u s with
  | zero => exact hm
  | succ n ih =>
    unfold releaseSlots
    split
    · exact hm
    · exact ih _ _ (sendSlot_wf _ _ _ _ _ _ hm)

theorem returnCredit_wf (c u : Nat) (s : State) (e : Credit) (hm : s.mem.wf = true) : (returnCredit c u s e).mem.wf = true := by
  unfold returnCredit
  repeat' (first | with_reducible assumption | with_reducible apply releaseSlots_wf | (simp only [State.modCore_mem]))

theorem clearChans_wf (s : State) (c : Nat) (hm : s.mem.wf = true) : (clearChans s c).mem.wf = true := by
  unfold clearChans
  repeat' (first | with_reducible assumption | (simp only [State.modCore_mem]))

theorem takeBack_wf (c : Nat) (s : State) (e : Credit) (hm : s.mem.wf = true) : (takeBack c s e).mem.wf = true := by
  unfold takeBack
  repeat' (first | with_reducible assumption | (simp only [State.modCore_mem]))

theorem cutMover_wf (s : State) (c : Nat) (hm : s.mem.wf = true) : (cutMover s c).mem.wf = true := by
  unfold cutMover
  repeat' (first | with_reducible assumption | with_reducible apply putWindow_wf | with_reducible apply returnCredit_wf
                 | with_reducible apply clearChans_wf | with_reducible apply foldl_wf | with_reducible apply foldl_fst_wf
                 | with_reducible apply foldl_snd_wf | dsimp only | split | (intro _))

/-! ### Reset -/

theorem touch_wf (s : State) (l : List (Nat × Nat)) (hm : s.mem.wf = true) : (touch s l).mem.wf = true := by
  unfold touch
  repeat' (first | with_reducible assumption)

theorem touchCmd_wf (s : State) (mb : Nat) (i st : BitVec 16) (hm : s.mem.wf = true) : (touchCmd s mb i st).mem.wf = true := by
  unfold touchCmd
  repeat' (first | with_reducible assumption | with_reducible apply touch_wf | dsimp only | split)

theorem answer_wf (s : State) (mb : Nat) (i st : BitVec 16) (payload : List Byte)
    (hm : s.mem.wf = true) : (answer s mb i st payload).mem.wf = true := by
  unfold answer
  repeat' (first | with_reducible assumption | with_reducible apply touchCmd_wf | (simp only [State.modMailbox_mem]))

theorem disarmDie_wf (s : State) (sel : Nat → Booking → Bool) (hm : s.mem.wf = true) : (disarmDie s sel).mem.wf = true := by
  unfold disarmDie
  repeat' (first | with_reducible assumption)

theorem resetEngine_wf (s : State) (c e : Nat) (hm : s.mem.wf = true) : (resetEngine s c e).mem.wf = true := by
  unfold resetEngine
  repeat' (first | with_reducible assumption | with_reducible apply failStep_wf | with_reducible apply cutMover_wf
                 | (simp only [State.modCore_mem]) | dsimp only | split)

theorem coreReset_wf (s : State) (c : Nat) (hm : s.mem.wf = true) : (coreReset s c).mem.wf = true := by
  unfold coreReset
  repeat' (first | with_reducible assumption | with_reducible apply cutMover_wf | (simp only [State.modCore_mem]))

theorem replayCore_wf (s : State) (c : Nat) (hm : s.mem.wf = true) : (replayCore s c).mem.wf = true := by
  unfold replayCore
  repeat' (first | with_reducible assumption | with_reducible apply clearChans_wf | with_reducible apply takeBack_wf
                 | with_reducible apply cutMover_wf | with_reducible apply foldl_wf | with_reducible apply foldl_fst_wf
                 | with_reducible apply foldl_snd_wf | (simp only [State.modCore_mem]) | dsimp only | split)

theorem ctrlRefused_wf (s : State) (c : Nat) (hm : s.mem.wf = true) : (ctrlRefused s c).mem.wf = true := by
  unfold ctrlRefused
  repeat' (first | with_reducible assumption | with_reducible apply fwFault_wf)

theorem execCuRun_wf (c : CoreId) (s : State) (hm : s.mem.wf = true) : Keeps (execCuRun c s) := by
  unfold execCuRun
  repeat' (first | with_reducible assumption | with_reducible apply ctrlRefused_wf | with_reducible apply keeps_live
                 | (simp only [State.setCore_mem]) | dsimp only | split)

theorem execCuStop_wf (c : CoreId) (s : State) (hm : s.mem.wf = true) : Keeps (execCuStop c s) := by
  unfold execCuStop
  repeat' (first | with_reducible assumption | with_reducible apply ctrlRefused_wf | with_reducible apply keeps_live
                 | (simp only [State.setCore_mem]) | dsimp only | split)

theorem execCuCoreReset_wf (c : CoreId) (s : State) (hm : s.mem.wf = true) : Keeps (execCuCoreReset c s) := by
  unfold execCuCoreReset
  repeat' (first | with_reducible assumption | with_reducible apply coreReset_wf | with_reducible apply keeps_live | dsimp only | split)

theorem execCuEngineReset_wf (c : CoreId) (e : BitVec 3) (s : State) (hm : s.mem.wf = true) : Keeps (execCuEngineReset c e s) := by
  unfold execCuEngineReset
  repeat' (first | with_reducible assumption | with_reducible apply resetEngine_wf | with_reducible apply ctrlRefused_wf
                 | with_reducible apply keeps_live | dsimp only | split)

theorem execCuReplay_wf (c : CoreId) (s : State) (hm : s.mem.wf = true) : Keeps (execCuReplay c s) := by
  unfold execCuReplay
  repeat' (first | with_reducible assumption | with_reducible apply replayCore_wf | with_reducible apply ctrlRefused_wf
                 | with_reducible apply keeps_live | dsimp only | split)

theorem rebuildRegions_wf (s : State) (col : Nat) (hm : s.mem.wf = true) : (rebuildRegions s col).mem.wf = true := by
  unfold rebuildRegions
  repeat' (first | with_reducible assumption)

theorem uninstallWindows_wf (s : State) (col : Nat) (hm : s.mem.wf = true) : (uninstallWindows s col).mem.wf = true := by
  unfold uninstallWindows
  repeat' (first | with_reducible assumption)

theorem invalidateCounters_wf (s : State) (col : Nat) (hm : s.mem.wf = true) : (invalidateCounters s col).mem.wf = true := by
  unfold invalidateCounters
  repeat' (first | with_reducible assumption)

theorem dropRepair_wf (s : State) (col : Nat) (hm : s.mem.wf = true) : (dropRepair s col).mem.wf = true := by
  unfold dropRepair
  repeat' (first | with_reducible assumption | with_reducible apply dropTransfers_wf | (simp only [State.modPart_mem]))

theorem beginReset_wf (s : State) (col : Nat) (reason : Byte) (hm : s.mem.wf = true) : (beginReset s col reason).mem.wf = true := by
  unfold beginReset
  repeat' (first | with_reducible assumption | with_reducible apply clearSettled_wf | with_reducible apply cutMover_wf
                 | with_reducible apply disarmDie_wf | with_reducible apply uninstallWindows_wf | with_reducible apply invalidateCounters_wf
                 | with_reducible apply dropRepair_wf | with_reducible apply foldl_wf | with_reducible apply foldl_fst_wf
                 | with_reducible apply foldl_snd_wf | (simp only [State.modCore_mem, State.modPart_mem]) | dsimp only | split | (intro _))

theorem unstage_wf (s : State) (mb : Nat) (c : Cmd) (hm : s.mem.wf = true) : (unstage s mb c).mem.wf = true := by
  unfold unstage
  repeat' (first | with_reducible assumption | (simp only [State.modPart_mem]) | dsimp only | split)

theorem cutCommand_wf (col : Nat) (s : State) (c : Cmd) (hm : s.mem.wf = true) : (cutCommand col s c).mem.wf = true := by
  unfold cutCommand
  repeat' (first | with_reducible assumption | with_reducible apply dropTransfers_wf | with_reducible apply answer_wf
                 | with_reducible apply unstage_wf | (simp only [State.modMailbox_mem]))

theorem cutCommands_wf (s : State) (col : Nat) (hm : s.mem.wf = true) : (cutCommands s col).mem.wf = true := by
  unfold cutCommands
  repeat' (first | with_reducible assumption | with_reducible apply cutCommand_wf | with_reducible apply foldl_wf
                 | with_reducible apply foldl_fst_wf | with_reducible apply foldl_snd_wf | (simp only [State.modMailbox_mem]))

/-! ### Booking -/

theorem writeDieBooking_wf (s : State) (i : Nat) (x : BitVec 128) (hm : s.mem.wf = true) : (writeDieBooking s i x).mem.wf = true := by
  unfold writeDieBooking
  repeat' (first | with_reducible assumption)

theorem writeCoreBooking_wf (s : State) (c i : Nat) (x : BitVec 128) (hm : s.mem.wf = true) : (writeCoreBooking s c i x).mem.wf = true := by
  unfold writeCoreBooking
  repeat' (first | with_reducible assumption | (simp only [State.modCore_mem]))

theorem bookRefresh_wf (s : State) (n : Nat) (hm : s.mem.wf = true) : (bookRefresh s n).mem.wf = true := by
  unfold bookRefresh
  repeat' (first | with_reducible assumption | with_reducible apply writeDieBooking_wf | dsimp only | split)

theorem execPeriodChangeEffective_wf (s : State) (hm : s.mem.wf = true) : Keeps (execPeriodChangeEffective s) := by
  unfold execPeriodChangeEffective
  repeat' (first | with_reducible assumption | with_reducible apply bookRefresh_wf | with_reducible apply keeps_next
                 | with_reducible apply keeps_live | dsimp only | split)

theorem armOwn_wf (s : State) (hm : s.mem.wf = true) : (armOwn s).mem.wf = true := by
  unfold armOwn
  repeat' (first | with_reducible assumption | with_reducible apply writeDieBooking_wf | with_reducible apply foldl_wf
                 | with_reducible apply foldl_fst_wf | with_reducible apply foldl_snd_wf | dsimp only | split | (intro _))

theorem armWatchdog_wf (s : State) (col stepTime : Nat) (hm : s.mem.wf = true) : (armWatchdog s col stepTime).mem.wf = true := by
  unfold armWatchdog
  repeat' (first | with_reducible assumption | with_reducible apply writeDieBooking_wf)

theorem armRefill_wf (s : State) (hm : s.mem.wf = true) : (armRefill s).mem.wf = true := by
  unfold armRefill
  repeat' (first | with_reducible assumption | with_reducible apply writeDieBooking_wf | dsimp only | split)

end Sys2Proof.Machine
end

