-- ==== Sys2Proof/Laws/CanonicalLink.lean ====
section
/-! SUPPORT. The memory keeps its canonical form under jobs, membership, repair, flits, links, telemetry and carried messages. -/

namespace Sys2Proof.Machine

/-! ### Jobs -/

theorem fwMessage_wf (s : State) (die : BitVec 6) (mtype : Byte) (colour : BitVec 4) (seqno : BitVec 16) (job : BitVec 32) (body : List Byte)
    (hm : s.mem.wf = true) : (fwMessage s die mtype colour seqno job body).mem.wf = true := by
  unfold fwMessage
  repeat' (first | with_reducible assumption | with_reducible apply send_wf)

theorem fwAsk_wf (s : State) (who : Option (Nat × BitVec 16)) (die : BitVec 6) (mtype : Byte) (colour : BitVec 4) (job : BitVec 32) (body : List Byte)
    (hm : s.mem.wf = true) : (fwAsk s who die mtype colour job body).mem.wf = true := by
  unfold fwAsk
  repeat' (first | with_reducible assumption | with_reducible apply fwMessage_wf)

theorem fwRequest_wf (s : State) (die : BitVec 6) (mtype : Byte) (colour : BitVec 4) (job : BitVec 32) (body : List Byte)
    (hm : s.mem.wf = true) : (fwRequest s die mtype colour job body).mem.wf = true := by
  unfold fwRequest
  repeat' (first | with_reducible assumption | with_reducible apply fwAsk_wf)

theorem jobEventAll_wf (s : State) (col : Nat) (ev reason : Byte) (code : BitVec 16) (step : BitVec 32)
    (hm : s.mem.wf = true) : (jobEventAll s col ev reason code step).mem.wf = true := by
  unfold jobEventAll
  repeat' (first | with_reducible assumption | with_reducible apply fwRequest_wf | with_reducible apply foldl_wf
                 | with_reducible apply foldl_fst_wf | with_reducible apply foldl_snd_wf | dsimp only | split | (intro _))

theorem writeDirectory_wf (s : State) (g : Image) (hm : s.mem.wf = true) : (writeDirectory s g).mem.wf = true := by
  unfold writeDirectory
  repeat' (first | with_reducible assumption | with_reducible apply memWrite_wf | dsimp only | split)

theorem launchCore_wf (s : State) (c : Nat) (hm : s.mem.wf = true) : (launchCore s c).mem.wf = true := by
  unfold launchCore
  repeat' (first | with_reducible assumption | with_reducible apply zeroRange_wf | with_reducible apply coreReset_wf
                 | (simp only [State.modCore_mem]))

theorem installWindow_wf (col : Nat) (s : State) (w : DeclWindow) (hm : s.mem.wf = true) : (installWindow col s w).mem.wf = true := by
  unfold installWindow
  repeat' (first | with_reducible assumption | with_reducible apply putWindow_wf)

theorem installCredit_wf (s : State) (e : DeclCredit) (hm : s.mem.wf = true) : (installCredit s e).mem.wf = true := by
  unfold installCredit
  repeat' (first | with_reducible assumption | (simp only [State.modCore_mem]))

theorem installCounter_wf (col : Nat) (s : State) (d : DeclCounter) (hm : s.mem.wf = true) : (installCounter col s d).mem.wf = true := by
  unfold installCounter
  repeat' (first | with_reducible assumption | with_reducible apply reinitCounter_wf | (simp only [State.setCounter_mem]))

theorem installBooking_wf (col : Nat) (s : State) (d : DeclBooking) (hm : s.mem.wf = true) : (installBooking col s d).mem.wf = true := by
  unfold installBooking
  repeat' (first | with_reducible assumption | with_reducible apply writeDieBooking_wf | with_reducible apply writeCoreBooking_wf | dsimp only
                 | split)

theorem startCore_wf (s : State) (e : CoreId × Dla) (hm : s.mem.wf = true) : (startCore s e).mem.wf = true := by
  unfold startCore
  repeat' (first | with_reducible assumption | (simp only [State.modCore_mem]))

theorem launchSteps_wf (s : State) (col : Nat) (g : Image) (j : Job) (hm : s.mem.wf = true) : (launchSteps s col g j).mem.wf = true := by
  unfold launchSteps
  repeat' (first | with_reducible assumption | with_reducible apply memWrite_wf | with_reducible apply zeroRange_wf
                 | with_reducible apply fwEvent_wf | with_reducible apply rebuildRegions_wf | with_reducible apply uninstallWindows_wf
                 | with_reducible apply armWatchdog_wf | with_reducible apply writeDirectory_wf | with_reducible apply launchCore_wf
                 | with_reducible apply installWindow_wf | with_reducible apply installCredit_wf | with_reducible apply installCounter_wf
                 | with_reducible apply installBooking_wf | with_reducible apply startCore_wf | with_reducible apply foldl_wf
                 | with_reducible apply foldl_fst_wf | with_reducible apply foldl_snd_wf | (simp only [State.modPart_mem]) | dsimp only | split
                 | (intro _))

theorem returnHeld_wf (s : State) (c : Nat) (hm : s.mem.wf = true) : (returnHeld s c).mem.wf = true := by
  unfold returnHeld
  repeat' (first | with_reducible assumption | with_reducible apply returnCredit_wf | with_reducible apply foldl_wf)

theorem takeRecords_wf (s : State) (col : Nat) (hm : s.mem.wf = true) : (takeRecords s col).mem.wf = true := by
  unfold takeRecords
  repeat' (first | with_reducible assumption)

theorem endJob_wf (s : State) (col : Nat) (st : JobState) (reason : Byte) (hm : s.mem.wf = true) : (endJob s col st reason).mem.wf = true := by
  unfold endJob
  repeat' (first | with_reducible assumption | with_reducible apply fwEvent_wf | with_reducible apply reinitCounter_wf
                 | with_reducible apply disarmDie_wf | with_reducible apply rebuildRegions_wf | with_reducible apply dropRepair_wf
                 | with_reducible apply returnHeld_wf | with_reducible apply takeRecords_wf | with_reducible apply foldl_wf
                 | with_reducible apply foldl_fst_wf | with_reducible apply foldl_snd_wf | (simp only [State.modCore_mem, State.modPart_mem])
                 | dsimp only | split | (intro _))

theorem abortJob_wf (s : State) (col : Nat) (reason : Byte) (restart tell : Bool)
    (hm : s.mem.wf = true) : (abortJob s col reason restart tell).mem.wf = true := by
  unfold abortJob
  repeat' (first | with_reducible assumption | with_reducible apply beginReset_wf | (simp only [State.modPart_mem]) | dsimp only | split)

theorem withdraw_wf (s : State) (col : Nat) (hm : s.mem.wf = true) : (withdraw s col).mem.wf = true := by
  unfold withdraw
  repeat' (first | with_reducible assumption | (simp only [State.modPart_mem]))

theorem resetExtras_wf (s : State) (col : Nat) (hm : s.mem.wf = true) : (resetExtras s col).mem.wf = true := by
  unfold resetExtras
  repeat' (first | with_reducible assumption | (simp only [State.modPart_mem]))

theorem afterAbort_wf (s : State) (col : Nat) (restart tell : Bool) (reason : Byte)
    (hm : s.mem.wf = true) : (afterAbort s col restart tell reason).mem.wf = true := by
  unfold afterAbort
  repeat' (first | with_reducible assumption | with_reducible apply jobEventAll_wf | with_reducible apply launchSteps_wf
                 | with_reducible apply endJob_wf | dsimp only | split)

theorem finishReset_wf (s : State) (col : Nat) (hm : s.mem.wf = true) : (finishReset s col).mem.wf = true := by
  unfold finishReset
  repeat' (first | with_reducible assumption | with_reducible apply fwEvent_wf | with_reducible apply answer_wf
                 | with_reducible apply rebuildRegions_wf | with_reducible apply withdraw_wf | with_reducible apply resetExtras_wf
                 | with_reducible apply afterAbort_wf | with_reducible apply foldl_wf | with_reducible apply foldl_fst_wf
                 | with_reducible apply foldl_snd_wf | (simp only [State.modCore_mem, State.modPart_mem, State.modMailbox_mem]) | dsimp only
                 | split | (intro _))

theorem watchdogJob_wf (s : State) (col : Nat) (step : BitVec 32) (here : Bool)
    (hm : s.mem.wf = true) : (watchdogJob s col step here).mem.wf = true := by
  unfold watchdogJob
  repeat' (first | with_reducible assumption | with_reducible apply fwFault_wf | with_reducible apply jobEventAll_wf
                 | (simp only [State.modPart_mem]) | dsimp only | split)

theorem countEnd_wf (s : State) (col : Nat) (d : BitVec 6) (hm : s.mem.wf = true) : (countEnd s col d).mem.wf = true := by
  unfold countEnd
  repeat' (first | with_reducible assumption | with_reducible apply endJob_wf | (simp only [State.modPart_mem]) | dsimp only | split)

theorem takeJobEvent_wf (s : State) (col : Nat) (job : BitVec 32) (src : BitVec 6) (ev reason : Byte) (code : BitVec 16) (step : BitVec 32)
    (hm : s.mem.wf = true) : (takeJobEvent s col job src ev reason code step).mem.wf = true := by
  unfold takeJobEvent
  repeat' (first | with_reducible assumption | with_reducible apply abortJob_wf | with_reducible apply watchdogJob_wf
                 | with_reducible apply countEnd_wf | (simp only [State.modPart_mem]) | dsimp only | split)

theorem execHaltSettle_wf (c : CoreId) (s : State) (hm : s.mem.wf = true) : Keeps (execHaltSettle c s) := by
  unfold execHaltSettle
  repeat' (first | with_reducible assumption | with_reducible apply jobEventAll_wf | with_reducible apply countEnd_wf
                 | with_reducible apply keeps_live | (simp only [State.setCore_mem]) | dsimp only | split)

/-! ### Member -/

theorem freeBuffers_wf (s : State) (p : PortId) (path : Path) (vc n : Nat) (hm : s.mem.wf = true) : (freeBuffers s p path vc n).mem.wf = true := by
  unfold freeBuffers
  repeat' (first | with_reducible assumption | (simp only [State.modPort_mem]))

theorem takeArrived_wf (s : State) (sel : Arrived → Bool) (hm : s.mem.wf = true) : (takeArrived s sel).mem.wf = true := by
  unfold takeArrived
  repeat' (first | with_reducible assumption | with_reducible apply freeBuffers_wf | dsimp only | split)

theorem takeMsg_wf (s : State) (m : Msg) (hm : s.mem.wf = true) : (takeMsg s m).mem.wf = true := by
  unfold takeMsg
  repeat' (first | with_reducible assumption | with_reducible apply takeArrived_wf)

theorem takePennant_wf (s : State) (pn : Pennant) (sel : Arrived → Bool) (hm : s.mem.wf = true) : (takePennant s pn sel).mem.wf = true := by
  unfold takePennant
  repeat' (first | with_reducible assumption | with_reducible apply takeArrived_wf)

theorem pennantConflict_wf (s : State) (p : PortId) (hm : s.mem.wf = true) : (pennantConflict s p).mem.wf = true := by
  unfold pennantConflict
  repeat' (first | with_reducible assumption | with_reducible apply raiseUnit_wf)

theorem routed_wf (s : State) (dst : BitVec 6) (pn : Pennant) (hm : s.mem.wf = true) : (routed s dst pn).mem.wf = true := by
  unfold routed
  repeat' (first | with_reducible assumption | with_reducible apply send_wf | dsimp only | split)

theorem sendPennant_wf (s : State) (p : PortId) (triggered : Bool) (hm : s.mem.wf = true) : (sendPennant s p triggered).mem.wf = true := by
  unfold sendPennant
  repeat' (first | with_reducible assumption | with_reducible apply sendOn_wf | (simp only [State.setPort_mem]))

theorem triggerAll_wf (s : State) (hm : s.mem.wf = true) : (triggerAll s).mem.wf = true := by
  unfold triggerAll
  repeat' (first | with_reducible assumption | with_reducible apply foldl_wf | with_reducible apply foldl_fst_wf
                 | with_reducible apply foldl_snd_wf | (simp only [State.modPort_mem]) | dsimp only | split | (intro _))

theorem takeReport_wf (s : State) (mask : Word) (hm : s.mem.wf = true) : (takeReport s mask).mem.wf = true := by
  unfold takeReport
  repeat' (first | with_reducible assumption)

theorem noteChange_wf (s : State) (d : Option Nat) (hm : s.mem.wf = true) : (noteChange s d).mem.wf = true := by
  unfold noteChange
  repeat' (first | with_reducible assumption | with_reducible apply triggerAll_wf | with_reducible apply takeReport_wf | dsimp only | split)

theorem execPennantPeriodicSend_wf (p : PortId) (s : State) (hm : s.mem.wf = true) : Keeps (execPennantPeriodicSend p s) := by
  unfold execPennantPeriodicSend
  repeat' (first | with_reducible assumption | with_reducible apply sendPennant_wf | with_reducible apply keeps_awake | dsimp only | split)

theorem execPennantTriggeredSend_wf (p : PortId) (s : State) (hm : s.mem.wf = true) : Keeps (execPennantTriggeredSend p s) := by
  unfold execPennantTriggeredSend
  repeat' (first | with_reducible assumption | with_reducible apply routed_wf | with_reducible apply sendPennant_wf
                 | with_reducible apply keeps_awake | (simp only [State.modPort_mem]) | dsimp only | split)

theorem noteLeader_wf (before : Word) (s : State) (hm : s.mem.wf = true) : (noteLeader before s).mem.wf = true := by
  unfold noteLeader
  repeat' (first | with_reducible assumption | dsimp only | split)

theorem putDie_wf (s : State) (d : Nat) (e : DieEntry) (hm : s.mem.wf = true) : (putDie s d e).mem.wf = true := by
  unfold putDie
  repeat' (first | with_reducible assumption | with_reducible apply triggerAll_wf | with_reducible apply noteChange_wf
                 | with_reducible apply noteLeader_wf | (simp only [State.setDie_mem]) | dsimp only | split)

theorem yieldAssigner_wf (s : State) (hm : s.mem.wf = true) : (yieldAssigner s).mem.wf = true := by
  unfold yieldAssigner
  repeat' (first | with_reducible assumption | dsimp only | split)

theorem forfeit_wf (s : State) (d : BitVec 6) (hm : s.mem.wf = true) : (forfeit s d).mem.wf = true := by
  unfold forfeit
  repeat' (first | with_reducible assumption | with_reducible apply failDesc_wf | with_reducible apply foldl_wf | with_reducible apply foldl_fst_wf
                 | with_reducible apply foldl_snd_wf | (simp only [State.modCore_mem]) | dsimp only | split | (intro _))

theorem toAbsent_wf (s : State) (d : Nat) (hm : s.mem.wf = true) : (toAbsent s d).mem.wf = true := by
  unfold toAbsent
  repeat' (first | with_reducible assumption | with_reducible apply putDie_wf | with_reducible apply forfeit_wf | dsimp only | split)

theorem sendAck_wf (s : State) (src : BitVec 6) (pn : Pennant) (hm : s.mem.wf = true) : (sendAck s src pn).mem.wf = true := by
  unfold sendAck
  repeat' (first | with_reducible assumption | with_reducible apply routed_wf)

theorem answerHeld_wf (s : State) (d : Nat) (hm : s.mem.wf = true) : (answerHeld s d).mem.wf = true := by
  unfold answerHeld
  repeat' (first | with_reducible assumption | with_reducible apply sendAck_wf | with_reducible apply foldl_wf | with_reducible apply foldl_fst_wf
                 | with_reducible apply foldl_snd_wf | dsimp only | split | (intro _))

theorem startHandshake_wf (s : State) (d : Nat) (hm : s.mem.wf = true) : (startHandshake s d).mem.wf = true := by
  unfold startHandshake
  repeat' (first | with_reducible assumption | with_reducible apply routed_wf | dsimp only | split)

theorem newDirect_wf (s : State) (p : PortId) (d : Nat) (pn : Pennant) (hm : s.mem.wf = true) : (newDirect s p d pn).mem.wf = true := by
  unfold newDirect
  repeat' (first | with_reducible assumption | with_reducible apply putDie_wf | with_reducible apply answerHeld_wf)

theorem countDirect_wf (s : State) (p : PortId) (d : Nat) (pn : Pennant) (hm : s.mem.wf = true) : (countDirect s p d pn).mem.wf = true := by
  unfold countDirect
  repeat' (first | with_reducible assumption | with_reducible apply raiseUnit_wf | with_reducible apply putDie_wf
                 | with_reducible apply startHandshake_wf | dsimp only | split)

theorem claimHeld_wf (s : State) (p : PortId) (d : Nat) (f : State → State)
    (hm : s.mem.wf = true) (hf : ∀ x0, x0.mem.wf = true → (f x0).mem.wf = true) : (claimHeld s p d f).mem.wf = true := by
  unfold claimHeld
  repeat' (first | with_reducible assumption | with_reducible apply pennantConflict_wf | with_reducible apply toAbsent_wf | apply hf | dsimp only
                 | split)

theorem namedId_wf (s : State) (p : PortId) (pn : Pennant) (hm : s.mem.wf = true) : (namedId s p pn).mem.wf = true := by
  unfold namedId
  repeat' (first | with_reducible assumption | with_reducible apply pennantConflict_wf | with_reducible apply putDie_wf
                 | with_reducible apply yieldAssigner_wf | with_reducible apply newDirect_wf | with_reducible apply countDirect_wf
                 | with_reducible apply claimHeld_wf | dsimp only | split | (intro _))

theorem routedClaim_wf (s : State) (p : PortId) (pn : Pennant) (t : State) (e : routedClaim s p pn = some t)
    (hm : s.mem.wf = true) : t.mem.wf = true := by
  revert e
  unfold routedClaim
  dsimp only
  split
  · intro e; cases e
  · split
    · split
      · intro e; cases e
      · intro e; cases e; exact pennantConflict_wf _ _ hm
    · split
      · intro e; cases e
        apply claimHeld_wf _ _ _ _ hm
        intro s hs
        exact answerHeld_wf _ _ (putDie_wf _ _ _ hs)
      · intro e; cases e
theorem routedClaim_getD_wf (s : State) (p : PortId) (pn : Pennant) (d : State) (hm : s.mem.wf = true) (hd : d.mem.wf = true) :
    ((routedClaim s p pn).getD d).mem.wf = true := getD_wf (fun t ht => routedClaim_wf _ _ _ t ht hm) hd

theorem routeSays_wf (p : PortId) (s : State) (d : Nat) (hm : s.mem.wf = true) : (routeSays p s d).mem.wf = true := by
  unfold routeSays
  repeat' (first | with_reducible assumption | with_reducible apply putDie_wf | with_reducible apply answerHeld_wf
                 | with_reducible apply startHandshake_wf | dsimp only | split)

theorem dropUnreached_wf (s : State) (hm : s.mem.wf = true) : (dropUnreached s).mem.wf = true := by
  unfold dropUnreached
  repeat' (first | with_reducible assumption | with_reducible apply toAbsent_wf | with_reducible apply foldl_wf | with_reducible apply foldl_fst_wf
                 | with_reducible apply foldl_snd_wf | dsimp only | split | (intro _))

theorem takeRoute_wf (s : State) (d : Nat) (r : PortId × Nat) (hm : s.mem.wf = true) : (takeRoute s d r).mem.wf = true := by
  unfold takeRoute
  repeat' (first | with_reducible assumption | with_reducible apply putDie_wf)

theorem execRouteRecompute_wf (s : State) (hm : s.mem.wf = true) : Keeps (execRouteRecompute s) := by
  unfold execRouteRecompute
  repeat' (first | with_reducible assumption | with_reducible apply dropUnreached_wf | with_reducible apply takeRoute_wf
                 | with_reducible apply keeps_awake | with_reducible apply foldl_wf | with_reducible apply foldl_fst_wf
                 | with_reducible apply foldl_snd_wf | dsimp only | split | (intro _))

theorem refreshRoutes_wf (s : State) (hm : s.mem.wf = true) : (refreshRoutes s).mem.wf = true := by
  unfold refreshRoutes
  repeat' (first | with_reducible assumption | with_reducible apply takeRoute_wf | with_reducible apply foldl_wf
                 | with_reducible apply foldl_fst_wf | with_reducible apply foldl_snd_wf | dsimp only | split | (intro _))

theorem jobAdopts_wf (e : BitVec 32) (mask : Option Word) (s : State) (col : Nat)
    (hm : s.mem.wf = true) : (jobAdopts e mask s col).mem.wf = true := by
  unfold jobAdopts
  repeat' (first | with_reducible assumption | with_reducible apply abortJob_wf | (simp only [State.modPart_mem]) | dsimp only | split)

theorem adoptEpoch_wf (s : State) (e : BitVec 32) (mask : Option Word) (hm : s.mem.wf = true) : (adoptEpoch s e mask).mem.wf = true := by
  unfold adoptEpoch
  repeat' (first | with_reducible assumption | with_reducible apply triggerAll_wf | with_reducible apply jobAdopts_wf
                 | with_reducible apply foldl_wf | with_reducible apply foldl_fst_wf | with_reducible apply foldl_snd_wf | dsimp only | split)

theorem execEpochIncrement_wf (s : State) (hm : s.mem.wf = true) : Keeps (execEpochIncrement s) := by
  unfold execEpochIncrement
  repeat' (first | with_reducible assumption | with_reducible apply adoptEpoch_wf | with_reducible apply keeps_awake | dsimp only | split)

theorem acceptId_wf (s : State) (d : BitVec 6) (hm : s.mem.wf = true) : (acceptId s d).mem.wf = true := by
  unfold acceptId
  repeat' (first | with_reducible assumption | with_reducible apply putDie_wf)

theorem noteWant_wf (s : State) (w : Want) (hm : s.mem.wf = true) : (noteWant s w).mem.wf = true := by
  unfold noteWant
  repeat' (first | with_reducible assumption | dsimp only | split)

theorem reportIdless_wf (s : State) (p : PortId) (uid : Word) (hm : s.mem.wf = true) : (reportIdless s p uid).mem.wf = true := by
  unfold reportIdless
  repeat' (first | with_reducible assumption | with_reducible apply routed_wf | with_reducible apply noteWant_wf | dsimp only | split)

theorem takeAssignment_wf (s : State) (p : PortId) (pn : Pennant) (hm : s.mem.wf = true) : (takeAssignment s p pn).mem.wf = true := by
  unfold takeAssignment
  repeat' (first | with_reducible assumption | with_reducible apply pennantConflict_wf | with_reducible apply acceptId_wf | dsimp only | split)

theorem execAssignerTakeover_wf (s : State) (hm : s.mem.wf = true) : Keeps (execAssignerTakeover s) := by
  unfold execAssignerTakeover
  repeat' (first | with_reducible assumption | with_reducible apply triggerAll_wf | with_reducible apply adoptEpoch_wf
                 | with_reducible apply acceptId_wf | with_reducible apply keeps_awake | dsimp only | split)

theorem assignOne_wf (s : State) (w : Want) (hm : s.mem.wf = true) : (assignOne s w).mem.wf = true := by
  unfold assignOne
  repeat' (first | with_reducible assumption | with_reducible apply routed_wf | (simp only [State.modPort_mem]) | dsimp only | split)

theorem execIdAssignRound_wf (s : State) (hm : s.mem.wf = true) : Keeps (execIdAssignRound s) := by
  unfold execIdAssignRound
  repeat' (first | with_reducible assumption | with_reducible apply assignOne_wf | with_reducible apply keeps_awake | with_reducible apply foldl_wf
                 | with_reducible apply foldl_fst_wf | with_reducible apply foldl_snd_wf | dsimp only | split)

theorem hearLeader_wf (s : State) (pn : Pennant) (hm : s.mem.wf = true) : (hearLeader s pn).mem.wf = true := by
  unfold hearLeader
  repeat' (first | with_reducible assumption | with_reducible apply noteLeader_wf)

theorem linkPennant_wf (s : State) (p : PortId) (pn : Pennant) (hm : s.mem.wf = true) : (linkPennant s p pn).mem.wf = true := by
  unfold linkPennant
  repeat' (first | with_reducible assumption | with_reducible apply namedId_wf | with_reducible apply routeSays_wf
                 | with_reducible apply dropUnreached_wf | with_reducible apply adoptEpoch_wf | with_reducible apply reportIdless_wf
                 | with_reducible apply takeAssignment_wf | with_reducible apply hearLeader_wf | with_reducible apply foldl_wf
                 | with_reducible apply foldl_fst_wf | with_reducible apply foldl_snd_wf | (simp only [State.modPort_mem]) | dsimp only | split)

theorem routedPennant_wf (s : State) (p : PortId) (pn : Pennant) (hm : s.mem.wf = true) : (routedPennant s p pn).mem.wf = true := by
  unfold routedPennant
  repeat' (first | with_reducible assumption | with_reducible apply takeReport_wf | with_reducible apply adoptEpoch_wf
                 | with_reducible apply noteWant_wf | with_reducible apply takeAssignment_wf | with_reducible apply foldl_wf
                 | with_reducible apply foldl_fst_wf | with_reducible apply foldl_snd_wf | (simp only [State.modPort_mem]) | dsimp only | split
                 | (intro _))

theorem execPennantLinkReceive_wf (p : PortId) (ll : Bool) (pn : Pennant) (s : State)
    (hm : s.mem.wf = true) : Keeps (execPennantLinkReceive p ll pn s) := by
  unfold execPennantLinkReceive
  repeat' (first | with_reducible assumption | with_reducible apply takePennant_wf | with_reducible apply pennantConflict_wf
                 | with_reducible apply linkPennant_wf | with_reducible apply routedPennant_wf | with_reducible apply keeps_awake
                 | with_reducible apply routedClaim_getD_wf | dsimp only | split)

theorem execConfirmReqReceive_wf (p : PortId) (src : BitVec 6) (pn : Pennant) (s : State)
    (hm : s.mem.wf = true) : Keeps (execConfirmReqReceive p src pn s) := by
  unfold execConfirmReqReceive
  repeat' (first | with_reducible assumption | with_reducible apply takePennant_wf | with_reducible apply pennantConflict_wf
                 | with_reducible apply sendAck_wf | with_reducible apply adoptEpoch_wf | with_reducible apply keeps_awake
                 | with_reducible apply routedClaim_getD_wf | dsimp only | split)

theorem execConfirmAckReceive_wf (p : PortId) (src : BitVec 6) (pn : Pennant) (s : State)
    (hm : s.mem.wf = true) : Keeps (execConfirmAckReceive p src pn s) := by
  unfold execConfirmAckReceive
  repeat' (first | with_reducible assumption | with_reducible apply raiseUnit_wf | with_reducible apply takePennant_wf
                 | with_reducible apply pennantConflict_wf | with_reducible apply putDie_wf | with_reducible apply yieldAssigner_wf
                 | with_reducible apply adoptEpoch_wf | with_reducible apply keeps_awake | with_reducible apply routedClaim_getD_wf | dsimp only
                 | split)

theorem execHandshakeTimeout_wf (id : BitVec 6) (s : State) (hm : s.mem.wf = true) : Keeps (execHandshakeTimeout id s) := by
  unfold execHandshakeTimeout
  repeat' (first | with_reducible assumption | with_reducible apply toAbsent_wf | with_reducible apply keeps_awake | with_reducible apply id_wf
                 | dsimp only | split)

theorem execConfirmHoldExpiry_wf (id : BitVec 6) (s : State) (hm : s.mem.wf = true) : Keeps (execConfirmHoldExpiry id s) := by
  unfold execConfirmHoldExpiry
  repeat' (first | with_reducible assumption | with_reducible apply keeps_awake)

theorem execPartnerSilence_wf (p : PortId) (s : State) (hm : s.mem.wf = true) : Keeps (execPartnerSilence p s) := by
  unfold execPartnerSilence
  repeat' (first | with_reducible assumption | with_reducible apply toAbsent_wf | with_reducible apply dropUnreached_wf
                 | with_reducible apply keeps_awake | with_reducible apply foldl_wf | with_reducible apply foldl_fst_wf
                 | with_reducible apply foldl_snd_wf | (simp only [State.setPort_mem]) | dsimp only | split | (intro _))

theorem fenceSelf_wf (s : State) (hm : s.mem.wf = true) : (fenceSelf s).mem.wf = true := by
  unfold fenceSelf
  repeat' (first | with_reducible assumption | with_reducible apply triggerAll_wf)

theorem fenceEntry_wf (s : State) (d : Nat) (hm : s.mem.wf = true) : (fenceEntry s d).mem.wf = true := by
  unfold fenceEntry
  repeat' (first | with_reducible assumption | with_reducible apply putDie_wf | with_reducible apply toAbsent_wf | dsimp only | split)

theorem reinstateEntry_wf (s : State) (d : Nat) (hm : s.mem.wf = true) : (reinstateEntry s d).mem.wf = true := by
  unfold reinstateEntry
  repeat' (first | with_reducible assumption | with_reducible apply putDie_wf)

theorem namedFence_wf (s : State) (pn : Pennant) (f : State → Nat → State)
    (hm : s.mem.wf = true) (hf : ∀ x0 x1, x0.mem.wf = true → (f x0 x1).mem.wf = true) : (namedFence s pn f).mem.wf = true := by
  unfold namedFence
  repeat' (first | with_reducible assumption | with_reducible apply takePennant_wf | with_reducible apply pennantConflict_wf
                 | with_reducible apply adoptEpoch_wf | apply hf | dsimp only | split)

theorem execFencePennantReceive_wf (pn : Pennant) (s : State) (hm : s.mem.wf = true) : Keeps (execFencePennantReceive pn s) := by
  unfold execFencePennantReceive
  repeat' (first | with_reducible assumption | with_reducible apply fenceSelf_wf | with_reducible apply fenceEntry_wf
                 | with_reducible apply namedFence_wf | with_reducible apply keeps_awake | dsimp only | split | (intro _))

theorem execReinstatePennantReceive_wf (pn : Pennant) (s : State) (hm : s.mem.wf = true) : Keeps (execReinstatePennantReceive pn s) := by
  unfold execReinstatePennantReceive
  repeat' (first | with_reducible assumption | with_reducible apply triggerAll_wf | with_reducible apply reinstateEntry_wf
                 | with_reducible apply namedFence_wf | with_reducible apply keeps_awake | dsimp only | split | (intro _))

theorem sendFence_wf (s : State) (kind : BitVec 3) (id : BitVec 6) (uid : Word) (hm : s.mem.wf = true) : (sendFence s kind id uid).mem.wf = true := by
  unfold sendFence
  repeat' (first | with_reducible assumption | with_reducible apply routed_wf | with_reducible apply foldl_wf | with_reducible apply foldl_fst_wf
                 | with_reducible apply foldl_snd_wf | dsimp only | split | (intro _))

/-! ### Repair -/

theorem persistentFault_wf (s : State) (cond : BitVec 16) (hm : s.mem.wf = true) : (persistentFault s cond).mem.wf = true := by
  unfold persistentFault
  repeat' (first | with_reducible assumption | with_reducible apply fwRaise_wf | with_reducible apply fenceSelf_wf
                 | with_reducible apply fenceEntry_wf | with_reducible apply sendFence_wf | dsimp only | split)

theorem checkArrays_wf (s : State) (hm : s.mem.wf = true) : (checkArrays s).mem.wf = true := by
  unfold checkArrays
  repeat' (first | with_reducible assumption | with_reducible apply persistentFault_wf | dsimp only | split)

theorem checkPorts_wf (s : State) (hm : s.mem.wf = true) : (checkPorts s).mem.wf = true := by
  unfold checkPorts
  repeat' (first | with_reducible assumption | with_reducible apply persistentFault_wf | dsimp only | split)

theorem retireRow_wf (s : State) (r : Nat) (hm : s.mem.wf = true) : (retireRow s r).mem.wf = true := by
  unfold retireRow
  repeat' (first | with_reducible assumption | with_reducible apply fwRaise_wf | with_reducible apply persistentFault_wf | dsimp only | split)

theorem retireRows_wf (s : State) (hm : s.mem.wf = true) : (retireRows s).mem.wf = true := by
  unfold retireRows
  repeat' (first | with_reducible assumption | with_reducible apply retireRow_wf | with_reducible apply foldl_wf)

theorem startRefetch_wf (col : Nat) (s : State) (x : Nat × Bool) (hm : s.mem.wf = true) : (startRefetch col s x).mem.wf = true := by
  unfold startRefetch
  repeat' (first | with_reducible assumption | with_reducible apply startTransfer_wf | dsimp only | split)

theorem endRefetch_wf (col : Nat) (acc : State × Repair) (x : Nat × Bool) (hm : acc.1.mem.wf = true) : (endRefetch col acc x).1.mem.wf = true := by
  unfold endRefetch
  dsimp only
  split
  · exact hm
  · split
    · exact memWrite_wf _ _ _ hm
    · split
      · exact hm
      · exact fwFault_wf _ _ hm

theorem resumeCore_wf (s : State) (c : Nat) (hm : s.mem.wf = true) : (resumeCore s c).mem.wf = true := by
  unfold resumeCore
  repeat' (first | with_reducible assumption | with_reducible apply replayCore_wf | (simp only [State.modCore_mem]))

theorem replayJob_wf (s : State) (col : Nat) (hm : s.mem.wf = true) : (replayJob s col).mem.wf = true := by
  unfold replayJob
  repeat' (first | with_reducible assumption | with_reducible apply fwEvent_wf | with_reducible apply reinitCounter_wf
                 | with_reducible apply resumeCore_wf | with_reducible apply foldl_wf | with_reducible apply foldl_fst_wf
                 | with_reducible apply foldl_snd_wf | (simp only [State.modPart_mem]))

theorem decideStep_wf (s : State) (col : Nat) (own : Bool) (hm : s.mem.wf = true) : (decideStep s col own).mem.wf = true := by
  unfold decideStep
  repeat' (first | with_reducible assumption | with_reducible apply abortJob_wf | with_reducible apply persistentFault_wf
                 | with_reducible apply replayJob_wf | dsimp only | split)

theorem haltForWatch_wf (s : State) (col : Nat) (hm : s.mem.wf = true) : (haltForWatch s col).mem.wf = true := by
  unfold haltForWatch
  repeat' (first | with_reducible assumption | with_reducible apply foldl_wf | with_reducible apply foldl_fst_wf
                 | with_reducible apply foldl_snd_wf | (simp only [State.modCore_mem]) | dsimp only | split | (intro _))

theorem beginRepair_wf (s : State) (col : Nat) (hm : s.mem.wf = true) : (beginRepair s col).1.mem.wf = true := by
  unfold beginRepair
  repeat' (first | with_reducible assumption | with_reducible apply takeRecords_wf)

theorem endRepair_wf (s : State) (col : Nat) (r : Repair) (hm : s.mem.wf = true) : (endRepair s col r).mem.wf = true := by
  unfold endRepair
  repeat' (first | with_reducible assumption | with_reducible apply abortJob_wf | with_reducible apply retireRows_wf
                 | with_reducible apply decideStep_wf | (simp only [State.modPart_mem]) | dsimp only | split)

theorem goOnRepair_wf (s : State) (col : Nat) (r : Repair) (hm : s.mem.wf = true) : (goOnRepair s col r).mem.wf = true := by
  unfold goOnRepair
  repeat' (first | with_reducible assumption | with_reducible apply startRefetch_wf | with_reducible apply endRefetch_wf
                 | with_reducible apply endRepair_wf | with_reducible apply foldl_wf | with_reducible apply foldl_fst_wf
                 | with_reducible apply foldl_snd_wf | (simp only [State.modPart_mem]) | dsimp only | split)

theorem execStepRepair_wf (colour : BitVec 4) (x : Carried) (s : State) (hm : s.mem.wf = true) : Keeps (execStepRepair colour x s) := by
  unfold execStepRepair
  repeat' (first | with_reducible assumption | with_reducible apply haltForWatch_wf | with_reducible apply beginRepair_wf
                 | with_reducible apply goOnRepair_wf | with_reducible apply keeps_live | dsimp only | split)

theorem evictImage_wf (s : State) (col : Nat) (g : Image) (hm : s.mem.wf = true) : (evictImage s col g).mem.wf = true := by
  unfold evictImage
  repeat' (first | with_reducible assumption | with_reducible apply zeroRange_wf | with_reducible apply rebuildRegions_wf
                 | with_reducible apply fwRequest_wf | with_reducible apply foldl_wf | with_reducible apply foldl_fst_wf
                 | with_reducible apply foldl_snd_wf | (simp only [State.modPart_mem]) | dsimp only | split | (intro _))

theorem destroyPart_wf (s : State) (col : Nat) (hm : s.mem.wf = true) : (destroyPart s col).mem.wf = true := by
  unfold destroyPart
  repeat' (first | with_reducible assumption | with_reducible apply zeroRange_wf | with_reducible apply disarmDie_wf
                 | with_reducible apply uninstallWindows_wf | with_reducible apply launchCore_wf | with_reducible apply evictImage_wf
                 | with_reducible apply foldl_wf | with_reducible apply foldl_fst_wf | with_reducible apply foldl_snd_wf
                 | (simp only [State.modCore_mem, State.modMailbox_mem]) | dsimp only | split | (intro _))

theorem execPartitionDrainEnd_wf (colour : BitVec 4) (s : State) (hm : s.mem.wf = true) : Keeps (execPartitionDrainEnd colour s) := by
  unfold execPartitionDrainEnd
  repeat' (first | with_reducible assumption | with_reducible apply finishReset_wf | with_reducible apply destroyPart_wf
                 | with_reducible apply keeps_live | dsimp only | split)

/-! ### Flit -/

theorem putFlit_wf (s : State) (p : PortId) (path : Path) (f : Flit) (hm : s.mem.wf = true) : (putFlit s p path f).mem.wf = true := by
  unfold putFlit
  repeat' (first | with_reducible assumption | with_reducible apply emit_wf | (simp only [State.setPort_mem]))

theorem putInit_wf (s : State) (p : PortId) (path : Path) (hm : s.mem.wf = true) : (putInit s p path).mem.wf = true := by
  unfold putInit
  repeat' (first | with_reducible assumption | with_reducible apply putFlit_wf | (simp only [State.modPort_mem]))

theorem putNop_wf (s : State) (p : PortId) (path : Path) (hm : s.mem.wf = true) : (putNop s p path).mem.wf = true := by
  unfold putNop
  repeat' (first | with_reducible assumption | with_reducible apply putFlit_wf)

theorem countPort_wf (s : State) (p : PortId) (i : Nat) (hm : s.mem.wf = true) : (countPort s p i).mem.wf = true := by
  unfold countPort
  repeat' (first | with_reducible assumption | (simp only [State.modPort_mem]))

theorem protocolError_wf (s : State) (p : PortId) (colour : BitVec 4) (src : BitVec 6)
    (hm : s.mem.wf = true) : (protocolError s p colour src).mem.wf = true := by
  unfold protocolError
  repeat' (first | with_reducible assumption | with_reducible apply raiseUnit_wf | with_reducible apply countPort_wf)

theorem heard_wf (s : State) (p : PortId) (path : Path) (hm : s.mem.wf = true) : (heard s p path).mem.wf = true := by
  unfold heard
  repeat' (first | with_reducible assumption | (simp only [State.modPort_mem]))

theorem takeTrailer_wf (s : State) (p : PortId) (path : Path) (t : Trailer) (hm : s.mem.wf = true) : (takeTrailer s p path t).mem.wf = true := by
  unfold takeTrailer
  repeat' (first | with_reducible assumption | (simp only [State.modPort_mem]))

theorem confirmInit_wf (s : State) (p : PortId) (path : Path) (hm : s.mem.wf = true) : (confirmInit s p path).mem.wf = true := by
  unfold confirmInit
  repeat' (first | with_reducible assumption | (simp only [State.modPort_mem]))

theorem tryActive_wf (s : State) (p : PortId) (path : Path) (hm : s.mem.wf = true) : (tryActive s p path).mem.wf = true := by
  unfold tryActive
  repeat' (first | with_reducible assumption | (simp only [State.modPort_mem]))

theorem execInitResend_wf (p : PortId) (path : Path) (s : State) (hm : s.mem.wf = true) : Keeps (execInitResend p path s) := by
  unfold execInitResend
  repeat' (first | with_reducible assumption | with_reducible apply putInit_wf | with_reducible apply keeps_awake | dsimp only | split)

theorem execInitReceive_wf (p : PortId) (path : Path) (counts : Word) (echo : Bool) (s : State)
    (hm : s.mem.wf = true) : Keeps (execInitReceive p path counts echo s) := by
  unfold execInitReceive
  repeat' (first | with_reducible assumption | with_reducible apply heard_wf | with_reducible apply confirmInit_wf
                 | with_reducible apply tryActive_wf | with_reducible apply keeps_awake | (simp only [State.modPort_mem]) | dsimp only | split)

theorem execNakReceive_wf (p : PortId) (path : Path) (seq : BitVec 10) (t : Trailer) (s : State)
    (hm : s.mem.wf = true) : Keeps (execNakReceive p path seq t s) := by
  unfold execNakReceive
  repeat' (first | with_reducible assumption | with_reducible apply countPort_wf | with_reducible apply heard_wf
                 | with_reducible apply takeTrailer_wf | with_reducible apply confirmInit_wf | with_reducible apply tryActive_wf
                 | with_reducible apply keeps_awake | (simp only [State.modPort_mem]) | dsimp only | split)

theorem execNopReceive_wf (p : PortId) (path : Path) (t : Trailer) (s : State) (hm : s.mem.wf = true) : Keeps (execNopReceive p path t s) := by
  unfold execNopReceive
  repeat' (first | with_reducible assumption | with_reducible apply heard_wf | with_reducible apply takeTrailer_wf
                 | with_reducible apply confirmInit_wf | with_reducible apply tryActive_wf | with_reducible apply keeps_awake | dsimp only | split)

theorem execReplayTimer_wf (p : PortId) (path : Path) (s : State) (hm : s.mem.wf = true) : Keeps (execReplayTimer p path s) := by
  unfold execReplayTimer
  repeat' (first | with_reducible assumption | with_reducible apply countPort_wf | with_reducible apply keeps_awake
                 | (simp only [State.modPort_mem]) | dsimp only | split)

theorem execAckTrailerDue_wf (p : PortId) (path : Path) (s : State) (hm : s.mem.wf = true) : Keeps (execAckTrailerDue p path s) := by
  unfold execAckTrailerDue
  repeat' (first | with_reducible assumption | with_reducible apply putNop_wf | with_reducible apply keeps_awake | dsimp only | split)

theorem execIdleNop_wf (p : PortId) (s : State) (hm : s.mem.wf = true) : Keeps (execIdleNop p s) := by
  unfold execIdleNop
  repeat' (first | with_reducible assumption | with_reducible apply putNop_wf | with_reducible apply keeps_awake | dsimp only | split)

/-! ### Links -/

theorem dropMsgFlits_wf (s : State) (num : Nat) (hm : s.mem.wf = true) : (dropMsgFlits s num).mem.wf = true := by
  unfold dropMsgFlits
  repeat' (first | with_reducible assumption | with_reducible apply freeBuffers_wf | with_reducible apply foldl_wf
                 | with_reducible apply foldl_fst_wf | with_reducible apply foldl_snd_wf | dsimp only | split | (intro _))

theorem failForward_wf (s : State) (code num vc : Nat) (hm : s.mem.wf = true) : (failForward s code num vc).mem.wf = true := by
  unfold failForward
  repeat' (first | with_reducible assumption | with_reducible apply dropMsgFlits_wf | (simp only [State.modPort_mem]) | dsimp only | split)

theorem clearInput_wf (s : State) (p : PortId) (path : Path) (hm : s.mem.wf = true) : (clearInput s p path).mem.wf = true := by
  unfold clearInput
  repeat' (first | with_reducible assumption | with_reducible apply foldl_wf | with_reducible apply foldl_fst_wf
                 | with_reducible apply foldl_snd_wf | (simp only [State.modPort_mem]) | dsimp only | split | (intro _))

theorem losePath_wf (s : State) (p : PortId) (path : Path) (hm : s.mem.wf = true) : (losePath s p path).mem.wf = true := by
  unfold losePath
  repeat' (first | with_reducible assumption | with_reducible apply settle_wf | with_reducible apply failForward_wf
                 | with_reducible apply clearInput_wf | with_reducible apply foldl_wf | with_reducible apply foldl_fst_wf
                 | with_reducible apply foldl_snd_wf | (simp only [State.modPort_mem]) | dsimp only | split | (intro _))

theorem refreshReach_wf (s : State) (p : PortId) (hm : s.mem.wf = true) : (refreshReach s p).mem.wf = true := by
  unfold refreshReach
  repeat' (first | with_reducible assumption | with_reducible apply triggerAll_wf | with_reducible apply foldl_wf
                 | with_reducible apply foldl_fst_wf | with_reducible apply foldl_snd_wf | (simp only [State.setDie_mem]) | dsimp only | split
                 | (intro _))

theorem countFlap_wf (s : State) (p : PortId) (hm : s.mem.wf = true) : (countFlap s p).mem.wf = true := by
  unfold countFlap
  repeat' (first | with_reducible assumption | with_reducible apply raiseUnit_wf | (simp only [State.setPort_mem]) | dsimp only | split)

theorem noteDown_wf (s : State) (p : PortId) (hm : s.mem.wf = true) : (noteDown s p).mem.wf = true := by
  unfold noteDown
  repeat' (first | with_reducible assumption | with_reducible apply noteChange_wf | dsimp only | split)

theorem goDown_wf (s : State) (p : PortId) (counted : Bool) (hm : s.mem.wf = true) : (goDown s p counted).mem.wf = true := by
  unfold goDown
  repeat' (first | with_reducible assumption | with_reducible apply raiseUnit_wf | with_reducible apply dropUnreached_wf
                 | with_reducible apply losePath_wf | with_reducible apply countFlap_wf | with_reducible apply noteDown_wf
                 | (simp only [State.modPort_mem]) | dsimp only | split)

theorem startTraining_wf (s : State) (p : PortId) (hm : s.mem.wf = true) : (startTraining s p).mem.wf = true := by
  unfold startTraining
  repeat' (first | with_reducible assumption | with_reducible apply putInit_wf | with_reducible apply losePath_wf | (simp only [State.modPort_mem])
                 | dsimp only | split)

theorem clearPortCounts_wf (s : State) (p : PortId) (hm : s.mem.wf = true) : (clearPortCounts s p).mem.wf = true := by
  unfold clearPortCounts
  repeat' (first | with_reducible assumption | (simp only [State.modPort_mem]))

theorem portReset_wf (s : State) (p : PortId) (hm : s.mem.wf = true) : (portReset s p).mem.wf = true := by
  unfold portReset
  repeat' (first | with_reducible assumption | with_reducible apply goDown_wf | with_reducible apply startTraining_wf
                 | with_reducible apply clearPortCounts_wf | dsimp only | split)

theorem portEnable_wf (s : State) (p : PortId) (hm : s.mem.wf = true) : (portEnable s p).mem.wf = true := by
  unfold portEnable
  repeat' (first | with_reducible assumption | with_reducible apply startTraining_wf | dsimp only | split)

theorem portDisable_wf (s : State) (p : PortId) (hm : s.mem.wf = true) : (portDisable s p).mem.wf = true := by
  unfold portDisable
  repeat' (first | with_reducible assumption | with_reducible apply losePath_wf | with_reducible apply refreshReach_wf
                 | with_reducible apply goDown_wf | (simp only [State.modPort_mem]) | dsimp only | split)

theorem execPortEnable_wf (p : PortId) (s : State) (hm : s.mem.wf = true) : Keeps (execPortEnable p s) := by
  unfold execPortEnable
  repeat' (first | with_reducible assumption | with_reducible apply portEnable_wf | with_reducible apply keeps_awake)

theorem execHlCtrlReset_wf (p : PortId) (s : State) (hm : s.mem.wf = true) : Keeps (execHlCtrlReset p s) := by
  unfold execHlCtrlReset
  repeat' (first | with_reducible assumption | with_reducible apply portReset_wf | with_reducible apply keeps_awake)

theorem execHlCtrlDisable_wf (p : PortId) (s : State) (hm : s.mem.wf = true) : Keeps (execHlCtrlDisable p s) := by
  unfold execHlCtrlDisable
  repeat' (first | with_reducible assumption | with_reducible apply portDisable_wf | with_reducible apply keeps_awake)

theorem execHlCtrlEnable_wf (p : PortId) (s : State) (hm : s.mem.wf = true) : Keeps (execHlCtrlEnable p s) := by
  unfold execHlCtrlEnable
  repeat' (first | with_reducible assumption | with_reducible apply portEnable_wf | with_reducible apply keeps_awake)

theorem askOption_wf (s : State) (p : PortId) (o : PartnerOption) (hm : s.mem.wf = true) : (askOption s p o).mem.wf = true := by
  unfold askOption
  repeat' (first | with_reducible assumption | with_reducible apply emit_wf | (simp only [State.setPort_mem]) | dsimp only | split)

theorem trainFailed_wf (s : State) (p : PortId) (hm : s.mem.wf = true) : (trainFailed s p).mem.wf = true := by
  unfold trainFailed
  repeat' (first | with_reducible assumption | with_reducible apply goDown_wf | (simp only [State.setPort_mem]) | dsimp only | split)

theorem execTrainingComplete_wf (p : PortId) (r : TrainResult) (s : State) (hm : s.mem.wf = true) : Keeps (execTrainingComplete p r s) := by
  unfold execTrainingComplete
  repeat' (first | with_reducible assumption | with_reducible apply putInit_wf | with_reducible apply askOption_wf
                 | with_reducible apply trainFailed_wf | with_reducible apply keeps_awake | (simp only [State.setPort_mem]) | dsimp only | split)

theorem execRetrainEntry_wf (p : PortId) (s : State) (hm : s.mem.wf = true) : Keeps (execRetrainEntry p s) := by
  unfold execRetrainEntry
  repeat' (first | with_reducible assumption | with_reducible apply keeps_awake | (simp only [State.setPort_mem]) | dsimp only | split)

theorem execRetrainAttemptDone_wf (p : PortId) (ok : Bool) (lanes : Lanes) (s : State)
    (hm : s.mem.wf = true) : Keeps (execRetrainAttemptDone p ok lanes s) := by
  unfold execRetrainAttemptDone
  repeat' (first | with_reducible assumption | with_reducible apply raiseUnit_wf | with_reducible apply goDown_wf
                 | with_reducible apply startTraining_wf | with_reducible apply keeps_awake | (simp only [State.setPort_mem, State.modPort_mem])
                 | dsimp only | split)

theorem execLinkDown_wf (p : PortId) (s : State) (hm : s.mem.wf = true) : Keeps (execLinkDown p s) := by
  unfold execLinkDown
  repeat' (first | with_reducible assumption | with_reducible apply goDown_wf | with_reducible apply keeps_awake | dsimp only | split)

theorem execPartnerTrainingRequest_wf (p : PortId) (ask : PartnerAsk) (s : State)
    (hm : s.mem.wf = true) : Keeps (execPartnerTrainingRequest p ask s) := by
  unfold execPartnerTrainingRequest
  repeat' (first | with_reducible assumption | with_reducible apply heard_wf | with_reducible apply goDown_wf
                 | with_reducible apply startTraining_wf | with_reducible apply keeps_awake | (simp only [State.modPort_mem]) | dsimp only | split)

theorem execSidebandUp_wf (p : PortId) (s : State) (hm : s.mem.wf = true) : Keeps (execSidebandUp p s) := by
  unfold execSidebandUp
  repeat' (first | with_reducible assumption | with_reducible apply putInit_wf | with_reducible apply refreshReach_wf
                 | with_reducible apply keeps_awake | (simp only [State.setPort_mem]) | dsimp only | split)

theorem sidebandLost_wf (s : State) (p : PortId) (hm : s.mem.wf = true) : (sidebandLost s p).mem.wf = true := by
  unfold sidebandLost
  repeat' (first | with_reducible assumption | with_reducible apply losePath_wf | with_reducible apply refreshReach_wf
                 | with_reducible apply goDown_wf | (simp only [State.modPort_mem]) | dsimp only | split)

theorem execSidebandDown_wf (p : PortId) (s : State) (hm : s.mem.wf = true) : Keeps (execSidebandDown p s) := by
  unfold execSidebandDown
  repeat' (first | with_reducible assumption | with_reducible apply sidebandLost_wf | with_reducible apply keeps_awake)

theorem execSidebandSilence_wf (p : PortId) (s : State) (hm : s.mem.wf = true) : Keeps (execSidebandSilence p s) := by
  unfold execSidebandSilence
  repeat' (first | with_reducible assumption | with_reducible apply sidebandLost_wf | with_reducible apply keeps_awake | dsimp only | split)

theorem execLinkStateMessage_wf (p : PortId) (s : State) (hm : s.mem.wf = true) : Keeps (execLinkStateMessage p s) := by
  unfold execLinkStateMessage
  repeat' (first | with_reducible assumption | with_reducible apply emit_wf | with_reducible apply keeps_awake | (simp only [State.setPort_mem])
                 | dsimp only | split)

theorem execVc3PathMove_wf (p : PortId) (s : State) (hm : s.mem.wf = true) : Keeps (execVc3PathMove p s) := by
  unfold execVc3PathMove
  repeat' (first | with_reducible assumption | with_reducible apply keeps_awake | (simp only [State.setPort_mem]) | dsimp only | split)

/-! ### Bunting -/

theorem auditWindow_wf (s : State) (w : Nat) (hm : s.mem.wf = true) : (auditWindow s w).mem.wf = true := by
  unfold auditWindow
  repeat' (first | with_reducible assumption | with_reducible apply fwCharge_wf | with_reducible apply abortJob_wf | dsimp only | split)

theorem reclaimAbsent_wf (s : State) (e : Sender) (hm : s.mem.wf = true) : (reclaimAbsent s e).mem.wf = true := by
  unfold reclaimAbsent
  repeat' (first | with_reducible assumption | with_reducible apply modSender_wf | with_reducible apply forfeit_wf
                 | (simp only [State.setWindow_mem]))

theorem snapBooks_wf (s : State) (hm : s.mem.wf = true) : (snapBooks s).mem.wf = true := by
  unfold snapBooks
  repeat' (first | with_reducible assumption)

theorem compareBooks_wf (s : State) (win : BitVec 8) (die core : BitVec 6) (c : List (BitVec 32))
    (hm : s.mem.wf = true) : (compareBooks s win die core c).mem.wf = true := by
  unfold compareBooks
  repeat' (first | with_reducible assumption | with_reducible apply modSender_wf | with_reducible apply fwCharge_wf
                 | with_reducible apply abortJob_wf | (simp only [State.setWindow_mem]) | dsimp only | split)

theorem compareOwn_wf (s : State) (e : Sender) (hm : s.mem.wf = true) : (compareOwn s e).mem.wf = true := by
  unfold compareOwn
  repeat' (first | with_reducible assumption | with_reducible apply compareBooks_wf | dsimp only | split)

theorem sendSnaps_wf (s : State) (die : BitVec 6) (side : Byte) (es : List (List Byte))
    (hm : s.mem.wf = true) : (sendSnaps s die side es).mem.wf = true := by
  unfold sendSnaps
  repeat' (first | with_reducible assumption | with_reducible apply fwRequest_wf | with_reducible apply foldl_wf
                 | with_reducible apply foldl_fst_wf | with_reducible apply foldl_snd_wf | dsimp only | split | (intro _))

theorem exchangeSnaps_wf (s : State) (hm : s.mem.wf = true) : (exchangeSnaps s).mem.wf = true := by
  unfold exchangeSnaps
  repeat' (first | with_reducible assumption | with_reducible apply sendSnaps_wf | with_reducible apply foldl_wf
                 | with_reducible apply foldl_fst_wf | with_reducible apply foldl_snd_wf | dsimp only | split | (intro _))

theorem actMismatch_wf (s : State) (x : Nat × Nat) (hm : s.mem.wf = true) : (actMismatch s x).mem.wf = true := by
  unfold actMismatch
  repeat' (first | with_reducible assumption | with_reducible apply fwRaise_wf | with_reducible apply coreReset_wf
                 | with_reducible apply abortJob_wf | with_reducible apply portReset_wf | (simp only [State.modCore_mem,
                 State.setCounter_mem, State.modPart_mem]) | dsimp only | split)

theorem reconcile_wf (s : State) (hm : s.mem.wf = true) : (reconcile s).mem.wf = true := by
  unfold reconcile
  repeat' (first | with_reducible assumption | with_reducible apply actMismatch_wf | with_reducible apply foldl_wf)

theorem fireAudit_wf (s : State) (hm : s.mem.wf = true) : (fireAudit s).mem.wf = true := by
  unfold fireAudit
  repeat' (first | with_reducible assumption | with_reducible apply checkPorts_wf | with_reducible apply auditWindow_wf
                 | with_reducible apply reclaimAbsent_wf | with_reducible apply snapBooks_wf | with_reducible apply compareOwn_wf
                 | with_reducible apply exchangeSnaps_wf | with_reducible apply reconcile_wf | with_reducible apply foldl_wf
                 | with_reducible apply foldl_fst_wf | with_reducible apply foldl_snd_wf | dsimp only | split)

theorem fireRefill_wf (s : State) (param n : Nat) (hm : s.mem.wf = true) : (fireRefill s param n).mem.wf = true := by
  unfold fireRefill
  repeat' (first | with_reducible assumption | with_reducible apply foldl_wf | with_reducible apply foldl_fst_wf
                 | with_reducible apply foldl_snd_wf | (simp only [State.modPart_mem]) | dsimp only | split | (intro _))

theorem watchCore_wf (i : Nat) (s : State) (c : Nat) (hm : s.mem.wf = true) : (watchCore i s c).mem.wf = true := by
  unfold watchCore
  repeat' (first | with_reducible assumption | with_reducible apply raiseD_wf | with_reducible apply watchdogJob_wf
                 | (simp only [State.setCore_mem]) | dsimp only | split)

theorem fireWatchdog_wf (s : State) (i param : Nat) (hm : s.mem.wf = true) : (fireWatchdog s i param).mem.wf = true := by
  unfold fireWatchdog
  repeat' (first | with_reducible assumption | with_reducible apply watchCore_wf | with_reducible apply foldl_wf
                 | with_reducible apply foldl_fst_wf | with_reducible apply foldl_snd_wf | dsimp only | split | (intro _))

theorem countConflicts_wf (s : State) (hm : s.mem.wf = true) : (countConflicts s).mem.wf = true := by
  unfold countConflicts
  exact wf_mk _ _ _ _ _ _ _ _ _ _ _ _ hm

theorem snapshotSet_wf (s : State) (n : Nat) (hm : s.mem.wf = true) : (snapshotSet s n).mem.wf = true := by
  unfold snapshotSet
  have h : (if n = 0 then countConflicts s else s).mem.wf = true := by
    split
    · exact countConflicts_wf _ hm
    · exact hm
  revert h
  generalize (if n = 0 then countConflicts s else s) = t
  intro h
  dsimp only
  split
  · exact wf_mk _ _ _ _ _ _ _ _ _ _ _ _ h
  · exact h
  · apply foldl_wf
    · exact h
    · intro s x hs; rw [State.modPort_mem]; exact hs
  · exact h
  · exact h

theorem fireTelemetry_wf (s : State) (n : Nat) (hm : s.mem.wf = true) : (fireTelemetry s n).mem.wf = true := by
  unfold fireTelemetry
  repeat' (first | with_reducible assumption | with_reducible apply fwEvent_wf | with_reducible apply snapshotSet_wf
                 | with_reducible apply foldl_wf | with_reducible apply foldl_fst_wf | with_reducible apply foldl_snd_wf | dsimp only | split
                 | (intro _))

theorem fireAdmit_wf (s : State) (c q : Nat) (hm : s.mem.wf = true) : (fireAdmit s c q).mem.wf = true := by
  unfold fireAdmit
  repeat' (first | with_reducible assumption | with_reducible apply raiseCore_wf | with_reducible apply detectFor_wf
                 | (simp only [State.modCore_mem, State.setRqueue_mem]) | dsimp only | split)

theorem fireDieSignal_wf (s : State) (colour : BitVec 4) (param : Nat) (hm : s.mem.wf = true) : (fireDieSignal s colour param).mem.wf = true := by
  unfold fireDieSignal
  repeat' (first | with_reducible assumption | with_reducible apply raiseRec_wf | with_reducible apply setFlags_wf | dsimp only | split)

theorem fireAction_wf (s : State) (core : Option Nat) (i : Nat) (b : Booking) (n : Nat)
    (hm : s.mem.wf = true) : (fireAction s core i b n).mem.wf = true := by
  unfold fireAction
  repeat' (first | with_reducible assumption | with_reducible apply scheduleSlices_wf | with_reducible apply setFlags_wf
                 | with_reducible apply fireAudit_wf | with_reducible apply fireRefill_wf | with_reducible apply fireWatchdog_wf
                 | with_reducible apply fireTelemetry_wf | with_reducible apply fireAdmit_wf | with_reducible apply fireDieSignal_wf | dsimp only
                 | split)

theorem setBooking_wf (s : State) (core : Option Nat) (i : Nat) (b : Booking) (hm : s.mem.wf = true) : (setBooking s core i b).mem.wf = true := by
  unfold setBooking
  repeat' (first | with_reducible assumption | (simp only [State.modCore_mem]) | dsimp only | split)

theorem dropOwed_wf (s : State) (core : Option Nat) (e : Nat × Booking) (hm : s.mem.wf = true) : (dropOwed s core e).mem.wf = true := by
  unfold dropOwed
  repeat' (first | with_reducible assumption | (simp only [State.modCore_mem]) | dsimp only | split)

theorem fireBooking_wf (s : State) (x : Firing) (b entry : Booking) (hm : s.mem.wf = true) : (fireBooking s x b entry).mem.wf = true := by
  unfold fireBooking
  repeat' (first | with_reducible assumption | with_reducible apply fireAction_wf | with_reducible apply setBooking_wf)

theorem fireOne_wf (s : State) (x : Firing) (hm : s.mem.wf = true) : (fireOne s x).mem.wf = true := by
  unfold fireOne
  repeat' (first | with_reducible assumption | with_reducible apply setBooking_wf | with_reducible apply dropOwed_wf
                 | with_reducible apply fireBooking_wf | dsimp only | split)

theorem execBookingFire_wf (s : State) (hm : s.mem.wf = true) : Keeps (execBookingFire s) := by
  unfold execBookingFire
  repeat' (first | with_reducible assumption | with_reducible apply fireOne_wf | with_reducible apply keeps_live | with_reducible apply foldl_wf
                 | with_reducible apply foldl_fst_wf | with_reducible apply foldl_snd_wf | dsimp only | split)

theorem execBook_wf (c : CoreId) (f : Fields) (s : State) (hm : s.mem.wf = true) : Keeps (execBook c f s) := by
  unfold execBook
  repeat' (first | with_reducible assumption | with_reducible apply refuse_wf | with_reducible apply issue_wf | with_reducible apply issued_wf
                 | with_reducible apply writeCoreBooking_wf | with_reducible apply keeps_live | dsimp only | split | (intro _))

theorem execBookrd_wf (c : CoreId) (f : Fields) (s : State) (hm : s.mem.wf = true) : Keeps (execBookrd c f s) := by
  unfold execBookrd
  repeat' (first | with_reducible assumption | with_reducible apply issue_wf | with_reducible apply keeps_live | (simp only [State.modCore_mem])
                 | dsimp only | split | (intro _))

theorem execBookrds_wf (c : CoreId) (f : Fields) (s : State) (hm : s.mem.wf = true) : Keeps (execBookrds c f s) := by
  unfold execBookrds
  repeat' (first | with_reducible assumption | with_reducible apply issue_wf | with_reducible apply keeps_live | (simp only [State.modCore_mem])
                 | dsimp only | split | (intro _))

/-! ### Carry -/

theorem answerMsg_wf (s : State) (m : Msg) (op : BitVec 4) (status : BitVec 4) (data : List Byte)
    (hm : s.mem.wf = true) : (answerMsg s m op status data).mem.wf = true := by
  unfold answerMsg
  repeat' (first | with_reducible assumption | with_reducible apply send_wf | dsimp only | split)

theorem setRx_wf (s : State) (p : PortId) (path : Path) (vc : Nat) (r : Option RxPart)
    (hm : s.mem.wf = true) : (setRx s p path vc r).mem.wf = true := by
  unfold setRx
  repeat' (first | with_reducible assumption | (simp only [State.modPort_mem]))

theorem messageDone_wf (s : State) (p : PortId) (path : Path) (vc : Nat) (r : RxPart)
    (hm : s.mem.wf = true) : (messageDone s p path vc r).mem.wf = true := by
  unfold messageDone
  repeat' (first | with_reducible assumption | with_reducible apply freeBuffers_wf | with_reducible apply protocolError_wf
                 | with_reducible apply answerMsg_wf | dsimp only | split)

theorem endUnfinished_wf (s : State) (p : PortId) (path : Path) (vc : Nat) (hm : s.mem.wf = true) : (endUnfinished s p path vc).mem.wf = true := by
  unfold endUnfinished
  repeat' (first | with_reducible assumption | with_reducible apply protocolError_wf | with_reducible apply dropMsgFlits_wf
                 | with_reducible apply setRx_wf | with_reducible apply foldl_wf | with_reducible apply foldl_fst_wf
                 | with_reducible apply foldl_snd_wf | (simp only [State.modPort_mem]) | dsimp only | split | (intro _))

theorem flitHere_wf (s : State) (p : PortId) (path : Path) (f : Flit) (hm : s.mem.wf = true) : (flitHere s p path f).mem.wf = true := by
  unfold flitHere
  repeat' (first | with_reducible assumption | with_reducible apply freeBuffers_wf | with_reducible apply protocolError_wf
                 | with_reducible apply setRx_wf | with_reducible apply messageDone_wf | dsimp only | split)

theorem flitThrough_wf (s : State) (p : PortId) (path : Path) (f : Flit) (hm : s.mem.wf = true) : (flitThrough s p path f).mem.wf = true := by
  unfold flitThrough
  repeat' (first | with_reducible assumption | with_reducible apply freeBuffers_wf | with_reducible apply answerMsg_wf
                 | with_reducible apply setRx_wf | dsimp only | split)

theorem takeFlit_wf (s : State) (p : PortId) (path : Path) (f : Flit) (hm : s.mem.wf = true) : (takeFlit s p path f).mem.wf = true := by
  unfold takeFlit
  repeat' (first | with_reducible assumption | with_reducible apply freeBuffers_wf | with_reducible apply endUnfinished_wf
                 | with_reducible apply flitHere_wf | with_reducible apply flitThrough_wf | dsimp only | split)

theorem sendNak_wf (s : State) (p : PortId) (path : Path) (hm : s.mem.wf = true) : (sendNak s p path).mem.wf = true := by
  unfold sendNak
  repeat' (first | with_reducible assumption | with_reducible apply putFlit_wf | with_reducible apply countPort_wf
                 | (simp only [State.modPort_mem]) | dsimp only | split)

theorem sequenced_wf (s : State) (p : PortId) (path : Path) (f : Flit) (hm : s.mem.wf = true) : (sequenced s p path f).mem.wf = true := by
  unfold sequenced
  repeat' (first | with_reducible assumption | with_reducible apply countPort_wf | with_reducible apply protocolError_wf
                 | with_reducible apply heard_wf | with_reducible apply portReset_wf | with_reducible apply takeFlit_wf
                 | with_reducible apply sendNak_wf | (simp only [State.setPort_mem, State.modPort_mem]) | dsimp only | split)

theorem execMsgFlitReceive_wf (p : PortId) (path : Path) (flit : Flit) (s : State)
    (hm : s.mem.wf = true) : Keeps (execMsgFlitReceive p path flit s) := by
  unfold execMsgFlitReceive
  repeat' (first | with_reducible assumption | with_reducible apply countPort_wf | with_reducible apply protocolError_wf
                 | with_reducible apply takeTrailer_wf | with_reducible apply confirmInit_wf | with_reducible apply tryActive_wf
                 | with_reducible apply sendNak_wf | with_reducible apply sequenced_wf | with_reducible apply keeps_awake | exact keeps_fault _
                 | dsimp only | split)

theorem sendFlit_wf (s : State) (p : PortId) (path : Path) (vc : Nat) (f : Flit) (hm : s.mem.wf = true) : (sendFlit s p path vc f).mem.wf = true := by
  unfold sendFlit
  repeat' (first | with_reducible assumption | with_reducible apply putFlit_wf | (simp only [State.modPort_mem]))

theorem sendItem_wf (s : State) (p : PortId) (path : Path) (vc : Nat) (t : TxMsg)
    (hm : s.mem.wf = true) : (sendItem s p path vc t).mem.wf = true := by
  unfold sendItem
  repeat' (first | with_reducible assumption | with_reducible apply modBucket_wf | with_reducible apply freeBuffers_wf
                 | with_reducible apply sendFlit_wf | (simp only [State.modPort_mem]) | dsimp only | split)

theorem countStarved_wf (s : State) (p : PortId) (path : Path) (hm : s.mem.wf = true) : (countStarved s p path).mem.wf = true := by
  unfold countStarved
  repeat' (first | with_reducible assumption | with_reducible apply modBucket_wf | with_reducible apply foldl_wf
                 | with_reducible apply foldl_fst_wf | with_reducible apply foldl_snd_wf | dsimp only | split | (intro _))

theorem execFlitTransmit_wf (p : PortId) (path : Path) (s : State) (hm : s.mem.wf = true) : Keeps (execFlitTransmit p path s) := by
  unfold execFlitTransmit
  repeat' (first | with_reducible assumption | with_reducible apply putFlit_wf | with_reducible apply countPort_wf
                 | with_reducible apply sendItem_wf | with_reducible apply countStarved_wf | with_reducible apply keeps_awake
                 | (simp only [State.setPort_mem, State.modPort_mem]) | dsimp only | split)

theorem execQueuedMessageReroute_wf (s : State) (hm : s.mem.wf = true) : Keeps (execQueuedMessageReroute s) := by
  unfold execQueuedMessageReroute
  repeat' (first | with_reducible assumption | with_reducible apply settle_wf | with_reducible apply freeBuffers_wf
                 | with_reducible apply answerMsg_wf | with_reducible apply setRx_wf | with_reducible apply keeps_awake | dsimp only | split)

theorem execRequestTimeout_wf (tag : BitVec 12) (s : State) (hm : s.mem.wf = true) : Keeps (execRequestTimeout tag s) := by
  unfold execRequestTimeout
  repeat' (first | with_reducible assumption | with_reducible apply raiseRec_wf | with_reducible apply failStep_wf | with_reducible apply settle_wf
                 | with_reducible apply keeps_awake | dsimp only | split)

end Sys2Proof.Machine
end

