-- ==== Sys2Proof/Laws/CanonicalHost.lean ====
section
/-! SUPPORT. The memory keeps its canonical form under the mailboxes, administration, partitions, images, peers, registers and boot. -/

namespace Sys2Proof.Machine

/-! ### Mailbox -/

theorem hostWrite_wf (s : State) (mb off : Nat) (data : List Byte) (hm : s.mem.wf = true) : (hostWrite s mb off data).mem.wf = true := by
  unfold hostWrite
  repeat' (first | with_reducible assumption | (simp only [State.modMailbox_mem]))

theorem mbReply_wf (s : State) (m : Msg) (status : BitVec 4) (data : List Byte) (hm : s.mem.wf = true) : (mbReply s m status data).mem.wf = true := by
  unfold mbReply
  repeat' (first | with_reducible assumption | with_reducible apply answerMsg_wf)

theorem mailboxMessage_wf (s : State) (m : Msg) (hm : s.mem.wf = true) : (mailboxMessage s m).mem.wf = true := by
  unfold mailboxMessage
  repeat' (first | with_reducible assumption | with_reducible apply raiseUnit_wf | with_reducible apply takeMsg_wf
                 | with_reducible apply hostWrite_wf | with_reducible apply mbReply_wf | (simp only [State.modMailbox_mem]) | dsimp only | split)

theorem execMbWrite_wf (m : Msg) (s : State) (hm : s.mem.wf = true) : Keeps (execMbWrite m s) := by
  unfold execMbWrite
  repeat' (first | with_reducible assumption | with_reducible apply mailboxMessage_wf | with_reducible apply keeps_live)

theorem execMbRead_wf (m : Msg) (s : State) (hm : s.mem.wf = true) : Keeps (execMbRead m s) := by
  unfold execMbRead
  repeat' (first | with_reducible assumption | with_reducible apply mailboxMessage_wf | with_reducible apply keeps_live)

theorem execReqTailWrite_wf (mb : Fin 16) (v : Word) (s : State) (hm : s.mem.wf = true) : Keeps (execReqTailWrite mb v s) := by
  unfold execReqTailWrite
  repeat' (first | with_reducible assumption | with_reducible apply hostWrite_wf | with_reducible apply keeps_live)

theorem execRspHeadWrite_wf (mb : Fin 16) (v : Word) (s : State) (hm : s.mem.wf = true) : Keeps (execRspHeadWrite mb v s) := by
  unfold execRspHeadWrite
  repeat' (first | with_reducible assumption | with_reducible apply hostWrite_wf | with_reducible apply keeps_live)

theorem execDoorbell_wf (mb : Fin 16) (s : State) (hm : s.mem.wf = true) : Keeps (execDoorbell mb s) := by
  unfold execDoorbell
  repeat' (first | with_reducible assumption | with_reducible apply hostWrite_wf | with_reducible apply keeps_live)

theorem execCommandAccept_wf (mb : Fin 16) (s : State) (hm : s.mem.wf = true) : Keeps (execCommandAccept mb s) := by
  unfold execCommandAccept
  repeat' (first | with_reducible assumption | with_reducible apply keeps_live | (simp only [State.modMailbox_mem]) | dsimp only | split)

theorem execMailboxPoll_wf (mb : Fin 16) (s : State) (hm : s.mem.wf = true) : Keeps (execMailboxPoll mb s) := by
  unfold execMailboxPoll
  repeat' (first | with_reducible assumption | with_reducible apply keeps_live | (simp only [State.modMailbox_mem]) | dsimp only | split)

theorem postResponse_wf (s : State) (mb : Nat) (c : Cmd) (st : BitVec 16) (payload : List Byte)
    (hm : s.mem.wf = true) : (postResponse s mb c st payload).mem.wf = true := by
  unfold postResponse
  repeat' (first | with_reducible assumption | with_reducible apply fwEvent_wf | with_reducible apply foldl_wf | with_reducible apply foldl_fst_wf
                 | with_reducible apply foldl_snd_wf | (simp only [State.modMailbox_mem]) | dsimp only | split)

theorem postSlot_wf (s : State) (mb slot : Nat) (hm : s.mem.wf = true) : (postSlot s mb slot).mem.wf = true := by
  unfold postSlot
  repeat' (first | with_reducible assumption | with_reducible apply raiseUnit_wf | with_reducible apply postResponse_wf | dsimp only | split)

theorem execMbPost_wf (mb : Fin 16) (slot : BitVec 6) (s : State) (hm : s.mem.wf = true) : Keeps (execMbPost mb slot s) := by
  unfold execMbPost
  repeat' (first | with_reducible assumption | with_reducible apply postSlot_wf | with_reducible apply keeps_live | dsimp only | split)

theorem execMbNotify_wf (mb : Fin 16) (s : State) (hm : s.mem.wf = true) : Keeps (execMbNotify mb s) := by
  unfold execMbNotify
  repeat' (first | with_reducible assumption | with_reducible apply send_wf | with_reducible apply keeps_live | (simp only [State.setMailbox_mem])
                 | dsimp only | split)

theorem execHeartbeatTick_wf (s : State) (hm : s.mem.wf = true) : Keeps (execHeartbeatTick s) := by
  unfold execHeartbeatTick
  repeat' (first | with_reducible assumption | with_reducible apply keeps_live | with_reducible apply foldl_wf | with_reducible apply foldl_fst_wf
                 | with_reducible apply foldl_snd_wf | (simp only [State.modMailbox_mem]) | dsimp only | split | (intro _))

theorem stopSkovi_wf (s : State) (hm : s.mem.wf = true) : (stopSkovi s).mem.wf = true := by
  unfold stopSkovi
  repeat' (first | with_reducible assumption | with_reducible apply foldl_wf | with_reducible apply foldl_fst_wf
                 | with_reducible apply foldl_snd_wf | (simp only [State.modMailbox_mem]) | dsimp only | split | (intro _))

theorem execSkoviRestart_wf (cause : RestartCause) (s : State) (hm : s.mem.wf = true) : Keeps (execSkoviRestart cause s) := by
  unfold execSkoviRestart
  repeat' (first | with_reducible assumption | with_reducible apply raiseUnit_wf | with_reducible apply stopSkovi_wf
                 | with_reducible apply keeps_live | dsimp only | split)

theorem restartMailbox_wf (s : State) (mb : Nat) (hm : s.mem.wf = true) : (restartMailbox s mb).mem.wf = true := by
  unfold restartMailbox
  repeat' (first | with_reducible assumption | with_reducible apply unstage_wf | with_reducible apply postResponse_wf
                 | with_reducible apply foldl_wf | with_reducible apply foldl_fst_wf | with_reducible apply foldl_snd_wf
                 | (simp only [State.modMailbox_mem]) | dsimp only | split | (intro _))

theorem forgetWaiters_wf (s : State) (hm : s.mem.wf = true) : (forgetWaiters s).mem.wf = true := by
  unfold forgetWaiters
  repeat' (first | with_reducible assumption)

theorem execSkoviRestartDone_wf (s : State) (hm : s.mem.wf = true) : Keeps (execSkoviRestartDone s) := by
  unfold execSkoviRestartDone
  repeat' (first | with_reducible assumption | with_reducible apply persistentFault_wf | with_reducible apply restartMailbox_wf
                 | with_reducible apply forgetWaiters_wf | with_reducible apply keeps_live | with_reducible apply foldl_wf
                 | with_reducible apply foldl_fst_wf | with_reducible apply foldl_snd_wf | dsimp only | split)

theorem execFwActivateFallback_wf (s : State) (hm : s.mem.wf = true) : Keeps (execFwActivateFallback s) := by
  unfold execFwActivateFallback
  repeat' (first | with_reducible assumption | with_reducible apply keeps_live | dsimp only | split)

/-! ### Command -/

theorem serve_wf (s : State) (mb : Nat) (hm : s.mem.wf = true) : (serve s mb).mem.wf = true := by
  unfold serve
  repeat' (first | with_reducible assumption | dsimp only | split)

theorem runCmd_wf (s : State) (mb : Nat) (i : BitVec 16) (op : Nat) (layout : List Byte → Layout) (f : List Byte → State)
    (hm : s.mem.wf = true) (hf : ∀ x, (f x).mem.wf = true) : (runCmd s mb i op layout f).mem.wf = true := by
  unfold runCmd
  repeat' (first | with_reducible assumption | with_reducible apply serve_wf | with_reducible apply answer_wf | with_reducible apply hf
                 | dsimp only | split)

theorem modCmd_wf (s : State) (mb : Nat) (i : BitVec 16) (f : Cmd → Cmd) (hm : s.mem.wf = true) : (modCmd s mb i f).mem.wf = true := by
  unfold modCmd
  repeat' (first | with_reducible assumption | (simp only [State.modMailbox_mem]))

theorem toPhase_wf (s : State) (mb : Nat) (i : BitVec 16) (n : Nat) (hm : s.mem.wf = true) : (toPhase s mb i n).mem.wf = true := by
  unfold toPhase
  repeat' (first | with_reducible assumption | with_reducible apply modCmd_wf)

theorem finishCmd_wf (s : State) (mb : Nat) (c : Cmd) (st : BitVec 16) (payload : List Byte)
    (hm : s.mem.wf = true) : (finishCmd s mb c st payload).mem.wf = true := by
  unfold finishCmd
  repeat' (first | with_reducible assumption | with_reducible apply dropTransfers_wf | with_reducible apply answer_wf)

theorem runStaged_wf (s : State) (mb : Nat) (i : BitVec 16) (op : Nat) (layout : List Byte → Layout) (start : List Byte → State)
    (next : State → Cmd → State) (hm : s.mem.wf = true) (hf : ∀ x, (start x).mem.wf = true)
    (hn : ∀ s c, s.mem.wf = true → (next s c).mem.wf = true) : (runStaged s mb i op layout start next).mem.wf = true := by
  unfold runStaged
  have h := runCmd_wf s mb i op layout start hm hf
  revert h
  generalize runCmd s mb i op layout start = t
  intro h
  repeat' (first | with_reducible assumption | with_reducible apply hn | dsimp only | split)

theorem execUnknownOpcodeCommand_wf (mb : Fin 16) (i : BitVec 16) (s : State) (hm : s.mem.wf = true) : Keeps (execUnknownOpcodeCommand mb i s) := by
  unfold execUnknownOpcodeCommand
  repeat' (first | with_reducible assumption | with_reducible apply answer_wf | with_reducible apply serve_wf | with_reducible apply keeps_live
                 | dsimp only | split)

theorem readBulk_wf (s : State) (mb : Nat) (i : BitVec 16) (r : BulkRef) (n : Nat) (hm : s.mem.wf = true) : (readBulk s mb i r n).mem.wf = true := by
  unfold readBulk
  repeat' (first | with_reducible assumption | with_reducible apply startTransfer_wf | with_reducible apply toPhase_wf)

theorem writeBulk_wf (s : State) (mb : Nat) (i : BitVec 16) (r : BulkRef) (data report : List Byte)
    (hm : s.mem.wf = true) : (writeBulk s mb i r data report).mem.wf = true := by
  unfold writeBulk
  repeat' (first | with_reducible assumption | with_reducible apply startTransfer_wf | with_reducible apply modCmd_wf
                 | with_reducible apply toPhase_wf)

theorem bulkWritten_wf (mb : Nat) (g : State → State) (s : State) (c : Cmd)
    (hm : s.mem.wf = true) (hg : ∀ x0, x0.mem.wf = true → (g x0).mem.wf = true) : (bulkWritten mb g s c).mem.wf = true := by
  unfold bulkWritten
  repeat' (first | with_reducible assumption | with_reducible apply finishCmd_wf | apply hg | dsimp only | split)

/-! ### Admin -/

theorem execIdentify_wf (mb : Fin 16) (i : BitVec 16) (s : State) (hm : s.mem.wf = true) : Keeps (execIdentify mb i s) := by
  unfold execIdentify
  repeat' (first | with_reducible assumption | with_reducible apply answer_wf | with_reducible apply runCmd_wf | with_reducible apply keeps_live
                 | dsimp only | split | (intro _))

theorem execFwInfo_wf (mb : Fin 16) (i : BitVec 16) (s : State) (hm : s.mem.wf = true) : Keeps (execFwInfo mb i s) := by
  unfold execFwInfo
  repeat' (first | with_reducible assumption | with_reducible apply answer_wf | with_reducible apply runCmd_wf | with_reducible apply keeps_live
                 | dsimp only | split | (intro _))

theorem execDieState_wf (mb : Fin 16) (i : BitVec 16) (s : State) (hm : s.mem.wf = true) : Keeps (execDieState mb i s) := by
  unfold execDieState
  repeat' (first | with_reducible assumption | with_reducible apply answer_wf | with_reducible apply runCmd_wf | with_reducible apply keeps_live
                 | dsimp only | split | (intro _))

theorem execMastStatus_wf (mb : Fin 16) (i : BitVec 16) (s : State) (hm : s.mem.wf = true) : Keeps (execMastStatus mb i s) := by
  unfold execMastStatus
  repeat' (first | with_reducible assumption | with_reducible apply answer_wf | with_reducible apply runCmd_wf | with_reducible apply keeps_live
                 | dsimp only | split | (intro _))

theorem execLinkStatus_wf (mb : Fin 16) (i : BitVec 16) (s : State) (hm : s.mem.wf = true) : Keeps (execLinkStatus mb i s) := by
  unfold execLinkStatus
  repeat' (first | with_reducible assumption | with_reducible apply answer_wf | with_reducible apply runCmd_wf | with_reducible apply keeps_live
                 | dsimp only | split | (intro _))

theorem execPeerTable_wf (mb : Fin 16) (i : BitVec 16) (x : Carried) (s : State) (hm : s.mem.wf = true) : Keeps (execPeerTable mb i x s) := by
  unfold execPeerTable
  repeat' (first | with_reducible assumption | with_reducible apply answer_wf | with_reducible apply refreshRoutes_wf
                 | with_reducible apply runStaged_wf | with_reducible apply writeBulk_wf | with_reducible apply bulkWritten_wf
                 | with_reducible apply keeps_live | dsimp only | split | (intro _))

theorem execPartQuery_wf (mb : Fin 16) (i : BitVec 16) (s : State) (hm : s.mem.wf = true) : Keeps (execPartQuery mb i s) := by
  unfold execPartQuery
  repeat' (first | with_reducible assumption | with_reducible apply answer_wf | with_reducible apply runCmd_wf | with_reducible apply keeps_live
                 | dsimp only | split | (intro _))

theorem execTelemetry_wf (mb : Fin 16) (i : BitVec 16) (x : Carried) (s : State) (hm : s.mem.wf = true) : Keeps (execTelemetry mb i x s) := by
  unfold execTelemetry
  repeat' (first | with_reducible assumption | with_reducible apply answer_wf | with_reducible apply countConflicts_wf
                 | with_reducible apply runStaged_wf | with_reducible apply writeBulk_wf | with_reducible apply bulkWritten_wf
                 | with_reducible apply keeps_live | with_reducible apply id_wf | dsimp only | split | (intro _))

theorem execErrlogRead_wf (mb : Fin 16) (i : BitVec 16) (x : Carried) (s : State) (hm : s.mem.wf = true) : Keeps (execErrlogRead mb i x s) := by
  unfold execErrlogRead
  repeat' (first | with_reducible assumption | with_reducible apply answer_wf | with_reducible apply runStaged_wf
                 | with_reducible apply writeBulk_wf | with_reducible apply bulkWritten_wf | with_reducible apply keeps_next
                 | with_reducible apply keeps_live | with_reducible apply id_wf | dsimp only | split | (intro _))

theorem execErrlogClear_wf (mb : Fin 16) (i : BitVec 16) (s : State) (hm : s.mem.wf = true) : Keeps (execErrlogClear mb i s) := by
  unfold execErrlogClear
  repeat' (first | with_reducible assumption | with_reducible apply answer_wf | with_reducible apply runCmd_wf | with_reducible apply keeps_live
                 | dsimp only | split | (intro _))

theorem execArrayMap_wf (mb : Fin 16) (i : BitVec 16) (s : State) (hm : s.mem.wf = true) : Keeps (execArrayMap mb i s) := by
  unfold execArrayMap
  repeat' (first | with_reducible assumption | with_reducible apply answer_wf | with_reducible apply runCmd_wf | with_reducible apply keeps_live
                 | dsimp only | split | (intro _))

theorem stageFirmware_wf (mb : Nat) (s : State) (c : Cmd) (hm : s.mem.wf = true) : (stageFirmware mb s c).mem.wf = true := by
  unfold stageFirmware
  repeat' (first | with_reducible assumption | with_reducible apply finishCmd_wf | dsimp only | split)

theorem execFwStage_wf (mb : Fin 16) (i : BitVec 16) (x : Carried) (s : State) (hm : s.mem.wf = true) : Keeps (execFwStage mb i x s) := by
  unfold execFwStage
  repeat' (first | with_reducible assumption | with_reducible apply answer_wf | with_reducible apply runStaged_wf
                 | with_reducible apply readBulk_wf | with_reducible apply stageFirmware_wf | with_reducible apply keeps_live | dsimp only | split
                 | (intro _))

theorem execFwActivate_wf (mb : Fin 16) (i : BitVec 16) (s : State) (hm : s.mem.wf = true) : Keeps (execFwActivate mb i s) := by
  unfold execFwActivate
  repeat' (first | with_reducible assumption | with_reducible apply answer_wf | with_reducible apply runCmd_wf | with_reducible apply keeps_live
                 | dsimp only | split | (intro _))

theorem execWarmReset_wf (mb : Fin 16) (i : BitVec 16) (s : State) (hm : s.mem.wf = true) : Keeps (execWarmReset mb i s) := by
  unfold execWarmReset
  repeat' (first | with_reducible assumption | with_reducible apply answer_wf | with_reducible apply runCmd_wf | with_reducible apply keeps_live
                 | dsimp only | split | (intro _))

theorem schedulePeriod_wf (s : State) (p : BitVec 10) (e : Word) (hm : s.mem.wf = true) : (schedulePeriod s p e).mem.wf = true := by
  unfold schedulePeriod
  repeat' (first | with_reducible assumption | with_reducible apply bookRefresh_wf)

theorem execMastConfig_wf (mb : Fin 16) (i : BitVec 16) (s : State) (hm : s.mem.wf = true) : Keeps (execMastConfig mb i s) := by
  unfold execMastConfig
  repeat' (first | with_reducible assumption | with_reducible apply answer_wf | with_reducible apply runCmd_wf
                 | with_reducible apply schedulePeriod_wf | with_reducible apply keeps_live | dsimp only | split | (intro _))

theorem execLinkReset_wf (mb : Fin 16) (i : BitVec 16) (s : State) (hm : s.mem.wf = true) : Keeps (execLinkReset mb i s) := by
  unfold execLinkReset
  repeat' (first | with_reducible assumption | with_reducible apply answer_wf | with_reducible apply portReset_wf | with_reducible apply runCmd_wf
                 | with_reducible apply keeps_live | dsimp only | split | (intro _))

theorem execDieFence_wf (mb : Fin 16) (i : BitVec 16) (s : State) (hm : s.mem.wf = true) : Keeps (execDieFence mb i s) := by
  unfold execDieFence
  repeat' (first | with_reducible assumption | with_reducible apply answer_wf | with_reducible apply fenceEntry_wf
                 | with_reducible apply sendFence_wf | with_reducible apply runCmd_wf | with_reducible apply keeps_live | dsimp only | split
                 | (intro _))

theorem execDieReinstate_wf (mb : Fin 16) (i : BitVec 16) (s : State) (hm : s.mem.wf = true) : Keeps (execDieReinstate mb i s) := by
  unfold execDieReinstate
  repeat' (first | with_reducible assumption | with_reducible apply answer_wf | with_reducible apply reinstateEntry_wf
                 | with_reducible apply sendFence_wf | with_reducible apply runCmd_wf | with_reducible apply keeps_live | dsimp only | split
                 | (intro _))

theorem execQosSet_wf (mb : Fin 16) (i : BitVec 16) (s : State) (hm : s.mem.wf = true) : Keeps (execQosSet mb i s) := by
  unfold execQosSet
  repeat' (first | with_reducible assumption | with_reducible apply answer_wf | with_reducible apply armRefill_wf | with_reducible apply runCmd_wf
                 | with_reducible apply keeps_live | with_reducible apply foldl_wf | with_reducible apply foldl_fst_wf
                 | with_reducible apply foldl_snd_wf | (simp only [State.modPart_mem]) | dsimp only | split | (intro _))

theorem coreDown_wf (s : State) (c : Nat) (hm : s.mem.wf = true) : (coreDown s c).mem.wf = true := by
  unfold coreDown
  repeat' (first | with_reducible assumption | with_reducible apply launchCore_wf | (simp only [State.modCore_mem]))

theorem layerDown_wf (s : State) (l : Nat) (hm : s.mem.wf = true) : (layerDown s l).mem.wf = true := by
  unfold layerDown
  repeat' (first | with_reducible assumption | with_reducible apply zeroRange_wf | dsimp only | split | (intro _)
                 | (refine fst_wf (by assumption) ?_) | (refine snd_wf (by assumption) ?_)
                 | (exact wf_mk _ _ _ _ _ _ _ _ _ _ _ _ (by with_reducible assumption))
                 | (exact wf_mk _ _ _ _ _ _ _ _ _ _ _ _ (zeroRange_wf _ _ _ (by with_reducible assumption))))

theorem finishPlan_wf (s : State) (mb : Nat) (c : Cmd) (hm : s.mem.wf = true) : (finishPlan s mb c).mem.wf = true := by
  unfold finishPlan
  repeat' (first | with_reducible assumption | with_reducible apply answer_wf | with_reducible apply portEnable_wf | with_reducible apply foldl_wf
                 | with_reducible apply foldl_fst_wf | with_reducible apply foldl_snd_wf | dsimp only | split | (intro _))

theorem settlePlan_wf (s : State) (hm : s.mem.wf = true) : (settlePlan s).mem.wf = true := by
  unfold settlePlan
  repeat' (first | with_reducible assumption | with_reducible apply finishPlan_wf | dsimp only | split)

theorem execPowerPlan_wf (mb : Fin 16) (i : BitVec 16) (s : State) (hm : s.mem.wf = true) : Keeps (execPowerPlan mb i s) := by
  unfold execPowerPlan
  apply keeps_live hm
  apply runCmd_wf _ _ _ _ _ _ hm
  intro p
  dsimp only
  split
  · exact answer_wf _ _ _ _ _ hm
  split
  · exact answer_wf _ _ _ _ _ hm
  apply settlePlan_wf
  rw [State.modMailbox_mem]
  refine wf_mk _ _ _ _ _ _ _ _ _ _ _ _ ?_
  apply foldl_wf
  · apply foldl_wf
    · apply foldl_wf
      · exact hm
      · intro s x h; exact coreDown_wf _ _ h
    · intro s x h; exact layerDown_wf _ _ h
  · intro s x h
    split
    · exact h
    · exact portDisable_wf _ _ h

theorem execLayerPowerUpDone_wf (l : Fin 12) (s : State) (hm : s.mem.wf = true) : Keeps (execLayerPowerUpDone l s) := by
  unfold execLayerPowerUpDone
  repeat' (first | with_reducible assumption | with_reducible apply zeroRange_wf | with_reducible apply settlePlan_wf
                 | with_reducible apply keeps_live | dsimp only | split | (intro _) | (refine fst_wf (by assumption) ?_)
                 | (refine snd_wf (by assumption) ?_) | (exact wf_mk _ _ _ _ _ _ _ _ _ _ _ _ (by with_reducible assumption))
                 | (exact wf_mk _ _ _ _ _ _ _ _ _ _ _ _ (zeroRange_wf _ _ _ (by with_reducible assumption))))

theorem execCorePowerUpDone_wf (c : CoreId) (s : State) (hm : s.mem.wf = true) : Keeps (execCorePowerUpDone c s) := by
  unfold execCorePowerUpDone
  apply keeps_live hm
  dsimp only
  split
  · exact hm
  apply settlePlan_wf
  refine wf_mk _ _ _ _ _ _ _ _ _ _ _ _ ?_
  rw [State.modCore_mem]
  exact launchCore_wf _ _ hm

theorem execDebugChallenge_wf (mb : Fin 16) (i : BitVec 16) (s : State) (hm : s.mem.wf = true) : Keeps (execDebugChallenge mb i s) := by
  unfold execDebugChallenge
  repeat' (first | with_reducible assumption | with_reducible apply answer_wf | with_reducible apply runCmd_wf | with_reducible apply keeps_live
                 | dsimp only | split | (intro _))

theorem execDebugUnlock_wf (mb : Fin 16) (i : BitVec 16) (s : State) (hm : s.mem.wf = true) : Keeps (execDebugUnlock mb i s) := by
  unfold execDebugUnlock
  repeat' (first | with_reducible assumption | with_reducible apply answer_wf | with_reducible apply runCmd_wf | with_reducible apply keeps_live
                 | dsimp only | split | (intro _))

theorem execDebugChallengeExpiry_wf (s : State) (hm : s.mem.wf = true) : Keeps (execDebugChallengeExpiry s) := by
  unfold execDebugChallengeExpiry
  repeat' (first | with_reducible assumption | with_reducible apply keeps_live | dsimp only | split)

/-! ### Partition -/

theorem createPart_wf (s : State) (col : Nat) (cores : BitVec 48) (granules : List Nat) (counters : List Nat) (first count : Nat)
    (hm : s.mem.wf = true) : (createPart s col cores granules counters first count).mem.wf = true := by
  unfold createPart
  repeat' (first | with_reducible assumption | with_reducible apply rebuildRegions_wf | with_reducible apply launchCore_wf
                 | with_reducible apply foldl_wf | with_reducible apply foldl_fst_wf | with_reducible apply foldl_snd_wf
                 | (simp only [State.modCore_mem, State.setPart_mem, State.setMailbox_mem]))

theorem execPartCreate_wf (mb : Fin 16) (i : BitVec 16) (s : State) (hm : s.mem.wf = true) : Keeps (execPartCreate mb i s) := by
  unfold execPartCreate
  repeat' (first | with_reducible assumption | with_reducible apply answer_wf | with_reducible apply runCmd_wf | with_reducible apply createPart_wf
                 | with_reducible apply keeps_live | dsimp only | split | (intro _))

theorem waitReset_wf (s : State) (mb : Nat) (i : BitVec 16) (col : Nat) (st : BitVec 16)
    (hm : s.mem.wf = true) : (waitReset s mb i col st).mem.wf = true := by
  unfold waitReset
  repeat' (first | with_reducible assumption | (simp only [State.modPart_mem, State.modMailbox_mem]))

theorem execPartDestroy_wf (mb : Fin 16) (i : BitVec 16) (s : State) (hm : s.mem.wf = true) : Keeps (execPartDestroy mb i s) := by
  unfold execPartDestroy
  repeat' (first | with_reducible assumption | with_reducible apply touch_wf | with_reducible apply answer_wf | with_reducible apply beginReset_wf
                 | with_reducible apply cutCommands_wf | with_reducible apply destroyPart_wf | with_reducible apply runCmd_wf
                 | with_reducible apply waitReset_wf | with_reducible apply keeps_live | (simp only [State.modPart_mem]) | dsimp only | split
                 | (intro _))

theorem execPartReset_wf (mb : Fin 16) (i : BitVec 16) (s : State) (hm : s.mem.wf = true) : Keeps (execPartReset mb i s) := by
  unfold execPartReset
  repeat' (first | with_reducible assumption | with_reducible apply answer_wf | with_reducible apply beginReset_wf
                 | with_reducible apply cutCommands_wf | with_reducible apply runCmd_wf | with_reducible apply waitReset_wf
                 | with_reducible apply keeps_live | dsimp only | split | (intro _))

theorem fwReads_wf (s : State) (rs : List (Nat × Nat)) (hm : s.mem.wf = true) : (fwReads s rs).mem.wf = true := by
  unfold fwReads
  repeat' (first | with_reducible assumption | with_reducible apply detectRemote_wf | with_reducible apply foldl_wf
                 | with_reducible apply foldl_fst_wf | with_reducible apply foldl_snd_wf | dsimp only | split | (intro _))

theorem execRqCreate_wf (mb : Fin 16) (i : BitVec 16) (s : State) (hm : s.mem.wf = true) : Keeps (execRqCreate mb i s) := by
  unfold execRqCreate
  repeat' (first | with_reducible assumption | with_reducible apply answer_wf | with_reducible apply rebuildRegions_wf
                 | with_reducible apply runCmd_wf | with_reducible apply keeps_live | dsimp only | split | (intro _))

theorem execRqBind_wf (mb : Fin 16) (i : BitVec 16) (s : State) (hm : s.mem.wf = true) : Keeps (execRqBind mb i s) := by
  unfold execRqBind
  repeat' (first | with_reducible assumption | with_reducible apply answer_wf | with_reducible apply runCmd_wf | with_reducible apply fwReads_wf
                 | with_reducible apply keeps_live | (simp only [State.setRqueue_mem]) | dsimp only | split | (intro _))

theorem execIndexAttach_wf (mb : Fin 16) (i : BitVec 16) (s : State) (hm : s.mem.wf = true) : Keeps (execIndexAttach mb i s) := by
  unfold execIndexAttach
  repeat' (first | with_reducible assumption | with_reducible apply answer_wf | with_reducible apply runCmd_wf | with_reducible apply fwReads_wf
                 | with_reducible apply keeps_live | with_reducible apply foldl_wf | with_reducible apply foldl_fst_wf
                 | with_reducible apply foldl_snd_wf | (simp only [State.modPart_mem]) | dsimp only | split | (intro _))

theorem execIndexDetach_wf (mb : Fin 16) (i : BitVec 16) (s : State) (hm : s.mem.wf = true) : Keeps (execIndexDetach mb i s) := by
  unfold execIndexDetach
  repeat' (first | with_reducible assumption | with_reducible apply answer_wf | with_reducible apply runCmd_wf | with_reducible apply keeps_live
                 | (simp only [State.modPart_mem]) | dsimp only | split | (intro _))

theorem installVector_wf (col : Nat) (s : State) (x : Nat × List Byte) (hm : s.mem.wf = true) : (installVector col s x).mem.wf = true := by
  unfold installVector
  repeat' (first | with_reducible assumption | with_reducible apply formIntr_wf | (simp only [State.modPart_mem]) | dsimp only | split)

theorem execIntrConfig_wf (mb : Fin 16) (i : BitVec 16) (s : State) (hm : s.mem.wf = true) : Keeps (execIntrConfig mb i s) := by
  unfold execIntrConfig
  repeat' (first | with_reducible assumption | with_reducible apply answer_wf | with_reducible apply runCmd_wf
                 | with_reducible apply installVector_wf | with_reducible apply keeps_live | with_reducible apply foldl_wf
                 | with_reducible apply foldl_fst_wf | with_reducible apply foldl_snd_wf | dsimp only | split | (intro _))

theorem execReplayPolicy_wf (mb : Fin 16) (i : BitVec 16) (s : State) (hm : s.mem.wf = true) : Keeps (execReplayPolicy mb i s) := by
  unfold execReplayPolicy
  repeat' (first | with_reducible assumption | with_reducible apply answer_wf | with_reducible apply runCmd_wf | with_reducible apply keeps_live
                 | (simp only [State.modPart_mem]) | dsimp only | split | (intro _))

theorem retestArrays_wf (s : State) (g : Image) (rs : List ArrayReport) (hm : s.mem.wf = true) : (retestArrays s g rs).mem.wf = true := by
  unfold retestArrays
  repeat' (first | with_reducible assumption | with_reducible apply foldl_wf | with_reducible apply foldl_fst_wf
                 | with_reducible apply foldl_snd_wf | (simp only [State.modCore_mem]) | dsimp only | split | (intro _))

theorem beginLaunch_wf (s : State) (mb : Nat) (i : BitVec 16) (p : List Byte) (hm : s.mem.wf = true) : (beginLaunch s mb i p).mem.wf = true := by
  unfold beginLaunch
  repeat' (first | with_reducible assumption | with_reducible apply answer_wf | with_reducible apply fwAsk_wf | with_reducible apply modCmd_wf
                 | with_reducible apply toPhase_wf | with_reducible apply foldl_wf | with_reducible apply foldl_fst_wf
                 | with_reducible apply foldl_snd_wf | dsimp only | split | (intro _))

theorem endLaunch_wf (mb : Nat) (retests : List ArrayReport) (s : State) (c : Cmd)
    (hm : s.mem.wf = true) : (endLaunch mb retests s c).mem.wf = true := by
  unfold endLaunch
  repeat' (first | with_reducible assumption | with_reducible apply launchSteps_wf | with_reducible apply checkArrays_wf
                 | with_reducible apply finishCmd_wf | with_reducible apply retestArrays_wf | dsimp only | split)

theorem execJobLaunch_wf (mb : Fin 16) (i : BitVec 16) (x : Carried) (retests : List ArrayReport) (s : State)
    (hm : s.mem.wf = true) : Keeps (execJobLaunch mb i x retests s) := by
  unfold execJobLaunch
  repeat' (first | with_reducible assumption | with_reducible apply runStaged_wf | with_reducible apply beginLaunch_wf
                 | with_reducible apply endLaunch_wf | with_reducible apply keeps_live | dsimp only | split | (intro _))

theorem execJobAbort_wf (mb : Fin 16) (i : BitVec 16) (s : State) (hm : s.mem.wf = true) : Keeps (execJobAbort mb i s) := by
  unfold execJobAbort
  repeat' (first | with_reducible assumption | with_reducible apply answer_wf | with_reducible apply beginReset_wf | with_reducible apply runCmd_wf
                 | with_reducible apply waitReset_wf | with_reducible apply keeps_live | (simp only [State.modPart_mem]) | dsimp only | split
                 | (intro _))

theorem execJobStatus_wf (mb : Fin 16) (i : BitVec 16) (s : State) (hm : s.mem.wf = true) : Keeps (execJobStatus mb i s) := by
  unfold execJobStatus
  repeat' (first | with_reducible assumption | with_reducible apply answer_wf | with_reducible apply runCmd_wf | with_reducible apply keeps_live
                 | dsimp only | split | (intro _))

theorem execPartTelemetry_wf (mb : Fin 16) (i : BitVec 16) (x : Carried) (s : State) (hm : s.mem.wf = true) : Keeps (execPartTelemetry mb i x s) := by
  unfold execPartTelemetry
  repeat' (first | with_reducible assumption | with_reducible apply answer_wf | with_reducible apply runStaged_wf
                 | with_reducible apply writeBulk_wf | with_reducible apply bulkWritten_wf | with_reducible apply keeps_live
                 | with_reducible apply id_wf | dsimp only | split | (intro _))

/-! ### Images -/

theorem modImage_wf (s : State) (mb : Nat) (c : Cmd) (f : Image → Image) (hm : s.mem.wf = true) : (modImage s mb c f).mem.wf = true := by
  unfold modImage
  repeat' (first | with_reducible assumption | (simp only [State.modPart_mem]))

theorem dropImage_wf (s : State) (mb : Nat) (d : BitVec 256) (hm : s.mem.wf = true) : (dropImage s mb d).mem.wf = true := by
  unfold dropImage
  repeat' (first | with_reducible assumption | (simp only [State.modPart_mem]))

theorem releaseLends_wf (s : State) (col : Nat) (digest : BitVec 256) (ls : List Lend)
    (hm : s.mem.wf = true) : (releaseLends s col digest ls).mem.wf = true := by
  unfold releaseLends
  repeat' (first | with_reducible assumption | with_reducible apply fwRequest_wf | with_reducible apply foldl_wf
                 | with_reducible apply foldl_fst_wf | with_reducible apply foldl_snd_wf | dsimp only | split | (intro _))

theorem undoStage_wf (s : State) (mb : Nat) (c : Cmd) (g : Image) (st : BitVec 16) (payload : List Byte)
    (hm : s.mem.wf = true) : (undoStage s mb c g st payload).mem.wf = true := by
  unfold undoStage
  repeat' (first | with_reducible assumption | with_reducible apply finishCmd_wf | with_reducible apply dropImage_wf
                 | with_reducible apply releaseLends_wf)

theorem copyLocal_wf (g : Image) (s : State) (x : Nat × List Byte) (hm : s.mem.wf = true) : (copyLocal g s x).mem.wf = true := by
  unfold copyLocal
  repeat' (first | with_reducible assumption | with_reducible apply memWrite_wf | with_reducible apply foldl_wf | with_reducible apply foldl_fst_wf
                 | with_reducible apply foldl_snd_wf | dsimp only | split | (intro _))

theorem copyFar_wf (s : State) (mb : Nat) (i : BitVec 16) (g : Image) (share : List Byte)
    (hm : s.mem.wf = true) : (copyFar s mb i g share).mem.wf = true := by
  unfold copyFar
  repeat' (first | with_reducible assumption | with_reducible apply startTransfer_wf | with_reducible apply foldl_wf
                 | with_reducible apply foldl_fst_wf | with_reducible apply foldl_snd_wf | dsimp only | split | (intro _))

theorem stageDone_wf (s : State) (mb : Nat) (c : Cmd) (g : Image) (hm : s.mem.wf = true) : (stageDone s mb c g).mem.wf = true := by
  unfold stageDone
  repeat' (first | with_reducible assumption | with_reducible apply finishCmd_wf | with_reducible apply modImage_wf | dsimp only | split)

theorem stageShare_wf (s : State) (mb : Nat) (c : Cmd) (g : Image) (hm : s.mem.wf = true) : (stageShare s mb c g).mem.wf = true := by
  unfold stageShare
  repeat' (first | with_reducible assumption | with_reducible apply dropTransfers_wf | with_reducible apply toPhase_wf
                 | with_reducible apply finishCmd_wf | with_reducible apply undoStage_wf | with_reducible apply copyLocal_wf
                 | with_reducible apply copyFar_wf | with_reducible apply stageDone_wf | with_reducible apply foldl_wf
                 | with_reducible apply foldl_fst_wf | with_reducible apply foldl_snd_wf | dsimp only | split)

theorem askShare_wf (s : State) (mb : Nat) (c : Cmd) (g : Image) (hm : s.mem.wf = true) : (askShare s mb c g).mem.wf = true := by
  unfold askShare
  repeat' (first | with_reducible assumption | with_reducible apply dropTransfers_wf | with_reducible apply readBulk_wf
                 | with_reducible apply modImage_wf | with_reducible apply undoStage_wf | dsimp only | split)

theorem askLender_wf (s : State) (mb : Nat) (c : Cmd) (g : Image) (hm : s.mem.wf = true) : (askLender s mb c g).mem.wf = true := by
  unfold askLender
  repeat' (first | with_reducible assumption | with_reducible apply fwAsk_wf | with_reducible apply modCmd_wf | with_reducible apply toPhase_wf
                 | with_reducible apply undoStage_wf | with_reducible apply askShare_wf | dsimp only | split)

theorem stageLend_wf (s : State) (mb : Nat) (c : Cmd) (g : Image) (hm : s.mem.wf = true) : (stageLend s mb c g).mem.wf = true := by
  unfold stageLend
  repeat' (first | with_reducible assumption | with_reducible apply modImage_wf | with_reducible apply askLender_wf)

theorem sizeImage_wf (s : State) (mb : Nat) (c : Cmd) (man : Manifest) (role : Role)
    (hm : s.mem.wf = true) : (sizeImage s mb c man role).mem.wf = true := by
  unfold sizeImage
  repeat' (first | with_reducible assumption | with_reducible apply modCmd_wf | with_reducible apply finishCmd_wf
                 | with_reducible apply stageLend_wf | (simp only [State.modPart_mem]) | dsimp only | split)

theorem stageManifest_wf (s : State) (mb : Nat) (c : Cmd) (man : Option Manifest)
    (hm : s.mem.wf = true) : (stageManifest s mb c man).mem.wf = true := by
  unfold stageManifest
  repeat' (first | with_reducible assumption | with_reducible apply finishCmd_wf | with_reducible apply sizeImage_wf | dsimp only | split)

theorem stageNext_wf (mb : Nat) (man : Option Manifest) (s : State) (c : Cmd) (hm : s.mem.wf = true) : (stageNext mb man s c).mem.wf = true := by
  unfold stageNext
  repeat' (first | with_reducible assumption | with_reducible apply finishCmd_wf | with_reducible apply stageDone_wf
                 | with_reducible apply stageShare_wf | with_reducible apply stageLend_wf | with_reducible apply stageManifest_wf | dsimp only
                 | split)

theorem beginStage_wf (s : State) (mb : Nat) (i : BitVec 16) (p : List Byte) (hm : s.mem.wf = true) : (beginStage s mb i p).mem.wf = true := by
  unfold beginStage
  repeat' (first | with_reducible assumption | with_reducible apply answer_wf | with_reducible apply readBulk_wf | dsimp only | split)

theorem execImageStage_wf (mb : Fin 16) (i : BitVec 16) (man : Option Manifest) (x y : Carried) (s : State)
    (hm : s.mem.wf = true) : Keeps (execImageStage mb i man x y s) := by
  unfold execImageStage
  repeat' (first | with_reducible assumption | with_reducible apply runStaged_wf | with_reducible apply stageNext_wf
                 | with_reducible apply beginStage_wf | with_reducible apply keeps_live | dsimp only | split | (intro _))

theorem execImageCommit_wf (mb : Fin 16) (i : BitVec 16) (s : State) (hm : s.mem.wf = true) : Keeps (execImageCommit mb i s) := by
  unfold execImageCommit
  repeat' (first | with_reducible assumption | with_reducible apply answer_wf | with_reducible apply rebuildRegions_wf
                 | with_reducible apply runCmd_wf | with_reducible apply modImage_wf | with_reducible apply keeps_live
                 | (simp only [State.modPart_mem]) | dsimp only | split | (intro _))

theorem execImageQuery_wf (mb : Fin 16) (i : BitVec 16) (s : State) (hm : s.mem.wf = true) : Keeps (execImageQuery mb i s) := by
  unfold execImageQuery
  repeat' (first | with_reducible assumption | with_reducible apply answer_wf | with_reducible apply runCmd_wf | with_reducible apply keeps_live
                 | dsimp only | split | (intro _))

theorem execImageEvict_wf (mb : Fin 16) (i : BitVec 16) (s : State) (hm : s.mem.wf = true) : Keeps (execImageEvict mb i s) := by
  unfold execImageEvict
  repeat' (first | with_reducible assumption | with_reducible apply answer_wf | with_reducible apply evictImage_wf | with_reducible apply runCmd_wf
                 | with_reducible apply keeps_live | dsimp only | split | (intro _))

/-! ### Peers -/

theorem sendReply_wf (s : State) (m : Msg) (body : List Byte) (hm : s.mem.wf = true) : (sendReply s m body).mem.wf = true := by
  unfold sendReply
  repeat' (first | with_reducible assumption | with_reducible apply fwMessage_wf)

theorem replyTo_wf (s : State) (m : Msg) (st : BitVec 16) (granules : List Nat) (hm : s.mem.wf = true) : (replyTo s m st granules).mem.wf = true := by
  unfold replyTo
  repeat' (first | with_reducible assumption | with_reducible apply sendReply_wf)

theorem peerMessage_wf (s : State) (m : Msg) (t : Nat) (f : State → List Byte → State) (hm : s.mem.wf = true)
    (hf : ∀ s x, s.mem.wf = true → (f s x).mem.wf = true) : (peerMessage s m t f).mem.wf = true := by
  unfold peerMessage
  repeat' (first | with_reducible assumption | with_reducible apply takeMsg_wf | with_reducible apply mailboxMessage_wf
                 | with_reducible apply raiseUnit_wf | with_reducible apply sendReply_wf | with_reducible apply hf | dsimp only | split)

theorem toldOf_wf (s : State) (q : PeerReq) (st : BitVec 16) (granules : List Nat)
    (hm : s.mem.wf = true) : (toldOf s q st granules).mem.wf = true := by
  unfold toldOf
  repeat' (first | with_reducible assumption | with_reducible apply modCmd_wf | dsimp only | split)

theorem execPeerReply_wf (m : Msg) (s : State) (hm : s.mem.wf = true) : Keeps (execPeerReply m s) := by
  unfold execPeerReply
  repeat' (first | with_reducible assumption | with_reducible apply peerMessage_wf | with_reducible apply toldOf_wf
                 | with_reducible apply keeps_live | dsimp only | split | (intro _))

theorem execLendReq_wf (m : Msg) (s : State) (hm : s.mem.wf = true) : Keeps (execLendReq m s) := by
  unfold execLendReq
  repeat' (first | with_reducible assumption | with_reducible apply replyTo_wf | with_reducible apply peerMessage_wf
                 | with_reducible apply keeps_live | (simp only [State.modPart_mem]) | dsimp only | split | (intro _))

theorem execLendRelease_wf (m : Msg) (s : State) (hm : s.mem.wf = true) : Keeps (execLendRelease m s) := by
  unfold execLendRelease
  repeat' (first | with_reducible assumption | with_reducible apply zeroRange_wf | with_reducible apply replyTo_wf
                 | with_reducible apply peerMessage_wf | with_reducible apply keeps_live | with_reducible apply foldl_wf
                 | with_reducible apply foldl_fst_wf | with_reducible apply foldl_snd_wf | (simp only [State.modPart_mem]) | dsimp only | split
                 | (intro _))

theorem skipCompare_wf (s : State) (sel : Sender → Bool) (hm : s.mem.wf = true) : (skipCompare s sel).mem.wf = true := by
  unfold skipCompare
  repeat' (first | with_reducible assumption)

theorem compareEntry_wf (b : List Byte) (src : BitVec 6) (s : State) (k : Nat) (hm : s.mem.wf = true) : (compareEntry b src s k).mem.wf = true := by
  unfold compareEntry
  repeat' (first | with_reducible assumption | with_reducible apply compareBooks_wf)

theorem execAuditSnap_wf (m : Msg) (s : State) (hm : s.mem.wf = true) : Keeps (execAuditSnap m s) := by
  unfold execAuditSnap
  repeat' (first | with_reducible assumption | with_reducible apply replyTo_wf | with_reducible apply peerMessage_wf
                 | with_reducible apply skipCompare_wf | with_reducible apply compareEntry_wf | with_reducible apply keeps_live
                 | with_reducible apply foldl_wf | with_reducible apply foldl_fst_wf | with_reducible apply foldl_snd_wf | dsimp only | split
                 | (intro _))

theorem execLaunchCheck_wf (m : Msg) (s : State) (hm : s.mem.wf = true) : Keeps (execLaunchCheck m s) := by
  unfold execLaunchCheck
  repeat' (first | with_reducible assumption | with_reducible apply replyTo_wf | with_reducible apply peerMessage_wf
                 | with_reducible apply keeps_live | dsimp only | split | (intro _))

theorem execJobEvent_wf (m : Msg) (s : State) (hm : s.mem.wf = true) : Keeps (execJobEvent m s) := by
  unfold execJobEvent
  repeat' (first | with_reducible assumption | with_reducible apply takeJobEvent_wf | with_reducible apply replyTo_wf
                 | with_reducible apply peerMessage_wf | with_reducible apply keeps_live | dsimp only | split | (intro _))

theorem giveUp_wf (s : State) (q : PeerReq) (hm : s.mem.wf = true) : (giveUp s q).mem.wf = true := by
  unfold giveUp
  repeat' (first | with_reducible assumption | with_reducible apply abortJob_wf | with_reducible apply toldOf_wf
                 | with_reducible apply skipCompare_wf | dsimp only | split)

theorem execPeerRequestResend_wf (die : BitVec 6) (seqno : BitVec 16) (s : State)
    (hm : s.mem.wf = true) : Keeps (execPeerRequestResend die seqno s) := by
  unfold execPeerRequestResend
  repeat' (first | with_reducible assumption | with_reducible apply fwMessage_wf | with_reducible apply giveUp_wf | with_reducible apply keeps_live
                 | dsimp only | split)

/-! ### Registers -/

theorem popCapture_wf (s : State) (hm : s.mem.wf = true) : (popCapture s).mem.wf = true := by
  unfold popCapture
  repeat' (first | with_reducible assumption | with_reducible apply fwEvent_wf | dsimp only | split)

theorem execCapqPop_wf (s : State) (hm : s.mem.wf = true) : Keeps (execCapqPop s) := by
  unfold execCapqPop
  repeat' (first | with_reducible assumption | with_reducible apply popCapture_wf | with_reducible apply keeps_awake | dsimp only | split)

theorem writePeriod_wf (s : State) (period effective : Word) (hm : s.mem.wf = true) : (writePeriod s period effective).mem.wf = true := by
  unfold writePeriod
  repeat' (first | with_reducible assumption | with_reducible apply schedulePeriod_wf | dsimp only | split)

theorem execMastPeriodWrite_wf (period : Word) (effective : Word) (s : State)
    (hm : s.mem.wf = true) : Keeps (execMastPeriodWrite period effective s) := by
  unfold execMastPeriodWrite
  repeat' (first | with_reducible assumption | with_reducible apply writePeriod_wf | with_reducible apply keeps_live)

theorem debugGo_wf (s : State) (ctrl : Word) (hm : s.mem.wf = true) : (debugGo s ctrl).mem.wf = true := by
  unfold debugGo
  repeat' (first | with_reducible assumption | with_reducible apply memWrite_wf | with_reducible apply detectRemote_wf
                 | with_reducible apply refuse_wf | with_reducible apply settle_wf | dsimp only | split)

theorem execDbgRead_wf (ctrl : Word) (s : State) (hm : s.mem.wf = true) : Keeps (execDbgRead ctrl s) := by
  unfold execDbgRead
  repeat' (first | with_reducible assumption | with_reducible apply debugGo_wf | with_reducible apply keeps_live | dsimp only | split)

theorem execDbgWrite_wf (ctrl : Word) (s : State) (hm : s.mem.wf = true) : Keeps (execDbgWrite ctrl s) := by
  unfold execDbgWrite
  repeat' (first | with_reducible assumption | with_reducible apply debugGo_wf | with_reducible apply keeps_live | dsimp only | split)

theorem execDebugAccessComplete_wf (s : State) (hm : s.mem.wf = true) : Keeps (execDebugAccessComplete s) := by
  unfold execDebugAccessComplete
  repeat' (first | with_reducible assumption | with_reducible apply settle_wf | with_reducible apply keeps_live | dsimp only | split)

theorem after_wf (s : State) (r : Result) (hm : s.mem.wf = true) (hr : Keeps r) : (after s r).mem.wf = true := by
  cases r with
  | next t => exact hr t rfl
  | _ => exact hm

theorem writeIdentity_wf (s : State) (off : Nat) (v : Word) (hm : s.mem.wf = true) : (writeIdentity s off v).mem.wf = true := by
  unfold writeIdentity
  repeat' (first | with_reducible assumption | with_reducible apply postSlot_wf | with_reducible apply execCapqPop_wf
                 | with_reducible apply after_wf | dsimp only | split)

theorem writePort_wf (s : State) (p : PortId) (off : Nat) (v : Word) (hm : s.mem.wf = true) : (writePort s p off v).mem.wf = true := by
  unfold writePort
  repeat' (first | with_reducible assumption | with_reducible apply portReset_wf | with_reducible apply portEnable_wf
                 | with_reducible apply portDisable_wf | (simp only [State.modPort_mem]) | dsimp only | split)

theorem writeMast_wf (s : State) (off : Nat) (v : Word) (hm : s.mem.wf = true) : (writeMast s off v).mem.wf = true := by
  unfold writeMast
  repeat' (first | with_reducible assumption | dsimp only | split)

theorem writeDebug_wf (s : State) (off : Nat) (v : Word) (hm : s.mem.wf = true) : (writeDebug s off v).mem.wf = true := by
  unfold writeDebug
  repeat' (first | with_reducible assumption | with_reducible apply debugGo_wf | dsimp only | split)

theorem writeCtrl_wf (s : State) (c : CoreId) (v : Word) (hm : s.mem.wf = true) : (writeCtrl s c v).mem.wf = true := by
  unfold writeCtrl
  repeat' (first | with_reducible assumption | with_reducible apply execCuRun_wf | with_reducible apply execCuStop_wf
                 | with_reducible apply execCuCoreReset_wf | with_reducible apply execCuEngineReset_wf | with_reducible apply execCuReplay_wf
                 | with_reducible apply after_wf | dsimp only | split)

theorem writeCu_wf (s : State) (c : CoreId) (off : Nat) (v : Word) (hm : s.mem.wf = true) : (writeCu s c off v).mem.wf = true := by
  unfold writeCu
  dsimp only
  repeat' (apply ite_wf)
  all_goals (first | with_reducible exact hm | exact writeCtrl_wf _ _ _ hm | exact setCore_wf _ _ _ hm )

theorem writeRegister_wf (s : State) (a : Nat) (v : Word) (hm : s.mem.wf = true) : (writeRegister s a v).mem.wf = true := by
  unfold writeRegister
  repeat' (first | with_reducible assumption | with_reducible apply writeIdentity_wf | with_reducible apply writePort_wf
                 | with_reducible apply writeMast_wf | with_reducible apply writeDebug_wf | with_reducible apply writeCu_wf | dsimp only | split)

theorem writeControl_wf (s : State) (a : Nat) (data : List Byte) (hm : s.mem.wf = true) : (writeControl s a data).mem.wf = true := by
  unfold writeControl
  repeat' (first | with_reducible assumption | with_reducible apply hostWrite_wf | with_reducible apply writePeriod_wf
                 | with_reducible apply writeRegister_wf | with_reducible apply foldl_wf | with_reducible apply foldl_fst_wf
                 | with_reducible apply foldl_snd_wf | dsimp only | split | (intro _))

theorem execRegisterWrite_wf (addr : Dla) (data : List Byte) (s : State) (hm : s.mem.wf = true) : Keeps (execRegisterWrite addr data s) := by
  unfold execRegisterWrite
  repeat' (first | with_reducible assumption | with_reducible apply writeControl_wf | with_reducible apply keeps_live)

/-! ### Boot -/

theorem execPorstAssert_wf (s : State) : Keeps (execPorstAssert s) := by
  unfold execPorstAssert
  exact keeps_next reset_wf

theorem warmReset_wf (s : State) : (warmReset s).mem.wf = true := by
  unfold warmReset
  dsimp only
  apply foldl_wf
  · exact mk_wf
  · intro s x hs
    split
    · exact putInit_wf _ _ _ hs
    · exact hs

theorem execWarmResetPerform_wf (s : State) (hm : s.mem.wf = true) : Keeps (execWarmResetPerform s) := by
  unfold execWarmResetPerform
  repeat' (first | with_reducible assumption | with_reducible apply warmReset_wf | with_reducible apply keeps_live | dsimp only | split)

theorem execPorstRelease_wf (testMode : Bool) (s : State) (hm : s.mem.wf = true) : Keeps (execPorstRelease testMode s) := by
  unfold execPorstRelease
  repeat' (first | with_reducible assumption | with_reducible apply keeps_next | dsimp only | split)

theorem sendLoad_wf (s : State) (p : PortId) (mtype : Byte) (len off : Nat) (data : List Byte)
    (hm : s.mem.wf = true) : (sendLoad s p mtype len off data).mem.wf = true := by
  unfold sendLoad
  repeat' (first | with_reducible assumption | with_reducible apply sendOn_wf)

theorem askOffset_wf (s : State) (off : Nat) (hm : s.mem.wf = true) : (askOffset s off).mem.wf = true := by
  unfold askOffset
  repeat' (first | with_reducible assumption | with_reducible apply sendLoad_wf | dsimp only | split)

theorem askMore_wf (n : Nat) (s : State) (hm : s.mem.wf = true) : (askMore n s).mem.wf = true := by
  induction n generalizing s with
  | zero => exact hm
  | succ n ih =>
    unfold askMore
    dsimp only
    split
    · exact ih _ (askOffset_wf _ _ hm)
    · exact hm

theorem pullFrom_wf (s : State) (sources : List PortId) (hm : s.mem.wf = true) : (pullFrom s sources).mem.wf = true := by
  unfold pullFrom
  repeat' (first | with_reducible assumption | with_reducible apply askOffset_wf | dsimp only | split)

theorem startPull_wf (s : State) (hm : s.mem.wf = true) : (startPull s).mem.wf = true := by
  unfold startPull
  repeat' (first | with_reducible assumption | with_reducible apply pullFrom_wf)

theorem nextSource_wf (s : State) (bad : Bool) (hm : s.mem.wf = true) : (nextSource s bad).mem.wf = true := by
  unfold nextSource
  repeat' (first | with_reducible assumption | with_reducible apply pullFrom_wf)

theorem authenticate_wf (s : State) (hm : s.mem.wf = true) : (authenticate s).mem.wf = true := by
  unfold authenticate
  repeat' (first | with_reducible assumption | with_reducible apply nextSource_wf | dsimp only | split)

theorem takeData_wf (s : State) (off : Nat) (d : List Byte) (hm : s.mem.wf = true) : (takeData s off d).mem.wf = true := by
  unfold takeData
  repeat' (first | with_reducible assumption | with_reducible apply askOffset_wf | with_reducible apply askMore_wf
                 | with_reducible apply nextSource_wf | with_reducible apply authenticate_wf | dsimp only | split)

theorem execFwData_wf (p : PortId) (m : Msg) (s : State) (hm : s.mem.wf = true) : Keeps (execFwData p m s) := by
  unfold execFwData
  repeat' (first | with_reducible assumption | with_reducible apply takeMsg_wf | with_reducible apply mailboxMessage_wf
                 | with_reducible apply takeData_wf | with_reducible apply keeps_live | with_reducible apply keeps_awake | dsimp only | split)

theorem execFwReq_wf (p : PortId) (m : Msg) (s : State) (hm : s.mem.wf = true) : Keeps (execFwReq p m s) := by
  unfold execFwReq
  repeat' (first | with_reducible assumption | with_reducible apply takeMsg_wf | with_reducible apply protocolError_wf
                 | with_reducible apply mailboxMessage_wf | with_reducible apply sendLoad_wf | with_reducible apply keeps_live
                 | with_reducible apply keeps_awake | dsimp only | split)

theorem execFwReqResend_wf (s : State) (hm : s.mem.wf = true) : Keeps (execFwReqResend s) := by
  unfold execFwReqResend
  repeat' (first | with_reducible assumption | with_reducible apply askOffset_wf | with_reducible apply nextSource_wf
                 | with_reducible apply keeps_awake | with_reducible apply foldl_wf | with_reducible apply foldl_fst_wf
                 | with_reducible apply foldl_snd_wf | dsimp only | split)

theorem execBootSourceRetry_wf (s : State) (hm : s.mem.wf = true) : Keeps (execBootSourceRetry s) := by
  unfold execBootSourceRetry
  repeat' (first | with_reducible assumption | with_reducible apply startPull_wf | with_reducible apply keeps_awake | dsimp only | split)

theorem enterStage_wf (s : State) (n : Nat) (hm : s.mem.wf = true) : (enterStage s n).mem.wf = true := by
  unfold enterStage
  repeat' (first | with_reducible assumption)

theorem enterStageAfter_wf (s : State) (n : Nat) (bad : Bool) (r : BootResult)
    (hm : s.mem.wf = true) : (enterStageAfter s n bad r).mem.wf = true := by
  unfold enterStageAfter
  repeat' (first | with_reducible assumption)

theorem endStage2_wf (s : State) (hm : s.mem.wf = true) : (endStage2 s).mem.wf = true := by
  unfold endStage2
  repeat' (first | with_reducible assumption | with_reducible apply startPull_wf | with_reducible apply enterStage_wf | dsimp only | split)

theorem endStage4_wf (s : State) (hm : s.mem.wf = true) : (endStage4 s).mem.wf = true := by
  unfold endStage4
  repeat' (first | with_reducible assumption | with_reducible apply enterStage_wf | dsimp only | split)

theorem endStage5_wf (s : State) (r : BootReport) (hm : s.mem.wf = true) : (endStage5 s r).mem.wf = true := by
  unfold endStage5
  repeat' (first | with_reducible assumption | with_reducible apply enterStageAfter_wf | with_reducible apply foldl_wf
                 | with_reducible apply foldl_fst_wf | with_reducible apply foldl_snd_wf | dsimp only | split | (intro _)
                 | (refine fst_wf (by assumption) ?_) | (refine snd_wf (by assumption) ?_)
                 | (exact wf_mk _ _ _ _ _ _ _ _ _ _ _ _ (by with_reducible assumption)))

theorem testArray_wf (s : State) (r : ArrayReport) (hm : s.mem.wf = true) : (testArray s r).mem.wf = true := by
  unfold testArray
  repeat' (first | with_reducible assumption | (simp only [State.modCore_mem]))

theorem endStage6_wf (s : State) (r : BootReport) (hm : s.mem.wf = true) : (endStage6 s r).mem.wf = true := by
  unfold endStage6
  repeat' (first | with_reducible assumption | with_reducible apply checkArrays_wf | with_reducible apply enterStageAfter_wf
                 | with_reducible apply testArray_wf | with_reducible apply foldl_wf | with_reducible apply foldl_fst_wf
                 | with_reducible apply foldl_snd_wf | (simp only [State.modCore_mem]) | dsimp only | split | (intro _))

theorem endStage8_wf (s : State) (hm : s.mem.wf = true) : (endStage8 s).mem.wf = true := by
  unfold endStage8
  repeat' (first | with_reducible assumption | with_reducible apply enterStageAfter_wf | dsimp only | split)

theorem endStage9_wf (s : State) (hm : s.mem.wf = true) : (endStage9 s).mem.wf = true := by
  unfold endStage9
  repeat' (first | with_reducible assumption | with_reducible apply enterStage_wf | dsimp only | split)

theorem armOwn_zero_wf (s : State) (hm : s.mem.wf = true) : (armOwn (zeroRange s 0 0x1200000000)).mem.wf = true := armOwn_wf _ (zeroRange_wf _ _ _ hm)
theorem adminReady_wf (s : State) (hm : s.mem.wf = true) : (adminReady s).mem.wf = true := by
  unfold adminReady
  apply triggerAll_wf
  apply setMailbox_wf
  have h := armOwn_zero_wf s hm
  revert h
  generalize armOwn (zeroRange s 0 0x1200000000) = t
  intro h
  exact h

theorem execBootStageDone_wf (r : BootReport) (s : State) (hm : s.mem.wf = true) : Keeps (execBootStageDone r s) := by
  unfold execBootStageDone
  repeat' (first | with_reducible assumption | with_reducible apply enterStage_wf | with_reducible apply endStage2_wf
                 | with_reducible apply endStage4_wf | with_reducible apply endStage5_wf | with_reducible apply endStage6_wf
                 | with_reducible apply endStage8_wf | with_reducible apply endStage9_wf | with_reducible apply adminReady_wf
                 | with_reducible apply keeps_next | dsimp only | split)

theorem allDown_wf (s : State) (hm : s.mem.wf = true) : (allDown s).mem.wf = true := by
  unfold allDown
  repeat' (first | with_reducible assumption | with_reducible apply goDown_wf | with_reducible apply foldl_wf | with_reducible apply foldl_fst_wf
                 | with_reducible apply foldl_snd_wf | dsimp only | split | (intro _))

theorem execRefclkLoss_wf (s : State) (hm : s.mem.wf = true) : Keeps (execRefclkLoss s) := by
  unfold execRefclkLoss
  repeat' (first | with_reducible assumption | with_reducible apply allDown_wf | with_reducible apply keeps_awake | dsimp only | split)

theorem execRefclkReturn_wf (s : State) (hm : s.mem.wf = true) : Keeps (execRefclkReturn s) := by
  unfold execRefclkReturn
  repeat' (first | with_reducible assumption | with_reducible apply warmReset_wf | with_reducible apply keeps_awake | dsimp only | split)

theorem thermalStep_wf (s : State) (temps : List (BitVec 16)) (power : BitVec 16)
    (hm : s.mem.wf = true) : (thermalStep s temps power).mem.wf = true := by
  unfold thermalStep
  repeat' (first | with_reducible assumption | with_reducible apply raiseUnit_wf | with_reducible apply foldl_wf
                 | with_reducible apply foldl_fst_wf | with_reducible apply foldl_snd_wf | dsimp only | split)

theorem execThermalUpdate_wf (temps : List (BitVec 16)) (power : BitVec 16) (s : State)
    (hm : s.mem.wf = true) : Keeps (execThermalUpdate temps power s) := by
  unfold execThermalUpdate
  repeat' (first | with_reducible assumption | with_reducible apply thermalStep_wf | with_reducible apply keeps_live | exact keeps_fault _
                 | dsimp only | split)

theorem tripDie_wf (s : State) (sensor : Nat) (hm : s.mem.wf = true) : (tripDie s sensor).mem.wf = true := by
  unfold tripDie
  repeat' (first | with_reducible assumption | with_reducible apply fwRaise_wf | with_reducible apply persistentFault_wf
                 | with_reducible apply allDown_wf | dsimp only | split)

theorem execThermtrip_wf (sensor : Fin 64) (s : State) (hm : s.mem.wf = true) : Keeps (execThermtrip sensor s) := by
  unfold execThermtrip
  repeat' (first | with_reducible assumption | with_reducible apply tripDie_wf | with_reducible apply keeps_awake | dsimp only | split)

theorem execRailsReturn_wf (s : State) (hm : s.mem.wf = true) : Keeps (execRailsReturn s) := by
  unfold execRailsReturn
  repeat' (first | with_reducible assumption | with_reducible apply warmReset_wf | with_reducible apply keeps_awake | dsimp only | split)

end Sys2Proof.Machine
end

