-- ==== Sys2Proof/Laws/CanonicalCore.lean ====
section
/-! SUPPORT. The memory keeps its canonical form under messages, the engines of a core, its instructions and the test port. -/

namespace Sys2Proof.Machine

/-! ### Matrix -/

theorem matIssue_wf (c : CoreId) (f : Fields) (w1 : Word) (s : State) (hm : s.mem.wf = true) : (matIssue c f w1 s).mem.wf = true := by
  unfold matIssue
  repeat' (first | with_reducible assumption | with_reducible apply refuse_wf | with_reducible apply pushEngine_wf | dsimp only | split)

theorem execMatAcc_wf (c : CoreId) (f : Fields) (w1 : Word) (s : State) (hm : s.mem.wf = true) : Keeps (execMatAcc c f w1 s) := by
  unfold execMatAcc
  repeat' (first | with_reducible assumption | with_reducible apply issue_wf | with_reducible apply matIssue_wf | with_reducible apply keeps_live)

theorem execMatFull_wf (c : CoreId) (f : Fields) (w1 : Word) (s : State) (hm : s.mem.wf = true) : Keeps (execMatFull c f w1 s) := by
  unfold execMatFull
  repeat' (first | with_reducible assumption | with_reducible apply issue_wf | with_reducible apply matIssue_wf | with_reducible apply keeps_live)

theorem maMove_wf (c : CoreId) (f : Fields) (op : EOp) (esize : Nat) (write : Bool) (s : State)
    (hm : s.mem.wf = true) : (maMove c f op esize write s).mem.wf = true := by
  unfold maMove
  repeat' (first | with_reducible assumption | with_reducible apply refuse_wf | with_reducible apply pushEngine_wf | dsimp only | split)

theorem execMaclr_wf (c : CoreId) (f : Fields) (s : State) (hm : s.mem.wf = true) : Keeps (execMaclr c f s) := by
  unfold execMaclr
  repeat' (first | with_reducible assumption | with_reducible apply refuse_wf | with_reducible apply issue_wf | with_reducible apply pushEngine_wf
                 | with_reducible apply keeps_live | dsimp only | split | (intro _))

theorem execMadrain_wf (c : CoreId) (f : Fields) (s : State) (hm : s.mem.wf = true) : Keeps (execMadrain c f s) := by
  unfold execMadrain
  repeat' (first | with_reducible assumption | with_reducible apply issue_wf | with_reducible apply maMove_wf | with_reducible apply keeps_live)

theorem execMaadd_wf (c : CoreId) (f : Fields) (s : State) (hm : s.mem.wf = true) : Keeps (execMaadd c f s) := by
  unfold execMaadd
  repeat' (first | with_reducible assumption | with_reducible apply issue_wf | with_reducible apply maMove_wf | with_reducible apply keeps_live)

theorem execMastat_wf (c : CoreId) (f : Fields) (s : State) (hm : s.mem.wf = true) : Keeps (execMastat c f s) := by
  unfold execMastat
  repeat' (first | with_reducible assumption | with_reducible apply issue_wf | with_reducible apply pushEngine_wf | with_reducible apply keeps_live
                 | dsimp only | split | (intro _))

theorem residueHit_wf (c a b : Nat) (s : State) (p : Nat × Nat) (hm : s.mem.wf = true) : (residueHit c a b s p).mem.wf = true := by
  unfold residueHit
  repeat' (first | with_reducible assumption | with_reducible apply raiseD_wf | (simp only [State.modCore_mem]))

theorem settleAcc_wf (s : State) (c a b : Nat) (t : Tile) (m0 n0 rows cols : Nat) (r : Acc)
    (hm : s.mem.wf = true) : (settleAcc s c a b t m0 n0 rows cols r).mem.wf = true := by
  unfold settleAcc
  repeat' (first | with_reducible assumption | with_reducible apply raiseD_wf | with_reducible apply residueHit_wf | with_reducible apply foldl_wf
                 | with_reducible apply foldl_fst_wf | with_reducible apply foldl_snd_wf | (simp only [State.modCore_mem]) | dsimp only | split)

theorem toRunning_wf (s : State) (c e : Nat) (q : QInstr) (hm : s.mem.wf = true) : (toRunning s c e q).mem.wf = true := by
  unfold toRunning
  repeat' (first | with_reducible assumption | (simp only [State.modCore_mem]))

theorem runTile_wf (s : State) (c a : Nat) (r : TileRun) (hm : s.mem.wf = true) : (runTile s c a r).mem.wf = true := by
  unfold runTile
  repeat' (first | with_reducible assumption | with_reducible apply settleAcc_wf | with_reducible apply foldl_wf
                 | with_reducible apply foldl_fst_wf | with_reducible apply foldl_snd_wf | (simp only [State.modCore_mem]))

theorem runMaadd_wf (s : State) (c a : Nat) (q : QInstr) (hm : s.mem.wf = true) : (runMaadd s c a q).mem.wf = true := by
  unfold runMaadd
  repeat' (first | with_reducible assumption | with_reducible apply fetchOpnd_wf | with_reducible apply residueHit_wf
                 | with_reducible apply foldl_wf | with_reducible apply foldl_fst_wf | with_reducible apply foldl_snd_wf
                 | (simp only [State.modCore_mem]) | dsimp only | split | (intro _))

theorem startMa_wf (s : State) (c a : Nat) (q : QInstr) (hm : s.mem.wf = true) : (startMa s c a q).mem.wf = true := by
  unfold startMa
  repeat' (first | with_reducible assumption | with_reducible apply settleAcc_wf | with_reducible apply toRunning_wf
                 | with_reducible apply runTile_wf | with_reducible apply runMaadd_wf | (simp only [State.modCore_mem]) | dsimp only | split)

theorem execMaTileStart_wf (c : CoreId) (a : Fin 2) (s : State) (hm : s.mem.wf = true) : Keeps (execMaTileStart c a s) := by
  unfold execMaTileStart
  repeat' (first | with_reducible assumption | with_reducible apply runTile_wf | with_reducible apply startMa_wf | with_reducible apply keeps_next
                 | with_reducible apply keeps_live | (simp only [State.setCore_mem]) | dsimp only | split)

theorem drainCell_wf (c a : Nat) (d : Drain) (o : Opnd) (i : Nat) (s : State) (j : Nat)
    (hm : s.mem.wf = true) : (drainCell c a d o i s j).mem.wf = true := by
  unfold drainCell
  repeat' (first | with_reducible assumption | with_reducible apply writeOpnd_wf | (simp only [State.modCore_mem]) | dsimp only | split)

theorem execMaDrain_wf (c : CoreId) (a : Fin 2) (s : State) (hm : s.mem.wf = true) : Keeps (execMaDrain c a s) := by
  unfold execMaDrain
  repeat' (first | with_reducible assumption | with_reducible apply toRunning_wf | with_reducible apply drainCell_wf
                 | with_reducible apply keeps_live | with_reducible apply foldl_wf | with_reducible apply foldl_fst_wf
                 | with_reducible apply foldl_snd_wf | (simp only [State.modCore_mem]) | dsimp only | split | (intro _))

theorem execEngineInstructionComplete_wf (c : CoreId) (e : Engine) (s : State)
    (hm : s.mem.wf = true) : Keeps (execEngineInstructionComplete c e s) := by
  unfold execEngineInstructionComplete
  repeat' (first | with_reducible assumption | with_reducible apply keeps_live | (simp only [State.setCore_mem]) | dsimp only | split)

/-! ### Messages -/

theorem absentSource_wf (s : State) (p : PortId) (m : Msg) (hm : s.mem.wf = true) : (absentSource s p m).mem.wf = true := by
  unfold absentSource
  repeat' (first | with_reducible assumption | with_reducible apply raiseUnit_wf)

theorem refusePiece_wf (s : State) (m : Msg) (n : Nat) (hm : s.mem.wf = true) : (refusePiece s m n).mem.wf = true := by
  unfold refusePiece
  repeat' (first | with_reducible assumption | with_reducible apply refuseUnits_wf | dsimp only | split)

theorem landPiece_wf (s : State) (m : Msg) (n : Nat) (hm : s.mem.wf = true) : (landPiece s m n).mem.wf = true := by
  unfold landPiece
  repeat' (first | with_reducible assumption | dsimp only | split)

theorem answerArrived_wf (s : State) (a : Arrived) (status : BitVec 4) (data : List Byte)
    (hm : s.mem.wf = true) : (answerArrived s a status data).mem.wf = true := by
  unfold answerArrived
  repeat' (first | with_reducible assumption | with_reducible apply answerMsg_wf | dsimp only | split)

theorem requestGate_wf (s : State) (a : Arrived) (f : State → State)
    (hm : s.mem.wf = true) (hf : ∀ x0, x0.mem.wf = true → (f x0).mem.wf = true) : (requestGate s a f).mem.wf = true := by
  unfold requestGate
  repeat' (first | with_reducible assumption | with_reducible apply takeMsg_wf | with_reducible apply absentSource_wf
                 | with_reducible apply answerArrived_wf | apply hf | dsimp only | split)

theorem noteControl_wf (s : State) (a : Arrived) (x n : Nat) (hm : s.mem.wf = true) : (noteControl s a x n).mem.wf = true := by
  unfold noteControl
  repeat' (first | with_reducible assumption | with_reducible apply raiseUnit_wf | dsimp only | split)

theorem fenceProbe_wf (s : State) (m : Msg) (hm : s.mem.wf = true) : (fenceProbe s m).mem.wf = true := by
  unfold fenceProbe
  repeat' (first | with_reducible assumption | with_reducible apply answerMsg_wf | with_reducible apply requestGate_wf | dsimp only | split
                 | (intro _))

theorem addSlot_wf (colour : BitVec 4) (src : BitVec 6) (acc : State × Bool) (x : Nat × List Byte)
    (hm : acc.1.mem.wf = true) : (addSlot colour src acc x).1.mem.wf = true := by
  unfold addSlot
  dsimp only
  split
  · apply detectRemote_wf
    split
    · exact memWrite_wf _ _ _ hm
    · exact wf_mk _ _ _ _ _ _ _ _ _ _ _ _ (memWrite_wf _ _ _ hm)
  · exact memWrite_wf _ _ _ hm

theorem performBytes_wf (s : State) (m : Msg) (i j : Nat) (hm : s.mem.wf = true) : (performBytes s m i j).1.mem.wf = true := by
  unfold performBytes
  repeat' (first | with_reducible assumption | with_reducible apply memWrite_wf | with_reducible apply detectRemote_wf
                 | with_reducible apply addSlot_wf | with_reducible apply foldl_wf | with_reducible apply foldl_fst_wf
                 | with_reducible apply foldl_snd_wf | dsimp only | split)

theorem performPart_wf (s : State) (p : PortId) (r : RxPart) (hm : s.mem.wf = true) : (performPart s p r).mem.wf = true := by
  unfold performPart
  repeat' (first | with_reducible assumption | with_reducible apply setRx_wf | with_reducible apply performBytes_wf | dsimp only | split)

theorem performWhole_wf (s : State) (m : Msg) (hm : s.mem.wf = true) : (performWhole s m).mem.wf = true := by
  unfold performWhole
  repeat' (first | with_reducible assumption | with_reducible apply refusePiece_wf | with_reducible apply landPiece_wf
                 | with_reducible apply answerArrived_wf | with_reducible apply requestGate_wf | with_reducible apply noteControl_wf
                 | with_reducible apply performBytes_wf | dsimp only | split | (intro _))

theorem execWriteMessage_wf (m : Msg) (s : State) (hm : s.mem.wf = true) : Keeps (execWriteMessage m s) := by
  unfold execWriteMessage
  repeat' (first | with_reducible assumption | with_reducible apply fenceProbe_wf | with_reducible apply performPart_wf
                 | with_reducible apply performWhole_wf | with_reducible apply keeps_live | dsimp only | split)

theorem execReadMessage_wf (m : Msg) (s : State) (hm : s.mem.wf = true) : Keeps (execReadMessage m s) := by
  unfold execReadMessage
  repeat' (first | with_reducible assumption | with_reducible apply detectRemote_wf | with_reducible apply answerMsg_wf
                 | with_reducible apply requestGate_wf | with_reducible apply noteControl_wf | with_reducible apply keeps_live | dsimp only | split
                 | (intro _))

theorem execLedgerMessage_wf (m : Msg) (s : State) (hm : s.mem.wf = true) : Keeps (execLedgerMessage m s) := by
  unfold execLedgerMessage
  repeat' (first | with_reducible assumption | with_reducible apply performPart_wf | with_reducible apply performWhole_wf
                 | with_reducible apply keeps_live | dsimp only | split)

theorem execFenceProbe_wf (m : Msg) (s : State) (hm : s.mem.wf = true) : Keeps (execFenceProbe m s) := by
  unfold execFenceProbe
  repeat' (first | with_reducible assumption | with_reducible apply fenceProbe_wf | with_reducible apply keeps_live)

theorem response_wf (s : State) (m : Msg) (k : ReqKind → Bool) (hm : s.mem.wf = true) : (response s m k).mem.wf = true := by
  unfold response
  repeat' (first | with_reducible assumption | with_reducible apply qosStart_wf | with_reducible apply settle_wf | with_reducible apply takeMsg_wf
                 | dsimp only | split)

theorem execReadDataReceive_wf (m : Msg) (s : State) (hm : s.mem.wf = true) : Keeps (execReadDataReceive m s) := by
  unfold execReadDataReceive
  repeat' (first | with_reducible assumption | with_reducible apply response_wf | with_reducible apply keeps_live)

theorem execWriteAckReceive_wf (m : Msg) (s : State) (hm : s.mem.wf = true) : Keeps (execWriteAckReceive m s) := by
  unfold execWriteAckReceive
  repeat' (first | with_reducible assumption | with_reducible apply response_wf | with_reducible apply keeps_live)

theorem takeSlot_wf (p : PortId) (m : Msg) (acc : State × Bool) (i : Nat) (hm : acc.1.mem.wf = true) : (takeSlot p m acc i).1.mem.wf = true := by
  unfold takeSlot
  repeat' (first | with_reducible assumption | with_reducible apply memWrite_wf | with_reducible apply zeroRange_wf
                 | with_reducible apply protocolError_wf | with_reducible apply foldl_wf | dsimp only | split)

theorem execCtrlFlitReceive_wf (m : Msg) (s : State) (hm : s.mem.wf = true) : Keeps (execCtrlFlitReceive m s) := by
  unfold execCtrlFlitReceive
  repeat' (first | with_reducible assumption | with_reducible apply takeMsg_wf | with_reducible apply protocolError_wf
                 | with_reducible apply takeSlot_wf | with_reducible apply keeps_live | with_reducible apply foldl_wf
                 | with_reducible apply foldl_fst_wf | with_reducible apply foldl_snd_wf | dsimp only | split)

/-! ### Vector -/

theorem writeVec_wf (s : State) (c reg et : Nat) (keep : Nat → Bool) (vals : List Nat)
    (hm : s.mem.wf = true) : (writeVec s c reg et keep vals).mem.wf = true := by
  unfold writeVec
  repeat' (first | with_reducible assumption | with_reducible apply writeOpnd_wf | (simp only [State.modCore_mem]))

theorem vecDetect_wf (s : State) (c : Nat) (unit : Nat) (srcs : List (Nat × Nat)) (vl : Nat)
    (hm : s.mem.wf = true) : (vecDetect s c unit srcs vl).mem.wf = true := by
  unfold vecDetect
  repeat' (first | with_reducible assumption | with_reducible apply raiseD_wf | dsimp only | split)

theorem vePush_wf (c : CoreId) (f : Fields) (e : Nat) (op : EOp) (n : VeNeed) (s : State)
    (hm : s.mem.wf = true) : (vePush c f e op n s).mem.wf = true := by
  unfold vePush
  repeat' (first | with_reducible assumption | with_reducible apply refuse_wf | with_reducible apply pushEngine_wf | dsimp only | split)

theorem veElem_wf (c : CoreId) (f : Fields) (op : EOp) (imm : Nat) (two : Bool) (types : Nat → Bool) (s : State)
    (hm : s.mem.wf = true) : (veElem c f op imm two types s).mem.wf = true := by
  unfold veElem
  repeat' (first | with_reducible assumption | with_reducible apply refuse_wf | with_reducible apply issue_wf | with_reducible apply vePush_wf
                 | dsimp only | split | (intro _))

theorem execVmov_wf (c : CoreId) (f : Fields) (s : State) (hm : s.mem.wf = true) : Keeps (execVmov c f s) := by
  unfold execVmov
  repeat' (first | with_reducible assumption | with_reducible apply veElem_wf | with_reducible apply keeps_live)

theorem execVadd_wf (c : CoreId) (f : Fields) (s : State) (hm : s.mem.wf = true) : Keeps (execVadd c f s) := by
  unfold execVadd
  repeat' (first | with_reducible assumption | with_reducible apply veElem_wf | with_reducible apply keeps_live)

theorem execVsub_wf (c : CoreId) (f : Fields) (s : State) (hm : s.mem.wf = true) : Keeps (execVsub c f s) := by
  unfold execVsub
  repeat' (first | with_reducible assumption | with_reducible apply veElem_wf | with_reducible apply keeps_live)

theorem execVmul_wf (c : CoreId) (f : Fields) (s : State) (hm : s.mem.wf = true) : Keeps (execVmul c f s) := by
  unfold execVmul
  repeat' (first | with_reducible assumption | with_reducible apply veElem_wf | with_reducible apply keeps_live)

theorem execVfma_wf (c : CoreId) (f : Fields) (s : State) (hm : s.mem.wf = true) : Keeps (execVfma c f s) := by
  unfold execVfma
  repeat' (first | with_reducible assumption | with_reducible apply veElem_wf | with_reducible apply keeps_live)

theorem execVdiv_wf (c : CoreId) (f : Fields) (s : State) (hm : s.mem.wf = true) : Keeps (execVdiv c f s) := by
  unfold execVdiv
  repeat' (first | with_reducible assumption | with_reducible apply veElem_wf | with_reducible apply keeps_live)

theorem execVsqrt_wf (c : CoreId) (f : Fields) (s : State) (hm : s.mem.wf = true) : Keeps (execVsqrt c f s) := by
  unfold execVsqrt
  repeat' (first | with_reducible assumption | with_reducible apply veElem_wf | with_reducible apply keeps_live)

theorem execVmin_wf (c : CoreId) (f : Fields) (s : State) (hm : s.mem.wf = true) : Keeps (execVmin c f s) := by
  unfold execVmin
  repeat' (first | with_reducible assumption | with_reducible apply veElem_wf | with_reducible apply keeps_live)

theorem execVmax_wf (c : CoreId) (f : Fields) (s : State) (hm : s.mem.wf = true) : Keeps (execVmax c f s) := by
  unfold execVmax
  repeat' (first | with_reducible assumption | with_reducible apply veElem_wf | with_reducible apply keeps_live)

theorem execVand_wf (c : CoreId) (f : Fields) (s : State) (hm : s.mem.wf = true) : Keeps (execVand c f s) := by
  unfold execVand
  repeat' (first | with_reducible assumption | with_reducible apply veElem_wf | with_reducible apply keeps_live)

theorem execVor_wf (c : CoreId) (f : Fields) (s : State) (hm : s.mem.wf = true) : Keeps (execVor c f s) := by
  unfold execVor
  repeat' (first | with_reducible assumption | with_reducible apply veElem_wf | with_reducible apply keeps_live)

theorem execVxor_wf (c : CoreId) (f : Fields) (s : State) (hm : s.mem.wf = true) : Keeps (execVxor c f s) := by
  unfold execVxor
  repeat' (first | with_reducible assumption | with_reducible apply veElem_wf | with_reducible apply keeps_live)

theorem execVshl_wf (c : CoreId) (f : Fields) (s : State) (hm : s.mem.wf = true) : Keeps (execVshl c f s) := by
  unfold execVshl
  repeat' (first | with_reducible assumption | with_reducible apply veElem_wf | with_reducible apply keeps_live)

theorem execVshr_wf (c : CoreId) (f : Fields) (s : State) (hm : s.mem.wf = true) : Keeps (execVshr c f s) := by
  unfold execVshr
  repeat' (first | with_reducible assumption | with_reducible apply veElem_wf | with_reducible apply keeps_live)

theorem execVtrn_wf (c : CoreId) (f : Fields) (s : State) (hm : s.mem.wf = true) : Keeps (execVtrn c f s) := by
  unfold execVtrn
  repeat' (first | with_reducible assumption | with_reducible apply refuse_wf | with_reducible apply veElem_wf | with_reducible apply keeps_live
                 | dsimp only | split)

theorem execVcmp_wf (c : CoreId) (f : Fields) (s : State) (hm : s.mem.wf = true) : Keeps (execVcmp c f s) := by
  unfold execVcmp
  repeat' (first | with_reducible assumption | with_reducible apply refuse_wf | with_reducible apply issue_wf | with_reducible apply vePush_wf
                 | with_reducible apply keeps_live | dsimp only | split | (intro _))

theorem execVmask_wf (c : CoreId) (f : Fields) (s : State) (hm : s.mem.wf = true) : Keeps (execVmask c f s) := by
  unfold execVmask
  repeat' (first | with_reducible assumption | with_reducible apply issue_wf | with_reducible apply vePush_wf | with_reducible apply keeps_live)

theorem execVpopc_wf (c : CoreId) (f : Fields) (s : State) (hm : s.mem.wf = true) : Keeps (execVpopc c f s) := by
  unfold execVpopc
  repeat' (first | with_reducible assumption | with_reducible apply issue_wf | with_reducible apply vePush_wf | with_reducible apply keeps_live)

theorem execVcvt_wf (c : CoreId) (f : Fields) (s : State) (hm : s.mem.wf = true) : Keeps (execVcvt c f s) := by
  unfold execVcvt
  repeat' (first | with_reducible assumption | with_reducible apply refuse_wf | with_reducible apply issue_wf | with_reducible apply vePush_wf
                 | with_reducible apply keeps_live | dsimp only | split | (intro _))

theorem veSqueeze_wf (c : CoreId) (f : Fields) (op : EOp) (s : State) (hm : s.mem.wf = true) : (veSqueeze c f op s).mem.wf = true := by
  unfold veSqueeze
  repeat' (first | with_reducible assumption | with_reducible apply refuse_wf | with_reducible apply issue_wf | with_reducible apply vePush_wf
                 | dsimp only | split | (intro _))

theorem execVcompress_wf (c : CoreId) (f : Fields) (s : State) (hm : s.mem.wf = true) : Keeps (execVcompress c f s) := by
  unfold execVcompress
  repeat' (first | with_reducible assumption | with_reducible apply veSqueeze_wf | with_reducible apply keeps_live)

theorem execVexpand_wf (c : CoreId) (f : Fields) (s : State) (hm : s.mem.wf = true) : Keeps (execVexpand c f s) := by
  unfold execVexpand
  repeat' (first | with_reducible assumption | with_reducible apply veSqueeze_wf | with_reducible apply keeps_live)

theorem execVscan_wf (c : CoreId) (f : Fields) (s : State) (hm : s.mem.wf = true) : Keeps (execVscan c f s) := by
  unfold execVscan
  repeat' (first | with_reducible assumption | with_reducible apply refuse_wf | with_reducible apply issue_wf | with_reducible apply vePush_wf
                 | with_reducible apply keeps_live | dsimp only | split | (intro _))

theorem execVscanseg_wf (c : CoreId) (f : Fields) (s : State) (hm : s.mem.wf = true) : Keeps (execVscanseg c f s) := by
  unfold execVscanseg
  repeat' (first | with_reducible assumption | with_reducible apply refuse_wf | with_reducible apply issue_wf | with_reducible apply vePush_wf
                 | with_reducible apply keeps_live | dsimp only | split | (intro _))

theorem veMem_wf (c : CoreId) (f : Fields) (op : EOp) (types : Nat → Bool) (s : State)
    (hm : s.mem.wf = true) : (veMem c f op types s).mem.wf = true := by
  unfold veMem
  repeat' (first | with_reducible assumption | with_reducible apply refuse_wf | with_reducible apply issue_wf | with_reducible apply vePush_wf
                 | dsimp only | split | (intro _))

theorem execVld_wf (c : CoreId) (f : Fields) (s : State) (hm : s.mem.wf = true) : Keeps (execVld c f s) := by
  unfold execVld
  repeat' (first | with_reducible assumption | with_reducible apply veMem_wf | with_reducible apply keeps_live)

theorem execVst_wf (c : CoreId) (f : Fields) (s : State) (hm : s.mem.wf = true) : Keeps (execVst c f s) := by
  unfold execVst
  repeat' (first | with_reducible assumption | with_reducible apply veMem_wf | with_reducible apply keeps_live)

theorem execVacc_wf (c : CoreId) (f : Fields) (s : State) (hm : s.mem.wf = true) : Keeps (execVacc c f s) := by
  unfold execVacc
  repeat' (first | with_reducible assumption | with_reducible apply refuse_wf | with_reducible apply issue_wf | with_reducible apply vePush_wf
                 | with_reducible apply keeps_live | dsimp only | split | (intro _))

theorem loadLane_wf (k : Core) (c : Nat) (q : QInstr) (o : Opnd) (r : List Nat × State) (i : Nat) (hm : r.2.mem.wf = true) :
    (loadLane k c q o r i).2.mem.wf = true := by
  unfold loadLane
  split
  · exact fetchOpnd_wf _ _ _ _ _ _ hm
  · exact hm

theorem loadLanes_wf (s : State) (c : Nat) (q : QInstr) (o : Opnd) (hm : s.mem.wf = true) : (loadLanes s c q o).2.mem.wf = true := by
  unfold loadLanes
  dsimp only
  split
  · exact foldl_snd_wf _ _ _ hm (fun _ _ h => loadLane_wf _ _ _ _ _ _ h)
  · split
    · exact fetchOpnd_wf _ _ _ _ _ _ hm
    · exact hm

theorem runVld_wf (s : State) (c : Nat) (q : QInstr) (hm : s.mem.wf = true) : (runVld s c q).mem.wf = true := by
  unfold runVld
  repeat' (first | with_reducible assumption | with_reducible apply writeVec_wf | with_reducible apply loadLanes_wf | dsimp only | split)

theorem runVst_wf (s : State) (c : Nat) (q : QInstr) (hm : s.mem.wf = true) : (runVst s c q).mem.wf = true := by
  unfold runVst
  repeat' (first | with_reducible assumption | with_reducible apply writeOpnd_wf | with_reducible apply foldl_wf
                 | with_reducible apply foldl_fst_wf | with_reducible apply foldl_snd_wf | dsimp only | split | (intro _))

theorem runVacc_wf (s : State) (c : Nat) (q : QInstr) (hm : s.mem.wf = true) : (runVacc s c q).mem.wf = true := by
  unfold runVacc
  repeat' (first | with_reducible assumption | with_reducible apply failStep_wf | with_reducible apply writeVec_wf | with_reducible apply foldl_wf
                 | with_reducible apply foldl_fst_wf | with_reducible apply foldl_snd_wf | (simp only [State.modCore_mem]) | dsimp only | split)

theorem runVe_wf (s : State) (c : Nat) (q : QInstr) (hm : s.mem.wf = true) : (runVe s c q).1.mem.wf = true := by
  unfold runVe
  repeat' (first | with_reducible assumption | with_reducible apply writeVec_wf | with_reducible apply vecDetect_wf
                 | with_reducible apply runVld_wf | with_reducible apply runVst_wf | with_reducible apply runVacc_wf
                 | (simp only [State.setCore_mem, State.modCore_mem]) | dsimp only | split)

theorem execVeStart_wf (c : CoreId) (s : State) (hm : s.mem.wf = true) : Keeps (execVeStart c s) := by
  unfold execVeStart
  repeat' (first | with_reducible assumption | with_reducible apply toRunning_wf | with_reducible apply runVe_wf | with_reducible apply keeps_live
                 | (simp only [State.setCore_mem]) | dsimp only | split)

/-! ### Reduce -/

theorem ruPush_wf (c : CoreId) (f : Fields) (op : EOp) (n : VeNeed) (s : State) (hm : s.mem.wf = true) : (ruPush c f op n s).mem.wf = true := by
  unfold ruPush
  repeat' (first | with_reducible assumption | with_reducible apply vePush_wf)

theorem execRclr_wf (c : CoreId) (f : Fields) (s : State) (hm : s.mem.wf = true) : Keeps (execRclr c f s) := by
  unfold execRclr
  repeat' (first | with_reducible assumption | with_reducible apply issue_wf | with_reducible apply ruPush_wf | with_reducible apply keeps_live)

theorem execRsum_wf (c : CoreId) (f : Fields) (s : State) (hm : s.mem.wf = true) : Keeps (execRsum c f s) := by
  unfold execRsum
  repeat' (first | with_reducible assumption | with_reducible apply refuse_wf | with_reducible apply issue_wf | with_reducible apply ruPush_wf
                 | with_reducible apply keeps_live | dsimp only | split | (intro _))

theorem execRrd_wf (c : CoreId) (f : Fields) (s : State) (hm : s.mem.wf = true) : Keeps (execRrd c f s) := by
  unfold execRrd
  repeat' (first | with_reducible assumption | with_reducible apply refuse_wf | with_reducible apply issue_wf | with_reducible apply ruPush_wf
                 | with_reducible apply keeps_live | dsimp only | split | (intro _))

theorem ruMem_wf (c : CoreId) (f : Fields) (op : EOp) (write : Bool) (s : State) (hm : s.mem.wf = true) : (ruMem c f op write s).mem.wf = true := by
  unfold ruMem
  repeat' (first | with_reducible assumption | with_reducible apply refuse_wf | with_reducible apply issue_wf | with_reducible apply ruPush_wf
                 | dsimp only | split | (intro _))

theorem execRxst_wf (c : CoreId) (f : Fields) (s : State) (hm : s.mem.wf = true) : Keeps (execRxst c f s) := by
  unfold execRxst
  repeat' (first | with_reducible assumption | with_reducible apply ruMem_wf | with_reducible apply keeps_live)

theorem execRxadd_wf (c : CoreId) (f : Fields) (s : State) (hm : s.mem.wf = true) : Keeps (execRxadd c f s) := by
  unfold execRxadd
  repeat' (first | with_reducible assumption | with_reducible apply ruMem_wf | with_reducible apply keeps_live)

theorem ruScan_wf (c : CoreId) (f : Fields) (op : EOp) (types : Nat → Bool) (s : State)
    (hm : s.mem.wf = true) : (ruScan c f op types s).mem.wf = true := by
  unfold ruScan
  repeat' (first | with_reducible assumption | with_reducible apply refuse_wf | with_reducible apply issue_wf | with_reducible apply ruPush_wf
                 | dsimp only | split | (intro _))

theorem execRmax_wf (c : CoreId) (f : Fields) (s : State) (hm : s.mem.wf = true) : Keeps (execRmax c f s) := by
  unfold execRmax
  repeat' (first | with_reducible assumption | with_reducible apply ruScan_wf | with_reducible apply keeps_live)

theorem execRmin_wf (c : CoreId) (f : Fields) (s : State) (hm : s.mem.wf = true) : Keeps (execRmin c f s) := by
  unfold execRmin
  repeat' (first | with_reducible assumption | with_reducible apply ruScan_wf | with_reducible apply keeps_live)

theorem execRor_wf (c : CoreId) (f : Fields) (s : State) (hm : s.mem.wf = true) : Keeps (execRor c f s) := by
  unfold execRor
  repeat' (first | with_reducible assumption | with_reducible apply ruScan_wf | with_reducible apply keeps_live)

theorem runRu_wf (s : State) (c : Nat) (q : QInstr) (hm : s.mem.wf = true) : (runRu s c q).1.mem.wf = true := by
  unfold runRu
  repeat' (first | with_reducible assumption | with_reducible apply raiseP_wf | with_reducible apply writeOpnd_wf
                 | with_reducible apply fetchOpnd_wf | with_reducible apply vecDetect_wf | with_reducible apply foldl_wf
                 | with_reducible apply foldl_fst_wf | with_reducible apply foldl_snd_wf | (simp only [State.setCore_mem, State.modCore_mem])
                 | dsimp only | split)

theorem execRuStart_wf (c : CoreId) (s : State) (hm : s.mem.wf = true) : Keeps (execRuStart c s) := by
  unfold execRuStart
  repeat' (first | with_reducible assumption | with_reducible apply toRunning_wf | with_reducible apply runRu_wf | with_reducible apply keeps_live
                 | (simp only [State.setCore_mem]) | dsimp only | split)

/-! ### Scalar -/

theorem scalarOp_wf (c : CoreId) (f : Fields) (op : Word → Word → Word) (s : State) (hm : s.mem.wf = true) : (scalarOp c f op s).mem.wf = true := by
  unfold scalarOp
  repeat' (first | with_reducible assumption | with_reducible apply issue_wf | (simp only [State.modCore_mem]) | dsimp only | split | (intro _))

theorem execAdd_wf (c : CoreId) (f : Fields) (s : State) (hm : s.mem.wf = true) : Keeps (execAdd c f s) := by
  unfold execAdd
  repeat' (first | with_reducible assumption | with_reducible apply scalarOp_wf | with_reducible apply keeps_live)

theorem execSub_wf (c : CoreId) (f : Fields) (s : State) (hm : s.mem.wf = true) : Keeps (execSub c f s) := by
  unfold execSub
  repeat' (first | with_reducible assumption | with_reducible apply scalarOp_wf | with_reducible apply keeps_live)

theorem execAnd_wf (c : CoreId) (f : Fields) (s : State) (hm : s.mem.wf = true) : Keeps (execAnd c f s) := by
  unfold execAnd
  repeat' (first | with_reducible assumption | with_reducible apply scalarOp_wf | with_reducible apply keeps_live)

theorem execOr_wf (c : CoreId) (f : Fields) (s : State) (hm : s.mem.wf = true) : Keeps (execOr c f s) := by
  unfold execOr
  repeat' (first | with_reducible assumption | with_reducible apply scalarOp_wf | with_reducible apply keeps_live)

theorem execXor_wf (c : CoreId) (f : Fields) (s : State) (hm : s.mem.wf = true) : Keeps (execXor c f s) := by
  unfold execXor
  repeat' (first | with_reducible assumption | with_reducible apply scalarOp_wf | with_reducible apply keeps_live)

theorem execShl_wf (c : CoreId) (f : Fields) (s : State) (hm : s.mem.wf = true) : Keeps (execShl c f s) := by
  unfold execShl
  repeat' (first | with_reducible assumption | with_reducible apply scalarOp_wf | with_reducible apply keeps_live)

theorem execShr_wf (c : CoreId) (f : Fields) (s : State) (hm : s.mem.wf = true) : Keeps (execShr c f s) := by
  unfold execShr
  repeat' (first | with_reducible assumption | with_reducible apply scalarOp_wf | with_reducible apply keeps_live)

theorem execSra_wf (c : CoreId) (f : Fields) (s : State) (hm : s.mem.wf = true) : Keeps (execSra c f s) := by
  unfold execSra
  repeat' (first | with_reducible assumption | with_reducible apply scalarOp_wf | with_reducible apply keeps_live)

theorem execMin_wf (c : CoreId) (f : Fields) (s : State) (hm : s.mem.wf = true) : Keeps (execMin c f s) := by
  unfold execMin
  repeat' (first | with_reducible assumption | with_reducible apply scalarOp_wf | with_reducible apply keeps_live)

theorem execMax_wf (c : CoreId) (f : Fields) (s : State) (hm : s.mem.wf = true) : Keeps (execMax c f s) := by
  unfold execMax
  repeat' (first | with_reducible assumption | with_reducible apply scalarOp_wf | with_reducible apply keeps_live)

theorem execMinu_wf (c : CoreId) (f : Fields) (s : State) (hm : s.mem.wf = true) : Keeps (execMinu c f s) := by
  unfold execMinu
  repeat' (first | with_reducible assumption | with_reducible apply scalarOp_wf | with_reducible apply keeps_live)

theorem execMaxu_wf (c : CoreId) (f : Fields) (s : State) (hm : s.mem.wf = true) : Keeps (execMaxu c f s) := by
  unfold execMaxu
  repeat' (first | with_reducible assumption | with_reducible apply scalarOp_wf | with_reducible apply keeps_live)

theorem execSeq_wf (c : CoreId) (f : Fields) (s : State) (hm : s.mem.wf = true) : Keeps (execSeq c f s) := by
  unfold execSeq
  repeat' (first | with_reducible assumption | with_reducible apply scalarOp_wf | with_reducible apply keeps_live)

theorem execSlt_wf (c : CoreId) (f : Fields) (s : State) (hm : s.mem.wf = true) : Keeps (execSlt c f s) := by
  unfold execSlt
  repeat' (first | with_reducible assumption | with_reducible apply scalarOp_wf | with_reducible apply keeps_live)

theorem execSltu_wf (c : CoreId) (f : Fields) (s : State) (hm : s.mem.wf = true) : Keeps (execSltu c f s) := by
  unfold execSltu
  repeat' (first | with_reducible assumption | with_reducible apply scalarOp_wf | with_reducible apply keeps_live)

theorem execLih_wf (c : CoreId) (f : Fields) (s : State) (hm : s.mem.wf = true) : Keeps (execLih c f s) := by
  unfold execLih
  repeat' (first | with_reducible assumption | with_reducible apply issue_wf | with_reducible apply keeps_live | (simp only [State.modCore_mem])
                 | dsimp only | split | (intro _))

theorem execSld_wf (c : CoreId) (f : Fields) (s : State) (hm : s.mem.wf = true) : Keeps (execSld c f s) := by
  unfold execSld
  repeat' (first | with_reducible assumption | with_reducible apply fetchOpnd_wf | with_reducible apply refuse_wf | with_reducible apply issue_wf
                 | with_reducible apply heldData_wf | with_reducible apply keeps_live | (simp only [State.modCore_mem]) | dsimp only | split
                 | (intro _))

theorem execSst_wf (c : CoreId) (f : Fields) (s : State) (hm : s.mem.wf = true) : Keeps (execSst c f s) := by
  unfold execSst
  repeat' (first | with_reducible assumption | with_reducible apply memWrite_wf | with_reducible apply refuse_wf | with_reducible apply issue_wf
                 | with_reducible apply issued_wf | with_reducible apply heldData_wf | with_reducible apply keeps_live | dsimp only | split
                 | (intro _))

theorem execSldc_wf (c : CoreId) (f : Fields) (s : State) (hm : s.mem.wf = true) : Keeps (execSldc c f s) := by
  unfold execSldc
  repeat' (first | with_reducible assumption | with_reducible apply refuse_wf | with_reducible apply issue_wf | with_reducible apply heldData_wf
                 | with_reducible apply keeps_live | (simp only [State.setCore_mem, State.modCore_mem]) | dsimp only | split | (intro _))

theorem execConstantCacheFill_wf (c : CoreId) (s : State) (hm : s.mem.wf = true) : Keeps (execConstantCacheFill c s) := by
  unfold execConstantCacheFill
  repeat' (first | with_reducible assumption | with_reducible apply detectFor_wf | with_reducible apply keeps_live
                 | (simp only [State.modCore_mem]) | dsimp only | split)

theorem execIcacheFill_wf (c : CoreId) (s : State) (hm : s.mem.wf = true) : Keeps (execIcacheFill c s) := by
  unfold execIcacheFill
  repeat' (first | with_reducible assumption | with_reducible apply detectFor_wf | with_reducible apply refuse_wf | with_reducible apply keeps_live
                 | (simp only [State.setCore_mem, State.modCore_mem]) | dsimp only | split)

theorem branchOp_wf (c : CoreId) (f : Fields) (cond : Word → Word → Bool) (s : State)
    (hm : s.mem.wf = true) : (branchOp c f cond s).mem.wf = true := by
  unfold branchOp
  repeat' (first | with_reducible assumption | with_reducible apply issue_wf | (simp only [State.modCore_mem]) | dsimp only | split | (intro _))

theorem execBeq_wf (c : CoreId) (f : Fields) (s : State) (hm : s.mem.wf = true) : Keeps (execBeq c f s) := by
  unfold execBeq
  repeat' (first | with_reducible assumption | with_reducible apply branchOp_wf | with_reducible apply keeps_live)

theorem execBne_wf (c : CoreId) (f : Fields) (s : State) (hm : s.mem.wf = true) : Keeps (execBne c f s) := by
  unfold execBne
  repeat' (first | with_reducible assumption | with_reducible apply branchOp_wf | with_reducible apply keeps_live)

theorem execBlt_wf (c : CoreId) (f : Fields) (s : State) (hm : s.mem.wf = true) : Keeps (execBlt c f s) := by
  unfold execBlt
  repeat' (first | with_reducible assumption | with_reducible apply branchOp_wf | with_reducible apply keeps_live)

theorem execBge_wf (c : CoreId) (f : Fields) (s : State) (hm : s.mem.wf = true) : Keeps (execBge c f s) := by
  unfold execBge
  repeat' (first | with_reducible assumption | with_reducible apply branchOp_wf | with_reducible apply keeps_live)

theorem execBltu_wf (c : CoreId) (f : Fields) (s : State) (hm : s.mem.wf = true) : Keeps (execBltu c f s) := by
  unfold execBltu
  repeat' (first | with_reducible assumption | with_reducible apply branchOp_wf | with_reducible apply keeps_live)

theorem execBgeu_wf (c : CoreId) (f : Fields) (s : State) (hm : s.mem.wf = true) : Keeps (execBgeu c f s) := by
  unfold execBgeu
  repeat' (first | with_reducible assumption | with_reducible apply branchOp_wf | with_reducible apply keeps_live)

theorem execJmp_wf (c : CoreId) (f : Fields) (s : State) (hm : s.mem.wf = true) : Keeps (execJmp c f s) := by
  unfold execJmp
  repeat' (first | with_reducible assumption | with_reducible apply issue_wf | with_reducible apply keeps_live | (simp only [State.modCore_mem])
                 | dsimp only | split | (intro _))

theorem execJmpr_wf (c : CoreId) (f : Fields) (s : State) (hm : s.mem.wf = true) : Keeps (execJmpr c f s) := by
  unfold execJmpr
  repeat' (first | with_reducible assumption | with_reducible apply refuse_wf | with_reducible apply issue_wf | with_reducible apply keeps_live
                 | (simp only [State.modCore_mem]) | dsimp only | split | (intro _))

theorem execLoop_wf (c : CoreId) (f : Fields) (s : State) (hm : s.mem.wf = true) : Keeps (execLoop c f s) := by
  unfold execLoop
  repeat' (first | with_reducible assumption | with_reducible apply issue_wf | with_reducible apply keeps_live | (simp only [State.modCore_mem])
                 | dsimp only | split | (intro _))

theorem execCsrr_wf (c : CoreId) (f : Fields) (s : State) (hm : s.mem.wf = true) : Keeps (execCsrr c f s) := by
  unfold execCsrr
  repeat' (first | with_reducible assumption | with_reducible apply refuse_wf | with_reducible apply issue_wf | with_reducible apply keeps_live
                 | (simp only [State.modCore_mem]) | dsimp only | split | (intro _))

theorem execCsrw_wf (c : CoreId) (f : Fields) (s : State) (hm : s.mem.wf = true) : Keeps (execCsrw c f s) := by
  unfold execCsrw
  repeat' (first | with_reducible assumption | with_reducible apply refuse_wf | with_reducible apply issue_wf | with_reducible apply keeps_live
                 | (simp only [State.modCore_mem]) | dsimp only | split | (intro _))

/-! ### Scan -/

theorem suPush_wf (c : CoreId) (f : Fields) (op : EOp) (w1 : Word) (rs : List Rng) (sdest : Option Nat) (s : State)
    (hm : s.mem.wf = true) : (suPush c f op w1 rs sdest s).mem.wf = true := by
  unfold suPush
  repeat' (first | with_reducible assumption | with_reducible apply pushEngine_wf)

theorem execSucfg_wf (c : CoreId) (f : Fields) (s : State) (hm : s.mem.wf = true) : Keeps (execSucfg c f s) := by
  unfold execSucfg
  repeat' (first | with_reducible assumption | with_reducible apply issue_wf | with_reducible apply heldQueue_wf | with_reducible apply suPush_wf
                 | with_reducible apply keeps_live | (simp only [State.modCore_mem]) | dsimp only | split | (intro _))

theorem execSutab_wf (c : CoreId) (f : Fields) (s : State) (hm : s.mem.wf = true) : Keeps (execSutab c f s) := by
  unfold execSutab
  repeat' (first | with_reducible assumption | with_reducible apply refuse_wf | with_reducible apply issue_wf | with_reducible apply suPush_wf
                 | with_reducible apply keeps_live | dsimp only | split | (intro _))

theorem execSuflt_wf (c : CoreId) (f : Fields) (s : State) (hm : s.mem.wf = true) : Keeps (execSuflt c f s) := by
  unfold execSuflt
  repeat' (first | with_reducible assumption | with_reducible apply refuse_wf | with_reducible apply issue_wf | with_reducible apply suPush_wf
                 | with_reducible apply keeps_live | dsimp only | split | (intro _))

theorem execSusel_wf (c : CoreId) (f : Fields) (s : State) (hm : s.mem.wf = true) : Keeps (execSusel c f s) := by
  unfold execSusel
  repeat' (first | with_reducible assumption | with_reducible apply refuse_wf | with_reducible apply issue_wf | with_reducible apply suPush_wf
                 | with_reducible apply keeps_live | dsimp only | split | (intro _))

theorem execSutopk_wf (c : CoreId) (f : Fields) (s : State) (hm : s.mem.wf = true) : Keeps (execSutopk c f s) := by
  unfold execSutopk
  repeat' (first | with_reducible assumption | with_reducible apply refuse_wf | with_reducible apply issue_wf | with_reducible apply suPush_wf
                 | with_reducible apply keeps_live | dsimp only | split | (intro _))

theorem execSuscan_wf (c : CoreId) (f : Fields) (w1 : Word) (s : State) (hm : s.mem.wf = true) : Keeps (execSuscan c f w1 s) := by
  unfold execSuscan
  repeat' (first | with_reducible assumption | with_reducible apply refuse_wf | with_reducible apply issue_wf | with_reducible apply suPush_wf
                 | with_reducible apply keeps_live | dsimp only | split | (intro _))

theorem suFetch_wf (s : State) (c : Nat) (w : Word) (off n : Nat) (hm : s.mem.wf = true) : (suFetch s c w off n).2.mem.wf = true := by
  unfold suFetch
  repeat' (first | with_reducible assumption | with_reducible apply fetchOpnd_wf | dsimp only | split)

theorem runSutab_wf (s : State) (c : Nat) (q : QInstr) (hm : s.mem.wf = true) : (runSutab s c q).mem.wf = true := by
  unfold runSutab
  repeat' (first | with_reducible assumption | with_reducible apply writeOpnd_wf | with_reducible apply suFetch_wf)

theorem runSuflt_wf (s : State) (c : Nat) (q : QInstr) (hm : s.mem.wf = true) : (runSuflt s c q).mem.wf = true := by
  unfold runSuflt
  repeat' (first | with_reducible assumption | with_reducible apply raiseP_wf | with_reducible apply suFetch_wf | (simp only [State.modCore_mem])
                 | dsimp only | split)

theorem slotDetect_wf (s : State) (c : Nat) (qs : List Nat) (hm : s.mem.wf = true) : (slotDetect s c qs).mem.wf = true := by
  unfold slotDetect
  repeat' (first | with_reducible assumption | with_reducible apply raiseD_wf | dsimp only | split)

theorem offerAll_wf (s : State) (c q : Nat) (xs : List SelEntry) (hm : s.mem.wf = true) : (offerAll s c q xs).mem.wf = true := by
  unfold offerAll
  repeat' (first | with_reducible assumption | with_reducible apply slotDetect_wf | with_reducible apply foldl_wf
                 | with_reducible apply foldl_fst_wf | with_reducible apply foldl_snd_wf | (simp only [State.modCore_mem]) | dsimp only | split)

theorem runSusel_wf (s : State) (c : Nat) (q : QInstr) (hm : s.mem.wf = true) : (runSusel s c q).mem.wf = true := by
  unfold runSusel
  repeat' (first | with_reducible assumption | with_reducible apply suFetch_wf | with_reducible apply offerAll_wf | dsimp only | split)

theorem runSutopk_wf (s : State) (c : Nat) (q : QInstr) (hm : s.mem.wf = true) : (runSutopk s c q).1.mem.wf = true := by
  unfold runSutopk
  repeat' (first | with_reducible assumption | with_reducible apply writeOpnd_wf | with_reducible apply slotDetect_wf | dsimp only | split)

theorem runSuscan_wf (s : State) (c : Nat) (q : QInstr) (hm : s.mem.wf = true) : (runSuscan s c q).mem.wf = true := by
  unfold runSuscan
  repeat' (first | with_reducible assumption | with_reducible apply raiseD_wf | with_reducible apply suFetch_wf
                 | with_reducible apply slotDetect_wf | with_reducible apply foldl_wf | with_reducible apply foldl_fst_wf
                 | with_reducible apply foldl_snd_wf | (simp only [State.modCore_mem]) | dsimp only | split)

theorem runSucfg_wf (s : State) (c : Nat) (q : QInstr) (hm : s.mem.wf = true) : (runSucfg s c q).mem.wf = true := by
  unfold runSucfg
  repeat' (first | with_reducible assumption | with_reducible apply foldl_wf | with_reducible apply foldl_fst_wf
                 | with_reducible apply foldl_snd_wf | (simp only [State.modCore_mem]))

theorem runSu_wf (s : State) (c : Nat) (q : QInstr) (hm : s.mem.wf = true) : (runSu s c q).1.mem.wf = true := by
  unfold runSu
  repeat' (first | with_reducible assumption | with_reducible apply runSutab_wf | with_reducible apply runSuflt_wf
                 | with_reducible apply runSusel_wf | with_reducible apply runSutopk_wf | with_reducible apply runSuscan_wf
                 | with_reducible apply runSucfg_wf | dsimp only | split)

theorem execSuStart_wf (c : CoreId) (s : State) (hm : s.mem.wf = true) : Keeps (execSuStart c s) := by
  unfold execSuStart
  repeat' (first | with_reducible assumption | with_reducible apply qosStart_wf | with_reducible apply toRunning_wf | with_reducible apply runSu_wf
                 | with_reducible apply keeps_live | (simp only [State.modCore_mem]) | dsimp only | split)

/-! ### Opcodes -/

theorem execIllegalOpcode_wf (c : CoreId) (w0 w1 : Word) (s : State) (hm : s.mem.wf = true) : Keeps (execIllegalOpcode c w0 w1 s) := by
  unfold execIllegalOpcode
  repeat' (first | with_reducible assumption | with_reducible apply refuse_wf | with_reducible apply issue_wf | with_reducible apply keeps_live
                 | dsimp only | split | (intro _))

/-! ### TestAccess -/

theorem testInstr_wf (s : State) (i : TestInstr) (tdo : Option Word) (hm : s.mem.wf = true) : Keeps (testInstr s i tdo) := by
  unfold testInstr
  repeat' (first | with_reducible assumption | with_reducible apply emit_wf | with_reducible apply keeps_next | dsimp only | split)

theorem testOnly_wf (s : State) (f : State → Result) (hm : s.mem.wf = true) (hf : ∀ x0, x0.mem.wf = true → Keeps (f x0)) : Keeps (testOnly s f) := by
  unfold testOnly
  repeat' (first | with_reducible assumption | with_reducible apply testInstr_wf | apply hf | dsimp only | split)

theorem testRead_wf (s : State) (i : TestInstr) (hm : s.mem.wf = true) : Keeps (testRead s i) := by
  unfold testRead
  repeat' (first | with_reducible assumption | with_reducible apply takeFree_wf | with_reducible apply testInstr_wf)

theorem execBypass_wf (s : State) (hm : s.mem.wf = true) : Keeps (execBypass s) := by
  unfold execBypass
  repeat' (first | with_reducible assumption | with_reducible apply testInstr_wf)

theorem execIdcode_wf (s : State) (hm : s.mem.wf = true) : Keeps (execIdcode s) := by
  unfold execIdcode
  repeat' (first | with_reducible assumption | with_reducible apply testInstr_wf)

theorem execSample_wf (s : State) (hm : s.mem.wf = true) : Keeps (execSample s) := by
  unfold execSample
  repeat' (first | with_reducible assumption | with_reducible apply testRead_wf)

theorem execBootstat_wf (s : State) (hm : s.mem.wf = true) : Keeps (execBootstat s) := by
  unfold execBootstat
  repeat' (first | with_reducible assumption | with_reducible apply testInstr_wf)

theorem execPreload_wf (s : State) (hm : s.mem.wf = true) : Keeps (execPreload s) := by
  unfold execPreload
  repeat' (first | with_reducible assumption | with_reducible apply takeFree_wf | with_reducible apply testInstr_wf
                 | with_reducible apply testOnly_wf | dsimp only | split | (intro _))

theorem execExtest_wf (s : State) (hm : s.mem.wf = true) : Keeps (execExtest s) := by
  unfold execExtest
  repeat' (first | with_reducible assumption | with_reducible apply testOnly_wf | with_reducible apply testRead_wf | dsimp only | split | (intro _))

theorem execHlloop_wf (s : State) (hm : s.mem.wf = true) : Keeps (execHlloop s) := by
  unfold execHlloop
  repeat' (first | with_reducible assumption | with_reducible apply testInstr_wf | with_reducible apply testOnly_wf | dsimp only | split | (intro _))

theorem execStacksel_wf (l : Fin 12) (s : State) (hm : s.mem.wf = true) : Keeps (execStacksel l s) := by
  unfold execStacksel
  repeat' (first | with_reducible assumption | with_reducible apply testInstr_wf | with_reducible apply testOnly_wf | dsimp only | split | (intro _))

theorem execMbist_wf (s : State) (hm : s.mem.wf = true) : Keeps (execMbist s) := by
  unfold execMbist
  repeat' (first | with_reducible assumption | with_reducible apply testOnly_wf | with_reducible apply testRead_wf | dsimp only | split | (intro _))

theorem execCorescan_wf (s : State) (hm : s.mem.wf = true) : Keeps (execCorescan s) := by
  unfold execCorescan
  repeat' (first | with_reducible assumption | with_reducible apply testOnly_wf | with_reducible apply testRead_wf | dsimp only | split | (intro _))

end Sys2Proof.Machine
end

