-- ==== Sys2Proof/Laws/Ops.lean ====
section
/-!
SUPPORT. What each shared operation does, said once: the two guards of a command, the issue of an instruction, scalar
registers, faults and the error log, free values, and the step over the queue.
-/
namespace Sys2Proof.Machine

/-! ### The guards and the step -/

/-- With PORST_N high, outside the test state and with CCLK running, a command has its effect. -/
theorem live_of_clocked {s : State} {f : State → State} (hp : s.boot.porstLow = false) (ht : s.boot.testState = false)
    (hc : s.halted = false) : live s f = .next (f s) := by
  simp [live, hp, ht, hc]

/-- Without CCLK such a command changes nothing. -/
theorem live_of_halted {s : State} {f : State → State} (hc : s.halted = true) : live s f = .next s := by
  simp [live, hc]

/-- With PORST_N high and outside the test state, a command of the AUX domain has its effect. -/
theorem awake_of_powered {s : State} {f : State → State} (hp : s.boot.porstLow = false) (ht : s.boot.testState = false) :
    awake s f = .next (f s) := by
  simp [awake, hp, ht]

/-- A command under either guard always answers a next state: the effect's, or the die as it was. -/
theorem live_answers (s : State) (f : State → State) : live s f = .next (f s) ∨ live s f = .next s := by
  unfold live; split <;> simp

/-- A step performs the command at the front of the queue. -/
theorem step_cons (c : Instr) (s : State) : step { s with pending := c :: s.pending } = exec c s := rfl

/-- With nothing waiting a step lets one clock pass. -/
theorem step_nil {s : State} (h : s.pending = []) : step s = .next (tick s) := by
  simp [step, h]

/-! ### Issue (R180, R185) -/

/-- An instruction that the core may issue, whose lines are present, whose fields are in order and whose registers are not
pending has its own effect. -/
theorem issue_ready {c : Nat} {long : Bool} {regs : List (BitVec 5)} {eff : State → State} {s : State}
    (hi : (s.core c).issuing = true) (hl : (s.core c).missing long = none) (hr : (s.core c).pending regs = false) :
    issue c long true regs eff s = eff s := by
  simp [issue, hi, hl, hr]

/-- A core that may not issue takes nothing. -/
theorem issue_held {c : Nat} {long ok : Bool} {regs : List (BitVec 5)} {eff : State → State} {s : State}
    (hi : (s.core c).issuing = false) : issue c long ok regs eff s = s := by
  simp [issue, hi]

/-- A missing line is asked for, and nothing issues. -/
theorem issue_miss {c : Nat} {long ok : Bool} {regs : List (BitVec 5)} {eff : State → State} {s : State} {l : Nat}
    (hi : (s.core c).issuing = true) (hl : (s.core c).missing long = some l) :
    issue c long ok regs eff s = s.setCore c ((s.core c).askLine l) := by
  simp [issue, hi, hl]

/-- Fields out of order are refused. -/
theorem issue_fields {c : Nat} {long : Bool} {regs : List (BitVec 5)} {eff : State → State} {s : State}
    (hi : (s.core c).issuing = true) (hl : (s.core c).missing long = none) :
    issue c long false regs eff s = refuse s c fReservedSet := by
  simp [issue, hi, hl]

/-- A pending register holds issue for a cycle, counted as data. -/
theorem issue_pending {c : Nat} {long : Bool} {regs : List (BitVec 5)} {eff : State → State} {s : State}
    (hi : (s.core c).issuing = true) (hl : (s.core c).missing long = none) (hr : (s.core c).pending regs = true) :
    issue c long true regs eff s = heldData s c := by
  simp [issue, hi, hl, hr, heldData, State.modCore]

/-- Whatever an issue does, it is one of five: nothing, a line asked for, a refusal, a cycle held, or the effect. -/
theorem issue_cases (c : Nat) (long ok : Bool) (regs : List (BitVec 5)) (eff : State → State) (s : State) :
    issue c long ok regs eff s = s ∨ (∃ l, issue c long ok regs eff s = s.setCore c ((s.core c).askLine l)) ∨
    issue c long ok regs eff s = refuse s c fReservedSet ∨ issue c long ok regs eff s = heldData s c ∨
    issue c long ok regs eff s = eff s := by
  unfold issue heldData State.modCore
  dsimp only
  split
  · exact .inl rfl
  · split
    · exact .inr (.inl ⟨_, rfl⟩)
    · split
      · exact .inr (.inr (.inl rfl))
      · split
        · exact .inr (.inr (.inr (.inl rfl)))
        · exact .inr (.inr (.inr (.inr rfl)))

/-- PC moves past the instruction. -/
@[simp] theorem Core.advance_pc (k : Core) (long : Bool) : (k.advance long).csr.pc = k.csr.pc + (if long then 16 else 8) := rfl
/-- Passing an instruction leaves the scalar registers. -/
@[simp] theorem Core.advance_sregs (k : Core) (long : Bool) : (k.advance long).sregs = k.sregs := rfl
/-- Passing an instruction leaves the state of the core. -/
@[simp] theorem Core.advance_st (k : Core) (long : Bool) : (k.advance long).st = k.st := rfl
/-- Passing an instruction leaves the flags. -/
@[simp] theorem Core.advance_flags (k : Core) (long : Bool) : (k.advance long).csr.flags = k.csr.flags := by
  unfold Core.advance Csr.countIssued Csr.setWrap; dsimp only; split <;> rfl

/-! ### Scalar registers (R176) -/

/-- s0 reads zero. -/
@[simp] theorem Core.sreg_zero (k : Core) : k.sreg 0 = 0 := rfl
/-- A write to s0 is discarded. -/
@[simp] theorem Core.setSreg_zero (k : Core) (v : Word) : k.setSreg 0 v = k := rfl

/-- A write to another register is read there, and every other register as before. -/
theorem Core.sreg_setSreg (k : Core) (n m : Nat) (v : Word) :
    (k.setSreg n v).sreg m = if m = n ∧ n ≠ 0 then v else k.sreg m := by
  unfold Core.setSreg Core.sreg
  by_cases hn : n = 0
  · subst hn; simp
  · by_cases hm : m = 0
    · subst hm; simp [hn, Ne.symm hn]
    · simp only [hn, hm, if_false, Table.get_set]; simp [hn]

/-- A write to a scalar register leaves the CSRs. -/
@[simp] theorem Core.setSreg_csr (k : Core) (n : Nat) (v : Word) : (k.setSreg n v).csr = k.csr := by
  unfold Core.setSreg; split <;> rfl
/-- A write to a scalar register leaves the state of the core. -/
@[simp] theorem Core.setSreg_st (k : Core) (n : Nat) (v : Word) : (k.setSreg n v).st = k.st := by
  unfold Core.setSreg; split <;> rfl

/-! ### Faults and the log (R353, R354, R356) -/

/-- The FAULT CSR keeps its first code, and takes the first after a clear. -/
theorem setFault_fault (s : State) (c : Nat) (code : BitVec 16) :
    ((setFault s c code).core c).csr.fault = if (s.core c).csr.fault = 0 then code else (s.core c).csr.fault := by
  simp [setFault]

/-- Raising a fault outside the cores pushes its record and changes nothing but the log. -/
theorem raiseUnit_eq (s : State) (code : BitVec 16) (colour : BitVec 4) (unit : Nat) (peer : Option (BitVec 6)) (detail : BitVec 16) :
    raiseUnit s code colour unit peer detail =
      { s with log := s.log.push { mkRec s code colour none unit with peer := peer, detail := detail } } := rfl

/-- Raising a record leaves memory. -/
@[simp] theorem raiseRec_mem (s : State) (r : LogRec) : (raiseRec s r).mem = s.mem := by
  unfold raiseRec setFault; cases r.core <;> rfl
/-- Raising a record leaves the queue. -/
@[simp] theorem raiseRec_pending (s : State) (r : LogRec) : (raiseRec s r).pending = s.pending := by
  unfold raiseRec setFault; cases r.core <;> rfl
/-- Raising a record sends nothing. -/
@[simp] theorem raiseRec_out (s : State) (r : LogRec) : (raiseRec s r).out = s.out := by
  unfold raiseRec setFault; cases r.core <;> rfl
/-- A program fault leaves memory. -/
@[simp] theorem raiseP_mem (s : State) (c : Nat) (code : BitVec 16) (unit : Nat) (detail : BitVec 16) :
    (raiseP s c code unit detail).mem = s.mem := by
  unfold raiseP failStep raiseCore; simp

/-- A program fault halts its core. -/
@[simp] theorem raiseP_st (s : State) (c : Nat) (code : BitVec 16) (unit : Nat) (detail : BitVec 16) :
    ((raiseP s c code unit detail).core c).st = .halted := by
  unfold raiseP; simp
/-- A program fault sets STEP_FAIL. -/
@[simp] theorem raiseP_stepFail (s : State) (c : Nat) (code : BitVec 16) (unit : Nat) (detail : BitVec 16) :
    ((raiseP s c code unit detail).core c).csr.stepFail = true := by
  unfold raiseP failStep; simp

/-- The log never holds more than 512 entries. -/
theorem Log.enter_length (l : Log) (r : LogRec) (h : l.entries.length ≤ 512) : (l.enter r).entries.length ≤ 512 := by
  unfold Log.enter
  split
  · split
    · rename_i e he _
      have : l.entries ≠ [] := by intro h0; simp [h0] at he
      have := List.length_pos_of_ne_nil this
      simp; omega
    · simp only [List.length_append, List.length_singleton]
      split <;> simp <;> omega
  · simp

/-- The capture queue never holds more than 64 records. -/
theorem Log.push_length (l : Log) (r : LogRec) (h : l.capq.length ≤ 64) : (l.push r).capq.length ≤ 64 := by
  unfold Log.push
  dsimp only
  split
  · simp; omega
  · split <;> exact h

/-! ### Free values (assumption 9) -/

/-- Taking free bytes changes only the count, and answers as many bytes as were asked for. -/
theorem takeFreeBytes_eq (s : State) (n : Nat) :
    (takeFreeBytes s n).2 = { s with free := s.free + n } ∧ (takeFreeBytes s n).1.length = n := by
  simp [takeFreeBytes]

/-! ### Region checks (R135) -/

/-- An access to control space is refused for every colour. -/
theorem check_ctl {s : State} {colour a n : Nat} {agent win : Option Nat} {w : Bool} (hn : n ≠ 0) (h : s.place a n = .ctl) :
    s.check colour agent win w a n = .refused := by
  simp [State.check, hn, h]

/-- An access outside the map faults as unmapped. -/
theorem check_unmapped {s : State} {colour a n : Nat} {agent win : Option Nat} {w : Bool} (hn : n ≠ 0)
    (h : s.place a n = .unmapped) : s.check colour agent win w a n = .unmapped := by
  simp [State.check, hn, h]

end Sys2Proof.Machine
end

