-- ==== Sys2Proof/Tests/Slice0.lean ====
section
/-!
SUPPORT. The tests: ill-formed commands are refused by the well-formedness check; values that the spec writes out; and, for
each statement with hypotheses, one theorem witness_<statement> with concrete states and operands that meet the hypotheses of
its clauses. Expected results come from the spec's own examples and tables. A hypothesis on an opaque constant of Config (a
signature, a digest of an image) has no value to evaluate, so the witnesses of AdminCommandsTakeEffect,
ImagesAreStagedCommittedAndEvicted and BootStagesFollowInOrder leave exactly those hypotheses out.
-/
set_option maxRecDepth 20000
set_option linter.all false
set_option Elab.async false

namespace Sys2Proof.Tests
open Sys2Proof Sys2Proof.Machine Sys2Proof.Stated

/-! ### Ill-formed commands -/

/-- A flit of 224 bytes of payload is well-formed, one of 223 is not. -/
theorem test_flit_length (f : Flit) :
    Flit.wf { f with payload := List.replicate 224 0 } = true ∧ Flit.wf { f with payload := List.replicate 223 0 } = false := by
  simp [Flit.wf]

/-- The sampled temperatures of 64 sensors are well-formed, those of 63 are not. -/
theorem test_thermal_length :
    (Instr.thermalUpdate (List.replicate 64 0) 0).wf = true ∧ (Instr.thermalUpdate (List.replicate 63 0) 0).wf = false := by decide

/-- A register write of one byte is well-formed, one of none is not. -/
theorem test_register_write_length :
    (Instr.registerWrite 0 [0]).wf = true ∧ (Instr.registerWrite 0 []).wf = false := by decide

/-- No word spells a command, since the table gives no bits. -/
theorem test_no_word : decodeTableWord 32 0x12345678 = none := by decide

/-- A word of a core program, written out by Table 9-3: ADD s3 = s1 + 5 (major 0x01, minor 0x00, X[0] = 1, Table 9-8). -/
theorem test_decode_add : decodeCore 7 0b0000010000000000011000010000000100000000000000000000000000000101 0 = some (.add 7 ⟨3, 1, 0, 1, 5⟩) := by decide

/-- SUCFG with sA = s2 and IMM 9 (major 0x20, minor 0x00, Table 12-4), and the long form MAT in FULL mode (major 0x11, word 1 bit 57). -/
theorem test_decode_su_mat : decodeCore 7 0b1000000000000000000000100000000000000000000000000000000000001001 0 = some (.sucfg 7 ⟨0, 2, 0, 0, 9⟩) ∧
    decodeCore 7 0b0100010000000000100001010011001000000000000000000000000000000000 0x0200000000000000 = some (.matFull 7 ⟨4, 5, 6, 2, 0⟩ 0x0200000000000000) := by decide

/-- Zeroed memory, and minor 0x10 of SCALAR, spell no instruction (R179). -/
theorem test_decode_reserved : decodeCore 7 0 0 = none ∧ decodeCore 7 0b0000010001000000000000000000000000000000000000000000000000000000 0 = none := by decide

/-! ### Values the spec writes out -/

/-- The CRC of the nine ASCII bytes "123456789" (R70). -/
theorem test_crc : crc64 [0x31, 0x32, 0x33, 0x34, 0x35, 0x36, 0x37, 0x38, 0x39] = 0x62EC59E3F1A4F00A := by decide +kernel

/-- The CRC-16 of the same nine bytes with the granule's parameters: the published check value of this polynomial, 0x29B1 (R118). -/
theorem test_crc16 : crc16 [0x31, 0x32, 0x33, 0x34, 0x35, 0x36, 0x37, 0x38, 0x39] = 0x29B1 := by decide +kernel

/-- The DLA 0xB_1923_4540 lies in layer 7, vault 19, bank 5, row 582 (chapter 6, the example of three CRC failures). -/
theorem test_row : rowOf 0xB19234540 = ((7 * 48 + 19) * 16 + 5) * 4096 + 582 := by decide

/-- DLA 0x0D_4000_0000 is layer 8, vault 40 (chapter 7, after R132). -/
theorem test_vault : 0x0D40000000 / 0x180000000 = 8 ∧ vaultOf 0x0D40000000 = 40 := by decide

/-- At the default period of 20 microseconds REFRESH books 6 slices a stroke (R52). -/
theorem test_refresh : refreshSlices 20 = 6 := by decide

/-- EXP of 1 in bf16 is e rounded to eight bits, 2.71875 (R239: the true value correctly rounded). -/
theorem test_exp : trnElem 6 9 0x3F80 = 0x402E := by decide +kernel

/-- COS of 0 in bf16 is 1 and RECIP of 3 is 0.333984375 (R239). -/
theorem test_cos_recip : trnElem 6 8 0 = 0x3F80 ∧ trnElem 6 3 0x4040 = 0x3EAB := by decide +kernel

/-- With physical columns 5, 17 and 30 bypassed an array is 29 columns wide (R217, Table 10-11). -/
theorem test_width : MArray.width { bad := 0x40020020 } = 29 := by decide

/-! ### Small states and commands -/

def nextOf (r : Result) : State := match r with | .next t => t | _ => {}
def fld (d a b : BitVec 5) (x : BitVec 3) (imm : BitVec 32) : Fields := { d := d, a := a, b := b, x := x, imm := imm }
def run0 : Core := { on := true, st := .run, icache := [0, 1] }
def base : State := { boot := { porstLow := false } }
def dieOf (k : Core) : State := { base with cores := [(0, k)] }
def req (op : Nat) (p : List Byte) : List Byte := leBytes 2 op ++ leBytes 2 0xABC ++ leBytes 2 p.length ++ [0, 0, 2, 0] ++ leBytes 6 0 ++ takePad 240 p
def mbx (op : Nat) (p : List Byte) : Mailbox := { st := .ready, reqTail := 4, reqSeen := 4, reqHead := 3, accepted := [{ idx := 3, bytes := req op p }] }
def srv (s : State) (mb op : Nat) (p : List Byte) : State := { s with skovi := { s.skovi with up := true, mbEpoch := 2 }, mailboxes := [(mb, mbx op p)] }
def hubbed (s : State) : State := { s with member := { s.member with id := some 1, dies := [(5, { st := .verified, uid := 0x2222, port := 1, dist := 1, direct := true }), (60, { st := .verified, role := 1, port := 2, dist := 1, direct := true })] }, ports := [(1, { st := .active, sbUp := true, partner := some (5, true, 2, 0, 0x2222) }), (2, { st := .active, sbUp := true, partner := some (60, true, 0, 1, 0) })] }
def work (s : State) (mb op : Nat) (p : List Byte) (ph : Nat) (rep : List Byte) (tr : List Transfer) : State := { srv s mb op p with mailboxes := [(mb, { mbx op p with accepted := [{ idx := 3, bytes := req op p, running := true, phase := ph, report := rep }] })], skovi := { (srv s mb op p).skovi with transfers := tr } }
def tran (mb : Nat) (write : Bool) (n sent out : Nat) (failed : Bool) (got : List Byte) : Transfer := { num := 1, who := .cmd mb 3, write := write, die := 60, addr := 0x1000, len := n, sent := sent, out := out, failed := failed, got := [(0, got)] }

/-- A computation that has the value a. -/
theorem okOf {ε α : Type} (x : Except ε α) (a : α) (h : x.toOption = some a) : x = .ok a := by
  cases x <;> simp_all [Except.toOption]

/-- A pair that an optional pair holds. -/
theorem exOf {α β : Type} (o : Option (α × β)) (P : α → β → Prop) [∀ a b, Decidable (P a b)]
    (h : (match o with | some x => decide (P x.1 x.2) | none => false) = true) : ∃ a b, o = some (a, b) ∧ P a b := by
  cases o with
  | none => cases h
  | some x => exact ⟨x.1, x.2, rfl, of_decide_eq_true h⟩

/-- No such pair. -/
theorem notExOf {α β : Type} (o : Option (α × β)) (P : α → β → Prop) [∀ a b, Decidable (P a b)]
    (h : (match o with | some x => decide (P x.1 x.2) | none => false) = false) : ¬ ∃ a b, o = some (a, b) ∧ P a b := by
  rintro ⟨a, b, rfl, hp⟩
  simp [hp] at h

/-- Another UID than the own one. -/
theorem uidNext : Config.uid + 1 ≠ Config.uid := by simp

/-- The rows of Table 17-8 with the commands that perform them. -/
def tableRows (mb : Fin 16) (i : BitVec 16) (man : Option Manifest) (tests : List ArrayReport) : List (Nat × Instr) :=
  [(0x01, .identify mb i), (0x02, .fwInfo mb i), (0x10, .fwStage mb i .overPorts), (0x11, .fwActivate mb i), (0x20, .dieState mb i), (0x21, .warmReset mb i), (0x30, .mastConfig mb i), (0x31, .mastStatus mb i), (0x40, .linkStatus mb i), (0x41, .linkReset mb i), (0x50, .peerTable mb i .overPorts), (0x51, .dieFence mb i), (0x52, .dieReinstate mb i), (0x60, .partCreate mb i), (0x61, .partDestroy mb i), (0x62, .partReset mb i), (0x63, .partQuery mb i), (0x70, .qosSet mb i), (0x71, .powerPlan mb i), (0x80, .telemetry mb i .overPorts), (0x81, .errlogRead mb i .overPorts), (0x82, .errlogClear mb i), (0x90, .arrayMap mb i), (0xA0, .debugChallenge mb i), (0xA1, .debugUnlock mb i), (0x100, .imageStage mb i man .overPorts .overPorts), (0x101, .imageCommit mb i), (0x102, .imageQuery mb i), (0x103, .imageEvict mb i), (0x110, .rqCreate mb i), (0x111, .rqBind mb i), (0x120, .jobLaunch mb i .overPorts tests), (0x121, .jobAbort mb i), (0x122, .jobStatus mb i), (0x130, .indexAttach mb i), (0x131, .indexDetach mb i), (0x140, .intrConfig mb i), (0x150, .replayPolicy mb i), (0x160, .partTelemetry mb i .overPorts)]

/-! ### Witnesses -/

theorem witness_EmptyQueuePassesOneClock :
    (State.reset.pending = [] ∧ State.reset.boot.porstLow = true) ∧
    (let s : State := { base with mast := { st := .lost } }
     s.pending = [] ∧ s.boot.porstLow = false ∧ s.halted = false ∧ s.mast.st ≠ .unlocked) ∧
    (let s : State := { base with boot := { porstLow := false, tripped := true } }
     s.pending = [] ∧ s.boot.porstLow = false ∧ s.halted = true) := by decide +kernel

theorem witness_EveryStepKeepsMemoryCanonical :
    let s : State := { base with mem := { cells := [(3, 7), (9, 1)] } }
    s.mem.wf = true ∧ step s = .next (tick s) := by
  refine ⟨by decide +kernel, rfl⟩

theorem witness_SelectorHoldsTheKBestOffers :
    let g : SuCfg := ⟨1, 2, true⟩
    let xs : List SelEntry := [⟨0x80000000, 9⟩, ⟨0, 7⟩, ⟨0, 4⟩]
    let value := fun (x : BitVec 32) => fp32.decode x.toNat
    let number := fun (x : BitVec 32) => value x ≠ .nan
    (∀ a ∈ xs, ∀ b ∈ xs, a.id = b.id → g.keyBetter a.key b.key = false → g.keyBetter b.key a.key = false → a = b) ∧
    g.kt = 2 ∧ number 0 ∧ number 0x80000000 ∧ ¬ number 0x7FC00000 ∧ SuCfg.kt ⟨1, 0, true⟩ = 0 ∧ SuCfg.kt ⟨1, 1, true⟩ = 1 := by
  dsimp only; decide +kernel

def kA : Core := { run0 with sregs := [(2, 5), (3, 0xFFFFFFFFFFFFFFF9)] }
def kB : Core := { run0 with sregs := [(2, 0x8000000000000000), (3, 0x8000000000000000)], csr := { issued := 0xFFFFFFFFFFFF, pc := 8 } }
theorem witness_ScalarInstructionsWriteTheirResult :
    (let s : State := dieOf kA
     let c : CoreId := 0
     let f : Fields := fld 1 2 3 0 0
     Issues s c [f.d, f.a, f.b] ∧ ScalarFields f) ∧
    (let s : State := dieOf kA
     let c : CoreId := 0
     let f : Fields := fld 1 3 0 0 0x12345678
     Issues s c [f.d, f.a, f.b] ∧ f.x = 0 ∧ f.b = 0) := by
  and_intros <;> (try dsimp only) <;>
    decide +kernel

theorem witness_BranchesGoWhereTheRuleSays :
    (let s : State := dieOf kA
     let c : CoreId := 0
     let f : Fields := fld 0 0 0 0 0xFFFFFFFE
     let k := s.core c.val
     let x := k.sreg f.a.toNat
     Issues s c [f.a, f.b] ∧ f.d = 0 ∧ f.x = 0 ∧ Issues s c [] ∧ f.a = 0 ∧ f.b = 0 ∧ Issues s c [f.d]) ∧
    (let s : State := dieOf kA
     let c : CoreId := 0
     let f : Fields := fld 1 2 0 0 0
     let k := s.core c.val
     let x := k.sreg f.a.toNat
     Issues s c [f.d, f.a] ∧ f.b = 0 ∧ f.x = 0 ∧ f.imm = 0 ∧ x.toNat % 8 ≠ 0) ∧
    (let s : State := dieOf kB
     let c : CoreId := 0
     let f : Fields := fld 1 2 0 0 0
     let k := s.core c.val
     let x := k.sreg f.a.toNat
     Issues s c [f.d, f.a] ∧ f.b = 0 ∧ f.x = 0 ∧ f.imm = 0 ∧ x.toNat % 8 = 0) := by
  and_intros <;> (try dsimp only) <;>
    decide +kernel

def kM : Core := { run0 with sregs := [(2, 0x8000000008), (3, 0xFFFFFFFFFFFFFFF9), (4, 0x8000000001), (5, 0x1000), (6, 0xFFF0000000)] }
def sM : State := { dieOf kM with mem := { cells := [(0x8000000008, 0x80), (0x8000000009, 0x7F)] } }
def kC : Core := { kM with ccache := [(0x200000000, [1,2,3,4,5,6,7,8,9,10,11,12,13,14,15,16])] }
def sC : State := { sM with cores := [(0, kC)] }
def sCb : State := { sM with cores := [(0, { kC with ccBad := [0x200000000] })] }
def sCf : State := { sM with cores := [(0, { kM with ccFill := some (0x200000000, 0x8000000008, 3, false), pendS := [3] })] }
def sIf : State := { sM with cores := [(0, { kM with icFill := some (0x200000000, false) })] }
def sIg : State := { sM with cores := [(0, { kM with icFill := some (0x200000000, true) })] }
def kF : Core := { run0 with sregs := [(2, 5)], csr := { fault := 0x202, flags := 5, wrap := 31, admitCut := 7 } }
theorem witness_SldAndSstMoveBytesOfTheOwnCm :
    (let s : State := sM
     let c : CoreId := 0
     let f : Fields := fld 1 2 0 5 0
     let k := s.core c.val
     let n := 2 ^ (f.x.toNat % 4)
     let a := smemDla k f
     Issues s c [f.d, f.a] ∧ f.b = 0 ∧ OwnCm s c f n ∧
     k.waitsFor (rngOf s c.val (.cm a) 0 (n - 1 : Nat) false) = false ∧
     s.check k.colour.toNat (some c.val) none false a n = .ok ∧ s.detects a n = false) ∧
    (let s : State := sM
     let c : CoreId := 0
     let f : Fields := fld 0 2 3 1 0
     let k := s.core c.val
     let n := 2 ^ (f.x.toNat % 4)
     let a := smemDla k f
     Issues s c [f.a, f.b] ∧ f.d = 0 ∧ bit f.x 2 = false ∧ OwnCm s c f n ∧
     k.waitsFor (rngOf s c.val (.cm a) 0 (n - 1 : Nat) true) = false ∧
     s.check k.colour.toNat (some c.val) none true a n = .ok) ∧
    (let s : State := sM
     let c : CoreId := 0
     let f : Fields := fld 1 4 0 3 0
     let k := s.core c.val
     let n := 2 ^ (f.x.toNat % 4)
     let a := smemDla k f
     Issues s c [f.d, f.a] ∧ f.b = 0 ∧ ¬ OwnCm s c f n) ∧
    (let s : State := sM
     let c : CoreId := 0
     let f : Fields := fld 0 4 3 3 0
     let k := s.core c.val
     let n := 2 ^ (f.x.toNat % 4)
     let a := smemDla k f
     Issues s c [f.a, f.b] ∧ f.d = 0 ∧ bit f.x 2 = false ∧ ¬ OwnCm s c f n) := by
  and_intros <;> (try dsimp only) <;>
    decide +kernel

theorem witness_ReadOnlyCachesFillAndServe :
    (let s : State := sC
     let c : CoreId := 0
     let f : Fields := fld 1 2 0 0 0
     let k := s.core c.val
     let w := k.sreg f.a.toNat + f.imm.signExtend 64
     let a := smemDla k f
     Issues s c [f.d, f.a] ∧ f.b = 0 ∧ f.x = 0 ∧ field w 46 2 = 0 ∧ field w 48 16 = 0 ∧
     pgaDie w = s.ownId ∧ a % 8 = 0 ∧ s.check k.colour.toNat (some c.val) none false a 8 = .ok ∧
     k.ccBad.contains (a / 64) = false ∧ Table.get [] k.ccache (a / 64) ≠ []) ∧
    (let s : State := sCb
     let c : CoreId := 0
     let f : Fields := fld 1 2 0 0 0
     let k := s.core c.val
     let w := k.sreg f.a.toNat + f.imm.signExtend 64
     let a := smemDla k f
     Issues s c [f.d, f.a] ∧ f.b = 0 ∧ f.x = 0 ∧ field w 46 2 = 0 ∧ field w 48 16 = 0 ∧
     pgaDie w = s.ownId ∧ a % 8 = 0 ∧ s.check k.colour.toNat (some c.val) none false a 8 = .ok ∧
     k.ccBad.contains (a / 64) = true ∧ k.ccFill = none) ∧
    (let s : State := sM
     let c : CoreId := 0
     let f : Fields := fld 1 2 0 0 0
     let k := s.core c.val
     let w := k.sreg f.a.toNat + f.imm.signExtend 64
     let a := smemDla k f
     Issues s c [f.d, f.a] ∧ f.b = 0 ∧ f.x = 0 ∧ field w 46 2 = 0 ∧ field w 48 16 = 0 ∧
     pgaDie w = s.ownId ∧ a % 8 = 0 ∧ s.check k.colour.toNat (some c.val) none false a 8 = .ok ∧
     k.ccBad.contains (a / 64) = false ∧ Table.get [] k.ccache (a / 64) = [] ∧ k.ccFill = none) ∧
    (let s : State := sCf
     let c : CoreId := 0
     let k := s.core c.val
     let l : Nat := 0x200000000
     let a : Nat := 0x8000000008
     let d : Nat := 3
     Clocked s ∧ k.ccFill = some (l, a, d, false) ∧ s.detects (l * 64) 64 = false ∧ 0 < d) ∧
    (let s : State := sIf
     let c : CoreId := 0
     let k := s.core c.val
     let l : Nat := 0x200000000
     Clocked s ∧ k.icFill = some (l, false) ∧
     s.check k.colour.toNat (some c.val) none false (l * 64) 64 = .ok ∧ s.detects (l * 64) 64 = false) ∧
    (let s : State := sIg
     let c : CoreId := 0
     let k := s.core c.val
     let l : Nat := 0x200000000
     Clocked s ∧ k.icFill = some (l, true)) := by
  and_intros <;> (try dsimp only) <;>
    decide +kernel

theorem witness_CsrAccessReadsAndClears :
    (let s : State := dieOf kF
     let c : CoreId := 0
     let f : Fields := fld 1 0 0 0 0
     let n := f.imm.toNat
     let v := (csrValue (dieOf kF) 0 0).getD 0
     Issues s c [f.d] ∧ f.a = 0 ∧ f.b = 0 ∧ f.x = 0 ∧ n < 0x1000 ∧ csrValue s c.val n = some v) ∧
    (let s : State := dieOf kF
     let c : CoreId := 0
     let f : Fields := fld 1 0 0 0 153
     let n := f.imm.toNat
     Issues s c [f.d] ∧ f.a = 0 ∧ f.b = 0 ∧ f.x = 0 ∧ n < 0x1000 ∧ csrValue s c.val n = none) ∧
    (let s : State := dieOf kF
     let c : CoreId := 0
     let f : Fields := fld 0 2 0 0 53
     let n := f.imm.toNat
     Issues s c [f.a] ∧ f.d = 0 ∧ f.b = 0 ∧ f.x = 0 ∧ n < 0x1000 ∧ n = 0x035) ∧
    (let s : State := dieOf kF
     let c : CoreId := 0
     let f : Fields := fld 0 2 0 0 64
     let n := f.imm.toNat
     Issues s c [f.a] ∧ f.d = 0 ∧ f.b = 0 ∧ f.x = 0 ∧ n < 0x1000 ∧ n = 0x040) ∧
    (let s : State := dieOf kF
     let c : CoreId := 0
     let f : Fields := fld 0 2 0 0 3
     let n := f.imm.toNat
     Issues s c [f.a] ∧ f.d = 0 ∧ f.b = 0 ∧ f.x = 0 ∧ n < 0x1000 ∧ n ≠ 0x035 ∧ n ≠ 0x040) := by
  and_intros <;> (try dsimp only) <;>
    decide +kernel

def kW : Core := { run0 with sregs := [(2, 5), (3, 6), (6,0)], csr := { flags := 7 }, bars := [(3, { ns := true, out := [false] })], bookings := [(4, { valid := true, firedAt := 2 })] }
def sW : State := { dieOf kW with counters := [(5, { releases := 9, releasedAt := 5 })], windows := [(7, { valid := true, owner := 0, filled := 6 }), (8, { valid := true, owner := 3 })] }
def sH (h : Hold) : State := { sW with cores := [(0, { kW with st := .wait, hold := some h, fenceBad := true, probesSent := true, eaMask := 3 })] }
def kG : Core := { run0 with csr := { flags := 1 }, sregs := [(2, 5), (3, 6)], eaMask := 1 }
theorem witness_WaitsHoldUntilTheirCondition :
    (let s : State := sW
     let c : CoreId := 0
     let f : Fields := fld 0 2 0 0 0
     let k := s.core c.val
     let m := k.sreg f.a.toNat
     let w := s.window f.imm.toNat
     Issues s c [f.a] ∧ f.d = 0 ∧ f.b = 0 ∧ f.imm = 0 ∧ (f.x = 0 ∨ f.x = 1) ∧ m ≠ 0 ∧ f.x = 0 ∧
     f.imm.toNat < 256 ∧ (w.valid = false ∨ w.owner ≠ c.val)) ∧
    (let s : State := sW
     let c : CoreId := 0
     let f : Fields := fld 0 0 0 0 3
     let k := s.core c.val
     let x := false
     let rest := ([] : List Bool)
     Issues s c [] ∧ f.d = 0 ∧ f.a = 0 ∧ f.b = 0 ∧ f.x = 0 ∧ f.imm.toNat < 128 ∧
     (Table.get {} k.bars f.imm.toNat).out = x :: rest ∧ f.imm.toNat < 32 ∧
     (Table.get {} k.bookings f.imm.toNat).valid = false) ∧
    (let s : State := sW
     let c : CoreId := 0
     let f : Fields := fld 0 0 0 0 4
     let k := s.core c.val
     Issues s c [] ∧ f.d = 0 ∧ f.a = 0 ∧ f.b = 0 ∧ f.x = 0 ∧ f.imm.toNat < 128 ∧
     (Table.get {} k.bars f.imm.toNat).out = [] ∧ f.imm.toNat < 32 ∧
     (Table.get {} k.bookings f.imm.toNat).valid = true) ∧
    (let s : State := sW
     let c : CoreId := 0
     let f : Fields := fld 0 6 0 0 0
     let k := s.core c.val
     let m := k.sreg f.a.toNat
     Issues s c [f.a] ∧ f.d = 0 ∧ f.b = 0 ∧ f.imm = 0 ∧ (f.x = 0 ∨ f.x = 1) ∧ m = 0) ∧
    (let s : State := sW
     let c : CoreId := 0
     let f : Fields := fld 0 2 0 0 7
     let w := s.window f.imm.toNat
     Issues s c [f.a] ∧ f.d = 0 ∧ f.b = 0 ∧ f.x = 0 ∧ f.imm.toNat < 256 ∧ w.valid = true ∧
     w.owner = c.val) ∧
    (let s : State := sH (.all 5 true)
     let c : CoreId := 0
     let k := s.core c.val
     let h : Hold := .all 5 true
     Clocked s ∧ k.st = .wait ∧ k.hold = some h ∧ waitDone s k h = true) := by
  and_intros <;> (try dsimp only) <;>
    decide +kernel

theorem witness_FencesAndCinvOrderTheCore :
    (let s : State := dieOf run0
     let c : CoreId := 0
     let f : Fields := fld 0 0 0 0 0
     Issues s c [] ∧ f.d = 0 ∧ f.a = 0 ∧ f.b = 0 ∧ f.imm = 0 ∧ f.x = 0) ∧
    (let s : State := dieOf {kG with icFill := some (3,false), ccFill := some (1,2,3,false), ccache := [(1,[2])]}
     let c : CoreId := 0
     let f : Fields := fld 0 0 0 3 0
     Issues s c [] ∧ f.d = 0 ∧ f.a = 0 ∧ f.b = 0 ∧ f.imm = 0 ∧ f.x.toNat < 4 ∧ f.x ≠ 0) ∧
    (let s : State := sH .fenceC
     let c : CoreId := 0
     let k := s.core c.val
     Clocked s ∧ k.hold = some .fenceC ∧ fenceCHolds s c.val = true) ∧
    (let s : State := sH .fenceD
     let c : CoreId := 0
     let k := s.core c.val
     Clocked s ∧ k.hold = some .fenceD ∧ fenceDHolds s c.val = true) ∧
    (let s : State := sH .fenceP
     let c : CoreId := 0
     let k := s.core c.val
     Clocked s ∧ k.hold = some .fenceP ∧ fenceDHolds s c.val = true ∧ k.probesSent = true ∧
     probesDone s c.val = true) ∧
    (let s : State := { dieOf { kW with st := .wait, hold := some .fenceP, eaMask := 8 } with member := { id := some 0, dies := [(3, { st := .verified, port := 1, dist := 1 })] } }
     let c : CoreId := 0
     let k := s.core c.val
     let d : BitVec 6 := 3
     let g : BitVec 12 := 0
     Clocked s ∧ k.hold = some .fenceP ∧ fenceDHolds s c.val = true ∧ k.probesSent = false ∧
     bitsSet k.eaMask = [d.toNat] ∧ (s.die d.toNat).st ≠ .absent ∧ freshTag s c.val = some g) := by
  and_intros <;> (try dsimp only) <;>
    decide +kernel

def kS : Core := { run0 with colour := 2, sregs := [(2, 7), (3, 6), (4, 0x1000 + 3 * 64 + 7), (5, 0x1000 + 7), (6, 0x2000)], bars := [(3, { ns := true, out := [false] })] }
def sS : State := { dieOf kS with member := { id := some 0, dies := [(3, { st := .verified, port := 1, dist := 1 })] } }
def sS2 : State := { dieOf kS with member := { id := some 1, dies := [] } }
theorem witness_SignalAndArriveSendTheirSlots :
    (let s : State := sS
     let c : CoreId := 0
     let f : Fields := fld 0 2 0 0 0
     let k := s.core c.val
     let t := k.sreg f.a.toNat
     let m := k.sreg f.b.toNat
     Issues s c [f.a, f.b] ∧ f.d = 0 ∧ f.x = 0 ∧ f.imm = 0 ∧ t.toNat < 2 ^ 13 ∧ m = 0) ∧
    (let s : State := sS
     let c : CoreId := 0
     let f : Fields := fld 0 2 3 0 0
     let k := s.core c.val
     let t := k.sreg f.a.toNat
     let m := k.sreg f.b.toNat
     let die : BitVec 6 := field t 6 6
     let near := bit t 12 = false ∨ s.member.id = some die
     Issues s c [f.a, f.b] ∧ f.d = 0 ∧ f.x = 0 ∧ f.imm = 0 ∧ t.toNat < 2 ^ 13 ∧ m ≠ 0 ∧ near) ∧
    (let s : State := sS
     let c : CoreId := 0
     let f : Fields := fld 0 4 3 0 0
     let k := s.core c.val
     let t := k.sreg f.a.toNat
     let m := k.sreg f.b.toNat
     let die : BitVec 6 := field t 6 6
     let near := bit t 12 = false ∨ s.member.id = some die
     Issues s c [f.a, f.b] ∧ f.d = 0 ∧ f.x = 0 ∧ f.imm = 0 ∧ t.toNat < 2 ^ 13 ∧ m ≠ 0 ∧ ¬ near ∧
     (s.die die.toNat).st ≠ .absent) ∧
    (let s : State := sS2
     let c : CoreId := 0
     let f : Fields := fld 0 4 3 0 0
     let k := s.core c.val
     let t := k.sreg f.a.toNat
     let m := k.sreg f.b.toNat
     let die : BitVec 6 := field t 6 6
     let near := bit t 12 = false ∨ s.member.id = some die
     Issues s c [f.a, f.b] ∧ f.d = 0 ∧ f.x = 0 ∧ f.imm = 0 ∧ t.toNat < 2 ^ 13 ∧ m ≠ 0 ∧ ¬ near ∧
     (s.die die.toNat).st = .absent) ∧
    (let s : State := sS
     let c : CoreId := 0
     let f : Fields := fld 0 6 3 0 0
     let k := s.core c.val
     let t := k.sreg f.a.toNat
     Issues s c [f.a, f.b] ∧ f.d = 0 ∧ f.x = 0 ∧ f.imm = 0 ∧ 2 ^ 13 ≤ t.toNat) ∧
    (let s : State := sS
     let c : CoreId := 0
     let f : Fields := fld 0 0 0 0 2
     let k := s.core c.val
     let b := Table.get {} k.bars f.imm.toNat
     let limit := if (s.counter f.imm.toNat).modeB then 2 else 1
     Issues s c [] ∧ f.d = 0 ∧ f.a = 0 ∧ f.b = 0 ∧ f.x = 0 ∧ f.imm.toNat < 128 ∧ b.out.length < limit) ∧
    (let s : State := sS
     let c : CoreId := 0
     let f : Fields := fld 0 0 0 0 3
     let k := s.core c.val
     let b := Table.get {} k.bars f.imm.toNat
     let limit := if (s.counter f.imm.toNat).modeB then 2 else 1
     Issues s c [] ∧ f.d = 0 ∧ f.a = 0 ∧ f.b = 0 ∧ f.x = 0 ∧ f.imm.toNat < 128 ∧ limit ≤ b.out.length) := by
  and_intros <;> (try dsimp only) <;>
    decide +kernel

def kT : Core := { run0 with colour := 2, sregs := [(2, 7)], csr := { pc := 8, stepOpen := true, stepFail := true }, bars := [(3, { ns := true, out := [] })] }
def kTd : Core := { kT with chans := [(0, { set := true, head := 0, tail := 1, posted := [{ index := 0, desc := Desc.decode [], entries := [] }] })] }
def sHt : State := dieOf { run0 with st := .wait, hold := some .halt }
theorem witness_StepBracketOpensClosesAndHalts :
    (let s : State := dieOf kT
     let c : CoreId := 0
     let f : Fields := fld 0 0 0 0 0
     let k := s.core c.val
     let n := f.imm.toNat
     let b := Table.get {} k.bars n
     Issues s c [] ∧ f.d = 0 ∧ f.a = 0 ∧ f.b = 0 ∧ f.x = 0 ∧ k.csr.stepOpen = true ∧ n < 128 ∧
     fenceDHolds s c.val = true ∧ recordsDone k = true ∧
     (b.out.length < (if (s.counter n).modeB then 2 else 1)) ∧ f.imm = 0) ∧
    (let s : State := dieOf run0
     let c : CoreId := 0
     let f : Fields := fld 0 0 0 0 0
     let k := s.core c.val
     let n := f.imm.toNat
     let b := Table.get {} k.bars n
     Issues s c [] ∧ f.d = 0 ∧ f.a = 0 ∧ f.b = 0 ∧ f.x = 0 ∧ k.csr.stepOpen = false ∧ k.pendS = [] ∧
     f.imm = 0) ∧
    (let s : State := dieOf kTd
     let c : CoreId := 0
     let f : Fields := fld 0 0 0 0 3
     let k := s.core c.val
     let n := f.imm.toNat
     let b := Table.get {} k.bars n
     Issues s c [] ∧ f.d = 0 ∧ f.a = 0 ∧ f.b = 0 ∧ f.x = 0 ∧ n < 128 ∧ k.csr.stepOpen = true ∧
     fenceDHolds s c.val = false) ∧
    (let s : State := sHt
     let c : CoreId := 0
     let k := s.core c.val
     Clocked s ∧ k.hold = some .halt ∧ fenceDHolds s c.val = true ∧ recordsDone k = true ∧
     (s.part k.colour.toNat).job.live = false) := by
  and_intros <;> (try dsimp only) <;>
    decide +kernel

def kV : Core := { run0 with ve := { vl := 4 }, sregs := [(2, 0x8000000000), (3, 4), (4, 100), (5, 5), (6, 0), (7, 0x8000000000 + 6 * 0x100000)], csr := { heldQueue := 0xFFFFFFFF } }
def sV : State := dieOf kV
def sVz : State := dieOf { kV with ve := { vl := 0 } }
theorem witness_ElementwiseVectorInstructionsIssue :
    (let s : State := sV
     let c : CoreId := 0
     let f : Fields := fld 1 2 3 0 (0x80)
     let et := etOf f
     MayIssue s c false ∧ f.only true true true 0 0x1001FF = true ∧ et < 8 ∧
     f.only true true true 0 0x1FF = true ∧ etInt et = true) ∧
    (let s : State := sV
     let c : CoreId := 0
     let f : Fields := fld 1 2 0 0 (0xE0)
     let et := etOf f
     MayIssue s c false ∧ f.only true true true 0 0x1FF = true ∧ etFloat et = true ∧
     f.only true true false 0 0x1FF = true ∧ (et < 11 ∨ et = 15) ∧
     f.only true true false 0 0xF01FF = true ∧ fnOf f < 10) := by
  and_intros <;> (try dsimp only) <;>
    decide +kernel

theorem witness_OtherVectorInstructionsIssue :
    (let s : State := sV
     let c : CoreId := 0
     let f : Fields := fld 5 0 0 0 0xF
     let k := s.core c.val
     let et := etOf f
     let vl := k.ve.vl
     let a := f.a.toNat
     let b := f.b.toNat
     let d := f.d.toNat
     let free := fun (m : Nat) => m ∉ k.pendM
     let fits := fun (r t : Nat) => vecFits r t vl = true
     let men := menOf f = true → free (mskOf f)
     MayIssue s c false ∧ f.only true true true 0 0xE1FF = true ∧ d < 8 ∧ condOf f < 6 ∧ et < 8 ∧
     fits a et ∧ fits b et ∧ men ∧ free d ∧ f.only true true true 0 0xE01F = true ∧ a < 8 ∧ b < 8 ∧
     condOf f < 4 ∧ free a ∧ free b ∧ k.pending [f.d] = false ∧ f.only true false false 0 0xF = true ∧
     free (mskOf f) ∧ f.only true true false 0 0x1FFF = true ∧ et < 11 ∧ dtOf f < 11 ∧
     fits d (dtOf f) ∧ f.only true true false 0 0x1FF = true ∧ menOf f = true ∧ fits d et ∧
     f.only true true false 0 0x6001FF = true ∧ scanMismatch k f = false ∧ mzOf f = false) ∧
    (let s : State := sVz
     let c : CoreId := 0
     let f : Fields := fld 1 4 0 0 0
     let k := s.core c.val
     let a := f.a.toNat
     let d := f.d.toNat
     let et := etOf f
     let vl := k.ve.vl
     let b := f.b.toNat
     let free := fun (m : Nat) => m ∉ k.pendM
     let men := menOf f = true → free (mskOf f)
     MayIssue s c false ∧ k.pending [f.d, f.a] = false ∧ f.only true true false 3 0 = true ∧
     f.x.toNat < 3 ∧ k.pending [f.a, f.b] = false ∧ f.only true true true 0 0x1FF = true ∧ men ∧
     vl = 0 ∧ opndReserved (k.sreg a) = false ∧ et < 8 ∧ (et < 8 ∨ et = 15)) ∧
    (let s : State := sV
     let c : CoreId := 0
     let f : Fields := fld 1 0 0 3 (4 * 0x1000 + 31 * 32 + 3)
     let k := s.core c.val
     let vl := k.ve.vl
     let d := f.d.toNat
     let fits := fun (r t : Nat) => vecFits r t vl = true
     let ty := (field f.imm 12 4).toNat
     let cc := (field f.imm 5 7).toNat + 1
     let strip := match (k.ahead (arrOf f)).of (bankOf f) with | some r => r.2.2 | none => false
     MayIssue s c false ∧ f.only true false false 3 0xFFFF = true ∧
     k.bankBusy (arrOf f) (bankOf f) = false ∧ (k.array (arrOf f)).retired = false ∧
     (ty = 4 ∨ ty = 6 ∨ ty = 7 ∨ ty = 15) ∧ cc ≤ tileCols (k.array (arrOf f)).width strip ∧
     (0 < vl → (field f.imm 0 5).toNat + (vl - 1) / cc < tileRows strip) ∧ fits d ty) ∧
    (let s : State := sV
     let c : CoreId := 0
     let f : Fields := fld 1 2 3 0 0x80
     let k := s.core c.val
     let et := etOf f
     let vl := k.ve.vl
     let a := f.a.toNat
     let b := f.b.toNat
     let d := f.d.toNat
     let free := fun (m : Nat) => m ∉ k.pendM
     let fits := fun (r t : Nat) => vecFits r t vl = true
     let men := menOf f = true → free (mskOf f)
     let o : Opnd := .cm 0x8000000000
     let stride := (k.sreg b).toInt
     let x := strideExtent vl stride (etSize et)
     MayIssue s c false ∧ k.pending [f.a, f.b] = false ∧ f.only true true true 0 0x1FF = true ∧ men ∧
     0 < vl ∧ decodeOpnd s c.val (k.sreg a) = .ok o ∧ stride < 2 ^ 31 ∧ -(2 ^ 31) ≤ stride ∧
     strideAligned o vl stride (etSize et) = true ∧ o.fits c.val x.1 x.2 = true ∧ fits d et ∧ et < 8 ∧
     (et < 8 ∨ et = 15)) := by
  and_intros <;> (try dsimp only) <;>
    (and_intros <;> first | decide +kernel | (apply okOf; decide +kernel) | rfl | (left; decide +kernel) | exact uidNext | (apply exOf; decide +kernel) | (apply notExOf; decide +kernel) | (intro h; cases h) | simp [tableRows])

def kR : Core := { kV with su := { cuCfg := some { k := 4, kt := 0, desc := false } }, sregs := [(2, 0x8000000000), (3, 4), (4, 0x8000000100), (5, 5), (6, 0), (7, 5 * 0x10000000000)] }
def sR : State := dieOf kR
theorem witness_ReductionAndScanInstructionsIssue :
    (let s : State := sR
     let c : CoreId := 0
     let f : Fields := fld 0 0 0 0 7
     let k := s.core c.val
     let et := etOf f
     let vl := k.ve.vl
     MayIssue s c false ∧ f.only false false false 0 7 = true ∧
     f.only true true false 0 0x1EF = true ∧ et < 8 ∧ vecFits f.a.toNat et vl = true ∧ f.d.toNat < 8 ∧
     (menOf f = true ∨ f.d = 0) ∧ (menOf f = true → f.d.toNat ∉ k.pendM) ∧ k.pending [f.d] = false ∧
     (menOf f = true → mskOf f ∉ k.pendM) ∧ etInt et = true ∧
     f.only false false false 0 0x1FFF = true ∧ field f.imm 10 2 ≠ 3 ∧ Room k 4 []) ∧
    (let s : State := sR
     let c : CoreId := 0
     let f : Fields := fld 3 0 0 0 0x87
     let k := s.core c.val
     let et := etOf f
     MayIssue s c false ∧ k.pending [f.d] = false ∧ f.only true false false 0 0x1E7 = true ∧
     (et = 4 ∨ et = 6 ∨ et = 7)) ∧
    (let s : State := sR
     let c : CoreId := 0
     let f : Fields := fld 0 2 0 0 5
     let k := s.core c.val
     let o : Opnd := .cm 0x8000000000
     MayIssue s c false ∧ k.pending [f.a] = false ∧ f.only false true false 0 7 = true ∧
     (k.sreg f.a.toNat).toNat % 16 = 0 ∧ decodeOpnd s c.val (k.sreg f.a.toNat) = .ok o ∧
     o.fits c.val 0 47 = true) ∧
    (let s : State := sR
     let c : CoreId := 0
     let f : Fields := fld 0 2 0 0 0
     let k := s.core c.val
     let slot := (field f.imm 0 3).toNat
     let m := 8 * ((field f.imm 3 4).toNat + 1)
     let o := some (.cm 0x8000000000)
     MayIssue s c false ∧ k.pending [f.a] = false ∧ f.only false true false 0 0xFFFF = true ∧
     suSlotBad k slot = false ∧ suOpnd s c.val (k.sreg f.a.toNat) (m * 1024) = .ok o ∧
     (slot + 1) * m * 512 ≤ 65536 ∧ f.only false true false 0 7 = true ∧
     suOpnd s c.val (k.sreg f.a.toNat) 72 = .ok o) ∧
    (let s : State := sR
     let c : CoreId := 0
     let f : Fields := fld 0 2 6 0 (2 + 5 * 32)
     let k := s.core c.val
     let slot := (field f.imm 0 3).toNat
     let n := (field f.imm 5 13).toNat
     let src := field f.imm 3 2
     let oa := some (.cm 0x8000000000)
     let ob := none
     MayIssue s c false ∧ k.pending [f.a, f.b] = false ∧ f.only false true true 0 0x3FFFF = true ∧
     suSlotBad k slot = false ∧ src ≠ 3 ∧ (src = 1 → k.sreg f.b.toNat = 0) ∧ n ≤ 4096 ∧
     (suOpnd s c.val (k.sreg f.a.toNat) (if src = 1 then 16 * n else 4 * n) = .ok oa) ∧
     (suOpnd s c.val (if src = 2 then k.sreg f.b.toNat else 0) (if src = 2 then 16 * n else 0) = .ok ob)) ∧
    (let s : State := sR
     let c : CoreId := 0
     let f : Fields := fld 3 2 0 0 2
     let k := s.core c.val
     let slot := (field f.imm 0 3).toNat
     let g := { k := 4, kt := 0, desc := false }
     let o := some (.cm 0x8000000000)
     MayIssue s c false ∧ k.pending [f.d, f.a] = false ∧ f.only true true false 0 7 = true ∧
     suSlotBad k slot = false ∧ k.su.cuCfg = some g ∧
     suOpnd s c.val (k.sreg f.a.toNat) (16 * g.k) = .ok o) ∧
    (let s : State := sR
     let c : CoreId := 0
     let f : Fields := fld 7 2 0 0 0
     let w1 : Word := BitVec.ofNat 64 (0 + 3 * 64)
     let k := s.core c.val
     let x := ScanWord.of w1
     let first := (field (k.sreg f.d.toNat) 0 40).toNat
     let count := (field (k.sreg f.d.toNat) 40 24).toNat
     let oa := some (.cm 0x8000000000)
     let ob := none
     MayIssue s c true ∧ k.pending [f.d, f.a, f.b] = false ∧ f.only true true true 0 0 = true ∧
     field w1 15 49 = 0 ∧ (x.form = 0 ∨ field w1 2 4 = 0) ∧ (x.filt = true ∨ f.b = 0) ∧
     scanInvalid k x first count = false ∧ suOpnd s c.val (k.sreg f.a.toNat) (count * x.cb) = .ok oa ∧
     (suOpnd s c.val (k.sreg f.b.toNat) (if x.filt then count * 8 else 0) = .ok ob)) := by
  and_intros <;> (try dsimp only) <;>
    (and_intros <;> first | decide +kernel | (apply okOf; decide +kernel) | rfl | (left; decide +kernel) | exact uidNext | (apply exOf; decide +kernel) | (apply notExOf; decide +kernel) | (intro h; cases h) | simp [tableRows])

def mw (m n k : Nat) (rest : Nat) : Word := BitVec.ofNat 64 (m + n * 2^16 + k * 2^32 + rest)
theorem witness_MatrixInstructionsIssue :
    (let s : State := sV
     let c : CoreId := 0
     let f : Fields := fld 0 0 0 0 (10 * 1024)
     let w1 : Word := mw 4 4 16 (2^59)
     let k := s.core c.val
     let a := arrOf f
     let sB := k.sreg f.b.toNat
     let alive := (k.array a).retired = false
     let good := fun (t : Tile) => matReserved f t = false ∧ tileInvalid k a t sB = false ∧ t.aOff + t.m * t.kbA ≤ 0x40000 ∧ t.bOff + t.n * t.kbB ≤ 0x40000
     let w := clearBit w1 57
     let t := Tile.ofWords f w
     let idle := k.bankBusy a (bankOf f) = false
     MayIssue s c true ∧ k.pending [f.a, f.b] = false ∧ alive ∧ good t ∧
     (t.clr = true → k.bankBusy a t.bank = false) ∧ MayIssue s c false ∧
     f.only false false false 3 0x3FFF = true ∧ field f.imm 10 3 ≠ 7 ∧ idle) ∧
    (let s : State := sV
     let c : CoreId := 0
     let f : Fields := fld 3 0 0 2 3
     let k := s.core c.val
     let a := arrOf f
     let idle := k.bankBusy a (bankOf f) = false
     MayIssue s c false ∧ k.pending [f.d] = false ∧ f.only true false false 3 3 = true ∧
     (field f.imm 0 2 = 3 ∨ idle)) ∧
    (let s : State := sV
     let c : CoreId := 0
     let f : Fields := fld 0 2 4 2 (4 + 4 * 64)
     let k := s.core c.val
     let a := arrOf f
     let sA := k.sreg f.a.toNat
     let sB := k.sreg f.b.toNat
     let alive := (k.array a).retired = false
     let idle := k.bankBusy a (bankOf f) = false
     let strip := match (k.ahead a).of (bankOf f) with | some r => r.2.2 | none => false
     let rows := (field f.imm 0 6).toNat
     let cols := (field f.imm 6 8).toNat
     let o := .cm 0x8000000000
     MayIssue s c false ∧ k.pending [f.a, f.b] = false ∧ alive ∧ idle ∧ 0 < rows ∧ 0 < cols ∧
     rows ≤ tileRows strip ∧ cols ≤ tileCols (k.array a).width strip ∧ decodeOpnd s c.val sA = .ok o ∧
     f.only false true true 3 0x1FFFF = true ∧ (field f.imm 14 3).toNat < 6 ∧
     o.fits c.val 0 (destLast rows cols (drainSize (field f.imm 14 3).toNat) sB) = true ∧
     f.only false true true 3 0x3FFF = true ∧ o.fits c.val 0 (destLast rows cols 16 sB) = true) ∧
    (let s : State := sV
     let c : CoreId := 0
     let f : Fields := fld 0 2 4 0 (10 * 1024)
     let w1 : Word := mw 4 4 16 0
     let k := s.core c.val
     let a := arrOf f
     let sA := k.sreg f.a.toNat
     let sB := k.sreg f.b.toNat
     let alive := (k.array a).retired = false
     let good := fun (t : Tile) => matReserved f t = false ∧ tileInvalid k a t sB = false ∧ t.aOff + t.m * t.kbA ≤ 0x40000 ∧ t.bOff + t.n * t.kbB ≤ 0x40000
     let w := setBit w1 57
     let t := Tile.ofWords f w
     let last := destLast t.m t.n (drainSize t.df) sB
     let o := .cm 0x8000000000
     MayIssue s c true ∧ k.pending [f.a, f.b] = false ∧ alive ∧ good t ∧ 0 < t.m ∧ 0 < t.n ∧
     decodeOpnd s c.val sA = .ok o ∧ o.fits c.val 0 last = true) := by
  and_intros <;> (try dsimp only) <;>
    (and_intros <;> first | decide +kernel | (apply okOf; decide +kernel) | rfl | (left; decide +kernel) | exact uidNext | (apply exOf; decide +kernel) | (apply notExOf; decide +kernel) | (intro h; cases h) | simp [tableRows])

def qv (op : EOp) (f : Fields) (vl : Nat := 3) : QInstr := { op := op, f := f, vl := vl }
def obE : Table Byte := [(4*0x40000 + 2*4096, 5), (4*0x40000 + 2*4096 + 4, 0xFF), (4*0x40000 + 2*4096 + 5, 0xFF), (4*0x40000 + 2*4096 + 6, 0xFF),(4*0x40000 + 2*4096 + 7, 0xFF),(4*0x40000 + 2*4096 + 11, 0x3F), (4*0x40000 + 3*4096, 7), (4*0x40000 + 3*4096 + 4, 1), (4*0x40000 + 3*4096+10,0x80), (4*0x40000 + 3*4096+11,0x3F)]
def kE (q : QInstr) : Core := { run0 with queues := [(2, [q, qv .vadd (fld 0 0 0 0 0)])], ob := obE, ve := { vl := 4, masks := [(1, 5), (2, 3)] } }
def sE (q : QInstr) : State := dieOf (kE q)
theorem witness_VectorElementsTakeTheirResults :
    (let s : State := sE (qv .vadd (fld 1 2 3 0 0x80))
     let c : CoreId := 0
     let q : QInstr := (qv .vadd (fld 1 2 3 0 0x80))
     let rest : List QInstr := [qv .vadd (fld 0 0 0 0 0)]
     let k := s.core c.val
     let f := q.f
     let et := etOf f
     Clocked s ∧ Table.get [] k.queues 2 = q :: rest ∧ 0 < q.vl ∧ k.obBad = [] ∧ et < 8 ∧
     q.op ∈ [EOp.vadd, .vsub, .vmul, .vfma, .vdiv, .vsqrt, .vmin, .vmax, .vand, .vor, .vxor, .vshl, .vshr, .vmov]) ∧
    (let s : State := sE (qv .vtrn (fld 1 5 0 0 (0xC0 + 0x90000)))
     let c : CoreId := 0
     let q : QInstr := (qv .vtrn (fld 1 5 0 0 (0xC0 + 0x90000)))
     let rest : List QInstr := [qv .vadd (fld 0 0 0 0 0)]
     let k := s.core c.val
     let f := q.f
     let et := etOf f
     Clocked s ∧ Table.get [] k.queues 2 = q :: rest ∧ 0 < q.vl ∧ k.obBad = [] ∧ et < 8 ∧
     q.op = .vtrn ∧ etFloat et = true) ∧
    (let s : State := sE (qv .vcvt (fld 1 2 0 0 (0x80 + 7 * 512)))
     let c : CoreId := 0
     let q : QInstr := (qv .vcvt (fld 1 2 0 0 (0x80 + 7 * 512)))
     let rest : List QInstr := [qv .vadd (fld 0 0 0 0 0)]
     let k := s.core c.val
     let f := q.f
     let et := etOf f
     Clocked s ∧ Table.get [] k.queues 2 = q :: rest ∧ 0 < q.vl ∧ k.obBad = [] ∧ et < 8 ∧
     q.op = .vcvt ∧ dtOf f < 8) ∧
    (let s : State := sE (qv .vcmp (fld 1 2 3 0 (0x80 + 0x4000 + 16 + 8 + 2)))
     let c : CoreId := 0
     let q : QInstr := (qv .vcmp (fld 1 2 3 0 (0x80 + 0x4000 + 16 + 8 + 2)))
     let rest : List QInstr := [qv .vadd (fld 0 0 0 0 0)]
     let k := s.core c.val
     Clocked s ∧ Table.get [] k.queues 2 = q :: rest ∧ q.vl ≤ 4096 ∧ k.obBad = [] ∧ 0 < q.vl ∧
     q.op = .vcmp) ∧
    (let s : State := sE (qv .vmask (fld 3 1 2 0 (3 * 0x2000)))
     let c : CoreId := 0
     let q : QInstr := (qv .vmask (fld 3 1 2 0 (3 * 0x2000)))
     let rest : List QInstr := [qv .vadd (fld 0 0 0 0 0)]
     let k := s.core c.val
     let f := q.f
     Clocked s ∧ Table.get [] k.queues 2 = q :: rest ∧ q.vl ≤ 4096 ∧ k.obBad = [] ∧ 0 < q.vl ∧
     q.op = .vmask ∧ condOf f < 4) ∧
    (let s : State := sE (qv .vpopc (fld 3 0 0 0 9))
     let c : CoreId := 0
     let q : QInstr := (qv .vpopc (fld 3 0 0 0 9))
     let rest : List QInstr := [qv .vadd (fld 0 0 0 0 0)]
     let k := s.core c.val
     Clocked s ∧ Table.get [] k.queues 2 = q :: rest ∧ q.vl ≤ 4096 ∧ k.obBad = [] ∧ 0 < q.vl ∧
     q.op = .vpopc) ∧
    (let s : State := sE (qv .vadd (fld 1 2 3 0 0x80) 0)
     let c : CoreId := 0
     let q : QInstr := (qv .vadd (fld 1 2 3 0 0x80) 0)
     let rest : List QInstr := [qv .vadd (fld 0 0 0 0 0)]
     let k := s.core c.val
     Clocked s ∧ Table.get [] k.queues 2 = q :: rest ∧ q.vl ≤ 4096 ∧ k.obBad = [] ∧ q.vl = 0) := by
  and_intros <;> (try dsimp only) <;>
    decide +kernel

def rec0 : List Byte := leBytes 40 1234567 ++ [3] ++ leBytes 5 9 ++ [0,0]
def kU (q : QInstr) : Core := { run0 with queues := [(3, [q, qv .rclr (fld 0 0 0 0 0)])], ob := putBytes obE 0 rec0, ve := { vl := 4, masks := [(1, 5), (2, 3)] }, ru := [(1, { x := 1000, count := 5 }), (2, { nan := true })] }
def sU (q : QInstr) : State := dieOf (kU q)
theorem witness_ReductionUnitResults :
    (let s : State := sU (qv .rclr (fld 0 0 0 0 1))
     let c : CoreId := 0
     let q : QInstr := (qv .rclr (fld 0 0 0 0 1))
     let rest : List QInstr := [qv .rclr (fld 0 0 0 0 0)]
     let k := s.core c.val
     Clocked s ∧ Table.get [] k.queues 3 = q :: rest ∧ k.obBad = [] ∧ q.op = .rclr) ∧
    (let s : State := sU (qv .rsum (fld 0 2 0 0 0x81))
     let c : CoreId := 0
     let q : QInstr := (qv .rsum (fld 0 2 0 0 0x81))
     let rest : List QInstr := [qv .rclr (fld 0 0 0 0 0)]
     let k := s.core c.val
     Clocked s ∧ Table.get [] k.queues 3 = q :: rest ∧ k.obBad = [] ∧ q.op = .rsum ∧ 0 < q.vl) ∧
    (let s : State := sU (qv .rrd (fld 5 0 0 0 0x81))
     let c : CoreId := 0
     let q : QInstr := (qv .rrd (fld 5 0 0 0 0x81))
     let rest : List QInstr := [qv .rclr (fld 0 0 0 0 0)]
     let k := s.core c.val
     Clocked s ∧ Table.get [] k.queues 3 = q :: rest ∧ k.obBad = [] ∧ q.op = .rrd) ∧
    (let s : State := sU (qv .rmax (fld 5 2 0 0 0x80))
     let c : CoreId := 0
     let q : QInstr := (qv .rmax (fld 5 2 0 0 0x80))
     let rest : List QInstr := [qv .rclr (fld 0 0 0 0 0)]
     let k := s.core c.val
     Clocked s ∧ Table.get [] k.queues 3 = q :: rest ∧ k.obBad = [] ∧ q.op = .rmax) ∧
    (let s : State := sU (qv .rmin (fld 5 2 0 0 0x89))
     let c : CoreId := 0
     let q : QInstr := (qv .rmin (fld 5 2 0 0 0x89))
     let rest : List QInstr := [qv .rclr (fld 0 0 0 0 0)]
     let k := s.core c.val
     Clocked s ∧ Table.get [] k.queues 3 = q :: rest ∧ k.obBad = [] ∧ q.op = .rmin) ∧
    (let s : State := sU (qv .ror (fld 5 2 0 0 0x89))
     let c : CoreId := 0
     let q : QInstr := (qv .ror (fld 5 2 0 0 0x89))
     let rest : List QInstr := [qv .rclr (fld 0 0 0 0 0)]
     let k := s.core c.val
     Clocked s ∧ Table.get [] k.queues 3 = q :: rest ∧ k.obBad = [] ∧ q.op = .ror) ∧
    (let s : State := sU {qv .rxst (fld 0 2 0 0 1) with sa := 0x8000000000040000}
     let c : CoreId := 0
     let q : QInstr := {qv .rxst (fld 0 2 0 0 1) with sa := 0x8000000000040000}
     let rest : List QInstr := [qv .rclr (fld 0 0 0 0 0)]
     let k := s.core c.val
     let b : Nat := 1
     let o : Nat := 0
     Clocked s ∧ Table.get [] k.queues 3 = q :: rest ∧ k.obBad = [] ∧
     decodeOpnd s c.val q.sa = .ok (.ob b o) ∧ q.op = .rxst) ∧
    (let s : State := sU {qv .rxadd (fld 0 2 0 0 1) with sa := 0x8000000000000000}
     let c : CoreId := 0
     let q : QInstr := {qv .rxadd (fld 0 2 0 0 1) with sa := 0x8000000000000000}
     let rest : List QInstr := [qv .rclr (fld 0 0 0 0 0)]
     let k := s.core c.val
     let b : Nat := 0
     let o : Nat := 0
     Clocked s ∧ Table.get [] k.queues 3 = q :: rest ∧ k.obBad = [] ∧
     decodeOpnd s c.val q.sa = .ok (.ob b o) ∧ q.op = .rxadd ∧ recordBad (k.obBytes b o 48) = false) := by
  and_intros <;> (try dsimp only) <;>
    (and_intros <;> first | decide +kernel | (apply okOf; decide +kernel) | rfl | (left; decide +kernel) | exact uidNext | (apply exOf; decide +kernel) | (apply notExOf; decide +kernel) | (intro h; cases h) | simp [tableRows])

def gC : SuCfg := { k := 2, kt := 0, desc := false }
def kS2 (col : BitVec 4) (q : QInstr) : Core := { run0 with colour := col, queues := [(4, [q])], ob := putBytes [] 0 (List.range 64 |>.map (fun i => BitVec.ofNat 8 (i * 37 + 11))), su := { cuCfg := some gC, cfg := some gC, slots := [(1, { entries := [{ key := 7, id := 3 }], rejections := 2 }), (9, {rejections := 4})] } }
def sS4 (q : QInstr) : State := dieOf (kS2 0 q)
def sSb (q : QInstr) : State := dieOf { kS2 0 q with su := { (kS2 0 q).su with slots := [(0, { bad := true }), (1, { bad := true })] } }
def sSw (q : QInstr) : State := { dieOf (kS2 2 q) with parts := [(2, { present := true, buckets := [(6 * 64, { unlim := false, level := -1 })] })] }
theorem witness_ScanUnitResults :
    (let s : State := sS4 {qv .sucfg (fld 0 0 0 0 (5 + 1024)) with vl := 0}
     let c : CoreId := 0
     let q : QInstr := {qv .sucfg (fld 0 0 0 0 (5 + 1024)) with vl := 0}
     let rest : List QInstr := []
     let k := s.core c.val
     let tokens := qosStart s k.colour.toNat [(bucketKey 6 c.val, suTime k q)]
     Clocked s ∧ Table.get [] k.queues 4 = q :: rest ∧ k.obBad = [] ∧ tokens.1 = true ∧ q.op = .sucfg) ∧
    (let s : State := sSw {qv .sucfg (fld 0 0 0 0 (5 + 1024)) with vl := 0}
     let c : CoreId := 0
     let q : QInstr := {qv .sucfg (fld 0 0 0 0 (5 + 1024)) with vl := 0}
     let rest : List QInstr := []
     let k := s.core c.val
     let tokens := qosStart s k.colour.toNat [(bucketKey 6 c.val, suTime k q)]
     Clocked s ∧ Table.get [] k.queues 4 = q :: rest ∧ k.obBad = [] ∧ tokens.1 = false) ∧
    (let s : State := sSb {qv .sutopk (fld 3 2 0 0 1) with sa := 0x8000000000040000}
     let c : CoreId := 0
     let q : QInstr := {qv .sutopk (fld 3 2 0 0 1) with sa := 0x8000000000040000}
     let rest : List QInstr := []
     let k := s.core c.val
     let f := q.f
     let tokens := qosStart s k.colour.toNat [(bucketKey 6 c.val, suTime k q)]
     let slot := k.su.slot (field f.imm 0 3).toNat
     let b := 1
     let o := 0
     let g := gC
     Clocked s ∧ Table.get [] k.queues 4 = q :: rest ∧ k.obBad = [] ∧ tokens.1 = true ∧
     decodeOpnd s c.val q.sa = .ok (.ob b o) ∧ k.su.cfg = some g ∧ q.op = .sutopk ∧ slot.bad = true) ∧
    (let s : State := sS4 {qv .susel (fld 0 2 0 0 (1 + 4 * 32)) with sa := 0x8000000000000000, sb := 7}
     let c : CoreId := 0
     let q : QInstr := {qv .susel (fld 0 2 0 0 (1 + 4 * 32)) with sa := 0x8000000000000000, sb := 7}
     let rest : List QInstr := []
     let k := s.core c.val
     let f := q.f
     let tokens := qosStart s k.colour.toNat [(bucketKey 6 c.val, suTime k q)]
     let slot := k.su.slot (field f.imm 0 3).toNat
     let n := (field f.imm 5 13).toNat
     let base := (field q.sb 0 40).toNat
     let b := 0
     let o := 0
     let g := gC
     Clocked s ∧ Table.get [] k.queues 4 = q :: rest ∧ k.obBad = [] ∧ tokens.1 = true ∧
     decodeOpnd s c.val q.sa = .ok (.ob b o) ∧ k.su.cfg = some g ∧ q.op = .susel ∧
     field f.imm 3 2 = 0 ∧ 0 < n ∧ base + n ≤ 2 ^ 40 ∧ slot.bad = false) ∧
    (let s : State := sS4 {qv .sutopk (fld 3 2 0 0 1) with sa := 0x8000000000040000}
     let c : CoreId := 0
     let q : QInstr := {qv .sutopk (fld 3 2 0 0 1) with sa := 0x8000000000040000}
     let rest : List QInstr := []
     let k := s.core c.val
     let f := q.f
     let tokens := qosStart s k.colour.toNat [(bucketKey 6 c.val, suTime k q)]
     let slot := k.su.slot (field f.imm 0 3).toNat
     let b := 1
     let o := 0
     let g := gC
     Clocked s ∧ Table.get [] k.queues 4 = q :: rest ∧ k.obBad = [] ∧ tokens.1 = true ∧
     decodeOpnd s c.val q.sa = .ok (.ob b o) ∧ k.su.cfg = some g ∧ q.op = .sutopk ∧ slot.bad = false) ∧
    (let s : State := sS4 {qv .suscan (fld 3 2 0 0 0) with sa := 0x8000000000000000, sd := 5 + 2 * 2 ^ 40, w1 := BitVec.ofNat 64 (1 + 2 * 64)}
     let c : CoreId := 0
     let q : QInstr := {qv .suscan (fld 3 2 0 0 0) with sa := 0x8000000000000000, sd := 5 + 2 * 2 ^ 40, w1 := BitVec.ofNat 64 (1 + 2 * 64)}
     let rest : List QInstr := []
     let k := s.core c.val
     let f := q.f
     let tokens := qosStart s k.colour.toNat [(bucketKey 6 c.val, suTime k q)]
     let slot := k.su.slot (field f.imm 0 3).toNat
     let b := 0
     let o := 0
     let g := gC
     let x := ScanWord.of q.w1
     let count := (field q.sd 40 24).toNat
     Clocked s ∧ Table.get [] k.queues 4 = q :: rest ∧ k.obBad = [] ∧ tokens.1 = true ∧
     decodeOpnd s c.val q.sa = .ok (.ob b o) ∧ k.su.cfg = some g ∧ q.op = .suscan ∧ x.filt = false ∧
     x.qmask ≠ 0 ∧ 0 < count ∧ (∀ y ∈ bitsSet x.qmask, (k.su.slot y).bad = false)) := by
  and_intros <;> (try dsimp only) <;>
    (and_intros <;> first | decide +kernel | (apply okOf; decide +kernel) | rfl | (left; decide +kernel) | exact uidNext | (apply exOf; decide +kernel) | (apply notExOf; decide +kernel) | (intro h; cases h) | simp [tableRows])

def fM : Fields := fld 0 0 0 0 0
def wM : Word := BitVec.ofNat 64 (2 + 3 * 2^16 + 5 * 2^32 + 2^59)
def kI (w : Word) : Core := { run0 with queues := [(0, [{ op := .mat, f := fM, w1 := w }])], ob := putBytes (putBytes [] 0 [1,2,0xFF,4,5]) 0x40000 [3,0xFE,7,0x80,1,2,3,4,5,6,7,8,9,10,11,12,13,14,15,16,17,18] }
theorem witness_IntegerMatIsTheDotProduct :
    let s : State := dieOf (kI wM)
    let c : CoreId := 0
    let a : Fin 2 := 0
    let q : QInstr := { op := .mat, f := fM, w1 := wM }
    let rest : List QInstr := []
    let k := s.core c.val
    let x := k.array a.val
    let t := Tile.ofWords q.f q.w1
    Clocked s ∧ Table.get [] k.queues a.val = q :: rest ∧ q.op = .mat ∧ x.cur = none ∧
    x.drainDue t.bank = false ∧ x.faulty = [] ∧ k.obBad = [] ∧ t.full = false ∧ t.clr = true ∧
    t.strip = false ∧ t.n ≤ 32 ∧ 0 < t.m ∧ 0 < t.n ∧ t.opc = 0 ∧ t.af = 0 ∧ t.bf = 0 ∧ t.au = false ∧
    t.bu = false ∧ t.we = 0 := by
  (try dsimp only) <;>
    decide +kernel

def bk : Bank := { cells := [(0, { a := 77, filled := true })], count := 3, lossLo := 5, opc := 0, recorded := true }
def dr (fin : Bool) : Drain := { bank := 0, rows := 1, cols := 1, df := 0, dst := 0x8000000000040000, off := 16, stride := 0, q := { op := .madrain, f := fld 0 0 0 0 0 }, final := fin }
def kQ (x : MArray) (q : QInstr) : Core := { run0 with arrays := [(1, x)], queues := [(1, [q])] }
def kK (q : QInstr) : Core := { run0 with running := [(2, [q]), (0, [q]), (4,[q])], pendS := [3, 4], pendM := [2], sb := [⟨.ob 4, 0, 3, true, 2⟩, ⟨.ob 4, 8, 9, false, 2⟩], sregs := [(3, 1)] }
theorem witness_MatrixArraysStartDrainAndComplete :
    (let s : State := dieOf (kQ { banks := [(0, bk)], drains := [dr true] } { op := .maclr, f := fld 0 0 0 1 (5 + 3 * 1024 + 8192) })
     let c : CoreId := 0
     let a : Fin 2 := 1
     let k := s.core c.val
     let x := k.array a.val
     let q := { op := .maclr, f := fld 0 0 0 1 (5 + 3 * 1024 + 8192) }
     let rest := []
     Clocked s ∧ x.cur = none ∧ Table.get [] k.queues a.val = q :: rest ∧ q.op = .maclr ∧
     x.drainDue (bankOf q.f) = true) ∧
    (let s : State := dieOf (kQ { banks := [(0, bk)], drains := [dr true] } { op := .maclr, f := fld 0 0 0 1 (5 + 3 * 1024 + 8192) })
     let c : CoreId := 0
     let a : Fin 2 := 1
     let k := s.core c.val
     let x := k.array a.val
     let d := dr true
     let rest := []
     Clocked s ∧ x.drains = d :: rest) ∧
    (let s : State := dieOf (kQ { banks := [(0, bk)] } { op := .maclr, f := fld 0 0 0 1 (5 + 3 * 1024 + 8192) })
     let c : CoreId := 0
     let a : Fin 2 := 1
     let k := s.core c.val
     let x := k.array a.val
     let q := { op := .maclr, f := fld 0 0 0 1 (5 + 3 * 1024 + 8192) }
     let rest := []
     Clocked s ∧ x.cur = none ∧ Table.get [] k.queues a.val = q :: rest ∧ q.op = .maclr ∧
     x.drainDue (bankOf q.f) = false) ∧
    (let s : State := dieOf (kQ { banks := [(0, bk)] } { op := .mastat, f := fld 3 0 0 1 1, sdest := some 3 })
     let c : CoreId := 0
     let a : Fin 2 := 1
     let k := s.core c.val
     let x := k.array a.val
     let q := { op := .mastat, f := fld 3 0 0 1 1, sdest := some 3 }
     let rest := []
     Clocked s ∧ x.cur = none ∧ Table.get [] k.queues a.val = q :: rest ∧ q.op = .mastat) ∧
    (let s : State := dieOf (kK { op := .vpopc, f := fld 3 0 0 0 0, sdest := some 3, sres := 9, entries := [⟨.ob 4, 0, 3, true, 2⟩] })
     let c : CoreId := 0
     let e : Engine := .ve
     let q : QInstr := { op := .vpopc, f := fld 3 0 0 0 0, sdest := some 3, sres := 9, entries := [⟨.ob 4, 0, 3, true, 2⟩] }
     let rest : List QInstr := []
     let k := s.core c.val
     let i := match e with | .ma0 => 0 | .ma1 => 1 | .ve => 2 | .ru => 3 | .su => 4 | .mv => 5
     Clocked s ∧ Table.get [] k.running i = q :: rest) := by
  and_intros <;> (try dsimp only) <;>
    decide +kernel

def sR3 : State := { base with mem := { layersOn := 1 }, regions := [(2, [{ base := 0, last := 1, attrs := 3 }, { base := 2, last := 3, attrs := 5 }, { base := 4, last := 4, attrs := 0x27 }, { base := 5, last := 5, attrs := 0x45 }])], windows := [(7, { valid := true, colour := 2, owner := 3, base := 0x4000, len := 0x100 })] }
theorem witness_AccessChecksAnswerByTheRegionTable :
    (let s : State := sR3
     let a : Nat := 0x1800000000
     let n : Nat := 4
     let map := s.place a n
     0 < n ∧ map = .unmapped) ∧
    (let s : State := sR3
     let a : Nat := 0xF000000000
     let n : Nat := 8
     let map := s.place a n
     0 < n ∧ map = .ctl) ∧
    (let s : State := sR3
     let a : Nat := 0
     let n : Nat := 64
     let map := s.place a n
     let open_ := map = .sm ∨ ∃ c, map = .cm c
     0 < n ∧ open_) ∧
    (let s : State := sR3
     let colour : Nat := 2
     let a : Nat := 0
     let n : Nat := 64
     let r := (sR3.regionAt (2) (0) (64)).getD ⟨0,0,0⟩
     0 < n ∧ r ∈ s.regionsOf colour ∧ bit r.attrs 0 = true ∧ r.base * 4096 ≤ a ∧
     a + n ≤ (r.last + 1) * 4096) ∧
    (let s : State := sR3
     let colour : Nat := 2
     let a : Nat := 0
     let n : Nat := 64
     let map := s.place a n
     let entry := s.regionAt colour a n
     let open_ := map = .sm ∨ ∃ c, map = .cm c
     let r := (sR3.regionAt (2) (0) (64)).getD ⟨0,0,0⟩
     0 < n ∧ open_ ∧ colour ≠ 0 ∧ entry = some r) ∧
    (let s : State := sR3
     let colour : Nat := 2
     let a : Nat := 0x6000
     let n : Nat := 4
     let map := s.place a n
     let entry := s.regionAt colour a n
     let open_ := map = .sm ∨ ∃ c, map = .cm c
     0 < n ∧ open_ ∧ colour ≠ 0 ∧ entry = none) := by
  and_intros <;> (try dsimp only) <;>
    (and_intros <;> first | decide +kernel | (apply okOf; decide +kernel) | rfl | (left; decide +kernel) | exact uidNext | (apply exOf; decide +kernel) | (apply notExOf; decide +kernel) | (intro h; cases h) | simp [tableRows])

def kP : Core := { run0 with colour := 2, csr := { fault := 0 } }
def sP : State := dieOf kP
def sPf : State := { dieOf { kP with csr := { fault := 3, stepOpen := true, step := 4 } } with log := { capq := List.replicate 64 { code := 1 } } }
theorem witness_ProgramFaultHaltsTheCore :
    (let s : State := sPf
     let code : BitVec 16 := 0x0202
     let c : CoreId := 0
     let w0 : Word := 0xFF
     let w1 : Word := 0
     64 ≤ s.log.capq.length ∧ faultClass code = 1 ∧ MayIssue s c (longMaj (majOf w0)) ∧
     ((decodeCore c w0 w1 = none ∧ code = 0x0202) ∨ (∃ i, decodeCore c w0 w1 = some i ∧ fieldsInOrder i = false ∧ code = 0x0201))) ∧
    (let s : State := sP
     s.log.capq.length < 64) ∧
    (let s : State := sP
     let c : CoreId := 0
     let w0 : Word := 0x0400000000000000
     let w1 : Word := 0
     let i : Instr := (decodeCore 0 (0x0400000000000000) 0).getD (.halt 0 (fld 0 0 0 0 0))
     Clocked s ∧ decodeCore c w0 w1 = some i ∧ fieldsInOrder i = true) := by
  and_intros <;> (try dsimp only) <;>
    decide +kernel

def dsc (op : BitVec 4) (src dst : Word) (len : BitVec 32) : Desc := { (Desc.decode []) with op := op, src := src, dst := dst, len := len, tag := 0xABCD }
def dbytes (op : Byte) (src dst len : Nat) : List Byte := [op,0,0,0] ++ leBytes 4 0 ++ leBytes 8 src ++ leBytes 8 dst ++ leBytes 4 len ++ leBytes 36 0
def kX : Core := { run0 with colour := 2, sregs := [(2, 0x1000 + 0x2000 * 2^32), (3, 2), (4, 11), (5, 0x1010)] , csr := { heldQueue := 5 }}
def regs2 : List Region := [{ base := 0x8000000, last := 0x80005FF, attrs := 0x17 }]
def sX : State := { dieOf kX with regions := [(2, regs2)] }
def ch (t h : BitVec 16) : Chan := { set := true, ring := 0x8000001000, cring := 0x8000002000, depthLog2 := 2, head := h, tail := t }
def sXp (d : List Byte) : State := { sX with cores := [(0, { kX with chans := [(3, ch 1 0)] })], mem := { cells := putBytes [] 0x8000001040 d } }
def q5 : List QInstr := List.replicate 16 { op := .mvpost, f := fld 0 0 0 0 3 }
def sXq : State := { sX with cores := [(0, { kX with queues := [(5, q5)] })] }
def sXb : State := { sX with cores := [(0, { kX with chans := [(3, ch 1 0)], sb := [⟨.mem, 0x8000001040, 0x8000001047, true, 2⟩] })] }
def sXs : State := { (sXp (dbytes 1 0x8000003000 0x8000004000 256)) with cores := [(0, { kX with chans := [(3, ch 1 0)], sb := List.replicate 63 ⟨.mem, 0x8000005000, 0x8000005007, false, 2⟩ })] }
def sXu : State := { sX with cores := [(0, { kX with chans := [(3, { (ch 1 0) with set := false })] })] }
def sXf : State := { sX with cores := [(0, { kX with chans := [(3, ch 5 1)] })] }
theorem witness_MoverInstructionsConfigureAndPost :
    (let s : State := sXq
     let c : CoreId := 0
     let f : Fields := fld 0 0 0 0 3
     let k := s.core c.val
     let room := (Table.get [] k.queues 5).length < 16
     MayIssue s c false ∧ k.pending [f.a, f.b] = false ∧ f.only false true true 0 0xF = true ∧
     ¬ room ∧ f.only false false false 0 0xF = true) ∧
    (let s : State := sXb
     let c : CoreId := 0
     let f : Fields := fld 0 0 0 0 3
     let k := s.core c.val
     let n := f.imm.toNat
     let h := k.chan n
     let ring := (field (k.sreg f.a.toNat) 0 32).toNat
     let cring := (field (k.sreg f.a.toNat) 32 32).toNat
     let lg := (k.sreg f.b.toNat).toNat
     let good := 1 ≤ lg ∧ lg ≤ 10 ∧ ring % 64 = 0 ∧ cring % 16 = 0 ∧ ring + 64 * 2 ^ lg ≤ 0x600000 ∧ cring + 16 * 2 ^ lg ≤ 0x600000 ∧ h.head = h.tail ∧ h.posted = [] ∧ ringGuarded s c.val (cmBase c.val + ring) (64 * 2 ^ lg) = true ∧ ringGuarded s c.val (cmBase c.val + cring) (16 * 2 ^ lg) = true
     let room := (Table.get [] k.queues 5).length < 16
     let slot := h.ring + h.tail.toNat % 2 ^ h.depthLog2 * 64
     MayIssue s c false ∧ k.pending [f.a, f.b] = false ∧ f.only false true true 0 0xF = true ∧ room ∧
     ¬ good ∧ f.only false false false 0 0xF = true ∧ h.set = true ∧
     (h.tail - h.head).toNat < 2 ^ h.depthLog2 ∧
     k.blocked (rngOf s c.val (.cm slot) 0 63 false) = true) ∧
    (let s : State := sXs
     let c : CoreId := 0
     let f : Fields := fld 0 0 0 0 3
     let k := s.core c.val
     let n := f.imm.toNat
     let h := k.chan n
     let ring := (field (k.sreg f.a.toNat) 0 32).toNat
     let slot := h.ring + h.tail.toNat % 2 ^ h.depthLog2 * 64
     let d := Desc.decode (s.bytesAt slot 64)
     let room := (Table.get [] k.queues 5).length < 16
     let rs := d.ranges s c.val
     MayIssue s c false ∧ f.only false false false 0 0xF = true ∧ room ∧ h.set = true ∧
     (h.tail - h.head).toNat < 2 ^ h.depthLog2 ∧
     k.blocked (rngOf s c.val (.cm slot) 0 63 false) = false ∧
     s.check k.colour.toNat (some c.val) none false slot 64 = .ok ∧ s.detects slot 64 = false ∧
     d.check s c.val = none ∧ (k.blocked rs = true ∨ 64 < k.sb.length + rs.length)) ∧
    (let s : State := sXu
     let c : CoreId := 0
     let f : Fields := fld 0 0 0 0 3
     let k := s.core c.val
     let n := f.imm.toNat
     let h := k.chan n
     let room := (Table.get [] k.queues 5).length < 16
     MayIssue s c false ∧ f.only false false false 0 0xF = true ∧ room ∧ h.set = false) ∧
    (let s : State := sX
     let c : CoreId := 0
     let f : Fields := fld 0 2 3 0 3
     let k := s.core c.val
     let n := f.imm.toNat
     let h := k.chan n
     let ring := (field (k.sreg f.a.toNat) 0 32).toNat
     let cring := (field (k.sreg f.a.toNat) 32 32).toNat
     let lg := (k.sreg f.b.toNat).toNat
     let good := 1 ≤ lg ∧ lg ≤ 10 ∧ ring % 64 = 0 ∧ cring % 16 = 0 ∧ ring + 64 * 2 ^ lg ≤ 0x600000 ∧ cring + 16 * 2 ^ lg ≤ 0x600000 ∧ h.head = h.tail ∧ h.posted = [] ∧ ringGuarded s c.val (cmBase c.val + ring) (64 * 2 ^ lg) = true ∧ ringGuarded s c.val (cmBase c.val + cring) (16 * 2 ^ lg) = true
     let room := (Table.get [] k.queues 5).length < 16
     MayIssue s c false ∧ k.pending [f.a, f.b] = false ∧ f.only false true true 0 0xF = true ∧ room ∧
     good) ∧
    (let s : State := sXf
     let c : CoreId := 0
     let f : Fields := fld 0 0 0 0 3
     let k := s.core c.val
     let n := f.imm.toNat
     let h := k.chan n
     let room := (Table.get [] k.queues 5).length < 16
     MayIssue s c false ∧ f.only false false false 0 0xF = true ∧ room ∧ h.set = true ∧
     2 ^ h.depthLog2 ≤ (h.tail - h.head).toNat) ∧
    (let s : State := sXp (dbytes 1 0x8000003000 0x8000004000 256)
     let c : CoreId := 0
     let f : Fields := fld 0 0 0 0 3
     let k := s.core c.val
     let n := f.imm.toNat
     let h := k.chan n
     let ring := (field (k.sreg f.a.toNat) 0 32).toNat
     let slot := h.ring + h.tail.toNat % 2 ^ h.depthLog2 * 64
     let d := Desc.decode (s.bytesAt slot 64)
     let room := (Table.get [] k.queues 5).length < 16
     let rs := d.ranges s c.val
     MayIssue s c false ∧ f.only false false false 0 0xF = true ∧ room ∧ h.set = true ∧
     (h.tail - h.head).toNat < 2 ^ h.depthLog2 ∧
     k.blocked (rngOf s c.val (.cm slot) 0 63 false) = false ∧
     s.check k.colour.toNat (some c.val) none false slot 64 = .ok ∧ s.detects slot 64 = false ∧
     d.check s c.val = none ∧ k.blocked rs = false ∧ k.sb.length + rs.length ≤ 64) ∧
    (let s : State := sXp (dbytes 7 0 0 0)
     let c : CoreId := 0
     let f : Fields := fld 0 0 0 0 3
     let k := s.core c.val
     let n := f.imm.toNat
     let h := k.chan n
     let ring := (field (k.sreg f.a.toNat) 0 32).toNat
     let slot := h.ring + h.tail.toNat % 2 ^ h.depthLog2 * 64
     let d := Desc.decode (s.bytesAt slot 64)
     let room := (Table.get [] k.queues 5).length < 16
     let e := ((Desc.decode (dbytes 7 0 0 0)).check (sXp (dbytes 7 0 0 0)) 0).getD 0
     MayIssue s c false ∧ f.only false false false 0 0xF = true ∧ room ∧ h.set = true ∧
     (h.tail - h.head).toNat < 2 ^ h.depthLog2 ∧
     k.blocked (rngOf s c.val (.cm slot) 0 63 false) = false ∧
     s.check k.colour.toNat (some c.val) none false slot 64 = .ok ∧ s.detects slot 64 = false ∧
     d.check s c.val = some e) := by
  and_intros <;> (try dsimp only) <;>
    decide +kernel

def po (i : BitVec 16) (f : Option Byte) (st all : Bool) : Posted := { index := i, desc := { (dsc 1 0x8000003000 0x8000004010 0x70) with sigv := true, sigCore := 5, sigFlag := 63 }, entries := [], started := st, allSent := all, fail := f, bytesOk := 0x70 }
def sD (l : List Posted) (h : Bool) : State := { sX with cores := [(0, { kX with chans := [(15, { ch 2 0 with posted := l, halted := h })] })], mem := { cells := putBytes [] 0x8000003000 (List.range 0x80 |>.map (fun i => BitVec.ofNat 8 (i * 7 + 3))) } }
theorem witness_DescriptorsStartAndComplete :
    (let s : State := sD ([] ++ (po 0 none false false) :: [po 1 none false false]) false
     let c : CoreId := 0
     let ch : Fin 16 := 15
     let k := s.core c.val
     let h := k.chan ch.val
     let ahead : List Posted := []
     let rest : List Posted := [po 1 none false false]
     let p : Posted := po 0 none false false
     Clocked s ∧ h.halted = false ∧ h.posted = ahead ++ p :: rest ∧
     (∀ x ∈ ahead, x.started = true ∧ x.allSent = true ∧ x.fail = none ∧ x.index ≠ p.index) ∧
     p.started = false ∧ p.allSent = false ∧ p.outst = 0 ∧ p.fail = none) ∧
    (let s : State := sD [po 0 none false false] true
     let c : CoreId := 0
     let ch : Fin 16 := 15
     let k := s.core c.val
     let h := k.chan ch.val
     Clocked s ∧ h.halted = true) ∧
    (let s : State := sD [po 0 none true true, po 1 none false false] false
     let c : CoreId := 0
     let ch : Fin 16 := 15
     let k := s.core c.val
     let h := k.chan ch.val
     let p : Posted := po 0 none true true
     let rest : List Posted := [po 1 none false false]
     Clocked s ∧ h.posted = p :: rest ∧ h.halted = false ∧ p.outst = 0 ∧
     s.check k.colour.toNat (some c.val) none true (h.cring + p.index.toNat % 2 ^ h.depthLog2 * 16) 16 = .ok ∧
     p.started = true ∧ p.allSent = true ∧ p.fail = none ∧
     (p.desc.probe = false ∨ p.probed = true ∨ p.dies = 0)) ∧
    (let s : State := sD [po 0 (some 8) true false, po 1 none false false] false
     let c : CoreId := 0
     let ch : Fin 16 := 15
     let k := s.core c.val
     let h := k.chan ch.val
     let p : Posted := po 0 (some 8) true false
     let rest : List Posted := [po 1 none false false]
     let st : Byte := 8
     Clocked s ∧ h.posted = p :: rest ∧ h.halted = false ∧ p.outst = 0 ∧
     s.check k.colour.toNat (some c.val) none true (h.cring + p.index.toNat % 2 ^ h.depthLog2 * 16) 16 = .ok ∧
     st ≠ 0 ∧ p.fail = some st) := by
  and_intros <;> (try dsimp only) <;>
    decide +kernel

def cr (d : BitVec 6) (len : Nat) (b : Bool) : Credit := { die := d, win := 9, base := 0, len := len, barred := b }
def sPi (col : BitVec 4) (p : Posted) (lv : Int) (b : Bool := false) : State := { (sD [p] false) with cores := [(0, { kX with colour := col, lastChan := 14, credits := [cr 0 0x1000 b, cr 1 0x1000 b], chans := [(15, { ch 2 0 with posted := [p] })] })], parts := [(2, { present := true, buckets := [(1*64, {unlim := false, level := lv}), (0,{unlim:=false,level:=lv}), (2*64, {unlim := false, level := lv}), (3*64, {unlim := false, level := lv})] })], member := { id := some 0, dies := [(1, { st := .verified })] } }
def noTag (s : State) : State := { s with late := (List.range 64).map (fun i => (BitVec.ofNat 12 i, 1)) }
def gone (s : State) : State := { s with member := { id := some 0, dies := [] } }
def mine (s : State) : State := { s with cores := [(0, { s.core 0 with lastChan := 2, chans := [(15, (s.core 0).chan 15), (3, (s.core 0).chan 15)] })] }
def pC : Posted := po 0 none true false
def pW : Posted := { po 0 none true false with desc := { (dsc 1 0x8000003000 0x10000000000 0x100) with winv := true, win := 9 } }
def pA : Posted := { po 0 none true false with desc := { (dsc 1 0x8000003000 0x10000000000 0x100) with winv := false } }
def pL : Posted := { po 0 none true false with desc := { (dsc 1 0x3000 0x4000 0x100) with winv := false } }
theorem witness_MoverPiecesMoveTheirBytes :
    (let s : State := sPi 0 pC (5)
     let c : CoreId := 0
     let ch : Fin 16 := 15
     let p : Posted := pC
     let k := s.core c.val
     let x := p.piece s.ownId
     let d := p.desc
     let far := d.farDies s.ownId
     let lost := far.any (fun y => (s.die y.toNat).st == .absent) = true
     let tokens := qosStart s k.colour.toNat (pieceCost s.ownId c.val d x)
     let a : Nat := 0x8000003000
     let b : Nat := 0x8000004010
     let die : BitVec 6 := 0
     Clocked s ∧ (k.chan ch.val).current = some p ∧ d.srcKind = some (.pga s.ownId a) ∧
     d.dstKind = some (.pga die b) ∧ d.winv = false ∧ ¬ lost ∧
     (die ≠ s.ownId → freshTag s c.val ≠ none) ∧ tokens.1 = true ∧ s.turnTaken c.val ch.val = false ∧
     localRefusal s c.val none false x.src x.n = none ∧ s.mem.bad = [] ∧ s.mem.cmBad = [] ∧
     die = s.ownId ∧ localRefusal s c.val none true x.dst x.n = none) ∧
    (let s : State := mine (sPi 0 pC (5))
     let c : CoreId := 0
     let ch : Fin 16 := 15
     let p : Posted := pC
     let k := s.core c.val
     let x := p.piece s.ownId
     let d := p.desc
     let far := d.farDies s.ownId
     let lost := far.any (fun y => (s.die y.toNat).st == .absent) = true
     let tokens := qosStart s k.colour.toNat (pieceCost s.ownId c.val d x)
     let a : Nat := 0x8000003000
     let b : Nat := 0x8000004010
     let die : BitVec 6 := 0
     Clocked s ∧ (k.chan ch.val).current = some p ∧ d.srcKind = some (.pga s.ownId a) ∧
     d.dstKind = some (.pga die b) ∧ d.winv = false ∧ ¬ lost ∧
     (die ≠ s.ownId → freshTag s c.val ≠ none) ∧ tokens.1 = true ∧ s.turnTaken c.val ch.val = true) ∧
    (let s : State := sPi 0 pA (5)
     let c : CoreId := 0
     let ch : Fin 16 := 15
     let p : Posted := pA
     let k := s.core c.val
     let x := p.piece s.ownId
     let d := p.desc
     let far := d.farDies s.ownId
     let lost := far.any (fun y => (s.die y.toNat).st == .absent) = true
     let tokens := qosStart s k.colour.toNat (pieceCost s.ownId c.val d x)
     let a : Nat := 0x8000003000
     let b : Nat := 0
     let die : BitVec 6 := 1
     let g := 0
     Clocked s ∧ (k.chan ch.val).current = some p ∧ d.srcKind = some (.pga s.ownId a) ∧
     d.dstKind = some (.pga die b) ∧ d.winv = false ∧ ¬ lost ∧
     (die ≠ s.ownId → freshTag s c.val ≠ none) ∧ tokens.1 = true ∧ s.turnTaken c.val ch.val = false ∧
     localRefusal s c.val none false x.src x.n = none ∧ s.mem.bad = [] ∧ s.mem.cmBad = [] ∧
     die ≠ s.ownId ∧ d.op = 1 ∧ freshTag s c.val = some g) ∧
    (let s : State := gone (sPi 0 pA (5))
     let c : CoreId := 0
     let ch : Fin 16 := 15
     let p : Posted := pA
     let k := s.core c.val
     let d := p.desc
     let far := d.farDies s.ownId
     let lost := far.any (fun y => (s.die y.toNat).st == .absent) = true
     let barred := ∃ e u, p.needs s.ownId k = some (e, u) ∧ e.barred = true
     Clocked s ∧ (k.chan ch.val).current = some p ∧ (lost ∨ barred)) ∧
    (let s : State := sPi 2 pL (-5)
     let c : CoreId := 0
     let ch : Fin 16 := 15
     let p : Posted := pL
     let k := s.core c.val
     let x := p.piece s.ownId
     let d := p.desc
     let far := d.farDies s.ownId
     let lost := far.any (fun y => (s.die y.toNat).st == .absent) = true
     let tokens := qosStart s k.colour.toNat (pieceCost s.ownId c.val d x)
     let a : Nat := 0x3000
     let b : Nat := 0x4000
     let die : BitVec 6 := 0
     Clocked s ∧ (k.chan ch.val).current = some p ∧ d.srcKind = some (.pga s.ownId a) ∧
     d.dstKind = some (.pga die b) ∧ d.winv = false ∧ ¬ lost ∧
     (die ≠ s.ownId → freshTag s c.val ≠ none) ∧ tokens.1 = false) ∧
    (let s : State := noTag (sPi 0 pW (5) false)
     let c : CoreId := 0
     let ch : Fin 16 := 15
     let p : Posted := pW
     let k := s.core c.val
     let d := p.desc
     let far := d.farDies s.ownId
     let lost := far.any (fun y => (s.die y.toNat).st == .absent) = true
     let barred := ∃ e u, p.needs s.ownId k = some (e, u) ∧ e.barred = true
     Clocked s ∧ (k.chan ch.val).current = some p ∧ ¬ lost ∧ ¬ barred ∧
     (∃ e u, p.needs s.ownId k = some (e, u) ∧ (e.held < u ∨ s.lowerWaits c.val ch.val e = true)) ∧
     far ≠ [] ∧ freshTag s c.val = none) := by
  and_intros <;> (try dsimp only) <;>
    (and_intros <;> first | decide +kernel | (apply okOf; decide +kernel) | rfl | (left; decide +kernel) | exact uidNext | (apply exOf; decide +kernel) | (apply notExOf; decide +kernel) | (intro h; cases h) | simp [tableRows])

def slotW (w c u : Nat) : Slot := BitVec.ofNat 128 (w + c * 256 + u * 2 ^ 32)
def wn : Window := { valid := true, colour := 2, owner := 0, base := 0x8000004000, len := 0x1000, occ := 0x8000005000, free := 9, filled := 6, released := 2, rr := 0 }
def se (d c : BitVec 6) (o : Nat) : Sender := { win := 7, die := d, core := c, share := 8, out := o }
def kW2 : Core := { run0 with colour := 2, sregs := [(2, 3), (3, 4), (4, 5)], credits := [{ die := 5, win := 7, base := 0, len := 0x1000, held := 2 }] }
def sW2 : State := { dieOf kW2 with regions := [(2, [{ base := 0x8000000, last := 0x80005FF, attrs := 0x17 }])], windows := [(7, wn)], senders := [se 1 2 8, se 5 3 2], landed := [⟨7, 5, 3, 2⟩, ⟨1, 2, 3, 1⟩], mesh := [⟨2, 2, 5, 0, slotW 7 0 0xFFFFF, 64⟩, ⟨2, 2, 4, 0, slotW 7 0 2, 64⟩, ⟨3, 2, 5, 0, slotW 7 3 2, 64⟩, ⟨3, 2, 5, 0, slotW 7 3 0, 64⟩, ⟨3, 2, 4, 0, slotW 7 0 2, 64⟩], member := { id := some 0, dies := [(5, { st := .verified, port := 1 })] } }
def sWq : State := { sW2 with cores := [(0, { kW2 with queues := [(5, List.replicate 16 { op := .mvrel, f := fld 0 2 0 0 7 })] })] }
def sWb : State := { sW2 with cores := [(0, { kW2 with sb := [⟨.mem, 0x8000004FFF, 0x8000005000, false, 3⟩] })] }
theorem witness_WindowUnitsBalance :
    let s : State := sW2
    let n : BitVec 8 := 7
    let e : Sender := se 5 3 2
    let l : Landed := ⟨7, 5, 3, 2⟩
    let rest : List Landed := [⟨1, 2, 3, 1⟩]
    let src : BitVec 6 := 5
    let colour : BitVec 4 := 2
    let slot : Slot := slotW 7 3 2
    Clocked s ∧ (s.window n.toNat).valid = true ∧ e.out < 2 ^ 20 ∧ s.landed = l :: rest ∧ l.win = n ∧
    l.units ≤ e.out ∧ (unitsOf s n) < 2 ^ 32 ∧
    (s.senders.find? (fun x => x.win == n && x.die == l.die && x.core == l.core) = some e) ∧
    winOf slot = (n, e.core, (field slot 32 20).toNat) ∧ (field slot 32 20).toNat ≤ e.out ∧
    Waits s (slotOf 3 src colour slot) ∧ s.resetting colour.toNat = false ∧
    (s.window n.toNat).colour = colour ∧
    (s.senders.find? (fun x => x.win == n && x.die == src && x.core == e.core) = some e) := by
  (try dsimp only) <;>
    decide +kernel

theorem witness_WindowsReleaseAndGrant :
    (let s : State := sW2
     let c : CoreId := 0
     let f : Fields := fld 0 4 0 0 7
     let k := s.core c.val
     let w := s.window f.imm.toNat
     let u := (field (k.sreg f.a.toNat) 0 20).toNat
     let room := (Table.get [] k.queues 5).length < 16
     let holds := k.waitsFor (rngOf s c.val (.cm w.base) 0 (w.len - 1 : Nat) true)
     let n : BitVec 8 := 7
     let x := s.window n.toNat
     let i := 1
     let e := se 5 3 2
     let src : BitVec 6 := 5
     let colour : BitVec 4 := 2
     let slot : Slot := slotW 7 3 2
     MayIssue s c false ∧ (s.core c.val).pending [f.a] = false ∧
     f.only false true false 0 0xFF = true ∧ room ∧ w.valid = true ∧ w.owner = c.val ∧ holds = false ∧
     (w.filled - w.released).toNat < u ∧ Clocked s ∧ x.valid = true ∧ 0 < x.free ∧
     nextSender s n x.rr = some (i, e) ∧ ¬ Waits s (slotOf 2 src colour slot)) ∧
    (let s : State := sW2
     let src : BitVec 6 := 5
     let colour : BitVec 4 := 2
     let slot : Slot := slotW 7 3 2
     let n : BitVec 8 := field slot 0 8
     let core : BitVec 6 := field slot 8 6
     let w := s.window n.toNat
     Clocked s ∧ Waits s (slotOf 3 src colour slot) ∧ w.valid = true ∧ w.colour = colour ∧
     s.resetting colour.toNat = false ∧ s.hasSender n src core = true) ∧
    (let s : State := sW2
     let c : CoreId := 0
     let f : Fields := fld 0 2 0 0 8
     let k := s.core c.val
     let w := s.window f.imm.toNat
     let room := (Table.get [] k.queues 5).length < 16
     let n : BitVec 8 := 8
     let x := s.window n.toNat
     let src : BitVec 6 := 5
     let colour : BitVec 4 := 2
     let slot : Slot := slotW 7 0 0xFFFFF
     MayIssue s c false ∧ (s.core c.val).pending [f.a] = false ∧
     f.only false true false 0 0xFF = true ∧ room ∧ (w.valid = false ∨ w.owner ≠ c.val) ∧ Clocked s ∧
     (x.valid = false ∨ x.free = 0) ∧ ¬ Waits s (slotOf 3 src colour slot)) ∧
    (let s : State := sW2
     let src : BitVec 6 := 5
     let colour : BitVec 4 := 2
     let slot : Slot := slotW 7 0 0xFFFFF
     let n : BitVec 8 := field slot 0 8
     let core : BitVec 6 := field slot 8 6
     let k := s.core core.toNat
     let e := { die := 5, win := 7, base := 0, len := 0x1000, held := 2 }
     Clocked s ∧ Waits s (slotOf 2 src colour slot) ∧ k.credit src n = some e ∧
     s.resetting colour.toNat = false ∧ k.colour = colour ∧ e.barred = false) ∧
    (let s : State := sW2
     let src : BitVec 6 := 4
     let colour : BitVec 4 := 2
     let slot : Slot := slotW 7 0 2
     let n : BitVec 8 := field slot 0 8
     let core : BitVec 6 := field slot 8 6
     let k := s.core core.toNat
     Clocked s ∧ Waits s (slotOf 2 src colour slot) ∧ k.credit src n = none ∧
     Waits s (slotOf 3 src colour slot) ∧ s.hasSender n src core = false) ∧
    (let s : State := sW2
     let c : CoreId := 0
     let f : Fields := fld 0 6 0 0 7
     let k := s.core c.val
     let w := s.window f.imm.toNat
     let u := (field (k.sreg f.a.toNat) 0 20).toNat
     let room := (Table.get [] k.queues 5).length < 16
     let holds := k.waitsFor (rngOf s c.val (.cm w.base) 0 (w.len - 1 : Nat) true)
     MayIssue s c false ∧ (s.core c.val).pending [f.a] = false ∧
     f.only false true false 0 0xFF = true ∧ room ∧ w.valid = true ∧ w.owner = c.val ∧ holds = false ∧
     u = 0) ∧
    (let s : State := sWq
     let c : CoreId := 0
     let f : Fields := fld 0 2 0 0 7
     let k := s.core c.val
     let room := (Table.get [] k.queues 5).length < 16
     MayIssue s c false ∧ (s.core c.val).pending [f.a] = false ∧
     f.only false true false 0 0xFF = true ∧ ¬ room) ∧
    (let s : State := sWb
     let c : CoreId := 0
     let f : Fields := fld 0 2 0 0 7
     let k := s.core c.val
     let w := s.window f.imm.toNat
     let room := (Table.get [] k.queues 5).length < 16
     let holds := k.waitsFor (rngOf s c.val (.cm w.base) 0 (w.len - 1 : Nat) true)
     MayIssue s c false ∧ (s.core c.val).pending [f.a] = false ∧
     f.only false true false 0 0xFF = true ∧ room ∧ w.valid = true ∧ w.owner = c.val ∧ holds = true) ∧
    (let s : State := sW2
     let c : CoreId := 0
     let f : Fields := fld 0 2 0 0 7
     let k := s.core c.val
     let w := s.window f.imm.toNat
     let u := (field (k.sreg f.a.toNat) 0 20).toNat
     let room := (Table.get [] k.queues 5).length < 16
     let holds := k.waitsFor (rngOf s c.val (.cm w.base) 0 (w.len - 1 : Nat) true)
     let w' := { w with released := w.released + BitVec.ofNat 32 u, free := w.free + u }
     let s' := s.setWindow f.imm.toNat w'
     MayIssue s c false ∧ (s.core c.val).pending [f.a] = false ∧
     f.only false true false 0 0xFF = true ∧ room ∧ w.valid = true ∧ w.owner = c.val ∧ holds = false ∧
     0 < u ∧ u ≤ (w.filled - w.released).toNat ∧
     s'.check w.colour.toNat (some c.val) none true w.occ 8 = .ok) ∧
    (let s : State := sW2
     let colour : BitVec 4 := 2
     let slot : Slot := slotW 7 3 2
     let core : BitVec 6 := field slot 8 6
     let l : Landed := ⟨7, 5, 3, 2⟩
     let rest : List Landed := [⟨1, 2, 3, 1⟩]
     let v := s.window l.win.toNat
     let v' := { v with filled := v.filled + BitVec.ofNat 32 l.units }
     let s' := (modSender { s with landed := rest } l.win l.die l.core (fun e => { e with out := sub20 e.out l.units, settled := e.settled + BitVec.ofNat 32 l.units })).setWindow l.win.toNat v'
     Clocked s ∧ s.landed = l :: rest ∧ (s.window l.win.toNat).valid = true ∧
     s.hasSender l.win l.die l.core = true ∧
     s'.check v.colour.toNat (some v.owner) none true v.occ 8 = .ok) := by
  and_intros <;> (try dsimp only) <;>
    (and_intros <;> first | decide +kernel | (apply okOf; decide +kernel) | rfl | (left; decide +kernel) | exact uidNext | (apply exOf; decide +kernel) | (apply notExOf; decide +kernel) | (intro h; cases h) | simp [tableRows])

def sl (n s f inc : Nat) : Slot := BitVec.ofNat 128 (n + s * 256 + f * 512 + inc * 0x10000)
def dieSl (q : Slot) : Slot := setBit q 30
def cn : Counter := { valid := true, colour := 2, inc := 4, pmask := 5, arr := 4, releases := 7, next := 1 }
def sC2 (x : Counter) : State := { dieOf { run0 with colour := 2 } with counters := [(3, x)], member := { id := some 1, dies := [(5, { st := .verified, port := 1 })] }, mesh := ([sl 3 0 1 4, sl 3 1 0 4, sl 4 0 0 4, sl 3 0 1 5, sl 3 1 1 4].map (fun (q : Slot) => [(⟨4, 2, 1, 0, q, 64⟩ : MeshSlot), ⟨4, 2, 5, 0, dieSl q, 64⟩, ⟨5, 2, 5, 0, q, 64⟩])).flatten }
theorem witness_CountersCountArrivalsAndRelease :
    (let s : State := sC2 ({cn with arr := 5})
     let c : CoreId := 0
     let colour : BitVec 4 := 2
     let slot : Slot := sl 3 0 1 4
     let n := (field slot 0 7).toNat
     let sense := bit slot 8
     let x := s.counter n
     let hit := coreArrival c.val colour slot
     let mine := x.valid = true ∧ x.colour = colour ∧ bit x.pmask c.val = true
     let src : BitVec 6 := 5
     let hoist := slotOf 5 src colour slot
     Clocked s ∧ s.resetting colour.toNat = false ∧ Waits s hit ∧ mine ∧
     ((sense = x.sense ∧ bit x.arr c.val = true) ∨ (sense ≠ x.sense ∧ (x.modeB = false ∨ bit x.next c.val = true))) ∧
     Waits s hoist ∧
     (x.valid = false ∨ x.role ≠ 1 ∨ x.root ≠ src ∨ x.colour ≠ colour ∨ field slot 16 8 ≠ x.inc ∨ bit slot 8 ≠ x.sense)) ∧
    (let s : State := sC2 ({cn with arr := 5})
     let n : Fin 128 := 3
     let x := s.counter n.val
     let src : BitVec 6 := 5
     let colour : BitVec 4 := 2
     let slot : Slot := sl 3 0 1 4
     let hit := dieArrival src colour slot
     Clocked s ∧ x.valid = true ∧ x.arr = x.pmask ∧ x.role = 0 ∧ s.resetting colour.toNat = false ∧
     ¬ Waits s hit) ∧
    (let s : State := sC2 ({cn with arr := 5, role := 1, told := true, root := 5})
     let c : CoreId := 0
     let colour : BitVec 4 := 2
     let slot : Slot := dieSl (sl 3 0 1 4)
     let hit := coreArrival c.val colour slot
     let n : Fin 128 := 3
     let x := s.counter n.val
     let src : BitVec 6 := 5
     let hoist := slotOf 5 src colour slot
     Clocked s ∧ s.resetting colour.toNat = false ∧ ¬ Waits s hit ∧ x.valid = true ∧ x.arr = x.pmask ∧
     x.role = 1 ∧ x.told = true ∧ ¬ Waits s hoist) ∧
    (let s : State := sC2 ({cn with arr := 5, role := 1, told := true, root := 5})
     let src : BitVec 6 := 5
     let colour : BitVec 4 := 2
     let slot : Slot := dieSl (sl 3 0 1 4)
     let n := (field slot 0 7).toNat
     let x := s.counter n
     let hit := dieArrival src colour slot
     Clocked s ∧ s.resetting colour.toNat = false ∧ Waits s hit ∧ x.valid = true ∧
     field slot 16 8 = x.inc ∧ (x.colour ≠ colour ∨ bit x.dmask src.toNat = false)) ∧
    (let s : State := sC2 (cn)
     let c : CoreId := 0
     let colour : BitVec 4 := 2
     let slot : Slot := sl 3 0 1 4
     let n := (field slot 0 7).toNat
     let sense := bit slot 8
     let x := s.counter n
     let hit := coreArrival c.val colour slot
     let mine := x.valid = true ∧ x.colour = colour ∧ bit x.pmask c.val = true
     Clocked s ∧ s.resetting colour.toNat = false ∧ Waits s hit ∧ mine ∧ sense = x.sense ∧
     bit x.arr c.val = false) ∧
    (let s : State := sC2 (cn)
     let n : Fin 128 := 3
     let x := s.counter n.val
     Clocked s ∧ (x.valid = false ∨ x.arr ≠ x.pmask)) ∧
    (let s : State := sC2 (cn)
     let c : CoreId := 0
     let colour : BitVec 4 := 2
     let slot : Slot := sl 4 0 0 4
     let n := (field slot 0 7).toNat
     let x := s.counter n
     let hit := coreArrival c.val colour slot
     let mine := x.valid = true ∧ x.colour = colour ∧ bit x.pmask c.val = true
     Clocked s ∧ s.resetting colour.toNat = false ∧ Waits s hit ∧ ¬ mine) ∧
    (let s : State := sC2 ({cn with modeB := true, next := 0})
     let c : CoreId := 0
     let colour : BitVec 4 := 2
     let slot : Slot := sl 3 1 0 4
     let n := (field slot 0 7).toNat
     let sense := bit slot 8
     let x := s.counter n
     let hit := coreArrival c.val colour slot
     let mine := x.valid = true ∧ x.colour = colour ∧ bit x.pmask c.val = true
     Clocked s ∧ s.resetting colour.toNat = false ∧ Waits s hit ∧ mine ∧ sense ≠ x.sense ∧
     x.modeB = true ∧ bit x.next c.val = false) ∧
    (let s : State := sC2 ({cn with arr := 5})
     let src : BitVec 6 := 5
     let colour : BitVec 4 := 2
     let slot : Slot := dieSl (sl 3 0 1 5)
     let n := (field slot 0 7).toNat
     let x := s.counter n
     let hit := dieArrival src colour slot
     Clocked s ∧ s.resetting colour.toNat = false ∧ Waits s hit ∧
     (x.valid = false ∨ field slot 16 8 ≠ x.inc)) ∧
    (let s : State := sC2 ({cn with arr := 5, role := 1, told := true, root := 5})
     let src : BitVec 6 := 5
     let colour : BitVec 4 := 2
     let slot : Slot := sl 3 0 1 4
     let n := (field slot 0 7).toNat
     let x := s.counter n
     let hoist := slotOf 5 src colour slot
     Clocked s ∧ s.resetting colour.toNat = false ∧ Waits s hoist ∧ x.valid = true ∧ x.role = 1 ∧
     x.root = src ∧ x.colour = colour ∧ field slot 16 8 = x.inc ∧ bit slot 8 = x.sense) ∧
    (let s : State := sC2 ({cn with arr := 5, role := 2, dmask := 0x22, root := 1})
     let n : Fin 128 := 3
     let x := s.counter n.val
     Clocked s ∧ x.valid = true ∧ x.arr = x.pmask ∧ x.role = 2 ∧ setBit x.darr s.ownId.toNat ≠ x.dmask) ∧
    (let s : State := sC2 ({cn with arr := 5, role := 2, dmask := 0x22, root := 1})
     let src : BitVec 6 := 5
     let colour : BitVec 4 := 2
     let slot : Slot := dieSl (sl 3 0 1 4)
     let n := (field slot 0 7).toNat
     let x := s.counter n
     let hit := dieArrival src colour slot
     Clocked s ∧ s.resetting colour.toNat = false ∧ Waits s hit ∧ x.valid = true ∧
     field slot 16 8 = x.inc ∧ x.colour = colour ∧ bit x.dmask src.toNat = true ∧
     bit x.darr src.toNat = false ∧ setBit x.darr src.toNat ≠ x.dmask) ∧
    (let s : State := sC2 ({cn with arr := 5, role := 1, root := 5})
     let n : Fin 128 := 3
     let x := s.counter n.val
     Clocked s ∧ x.valid = true ∧ x.arr = x.pmask ∧ x.role = 1 ∧ x.told = false) ∧
    (let s : State := sC2 ({cn with arr := 5, role := 2, dmask := 0x22, darr := 0x20, root := 1})
     let n : Fin 128 := 3
     let x := s.counter n.val
     Clocked s ∧ x.valid = true ∧ x.arr = x.pmask ∧ x.role = 2 ∧ setBit x.darr s.ownId.toNat = x.dmask) ∧
    (let s : State := sC2 ({cn with arr := 5, role := 2, dmask := 0x22, darr := 0x20, root := 1})
     let src : BitVec 6 := 5
     let colour : BitVec 4 := 2
     let slot : Slot := dieSl (sl 3 0 1 4)
     let n := (field slot 0 7).toNat
     let x := s.counter n
     let hit := dieArrival src colour slot
     Clocked s ∧ s.resetting colour.toNat = false ∧ Waits s hit ∧ x.valid = true ∧
     field slot 16 8 = x.inc ∧ x.colour = colour ∧ bit x.dmask src.toNat = true ∧
     bit x.darr src.toNat = true) ∧
    (let s : State := sC2 ({cn with role := 2, dmask := 0x22, darr := 2})
     let src : BitVec 6 := 5
     let colour : BitVec 4 := 2
     let slot : Slot := dieSl (sl 3 0 1 4)
     let n := (field slot 0 7).toNat
     let x := s.counter n
     let hit := dieArrival src colour slot
     Clocked s ∧ s.resetting colour.toNat = false ∧ Waits s hit ∧ x.valid = true ∧
     field slot 16 8 = x.inc ∧ x.colour = colour ∧ bit x.dmask src.toNat = true ∧
     bit x.darr src.toNat = false ∧ setBit x.darr src.toNat = x.dmask) := by
  and_intros <;> (try dsimp only) <;>
    decide +kernel

def kH (h : Option Hold) : Core := { run0 with colour := 2, st := .wait, hold := h, csr := { stepOpen := true, step := 8 }, bars := [(3, { ns := true, out := [false, true] })] }
def sH2 (h : Option Hold) : State := { dieOf (kH h) with parts := [(2, { present := true, job := { id := 4, st := .running, stepReplays := 2 } })], mesh := [⟨5, 2, 0, 0, sl 3 0 0 0, 64⟩, ⟨5, 2, 0, 0, sl 3 0 1 0, 64⟩, ⟨5, 2, 0, 0, sl 3 1 0 0, 64⟩] }
theorem witness_HoistsEndArrivalsAndSteps :
    (let s : State := sH2 (none)
     let c : CoreId := 0
     let slot : Slot := sl 3 0 0 0
     let k := s.core c.val
     let n := (field slot 0 7).toNat
     let sense := bit slot 8
     let hit := ownHoist s c.val slot
     Clocked s ∧ Waits s hit ∧ s.resetting k.colour.toNat = false ∧ k.hold ≠ some (.stepEnd n sense)) ∧
    (let s : State := sH2 (none)
     let c : CoreId := 0
     let slot : Slot := sl 4 1 0 0
     let hit := ownHoist s c.val slot
     Clocked s ∧ ¬ Waits s hit) ∧
    (let s : State := sH2 (some (.stepEnd 3 false))
     let c : CoreId := 0
     let slot : Slot := sl 3 0 0 0
     let k := s.core c.val
     let n := (field slot 0 7).toNat
     let sense := bit slot 8
     let failed := bit slot 9
     let b := Table.get {} k.bars n
     let job := (s.part k.colour.toNat).job
     let hit := ownHoist s c.val slot
     Clocked s ∧ Waits s hit ∧ s.resetting k.colour.toNat = false ∧ k.hold = some (.stepEnd n sense) ∧
     sense ∈ b.out ∧ failed = false ∧ job.st ≠ .replaying) ∧
    (let s : State := sH2 (some (.stepEnd 3 false))
     let c : CoreId := 0
     let slot : Slot := sl 3 0 1 0
     let k := s.core c.val
     let n := (field slot 0 7).toNat
     let sense := bit slot 8
     let failed := bit slot 9
     let b := Table.get {} k.bars n
     let hit := ownHoist s c.val slot
     Clocked s ∧ Waits s hit ∧ s.resetting k.colour.toNat = false ∧ k.hold = some (.stepEnd n sense) ∧
     sense ∈ b.out ∧ failed = true) := by
  and_intros <;> (try dsimp only) <;>
    decide +kernel

def vc : Vector := { coal := true, count := 3, stroke := 5, fresh := 6 }
def sS5 : State := { dieOf { run0 with colour := 2, csr := { flags := 1 } } with mast := { st := .locked, stroke := 6 }, parts := [(15, { present := true, vectors := [(63, vc)] })], intrs := [⟨2, 9, false, 1, 4⟩, ⟨2, 9, false, 2, 4⟩], mesh := [⟨6, 2, 5, 0, 1 * 2^64 * 6 + 0, 1⟩, ⟨6, 0, 5, 0, 2^64, 2⟩, ⟨6, 3, 5, 0, 2^64, 3⟩, ⟨6, 2, 5, 0, 2^64 + 47, 4⟩, ⟨6, 2, 5, 0, 2^64 + 63, 4⟩, ⟨6, 2, 5, 0, 2^63 + 47, 4⟩], member := { id := some 1, dies := [(60, { st := .verified, role := 1, port := 1, dist := 1 })] } }
def sSn : State := { sS5 with member := { id := some 1 }, parts := [] , intrs := [⟨2, 9, true, 1, 4⟩] }
def sSz : State := { sSn with intrs := [] }
theorem witness_SignalsSetFlagsAndInterruptsLeave :
    (let s : State := sS5
     let src : BitVec 6 := 5
     let colour : BitVec 4 := 2
     let slot : Slot := 1 * 2^64 * 6 + 0
     let hit := slotOf 6 src colour slot
     let n := (field slot 0 6).toNat
     let k := s.core n
     let accepted := n < 48 ∧ k.on = true ∧ (colour = 0 ∨ colour = k.colour)
     let col : Nat := 15
     let v : Nat := 63
     let x := Table.get {} (s.part col).vectors v
     let m : IntrMsg := ⟨2, 9, false, 1, 4⟩
     let rest : List IntrMsg := [⟨2, 9, false, 2, 4⟩]
     let h := 60
     Clocked s ∧ Waits s hit ∧ s.signalBehind hit = false ∧ s.resetting colour.toNat = false ∧
     accepted ∧ col < 16 ∧ v < 64 ∧
     (∀ d < 16, ∀ w < 64, (d ≠ col ∨ w ≠ v) → (Table.get {} (s.part d).vectors w).count = 0) ∧
     x.coal = true ∧ x.mask = false ∧ x.count ≠ 0 ∧ x.fresh ≤ s.mast.stroke ∧
     s.queuedIntr col v = false ∧ s.intrs = m :: rest ∧ s.hub = some h) ∧
    (let s : State := sSn
     let src : BitVec 6 := 5
     let colour : BitVec 4 := 3
     let slot : Slot := 2^64
     let hit := slotOf 6 src colour slot
     let n := (field slot 0 6).toNat
     let k := s.core n
     let accepted := n < 48 ∧ k.on = true ∧ (colour = 0 ∨ colour = k.colour)
     let m : IntrMsg := ⟨2, 9, true, 1, 4⟩
     let rest : List IntrMsg := []
     Clocked s ∧ Waits s hit ∧ s.signalBehind hit = false ∧ s.resetting colour.toNat = false ∧
     ¬ accepted ∧ (∀ col < 16, ∀ v < 64, (Table.get {} (s.part col).vectors v).count = 0) ∧
     s.intrs = m :: rest ∧ s.hub = none) ∧
    (let s : State := sSz
     let src : BitVec 6 := 5
     let colour : BitVec 4 := 2
     let slot : Slot := 2^63 + 47
     let hit := slotOf 6 src colour slot
     Clocked s ∧ (¬ Waits s hit ∨ s.signalBehind hit = true) ∧ s.intrs = []) := by
  and_intros <;> (try dsimp only) <;>
    decide +kernel

def fr (n p : Nat) : Slot := BitVec.ofNat 128 (n + p * 2 ^ 64)
def sM2 (m : Mast) : State := { base with mast := m, member := { id := some 1, dies := [(60, { st := .verified, role := 1, port := 1, dist := 1 })] } }
def sMm (m : Mast) (src : BitVec 6) (col : BitVec 4) (slot : Slot) : State := { sM2 m with mesh := [⟨1, col, src, 0, slot, 64⟩] }
def mL : Mast := { st := .locked, stroke := 9, c := 24000, lastStroke := some 9, lastAge := 25003, discarded := 0xFFFFFFFF }
theorem witness_MastFramesMoveTheStroke :
    (let s : State := sMm (mL) 60 0 (fr 8 20)
     let src : BitVec 6 := 60
     let colour : BitVec 4 := 0
     let slot : Slot := fr 8 20
     let m := s.mast
     let n : Word := field slot 0 64
     Clocked s ∧ Waits s (slotOf 1 src colour slot) ∧ GoodFrame s src colour slot ∧ m.st ≠ .unlocked ∧
     n < m.stroke ∧ (m.st ≠ .locked ∨ m.c < m.capC + m.capC / 16) ∧
     (m.st ≠ .holdover ∨ m.hold < 64 ∨ (m.hold = 64 ∧ m.c < m.holdC))) ∧
    (let s : State := sMm (mL) 60 0 (fr 9 20)
     let src : BitVec 6 := 60
     let colour : BitVec 4 := 0
     let slot : Slot := fr 9 20
     let m := s.mast
     let n : Word := field slot 0 64
     Clocked s ∧ Waits s (slotOf 1 src colour slot) ∧ GoodFrame s src colour slot ∧ m.st ≠ .unlocked ∧
     n = m.stroke) ∧
    (let s : State := sMm (mL) 60 0 (fr 10 20)
     let src : BitVec 6 := 60
     let colour : BitVec 4 := 0
     let slot : Slot := fr 10 20
     let m := s.mast
     let n : Word := field slot 0 64
     Clocked s ∧ Waits s (slotOf 1 src colour slot) ∧ GoodFrame s src colour slot ∧ m.st ≠ .unlocked ∧
     n.toNat = m.stroke.toNat + 1) ∧
    (let s : State := sMm (mL) 60 0 (fr 11 1000)
     let src : BitVec 6 := 60
     let colour : BitVec 4 := 0
     let slot : Slot := fr 11 1000
     let m := s.mast
     let n : Word := field slot 0 64
     Clocked s ∧ Waits s (slotOf 1 src colour slot) ∧ GoodFrame s src colour slot ∧ m.st ≠ .unlocked ∧
     m.stroke.toNat + 1 < n.toNat) ∧
    (let s : State := sMm (mL) 60 1 (fr 10 20)
     let src : BitVec 6 := 60
     let colour : BitVec 4 := 1
     let slot : Slot := fr 10 20
     Clocked s ∧ Waits s (slotOf 1 src colour slot) ∧ ¬ GoodFrame s src colour slot) ∧
    (let s : State := sMm ({mL with st := .unlocked}) 60 0 (fr 10 20)
     let src : BitVec 6 := 60
     let colour : BitVec 4 := 0
     let slot : Slot := fr 10 20
     let m := s.mast
     let n : Word := field slot 0 64
     Clocked s ∧ Waits s (slotOf 1 src colour slot) ∧ GoodFrame s src colour slot ∧ m.st = .unlocked ∧
     (let l : Word := 9; m.lastStroke = some l ∧ l.toNat + 1 = n.toNat)) ∧
    (let s : State := sMm ({mL with st := .unlocked, lastStroke := none}) 60 0 (fr 8 20)
     let src : BitVec 6 := 60
     let colour : BitVec 4 := 0
     let slot : Slot := fr 8 20
     let m := s.mast
     Clocked s ∧ Waits s (slotOf 1 src colour slot) ∧ GoodFrame s src colour slot ∧ m.st = .unlocked ∧
     m.lastStroke = none) ∧
    (let s : State := sMm ({mL with st := .holdover, c := 26000, hold := 64}) 60 0 (fr 8 20)
     let m := s.mast
     Clocked s ∧ (m.st = .holdover ∨ m.st = .lost) ∧ m.capC ≤ m.c ∧ m.st = .holdover ∧
     (64 < m.hold ∨ (m.hold = 64 ∧ m.holdC ≤ m.c))) ∧
    (let s : State := sMm ({mL with pend := true, next := 30, effective := 9}) 60 0 (fr 8 20)
     let m := s.mast
     Clocked s ∧ m.pend = true ∧ m.st ≠ .unlocked ∧ m.effective ≤ m.stroke ∧ s.skovi.up = false) ∧
    (let s : State := sMm ({mL with c := 27000}) 60 0 (fr 8 20)
     let m := s.mast
     Clocked s ∧ m.st = .locked ∧ m.capC + m.capC / 16 ≤ m.c) ∧
    (let s : State := sM2 mL
     let src : BitVec 6 := 60
     let colour : BitVec 4 := 0
     let slot : Slot := fr 9 20
     Clocked s ∧ ¬ Waits s (slotOf 1 src colour slot)) ∧
    (let s : State := { sM2 {mL with pend := true, next := 1, effective := 9} with skovi := { up := true } }
     let m := s.mast
     Clocked s ∧ m.pend = true ∧ m.st ≠ .unlocked ∧ m.effective ≤ m.stroke ∧ s.skovi.up = true ∧
     1 ≤ m.next.toNat ∧ m.next.toNat ≤ 1000) := by
  and_intros <;> (try dsimp only) <;>
    decide +kernel

def bw (st ph pe ac co pa fl : Nat) : BitVec 128 := BitVec.ofNat 128 (st + ph * 2^64 + pe * 2^80 + ac * 2^104 + co * 2^108 + pa * 2^112 + fl * 2^124)
def kB2 (x : BitVec 128) (l : Table Booking) : Core := { run0 with sregs := [(2, field x 0 64), (3, field x 64 64)], bookings := l }
def sB (x : BitVec 128) (l : Table Booking) : State := { dieOf (kB2 x l) with mast := { st := .locked, stroke := 9, c := 100 }, mem := { sliceDue := [(47, 2)], sliceNext := [(47, 1)], sliceRow := [(95, 4095)] } }
theorem witness_BookingsAreWrittenAndFire :
    (let s : State := sB (bw 20 5 3 7 0 4 1) [(31, { valid := true, stroke := 50, firedAt := 4, phase := 7, period := 0xFFFFFF, action := 7, param := 4, late := true })]
     let c : CoreId := 0
     let f : Fields := fld 4 0 0 0 31
     let v : Fin 48 := 47
     let upper : Bool := true
     let half := if upper then 1 else 0
     let due := Table.get 0 s.mem.sliceDue v.val
     let turn := Table.get 0 s.mem.sliceNext v.val = half
     f.imm.toNat < 32 ∧ f.x = 0 ∧ Issues s c [f.d] ∧ f.a = 0 ∧ f.b = 0 ∧ Clocked s ∧
     (s.dueBookings = [] ∨ s.edge = false) ∧ 0 < due ∧ turn) ∧
    (let s : State := sB 0 [(31, { valid := true, stroke := 9, action := 7, param := 63 })]
     let c : CoreId := 0
     let f : Fields := fld 0 2 3 0 31
     let k := s.core c.val
     let x : BitVec 128 := (k.sreg f.b.toNat) ++ (k.sreg f.a.toNat)
     let i : Nat := 31
     let old : Option Booking := none
     let entry := Table.get {} k.bookings i
     let b := old.getD entry
     let v : Fin 48 := 47
     let upper : Bool := false
     let half := if upper then 1 else 0
     let due := Table.get 0 s.mem.sliceDue v.val
     let turn := Table.get 0 s.mem.sliceNext v.val = half
     f.imm.toNat < 32 ∧ f.x = 0 ∧ Issues s c [f.a, f.b] ∧ f.d = 0 ∧ bookingBad true x = false ∧
     Clocked s ∧ s.edge = true ∧ s.dueBookings = [⟨some c.val, i, old⟩] ∧
     (old = none → (b.due s.mast = true ∨ b.catchup = true) ∧ b.skips = false) ∧ b.action = 7 ∧
     (due = 0 ∨ ¬ turn)) ∧
    (let s : State := sB (bw 20 5 3 9 0 4 1) [(31, { valid := true, stroke := 50, firedAt := 4, phase := 7, period := 0xFFFFFF, action := 7, param := 4, late := true })]
     let c : CoreId := 0
     let f : Fields := fld 0 2 3 0 31
     let k := s.core c.val
     let x : BitVec 128 := (k.sreg f.b.toNat) ++ (k.sreg f.a.toNat)
     f.imm.toNat < 32 ∧ f.x = 0 ∧ Issues s c [f.a, f.b] ∧ f.d = 0 ∧ bookingBad true x = true) := by
  and_intros <;> (try dsimp only) <;>
    decide +kernel

def mkF (q : BitVec 10) : Flit := { ftype := 1, vc := 0, seq := q, dst := 1, src := 5, colour := 0, op := 1, len := 224, first := true, last := true, rsvA := 0, addr := 0x4000, tag := 9, win := 0, winv := false, hops := 0, status := 0, ll := false, rsvB := 0, payload := List.replicate 224 7, trailer := ⟨2, true, 0x004003002001⟩, rsvT := 0, crc := 0 }
def mkG (q : BitVec 10) : Flit := { mkF q with crc := crc64 (mkF q).covered }
def mkR (q : BitVec 10) : Flit := { mkF q with ftype := 15, crc := crc64 ({ mkF q with ftype := 15 }).covered }
def lk : Link := { txSeq := 3, expect := 5, retry := [mkF 1, mkF 2], credits := [3, 3, 3, 3], gotInit := true, confirmed := true, initDone := true, lastInit := some 0, lastProgress := 9000, replays := 4 }
def px : Port := { st := .active, x64 := true, rate32 := true, sbUp := true, main := lk, side := { lk with retry := [] }, counts := PortCounts.mk 1 2 3 4 5 6 7 8 9 0 65535 15, flaps := [3, 9000], lastSb := 9000, vc3Total := 3 }
def sP2 (x : Port) : State := { base with now := 10000, cclk := 10000, mast := { st := .locked, stroke := 5, beats := 9500 }, ports := [(1, x)], parts := [], member := { id := some 1, dies := [(5, { st := .verified, port := 1, dist := 1 })] } }
theorem witness_PortsChangeState :
    (let s : State := sP2 ({px with st := .training, main := { lk with initDone := false, gotInit := false, lastInit := none, confirmed := false } })
     let p : PortId := 1
     let x := s.port p.val
     let rx : Word := 0
     let tx : Word := 1 + 2^40
     let low := mendable rx 0 && mendable tx 0
     let high := mendable rx 32 && mendable tx 32
     let o := PartnerOption.retimer
     Powered s ∧ x.st ≠ .disabled ∧ x.held = false ∧ x.st = .training ∧ x.sbUp = true ∧
     x.main.lastInit = none ∧ (low || high) = true ∧
     o ∈ [PartnerOption.standardPackage, .retimer, .lowPower] ∧ x.main.replays < 17 ∧ x.st ≠ .down ∧
     (x.sbUp = true ∨ x.st = .disabled) ∧ (x.st = .active ∨ s.cclk < x.lastSb + 4096) ∧
     (x.stChanged = true ∨ x.st ≠ .active)) ∧
    (let s : State := sP2 ({px with st := .disabled, sbUp := false})
     let p : PortId := 1
     let x := s.port p.val
     Powered s ∧ (x.st = .disabled ∨ x.held = true) ∧ x.st = .disabled ∧
     (x.st = .disabled ∨ x.st = .down) ∧ x.sbUp = false) ∧
    (let s : State := sP2 ({px with main := {lk with replays := 17}})
     let p : PortId := 1
     let x := s.port p.val
     Powered s ∧ x.st = .active ∧ x.main.replays = 17 ∧ x.sbUp = true ∧ x.st ≠ .disabled ∧
     x.held = false ∧ (x.st = .training → x.main.lastInit.isSome = true)) ∧
    (let s : State := sP2 ({px with st := .down, sbUp := false})
     let p : PortId := 1
     let x := s.port p.val
     Powered s ∧ x.sbUp = false ∧ x.st ≠ .disabled) ∧
    (let s : State := sP2 ({px with st := .training, main := { lk with initDone := false, gotInit := false, lastInit := none, confirmed := false } })
     let p : PortId := 1
     let x := s.port p.val
     let rx : Word := 0x700000007
     let tx : Word := 0
     let low := mendable rx 0 && mendable tx 0
     let high := mendable rx 32 && mendable tx 32
     Powered s ∧ x.st = .training ∧ x.sbUp = true ∧ x.main.lastInit = none ∧ low = false ∧
     high = false) ∧
    (let s : State := sP2 ({px with st := .retrain})
     let p : PortId := 1
     let x := s.port p.val
     let ok : Bool := true
     let rx : Word := 0
     let tx : Word := 1 + 2^40
     let low := x.x64 || !x.upper
     let high := x.x64 || x.upper
     let mends := ok = true ∧ (low = true → (mendable rx 0 && mendable tx 0) = true) ∧ (high = true → (mendable rx 32 && mendable tx 32) = true)
     Powered s ∧ x.st = .retrain ∧ mends) ∧
    (let s : State := sP2 ({px with st := .retrain})
     let p : PortId := 1
     let x := s.port p.val
     let ok : Bool := true
     let rx : Word := 7
     let tx : Word := 7 * 2^31
     let low := x.x64 || !x.upper
     let high := x.x64 || x.upper
     let mends := ok = true ∧ (low = true → (mendable rx 0 && mendable tx 0) = true) ∧ (high = true → (mendable rx 32 && mendable tx 32) = true)
     Powered s ∧ x.st = .retrain ∧ ¬ mends ∧ x.failedRetrains < 2) ∧
    (let s : State := sP2 ({px with st := .retrain, failedRetrains := 2})
     let p : PortId := 1
     let x := s.port p.val
     let ok : Bool := true
     let rx : Word := 7
     let tx : Word := 7 * 2^31
     let low := x.x64 || !x.upper
     let high := x.x64 || x.upper
     let mends := ok = true ∧ (low = true → (mendable rx 0 && mendable tx 0) = true) ∧ (high = true → (mendable rx 32 && mendable tx 32) = true)
     Powered s ∧ x.st = .retrain ∧ ¬ mends ∧ 2 ≤ x.failedRetrains ∧ (x.x64 = true ∨ x.rate32 = true)) ∧
    (let s : State := sP2 ({px with st := .retrain, failedRetrains := 2, x64 := false, rate32 := false})
     let p : PortId := 1
     let x := s.port p.val
     let ok : Bool := true
     let rx : Word := 7
     let tx : Word := 7 * 2^31
     let low := x.x64 || !x.upper
     let high := x.x64 || x.upper
     let mends := ok = true ∧ (low = true → (mendable rx 0 && mendable tx 0) = true) ∧ (high = true → (mendable rx 32 && mendable tx 32) = true)
     Powered s ∧ x.st = .retrain ∧ ¬ mends ∧ 2 ≤ x.failedRetrains ∧ x.x64 = false ∧ x.rate32 = false) ∧
    (let s : State := sP2 ({px with st := .down, lastSb := 0})
     let p : PortId := 1
     let x := s.port p.val
     Powered s ∧ x.sbUp = true ∧ x.st ≠ .active ∧ x.lastSb + 4096 ≤ s.cclk) := by
  and_intros <;> (try dsimp only) <;>
    decide +kernel

theorem witness_LinkLayerReceives :
    (let s : State := sP2 ({px with st := .training, main := { lk with initDone := false, gotInit := false, lastInit := none, confirmed := false } })
     let p : PortId := 1
     let x := s.port p.val
     let path : Path := .side
     let l := x.link path
     let f : Flit := mkG 5
     Powered s ∧ x.st = .training ∧ x.main.gotInit = false ∧ x.main.initDone = false ∧
     x.carries path = true ∧ l.initDone = true ∧ f.payload.length = 224 ∧ f.good = true ∧ f.ftype = 1) ∧
    (let s : State := sP2 ({px with st := .training, main := { { lk with initDone := false, gotInit := false, lastInit := none, confirmed := false } with confirmed := true, lastInit := some 9990 }, vc3Side := false })
     let f : Flit := { mkG 5 with payload := [] }
     let p : PortId := 1
     let path : Path := .main
     let x := s.port p.val
     let l := x.link path
     let t0 : Nat := if (sP2 ({px with st := .training, main := { { lk with initDone := false, gotInit := false, lastInit := none, confirmed := false } with confirmed := true, lastInit := some 9990 }, vc3Side := false })).cclk = 0 then 0 else ((( (sP2 ({px with st := .training, main := { { lk with initDone := false, gotInit := false, lastInit := none, confirmed := false } with confirmed := true, lastInit := some 9990 }, vc3Side := false })).port 1).link .main).lastInit.getD 0)
     Powered s ∧ f.payload.length ≠ 224 ∧ l.lastInit = some t0 ∧ l.initDone = false ∧
     x.st = .training ∧ x.sbUp = true) ∧
    (let s : State := sP2 (px)
     let p : PortId := 1
     let path : Path := .main
     let x := s.port p.val
     let l := x.link path
     let f : Flit := mkF 5
     Powered s ∧ x.carries path = true ∧ l.initDone = true ∧ f.payload.length = 224 ∧ f.good = false) ∧
    (let s : State := sP2 (px)
     let p : PortId := 1
     let path : Path := .main
     let x := s.port p.val
     let l := x.link path
     let f : Flit := mkR 5
     Powered s ∧ x.carries path = true ∧ l.initDone = true ∧ f.payload.length = 224 ∧ f.good = true ∧
     4 ≤ f.ftype.toNat) := by
  and_intros <;> (try dsimp only) <;>
    decide +kernel

def mm : Msg := { src := 1, dst := 9, colour := 0, op := 0, addr := 0x4000, tag := 9, win := 0, winv := false, status := 0, ll := false, data := [1,2,3], bad := false }
theorem witness_LinkLayerSends :
    (let s : State := sP2 (px)
     let p : PortId := 1
     let path : Path := .main
     let x := s.port p.val
     let l := x.link path
     Powered s ∧ x.carries path = true ∧ l.retry ≠ [] ∧ l.replays < 16 ∧
     l.lastProgress + 512 ≤ s.cclk ∧ l.ackDue = false ∧ l.freeDue = false ∧ l.replays < 17 ∧
     l.resend = 0 ∧ s.tx = [] ∧ x.carries .main = true ∧ x.vc3Side = true ∧ x.st = .active ∧
     Table.get 0 x.fwdOpen 7 = 0 ∧ x.side.retry = [] ∧ x.vc3Total ≤ natAt x.side.credits 3 ∧
     x.main.initDone = true ∧ (∀ y ∈ s.tx, y.port.isSome = true ∨ (s.outPort y).isSome = true)) ∧
    (let s : State := { sP2 (px) with tx := [{ msg := { src := 1, dst := 5, colour := 0, op := 1, addr := 0x4000, tag := 9, win := 0, winv := false, status := 0, ll := false, data := [1,2,3], bad := false }, port := some 1 }] }
     let p : PortId := 1
     let path : Path := .side
     let x := s.port p.val
     let l := x.link path
     let m : Msg := { src := 1, dst := 5, colour := 0, op := 1, addr := 0x4000, tag := 9, win := 0, winv := false, status := 0, ll := false, data := [1,2,3], bad := false }
     Powered s ∧ x.carries path = true ∧ (l.retry = [] ∨ s.cclk < l.lastProgress + 512) ∧
     s.tx = [{ msg := m, port := some p }] ∧ vcOf m.op = 0 ∧ m.colour = 0 ∧ m.data.length ≤ 224 ∧
     m.op ≠ 5 ∧ x.carries .main = true ∧ x.main.replays < 17 ∧ x.main.resend = 0 ∧
     x.main.retry.length < 256 ∧ 0 < natAt x.main.credits 0 ∧ Table.get 0 x.fwdOpen 0 = 0 ∧
     s.member.fenced = false ∧ s.member.id.isSome = true) ∧
    (let s : State := { sP2 ({px with main := { lk with ackDue := true}, side := {lk with freeDue := true}}) with tx := [{ msg := mm, port := none }], reqs := [⟨9, 9, 2, .fence 0, none, some 5, none⟩] }
     let p : PortId := 1
     let path : Path := .main
     let x := s.port p.val
     let l := x.link path
     let m : Msg := mm
     let rest : List TxMsg := []
     let q : Req := ⟨9, 9, 2, .fence 0, none, some 5, none⟩
     Powered s ∧ x.carries path = true ∧ (l.ackDue = true ∨ l.freeDue = true) ∧
     s.tx = { msg := m, port := none } :: rest ∧ s.outPort { msg := m, port := none } = none ∧
     (s.reqs.find? (fun r => isRequest m.op && r.tag == m.tag && r.die == m.dst) = some q)) ∧
    (let s : State := sP2 ({px with main := { lk with resend := 2}, side := {lk with resend := 1}})
     let p : PortId := 1
     let path : Path := .main
     let x := s.port p.val
     let l := x.link path
     let f : Flit := mkF 1
     Powered s ∧ x.carries path = true ∧ l.replays < 17 ∧ 0 < l.resend ∧
     l.retry[l.retry.length - l.resend]? = some f) ∧
    (let s : State := sP2 ({px with vc3Side := false, side := { lk with lastProgress := 0}})
     let p : PortId := 1
     let x := s.port p.val
     Powered s ∧ x.wantsSide = x.vc3Side) := by
  and_intros <;> (try dsimp only) <;>
    decide +kernel

def sM3 : State := { base with mem := { layersOn := 0xFFF, cells := putBytes [] 0x8000000 (List.range 0x40 |>.map (fun i => BitVec.ofNat 8 (i * 7 + 3))) }, member := { id := some 1, dies := [(5, { st := .verified, port := 1, dist := 1 })] }, regions := [(2, [{ base := 0x8000, last := 0x8001, attrs := 0x17 }])], windows := [(7, { valid := true, colour := 2, owner := 3, base := 0x8001000, len := 0x100 })] }
def ms (a : Dla) (d : List Byte) : Msg := { src := 5, dst := 1, colour := 2, op := 0, addr := a, tag := 0x285, win := 7, winv := false, status := 0, ll := false, data := d, bad := false }
def bb (m : Msg) : Arrived := { msg := { m with op := 1, tag := 3 }, port := 1, path := .main, flits := 1, vc := 0, total := 4 }
theorem witness_MessagesArePerformedWhole :
    (let s : State := { sM3 with arrived := [] }
     let m : Msg := {ms (0x8000000) [] with winv := false}
     let n : Nat := leField [] 0 4
     Clocked s ∧ (s.die m.src.toNat).st ≠ .absent ∧ s.resetting m.colour.toNat = false ∧
     s.mem.bad = [] ∧ s.mem.cmBad = [] ∧ m.bad = false ∧ leField m.data 0 4 = n ∧ (n = 0 ∨ 4096 < n) ∧
     m.data = [] ∧ s.arrived = [] ∧ s.receiving m = none) ∧
    (let s : State := { sM3 with arrived := [] }
     let m : Msg := {ms (0x8000000) (leBytes 4 4096) with winv := false}
     let a := m.addr.toNat
     let w := s.arrival m
     let page := s.check m.colour.toNat none (if m.winv then some m.win.toNat else none) true (a / 4096 * 4096) 4096
     let whole := (s.receiving m = none ∨ ∃ b ∈ s.arrived, b.msg = m) ∧ w.done = 0 ∧ w.hurt = false ∧ w.total = m.data.length
     let n : Nat := leField (leBytes 4 4096) 0 4
     Clocked s ∧ (s.die m.src.toNat).st ≠ .absent ∧ s.resetting m.colour.toNat = false ∧
     s.mem.bad = [] ∧ s.mem.cmBad = [] ∧ m.bad = false ∧ whole ∧ m.op = 0 ∧ 0 < m.data.length ∧
     a % 4096 + m.data.length ≤ 4096 ∧ page = .ok ∧ leField m.data 0 4 = n ∧ 1 ≤ n ∧ n ≤ 4096 ∧
     s.check m.colour.toNat none none false a n = .ok) ∧
    (let s : State := { sM3 with arrived := [] }
     let m : Msg := {ms (0x9000000) (leBytes 4 4096) with winv := false}
     let a := m.addr.toNat
     let w := s.arrival m
     let page := s.check m.colour.toNat none (if m.winv then some m.win.toNat else none) true (a / 4096 * 4096) 4096
     let whole := (s.receiving m = none ∨ ∃ b ∈ s.arrived, b.msg = m) ∧ w.done = 0 ∧ w.hurt = false ∧ w.total = m.data.length
     let n : Nat := leField (leBytes 4 4096) 0 4
     Clocked s ∧ (s.die m.src.toNat).st ≠ .absent ∧ s.resetting m.colour.toNat = false ∧
     s.mem.bad = [] ∧ s.mem.cmBad = [] ∧ m.bad = false ∧ whole ∧ m.op = 0 ∧ 0 < m.data.length ∧
     a % 4096 + m.data.length ≤ 4096 ∧ page ≠ .ok ∧ leField m.data 0 4 = n ∧ 1 ≤ n ∧ n ≤ 4096 ∧
     s.check m.colour.toNat none none false a n ≠ .ok) ∧
    (let s : State := { sM3 with arrived := [bb ({ms (0x8000000) [] with winv := false})] }
     let m : Msg := {ms (0x8000000) [] with winv := false}
     let b : Arrived := bb ({ms (0x8000000) [] with winv := false})
     Clocked s ∧ (s.die m.src.toNat).st ≠ .absent ∧ s.resetting m.colour.toNat = false ∧
     s.mem.bad = [] ∧ s.mem.cmBad = [] ∧ m.bad = false ∧ m.data = [] ∧ s.arrived = [b] ∧ b.msg ≠ m ∧
     isRequest b.msg.op = true ∧ b.msg.src = m.src ∧ b.msg.colour = m.colour) ∧
    (let s : State := { sM3 with ports := [(1, { rx := [(0, some ({ msg := ms 0x8000000 (List.replicate 224 9), nextAddr := 0x80000E0, fwd := false, total := 4096 }))] })] }
     let m : Msg := (ms 0x8000000 (List.replicate 224 9))
     let a := m.addr.toNat
     let page := s.check m.colour.toNat none (if m.winv then some m.win.toNat else none) true (a / 4096 * 4096) 4096
     let p : PortId := 1
     let r : RxPart := { msg := ms 0x8000000 (List.replicate 224 9), nextAddr := 0x80000E0, fwd := false, total := 4096 }
     let upTo := (a + m.data.length) / 64 * 64
     let e : Region := { base := 0x8000, last := 0x8001, attrs := 0x17 }
     Clocked s ∧ (s.die m.src.toNat).st ≠ .absent ∧ s.resetting m.colour.toNat = false ∧
     s.mem.bad = [] ∧ s.mem.cmBad = [] ∧ m.bad = false ∧ (∀ b ∈ s.arrived, b.msg ≠ m) ∧
     s.receiving m = some (p, r) ∧ m.op = 0 ∧ r.done = 0 ∧ page = .ok ∧ a < upTo ∧ r.msg = m ∧
     r.total ≠ 0 ∧ m.colour ≠ 0 ∧ s.regionAt m.colour.toNat (a / 4096 * 4096) 4096 = some e) ∧
    (let s : State := sM3
     let m : Msg := {ms 0x8000010 (leBytes 16 (2^100+5)) with op := 2}
     let a := m.addr.toNat
     let w := s.arrival m
     let page := s.check m.colour.toNat none (if m.winv then some m.win.toNat else none) true (a / 4096 * 4096) 4096
     let whole := (s.receiving m = none ∨ ∃ b ∈ s.arrived, b.msg = m) ∧ w.done = 0 ∧ w.hurt = false ∧ w.total = m.data.length
     Clocked s ∧ (s.die m.src.toNat).st ≠ .absent ∧ s.resetting m.colour.toNat = false ∧
     s.mem.bad = [] ∧ s.mem.cmBad = [] ∧ m.bad = false ∧ whole ∧ m.op = 2 ∧ m.data.length = 16 ∧
     a % 16 = 0 ∧ page = .ok) := by
  and_intros <;> (try dsimp only) <;>
    decide +kernel

def k0 : Core := { run0 with colour := 2 }
def q02 : Req := ⟨0x85, 5, 2, .fence 0, none, some 5, none⟩
def qr : Req := ⟨0x85, 5, 2, .orphan 0, none, some 5, none⟩
def sQ (q : List Req) (n : Nat) : State := { dieOf k0 with now := n, cclk := n, reqs := q, member := { id := some 1, dies := [(5, { st := .verified, port := 1, dist := 1 })] } }
def qd : Req := ⟨0x85, 5, 2, .read 0 1 0 0x4000 4 0, none, some 5, none⟩
def kw : Core := { k0 with chans := [(1, { posted := [{ index := 0, desc := { (Desc.decode []) with op := 1, src := 0x50000004000, dst := 0x10000004000, len := 4 }, entries := [], started := true, allSent := true, outst := 1 }] })] }
def sQw (q : List Req) (lv : Int) : State := { sQ q 140000 with cores := [(0, kw)], parts := [(2, { present := true, buckets := [(0, {unlim := false, level := lv}), (1*64, {unlim := false, level := lv}), (2*64, {unlim := false, level := lv}), (3*64, {unlim := false, level := lv})] })] }
def mg : Msg := { src := 5, dst := 1, colour := 2, op := 4, addr := 0, tag := 0x85, win := 0, winv := false, status := 0, ll := false, data := [1,2,3,4], bad := false }
theorem witness_ResponsesEndTheirRequests :
    (let s : State := sQ ([q02]) 140000
     let m : Msg := {mg with bad := true, op := 5}
     let q : Req := q02
     let c : Nat := 0
     Clocked s ∧ s.arrived = [] ∧ s.reqs = [q] ∧ q.tag = m.tag ∧ (q.die = m.src ∨ m.status = 1) ∧
     q.kind.wantsAck = true ∧ q.kind = .fence c ∧ m.status = 0 ∧
     (m.bad = true ∨ leField m.data 221 3 ≠ 0)) ∧
    (let s : State := sQ ([q02]) 140000
     let tag : BitVec 12 := 0x85
     let q : Req := q02
     let c : CoreId := 0
     Clocked s ∧ s.arrived = [] ∧
     (s.reqs.find? (fun r => r.tag == tag && (match r.sentAt with | some t0 => decide (t0 + 2 ^ 17 ≤ s.cclk) | none => false)) = some q) ∧
     q.kind = .fence c.val) ∧
    (let s : State := sQ ([]) 140000
     let m : Msg := {mg with data := ctrlPayload 3 0x1234, op := 5}
     let tag : BitVec 12 := 0x85
     let stype : Byte := 3
     let slot : Slot := 0x1234
     Clocked s ∧ s.arrived = [] ∧ (∀ q ∈ s.reqs, q.tag ≠ m.tag) ∧
     (∀ q ∈ s.reqs, q.tag = tag → ∀ t0, q.sentAt = some t0 → s.cclk < t0 + 2 ^ 17) ∧ m.bad = false ∧
     m.data = ctrlPayload stype slot ∧ 1 ≤ stype.toNat ∧ stype.toNat ≤ 7 ∧
     slotReserved stype.toNat slot = false) ∧
    (let s : State := sQ ([q02]) 140000
     let m : Msg := {mg with status := 1}
     let q : Req := q02
     let c : Nat := 0
     Clocked s ∧ s.arrived = [] ∧ s.reqs = [q] ∧ q.tag = m.tag ∧ (q.die = m.src ∨ m.status = 1) ∧
     q.kind = .fence c ∧ m.status ≠ 0) ∧
    (let s : State := sQ ([qr]) 140000
     let m : Msg := mg
     let q : Req := qr
     Clocked s ∧ s.arrived = [] ∧ s.reqs = [q] ∧ q.tag = m.tag ∧ (q.die = m.src ∨ m.status = 1) ∧
     q.kind.wantsData = true ∧ (m.status ≠ 0 ∨ s.writeShort q = false)) ∧
    (let s : State := sQw [{ qd with win := none }] (-5)
     let m : Msg := mg
     let q : Req := qd
     Clocked s ∧ s.arrived = [] ∧ s.reqs = [q] ∧ q.tag = m.tag ∧ (q.die = m.src ∨ m.status = 1) ∧
     q.kind.wantsData = true ∧ m.status = 0 ∧ s.writeShort q = true) ∧
    (let s : State := sQ [] 140000
     let m : Msg := {mg with data := ctrlPayload 4 0x80, op := 5}
     let stype : Byte := 4
     let slot : Slot := 0x80
     Clocked s ∧ m.bad = false ∧ m.data = ctrlPayload stype slot ∧ 1 ≤ stype.toNat ∧ stype.toNat ≤ 7 ∧
     slotReserved stype.toNat slot = true) := by
  and_intros <;> (try dsimp only) <;>
    decide +kernel

def pn0 : Pennant := { kind := 0, part := 0x40, stepping := 0xB1, role := 0, assigner := false, idV := true, dieId := 5, health := 0, uid := 0x2222, ifLevel := 0x0204, fwBuild := 1, nonce := 0x77, epoch := 3, mask := 0, route := 0, peerUid := Config.uid, leaderUid := 0, targetId := 9, targetV := false, port := 2, rsv := 0 }
def pe : DieEntry := { st := .provisional, uid := 0x2222, port := 1, dist := 1, direct := true }
def mb0 : Member := { id := some 1, epoch := 3, dies := [(5, pe)], handshakes := [⟨5, 0x77, 98⟩, ⟨6, 0x77, 98⟩] }
def pt : Port := { st := .active, sbUp := true, trig := 0, penBeat := some 99, assign := some (3, 4), lastHeard := 90, partner := some (5, true, 2, 0, 0x2222) }
def sN (x : Port) (m : Member) : State := { base with now := 10000, mast := { st := .locked, stroke := 5, beats := 100 }, ports := [(1, x)], member := m }
theorem witness_PennantsLeaveWhenDue :
    (let s : State := sN ({pt with sbUp := false}) (mb0)
     let p : PortId := 1
     let x := s.port p.val
     Powered s ∧ x.sbUp = false) ∧
    (let s : State := sN (pt) ({mb0 with id := none})
     let p : PortId := 1
     let x := s.port p.val
     let b : Nat := 99
     Powered s ∧ x.sbUp = true ∧ x.trig = 0 ∧ x.penBeat = some b ∧ s.member.id = none ∧
     b < s.mast.beats) ∧
    (let s : State := sN (pt) ({mb0 with dies := [(5, { pe with st := .verified })]})
     let p : PortId := 1
     let x := s.port p.val
     let b : Nat := 99
     Powered s ∧ x.sbUp = true ∧ x.trig = 0 ∧ x.penBeat = some b ∧ s.member.id.isSome = true ∧
     (s.partnerOf p.val).isSome = true ∧ s.mast.beats < b + 1024) ∧
    (let s : State := sN ({pt with penBeat := none}) (mb0)
     let p : PortId := 1
     let x := s.port p.val
     Powered s ∧ x.sbUp = true ∧ x.trig = 0 ∧ x.penBeat = none) ∧
    (let s : State := (let q := sN ({pt with penBeat := some 5}) (mb0); { q with mast := { q.mast with beats := 1100 } })
     let p : PortId := 1
     let x := s.port p.val
     let b : Nat := 5
     Powered s ∧ x.sbUp = true ∧ x.trig = 0 ∧ x.penBeat = some b ∧ b + 1024 ≤ s.mast.beats) ∧
    (let s : State := sN ({pt with trig := 4}) (mb0)
     let p : PortId := 1
     let x := s.port p.val
     Powered s ∧ x.sbUp = true ∧ 0 < x.trig ∧ (x.trig = 4 ∨ x.penBeat ≠ some s.mast.beats) ∧
     (s.member.owe = false ∨ s.member.assigner = true ∨ s.member.id = none)) ∧
    (let s : State := sN ({pt with trig := 4}) ({mb0 with changed := 4, owe := true})
     let p : PortId := 1
     let x := s.port p.val
     Powered s ∧ x.sbUp = true ∧ 0 < x.trig ∧ (x.trig = 4 ∨ x.penBeat ≠ some s.mast.beats) ∧
     s.member.owe = true ∧ s.member.assigner = false ∧ s.member.id.isSome = true) ∧
    (let s : State := sN ({pt with trig := 3, penBeat := some 100}) (mb0)
     let p : PortId := 1
     let x := s.port p.val
     Powered s ∧ x.sbUp = true ∧ 0 < x.trig ∧ x.trig ≠ 4 ∧ x.penBeat = some s.mast.beats) := by
  and_intros <;> (try dsimp only) <;>
    decide +kernel

theorem witness_PennantsChangeTheDieTable :
    (let s : State := sN pt (mb0)
     let pn : Pennant := {pn0 with nonce := 0x78}
     let src : BitVec 6 := 5
     let h : Handshake := ⟨5, 0x77, 98⟩
     Powered s ∧ s.arrived = [] ∧ pn.bad = false ∧ pn.epoch ≤ s.member.epoch ∧
     (pn.idV = false ∨ (s.member.id ≠ some pn.dieId ∧ (s.die pn.dieId.toNat).heldByOther pn.uid = false)) ∧
     (s.die src.toNat).st ≠ .absent ∧ (s.member.handshakes.find? (fun x => x.id == src) = some h) ∧
     (h.nonce ≠ pn.nonce ∨ pn.peerUid ≠ Config.uid ∨ h.beat + 4 ≤ s.mast.beats) ∧
     (pn.bad = true ∨ pn.targetV = false)) ∧
    (let s : State := sN pt (mb0)
     let pn : Pennant := {pn0 with targetV := true}
     Powered s ∧ s.arrived = [] ∧ pn.bad = false ∧ pn.targetV = true ∧ pn.epoch ≤ s.member.epoch ∧
     s.member.id ≠ some pn.targetId) ∧
    (let s : State := sN pt (mb0)
     let p : PortId := 1
     let pn : Pennant := {pn0 with rsv := 1}
     let ll : Bool := true
     let mine := fun (b : Arrived) => b.port == p && b.msg.ll == ll
     Powered s ∧ s.pennantBad pn mine = true) ∧
    (let s : State := sN pt (mb0)
     let p : PortId := 1
     let pn : Pennant := {pn0 with uid := 0x3333}
     let d := pn.dieId.toNat
     let e := s.die d
     Powered s ∧ s.arrived = [] ∧ pn.bad = false ∧ pn.idV = true ∧ s.member.id ≠ some pn.dieId ∧
     e.heldByOther pn.uid = true ∧ e.port = p) ∧
    (let s : State := sN pt (mb0)
     let p : PortId := 2
     let pn : Pennant := {pn0 with uid := 0x3333}
     let d := pn.dieId.toNat
     let e := s.die d
     Powered s ∧ s.arrived = [] ∧ pn.bad = false ∧ pn.idV = true ∧ s.member.id ≠ some pn.dieId ∧
     e.heldByOther pn.uid = true ∧ e.port ≠ p ∧
     (¬ (e.direct = true ∧ (s.port e.port.val).lastHeard + 16 ≤ s.mast.beats))) ∧
    (let s : State := sN pt (mb0)
     let pn : Pennant := {pn0 with targetV := true, targetId := 1}
     let src : BitVec 6 := 5
     let h : Handshake := ⟨5, 0x77, 98⟩
     Powered s ∧ s.arrived = [] ∧ pn.bad = false ∧ pn.epoch ≤ s.member.epoch ∧
     (pn.idV = false ∨ (s.member.id ≠ some pn.dieId ∧ (s.die pn.dieId.toNat).heldByOther pn.uid = false)) ∧
     (s.member.handshakes.find? (fun x => x.id == src) = some h) ∧ h.nonce = pn.nonce ∧
     pn.peerUid = Config.uid ∧ s.mast.beats < h.beat + 4 ∧ (s.die src.toNat).st = .provisional ∧
     (s.die src.toNat).fenced = false ∧ (s.die src.toNat).uid = pn.uid ∧ pn.incompatible = false ∧
     pn.targetV = true ∧ s.member.id = some pn.targetId) ∧
    (let s : State := sN pt ({mb0 with dies := []})
     let p : PortId := 1
     let pn : Pennant := pn0
     let src : BitVec 6 := 5
     Powered s ∧ (s.pennantBad pn (fun b => b.port == p && b.msg.ll == true) = false) ∧
     (pn.kind = 0 ∨ pn.kind = 1) ∧ pn.idV = true ∧ pn.targetV = false ∧ pn.epoch ≤ s.member.epoch ∧
     s.member.id ≠ some pn.dieId ∧ (s.die pn.dieId.toNat).st = .absent ∧
     (s.die pn.dieId.toNat).fenced = false ∧ (s.port p.val).usable = true ∧ s.arrived = [] ∧
     pn.bad = false ∧
     (pn.idV = false ∨ (s.member.id ≠ some pn.dieId ∧ (s.die pn.dieId.toNat).heldByOther pn.uid = false)) ∧
     (s.die src.toNat).st = .absent) ∧
    (let s : State := sN pt ({mb0 with handshakes := []})
     let pn : Pennant := pn0
     let src : BitVec 6 := 5
     Powered s ∧ s.arrived = [] ∧ pn.bad = false ∧ pn.epoch ≤ s.member.epoch ∧
     (pn.idV = false ∨ (s.member.id ≠ some pn.dieId ∧ (s.die pn.dieId.toNat).heldByOther pn.uid = false)) ∧
     (s.member.handshakes.any (fun h => h.id == src) = false)) ∧
    (let s : State := sN pt (mb0)
     let pn : Pennant := { pn0 with targetV := true, targetId := 1, peerUid := Config.uid + 1 }
     Powered s ∧ s.arrived = [] ∧ pn.bad = false ∧ pn.targetV = true ∧ pn.epoch ≤ s.member.epoch ∧
     s.member.id = some pn.targetId ∧ pn.peerUid ≠ Config.uid) ∧
    (let s : State := sN pt (mb0)
     let pn : Pennant := { pn0 with dieId := 1, uid := Config.uid + 1 }
     Powered s ∧ s.arrived = [] ∧ pn.bad = false ∧ pn.idV = true ∧ s.member.id = some pn.dieId ∧
     pn.uid ≠ Config.uid) := by
  and_intros <;> (try dsimp only) <;>
    (and_intros <;> first | decide +kernel | (apply okOf; decide +kernel) | rfl | (left; decide +kernel) | exact uidNext | (apply exOf; decide +kernel) | (apply notExOf; decide +kernel) | (intro h; cases h) | simp [tableRows])

theorem witness_MembershipFollowsTime :
    (let s : State := sN (pt) ({mb0 with assigner := true, reported := true, reports := 0xF0, reportBeat := 99})
     let m := s.member
     let id : BitVec 6 := 5
     let h := ⟨5, 0x77, 98⟩
     let p : PortId := 1
     let x := s.port p.val
     let jobless := ∀ c : Nat, c < 16 → (s.part c).job.live = false
     Powered s ∧ (m.handshakes.find? (fun x => x.id == id) = some h) ∧ s.mast.beats < h.beat + 4 ∧
     s.mast.beats < x.lastHeard + 16 ∧ m.assigner = true ∧ m.reported = true ∧
     m.reportBeat < s.mast.beats ∧ m.epoch ≠ 0xFFFFFFFF ∧ jobless ∧
     (m.assigner = true ∨ m.fenced = true ∨ s.leaderUid ≠ Config.uid ∨ s.mast.beats < m.leaderSince + 4) ∧
     (m.assigner = false ∨ m.wanting = []) ∧
     (∀ e ∈ m.dies, s.routeFails e.1 = false ∧ (m.id = some (BitVec.ofNat 6 e.1) ∨ s.reached e.1 = true))) ∧
    (let s : State := sN ({pt with lastHeard := 84}) ({mb0 with handshakes := [⟨5, 0x77, 96⟩]})
     let m := s.member
     let id : BitVec 6 := 5
     let h := ⟨5, 0x77, 96⟩
     let p : PortId := 1
     let x := s.port p.val
     Powered s ∧ (m.handshakes.find? (fun x => x.id == id) = some h) ∧ h.beat + 4 ≤ s.mast.beats ∧
     (s.die id.toNat).st = .provisional ∧ x.silentSeen = false ∧ x.partner.isSome = true ∧
     x.lastHeard + 16 ≤ s.mast.beats ∧
     (m.assigner = false ∨ m.reported = false ∨ m.epoch = 0xFFFFFFFF)) ∧
    (let s : State := sN (pt) ({mb0 with handshakes := [], held := [⟨5, pn0, 96⟩, ⟨5, pn0, 97⟩, ⟨6, pn0, 96⟩]})
     let m := s.member
     let id : BitVec 6 := 5
     Powered s ∧ (m.handshakes.any (fun h => h.id == id) = false)) ∧
    (let s : State := sN (pt) ({mb0 with assigner := true, wanting := [⟨0x99, none, 2⟩], wantBeat := 96})
     let m := s.member
     let w : Want := ⟨0x99, none, 2⟩
     let d : BitVec 6 := 2
     Powered s ∧ m.assigner = true ∧ m.wanting = [w] ∧ w.relay = none ∧
     m.wantBeat + 4 ≤ s.mast.beats ∧ (m.given.find? (fun g => g.1 == w.uid) = none) ∧
     s.freeId = some d) ∧
    (let s : State := sN (pt) (mb0)
     let m := s.member
     let jobless := ∀ c : Nat, c < 16 → (s.part c).job.live = false
     Powered s ∧ m.assigner = false ∧ m.fenced = false ∧ s.leaderUid = Config.uid ∧
     m.leaderSince + 4 ≤ s.mast.beats ∧ jobless ∧
     (m.dies.any (fun e => e.2.st == .verified && e.2.role == 1 && e.2.assigner) = false)) ∧
    (let s : State := sN (pt) ({mb0 with dies := [(5, {pe with st := .verified}), (9, { st := .verified, uid := 3, port := 2, dist := 2 })], routes := [(1, 0x8000000)], heardRoute := 2})
     let m := s.member
     let q : Nat := 5
     let d : Nat := 9
     let f : DieEntry := {pe with st := .verified}
     let e : DieEntry := { st := .verified, uid := 3, port := 2, dist := 2 }
     let r : PortId × Nat := (1, 2)
     Powered s ∧ q < d ∧ d < 64 ∧ m.dies = [(q, f), (d, e)] ∧ m.id ≠ some (BitVec.ofNat 6 d) ∧
     s.routeFails q = false ∧ s.reached q = true ∧ s.routeFails d = true ∧ s.bestRoute d = some r) := by
  and_intros <;> (try dsimp only) <;>
    (and_intros <;> first | decide +kernel | (apply okOf; decide +kernel) | rfl | (left; decide +kernel) | exact uidNext | (apply exOf; decide +kernel) | (apply notExOf; decide +kernel) | (intro h; cases h) | simp [tableRows])

def bx : Mailbox := { st := .ready, reqTail := 70, reqSeen := 68, reqHead := 66, rspTail := 9, rspHead := 5, lastNotify := some 5000 }
def sB2 (b : Mailbox) (pr : Bool) : State := { hubbed base with now := 10000, mailboxes := [(3, b), (1, { bx with st := .resetting, heartbeat := 0xFFFFFFFF }), (2, { st := .offline, heartbeat := 4 })], parts := [(3, { present := pr })], skovi := { up := true } }
def hm (src : BitVec 6) (colr : BitVec 4) (a : Nat) (d : List Byte) : Msg := { src := src, dst := 1, colour := colr, op := 6, addr := BitVec.ofNat 40 a, tag := 5, win := 0, winv := false, status := 0, ll := false, data := d, bad := false }
theorem witness_MailboxWindowsTakeTheHostsWrites :
    (let s : State := sB2 bx true
     let mb : Fin 16 := 3
     let b := s.mailbox mb.val
     let m : Msg := hm 60 3 (mbBase 3 + 0x704) ([0x10,0,0,0,0,0,0,0] ++ [1,2,3,4,5])
     let d : List Byte := [1,2,3,4,5]
     let off := m.addr.toNat - mbBase mb.val
     Clocked s ∧ HostMayWrite s mb.val ∧ m.data = [0x10, 0, 0, 0, 0, 0, 0, 0] ++ d ∧
     HubMessage s m mb.val d.length ∧ off + d.length ≤ 0x4000 ∧
     (∀ x < off + d.length, off ≤ x → b.skoviOwns (x / 256) = false)) ∧
    (let s : State := sB2 bx false
     let mb : Fin 16 := 3
     Clocked s ∧ ¬ HostMayWrite s mb.val) ∧
    (let s : State := sB2 bx true
     let m : Msg := hm 5 0 (mbBase 3 + 0x704) ([0x10,0,0,0,0,0,0,0] ++ [1,2])
     Clocked s ∧ s.arrived = [] ∧ (s.die m.src.toNat).st ≠ .absent ∧ leField m.data 0 1 ≠ 0x11 ∧
     leField m.data 0 1 ≠ 1 ∧ (s.die m.src.toNat).role ≠ 1) ∧
    (let s : State := sB2 bx true
     let mb : Fin 16 := 3
     let m : Msg := hm 60 3 (mbBase 3 + 0x104) ([0x11,0,16,0,0,0,0,0])
     let n : Nat := 16
     Clocked s ∧ m.data = [0x11, 0] ++ leBytes 2 n ++ [0, 0, 0, 0] ∧ HubMessage s m mb.val n) ∧
    (let s : State := sB2 bx true
     let mb : Fin 16 := 3
     let m : Msg := hm 60 3 (mbBase 3 + 0x104) ([0x10,0,0,0,0,0,0])
     Clocked s ∧ s.arrived = [] ∧ (s.die m.src.toNat).st ≠ .absent ∧ leField m.data 0 1 ≠ 0x11 ∧
     leField m.data 0 1 ≠ 1 ∧ m.data.length ≤ 8 ∧ (s.die m.src.toNat).role = 1 ∧
     (m.colour = 0 ∨ m.colour.toNat = mb.val) ∧ mbBase mb.val ≤ m.addr.toNat ∧
     m.addr.toNat < mbBase mb.val + 0x10000) ∧
    (let s : State := { sB2 bx true with arrived := [{ msg := hm 60 3 (mbBase 3) ([0x10,0,0,0,0,0,0,0] ++ [1,2]), port := 1, path := .side, flits := 1, vc := 3 }, { msg := hm 60 3 (mbBase 3 + 0xFFFF) ([0x11,0,1,0,0,0,0,0]), port := 1, path := .side, flits := 1, vc := 3 }] }
     let mb : Fin 16 := 3
     let m : Msg := hm 60 3 (mbBase 3 + 0xFFFF) ([0x11,0,1,0,0,0,0,0])
     let a : Arrived := { msg := hm 60 3 (mbBase 3) ([0x10,0,0,0,0,0,0,0] ++ [1,2]), port := 1, path := .side, flits := 1, vc := 3 }
     let a' : Arrived := { msg := hm 60 3 (mbBase 3 + 0xFFFF) ([0x11,0,1,0,0,0,0,0]), port := 1, path := .side, flits := 1, vc := 3 }
     Clocked s ∧ s.arrived = [a, a'] ∧ a'.msg = m ∧ a.msg ≠ m ∧ a.msg.op = 6 ∧
     leField a.msg.data 0 1 ≠ 1 ∧ mbBase mb.val ≤ a.msg.addr.toNat ∧
     a.msg.addr.toNat < mbBase mb.val + 0x10000 ∧ mbBase mb.val ≤ m.addr.toNat ∧
     m.addr.toNat < mbBase mb.val + 0x10000) ∧
    (let s : State := sB2 bx true
     let m : Msg := hm 60 0 0 [1,2,3]
     Clocked s ∧ leField m.data 0 1 = 1) ∧
    (let s : State := sB2 bx false
     let mb : Fin 16 := 3
     let m : Msg := hm 60 3 (mbBase 3 + 0x704) ([0x10,0,0,0,0,0,0,0] ++ [1,2,3,4,5])
     let d : List Byte := [1,2,3,4,5]
     Clocked s ∧ m.data = [0x10, 0, 0, 0, 0, 0, 0, 0] ++ d ∧ HubMessage s m mb.val d.length ∧
     ¬ HostMayWrite s mb.val) ∧
    (let s : State := sB2 bx true
     let i : Nat := 0
     Clocked s ∧ i < 4) := by
  and_intros <;> (try dsimp only) <;>
    decide +kernel

theorem witness_CommandsAreAcceptedAndPosted :
    (let s : State := sB2 (bx) true
     let mb : Fin 16 := 3
     let b := s.mailbox mb.val
     let may := b.reqSeen ≠ b.reqTail ∧ b.st = .ready ∧ ((b.reqSeen - b.reqHead).toNat - popcount b.done) + (b.rspTail - b.rspHead).toNat < 64
     let slot : BitVec 6 := 9
     Clocked s ∧ s.skovi.up = true ∧ may ∧ popcount b.done ≤ (b.reqSeen - b.reqHead).toNat ∧
     b.postBad slot.toNat = true ∧ b.notify = false) ∧
    (let s : State := sB2 ({ bx with accepted := [{ idx := 66, bytes := req 0x63 [3], resp := some (0x0204, [7, 8]) }, { idx := 67, bytes := (req 0x63 [3]).set 6 2, resp := some (0, []) }], done := 0x200, notify := true }) true
     let mb : Fin 16 := 3
     let b := s.mailbox mb.val
     let slot : BitVec 6 := 2
     let c : Cmd := { idx := 66, bytes := req 0x63 [3], resp := some (0x0204, [7, 8]) }
     let st : BitVec 16 := 0x0204
     let p : List Byte := [7, 8]
     Clocked s ∧ s.skovi.up = true ∧ b.postBad slot.toNat = false ∧
     (b.accepted.find? (fun x => x.idx.toNat % 64 == slot.toNat) = some c) ∧ c.resp = some (st, p) ∧
     p.length ≤ 240 ∧ c.bytes.length = 256 ∧ b.finished.head? ≠ some c.idx ∧ b.notify = true ∧
     (∀ x : Nat, b.lastNotify = some x → x + 1250 ≤ s.now)) ∧
    (let s : State := sB2 ({ bx with notify := true, lastNotify := some 8751 }) true
     let mb : Fin 16 := 3
     let b := s.mailbox mb.val
     let x : Nat := 8751
     Clocked s ∧ s.skovi.up = true ∧ b.lastNotify = some x ∧ s.now < x + 1250) ∧
    (let s : State := sB2 ({ bx with reqTail := 66, reqSeen := 66, bell := true}) true
     let mb : Fin 16 := 3
     let b := s.mailbox mb.val
     let may := b.reqSeen ≠ b.reqTail ∧ b.st = .ready ∧ ((b.reqSeen - b.reqHead).toNat - popcount b.done) + (b.rspTail - b.rspHead).toNat < 64
     Clocked s ∧ s.skovi.up = true ∧ ¬ may) ∧
    (let s : State := sB2 ({ bx with accepted := [{ idx := 66, bytes := req 0x63 [3], resp := some (0x0204, [7, 8]) }, { idx := 67, bytes := (req 0x63 [3]).set 6 2, resp := some (0, []) }], finished := [66, 67] }) true
     let mb : Fin 16 := 3
     let b := s.mailbox mb.val
     let slot : BitVec 6 := 2
     let c : Cmd := { idx := 66, bytes := req 0x63 [3], resp := some (0x0204, [7, 8]) }
     let st : BitVec 16 := 0x0204
     let p : List Byte := [7, 8]
     Clocked s ∧ s.skovi.up = true ∧ b.postBad slot.toNat = false ∧
     (b.accepted.find? (fun x => x.idx.toNat % 64 == slot.toNat) = some c) ∧ c.resp = some (st, p) ∧
     p.length ≤ 240 ∧ c.bytes.length = 256 ∧ b.finished.head? = some c.idx) := by
  and_intros <;> (try dsimp only) <;>
    decide +kernel

def ac (i : BitVec 16) (op : Nat) (r : Bool) : Cmd := { idx := i, bytes := req op [3], running := r }
def sK (k : Skovi) (m : MbState) : State := { sB2 bx true with skovi := k, mailboxes := [(3, { bx with st := m, accepted := [ac 66 0x62 true, ac 67 0x160 false] }), (0, { bx with st := m, accepted := [{ (ac 66 0x11 false) with resp := some (0, []) }] }), (5, { st := .resetting })] }
theorem witness_SkoviRestartsWithoutStoppingTheDie :
    (let s : State := sK ({ up := true }) .ready
     Clocked s ∧ s.skovi.up = true ∧ s.activationPosted = false ∧ s.skovi.restarting = false ∧
     (s.skovi.restarting = false ∨ s.skovi.activating = false ∨ s.now < s.skovi.restartAt + 62500000)) ∧
    (let s : State := sK ({ restarting := true, mbEpoch := 7, restarts := [1, 2] }) .ready
     Clocked s ∧ s.skovi.up = false ∧ s.skovi.restarting = true ∧ s.skovi.restarts.length < 3) ∧
    (let s : State := { sK { up := true, activating := true } .ready with mailboxes := [(3, { bx with st := .ready, accepted := [] })] }
     Clocked s ∧ s.skovi.up = true ∧ s.activationPosted = true) ∧
    (let s : State := { sK { restarting := true, activating := true, prev := 4, active := 5, restartAt := 10 } .restarting with now := 62500010 }
     Clocked s ∧ s.skovi.restarting = true ∧ s.skovi.activating = true ∧
     s.skovi.restartAt + 62500000 ≤ s.now) := by
  and_intros <;> (try dsimp only) <;>
    decide +kernel

theorem witness_CommandsAreCheckedInOrder :
    (let s : State := { srv (hubbed base) 3 99 [3] with mailboxes := [(3, { mbx 99 [3] with accepted := [{ idx := 3, bytes := (req 99 [3]) }] })] }
     let mb : Fin 16 := 3
     let i : BitVec 16 := 3
     let man : Option Manifest := none
     let tests : List ArrayReport := []
     let x : Nat × Instr := (99, (.partQuery 3 3))
     let c := { idx := 3, bytes := (req 99 [3]) }
     let rsv := leField c.bytes 6 1 / 4 ≠ 0 ∨ leField c.bytes 7 1 ≠ 0 ∨ leField c.bytes 10 6 ≠ 0
     let long := 240 < leField c.bytes 4 2
     let lvl := leField c.bytes 8 1 ≠ 2
     let own := if mb.val = 0 then x.1 < 0x100 else 0x100 ≤ x.1 ∨ (x.1 = 0x62 ∧ leField c.payload 0 1 % 16 = mb.val)
     Serves s mb.val ∧ s.atWork mb.val i x.1 = none ∧
     x ∈ tableRows mb i man tests ∧
     s.waitingCmd mb.val i = some c ∧ c.opcode = x.1 ∧ s.mayStart mb.val c = true ∧ ¬ rsv ∧ ¬ long ∧
     ¬ lvl ∧ ¬ own ∧ c.opcode ∈ knownOpcodes ∧ s.skovi.lastMb ≤ 15) ∧
    (let s : State := { srv (hubbed base) 0 99 [3] with mailboxes := [(0, { mbx 99 [3] with accepted := [{ idx := 3, bytes := (fun b => b.set 6 4) (req 99 [3]) }] })] }
     let mb : Fin 16 := 0
     let i : BitVec 16 := 3
     let man : Option Manifest := none
     let tests : List ArrayReport := []
     let x : Nat × Instr := (99, (.partQuery 0 3))
     let c := { idx := 3, bytes := (fun b => b.set 6 4) (req 99 [3]) }
     let rsv := leField c.bytes 6 1 / 4 ≠ 0 ∨ leField c.bytes 7 1 ≠ 0 ∨ leField c.bytes 10 6 ≠ 0
     Serves s mb.val ∧ s.atWork mb.val i x.1 = none ∧
     x ∈ tableRows mb i man tests ∧
     s.waitingCmd mb.val i = some c ∧ c.opcode = x.1 ∧ s.mayStart mb.val c = true ∧ rsv) ∧
    (let s : State := { srv (hubbed base) 0 99 [3] with mailboxes := [(0, { mbx 99 [3] with accepted := [{ idx := 3, bytes := (fun b => b.set 4 241) (req 99 [3]) }] })] }
     let mb : Fin 16 := 0
     let i : BitVec 16 := 3
     let man : Option Manifest := none
     let tests : List ArrayReport := []
     let x : Nat × Instr := (99, (.partQuery 0 3))
     let c := { idx := 3, bytes := (fun b => b.set 4 241) (req 99 [3]) }
     let rsv := leField c.bytes 6 1 / 4 ≠ 0 ∨ leField c.bytes 7 1 ≠ 0 ∨ leField c.bytes 10 6 ≠ 0
     let long := 240 < leField c.bytes 4 2
     Serves s mb.val ∧ s.atWork mb.val i x.1 = none ∧
     x ∈ tableRows mb i man tests ∧
     s.waitingCmd mb.val i = some c ∧ c.opcode = x.1 ∧ s.mayStart mb.val c = true ∧ ¬ rsv ∧ long) ∧
    (let s : State := { srv (hubbed base) 0 99 [3] with mailboxes := [(0, { mbx 99 [3] with accepted := [{ idx := 3, bytes := (fun b => b.set 8 3) (req 99 [3]) }] })] }
     let mb : Fin 16 := 0
     let i : BitVec 16 := 3
     let man : Option Manifest := none
     let tests : List ArrayReport := []
     let x : Nat × Instr := (99, (.partQuery 0 3))
     let c := { idx := 3, bytes := (fun b => b.set 8 3) (req 99 [3]) }
     let rsv := leField c.bytes 6 1 / 4 ≠ 0 ∨ leField c.bytes 7 1 ≠ 0 ∨ leField c.bytes 10 6 ≠ 0
     let long := 240 < leField c.bytes 4 2
     let lvl := leField c.bytes 8 1 ≠ 2
     Serves s mb.val ∧ s.atWork mb.val i x.1 = none ∧
     x ∈ tableRows mb i man tests ∧
     s.waitingCmd mb.val i = some c ∧ c.opcode = x.1 ∧ s.mayStart mb.val c = true ∧ ¬ rsv ∧ ¬ long ∧
     lvl) ∧
    (let s : State := { srv (hubbed base) 0 119 [3] with mailboxes := [(0, { mbx 119 [3] with accepted := [{ idx := 3, bytes := (req 119 [3]) }] })] }
     let mb : Fin 16 := 0
     let i : BitVec 16 := 3
     let man : Option Manifest := none
     let tests : List ArrayReport := []
     let x : Nat × Instr := (0x63, .partQuery 0 3)
     let c := { idx := 3, bytes := (req 119 [3]) }
     let rsv := leField c.bytes 6 1 / 4 ≠ 0 ∨ leField c.bytes 7 1 ≠ 0 ∨ leField c.bytes 10 6 ≠ 0
     let long := 240 < leField c.bytes 4 2
     let lvl := leField c.bytes 8 1 ≠ 2
     Serves s mb.val ∧ s.atWork mb.val i x.1 = none ∧
     x ∈ tableRows mb i man tests ∧
     s.waitingCmd mb.val i = some c ∧ (c.opcode ≠ x.1 ∨ s.mayStart mb.val c = false) ∧
     c.opcode ∉ knownOpcodes ∧ s.mayStart mb.val c = true ∧ ¬ rsv ∧ ¬ long ∧ ¬ lvl) ∧
    (let s : State := { srv (hubbed base) 0 119 [3] with mailboxes := [(0, { mbx 119 [3] with accepted := [{ idx := 3, bytes := (fun b => b.set 6 4) (req 119 [3]) }] })] }
     let mb : Fin 16 := 0
     let i : BitVec 16 := 3
     let man : Option Manifest := none
     let tests : List ArrayReport := []
     let x : Nat × Instr := (0x63, .partQuery 0 3)
     let c := { idx := 3, bytes := (fun b => b.set 6 4) (req 119 [3]) }
     let rsv := leField c.bytes 6 1 / 4 ≠ 0 ∨ leField c.bytes 7 1 ≠ 0 ∨ leField c.bytes 10 6 ≠ 0
     Serves s mb.val ∧ s.atWork mb.val i x.1 = none ∧
     x ∈ tableRows mb i man tests ∧
     s.waitingCmd mb.val i = some c ∧ c.opcode ∉ knownOpcodes ∧ s.mayStart mb.val c = true ∧ rsv) ∧
    (let s : State := { srv (hubbed base) 0 119 [3] with mailboxes := [(0, { mbx 119 [3] with accepted := [{ idx := 3, bytes := (fun b => b.set 4 241) (req 119 [3]) }] })] }
     let mb : Fin 16 := 0
     let i : BitVec 16 := 3
     let man : Option Manifest := none
     let tests : List ArrayReport := []
     let x : Nat × Instr := (0x63, .partQuery 0 3)
     let c := { idx := 3, bytes := (fun b => b.set 4 241) (req 119 [3]) }
     let rsv := leField c.bytes 6 1 / 4 ≠ 0 ∨ leField c.bytes 7 1 ≠ 0 ∨ leField c.bytes 10 6 ≠ 0
     let long := 240 < leField c.bytes 4 2
     Serves s mb.val ∧ s.atWork mb.val i x.1 = none ∧
     x ∈ tableRows mb i man tests ∧
     s.waitingCmd mb.val i = some c ∧ c.opcode ∉ knownOpcodes ∧ s.mayStart mb.val c = true ∧ ¬ rsv ∧
     long) ∧
    (let s : State := { srv (hubbed base) 0 119 [3] with mailboxes := [(0, { mbx 119 [3] with accepted := [{ idx := 3, bytes := (fun b => b.set 8 3) (req 119 [3]) }] })] }
     let mb : Fin 16 := 0
     let i : BitVec 16 := 3
     let man : Option Manifest := none
     let tests : List ArrayReport := []
     let x : Nat × Instr := (0x63, .partQuery 0 3)
     let c := { idx := 3, bytes := (fun b => b.set 8 3) (req 119 [3]) }
     let rsv := leField c.bytes 6 1 / 4 ≠ 0 ∨ leField c.bytes 7 1 ≠ 0 ∨ leField c.bytes 10 6 ≠ 0
     let long := 240 < leField c.bytes 4 2
     let lvl := leField c.bytes 8 1 ≠ 2
     Serves s mb.val ∧ s.atWork mb.val i x.1 = none ∧
     x ∈ tableRows mb i man tests ∧
     s.waitingCmd mb.val i = some c ∧ c.opcode ∉ knownOpcodes ∧ s.mayStart mb.val c = true ∧ ¬ rsv ∧
     ¬ long ∧ lvl) ∧
    (let s : State := { srv (hubbed base) 0 99 [3] with mailboxes := [(0, { mbx 99 [3] with accepted := [{ idx := 3, bytes := (req 99 [3]) }] })] }
     let mb : Fin 16 := 0
     let i : BitVec 16 := 4
     let man : Option Manifest := none
     let tests : List ArrayReport := []
     let x : Nat × Instr := (0x63, .partQuery 0 4)
     Serves s mb.val ∧ s.atWork mb.val i x.1 = none ∧
     x ∈ tableRows mb i man tests ∧
     s.waitingCmd mb.val i = none) := by
  and_intros <;> (try dsimp only) <;>
    (and_intros <;> first | decide +kernel | (apply okOf; decide +kernel) | rfl | (left; decide +kernel) | exact uidNext | (apply exOf; decide +kernel) | (apply notExOf; decide +kernel) | (intro h; cases h) | simp [tableRows])

theorem witness_AdminReportsAnswerTheState :
    (let s : State := srv ({ hubbed base with mast := { st := .locked, stroke := 77, stepFwd := 3, missed := 4, discarded := 5, lost := true, regress := true }, parts := [(3, { present := true, cores := 5 })], log := { entries := [{ code := 5 }, {code := 6, index := 1}], nextIndex := 2, overflow := 9 }, skovi := { staged := some (List.replicate 300 3), active := 5 } }) 0 1 ([])
     let mb : Fin 16 := 0
     let i : BitVec 16 := 3
     let p : List Byte := []
     Runs s mb i 0x01 [] p) ∧
    (let s : State := srv ({ hubbed base with mast := { st := .locked, stroke := 77, stepFwd := 3, missed := 4, discarded := 5, lost := true, regress := true }, parts := [(3, { present := true, cores := 5 })], log := { entries := [{ code := 5 }, {code := 6, index := 1}], nextIndex := 2, overflow := 9 }, skovi := { staged := some (List.replicate 300 3), active := 5 } }) 0 2 ([])
     let mb : Fin 16 := 0
     let i : BitVec 16 := 3
     let p : List Byte := []
     Runs s mb i 0x02 [] p) ∧
    (let s : State := srv ({ hubbed base with mast := { st := .locked, stroke := 77, stepFwd := 3, missed := 4, discarded := 5, lost := true, regress := true }, parts := [(3, { present := true, cores := 5 })], log := { entries := [{ code := 5 }, {code := 6, index := 1}], nextIndex := 2, overflow := 9 }, skovi := { staged := some (List.replicate 300 3), active := 5 } }) 0 32 ([])
     let mb : Fin 16 := 0
     let i : BitVec 16 := 3
     let p : List Byte := []
     Runs s mb i 0x20 [] p) ∧
    (let s : State := srv ({ hubbed base with mast := { st := .locked, stroke := 77, stepFwd := 3, missed := 4, discarded := 5, lost := true, regress := true }, parts := [(3, { present := true, cores := 5 })], log := { entries := [{ code := 5 }, {code := 6, index := 1}], nextIndex := 2, overflow := 9 }, skovi := { staged := some (List.replicate 300 3), active := 5 } }) 0 49 ([0])
     let mb : Fin 16 := 0
     let i : BitVec 16 := 3
     let p : List Byte := [0]
     Runs s mb i 0x31 [(0, 1, 0x01)] p) ∧
    (let s : State := srv ({ hubbed base with mast := { st := .locked, stroke := 77, stepFwd := 3, missed := 4, discarded := 5, lost := true, regress := true }, parts := [(3, { present := true, cores := 5 })], log := { entries := [{ code := 5 }, {code := 6, index := 1}], nextIndex := 2, overflow := 9 }, skovi := { staged := some (List.replicate 300 3), active := 5 } }) 0 64 ([])
     let mb : Fin 16 := 0
     let i : BitVec 16 := 3
     let p : List Byte := []
     Runs s mb i 0x40 [] p) ∧
    (let s : State := srv ({ hubbed base with mast := { st := .locked, stroke := 77, stepFwd := 3, missed := 4, discarded := 5, lost := true, regress := true }, parts := [(3, { present := true, cores := 5 })], log := { entries := [{ code := 5 }, {code := 6, index := 1}], nextIndex := 2, overflow := 9 }, skovi := { staged := some (List.replicate 300 3), active := 5 } }) 0 99 ([3])
     let mb : Fin 16 := 0
     let i : BitVec 16 := 3
     let p : List Byte := [3]
     Runs s mb i 0x63 [(0, 1, 0x0F)] p ∧ (s.part (leField p 0 1)).present = true) ∧
    (let s : State := srv ({ hubbed base with mast := { st := .locked, stroke := 77, stepFwd := 3, missed := 4, discarded := 5, lost := true, regress := true }, parts := [(3, { present := true, cores := 5 })], log := { entries := [{ code := 5 }, {code := 6, index := 1}], nextIndex := 2, overflow := 9 }, skovi := { staged := some (List.replicate 300 3), active := 5 } }) 0 99 ([4])
     let mb : Fin 16 := 0
     let i : BitVec 16 := 3
     let p : List Byte := [4]
     Runs s mb i 0x63 [(0, 1, 0x0F)] p ∧ (s.part (leField p 0 1)).present = false) ∧
    (let s : State := srv ({ hubbed base with mast := { st := .locked, stroke := 77, stepFwd := 3, missed := 4, discarded := 5, lost := true, regress := true }, parts := [(3, { present := true, cores := 5 })], log := { entries := [{ code := 5 }, {code := 6, index := 1}], nextIndex := 2, overflow := 9 }, skovi := { staged := some (List.replicate 300 3), active := 5 } }) 0 144 ([48])
     let mb : Fin 16 := 0
     let i : BitVec 16 := 3
     let p : List Byte := [48]
     Runs s mb i 0x90 [(0, 1, 0x3F)] p) ∧
    (let s : State := srv ({ hubbed base with mast := { st := .locked, stroke := 77, stepFwd := 3, missed := 4, discarded := 5, lost := true, regress := true }, parts := [(3, { present := true, cores := 5 })], log := { entries := [{ code := 5 }, {code := 6, index := 1}], nextIndex := 2, overflow := 9 }, skovi := { staged := some (List.replicate 300 3), active := 5 } }) 0 130 ([])
     let mb : Fin 16 := 0
     let i : BitVec 16 := 3
     let p : List Byte := []
     Runs s mb i 0x82 [] p) ∧
    (let s : State := srv ({ hubbed base with mast := { st := .locked, stroke := 77, stepFwd := 3, missed := 4, discarded := 5, lost := true, regress := true }, parts := [(3, { present := true, cores := 5 })], log := { entries := [{ code := 5 }, {code := 6, index := 1}], nextIndex := 2, overflow := 9 }, skovi := { staged := some (List.replicate 300 3), active := 5 } }) 0 80 ([0,0,0,0,0,0,0,0] ++ ([0,0x10,0,0,0,60,0,0] ++ leBytes 8 0))
     let mb : Fin 16 := 0
     let i : BitVec 16 := 3
     let p : List Byte := [0,0,0,0,0,0,0,0] ++ ([0,0x10,0,0,0,60,0,0] ++ leBytes 8 0)
     let r := { die := 60, addr := 0x1000, len := 0 }
     Begins s mb i 0x50 ((0, 1, 0x01) :: bulkBits 8) p ∧ s.bulk p 8 = some r) ∧
    (let s : State := srv ({ hubbed base with mast := { st := .locked, stroke := 77, stepFwd := 3, missed := 4, discarded := 5, lost := true, regress := true }, parts := [(3, { present := true, cores := 5 })], log := { entries := [{ code := 5 }, {code := 6, index := 1}], nextIndex := 2, overflow := 9 }, skovi := { staged := some (List.replicate 300 3), active := 5 } }) 0 128 ([0,0,0,0,0,0,0,0] ++ ([0,0x10,0,0,0,60,0,0] ++ leBytes 8 0))
     let mb : Fin 16 := 0
     let i : BitVec 16 := 3
     let p : List Byte := [0,0,0,0,0,0,0,0] ++ ([0,0x10,0,0,0,60,0,0] ++ leBytes 8 0)
     let r := { die := 60, addr := 0x1000, len := 0 }
     Begins s mb i 0x80 ((0, 1, 0xFF) :: bulkBits 8) p ∧ s.bulk p 8 = some r ∧ leField p 0 1 ≤ 4) ∧
    (let s : State := srv ({ hubbed base with mast := { st := .locked, stroke := 77, stepFwd := 3, missed := 4, discarded := 5, lost := true, regress := true }, parts := [(3, { present := true, cores := 5 })], log := { entries := [{ code := 5 }, {code := 6, index := 1}], nextIndex := 2, overflow := 9 }, skovi := { staged := some (List.replicate 300 3), active := 5 } }) 0 128 ([5,0,0,0,0,0,0,0] ++ ([0,0x10,0,0,0,60,0,0] ++ leBytes 8 0))
     let mb : Fin 16 := 0
     let i : BitVec 16 := 3
     let p : List Byte := [5,0,0,0,0,0,0,0] ++ ([0,0x10,0,0,0,60,0,0] ++ leBytes 8 0)
     Begins s mb i 0x80 ((0, 1, 0xFF) :: bulkBits 8) p ∧ (s.bulk p 8 = none ∨ 5 ≤ leField p 0 1)) ∧
    (let s : State := srv ({ hubbed base with mast := { st := .locked, stroke := 77, stepFwd := 3, missed := 4, discarded := 5, lost := true, regress := true }, parts := [(3, { present := true, cores := 5 })], log := { entries := [{ code := 5 }, {code := 6, index := 1}], nextIndex := 2, overflow := 9 }, skovi := { staged := some (List.replicate 300 3), active := 5 } }) 0 129 ([1,0,1,0,0,0,0,0] ++ ([0,0x10,0,0,0,60,0,0] ++ leBytes 8 0))
     let mb : Fin 16 := 0
     let i : BitVec 16 := 3
     let p : List Byte := [1,0,1,0,0,0,0,0] ++ ([0,0x10,0,0,0,60,0,0] ++ leBytes 8 0)
     let r := { die := 60, addr := 0x1000, len := 0 }
     Begins s mb i 0x81 ([(0, 4, 0xFF), (4, 4, 0)] ++ bulkBits 8) p ∧ s.bulk p 8 = some r ∧
     leField p 2 2 ≤ 512) ∧
    (let s : State := srv ({ hubbed base with mast := { st := .locked, stroke := 77, stepFwd := 3, missed := 4, discarded := 5, lost := true, regress := true }, parts := [(3, { present := true, cores := 5 })], log := { entries := [{ code := 5 }, {code := 6, index := 1}], nextIndex := 2, overflow := 9 }, skovi := { staged := some (List.replicate 300 3), active := 5 } }) 0 129 ([0,0,1,2,0,0,0,0] ++ ([0,0x10,0,0,0,60,0,0] ++ leBytes 8 0))
     let mb : Fin 16 := 0
     let i : BitVec 16 := 3
     let p : List Byte := [0,0,1,2,0,0,0,0] ++ ([0,0x10,0,0,0,60,0,0] ++ leBytes 8 0)
     Begins s mb i 0x81 ([(0, 4, 0xFF), (4, 4, 0)] ++ bulkBits 8) p ∧
     (s.bulk p 8 = none ∨ 512 < leField p 2 2)) ∧
    (let s : State := srv ({ hubbed base with mast := { st := .locked, stroke := 77, stepFwd := 3, missed := 4, discarded := 5, lost := true, regress := true }, parts := [(3, { present := true, cores := 5 })], log := { entries := [{ code := 5 }, {code := 6, index := 1}], nextIndex := 2, overflow := 9 }, skovi := { staged := some (List.replicate 300 3), active := 5 } }) 0 80 ([0,0,0,0,0,0,0,0,0,0,0,0,0,61,0,0,5,0,0,0,0,0,0,0])
     let mb : Fin 16 := 0
     let i : BitVec 16 := 3
     let p : List Byte := [0,0,0,0,0,0,0,0,0,0,0,0,0,61,0,0,5,0,0,0,0,0,0,0]
     Begins s mb i 0x50 ((0, 1, 0x01) :: bulkBits 8) p ∧ s.bulk p 8 = none) ∧
    (let s : State := work ({ hubbed base with mast := { st := .locked, stroke := 77, stepFwd := 3, missed := 4, discarded := 5, lost := true, regress := true }, parts := [(3, { present := true, cores := 5 })], log := { entries := [{ code := 5 }, {code := 6, index := 1}], nextIndex := 2, overflow := 9 }, skovi := { staged := some (List.replicate 300 3), active := 5 } }) 0 80 ([0]) 1 [7, 8] []
     let mb : Fin 16 := 0
     let i : BitVec 16 := 3
     let c : Cmd := (s.atWork 0 3 80).getD { idx := 0, bytes := [] }
     Clocked s ∧ s.skovi.up = true ∧ s.atWork mb.val i 0x50 = some c ∧ s.cmdReady mb.val c = true ∧
     s.cmdFailed mb.val c = false) ∧
    (let s : State := work ({ hubbed base with mast := { st := .locked, stroke := 77, stepFwd := 3, missed := 4, discarded := 5, lost := true, regress := true }, parts := [(3, { present := true, cores := 5 })], log := { entries := [{ code := 5 }, {code := 6, index := 1}], nextIndex := 2, overflow := 9 }, skovi := { staged := some (List.replicate 300 3), active := 5 } }) 0 80 ([0]) 1 [7, 8] [tran 0 true 4 4 1 false []]
     let mb : Fin 16 := 0
     let i : BitVec 16 := 3
     let c : Cmd := (s.atWork 0 3 80).getD { idx := 0, bytes := [] }
     Clocked s ∧ s.skovi.up = true ∧ s.atWork mb.val i 0x50 = some c ∧ s.cmdReady mb.val c = false) ∧
    (let s : State := work ({ hubbed base with mast := { st := .locked, stroke := 77, stepFwd := 3, missed := 4, discarded := 5, lost := true, regress := true }, parts := [(3, { present := true, cores := 5 })], log := { entries := [{ code := 5 }, {code := 6, index := 1}], nextIndex := 2, overflow := 9 }, skovi := { staged := some (List.replicate 300 3), active := 5 } }) 0 80 ([0]) 1 [7, 8] [tran 0 true 4 4 0 true []]
     let mb : Fin 16 := 0
     let i : BitVec 16 := 3
     let c : Cmd := (s.atWork 0 3 80).getD { idx := 0, bytes := [] }
     Clocked s ∧ s.skovi.up = true ∧ s.atWork mb.val i 0x50 = some c ∧ s.cmdReady mb.val c = true ∧
     s.cmdFailed mb.val c = true) ∧
    (let s : State := work ({ hubbed base with mast := { st := .locked, stroke := 77, stepFwd := 3, missed := 4, discarded := 5, lost := true, regress := true }, parts := [(3, { present := true, cores := 5 })], log := { entries := [{ code := 5 }, {code := 6, index := 1}], nextIndex := 2, overflow := 9 }, skovi := { staged := some (List.replicate 300 3), active := 5 } }) 0 128 ([0]) 1 [7, 8] []
     let mb : Fin 16 := 0
     let i : BitVec 16 := 3
     let c : Cmd := (s.atWork 0 3 128).getD { idx := 0, bytes := [] }
     Clocked s ∧ s.skovi.up = true ∧ s.atWork mb.val i 0x80 = some c ∧ s.cmdReady mb.val c = true ∧
     s.cmdFailed mb.val c = false) ∧
    (let s : State := work ({ hubbed base with mast := { st := .locked, stroke := 77, stepFwd := 3, missed := 4, discarded := 5, lost := true, regress := true }, parts := [(3, { present := true, cores := 5 })], log := { entries := [{ code := 5 }, {code := 6, index := 1}], nextIndex := 2, overflow := 9 }, skovi := { staged := some (List.replicate 300 3), active := 5 } }) 0 128 ([0]) 1 [7, 8] [tran 0 true 4 4 1 false []]
     let mb : Fin 16 := 0
     let i : BitVec 16 := 3
     let c : Cmd := (s.atWork 0 3 128).getD { idx := 0, bytes := [] }
     Clocked s ∧ s.skovi.up = true ∧ s.atWork mb.val i 0x80 = some c ∧ s.cmdReady mb.val c = false) ∧
    (let s : State := work ({ hubbed base with mast := { st := .locked, stroke := 77, stepFwd := 3, missed := 4, discarded := 5, lost := true, regress := true }, parts := [(3, { present := true, cores := 5 })], log := { entries := [{ code := 5 }, {code := 6, index := 1}], nextIndex := 2, overflow := 9 }, skovi := { staged := some (List.replicate 300 3), active := 5 } }) 0 128 ([0]) 1 [7, 8] [tran 0 true 4 4 0 true []]
     let mb : Fin 16 := 0
     let i : BitVec 16 := 3
     let c : Cmd := (s.atWork 0 3 128).getD { idx := 0, bytes := [] }
     Clocked s ∧ s.skovi.up = true ∧ s.atWork mb.val i 0x80 = some c ∧ s.cmdReady mb.val c = true ∧
     s.cmdFailed mb.val c = true) ∧
    (let s : State := work ({ hubbed base with mast := { st := .locked, stroke := 77, stepFwd := 3, missed := 4, discarded := 5, lost := true, regress := true }, parts := [(3, { present := true, cores := 5 })], log := { entries := [{ code := 5 }, {code := 6, index := 1}], nextIndex := 2, overflow := 9 }, skovi := { staged := some (List.replicate 300 3), active := 5 } }) 0 129 ([1]) 1 [7, 8] []
     let mb : Fin 16 := 0
     let i : BitVec 16 := 3
     let c : Cmd := (s.atWork 0 3 129).getD { idx := 0, bytes := [] }
     Clocked s ∧ s.skovi.up = true ∧ s.atWork mb.val i 0x81 = some c ∧ s.cmdReady mb.val c = true ∧
     s.cmdFailed mb.val c = false) ∧
    (let s : State := work ({ hubbed base with mast := { st := .locked, stroke := 77, stepFwd := 3, missed := 4, discarded := 5, lost := true, regress := true }, parts := [(3, { present := true, cores := 5 })], log := { entries := [{ code := 5 }, {code := 6, index := 1}], nextIndex := 2, overflow := 9 }, skovi := { staged := some (List.replicate 300 3), active := 5 } }) 0 129 ([1]) 1 [7, 8] [tran 0 true 4 4 1 false []]
     let mb : Fin 16 := 0
     let i : BitVec 16 := 3
     let c : Cmd := (s.atWork 0 3 129).getD { idx := 0, bytes := [] }
     Clocked s ∧ s.skovi.up = true ∧ s.atWork mb.val i 0x81 = some c ∧ s.cmdReady mb.val c = false) ∧
    (let s : State := work ({ hubbed base with mast := { st := .locked, stroke := 77, stepFwd := 3, missed := 4, discarded := 5, lost := true, regress := true }, parts := [(3, { present := true, cores := 5 })], log := { entries := [{ code := 5 }, {code := 6, index := 1}], nextIndex := 2, overflow := 9 }, skovi := { staged := some (List.replicate 300 3), active := 5 } }) 0 129 ([1]) 1 [7, 8] [tran 0 true 4 4 0 true []]
     let mb : Fin 16 := 0
     let i : BitVec 16 := 3
     let c : Cmd := (s.atWork 0 3 129).getD { idx := 0, bytes := [] }
     Clocked s ∧ s.skovi.up = true ∧ s.atWork mb.val i 0x81 = some c ∧ s.cmdReady mb.val c = true ∧
     s.cmdFailed mb.val c = true) := by
  and_intros <;> (try dsimp only) <;>
    decide +kernel

def img (b n : Nat) (sg : Byte) (maj : Byte) : List Byte := leBytes 4 1 ++ leBytes 4 b ++ leBytes 4 n ++ [4, maj, 0, 0] ++ List.replicate 97 0 ++ List.replicate 15 0 ++ [sg] ++ List.replicate 95 0 ++ List.replicate 32 0 ++ List.replicate n 5
def hb : State := { hubbed base with mast := { st := .locked, stroke := 77 }, parts := [(3, { present := true, cores := 5 })], now := 1000 }
def ub (lv sq : Nat) (sg : Byte) : List Byte := leBytes 4 sq ++ [BitVec.ofNat 8 lv, 0, 9, 0] ++ [sg] ++ List.replicate 95 0
theorem witness_AdminCommandsTakeEffect :
    (let s : State := srv ({hb with parts := [(3, { present := false, cores := 3 })]}) 0 33 ([1])
     let mb : Fin 16 := 0
     let i : BitVec 16 := 3
     let p : List Byte := [1]
     Runs s mb i 0x21 [(0, 1, 0x01)] p ∧ leField p 0 1 = 1 ∧ (∀ e ∈ s.parts, e.2.present = false) ∧
     Clocked s ∧ (s.dbg.challenge = false ∨ s.now < s.dbg.issuedAt + 1250000000)) ∧
    (let s : State := srv (hb) 0 16 (([0,0x10,0,0,0,60,0,0] ++ leBytes 8 0))
     let mb : Fin 16 := 0
     let i : BitVec 16 := 3
     let p : List Byte := ([0,0x10,0,0,0,60,0,0] ++ leBytes 8 0)
     Begins s mb i 0x10 (bulkBits 0) p ∧
     (s.bulk p 0 = none ∨ ∃ r, s.bulk p 0 = some r ∧ (r.len = 0 ∨ 0x800000 < r.len))) ∧
    (let s : State := srv (hb) 0 16 (([0,0x10,0,0,0,60,0,0] ++ leBytes 8 300))
     let mb : Fin 16 := 0
     let i : BitVec 16 := 3
     let p : List Byte := ([0,0x10,0,0,0,60,0,0] ++ leBytes 8 300)
     let r := { die := 60, addr := 0x1000, len := 300 }
     Begins s mb i 0x10 (bulkBits 0) p ∧ s.bulk p 0 = some r ∧ 1 ≤ r.len ∧ r.len ≤ 0x800000) ∧
    (let s : State := work hb 0 0x10 (([0,0x10,0,0,0,60,0,0] ++ leBytes 8 300)) 1 [] [tran 0 false 300 300 0 false (img 9 44 0 2 ++ [7, 7])]
     let mb : Fin 16 := 0
     let i : BitVec 16 := 3
     let c : Cmd := (s.atWork 0 3 0x10).getD { idx := 0, bytes := [] }
     Clocked s ∧ s.skovi.up = true ∧ s.atWork mb.val i 0x10 = some c ∧ s.cmdReady mb.val c = true ∧
     s.cmdFailed mb.val c = false) ∧
    (let s : State := work hb 0 0x10 (([0,0x10,0,0,0,60,0,0] ++ leBytes 8 300)) 1 [] [tran 0 false 300 300 0 true ([])]
     let mb : Fin 16 := 0
     let i : BitVec 16 := 3
     let c : Cmd := (s.atWork 0 3 0x10).getD { idx := 0, bytes := [] }
     Clocked s ∧ s.skovi.up = true ∧ s.atWork mb.val i 0x10 = some c ∧ s.cmdReady mb.val c = true ∧
     s.cmdFailed mb.val c = true) ∧
    (let s : State := work hb 0 0x10 (([0,0x10,0,0,0,60,0,0] ++ leBytes 8 300)) 1 [] [tran 0 false 300 300 1 false ([])]
     let mb : Fin 16 := 0
     let i : BitVec 16 := 3
     let c : Cmd := (s.atWork 0 3 0x10).getD { idx := 0, bytes := [] }
     Clocked s ∧ s.skovi.up = true ∧ s.atWork mb.val i 0x10 = some c ∧ s.cmdReady mb.val c = false) ∧
    (let s : State := srv ({ hb with skovi := { staged := none } }) 0 17 (leBytes 4 9)
     let mb : Fin 16 := 0
     let i : BitVec 16 := 3
     let p : List Byte := leBytes 4 9
     Runs s mb i 0x11 [(0, 4, 0xFF)] p ∧ s.skovi.staged = none) ∧
    (let s : State := srv ({ hb with skovi := { staged := some (img 9 44 0 2) } }) 0 17 (leBytes 4 9)
     let mb : Fin 16 := 0
     let i : BitVec 16 := 3
     let p : List Byte := leBytes 4 9
     let g := (img 9 44 0 2)
     Runs s mb i 0x11 [(0, 4, 0xFF)] p ∧ s.skovi.staged = some g ∧
     (imageBuild g).toNat = leField p 0 4 ∧ imageMajor g = 2) ∧
    (let s : State := srv ({ hb with skovi := { staged := some (img 9 44 0 2) } }) 0 17 (leBytes 4 8)
     let mb : Fin 16 := 0
     let i : BitVec 16 := 3
     let p : List Byte := leBytes 4 8
     let g := (img 9 44 0 2)
     Runs s mb i 0x11 [(0, 4, 0xFF)] p ∧ s.skovi.staged = some g ∧
     (imageBuild g).toNat ≠ leField p 0 4) ∧
    (let s : State := srv ({ hb with skovi := { staged := some (img 9 44 0 3) } }) 0 17 (leBytes 4 9)
     let mb : Fin 16 := 0
     let i : BitVec 16 := 3
     let p : List Byte := leBytes 4 9
     let g := (img 9 44 0 3)
     Runs s mb i 0x11 [(0, 4, 0xFF)] p ∧ s.skovi.staged = some g ∧
     (imageBuild g).toNat = leField p 0 4 ∧ imageMajor g ≠ 2) ∧
    (let s : State := srv (hb) 0 33 ([0])
     let mb : Fin 16 := 0
     let i : BitVec 16 := 3
     let p : List Byte := [0]
     Runs s mb i 0x21 [(0, 1, 0x01)] p ∧ leField p 0 1 = 0 ∧ (∃ e ∈ s.parts, e.2.present = true)) ∧
    (let s : State := srv (hb) 0 48 (leBytes 2 0 ++ leBytes 6 0 ++ leBytes 8 80)
     let mb : Fin 16 := 0
     let i : BitVec 16 := 3
     let p : List Byte := leBytes 2 0 ++ leBytes 6 0 ++ leBytes 8 80
     let us := leField p 0 2
     Runs s mb i 0x30 [(0, 2, 0xFF), (8, 8, 0xFF)] p ∧ (us = 0 ∨ 1000 < us)) ∧
    (let s : State := srv (hb) 0 48 (leBytes 2 1000 ++ leBytes 6 0 ++ leBytes 8 79)
     let mb : Fin 16 := 0
     let i : BitVec 16 := 3
     let p : List Byte := leBytes 2 1000 ++ leBytes 6 0 ++ leBytes 8 79
     let us := leField p 0 2
     let e := leField p 8 8
     let fits := s.mast.st ≠ .unlocked ∧ s.mast.stroke.toNat + 2 ≤ e
     Runs s mb i 0x30 [(0, 2, 0xFF), (8, 8, 0xFF)] p ∧ 1 ≤ us ∧ us ≤ 1000 ∧ fits) ∧
    (let s : State := srv (hb) 0 48 (leBytes 2 1 ++ leBytes 6 0 ++ leBytes 8 78)
     let mb : Fin 16 := 0
     let i : BitVec 16 := 3
     let p : List Byte := leBytes 2 1 ++ leBytes 6 0 ++ leBytes 8 78
     let us := leField p 0 2
     let e := leField p 8 8
     let fits := s.mast.st ≠ .unlocked ∧ s.mast.stroke.toNat + 2 ≤ e
     Runs s mb i 0x30 [(0, 2, 0xFF), (8, 8, 0xFF)] p ∧ 1 ≤ us ∧ us ≤ 1000 ∧ ¬ fits) ∧
    (let s : State := srv (hb) 0 65 ([1])
     let mb : Fin 16 := 0
     let i : BitVec 16 := 3
     let p : List Byte := [1]
     let q : PortId := 1
     Runs s mb i 0x41 [(0, 1, 0x03)] p ∧ leField p 0 1 = q.val) ∧
    (let s : State := srv (hb) 0 81 ([5] ++ List.replicate 7 0 ++ leBytes 8 8738)
     let mb : Fin 16 := 0
     let i : BitVec 16 := 3
     let p : List Byte := [5] ++ List.replicate 7 0 ++ leBytes 8 8738
     let d : BitVec 6 := 5
     let wrong := s.member.id = some d ∨ 60 ≤ d.toNat
     let found := (s.die d.toNat).uid = BitVec.ofNat 64 (leField p 8 8)
     leField p 0 1 = d.toNat ∧ Runs s mb i 0x51 [(0, 1, 0x3F), (8, 8, 0xFF)] p ∧ ¬ wrong ∧ found) ∧
    (let s : State := srv (hb) 0 81 ([5] ++ List.replicate 7 0 ++ leBytes 8 7)
     let mb : Fin 16 := 0
     let i : BitVec 16 := 3
     let p : List Byte := [5] ++ List.replicate 7 0 ++ leBytes 8 7
     let d : BitVec 6 := 5
     let wrong := s.member.id = some d ∨ 60 ≤ d.toNat
     let found := (s.die d.toNat).uid = BitVec.ofNat 64 (leField p 8 8)
     leField p 0 1 = d.toNat ∧ Runs s mb i 0x51 [(0, 1, 0x3F), (8, 8, 0xFF)] p ∧ ¬ wrong ∧ ¬ found) ∧
    (let s : State := srv (hb) 0 81 ([60] ++ List.replicate 7 0 ++ leBytes 8 0)
     let mb : Fin 16 := 0
     let i : BitVec 16 := 3
     let p : List Byte := [60] ++ List.replicate 7 0 ++ leBytes 8 0
     let d : BitVec 6 := 60
     let wrong := s.member.id = some d ∨ 60 ≤ d.toNat
     leField p 0 1 = d.toNat ∧ Runs s mb i 0x51 [(0, 1, 0x3F), (8, 8, 0xFF)] p ∧ wrong) ∧
    (let s : State := srv (hb) 0 82 ([5] ++ List.replicate 7 0 ++ leBytes 8 8738)
     let mb : Fin 16 := 0
     let i : BitVec 16 := 3
     let p : List Byte := [5] ++ List.replicate 7 0 ++ leBytes 8 8738
     let d : BitVec 6 := 5
     let wrong := s.member.id = some d ∨ 60 ≤ d.toNat
     let found := (s.die d.toNat).uid = BitVec.ofNat 64 (leField p 8 8)
     leField p 0 1 = d.toNat ∧ Runs s mb i 0x52 [(0, 1, 0x3F), (8, 8, 0xFF)] p ∧ ¬ wrong ∧ found ∧
     (s.die d.toNat).fenced = false) ∧
    (let s : State := srv ({ hb with member := { hb.member with dies := [(5, { fenced := true, uid := 0x2222 })] } }) 0 82 ([5] ++ List.replicate 7 0 ++ leBytes 8 8738)
     let mb : Fin 16 := 0
     let i : BitVec 16 := 3
     let p : List Byte := [5] ++ List.replicate 7 0 ++ leBytes 8 8738
     let d : BitVec 6 := 5
     let wrong := s.member.id = some d ∨ 60 ≤ d.toNat
     let found := (s.die d.toNat).uid = BitVec.ofNat 64 (leField p 8 8)
     leField p 0 1 = d.toNat ∧ Runs s mb i 0x52 [(0, 1, 0x3F), (8, 8, 0xFF)] p ∧ ¬ wrong ∧ found ∧
     (s.die d.toNat).fenced = true) ∧
    (let s : State := srv (hb) 0 82 ([5] ++ List.replicate 7 0 ++ leBytes 8 7)
     let mb : Fin 16 := 0
     let i : BitVec 16 := 3
     let p : List Byte := [5] ++ List.replicate 7 0 ++ leBytes 8 7
     let d : BitVec 6 := 5
     let wrong := s.member.id = some d ∨ 60 ≤ d.toNat
     let found := (s.die d.toNat).uid = BitVec.ofNat 64 (leField p 8 8)
     leField p 0 1 = d.toNat ∧ Runs s mb i 0x52 [(0, 1, 0x3F), (8, 8, 0xFF)] p ∧ ¬ wrong ∧ ¬ found) ∧
    (let s : State := srv (hb) 0 82 ([60] ++ List.replicate 7 0 ++ leBytes 8 0)
     let mb : Fin 16 := 0
     let i : BitVec 16 := 3
     let p : List Byte := [60] ++ List.replicate 7 0 ++ leBytes 8 0
     let d : BitVec 6 := 60
     let wrong := s.member.id = some d ∨ 60 ≤ d.toNat
     leField p 0 1 = d.toNat ∧ Runs s mb i 0x52 [(0, 1, 0x3F), (8, 8, 0xFF)] p ∧ wrong) ∧
    (let s : State := srv (hb) 0 112 ([0,0,0,0,0,0,0,0] ++ [1,15,3])
     let mb : Fin 16 := 0
     let i : BitVec 16 := 3
     let p : List Byte := [0,0,0,0,0,0,0,0] ++ [1,15,3]
     let w := [leField p 8 1, leField p 9 1, leField p 10 1]
     leField p 0 1 = 0 ∧ Runs s mb i 0x70 [(0, 1, 0x0F), (1, 1, 0x07), (2, 1, 0x7F), (8, 3, 0xFF)] p ∧
     (∀ x ∈ w, 1 ≤ x ∧ x ≤ 15)) ∧
    (let s : State := srv (hb) 0 112 ([0,0,0,0,0,0,0,0] ++ [0,1,1])
     let mb : Fin 16 := 0
     let i : BitVec 16 := 3
     let p : List Byte := [0,0,0,0,0,0,0,0] ++ [0,1,1]
     let w := [leField p 8 1, leField p 9 1, leField p 10 1]
     leField p 0 1 = 0 ∧ Runs s mb i 0x70 [(0, 1, 0x0F), (1, 1, 0x07), (2, 1, 0x7F), (8, 3, 0xFF)] p ∧
     (∃ x ∈ w, x = 0 ∨ 15 < x)) ∧
    (let s : State := srv ({ hb with parts := [(3, { present := true, cores := 5, buckets := [(66, { level := 4, unlim := false })] })] }) 0 112 ([3,1,2,0,0,0,0,0] ++ leBytes 8 ((2^30+2^28*1)))
     let mb : Fin 16 := 0
     let i : BitVec 16 := 3
     let p : List Byte := [3,1,2,0,0,0,0,0] ++ leBytes 8 ((2^30+2^28*1))
     let col := leField p 0 1
     let bucket := leField p 1 1
     let inst := leField p 2 1
     let e : Word := BitVec.ofNat 64 (leField p 8 8)
     let bad := bit e 31 = true ∨ field e 60 4 ≠ 0 ∨ (bit e 30 = false ∧ (field e 0 28 = 0 ∨ (field e 32 28).toNat < (field e 0 28).toNat))
     let own := bucket = 1 ∨ bucket = 6
     leField p 0 1 ≠ 0 ∧ Runs s mb i 0x70 [(0, 1, 0x0F), (1, 1, 0x07), (2, 1, 0x7F), (8, 8, 0xFF)] p ∧
     bucket < 7 ∧ ¬ bad ∧ (own → inst < 48 ∨ 64 ≤ inst) ∧ (s.part col).present = true) ∧
    (let s : State := srv ({ hb with dbg := { challenge := true, seq := 4 }, now := 1250000000 }) 0 161 (ub 1 4 0)
     let mb : Fin 16 := 0
     let i : BitVec 16 := 3
     let p : List Byte := ub 1 4 0
     let lv := leField p 4 1
     let form := lv ≤ 2 ∧ (lv = 0 → leField p 8 96 = 0)
     let opened := s.dbg.challenge = true ∧ s.dbg.seq.toNat = leField p 0 4 ∧ s.now < s.dbg.issuedAt + 1250000000
     Runs s mb i 0xA1 [(0, 5, 0xFF), (6, 98, 0xFF)] p ∧ form ∧ s.dbg.locked = false ∧ ¬ opened ∧
     Clocked s ∧ s.dbg.challenge = true ∧ s.dbg.issuedAt + 1250000000 ≤ s.now) ∧
    (let s : State := srv ({ hb with parts := [(3, { present := true, cores := 5, buckets := [(66, { level := 4, unlim := false })] })] }) 0 112 ([3,7,0,0,0,0,0,0] ++ leBytes 8 (2^30))
     let mb : Fin 16 := 0
     let i : BitVec 16 := 3
     let p : List Byte := [3,7,0,0,0,0,0,0] ++ leBytes 8 (2^30)
     let bucket := leField p 1 1
     let inst := leField p 2 1
     let e : Word := BitVec.ofNat 64 (leField p 8 8)
     let bad := bit e 31 = true ∨ field e 60 4 ≠ 0 ∨ (bit e 30 = false ∧ (field e 0 28 = 0 ∨ (field e 32 28).toNat < (field e 0 28).toNat))
     let own := bucket = 1 ∨ bucket = 6
     leField p 0 1 ≠ 0 ∧ Runs s mb i 0x70 [(0, 1, 0x0F), (1, 1, 0x07), (2, 1, 0x7F), (8, 8, 0xFF)] p ∧
     (bucket = 7 ∨ bad ∨ (own ∧ 48 ≤ inst ∧ inst < 64))) ∧
    (let s : State := srv ({ hb with parts := [(3, { present := true, cores := 5, buckets := [(66, { level := 4, unlim := false })] })] }) 0 112 ([4,0,3,0,0,0,0,0] ++ leBytes 8 (2^30))
     let mb : Fin 16 := 0
     let i : BitVec 16 := 3
     let p : List Byte := [4,0,3,0,0,0,0,0] ++ leBytes 8 (2^30)
     let col := leField p 0 1
     let bucket := leField p 1 1
     let inst := leField p 2 1
     let e : Word := BitVec.ofNat 64 (leField p 8 8)
     let bad := bit e 31 = true ∨ field e 60 4 ≠ 0 ∨ (bit e 30 = false ∧ (field e 0 28 = 0 ∨ (field e 32 28).toNat < (field e 0 28).toNat))
     let own := bucket = 1 ∨ bucket = 6
     leField p 0 1 ≠ 0 ∧ Runs s mb i 0x70 [(0, 1, 0x0F), (1, 1, 0x07), (2, 1, 0x7F), (8, 8, 0xFF)] p ∧
     bucket < 7 ∧ ¬ bad ∧ (own → inst < 48 ∨ 64 ≤ inst) ∧ (s.part col).present = false) ∧
    (let s : State := srv (hb) 0 160 ([])
     let mb : Fin 16 := 0
     let i : BitVec 16 := 3
     let p : List Byte := []
     Runs s mb i 0xA0 [] p ∧ s.dbg.locked = false) ∧
    (let s : State := srv ({ hb with dbg := { locked := true } }) 0 160 ([])
     let mb : Fin 16 := 0
     let i : BitVec 16 := 3
     let p : List Byte := []
     Runs s mb i 0xA0 [] p ∧ s.dbg.locked = true) ∧
    (let s : State := srv ({ hb with dbg := { locked := true } }) 0 161 (ub 1 4 0)
     let mb : Fin 16 := 0
     let i : BitVec 16 := 3
     let p : List Byte := ub 1 4 0
     let lv := leField p 4 1
     let form := lv ≤ 2 ∧ (lv = 0 → leField p 8 96 = 0)
     Runs s mb i 0xA1 [(0, 5, 0xFF), (6, 98, 0xFF)] p ∧ form ∧ s.dbg.locked = true) ∧
    (let s : State := srv ({ hb with dbg := { locked := true } }) 0 161 (ub 3 4 0)
     let mb : Fin 16 := 0
     let i : BitVec 16 := 3
     let p : List Byte := ub 3 4 0
     let lv := leField p 4 1
     let form := lv ≤ 2 ∧ (lv = 0 → leField p 8 96 = 0)
     Runs s mb i 0xA1 [(0, 5, 0xFF), (6, 98, 0xFF)] p ∧ ¬ form) ∧
    (let s : State := srv ({ hb with dbg := { challenge := true, seq := 4, fails := 2 } }) 0 161 (ub 1 4 0)
     let mb : Fin 16 := 0
     let i : BitVec 16 := 3
     let p : List Byte := ub 1 4 0
     let lv := leField p 4 1
     let form := lv ≤ 2 ∧ (lv = 0 → leField p 8 96 = 0)
     let opened := s.dbg.challenge = true ∧ s.dbg.seq.toNat = leField p 0 4 ∧ s.now < s.dbg.issuedAt + 1250000000
     Runs s mb i 0xA1 [(0, 5, 0xFF), (6, 98, 0xFF)] p ∧ form ∧ s.dbg.locked = false ∧ opened ∧ 1 ≤ lv) := by
  and_intros <;> (try dsimp only) <;>
    (and_intros <;> first | decide +kernel | (apply okOf; decide +kernel) | rfl | (left; decide +kernel) | exact uidNext | (apply exOf; decide +kernel) | (apply notExOf; decide +kernel) | (intro h; cases h) | simp [tableRows])

def hp : State := { hubbed base with mem := { layersOn := 5, layersUp := 0, cells := putBytes (putBytes [] 0x8000000 [1,2,3]) 0x300000100 [4, 5] }, cores := [(0, { on := true }), (2, { on := true, ob := [(3, 4)] }), (3, {run0 with colour := 3})], parts := [(3, { present := true, cores := 8, granules := [3] })] }
def hq : State := { hp with mem := { hp.mem with layersUp := 2, coresUp := 4 } }
def hr : State := { hp with mem := { hp.mem with coresUp := 4 } }
theorem witness_PowerPlansPowerLayersAndCores :
    (let s : State := srv (hp) 0 113 (leBytes 2 7 ++ leBytes 6 0 ++ leBytes 6 13 ++ [0, 0, 15])
     let mb : Fin 16 := 0
     let i : BitVec 16 := 3
     let p : List Byte := leBytes 2 7 ++ leBytes 6 0 ++ leBytes 6 13 ++ [0, 0, 15]
     let layers : BitVec 12 := BitVec.ofNat 12 (leField p 0 2)
     let cores : BitVec 48 := BitVec.ofNat 48 (leField p 8 6)
     let l : Fin 12 := 2
     Clocked s ∧ Runs s mb i 0x71 [(0, 1, 0xFF), (1, 1, 0x0F), (8, 6, 0xFF), (16, 1, 0x0F)] p ∧
     leField p 16 1 ≠ 0 ∧ planInUse s layers cores = false ∧ layers &&& ~~~ s.mem.layersOn ≠ 0 ∧
     bit s.mem.layersUp l.val = false) ∧
    (let s : State := hq
     let l : Fin 12 := 1
     let c : CoreId := 2
     Clocked s ∧ bit s.mem.layersUp l.val = true ∧
     (bit s.mem.coresUp c.val = false ∨ s.mem.layersUp ≠ 0)) ∧
    (let s : State := srv (hp) 0 113 (leBytes 2 7 ++ leBytes 6 0 ++ leBytes 6 13 ++ [0, 0, 0])
     let mb : Fin 16 := 0
     let i : BitVec 16 := 3
     let p : List Byte := leBytes 2 7 ++ leBytes 6 0 ++ leBytes 6 13 ++ [0, 0, 0]
     Clocked s ∧ Runs s mb i 0x71 [(0, 1, 0xFF), (1, 1, 0x0F), (8, 6, 0xFF), (16, 1, 0x0F)] p ∧
     leField p 16 1 = 0) ∧
    (let s : State := srv (hp) 0 113 (leBytes 2 7 ++ leBytes 6 0 ++ leBytes 6 5 ++ [0, 0, 15])
     let mb : Fin 16 := 0
     let i : BitVec 16 := 3
     let p : List Byte := leBytes 2 7 ++ leBytes 6 0 ++ leBytes 6 5 ++ [0, 0, 15]
     let layers : BitVec 12 := BitVec.ofNat 12 (leField p 0 2)
     let cores : BitVec 48 := BitVec.ofNat 48 (leField p 8 6)
     Clocked s ∧ Runs s mb i 0x71 [(0, 1, 0xFF), (1, 1, 0x0F), (8, 6, 0xFF), (16, 1, 0x0F)] p ∧
     leField p 16 1 ≠ 0 ∧ planInUse s layers cores = true) ∧
    (let s : State := srv (hp) 0 113 (leBytes 2 5 ++ leBytes 6 0 ++ leBytes 6 13 ++ [0, 0, 1])
     let mb : Fin 16 := 0
     let i : BitVec 16 := 3
     let p : List Byte := leBytes 2 5 ++ leBytes 6 0 ++ leBytes 6 13 ++ [0, 0, 1]
     let layers : BitVec 12 := BitVec.ofNat 12 (leField p 0 2)
     let cores : BitVec 48 := BitVec.ofNat 48 (leField p 8 6)
     Clocked s ∧ Runs s mb i 0x71 [(0, 1, 0xFF), (1, 1, 0x0F), (8, 6, 0xFF), (16, 1, 0x0F)] p ∧
     leField p 16 1 ≠ 0 ∧ planInUse s layers cores = false ∧ layers &&& ~~~ s.mem.layersOn = 0 ∧
     (∀ c : Nat, c < 48 → bit cores c = true → (s.core c).on = true) ∧
     (s.mailbox 0).accepted.length = 1) ∧
    (let s : State := hr
     let c : CoreId := 2
     Clocked s ∧ bit s.mem.coresUp c.val = true ∧ s.mem.layersUp = 0) := by
  and_intros <;> (try dsimp only) <;>
    decide +kernel

def pt2 : State := { hubbed base with mem := { layersOn := 5, cells := putBytes [] (cmBase 2) [1,2,3] }, cores := [(2, { on := true, ob := [(3, 4)] }), (3, {run0 with colour := 3}), (4, {on := true})], parts := [(3, { present := true, cores := 8, granules := [3], counters := 0x11, bookFirst := 2, bookCount := 3 })], counters := [(0, { valid := true, colour := 3 }), (4, { valid := true, colour := 3 })], windows := [(7, { valid := true, colour := 3, owner := 3 })], queues := [(5, { used := true, colour := 3, core := 3 })] , mailboxes := [(3, { st := .ready })] }
def pj : State := { pt2 with parts := [(3, { (pt2.part 3) with job := { id := 4, st := .running }})] }
def pl : State := { pt2 with parts := [(3, { (pt2.part 3) with lent := [(3, 5, 9)] })] }
def pr : State := { pt2 with parts := [(3, { (pt2.part 3) with resetting := true, resetBy := [(3, 9, 1)], destroying := false })], skovi := { up := true } }
def prq : State := { pr with reqs := [⟨1, 5, 3, .fence 3, none, some 0, none⟩] }
theorem witness_PartitionsAreCreatedResetAndDestroyed :
    (let s : State := srv (pt2) 0 96 ([4] ++ List.replicate 7 0 ++ leBytes 6 4 ++ [0,0] ++ leBytes 36 (1) ++ [5, 224])
     let mb : Fin 16 := 0
     let i : BitVec 16 := 3
     let p : List Byte := [4] ++ List.replicate 7 0 ++ leBytes 6 4 ++ [0,0] ++ leBytes 36 (1) ++ [5, 224]
     let col := leField p 0 1
     let cores : BitVec 48 := BitVec.ofNat 48 (leField p 8 6)
     let granules := bitsOf (leField p 16 36) 288
     let n := leField p 52 1
     let k := leField p 53 1
     let free := (∀ c ∈ bitsSet cores, s.ownerOf c = 0 ∧ (s.core c).on = true) ∧ ∀ g ∈ granules, s.granuleOwned g = false ∧ bit s.mem.layersOn (g / 24) = true
     let tooMany := 64 < (Partn.baseRegions { cores := cores, granules := granules }).length
     let first := (pt2.freeRun (224)).getD 0
     Runs s mb i 0x60 [(0, 1, 0x0F), (8, 6, 0xFF), (16, 38, 0xFF)] p ∧ col ≠ 0 ∧ n ≤ 128 ∧ k ≤ 224 ∧
     (s.part col).present = false ∧ free ∧ s.freeRun k = some first ∧ n ≤ s.freeCounters.length ∧
     ¬ tooMany) ∧
    (let s : State := srv (pt2) 0 96 ([0] ++ List.replicate 7 0 ++ leBytes 6 4 ++ [0,0] ++ leBytes 36 (1) ++ [5, 3])
     let mb : Fin 16 := 0
     let i : BitVec 16 := 3
     let p : List Byte := [0] ++ List.replicate 7 0 ++ leBytes 6 4 ++ [0,0] ++ leBytes 36 (1) ++ [5, 3]
     let col := leField p 0 1
     let n := leField p 52 1
     let k := leField p 53 1
     Runs s mb i 0x60 [(0, 1, 0x0F), (8, 6, 0xFF), (16, 38, 0xFF)] p ∧ (col = 0 ∨ 128 < n ∨ 224 < k)) ∧
    (let s : State := srv (pt2) 0 96 ([3] ++ List.replicate 7 0 ++ leBytes 6 4 ++ [0,0] ++ leBytes 36 (1) ++ [5, 3])
     let mb : Fin 16 := 0
     let i : BitVec 16 := 3
     let p : List Byte := [3] ++ List.replicate 7 0 ++ leBytes 6 4 ++ [0,0] ++ leBytes 36 (1) ++ [5, 3]
     let col := leField p 0 1
     let n := leField p 52 1
     let k := leField p 53 1
     Runs s mb i 0x60 [(0, 1, 0x0F), (8, 6, 0xFF), (16, 38, 0xFF)] p ∧ col ≠ 0 ∧ n ≤ 128 ∧ k ≤ 224 ∧
     (s.part col).present = true) ∧
    (let s : State := srv (pt2) 0 96 ([4] ++ List.replicate 7 0 ++ leBytes 6 8 ++ [0,0] ++ leBytes 36 (1) ++ [5, 3])
     let mb : Fin 16 := 0
     let i : BitVec 16 := 3
     let p : List Byte := [4] ++ List.replicate 7 0 ++ leBytes 6 8 ++ [0,0] ++ leBytes 36 (1) ++ [5, 3]
     let col := leField p 0 1
     let cores : BitVec 48 := BitVec.ofNat 48 (leField p 8 6)
     let granules := bitsOf (leField p 16 36) 288
     let n := leField p 52 1
     let k := leField p 53 1
     let free := (∀ c ∈ bitsSet cores, s.ownerOf c = 0 ∧ (s.core c).on = true) ∧ ∀ g ∈ granules, s.granuleOwned g = false ∧ bit s.mem.layersOn (g / 24) = true
     Runs s mb i 0x60 [(0, 1, 0x0F), (8, 6, 0xFF), (16, 38, 0xFF)] p ∧ col ≠ 0 ∧ n ≤ 128 ∧ k ≤ 224 ∧
     (s.part col).present = false ∧ ¬ free) ∧
    (let s : State := srv (pt2) 0 96 ([4] ++ List.replicate 7 0 ++ leBytes 6 20 ++ [0,0] ++ leBytes 36 (2^50) ++ [127, 219])
     let mb : Fin 16 := 0
     let i : BitVec 16 := 3
     let p : List Byte := [4] ++ List.replicate 7 0 ++ leBytes 6 20 ++ [0,0] ++ leBytes 36 (2^50) ++ [127, 219]
     let col := leField p 0 1
     let cores : BitVec 48 := BitVec.ofNat 48 (leField p 8 6)
     let granules := bitsOf (leField p 16 36) 288
     let n := leField p 52 1
     let k := leField p 53 1
     let free := (∀ c ∈ bitsSet cores, s.ownerOf c = 0 ∧ (s.core c).on = true) ∧ ∀ g ∈ granules, s.granuleOwned g = false ∧ bit s.mem.layersOn (g / 24) = true
     let tooMany := 64 < (Partn.baseRegions { cores := cores, granules := granules }).length
     Runs s mb i 0x60 [(0, 1, 0x0F), (8, 6, 0xFF), (16, 38, 0xFF)] p ∧ col ≠ 0 ∧ n ≤ 128 ∧ k ≤ 224 ∧
     (s.part col).present = false ∧ free ∧ (s.freeRun k = none ∨ s.freeCounters.length < n ∨ tooMany)) ∧
    (let s : State := srv (pt2) 0 97 ([3])
     let mb : Fin 16 := 0
     let i : BitVec 16 := 3
     let p : List Byte := [3]
     let col := leField p 0 1
     let lent := ∃ l ∈ (s.part col).lent, (s.die l.2.1.toNat).st = .verified
     Runs s mb i 0x61 [(0, 1, 0x0F)] p ∧ (s.part col).present = true ∧ ¬ lent ∧
     (s.part col).job.live = false) ∧
    (let s : State := srv (pt2) 0 97 ([4])
     let mb : Fin 16 := 0
     let i : BitVec 16 := 3
     let p : List Byte := [4]
     let col := leField p 0 1
     Runs s mb i 0x61 [(0, 1, 0x0F)] p ∧ (s.part col).present = false) ∧
    (let s : State := srv (pt2) 0 98 ([3])
     let mb : Fin 16 := 0
     let i : BitVec 16 := 3
     let p : List Byte := [3]
     let col := leField p 0 1
     Runs s mb i 0x62 [(0, 1, 0x0F)] p ∧ (s.part col).present = true ∧ (s.part col).resetting = false) ∧
    (let s : State := srv (pt2) 0 98 ([4])
     let mb : Fin 16 := 0
     let i : BitVec 16 := 3
     let p : List Byte := [4]
     let col := leField p 0 1
     Runs s mb i 0x62 [(0, 1, 0x0F)] p ∧ (s.part col).present = false) ∧
    (let s : State := srv (pj) 0 97 ([3])
     let mb : Fin 16 := 0
     let i : BitVec 16 := 3
     let p : List Byte := [3]
     let col := leField p 0 1
     let lent := ∃ l ∈ (s.part col).lent, (s.die l.2.1.toNat).st = .verified
     Runs s mb i 0x61 [(0, 1, 0x0F)] p ∧ (s.part col).present = true ∧ ¬ lent ∧
     (s.part col).job.live = true ∧ (s.part col).resetting = false) ∧
    (let s : State := srv (pl) 0 97 ([3])
     let mb : Fin 16 := 0
     let i : BitVec 16 := 3
     let p : List Byte := [3]
     let col := leField p 0 1
     let lent := ∃ l ∈ (s.part col).lent, (s.die l.2.1.toNat).st = .verified
     Runs s mb i 0x61 [(0, 1, 0x0F)] p ∧ (s.part col).present = true ∧ lent) ∧
    (let s : State := srv (pr) 0 98 ([3])
     let mb : Fin 16 := 0
     let i : BitVec 16 := 3
     let p : List Byte := [3]
     let col := leField p 0 1
     Runs s mb i 0x62 [(0, 1, 0x0F)] p ∧ (s.part col).present = true ∧ (s.part col).resetting = true) ∧
    (let s : State := pr
     let c : BitVec 4 := 3
     let x := s.part c.toNat
     Clocked s ∧ s.skovi.up = true ∧ x.resetting = true ∧ (∀ q ∈ s.reqs, q.colour ≠ c)) ∧
    (let s : State := prq
     let c : BitVec 4 := 3
     let x := s.part c.toNat
     Clocked s ∧ s.skovi.up = true ∧ (x.resetting = false ∨ ∃ q ∈ s.reqs, q.colour = c)) := by
  and_intros <;> (try dsimp only) <;>
    decide +kernel

def hdr : List Byte := [2 * 8, 1, 16, 0, 0, 0, 0, 0] ++ leBytes 4 1 ++ leBytes 4 0 ++ leBytes 8 (2^40 + 0x30000100) ++ leBytes 8 (2^40 + 0x30000200) ++ leBytes 8 0 ++ leBytes 8 (2^40 + 0x30000300) ++ leBytes 16 0
def hp2 : State := { hubbed base with mem := { layersOn := 0xFFF, cells := putBytes (putBytes [] 0x30000000 hdr) (cmBase 0 + 8) [7,1] }, cores := [(0, { run0 with colour := 3 })], parts := [(3, { present := true, cores := 5, granules := [3], indices := [(2, [1,2]), (7, [])], vectors := [(9, {count := 4, core := 1})] })], queues := [(5, { used := true, colour := 3, core := 0, base := cmBase 0 }), (6, { used := true, colour := 2 })] }
def pw (f : Partn → Partn) : State := { hp2 with parts := [(3, f (hp2.part 3))] }
def rl : Role := { number := 1, cores := 1, layers := 1, minWidth := 0, shareSha := 0, stepTime := 0, image := [], state := [], initCm := [], directory := none, entries := [], regions := [], windows := [], credits := [], counters := [], bookings := [], arrays := [], queues := [5], indices := [2], replica := none }
def mn : Manifest := { bytes := [1], sig := [0], digest := 9, modelDigest := 9, numerics := 0, accepts := [(0x0040, 0xB1, 0x0204)], roles := [rl] }
def im : Image := { digest := 9, st := .committed, man := mn, role := rl, need := 0, granules := [] }
def pu : State := pw (fun p => { p with images := [im] , job := { st := .running, digest := 9 } })
theorem witness_PartitionCommandsKeepTheirRecords :
    (let s : State := srv (hp2) 3 272 ([4,0,0,0,0,0,0,0] ++ leBytes 8 (cmBase 0) ++ [6,1])
     let mb : Fin 16 := 3
     let i : BitVec 16 := 3
     let p : List Byte := [4,0,0,0,0,0,0,0] ++ leBytes 8 (cmBase 0) ++ [6,1]
     let col := mb.val
     let x := s.part col
     let q := leField p 0 1
     let c := leField p 1 1
     let r : ReqQueue := { used := true, colour := BitVec.ofNat 4 col, core := c, base := leField p 8 8, entryLog2 := leField p 16 1, depthLog2 := leField p 17 1 }
     let good := c < 48 ∧ bit x.cores c = true ∧ 6 ≤ r.entryLog2 ∧ r.entryLog2 ≤ 12 ∧ 1 ≤ r.depthLog2 ∧ r.depthLog2 ≤ 12 ∧ cmBase c ≤ r.base ∧ r.base + (64 + 2 ^ r.depthLog2 * 2 ^ r.entryLog2) ≤ cmBase c + 0x600000
     let t : State := { s with queues := Table.set {} s.queues q r }
     Runs s mb i 0x110 [(0, 2, 0x3F), (8, 10, 0xFF)] p ∧ good ∧ (s.rqueue q).used = false ∧
     x.job.live = false ∧ (regionTable t col x).length ≤ 64) ∧
    (let s : State := srv (pu) 3 272 ([4,0,0,0,0,0,0,0] ++ leBytes 8 (cmBase 0) ++ [6,1])
     let mb : Fin 16 := 3
     let i : BitVec 16 := 3
     let p : List Byte := [4,0,0,0,0,0,0,0] ++ leBytes 8 (cmBase 0) ++ [6,1]
     let col := mb.val
     let x := s.part col
     let q := leField p 0 1
     let c := leField p 1 1
     let r : ReqQueue := { used := true, colour := BitVec.ofNat 4 col, core := c, base := leField p 8 8, entryLog2 := leField p 16 1, depthLog2 := leField p 17 1 }
     let good := c < 48 ∧ bit x.cores c = true ∧ 6 ≤ r.entryLog2 ∧ r.entryLog2 ≤ 12 ∧ 1 ≤ r.depthLog2 ∧ r.depthLog2 ≤ 12 ∧ cmBase c ≤ r.base ∧ r.base + (64 + 2 ^ r.depthLog2 * 2 ^ r.entryLog2) ≤ cmBase c + 0x600000
     Runs s mb i 0x110 [(0, 2, 0x3F), (8, 10, 0xFF)] p ∧ good ∧ (s.rqueue q).used = false ∧
     x.job.live = true) ∧
    (let s : State := srv (hp2) 3 272 ([5,0,0,0,0,0,0,0] ++ leBytes 8 (cmBase 0) ++ [6,1])
     let mb : Fin 16 := 3
     let i : BitVec 16 := 3
     let p : List Byte := [5,0,0,0,0,0,0,0] ++ leBytes 8 (cmBase 0) ++ [6,1]
     let col := mb.val
     let x := s.part col
     let q := leField p 0 1
     let c := leField p 1 1
     let r : ReqQueue := { used := true, colour := BitVec.ofNat 4 col, core := c, base := leField p 8 8, entryLog2 := leField p 16 1, depthLog2 := leField p 17 1 }
     let good := c < 48 ∧ bit x.cores c = true ∧ 6 ≤ r.entryLog2 ∧ r.entryLog2 ≤ 12 ∧ 1 ≤ r.depthLog2 ∧ r.depthLog2 ≤ 12 ∧ cmBase c ≤ r.base ∧ r.base + (64 + 2 ^ r.depthLog2 * 2 ^ r.entryLog2) ≤ cmBase c + 0x600000
     Runs s mb i 0x110 [(0, 2, 0x3F), (8, 10, 0xFF)] p ∧ good ∧ (s.rqueue q).used = true) ∧
    (let s : State := srv (hp2) 3 272 ([4,1,0,0,0,0,0,0] ++ leBytes 8 (cmBase 0) ++ [6,1])
     let mb : Fin 16 := 3
     let i : BitVec 16 := 3
     let p : List Byte := [4,1,0,0,0,0,0,0] ++ leBytes 8 (cmBase 0) ++ [6,1]
     let col := mb.val
     let x := s.part col
     let c := leField p 1 1
     let r : ReqQueue := { used := true, colour := BitVec.ofNat 4 col, core := c, base := leField p 8 8, entryLog2 := leField p 16 1, depthLog2 := leField p 17 1 }
     let good := c < 48 ∧ bit x.cores c = true ∧ 6 ≤ r.entryLog2 ∧ r.entryLog2 ≤ 12 ∧ 1 ≤ r.depthLog2 ∧ r.depthLog2 ≤ 12 ∧ cmBase c ≤ r.base ∧ r.base + (64 + 2 ^ r.depthLog2 * 2 ^ r.entryLog2) ≤ cmBase c + 0x600000
     Runs s mb i 0x110 [(0, 2, 0x3F), (8, 10, 0xFF)] p ∧ ¬ good) ∧
    (let s : State := srv ({ hp2 with queues := (List.range 62).map (fun k => (k+100, ({ used := true, colour := 3 } : ReqQueue))) , parts := [(3, { hp2.part 3 with granules := (List.range 64).map (fun k => 2*k) })] }) 3 272 ([4,0,0,0,0,0,0,0] ++ leBytes 8 (cmBase 0) ++ [6,1])
     let mb : Fin 16 := 3
     let i : BitVec 16 := 3
     let p : List Byte := [4,0,0,0,0,0,0,0] ++ leBytes 8 (cmBase 0) ++ [6,1]
     let col := mb.val
     let x := s.part col
     let q := leField p 0 1
     let c := leField p 1 1
     let r : ReqQueue := { used := true, colour := BitVec.ofNat 4 col, core := c, base := leField p 8 8, entryLog2 := leField p 16 1, depthLog2 := leField p 17 1 }
     let good := c < 48 ∧ bit x.cores c = true ∧ 6 ≤ r.entryLog2 ∧ r.entryLog2 ≤ 12 ∧ 1 ≤ r.depthLog2 ∧ r.depthLog2 ≤ 12 ∧ cmBase c ≤ r.base ∧ r.base + (64 + 2 ^ r.depthLog2 * 2 ^ r.entryLog2) ≤ cmBase c + 0x600000
     let t : State := { s with queues := Table.set {} s.queues q r }
     Runs s mb i 0x110 [(0, 2, 0x3F), (8, 10, 0xFF)] p ∧ good ∧ (s.rqueue q).used = false ∧
     x.job.live = false ∧ 64 < (regionTable t col x).length) ∧
    (let s : State := srv (hp2) 3 273 ([5,1] ++ leBytes 2 4)
     let mb : Fin 16 := 3
     let i : BitVec 16 := 3
     let p : List Byte := [5,1] ++ leBytes 2 4
     let col := mb.val
     let x := s.part col
     let q := leField p 0 1
     let rows := leField p 2 2
     let r := s.rqueue q
     let form := 1 ≤ rows ∧ rows ≤ 4096
     let mine := r.used = true ∧ r.colour.toNat = col
     let busy := x.declares (fun y => y.queues.contains (BitVec.ofNat 6 q)) = true
     Runs s mb i 0x111 [(0, 1, 0x3F), (1, 1, 0x01), (2, 2, 0xFF)] p ∧ form ∧ mine ∧ ¬ busy ∧
     leField p 1 1 = 1) ∧
    (let s : State := srv (pu) 3 273 ([5,1] ++ leBytes 2 4)
     let mb : Fin 16 := 3
     let i : BitVec 16 := 3
     let p : List Byte := [5,1] ++ leBytes 2 4
     let col := mb.val
     let x := s.part col
     let q := leField p 0 1
     let rows := leField p 2 2
     let r := s.rqueue q
     let form := 1 ≤ rows ∧ rows ≤ 4096
     let mine := r.used = true ∧ r.colour.toNat = col
     let busy := x.declares (fun y => y.queues.contains (BitVec.ofNat 6 q)) = true
     Runs s mb i 0x111 [(0, 1, 0x3F), (1, 1, 0x01), (2, 2, 0xFF)] p ∧ form ∧ mine ∧ busy) ∧
    (let s : State := srv (hp2) 3 273 ([5,0] ++ leBytes 2 4)
     let mb : Fin 16 := 3
     let i : BitVec 16 := 3
     let p : List Byte := [5,0] ++ leBytes 2 4
     let col := mb.val
     let x := s.part col
     let q := leField p 0 1
     let rows := leField p 2 2
     let r := s.rqueue q
     let form := 1 ≤ rows ∧ rows ≤ 4096
     let mine := r.used = true ∧ r.colour.toNat = col
     let busy := x.declares (fun y => y.queues.contains (BitVec.ofNat 6 q)) = true
     Runs s mb i 0x111 [(0, 1, 0x3F), (1, 1, 0x01), (2, 2, 0xFF)] p ∧ form ∧ mine ∧ ¬ busy ∧
     leField p 1 1 ≠ 1) ∧
    (let s : State := srv (hp2) 3 273 ([5,1] ++ leBytes 2 0)
     let mb : Fin 16 := 3
     let i : BitVec 16 := 3
     let p : List Byte := [5,1] ++ leBytes 2 0
     let rows := leField p 2 2
     let form := 1 ≤ rows ∧ rows ≤ 4096
     Runs s mb i 0x111 [(0, 1, 0x3F), (1, 1, 0x01), (2, 2, 0xFF)] p ∧ ¬ form) ∧
    (let s : State := srv (hp2) 3 304 ([2,0,0,0,0,0,0,0] ++ leBytes 8 (0x30000000))
     let mb : Fin 16 := 3
     let i : BitVec 16 := 3
     let p : List Byte := [2,0,0,0,0,0,0,0] ++ leBytes 8 (0x30000000)
     let col := mb.val
     let x := s.part col
     let n := leField p 0 1
     Runs s mb i 0x130 [(0, 1, 0x0F), (8, 8, 0xFF)] p ∧ s.mem.bad = [] ∧ s.mem.cmBad = [] ∧
     Table.get [] x.indices n ≠ []) ∧
    (let s : State := srv (hp2) 3 273 ([6,0] ++ leBytes 2 4)
     let mb : Fin 16 := 3
     let i : BitVec 16 := 3
     let p : List Byte := [6,0] ++ leBytes 2 4
     let col := mb.val
     let q := leField p 0 1
     let rows := leField p 2 2
     let r := s.rqueue q
     let form := 1 ≤ rows ∧ rows ≤ 4096
     let mine := r.used = true ∧ r.colour.toNat = col
     Runs s mb i 0x111 [(0, 1, 0x3F), (1, 1, 0x01), (2, 2, 0xFF)] p ∧ form ∧ ¬ mine) ∧
    (let s : State := srv (hp2) 3 304 ([3,0,0,0,0,0,0,0] ++ leBytes 8 (0x30000000))
     let mb : Fin 16 := 3
     let i : BitVec 16 := 3
     let p : List Byte := [3,0,0,0,0,0,0,0] ++ leBytes 8 (0x30000000)
     let col := mb.val
     let x := s.part col
     let n := leField p 0 1
     let a := leField p 8 8
     Runs s mb i 0x130 [(0, 1, 0x0F), (8, 8, 0xFF)] p ∧ Table.get [] x.indices n = [] ∧
     indexOk s col a = true) ∧
    (let s : State := srv (hp2) 3 304 ([3,0,0,0,0,0,0,0] ++ leBytes 8 (0x30000040))
     let mb : Fin 16 := 3
     let i : BitVec 16 := 3
     let p : List Byte := [3,0,0,0,0,0,0,0] ++ leBytes 8 (0x30000040)
     let col := mb.val
     let x := s.part col
     let n := leField p 0 1
     let a := leField p 8 8
     Runs s mb i 0x130 [(0, 1, 0x0F), (8, 8, 0xFF)] p ∧ Table.get [] x.indices n = [] ∧
     indexOk s col a = false) ∧
    (let s : State := srv (hp2) 3 305 ([2])
     let mb : Fin 16 := 3
     let i : BitVec 16 := 3
     let p : List Byte := [2]
     let col := mb.val
     let x := s.part col
     let n := leField p 0 1
     let busy := x.declares (fun y => y.indices.contains (BitVec.ofNat 4 n)) = true
     Runs s mb i 0x131 [(0, 1, 0x0F)] p ∧ Table.get [] x.indices n ≠ [] ∧ ¬ busy) ∧
    (let s : State := srv (pu) 3 305 ([2])
     let mb : Fin 16 := 3
     let i : BitVec 16 := 3
     let p : List Byte := [2]
     let col := mb.val
     let x := s.part col
     let n := leField p 0 1
     let busy := x.declares (fun y => y.indices.contains (BitVec.ofNat 4 n)) = true
     Runs s mb i 0x131 [(0, 1, 0x0F)] p ∧ Table.get [] x.indices n ≠ [] ∧ busy) ∧
    (let s : State := srv (hp2) 3 305 ([3])
     let mb : Fin 16 := 3
     let i : BitVec 16 := 3
     let p : List Byte := [3]
     let col := mb.val
     let x := s.part col
     let n := leField p 0 1
     Runs s mb i 0x131 [(0, 1, 0x0F)] p ∧ Table.get [] x.indices n = []) ∧
    (let s : State := srv (hp2) 3 320 ([9,1,0,0,0,0,0,0] ++ [1,2,63,0,0,0,0,0])
     let mb : Fin 16 := 3
     let i : BitVec 16 := 3
     let p : List Byte := [9,1,0,0,0,0,0,0] ++ [1,2,63,0,0,0,0,0]
     let col := mb.val
     let x := s.part col
     let first := leField p 0 1
     let n := leField p 1 1
     let entry := fun (k : Nat) => (p.drop (8 + 8 * k)).take 8
     let good := 1 ≤ n ∧ n ≤ 29 ∧ first + n ≤ 64 ∧ ∀ k, k < n → vectorBad x (entry k) = false
     Runs s mb i 0x140 [(0, 1, 0x3F), (1, 1, 0xFF), (8, 8 * Nat.min 29 (leField p 1 1), 0xFF)] p ∧
     good) ∧
    (let s : State := srv (hp2) 3 320 ([9,1,0,0,0,0,0,0] ++ [1,1,3,0,0,0,0,0])
     let mb : Fin 16 := 3
     let i : BitVec 16 := 3
     let p : List Byte := [9,1,0,0,0,0,0,0] ++ [1,1,3,0,0,0,0,0]
     let col := mb.val
     let x := s.part col
     let first := leField p 0 1
     let n := leField p 1 1
     let entry := fun (k : Nat) => (p.drop (8 + 8 * k)).take 8
     let good := 1 ≤ n ∧ n ≤ 29 ∧ first + n ≤ 64 ∧ ∀ k, k < n → vectorBad x (entry k) = false
     Runs s mb i 0x140 [(0, 1, 0x3F), (1, 1, 0xFF), (8, 8 * Nat.min 29 (leField p 1 1), 0xFF)] p ∧
     ¬ good) ∧
    (let s : State := srv (hp2) 3 336 ([0,0,3])
     let mb : Fin 16 := 3
     let i : BitVec 16 := 3
     let p : List Byte := [0,0,3]
     let mode := leField p 0 1
     let most := leField p 1 1
     let again := leField p 2 1
     let good := (mode = 0 ∧ most = 0 ∨ mode = 1 ∧ 1 ≤ most ∧ most ≤ 3) ∧ again ≤ 15
     Runs s mb i 0x150 [(0, 3, 0xFF)] p ∧ good) ∧
    (let s : State := srv (hp2) 3 336 ([1,4,2])
     let mb : Fin 16 := 3
     let i : BitVec 16 := 3
     let p : List Byte := [1,4,2]
     let mode := leField p 0 1
     let most := leField p 1 1
     let again := leField p 2 1
     let good := (mode = 0 ∧ most = 0 ∨ mode = 1 ∧ 1 ≤ most ∧ most ≤ 3) ∧ again ≤ 15
     Runs s mb i 0x150 [(0, 3, 0xFF)] p ∧ ¬ good) := by
  and_intros <;> (try dsimp only) <;>
    decide +kernel

def shr : List Byte := [5, 6, 7, 0, 9]
def rs : Role := { rl with shareSha := Config.sha384 shr, image := [⟨⟨0x30000003, 5⟩, true⟩], state := [⟨0x30000100, 16⟩], queues := [], indices := [] }
def stp (d role flags t : Nat) : List Byte := leBytes 32 d ++ [0,0x10,0,0,0,60,0,0] ++ leBytes 8 300 ++ [0,0x20,0,0,0,60,0,0] ++ leBytes 8 400 ++ [BitVec.ofNat 8 role, BitVec.ofNat 8 flags] ++ leBytes 6 0 ++ leBytes 8 t
def iz (st : ImageState) : Image := { im with st := st, role := rs, lends := [], granules := [3] }
def wk (s : State) (ph : Nat) (tr : List Transfer) (f : Cmd → Cmd) (fl le : Nat) : State := let t := work s 3 0x100 (stp 9 1 fl le) ph [1] tr; { t with mailboxes := t.mailboxes.map (fun x => (x.1, { x.2 with accepted := x.2.accepted.map f })) }
def ip (l : List Image) (j : Job) : State := pw (fun p => { p with images := l, job := j })
def rs2 : Role := { rl with shareSha := 0, image := [⟨⟨0x30000003, 5⟩, true⟩], state := [⟨0x30000100, 16⟩], queues := [], indices := [] }
def mf2 (f : Manifest → Manifest) (g : Role → Role) : Manifest := f { mn with roles := [g rs2] }
def iz2 (st : ImageState) : Image := { im with st := st, role := rs2, lends := [], granules := [3] }
theorem witness_ImagesAreStagedCommittedAndEvicted :
    (let s : State := srv (hp2) 3 256 (stp 9 1 0 0)
     let mb : Fin 16 := 3
     let i : BitVec 16 := 3
     let p : List Byte := stp 9 1 0 0
     let col := mb.val
     let x := s.part col
     let d : BitVec 256 := BitVec.ofNat 256 (leField p 0 32)
     let rm : BulkRef := { die := 60, addr := 0x1000, len := 300 }
     let rs : BulkRef := { die := 60, addr := 0x2000, len := 400 }
     Begins s mb i 0x100 ([(0, 32, 0xFF), (64, 1, 0x3F), (65, 1, 0x01), (66, 6, 0), (72, 8, 0xFF)] ++ bulkBits 32 ++ bulkBits 48) p ∧
     s.bulk p 32 = some rm ∧ s.bulk p 48 = some rs ∧ x.image d = none ∧ x.images.length < 4) ∧
    (let s : State := srv (ip [iz .staged] {}) 3 256 (stp 9 1 0 0)
     let mb : Fin 16 := 3
     let i : BitVec 16 := 3
     let p : List Byte := stp 9 1 0 0
     let col := mb.val
     let x := s.part col
     let d : BitVec 256 := BitVec.ofNat 256 (leField p 0 32)
     let rm : BulkRef := { die := 60, addr := 0x1000, len := 300 }
     let rs : BulkRef := { die := 60, addr := 0x2000, len := 400 }
     Begins s mb i 0x100 ([(0, 32, 0xFF), (64, 1, 0x3F), (65, 1, 0x01), (66, 6, 0), (72, 8, 0xFF)] ++ bulkBits 32 ++ bulkBits 48) p ∧
     s.bulk p 32 = some rm ∧ s.bulk p 48 = some rs ∧ (x.image d).isSome = true) ∧
    (let s : State := srv (ip (List.replicate 4 { iz .staged with digest := 8 }) {}) 3 256 (stp 9 1 0 0)
     let mb : Fin 16 := 3
     let i : BitVec 16 := 3
     let p : List Byte := stp 9 1 0 0
     let col := mb.val
     let x := s.part col
     let d : BitVec 256 := BitVec.ofNat 256 (leField p 0 32)
     let rm : BulkRef := { die := 60, addr := 0x1000, len := 300 }
     let rs : BulkRef := { die := 60, addr := 0x2000, len := 400 }
     Begins s mb i 0x100 ([(0, 32, 0xFF), (64, 1, 0x3F), (65, 1, 0x01), (66, 6, 0), (72, 8, 0xFF)] ++ bulkBits 32 ++ bulkBits 48) p ∧
     s.bulk p 32 = some rm ∧ s.bulk p 48 = some rs ∧ x.image d = none ∧ 4 ≤ x.images.length) ∧
    (let s : State := srv (hp2) 3 256 ((stp 9 1 0 0).set 37 61)
     let mb : Fin 16 := 3
     let i : BitVec 16 := 3
     let p : List Byte := (stp 9 1 0 0).set 37 61
     Begins s mb i 0x100 ([(0, 32, 0xFF), (64, 1, 0x3F), (65, 1, 0x01), (66, 6, 0), (72, 8, 0xFF)] ++ bulkBits 32 ++ bulkBits 48) p ∧
     (s.bulk p 32 = none ∨ s.bulk p 48 = none)) ∧
    (let s : State := wk (hp2) 1 [tran 3 false 1 1 1 false [1]] (id) 0 0
     let mb : Fin 16 := 3
     let i : BitVec 16 := 3
     let col := mb.val
     let c : Cmd := (s.atWork col i 0x100).getD { idx := 0, bytes := [] }
     Clocked s ∧ s.skovi.up = true ∧ s.atWork col i 0x100 = some c ∧ s.cmdReady col c = false) ∧
    (let s : State := wk (hp2) 1 [tran 3 false 1 1 0 true [1]] (id) 0 0
     let mb : Fin 16 := 3
     let i : BitVec 16 := 3
     let col := mb.val
     let c : Cmd := (s.atWork col i 0x100).getD { idx := 0, bytes := [] }
     Clocked s ∧ s.skovi.up = true ∧ s.atWork col i 0x100 = some c ∧ s.cmdReady col c = true ∧
     c.phase = 1 ∧ s.cmdFailed col c = true) ∧
    (let s : State := wk (hp2) 1 [tran 3 false 1 1 0 false [1]] (id) 0 0
     let mb : Fin 16 := 3
     let i : BitVec 16 := 3
     let col := mb.val
     let man : Option Manifest := none
     let c : Cmd := (s.atWork col i 0x100).getD { idx := 0, bytes := [] }
     Clocked s ∧ s.skovi.up = true ∧ s.atWork col i 0x100 = some c ∧ s.cmdReady col c = true ∧
     c.phase = 1 ∧ s.cmdFailed col c = false ∧ man = none) ∧
    (let s : State := wk (hp2) 1 [tran 3 false 1 1 0 false [1]] (id) 0 0
     let mb : Fin 16 := 3
     let i : BitVec 16 := 3
     let col := mb.val
     let man : Option Manifest := some (mf2 (fun m => { m with bytes := [2] }) id)
     let c : Cmd := (s.atWork col i 0x100).getD { idx := 0, bytes := [] }
     let m : Manifest := mf2 (fun m => { m with bytes := [2] }) id
     Clocked s ∧ s.skovi.up = true ∧ s.atWork col i 0x100 = some c ∧ s.cmdReady col c = true ∧
     c.phase = 1 ∧ s.cmdFailed col c = false ∧ man = some m ∧ m.bytes ≠ s.cmdBytes col c) ∧
    (let s : State := wk (ip [{ iz2 .staging with borrowed := 0x10000000 }] {}) 2 [] (fun c => { c with awaited := [5], replies := [(5, 0, [4])], asks := [] }) 0 0
     let mb : Fin 16 := 3
     let i : BitVec 16 := 3
     let col := mb.val
     let x := s.part col
     let c : Cmd := (s.atWork col i 0x100).getD { idx := 0, bytes := [] }
     let g : Image := { iz2 .staging with borrowed := 0x10000000 }
     let h := g.granted c.replies
     Clocked s ∧ s.skovi.up = true ∧ s.atWork col i 0x100 = some c ∧ s.cmdReady col c = true ∧
     x.image (digestOf c.payload) = some g ∧ c.phase = 2 ∧ h.wants = 0 ∧
     (s.bulk c.payload 48).isSome = true) ∧
    (let s : State := srv (hp2) 3 257 (leBytes 32 9)
     let mb : Fin 16 := 3
     let i : BitVec 16 := 3
     let p : List Byte := leBytes 32 9
     let col := mb.val
     let x := s.part col
     let d : BitVec 256 := BitVec.ofNat 256 (leField p 0 32)
     Runs s mb i 0x101 [(0, 32, 0xFF)] p ∧ x.image d = none) ∧
    (let s : State := srv (hp2) 3 258 (leBytes 32 9)
     let mb : Fin 16 := 3
     let i : BitVec 16 := 3
     let p : List Byte := leBytes 32 9
     let col := mb.val
     let x := s.part col
     let d : BitVec 256 := BitVec.ofNat 256 (leField p 0 32)
     Runs s mb i 0x102 [(0, 32, 0xFF)] p ∧ d ≠ 0 ∧ x.image d = none) ∧
    (let s : State := srv (hp2) 3 258 (leBytes 32 0)
     let mb : Fin 16 := 3
     let i : BitVec 16 := 3
     let p : List Byte := leBytes 32 0
     let d : BitVec 256 := BitVec.ofNat 256 (leField p 0 32)
     Runs s mb i 0x102 [(0, 32, 0xFF)] p ∧ d = 0) ∧
    (let s : State := srv (hp2) 3 259 (leBytes 32 9)
     let mb : Fin 16 := 3
     let i : BitVec 16 := 3
     let p : List Byte := leBytes 32 9
     let col := mb.val
     let x := s.part col
     let d : BitVec 256 := BitVec.ofNat 256 (leField p 0 32)
     Runs s mb i 0x103 [(0, 32, 0xFF)] p ∧ x.image d = none) ∧
    (let s : State := wk (ip [{ iz2 .staging with borrowed := 0x10000000 }] {}) 2 [] (fun c => { c with awaited := [5], replies := [(5, 0x0201, [])], asks := [] }) 0 0
     let mb : Fin 16 := 3
     let i : BitVec 16 := 3
     let col := mb.val
     let x := s.part col
     let c : Cmd := (s.atWork col i 0x100).getD { idx := 0, bytes := [] }
     let g : Image := { iz2 .staging with borrowed := 0x10000000 }
     let h := g.granted c.replies
     Clocked s ∧ s.skovi.up = true ∧ s.atWork col i 0x100 = some c ∧ s.cmdReady col c = true ∧
     x.image (digestOf c.payload) = some g ∧ c.phase = 2 ∧ h.wants ≠ 0 ∧ c.asks = []) ∧
    (let s : State := wk (ip [{ iz2 .staging with borrowed := 0x10000000 }] {}) 2 [] (fun c => { c with awaited := [5], replies := [(5, 0x0201, [])], asks := [5, 7] }) 0 0
     let mb : Fin 16 := 3
     let i : BitVec 16 := 3
     let col := mb.val
     let x := s.part col
     let c : Cmd := (s.atWork col i 0x100).getD { idx := 0, bytes := [] }
     let g : Image := { iz2 .staging with borrowed := 0x10000000 }
     let h := g.granted c.replies
     let e : Nat := 5
     let l : List Nat := [7]
     Clocked s ∧ s.skovi.up = true ∧ s.atWork col i 0x100 = some c ∧ s.cmdReady col c = true ∧
     x.image (digestOf c.payload) = some g ∧ c.phase = 2 ∧ h.wants ≠ 0 ∧ c.asks = e :: l) ∧
    (let s : State := wk (ip [iz2 .staging] {}) 3 [tran 3 false 5 5 0 true shr] (id) 0 0
     let mb : Fin 16 := 3
     let i : BitVec 16 := 3
     let col := mb.val
     let x := s.part col
     let c : Cmd := (s.atWork col i 0x100).getD { idx := 0, bytes := [] }
     let g : Image := iz2 .staging
     Clocked s ∧ s.skovi.up = true ∧ s.atWork col i 0x100 = some c ∧ s.cmdReady col c = true ∧
     x.image (digestOf c.payload) = some g ∧ c.phase = 3 ∧ s.cmdFailed col c = true) ∧
    (let s : State := wk (ip [iz2 .staging] {}) 4 [tran 3 true 5 5 0 false []] (id) 0 0
     let mb : Fin 16 := 3
     let i : BitVec 16 := 3
     let col := mb.val
     let x := s.part col
     let c : Cmd := (s.atWork col i 0x100).getD { idx := 0, bytes := [] }
     let g : Image := iz2 .staging
     Clocked s ∧ s.skovi.up = true ∧ s.atWork col i 0x100 = some c ∧ s.cmdReady col c = true ∧
     x.image (digestOf c.payload) = some g ∧ c.phase = 4 ∧ s.cmdFailed col c = false) ∧
    (let s : State := wk (ip [iz2 .staging] {}) 4 [tran 3 true 5 5 0 true []] (id) 0 0
     let mb : Fin 16 := 3
     let i : BitVec 16 := 3
     let col := mb.val
     let x := s.part col
     let c : Cmd := (s.atWork col i 0x100).getD { idx := 0, bytes := [] }
     let g : Image := iz2 .staging
     Clocked s ∧ s.skovi.up = true ∧ s.atWork col i 0x100 = some c ∧ s.cmdReady col c = true ∧
     x.image (digestOf c.payload) = some g ∧ c.phase = 4 ∧ s.cmdFailed col c = true) ∧
    (let s : State := srv (ip [iz2 .staged] {}) 3 257 (leBytes 32 9)
     let mb : Fin 16 := 3
     let i : BitVec 16 := 3
     let p : List Byte := leBytes 32 9
     let col := mb.val
     let x := s.part col
     let d : BitVec 256 := BitVec.ofNat 256 (leField p 0 32)
     let g := iz2 .staged
     let y : Partn := { x with images := x.images.map (fun h => if h.digest == d then { h with st := .committed } else h) }
     Runs s mb i 0x101 [(0, 32, 0xFF)] p ∧ x.image d = some g ∧ g.st = .staged ∧ x.job.live = false ∧
     (regionTable (s.setPart col y) col y).length ≤ 64) ∧
    (let s : State := srv (ip [iz2 .staged] {}) 3 258 (leBytes 32 9)
     let mb : Fin 16 := 3
     let i : BitVec 16 := 3
     let p : List Byte := leBytes 32 9
     let col := mb.val
     let x := s.part col
     let d : BitVec 256 := BitVec.ofNat 256 (leField p 0 32)
     let g := iz2 .staged
     Runs s mb i 0x102 [(0, 32, 0xFF)] p ∧ d ≠ 0 ∧ x.image d = some g) ∧
    (let s : State := srv (ip [iz2 .staged] {}) 3 259 (leBytes 32 9)
     let mb : Fin 16 := 3
     let i : BitVec 16 := 3
     let p : List Byte := leBytes 32 9
     let col := mb.val
     let x := s.part col
     let d : BitVec 256 := BitVec.ofNat 256 (leField p 0 32)
     let g := iz2 .staged
     Runs s mb i 0x103 [(0, 32, 0xFF)] p ∧ x.image d = some g ∧
     (x.job.live = false ∨ x.job.digest ≠ d)) ∧
    (let s : State := srv (ip [iz2 .committed] {}) 3 257 (leBytes 32 9)
     let mb : Fin 16 := 3
     let i : BitVec 16 := 3
     let p : List Byte := leBytes 32 9
     let col := mb.val
     let x := s.part col
     let d : BitVec 256 := BitVec.ofNat 256 (leField p 0 32)
     let g := iz2 .committed
     Runs s mb i 0x101 [(0, 32, 0xFF)] p ∧ x.image d = some g ∧ g.st ≠ .staged) ∧
    (let s : State := srv (ip [iz2 .staged] { st := .running }) 3 257 (leBytes 32 9)
     let mb : Fin 16 := 3
     let i : BitVec 16 := 3
     let p : List Byte := leBytes 32 9
     let col := mb.val
     let x := s.part col
     let d : BitVec 256 := BitVec.ofNat 256 (leField p 0 32)
     let g := iz2 .staged
     Runs s mb i 0x101 [(0, 32, 0xFF)] p ∧ x.image d = some g ∧ g.st = .staged ∧ x.job.live = true) ∧
    (let s : State := srv (ip [iz2 .committed] { st := .running, digest := 9 }) 3 259 (leBytes 32 9)
     let mb : Fin 16 := 3
     let i : BitVec 16 := 3
     let p : List Byte := leBytes 32 9
     let col := mb.val
     let x := s.part col
     let d : BitVec 256 := BitVec.ofNat 256 (leField p 0 32)
     let g := iz2 .committed
     Runs s mb i 0x103 [(0, 32, 0xFF)] p ∧ x.image d = some g ∧ x.job.live = true ∧ x.job.digest = d) ∧
    (let s : State := srv (pw (fun p => { p with images := [iz2 .staged], granules := (List.range 64).map (fun k => 2*k) })) 3 257 (leBytes 32 9)
     let mb : Fin 16 := 3
     let i : BitVec 16 := 3
     let p : List Byte := leBytes 32 9
     let col := mb.val
     let x := s.part col
     let d : BitVec 256 := BitVec.ofNat 256 (leField p 0 32)
     let g := iz2 .staged
     let y : Partn := { x with images := x.images.map (fun h => if h.digest == d then { h with st := .committed } else h) }
     Runs s mb i 0x101 [(0, 32, 0xFF)] p ∧ x.image d = some g ∧ g.st = .staged ∧ x.job.live = false ∧
     64 < (regionTable (s.setPart col y) col y).length) ∧
    (let s : State := wk (hp2) 1 [tran 3 false 1 1 0 false [1]] (id) 0 0
     let mb : Fin 16 := 3
     let i : BitVec 16 := 3
     let col := mb.val
     let man : Option Manifest := some (mf2 id id)
     let c : Cmd := (s.atWork col i 0x100).getD { idx := 0, bytes := [] }
     let m : Manifest := mf2 id id
     let x := s.part col
     let role := m.roles.find? (fun r => r.number.toNat == leField c.payload 64 1)
     let r : Role := ((mf2 id id).roles.head?.getD rl)
     let suits := (0x0040, 0xB1, 0x0204) ∈ m.accepts ∧ r.cores &&& ~~~ x.cores = 0 ∧ r.layers &&& ~~~ s.mem.layersOn = 0
     let need := roleNeed r
     let free := x.freeGranules.length * 0x10000000
     let gs := granulesFor (r.image.map (fun w => w.range) ++ r.state)
     Clocked s ∧ s.skovi.up = true ∧ s.atWork col i 0x100 = some c ∧ s.cmdReady col c = true ∧
     c.phase = 1 ∧ s.cmdFailed col c = false ∧ man = some m ∧ m.bytes = s.cmdBytes col c ∧
     m.digest = digestOf c.payload ∧ role = some r ∧ suits ∧ need ≤ free ∧
     (∀ k ∈ gs, k ∈ x.freeGranules) ∧ x.image m.digest = none ∧ (s.bulk c.payload 48).isSome = true) ∧
    (let s : State := wk (pw (fun p => { p with granules := [] })) 1 [tran 3 false 1 1 0 false [1]] (id) 0 0
     let mb : Fin 16 := 3
     let i : BitVec 16 := 3
     let col := mb.val
     let x := s.part col
     let man : Option Manifest := some (mf2 id id)
     let c : Cmd := (s.atWork col i 0x100).getD { idx := 0, bytes := [] }
     let m : Manifest := mf2 id id
     let role := m.roles.find? (fun r => r.number.toNat == leField c.payload 64 1)
     let r : Role := ((mf2 id id).roles.head?.getD rl)
     let suits := (0x0040, 0xB1, 0x0204) ∈ m.accepts ∧ r.cores &&& ~~~ x.cores = 0 ∧ r.layers &&& ~~~ s.mem.layersOn = 0
     let need := roleNeed r
     let free := x.freeGranules.length * 0x10000000
     Clocked s ∧ s.skovi.up = true ∧ s.atWork col i 0x100 = some c ∧ s.cmdReady col c = true ∧
     c.phase = 1 ∧ s.cmdFailed col c = false ∧ man = some m ∧ m.bytes = s.cmdBytes col c ∧
     m.digest = digestOf c.payload ∧ role = some r ∧ suits ∧ free < need ∧
     (leField c.payload 65 1 = 0 ∨ leField c.payload 72 8 = 0)) ∧
    (let s : State := wk (pw (fun p => { p with granules := [4] })) 1 [tran 3 false 1 1 0 false [1]] (id) 0 0
     let mb : Fin 16 := 3
     let i : BitVec 16 := 3
     let col := mb.val
     let x := s.part col
     let man : Option Manifest := some (mf2 id id)
     let c : Cmd := (s.atWork col i 0x100).getD { idx := 0, bytes := [] }
     let m : Manifest := mf2 id id
     let role := m.roles.find? (fun r => r.number.toNat == leField c.payload 64 1)
     let r : Role := ((mf2 id id).roles.head?.getD rl)
     let suits := (0x0040, 0xB1, 0x0204) ∈ m.accepts ∧ r.cores &&& ~~~ x.cores = 0 ∧ r.layers &&& ~~~ s.mem.layersOn = 0
     let need := roleNeed r
     let free := x.freeGranules.length * 0x10000000
     let gs := granulesFor (r.image.map (fun w => w.range) ++ r.state)
     Clocked s ∧ s.skovi.up = true ∧ s.atWork col i 0x100 = some c ∧ s.cmdReady col c = true ∧
     c.phase = 1 ∧ s.cmdFailed col c = false ∧ man = some m ∧ m.bytes = s.cmdBytes col c ∧
     m.digest = digestOf c.payload ∧ role = some r ∧ suits ∧ need ≤ free ∧
     (∃ k ∈ gs, k ∉ x.freeGranules)) ∧
    (let s : State := wk (hp2) 1 [tran 3 false 1 1 0 false [1]] (id) 0 0
     let mb : Fin 16 := 3
     let i : BitVec 16 := 3
     let col := mb.val
     let man : Option Manifest := some (mf2 (fun m => { m with digest := 8 }) id)
     let c : Cmd := (s.atWork col i 0x100).getD { idx := 0, bytes := [] }
     let m : Manifest := mf2 (fun m => { m with digest := 8 }) id
     Clocked s ∧ s.skovi.up = true ∧ s.atWork col i 0x100 = some c ∧ s.cmdReady col c = true ∧
     c.phase = 1 ∧ s.cmdFailed col c = false ∧ man = some m ∧ m.bytes = s.cmdBytes col c ∧
     m.digest ≠ digestOf c.payload) ∧
    (let s : State := wk (hp2) 1 [tran 3 false 1 1 0 false [1]] (id) 0 0
     let mb : Fin 16 := 3
     let i : BitVec 16 := 3
     let col := mb.val
     let man : Option Manifest := some (mf2 id (fun r => { r with number := 2 }))
     let c : Cmd := (s.atWork col i 0x100).getD { idx := 0, bytes := [] }
     let m : Manifest := mf2 id (fun r => { r with number := 2 })
     let role := m.roles.find? (fun r => r.number.toNat == leField c.payload 64 1)
     Clocked s ∧ s.skovi.up = true ∧ s.atWork col i 0x100 = some c ∧ s.cmdReady col c = true ∧
     c.phase = 1 ∧ s.cmdFailed col c = false ∧ man = some m ∧ m.bytes = s.cmdBytes col c ∧
     m.digest = digestOf c.payload ∧ role = none) ∧
    (let s : State := wk (hp2) 1 [tran 3 false 1 1 0 false [1]] (id) 0 0
     let mb : Fin 16 := 3
     let i : BitVec 16 := 3
     let col := mb.val
     let x := s.part col
     let man : Option Manifest := some (mf2 (fun m => {m with accepts := []}) id)
     let c : Cmd := (s.atWork col i 0x100).getD { idx := 0, bytes := [] }
     let m : Manifest := mf2 (fun m => {m with accepts := []}) id
     let role := m.roles.find? (fun r => r.number.toNat == leField c.payload 64 1)
     let r : Role := ((mf2 (fun m => {m with accepts := []}) id).roles.head?.getD rl)
     let suits := (0x0040, 0xB1, 0x0204) ∈ m.accepts ∧ r.cores &&& ~~~ x.cores = 0 ∧ r.layers &&& ~~~ s.mem.layersOn = 0
     Clocked s ∧ s.skovi.up = true ∧ s.atWork col i 0x100 = some c ∧ s.cmdReady col c = true ∧
     c.phase = 1 ∧ s.cmdFailed col c = false ∧ man = some m ∧ m.bytes = s.cmdBytes col c ∧
     m.digest = digestOf c.payload ∧ role = some r ∧ ¬ suits) ∧
    (let s : State := wk (ip [iz2 .staging] {}) 3 [tran 3 false 5 5 0 false shr] (id) 0 0
     let mb : Fin 16 := 3
     let i : BitVec 16 := 3
     let col := mb.val
     let x := s.part col
     let c : Cmd := (s.atWork col i 0x100).getD { idx := 0, bytes := [] }
     let g : Image := iz2 .staging
     Clocked s ∧ s.skovi.up = true ∧ s.atWork col i 0x100 = some c ∧ s.cmdReady col c = true ∧
     x.image (digestOf c.payload) = some g ∧ c.phase = 3 ∧ s.cmdFailed col c = false ∧ g.borrowed = 0) ∧
    (let s : State := wk (ip [{ iz2 .staging with borrowed := 2, lends := [⟨5, [4]⟩] }] {}) 3 [tran 3 false 5 5 0 false shr] (id) 0 0
     let mb : Fin 16 := 3
     let i : BitVec 16 := 3
     let col := mb.val
     let x := s.part col
     let c : Cmd := (s.atWork col i 0x100).getD { idx := 0, bytes := [] }
     let g : Image := { iz2 .staging with borrowed := 2, lends := [⟨5, [4]⟩] }
     Clocked s ∧ s.skovi.up = true ∧ s.atWork col i 0x100 = some c ∧ s.cmdReady col c = true ∧
     x.image (digestOf c.payload) = some g ∧ c.phase = 3 ∧ s.cmdFailed col c = false ∧ g.borrowed ≠ 0) := by
  and_intros <;> (try dsimp only) <;>
    (and_intros <;> first | decide +kernel | (apply okOf; decide +kernel) | rfl | (left; decide +kernel) | exact uidNext | (apply exOf; decide +kernel) | (apply notExOf; decide +kernel) | (intro h; cases h) | simp [tableRows])

def lc (d j m : Nat) : List Byte := leBytes 32 d ++ leBytes 4 j ++ leBytes 4 0 ++ leBytes 8 m
def rj : Role := { rs with entries := [(0, 0x8000000040)], cores := 5, stepTime := 100 }
def gj : Image := { iz .committed with role := rj }
def wj (s : State) (m : Nat) (f : Cmd → Cmd) : State := let t := work s 3 0x120 (lc 9 4 m) 1 [] []; { t with mailboxes := t.mailboxes.map (fun x => (x.1, { x.2 with accepted := x.2.accepted.map f })) }
def rrF : Repair := { own := true, todo := [(0xC00000, false)] }
def rrT : Repair := { own := true, todo := [(0xC00000, true)] }
def rtF (o : Nat) (b : Bool) (d : List Byte) : Transfer := { num := 1, who := .refetch 3 0xC00000 false, write := false, die := 5, addr := 0, len := 64, sent := 64, out := o, failed := b, got := [(0, d)] }
def rtT (o : Nat) (b : Bool) (d : List Byte) : Transfer := { rtF o b d with who := .refetch 3 0xC00000 true }
def kc : Core := { run0 with colour := 3, sregs := [(2, 5)], shadow := [(2, 9)], csr := { stepOpen := true, stepPc := 0x8000000080, stepFail := true, pc := 0x8000000100 }, st := .stepHalt }
def rj2 : Role := { rs2 with entries := [(0, 0x8000000040)], cores := 5, stepTime := 100 }
def gj2 : Image := { iz2 .committed with role := rj2 }
theorem witness_JobsLaunchReplayAndAbort :
    (let s : State := srv (hp2) 3 288 (lc 9 4 2)
     let mb : Fin 16 := 3
     let i : BitVec 16 := 3
     let p : List Byte := lc 9 4 2
     let col := mb.val
     let x := s.part col
     let d : BitVec 256 := BitVec.ofNat 256 (leField p 0 32)
     Begins s mb i 0x120 [(0, 36, 0xFF), (40, 8, 0xFF)] p ∧ x.image d = none) ∧
    (let s : State := wj (ip [gj] {}) 34 (fun c => { c with awaited := [5] })
     let mb : Fin 16 := 3
     let i : BitVec 16 := 3
     let col := mb.val
     let c : Cmd := (s.atWork col i 0x120).getD { idx := 0, bytes := [] }
     Clocked s ∧ s.skovi.up = true ∧ s.atWork col i 0x120 = some c ∧ s.cmdReady col c = false) ∧
    (let s : State := srv (ip [gj2] {}) 3 288 (lc 9 4 2)
     let mb : Fin 16 := 3
     let i : BitVec 16 := 3
     let p : List Byte := lc 9 4 2
     let col := mb.val
     let x := s.part col
     let d : BitVec 256 := BitVec.ofNat 256 (leField p 0 32)
     let dies : Word := BitVec.ofNat 64 (leField p 40 8)
     let far := (bitsSet dies).filter (fun e => e != s.ownId.toNat)
     let g := gj2
     Begins s mb i 0x120 [(0, 36, 0xFF), (40, 8, 0xFF)] p ∧ x.image d = some g ∧ g.st = .committed ∧
     x.job.live = false ∧ bit dies s.ownId.toNat = true ∧ field dies 60 4 = 0 ∧ s.diesOk dies = true ∧
     far = []) ∧
    (let s : State := srv (ip [gj2] {}) 3 288 (lc 9 4 34)
     let mb : Fin 16 := 3
     let i : BitVec 16 := 3
     let p : List Byte := lc 9 4 34
     let col := mb.val
     let x := s.part col
     let d : BitVec 256 := BitVec.ofNat 256 (leField p 0 32)
     let dies : Word := BitVec.ofNat 64 (leField p 40 8)
     let far := (bitsSet dies).filter (fun e => e != s.ownId.toNat)
     let g := gj2
     Begins s mb i 0x120 [(0, 36, 0xFF), (40, 8, 0xFF)] p ∧ x.image d = some g ∧ g.st = .committed ∧
     x.job.live = false ∧ bit dies s.ownId.toNat = true ∧ field dies 60 4 = 0 ∧ s.diesOk dies = true ∧
     far ≠ []) ∧
    (let s : State := srv (ip [gj2] {}) 3 288 (lc 9 4 66)
     let mb : Fin 16 := 3
     let i : BitVec 16 := 3
     let p : List Byte := lc 9 4 66
     let col := mb.val
     let x := s.part col
     let d : BitVec 256 := BitVec.ofNat 256 (leField p 0 32)
     let dies : Word := BitVec.ofNat 64 (leField p 40 8)
     let g := gj2
     Begins s mb i 0x120 [(0, 36, 0xFF), (40, 8, 0xFF)] p ∧ x.image d = some g ∧ g.st = .committed ∧
     x.job.live = false ∧ bit dies s.ownId.toNat = true ∧ field dies 60 4 = 0 ∧ s.diesOk dies = false) ∧
    (let s : State := srv (ip [gj2] {}) 3 288 (lc 9 4 0)
     let mb : Fin 16 := 3
     let i : BitVec 16 := 3
     let p : List Byte := lc 9 4 0
     let col := mb.val
     let x := s.part col
     let d : BitVec 256 := BitVec.ofNat 256 (leField p 0 32)
     let dies : Word := BitVec.ofNat 64 (leField p 40 8)
     let g := gj2
     Begins s mb i 0x120 [(0, 36, 0xFF), (40, 8, 0xFF)] p ∧ x.image d = some g ∧ g.st = .committed ∧
     x.job.live = false ∧ (bit dies s.ownId.toNat = false ∨ field dies 60 4 ≠ 0)) ∧
    (let s : State := srv (ip [{ gj2 with st := .staged }] {}) 3 288 (lc 9 4 2)
     let mb : Fin 16 := 3
     let i : BitVec 16 := 3
     let p : List Byte := lc 9 4 2
     let col := mb.val
     let x := s.part col
     let d : BitVec 256 := BitVec.ofNat 256 (leField p 0 32)
     let g := { gj2 with st := .staged }
     Begins s mb i 0x120 [(0, 36, 0xFF), (40, 8, 0xFF)] p ∧ x.image d = some g ∧ g.st ≠ .committed) ∧
    (let s : State := srv (ip [gj2] { st := .running, digest := 9 }) 3 288 (lc 9 4 2)
     let mb : Fin 16 := 3
     let i : BitVec 16 := 3
     let p : List Byte := lc 9 4 2
     let col := mb.val
     let x := s.part col
     let d : BitVec 256 := BitVec.ofNat 256 (leField p 0 32)
     let g := gj2
     Begins s mb i 0x120 [(0, 36, 0xFF), (40, 8, 0xFF)] p ∧ x.image d = some g ∧ g.st = .committed ∧
     x.job.live = true) ∧
    (let s : State := wj (ip [gj2] {}) 34 (fun c => { c with awaited := [5], replies := [(5, 0, [])] })
     let mb : Fin 16 := 3
     let i : BitVec 16 := 3
     let col := mb.val
     let x := s.part col
     let c : Cmd := (s.atWork col i 0x120).getD { idx := 0, bytes := [] }
     let tests : List ArrayReport := []
     let d : BitVec 256 := BitVec.ofNat 256 (leField c.payload 0 32)
     let dies : Word := BitVec.ofNat 64 (leField c.payload 40 8)
     let away := s.diesOk dies = false ∨ ∃ r ∈ c.replies, r.2.1 = 0x0301
     let refused := ∃ r ∈ c.replies, r.2.1 ≠ 0
     let g := gj2
     let lenders := ∀ l ∈ g.lends, bit dies l.die.toNat = true
     let u := checkArrays (retestArrays s g tests)
     Clocked s ∧ s.skovi.up = true ∧ s.atWork col i 0x120 = some c ∧ s.cmdReady col c = true ∧
     x.image d = some g ∧ ¬ away ∧ ¬ refused ∧ lenders ∧ launchRest u col g = 0) ∧
    (let s : State := wj (ip [gj2] {}) 34 (fun c => { c with awaited := [5], replies := [(5, 0x0301, [])] })
     let mb : Fin 16 := 3
     let i : BitVec 16 := 3
     let col := mb.val
     let x := s.part col
     let c : Cmd := (s.atWork col i 0x120).getD { idx := 0, bytes := [] }
     let d : BitVec 256 := BitVec.ofNat 256 (leField c.payload 0 32)
     let dies : Word := BitVec.ofNat 64 (leField c.payload 40 8)
     let away := s.diesOk dies = false ∨ ∃ r ∈ c.replies, r.2.1 = 0x0301
     let g := gj2
     Clocked s ∧ s.skovi.up = true ∧ s.atWork col i 0x120 = some c ∧ s.cmdReady col c = true ∧
     x.image d = some g ∧ away) ∧
    (let s : State := wj (ip [gj2] {}) 34 (fun c => { c with awaited := [5], replies := [(5, 0x0204, [])] })
     let mb : Fin 16 := 3
     let i : BitVec 16 := 3
     let col := mb.val
     let x := s.part col
     let c : Cmd := (s.atWork col i 0x120).getD { idx := 0, bytes := [] }
     let d : BitVec 256 := BitVec.ofNat 256 (leField c.payload 0 32)
     let dies : Word := BitVec.ofNat 64 (leField c.payload 40 8)
     let away := s.diesOk dies = false ∨ ∃ r ∈ c.replies, r.2.1 = 0x0301
     let refused := ∃ r ∈ c.replies, r.2.1 ≠ 0
     let g := gj2
     Clocked s ∧ s.skovi.up = true ∧ s.atWork col i 0x120 = some c ∧ s.cmdReady col c = true ∧
     x.image d = some g ∧ ¬ away ∧ refused) ∧
    (let s : State := wj (ip [{ gj2 with borrowed := 3, lends := [⟨5, [4]⟩] }] {}) 2 (id)
     let mb : Fin 16 := 3
     let i : BitVec 16 := 3
     let col := mb.val
     let x := s.part col
     let c : Cmd := (s.atWork col i 0x120).getD { idx := 0, bytes := [] }
     let d : BitVec 256 := BitVec.ofNat 256 (leField c.payload 0 32)
     let dies : Word := BitVec.ofNat 64 (leField c.payload 40 8)
     let away := s.diesOk dies = false ∨ ∃ r ∈ c.replies, r.2.1 = 0x0301
     let refused := ∃ r ∈ c.replies, r.2.1 ≠ 0
     let g := { gj2 with borrowed := 3, lends := [⟨5, [4]⟩] }
     let lenders := ∀ l ∈ g.lends, bit dies l.die.toNat = true
     Clocked s ∧ s.skovi.up = true ∧ s.atWork col i 0x120 = some c ∧ s.cmdReady col c = true ∧
     x.image d = some g ∧ ¬ away ∧ ¬ refused ∧ ¬ lenders) ∧
    (let s : State := wj (ip [{ gj2 with role := { rj2 with queues := [5] } }] {}) 2 (id)
     let mb : Fin 16 := 3
     let i : BitVec 16 := 3
     let col := mb.val
     let x := s.part col
     let c : Cmd := (s.atWork col i 0x120).getD { idx := 0, bytes := [] }
     let tests : List ArrayReport := []
     let d : BitVec 256 := BitVec.ofNat 256 (leField c.payload 0 32)
     let dies : Word := BitVec.ofNat 64 (leField c.payload 40 8)
     let away := s.diesOk dies = false ∨ ∃ r ∈ c.replies, r.2.1 = 0x0301
     let refused := ∃ r ∈ c.replies, r.2.1 ≠ 0
     let g := { gj2 with role := { rj2 with queues := [5] } }
     let lenders := ∀ l ∈ g.lends, bit dies l.die.toNat = true
     let u := checkArrays (retestArrays s g tests)
     Clocked s ∧ s.skovi.up = true ∧ s.atWork col i 0x120 = some c ∧ s.cmdReady col c = true ∧
     x.image d = some g ∧ ¬ away ∧ ¬ refused ∧ lenders ∧ launchRest u col g ≠ 0) ∧
    (let s : State := srv (hp2) 3 290 (leBytes 4 0)
     let mb : Fin 16 := 3
     let i : BitVec 16 := 3
     let p : List Byte := leBytes 4 0
     let col := mb.val
     let x := s.part col
     Runs s mb i 0x122 [(0, 4, 0xFF)] p ∧ (leField p 0 4 = 0 ∨ x.job.id.toNat = leField p 0 4)) ∧
    (let s : State := srv (hp2) 3 289 (leBytes 4 4)
     let mb : Fin 16 := 3
     let i : BitVec 16 := 3
     let p : List Byte := leBytes 4 4
     let col := mb.val
     let x := s.part col
     Runs s mb i 0x121 [(0, 4, 0xFF)] p ∧ (x.job.live = false ∨ x.job.id.toNat ≠ leField p 0 4)) ∧
    (let s : State := srv (hp2) 3 290 (leBytes 4 4)
     let mb : Fin 16 := 3
     let i : BitVec 16 := 3
     let p : List Byte := leBytes 4 4
     let col := mb.val
     let x := s.part col
     Runs s mb i 0x122 [(0, 4, 0xFF)] p ∧ leField p 0 4 ≠ 0 ∧ x.job.id.toNat ≠ leField p 0 4) ∧
    (let s : State := srv (ip [gj] { st := .running, id := 4, digest := 9, launchStroke := 7, replays := 5 }) 3 289 (leBytes 4 4)
     let mb : Fin 16 := 3
     let i : BitVec 16 := 3
     let p : List Byte := leBytes 4 4
     let col := mb.val
     let x := s.part col
     Runs s mb i 0x121 [(0, 4, 0xFF)] p ∧ x.job.live = true ∧ x.job.id.toNat = leField p 0 4) ∧
    (let s : State := srv (hp2) 3 352 ([5,0,0,0,0,0,0,0] ++ ([0,0x10,0,0,0,60,0,0] ++ leBytes 8 300))
     let mb : Fin 16 := 3
     let i : BitVec 16 := 3
     let p : List Byte := [5,0,0,0,0,0,0,0] ++ ([0,0x10,0,0,0,60,0,0] ++ leBytes 8 300)
     Begins s mb i 0x160 ((0, 1, 0xFF) :: bulkBits 8) p ∧ (s.bulk p 8 = none ∨ 4 ≤ leField p 0 1)) ∧
    (let s : State := srv (hp2) 3 352 ([3,0,0,0,0,0,0,0] ++ ([0,0x10,0,0,0,60,0,0] ++ leBytes 8 300))
     let mb : Fin 16 := 3
     let i : BitVec 16 := 3
     let p : List Byte := [3,0,0,0,0,0,0,0] ++ ([0,0x10,0,0,0,60,0,0] ++ leBytes 8 300)
     let r := ({ die := 60, addr := 0x1000, len := 300 } : BulkRef)
     Begins s mb i 0x160 ((0, 1, 0xFF) :: bulkBits 8) p ∧ s.bulk p 8 = some r ∧ leField p 0 1 < 4) ∧
    (let s : State := work hp2 3 0x160 [] 1 [7, 8] [tran 3 true 5 5 1 false []]
     let mb : Fin 16 := 3
     let i : BitVec 16 := 3
     let col := mb.val
     let c : Cmd := (s.atWork col i 0x160).getD { idx := 0, bytes := [] }
     Clocked s ∧ s.skovi.up = true ∧ s.atWork col i 0x160 = some c ∧ s.cmdReady col c = false) ∧
    (let s : State := work hp2 3 0x160 [] 1 [7, 8] [tran 3 true 5 5 0 true []]
     let mb : Fin 16 := 3
     let i : BitVec 16 := 3
     let col := mb.val
     let c : Cmd := (s.atWork col i 0x160).getD { idx := 0, bytes := [] }
     Clocked s ∧ s.skovi.up = true ∧ s.atWork col i 0x160 = some c ∧ s.cmdReady col c = true ∧
     s.cmdFailed col c = true) ∧
    (let s : State := work hp2 3 0x160 [] 1 [7, 8] [tran 3 true 5 5 0 false []]
     let mb : Fin 16 := 3
     let i : BitVec 16 := 3
     let col := mb.val
     let c : Cmd := (s.atWork col i 0x160).getD { idx := 0, bytes := [] }
     Clocked s ∧ s.skovi.up = true ∧ s.atWork col i 0x160 = some c ∧ s.cmdReady col c = true ∧
     s.cmdFailed col c = false) ∧
    (let s : State := { srv ((ip [gj] ({ st := .running, digest := 9, failed := true })).modPart 3 (fun p => { p with replay := true, maxReplay := 2 })) 3 0x121 [] with cores := [(0, kc), (2, kc)]  }
     let c : BitVec 4 := 3
     let y := s.part c.toNat
     let cs := s.jobCores c.toNat
     let failed := y.job.live = true ∧ y.job.failed = true ∧ y.resetting = false
     let again := y.replay = true ∧ y.job.stepReplays < y.maxReplay
     Clocked s ∧ s.skovi.up = true ∧ (∀ e ∈ s.skovi.rowHits, e.2 < 3) ∧ failed ∧ y.repair = none ∧
     y.job.fromWatch = false ∧ s.log.capq = [] ∧ s.log.waiting = [] ∧ s.skovi.records = [] ∧
     (∀ k ∈ cs, (s.core k).settledStep) ∧ again) ∧
    (let s : State := { srv ((ip [gj] ({ st := .running, digest := 9, failed := true })).modPart 3 (fun p => { p with replay := true, maxReplay := 2 })) 3 0x121 [] with cores := [(0, kc), (2, kc)] , log := { capq := [{ code := 0x0300 }] } }
     let c : BitVec 4 := 3
     let y := s.part c.toNat
     Clocked s ∧ s.skovi.up = true ∧ (∀ e ∈ s.skovi.rowHits, e.2 < 3) ∧ y.repair = none ∧
     (s.log.capq ≠ [] ∨ s.log.waiting ≠ [])) ∧
    (let s : State := { srv ((ip [gj] ({ st := .running, digest := 9, failed := true })).modPart 3 (fun p => { p with replay := false, maxReplay := 0 })) 3 0x121 [] with cores := [(0, kc), (2, kc)]  }
     let c : BitVec 4 := 3
     let y := s.part c.toNat
     let cs := s.jobCores c.toNat
     let failed := y.job.live = true ∧ y.job.failed = true ∧ y.resetting = false
     let again := y.replay = true ∧ y.job.stepReplays < y.maxReplay
     Clocked s ∧ s.skovi.up = true ∧ (∀ e ∈ s.skovi.rowHits, e.2 < 3) ∧ failed ∧ y.repair = none ∧
     y.job.fromWatch = false ∧ s.log.capq = [] ∧ s.log.waiting = [] ∧ s.skovi.records = [] ∧
     (∀ k ∈ cs, (s.core k).settledStep) ∧ ¬ again) ∧
    (let s : State := (let q := srv ((ip [gj] ({ st := .running, digest := 9, failed := true })).modPart 3 (fun p => { p with replay := true, maxReplay := 2, repair := some rrF })) 3 0x121 []; { q with cores := [(0, kc), (2, kc)], skovi := { q.skovi with transfers := [rtF 1 false []] } })
     let c : BitVec 4 := 3
     let y := s.part c.toNat
     let failed := y.job.live = true ∧ y.job.failed = true ∧ y.resetting = false
     let r : Repair := rrF
     let g : Nat := 0xC00000
     let golden : Bool := false
     let f : Transfer := rtF 1 false []
     Clocked s ∧ s.skovi.up = true ∧ (∀ e ∈ s.skovi.rowHits, e.2 < 3) ∧ failed ∧ y.repair = some r ∧
     r.failed = false ∧ r.todo = [(g, golden)] ∧ s.transfersOf (.refetch c.toNat g golden) = [f] ∧
     f.done = false) ∧
    (let s : State := (let q := srv ((ip [gj] ({ st := .running, digest := 9, failed := true })).modPart 3 (fun p => { p with replay := true, maxReplay := 2, repair := some rrF })) 3 0x121 []; { q with cores := [(0, kc), (2, kc)], skovi := { q.skovi with transfers := [rtF 0 false [9,8]] } })
     let c : BitVec 4 := 3
     let y := s.part c.toNat
     let cs := s.jobCores c.toNat
     let failed := y.job.live = true ∧ y.job.failed = true ∧ y.resetting = false
     let again := y.replay = true ∧ y.job.stepReplays < y.maxReplay
     let r : Repair := rrF
     let g : Nat := 0xC00000
     let golden : Bool := false
     let f : Transfer := rtF 0 false [9,8]
     Clocked s ∧ s.skovi.up = true ∧ (∀ e ∈ s.skovi.rowHits, e.2 < 3) ∧ failed ∧ y.repair = some r ∧
     r.failed = false ∧ r.todo = [(g, golden)] ∧ s.transfersOf (.refetch c.toNat g golden) = [f] ∧
     f.done = true ∧ f.failed = false ∧ again ∧
     (∀ k ∈ cs, (s.core k).chans = [] ∧ (s.core k).credits = [])) ∧
    (let s : State := (let q := srv ((ip [gj] ({ st := .running, digest := 9, failed := true })).modPart 3 (fun p => { p with replay := true, maxReplay := 2, repair := some rrF })) 3 0x121 []; { q with cores := [(0, kc), (2, kc)], skovi := { q.skovi with transfers := [rtF 0 true []] } })
     let c : BitVec 4 := 3
     let y := s.part c.toNat
     let failed := y.job.live = true ∧ y.job.failed = true ∧ y.resetting = false
     let r : Repair := rrF
     let g : Nat := 0xC00000
     let golden : Bool := false
     let f : Transfer := rtF 0 true []
     Clocked s ∧ s.skovi.up = true ∧ (∀ e ∈ s.skovi.rowHits, e.2 < 3) ∧ failed ∧ y.repair = some r ∧
     r.failed = false ∧ r.todo = [(g, golden)] ∧ s.transfersOf (.refetch c.toNat g golden) = [f] ∧
     f.done = true ∧ f.failed = true ∧ golden = false ∧ (s.transfersOf (.refetch c.toNat g true)) = []) ∧
    (let s : State := (let q := srv ((ip [gj] ({ st := .running, digest := 9, failed := true })).modPart 3 (fun p => { p with replay := true, maxReplay := 2, repair := some rrT })) 3 0x121 []; { q with cores := [(0, kc), (2, kc)], skovi := { q.skovi with transfers := [rtT 0 true []] } })
     let c : BitVec 4 := 3
     let y := s.part c.toNat
     let failed := y.job.live = true ∧ y.job.failed = true ∧ y.resetting = false
     let r : Repair := rrT
     let g : Nat := 0xC00000
     let golden : Bool := true
     let f : Transfer := rtT 0 true []
     Clocked s ∧ s.skovi.up = true ∧ (∀ e ∈ s.skovi.rowHits, e.2 < 3) ∧ failed ∧ y.repair = some r ∧
     r.failed = false ∧ r.todo = [(g, golden)] ∧ s.transfersOf (.refetch c.toNat g golden) = [f] ∧
     f.done = true ∧ f.failed = true ∧ golden = true) ∧
    (let s : State := { srv ((ip [gj] ({ st := .running, digest := 9 })).modPart 3 (fun p => { p with replay := true, maxReplay := 2 })) 3 0x121 [] with cores := [(0, kc), (2, kc)]  }
     let c : BitVec 4 := 3
     let y := s.part c.toNat
     let failed := y.job.live = true ∧ y.job.failed = true ∧ y.resetting = false
     Clocked s ∧ s.skovi.up = true ∧ (∀ e ∈ s.skovi.rowHits, e.2 < 3) ∧ ¬ failed) := by
  and_intros <;> (try dsimp only) <;>
    (and_intros <;> first | decide +kernel | (apply okOf; decide +kernel) | rfl | (left; decide +kernel) | exact uidNext | (apply exOf; decide +kernel) | (apply notExOf; decide +kernel) | (intro h; cases h) | simp [tableRows])

def fm (t : Byte) (seq : Nat) (b : List Byte) : Msg := { src := 5, dst := 1, colour := 0, op := 6, addr := 0, tag := 0, win := 0, winv := false, status := 0, ll := false, data := [t, 3] ++ leBytes 2 seq ++ leBytes 4 4 ++ b, bad := false }
def sF (j : Job) (f : Partn → Partn) (k : Skovi) : State := { srv (pw (fun p => f { p with job := j })) 3 0 [] with skovi := { k with up := true }, now := 5000000, senders := [{ win := 7, die := 5, core := 2, share := 4, granted := 9, settled := 8, returned := 7, snap := [1,1,1], lastD := some (1, [], 0) }] }
def pq0 (t : Byte) (n : Nat) : PeerReq := { die := 5, seqno := 8, mtype := t, body := [1,2], colour := 3, jobId := 4, resends := n, sentAt := 100 }
theorem witness_FirmwareMessagesAreAnsweredOnce :
    (let s : State := sF ({ st := .running, id := 4, dieSet := 0x22, digest := 9 }) (id) ({ auditStroke := 60 })
     let m : Msg := (fm 0x31 8 (leBytes 32 9 ++ leBytes 2 1))
     let t := leField m.data 0 1
     let col := leField m.data 1 1 % 16
     let seq : BitVec 16 := BitVec.ofNat 16 (leField m.data 2 2)
     let p := s.part col
     Clocked s ∧ s.skovi.up = true ∧ s.arrived = [] ∧ t ≠ 0x30 ∧ s.forMailbox m = false ∧
     peerOk m = true ∧ (s.skovi.replies.find? (fun y => y.1 == m.src && y.2.1 == seq) = none) ∧
     t = 0x31 ∧ p.present = true) ∧
    (let s : State := sF ({ st := .running, id := 4, dieSet := 0x22, digest := 9 }) (id) ({ auditStroke := 60 })
     let m : Msg := (fm 0x31 8 (leBytes 32 9 ++ leBytes 2 0))
     let t := leField m.data 0 1
     let requests : List (Nat × Instr) := [(0x31, .lendReq m), (0x32, .lendRelease m), (0x33, .auditSnap m), (0x34, .launchCheck m), (0x35, .jobEvent m)]
     let x := (0x31, .lendReq (fm 0x31 8 (leBytes 32 9 ++ leBytes 2 0)))
     Clocked s ∧ s.skovi.up = true ∧ s.arrived = [] ∧ s.forMailbox m = false ∧ x ∈ requests ∧
     t = x.1 ∧ peerOk m = false) ∧
    (let s : State := sF ({ st := .running, id := 4, dieSet := 0x22, digest := 9 }) (id) ({ auditStroke := 60 })
     let m : Msg := (fm 0x32 8 (leBytes 32 9 ++ leBytes 2 0))
     let seq : BitVec 16 := BitVec.ofNat 16 (leField m.data 2 2)
     let t := leField m.data 0 1
     Clocked s ∧ s.skovi.up = true ∧ s.arrived = [] ∧ s.forMailbox m = false ∧ peerOk m = true ∧
     (s.skovi.replies.find? (fun y => y.1 == m.src && y.2.1 == seq) = none) ∧ t = 0x32) ∧
    (let s : State := sF ({ st := .running, id := 4, dieSet := 0x22, digest := 9 }) (id) ({ auditStroke := 60 })
     let m : Msg := (fm 0x33 8 (leBytes 8 60 ++ leBytes 8 1 ++ [7,2,0,0] ++ leBytes 4 1 ++ leBytes 4 1 ++ leBytes 4 1))
     let seq : BitVec 16 := BitVec.ofNat 16 (leField m.data 2 2)
     let t := leField m.data 0 1
     let body := m.data.drop 8
     let c := [BitVec.ofNat 32 (leField body 20 4), BitVec.ofNat 32 (leField body 24 4), BitVec.ofNat 32 (leField body 28 4)]
     let hit := fun (e : Sender) => e.win == BitVec.ofNat 8 (leField body 16 1) && e.die == m.src && e.core == BitVec.ofNat 6 (leField body 17 1)
     let e := { win := 7, die := 5, core := 2, share := 4, granted := 9, settled := 8, returned := 7, snap := [1,1,1], lastD := some (1, [], 0) }
     let n := (e.diff c).toNat
     let twice := ∃ x, e.lastD = some x ∧ x.1 = e.diff c ∧ x.2.1 = e.snap ++ c ∧ x.2.2 + 2 ^ 18 ≤ s.cclk
     Clocked s ∧ s.skovi.up = true ∧ s.arrived = [] ∧ s.forMailbox m = false ∧ peerOk m = true ∧
     (s.skovi.replies.find? (fun y => y.1 == m.src && y.2.1 == seq) = none) ∧ t = 0x33 ∧
     leField body 0 8 = s.skovi.auditStroke.toNat ∧ leField body 8 1 = 1 ∧ body.length = 32 ∧
     s.senders.find? hit = some e ∧ (n = 0 ∨ ¬ twice)) ∧
    (let s : State := sF ({ st := .running, id := 4, dieSet := 0x22, digest := 9 }) (id) ({ auditStroke := 60 })
     let m : Msg := (fm 0x33 8 (leBytes 8 50 ++ leBytes 8 0))
     let seq : BitVec 16 := BitVec.ofNat 16 (leField m.data 2 2)
     let t := leField m.data 0 1
     let body := m.data.drop 8
     Clocked s ∧ s.skovi.up = true ∧ s.arrived = [] ∧ s.forMailbox m = false ∧ peerOk m = true ∧
     (s.skovi.replies.find? (fun y => y.1 == m.src && y.2.1 == seq) = none) ∧ t = 0x33 ∧
     leField body 0 8 < s.skovi.auditStroke.toNat) ∧
    (let s : State := sF ({ st := .running, id := 4, dieSet := 0x22, digest := 9 }) (id) ({ auditStroke := 60 })
     let m : Msg := (fm 0x33 8 (leBytes 8 70 ++ leBytes 8 1))
     let t := leField m.data 0 1
     Clocked s ∧ s.skovi.up = true ∧ s.arrived = [] ∧ s.forMailbox m = false ∧ t = 0x33 ∧
     peerOk m = true ∧ s.skovi.auditStroke.toNat < leField m.data 8 8) ∧
    (let s : State := sF ({ st := .running, id := 4, dieSet := 0x22, digest := 9 }) (id) ({ auditStroke := 60 })
     let m : Msg := (fm 0x34 8 (leBytes 40 9))
     let seq : BitVec 16 := BitVec.ofNat 16 (leField m.data 2 2)
     let t := leField m.data 0 1
     Clocked s ∧ s.skovi.up = true ∧ s.arrived = [] ∧ s.forMailbox m = false ∧ peerOk m = true ∧
     (s.skovi.replies.find? (fun y => y.1 == m.src && y.2.1 == seq) = none) ∧ t = 0x34) ∧
    (let s : State := sF ({ st := .running, id := 4, dieSet := 0x22, digest := 9 }) (id) ({ auditStroke := 60 })
     let m : Msg := (fm 0x35 8 ([0,0,0,0] ++ leBytes 8 6))
     let col := leField m.data 1 1 % 16
     let seq : BitVec 16 := BitVec.ofNat 16 (leField m.data 2 2)
     let t := leField m.data 0 1
     let body := m.data.drop 8
     let p := s.part col
     let j := p.job
     let mine := j.live = true ∧ j.id.toNat = leField m.data 4 4
     Clocked s ∧ s.skovi.up = true ∧ s.arrived = [] ∧ s.forMailbox m = false ∧ peerOk m = true ∧
     (s.skovi.replies.find? (fun y => y.1 == m.src && y.2.1 == seq) = none) ∧ t = 0x35 ∧ mine ∧
     leField body 0 1 = 0 ∧ j.watchdog ≠ some (BitVec.ofNat 32 (leField body 4 4))) ∧
    (let s : State := sF ({ st := .running, id := 4, dieSet := 0x22, digest := 9 }) (id) ({ auditStroke := 60 })
     let m : Msg := (fm 0x35 8 ([1,4,0,0] ++ leBytes 8 6))
     let col := leField m.data 1 1 % 16
     let seq : BitVec 16 := BitVec.ofNat 16 (leField m.data 2 2)
     let t := leField m.data 0 1
     let body := m.data.drop 8
     let p := s.part col
     let j := p.job
     let mine := j.live = true ∧ j.id.toNat = leField m.data 4 4
     Clocked s ∧ s.skovi.up = true ∧ s.arrived = [] ∧ s.forMailbox m = false ∧ peerOk m = true ∧
     (s.skovi.replies.find? (fun y => y.1 == m.src && y.2.1 == seq) = none) ∧ t = 0x35 ∧ mine ∧
     leField body 0 1 = 1 ∧ p.resetting = false) ∧
    (let s : State := sF ({ st := .running, id := 4, dieSet := 0x22, digest := 9 }) (id) ({ auditStroke := 60 })
     let m : Msg := (fm 0x35 8 ([2,0,0,0] ++ leBytes 8 6))
     let col := leField m.data 1 1 % 16
     let seq : BitVec 16 := BitVec.ofNat 16 (leField m.data 2 2)
     let t := leField m.data 0 1
     let body := m.data.drop 8
     let p := s.part col
     let j := p.job
     let mine := j.live = true ∧ j.id.toNat = leField m.data 4 4
     Clocked s ∧ s.skovi.up = true ∧ s.arrived = [] ∧ s.forMailbox m = false ∧ peerOk m = true ∧
     (s.skovi.replies.find? (fun y => y.1 == m.src && y.2.1 == seq) = none) ∧ t = 0x35 ∧ mine ∧
     leField body 0 1 = 2 ∧ j.dieSet &&& ~~~ (setBit j.ends m.src.toNat) ≠ 0) ∧
    (let s : State := sF ({ st := .running, id := 4, dieSet := 0x22, digest := 9 }) (id) ({ auditStroke := 60 })
     let m : Msg := (fm 0x30 8 (leBytes 4 0))
     let seq : BitVec 16 := BitVec.ofNat 16 (leField m.data 2 2)
     let t := leField m.data 0 1
     let hit := fun (q : PeerReq) => q.die == m.src && q.seqno == seq
     Clocked s ∧ s.skovi.up = true ∧ s.arrived = [] ∧ s.forMailbox m = false ∧ t = 0x30 ∧
     peerOk m = true ∧ s.skovi.peers.find? hit = none) ∧
    (let s : State := sF ({ st := .running, id := 4, dieSet := 0x22, digest := 9 }) (id) ({ auditStroke := 60 })
     let m : Msg := (fm 0x30 8 ([0]))
     let t := leField m.data 0 1
     Clocked s ∧ s.skovi.up = true ∧ s.arrived = [] ∧ s.forMailbox m = false ∧ t = 0x30 ∧
     peerOk m = false) ∧
    (let s : State := sF ({ st := .running, id := 4, dieSet := 0x22, digest := 9 }) (id) ({ auditStroke := 60, replies := [(5, 8, [7,7,7,7])], peers := [pq0 0x31 0] })
     let m : Msg := (fm 0x31 8 (leBytes 32 9 ++ leBytes 2 1))
     let seq : BitVec 16 := BitVec.ofNat 16 (leField m.data 2 2)
     let t := leField m.data 0 1
     let requests : List (Nat × Instr) := [(0x31, .lendReq m), (0x32, .lendRelease m), (0x33, .auditSnap m), (0x34, .launchCheck m), (0x35, .jobEvent m)]
     let y := (5, 8, [7,7,7,7])
     let x := (0x31, .lendReq (fm 0x31 8 (leBytes 32 9 ++ leBytes 2 1)))
     Clocked s ∧ s.skovi.up = true ∧ s.arrived = [] ∧ s.forMailbox m = false ∧ peerOk m = true ∧
     (s.skovi.replies.find? (fun y => y.1 == m.src && y.2.1 == seq) = some y) ∧
     (t = 0x33 → leField m.data 8 8 ≤ s.skovi.auditStroke.toNat) ∧ x ∈ requests ∧ t = x.1) ∧
    (let s : State := sF ({}) (id) ({ auditStroke := 60 })
     let m : Msg := (fm 0x35 8 ([0,0,0,0] ++ leBytes 8 6))
     let col := leField m.data 1 1 % 16
     let seq : BitVec 16 := BitVec.ofNat 16 (leField m.data 2 2)
     let t := leField m.data 0 1
     let p := s.part col
     let j := p.job
     let mine := j.live = true ∧ j.id.toNat = leField m.data 4 4
     Clocked s ∧ s.skovi.up = true ∧ s.arrived = [] ∧ s.forMailbox m = false ∧ peerOk m = true ∧
     (s.skovi.replies.find? (fun y => y.1 == m.src && y.2.1 == seq) = none) ∧ t = 0x35 ∧ ¬ mine) ∧
    (let s : State := sF ({ st := .running, id := 4, dieSet := 0x22, digest := 9 }) (fun p => { p with present := false }) ({ auditStroke := 60 })
     let m : Msg := (fm 0x31 8 (leBytes 32 9 ++ leBytes 2 1))
     let col := leField m.data 1 1 % 16
     let seq : BitVec 16 := BitVec.ofNat 16 (leField m.data 2 2)
     let t := leField m.data 0 1
     let p := s.part col
     Clocked s ∧ s.skovi.up = true ∧ s.arrived = [] ∧ s.forMailbox m = false ∧ peerOk m = true ∧
     (s.skovi.replies.find? (fun y => y.1 == m.src && y.2.1 == seq) = none) ∧ t = 0x31 ∧
     p.present = false) ∧
    (let s : State := sF ({ st := .running, id := 4, dieSet := 0x22, digest := 9, ends := 2, watchdog := some 6 }) (fun p => { p with lent := [(3, 5, 9), (3, 4, 9)], granules := [3,4] }) ({ auditStroke := 60 })
     let m : Msg := (fm 0x35 8 ([2,0,0,0] ++ leBytes 8 6))
     let col := leField m.data 1 1 % 16
     let seq : BitVec 16 := BitVec.ofNat 16 (leField m.data 2 2)
     let t := leField m.data 0 1
     let body := m.data.drop 8
     let p := s.part col
     let j := p.job
     let mine := j.live = true ∧ j.id.toNat = leField m.data 4 4
     Clocked s ∧ s.skovi.up = true ∧ s.arrived = [] ∧ s.forMailbox m = false ∧ peerOk m = true ∧
     (s.skovi.replies.find? (fun y => y.1 == m.src && y.2.1 == seq) = none) ∧ t = 0x35 ∧ mine ∧
     leField body 0 1 = 2 ∧ j.dieSet &&& ~~~ (setBit j.ends m.src.toNat) = 0) ∧
    (let s : State := { sF {} id { peers := [pq0 0x31 0] } with tx := []  }
     let die : BitVec 6 := 5
     let seq : BitVec 16 := 8
     let q := pq0 0x31 0
     Clocked s ∧ s.skovi.up = true ∧ s.arrived = [] ∧
     (s.skovi.peers.find? (fun q => q.die == die && q.seqno == seq) = some q) ∧
     q.sentAt + 1250000 ≤ s.now ∧ q.resends < 3) ∧
    (let s : State := { sF {} id { peers := [pq0 0x31 0] } with tx := [] , now := 600000 }
     let die : BitVec 6 := 5
     let seq : BitVec 16 := 8
     let q := pq0 0x31 0
     Clocked s ∧ s.skovi.up = true ∧ s.arrived = [] ∧
     (s.skovi.peers.find? (fun q => q.die == die && q.seqno == seq) = some q) ∧
     s.now < q.sentAt + 1250000) ∧
    (let s : State := (let u := sF {} id { peers := [{ pq0 0x31 3 with who := none }] }; { u with mailboxes := (work hp2 3 0x120 [] 1 [] []).mailboxes })
     let m : Msg := (fm 0x30 8 (leBytes 2 0 ++ leBytes 2 1 ++ leBytes 2 4))
     let seq : BitVec 16 := BitVec.ofNat 16 (leField m.data 2 2)
     let t := leField m.data 0 1
     let hit := fun (q : PeerReq) => q.die == m.src && q.seqno == seq
     let q := { pq0 0x31 3 with who := none }
     Clocked s ∧ s.skovi.up = true ∧ s.arrived = [] ∧ s.forMailbox m = false ∧ t = 0x30 ∧
     peerOk m = true ∧ s.skovi.peers.find? hit = some q ∧ q.who = none) ∧
    (let s : State := (let u := sF {} id { peers := [{ pq0 0x31 3 with who := none }] }; { u with mailboxes := (work hp2 3 0x120 [] 1 [] []).mailboxes })
     let die : BitVec 6 := 5
     let seq : BitVec 16 := 8
     let q := { pq0 0x31 3 with who := none }
     Clocked s ∧ s.skovi.up = true ∧ s.arrived = [] ∧
     (s.skovi.peers.find? (fun q => q.die == die && q.seqno == seq) = some q) ∧
     q.sentAt + 1250000 ≤ s.now ∧ 3 ≤ q.resends ∧ q.mtype ≠ 0x33 ∧ q.mtype ≠ 0x35 ∧ q.who = none) ∧
    (let s : State := (let u := sF {} id { peers := [{ pq0 0x31 3 with who := some (3, 3) }] }; { u with mailboxes := (work hp2 3 0x120 [] 1 [] []).mailboxes })
     let m : Msg := (fm 0x30 8 (leBytes 2 0 ++ leBytes 2 1 ++ leBytes 2 4))
     let seq : BitVec 16 := BitVec.ofNat 16 (leField m.data 2 2)
     let t := leField m.data 0 1
     let hit := fun (q : PeerReq) => q.die == m.src && q.seqno == seq
     let q := { pq0 0x31 3 with who := some (3, 3) }
     let k : Nat := 3
     let i : BitVec 16 := 3
     Clocked s ∧ s.skovi.up = true ∧ s.arrived = [] ∧ s.forMailbox m = false ∧ t = 0x30 ∧
     peerOk m = true ∧ s.skovi.peers.find? hit = some q ∧ q.who = some (k, i)) ∧
    (let s : State := (let u := sF {} id { peers := [{ pq0 0x31 3 with who := some (3, 3) }] }; { u with mailboxes := (work hp2 3 0x120 [] 1 [] []).mailboxes })
     let die : BitVec 6 := 5
     let seq : BitVec 16 := 8
     let q := { pq0 0x31 3 with who := some (3, 3) }
     let k : Nat := 3
     let i : BitVec 16 := 3
     Clocked s ∧ s.skovi.up = true ∧ s.arrived = [] ∧
     (s.skovi.peers.find? (fun q => q.die == die && q.seqno == seq) = some q) ∧
     q.sentAt + 1250000 ≤ s.now ∧ 3 ≤ q.resends ∧ q.mtype ≠ 0x33 ∧ q.mtype ≠ 0x35 ∧
     q.who = some (k, i)) ∧
    (let s : State := sF {} id {}
     let m : Msg := fm 0x34 8 (leBytes 40 9)
     let t := leField m.data 0 1
     let requests : List (Nat × Instr) := [(0x31, .lendReq m), (0x32, .lendRelease m), (0x33, .auditSnap m), (0x34, .launchCheck m), (0x35, .jobEvent m)]
     let x := (0x31, .lendReq (fm 0x34 8 (leBytes 40 9)))
     Clocked s ∧ s.skovi.up = true ∧ s.arrived = [] ∧ x ∈ requests ∧ t ≠ x.1) ∧
    (let s : State := sF {} id { peers := [] }
     let die : BitVec 6 := 5
     let seq : BitVec 16 := 8
     Clocked s ∧ s.skovi.up = true ∧ s.arrived = [] ∧
     (s.skovi.peers.find? (fun q => q.die == die && q.seqno == seq) = none)) ∧
    (let s : State := { sF {} id { auditStroke := 60 } with cclk := 300000, senders := [{ win := 7, die := 5, core := 2, share := 4, out := 3, granted := 9, settled := 8, returned := 7, snap := [9,1,1], lastD := some (1, [9,1,1,8,1,1], 0) }] }
     let m : Msg := (fm 0x33 8 (leBytes 8 60 ++ leBytes 8 1 ++ [7,2,0,0] ++ leBytes 4 8 ++ leBytes 4 1 ++ leBytes 4 1))
     let seq : BitVec 16 := BitVec.ofNat 16 (leField m.data 2 2)
     let t := leField m.data 0 1
     let body := m.data.drop 8
     let c := [BitVec.ofNat 32 (leField body 20 4), BitVec.ofNat 32 (leField body 24 4), BitVec.ofNat 32 (leField body 28 4)]
     let hit := fun (e : Sender) => e.win == BitVec.ofNat 8 (leField body 16 1) && e.die == m.src && e.core == BitVec.ofNat 6 (leField body 17 1)
     let e := { win := 7, die := 5, core := 2, share := 4, out := 3, granted := 9, settled := 8, returned := 7, snap := [9,1,1], lastD := some (1, [9,1,1,8,1,1], 0) }
     let n := (e.diff c).toNat
     let twice := ∃ x, e.lastD = some x ∧ x.1 = e.diff c ∧ x.2.1 = e.snap ++ c ∧ x.2.2 + 2 ^ 18 ≤ s.cclk
     Clocked s ∧ s.skovi.up = true ∧ s.arrived = [] ∧ s.forMailbox m = false ∧ peerOk m = true ∧
     (s.skovi.replies.find? (fun y => y.1 == m.src && y.2.1 == seq) = none) ∧ t = 0x33 ∧
     leField body 0 8 = s.skovi.auditStroke.toNat ∧ leField body 8 1 = 1 ∧ body.length = 32 ∧
     s.senders.find? hit = some e ∧ n ≠ 0 ∧ twice ∧ n < 2 ^ 31 ∧ n ≤ e.out) ∧
    (let s : State := sF {} id {}
     let m : Msg := { fm 0x31 8 (leBytes 4 0) with src := 60, addr := 0xF000130000 }
     let t := leField m.data 0 1
     let requests : List (Nat × Instr) := [(0x31, .lendReq m), (0x32, .lendRelease m), (0x33, .auditSnap m), (0x34, .launchCheck m), (0x35, .jobEvent m)]
     let x := (0x31, .lendReq ({ fm 0x31 8 (leBytes 4 0) with src := 60, addr := 0xF000130000 }))
     Clocked s ∧ s.skovi.up = true ∧ s.arrived = [] ∧ x ∈ (0x30, Instr.peerReply m) :: requests ∧
     t = x.1 ∧ s.forMailbox m = true) := by
  and_intros <;> (try dsimp only) <;>
    decide +kernel

def k1 : Core := { run0 with colour := 3, csr := { flags := 0xF0F, issued := 5 } }
def sG (k : Core) (d : Debug) : State := { hubbed base with mem := { layersOn := 1, cells := putBytes [] 0x1000 [1,2,3,4,5,6,7,8,9] }, mast := { st := .locked, stroke := 77, lost := true, regress := true, wrap := 7, mismatch := true }, cores := [(2, k)], skovi := { up := true }, log := { faultSum := 31, capqDrop := true, nextIndex := 65535 }, parts := [(3, { present := true, cores := 4, granules := [0] })], dbg := d }
def r1 : LogRec := { code := 0x0501, colour := 3 }
theorem witness_RegistersTakeWholeWrites :
    (let s : State := sG (k1) ({ level := 2, mask := 0xFFFF, addr := 0x1000, data := [(0, 0x1122334455667788), (1, 5)] })
     let a : Dla := 0xF000000100
     let data : List Byte := [1,2,3]
     let v : Word := 3
     let c : CoreId := 2
     let base : Dla := 0xF001020000
     let period : Word := 20 * 65536
     let e : Word := 79
     let us := (field period 16 10).toNat
     let fits := s.mast.st ≠ .unlocked ∧ s.mast.stroke.toNat + 2 ≤ e.toNat ∧ 1 ≤ us ∧ us ≤ 1000
     Clocked s ∧ mbOf a.toNat = none ∧ data.length < 8 ∧ v = 3 ∧
     base.toNat = 0xF001000000 + c.val * 0x10000 ∧ (s.core c.val).on = true ∧
     (s.core c.val).st = .run ∧ fits ∧ s.log.capq = [] ∧ s.dbg.busy = false) ∧
    (let s : State := sG (k1) ({ level := 2, mask := 0xFFFF, addr := 0x1000, data := [(0, 0x1122334455667788), (1, 5)] })
     let ctrl : Word := 0x11
     let n := (field ctrl 4 5).toNat + 1
     let a := s.dbg.addr.toNat
     let go := bit ctrl 0 = true ∧ s.dbg.busy = false
     let colours := s.debugColours a n
     Clocked s ∧ go ∧ colours = true ∧ s.dbg.level ≠ 0 ∧ s.place a (8 * n) ≠ .unmapped ∧
     s.detects a (8 * n) = false ∧ bit ctrl 1 = false) ∧
    (let s : State := sG (k1) ({ busy := true, settle := 3 })
     let ctrl : Word := 0x10
     let go := bit ctrl 0 = true ∧ s.dbg.busy = false
     Clocked s ∧ ¬ go ∧ s.dbg.busy = true) ∧
    (let s : State := sG ({ k1 with st := .stopped }) ({ level := 2, mask := 0xFFFF, addr := 0x1000, data := [(0, 0x1122334455667788), (1, 5)] })
     let c : CoreId := 2
     let base : Dla := 0xF001020000
     let ctrl : Word := 0x13
     let n := (field ctrl 4 5).toNat + 1
     let a := s.dbg.addr.toNat
     let go := bit ctrl 0 = true ∧ s.dbg.busy = false
     let colours := s.debugColours a n
     Clocked s ∧ base.toNat = 0xF001000000 + c.val * 0x10000 ∧ (s.core c.val).on = true ∧
     (s.core c.val).st = .stopped ∧ go ∧ colours = true ∧ s.dbg.level ≠ 0 ∧
     s.place a (8 * n) ≠ .unmapped ∧ s.detects a (8 * n) = false ∧ bit ctrl 1 = true ∧ s.dbg.level = 2) ∧
    (let s : State := sG (k1) ({ level := 1, mask := 0xFFFF, addr := 0x1000 })
     let ctrl : Word := 0x13
     let n := (field ctrl 4 5).toNat + 1
     let a := s.dbg.addr.toNat
     let go := bit ctrl 0 = true ∧ s.dbg.busy = false
     let colours := s.debugColours a n
     Clocked s ∧ go ∧ colours = true ∧ (s.dbg.level = 0 ∨ (bit ctrl 1 = true ∧ s.dbg.level ≠ 2))) ∧
    (let s : State := sG (k1) ({ level := 2, mask := 0, addr := 0x1000 })
     let ctrl : Word := 0x11
     let n := (field ctrl 4 5).toNat + 1
     let a := s.dbg.addr.toNat
     let go := bit ctrl 0 = true ∧ s.dbg.busy = false
     let colours := s.debugColours a n
     Clocked s ∧ go ∧ colours = false) ∧
    (let s : State := sG k1 {}
     let period : Word := 0 * 65536
     let e : Word := 79
     let us := (field period 16 10).toNat
     let fits := s.mast.st ≠ .unlocked ∧ s.mast.stroke.toNat + 2 ≤ e.toNat ∧ 1 ≤ us ∧ us ≤ 1000
     Clocked s ∧ ¬ fits) ∧
    (let s : State := { sG k1 ({ level := 2, mask := 0xFFFF, addr := 0x1000, data := [(0, 0x1122334455667788), (1, 5)] }) with mem := {} }
     let ctrl : Word := 0x11
     let n := (field ctrl 4 5).toNat + 1
     let a := s.dbg.addr.toNat
     let go := bit ctrl 0 = true ∧ s.dbg.busy = false
     let colours := s.debugColours a n
     Clocked s ∧ go ∧ colours = true ∧ s.dbg.level ≠ 0 ∧ (bit ctrl 1 = true → s.dbg.level = 2) ∧
     s.place a (8 * n) = .unmapped) ∧
    (let s : State := { sG k1 {} with log := { capq := [r1, r1], waiting := [r1, r1], nextIndex := 4 } }
     let r : LogRec := r1
     let l : List LogRec := [r1]
     Clocked s ∧ s.skovi.up = true ∧ s.log.capq = r :: l) ∧
    (let s : State := sG (k1) ({ level := 2, mask := 0xFFFF, addr := 0x1000, data := [(0, 0x1122334455667788), (1, 5)] })
     let put := fun (a : Dla) (v : Word) => exec (.registerWrite a (leBytes 8 v.toNat)) s
     let v : Word := 0xFFFFFFFFFFFFFFFF
     let t := nextOf (exec (.registerWrite 0xF000030100 (leBytes 8 0xFFFFFFFFFFFFFFFF)) (sG (k1) ({ level := 2, mask := 0xFFFF, addr := 0x1000, data := [(0, 0x1122334455667788), (1, 5)] })))
     Clocked s ∧ put 0xF000030100 v = .next t) := by
  and_intros <;> (try dsimp only) <;>
    (and_intros <;> first | decide +kernel | (apply okOf; decide +kernel) | rfl | (left; decide +kernel) | exact uidNext | (apply exOf; decide +kernel) | (apply notExOf; decide +kernel) | (intro h; cases h) | simp [tableRows])

theorem witness_CoreControlsActInTheirStates :
    (let s : State := sG (k1) {}
     let c : CoreId := 2
     let k := s.core c.val
     let still := k.st = .stopped ∨ k.st = .stepHalt ∨ k.st = .halted
     let e : BitVec 3 := 2
     Clocked s ∧ k.on = true ∧ k.colour ≠ 0 ∧ ¬ still ∧ (k.st = .run ∨ k.st = .wait) ∧
     k.drained = true ∧ e.toNat < 6 ∧
     (¬ ((k.st = .stepHalt ∨ k.st = .halted) ∧ k.csr.stepOpen = true))) ∧
    (let s : State := sG ({ k1 with on := false }) {}
     let c : CoreId := 2
     let k := s.core c.val
     Clocked s ∧ k.on = false) ∧
    (let s : State := sG ({ k1 with st := .stepHalt, csr := { stepOpen := true, stepPc := 9, pc := 40, stepFail := true }, sregs := [(1, 4)], shadow := [(1, 5)] }) {}
     let c : CoreId := 2
     let k := s.core c.val
     let still := k.st = .stopped ∨ k.st = .stepHalt ∨ k.st = .halted
     let e : BitVec 3 := 6
     Clocked s ∧ k.on = true ∧ k.colour ≠ 0 ∧ still ∧ 6 ≤ e.toNat ∧
     (k.st = .stepHalt ∨ k.st = .halted) ∧ k.csr.stepOpen = true) ∧
    (let s : State := sG ({ k1 with st := .wait, queues := [(1, [{ op := .mastat, f := ⟨0,0,0,0,0⟩, vl := 0 }])] }) {}
     let c : CoreId := 2
     let k := s.core c.val
     Clocked s ∧ k.on = true ∧ (k.st = .run ∨ k.st = .wait) ∧ k.drained = false) ∧
    (let s : State := sG { k1 with colour := 0 } {}
     let c : CoreId := 2
     let k := s.core c.val
     Clocked s ∧ k.on = true ∧ k.colour = 0) := by
  and_intros <;> (try dsimp only) <;>
    decide +kernel

def sT (b : Boot) (t : Therm) : State := { sG k1 {} with boot := b, therm := t }
def tl (a b : BitVec 16) (p : BitVec 16) : List (BitVec 16) := [a] ++ List.replicate 47 100 ++ [b] ++ List.replicate 15 100
theorem witness_ResetsClocksAndTemperature :
    (let s : State := sT ({ porstLow := false }) {}
     let temps : List (BitVec 16) := []
     s.boot.porstLow = false ∧ Powered s ∧ s.boot.refclkLost = false ∧ s.boot.tripped = false ∧
     Clocked s ∧ s.boot.warmAt = none ∧ temps.length ≠ 64) ∧
    (let s : State := sT ({ porstLow := false, tripped := true, refclkLost := true }) {}
     Powered s ∧ s.boot.refclkLost = true ∧ s.boot.tripped = true) ∧
    (let s : State := { sT ({ porstLow := true }) {} with mailboxes := [(0, { rspTail := 6, rspHead := 4 })] }
     s.boot.porstLow = true) ∧
    (let s : State := { sT ({ porstLow := false, refclkLost := true }) {} with mailboxes := [(0, { rspTail := 6, rspHead := 4 })] }
     Powered s ∧ s.boot.refclkLost = true ∧ s.boot.tripped = false) ∧
    (let s : State := { sT ({ porstLow := false, warmAt := some (0, 4, 5) }) {} with mailboxes := [(0, { rspTail := 6, rspHead := 4 })] }
     let m : BitVec 4 := 0
     let x : BitVec 16 := 4
     let t0 : Nat := 5
     let b := s.mailbox m.toNat
     let due := (b.rspTail - b.rspHead).toNat < (b.rspTail - x).toNat ∨ t0 + 12500000 ≤ s.now
     Clocked s ∧ s.boot.warmAt = some (m, x, t0) ∧ ¬ due) ∧
    (let s : State := sT ({ porstLow := false, warmAt := some (0, 4, 5) }) {}
     let m : BitVec 4 := 0
     let x : BitVec 16 := 4
     let t0 : Nat := 5
     let b := s.mailbox m.toNat
     let due := (b.rspTail - b.rspHead).toNat < (b.rspTail - x).toNat ∨ t0 + 12500000 ≤ s.now
     Clocked s ∧ s.boot.warmAt = some (m, x, t0) ∧ due) ∧
    (let s : State := { sT { porstLow := false } { ratio := 16 } with cores := (List.range 48).map (fun i => (i, { on := true })), mem := { layersOn := 0xFFF } }
     let temps : List (BitVec 16) := [] ++ tl 1681 100 0
     Clocked s ∧ temps.length = 64) := by
  and_intros <;> (try dsimp only) <;>
    decide +kernel

def sO (b : Boot) : State := { hubbed base with boot := { b with porstLow := false }, now := 2000000000 }
def rp (l : BitVec 12) (c : BitVec 48) (a : List ArrayReport) (ok : Bool) : BootReport := { layersFailed := l, coresFailed := c, rows := [5, 6, 2 ^ 30 + 7] ++ (if ok && a == [] then [] else (List.range 63).map (fun k => 4096 * 48 * 16 + k) ++ (List.range 47).map (fun k => 2 ^ 30 + 32 * 3072 + k)), arrays := a, ok := ok }
def md (t : Byte) (off : Nat) (d : List Byte) : Msg := { src := 5, dst := 0, colour := 0, op := 6, addr := 0, tag := 0, win := 0, winv := false, status := 0, ll := true, data := [t, 0] ++ leBytes 2 d.length ++ leBytes 4 off ++ d, bad := false }
def mq (n off : Nat) : Msg := { md 0x20 0 [] with data := [0x20, 0] ++ leBytes 2 n ++ leBytes 4 off }
def up (s : State) : State := { s with ports := [(1, { st := .active, sbUp := true, partner := some (5, true, 2, 0, 0x2222) }), (2, { st := .active, sbUp := true, partner := some (60, true, 0, 1, 0) })] }
theorem witness_BootStagesFollowInOrder :
    (let s : State := sO { stage := 1 }
     let b := s.boot
     let r : BootReport := rp 4 8 [] true
     Clocked s ∧ r.ok = true ∧ b.stage = 1 ∧ Powered s ∧ s.arrived = [] ∧
     (b.stage ≠ 3 ∨ b.result ≠ .inProgress ∨ b.fwOut = [] ∨ s.now < b.fwSentAt + 1250000) ∧
     (b.result ≠ .noSource ∧ b.result ≠ .authFailed ∨ b.stage ≠ 3 ∨ s.now < b.failedAt + 1250000000)) ∧
    (let s : State := sO { stage := 1 }
     let r : BootReport := rp 0 0 [] false
     Clocked s ∧ r.ok = false) ∧
    (let s : State := sO { stage := 2 }
     let b := s.boot
     let r : BootReport := rp 4 8 [] true
     let q := ((sO { stage := 2 }).pullOrder.head?).getD 0
     let l := (sO { stage := 2 }).pullOrder.drop 1
     Clocked s ∧ r.ok = true ∧ b.stage = 2 ∧ b.warm = false ∧ s.pullOrder = q :: l) ∧
    (let s : State := { sO { stage := 2 } with ports := [] }
     let b := s.boot
     let r : BootReport := rp 4 8 [] true
     Clocked s ∧ r.ok = true ∧ b.stage = 2 ∧ b.warm = false ∧ s.pullOrder = []) ∧
    (let s : State := sO { stage := 2, warm := true, imageOk := true, image := [1,2], imageHash := Config.sha384 [1,2] }
     let b := s.boot
     let r : BootReport := rp 4 8 [] true
     Clocked s ∧ r.ok = true ∧ b.stage = 2 ∧ b.warm = true ∧ b.imageOk = true ∧
     Config.sha384 b.image = b.imageHash) ∧
    (let s : State := sO { stage := 4 }
     let b := s.boot
     let r : BootReport := rp 4 8 [] true
     Clocked s ∧ r.ok = true ∧ b.stage = 4 ∧ b.imageOk = false) ∧
    (let s : State := sO { stage := 4, warm := true, imageOk := true, image := [1,2], imageHash := Config.sha384 [1,2] }
     let b := s.boot
     let r : BootReport := rp 4 8 [] true
     Clocked s ∧ r.ok = true ∧ b.stage = 4 ∧ b.imageOk = true) ∧
    (let s : State := sO { stage := 5 }
     let b := s.boot
     let r : BootReport := rp 4 8 [] true
     Clocked s ∧ r.ok = true ∧ b.stage = 5) ∧
    (let s : State := sO { stage := 6 }
     let b := s.boot
     let r : BootReport := rp 4 8 [] true
     Clocked s ∧ r.ok = true ∧ b.stage = 6 ∧ s.cores = [] ∧
     ((r.arrays.filter (fun x => x.rowFault || decide (4 < popcount x.bad))).length < 4)) ∧
    (let s : State := sO { stage := 7 }
     let b := s.boot
     let r : BootReport := rp 4 8 [] true
     Clocked s ∧ r.ok = true ∧ b.stage = 7) ∧
    (let s : State := sO { stage := 8 }
     let b := s.boot
     let r : BootReport := rp 4 8 [] true
     Clocked s ∧ r.ok = true ∧ b.stage = 8 ∧ (∀ p : PortId, (s.port p.val).st ≠ .training)) ∧
    (let s : State := { sO { stage := 8 } with ports := [(1, { st := .training }), (0, {st := .disabled})] }
     let b := s.boot
     let r : BootReport := rp 4 8 [] true
     Clocked s ∧ r.ok = true ∧ b.stage = 8 ∧ (∃ p : PortId, (s.port p.val).st = .training)) ∧
    (let s : State := sO { stage := 9 }
     let b := s.boot
     let r : BootReport := rp 4 8 [] true
     let h := 60
     Clocked s ∧ r.ok = true ∧ b.stage = 9 ∧ s.hub = some h) ∧
    (let s : State := { sO { stage := 9 } with member := { id := none } , ports := []}
     let b := s.boot
     let r : BootReport := rp 4 8 [] true
     Clocked s ∧ r.ok = true ∧ b.stage = 9 ∧ s.hub = none) ∧
    (let s : State := sO { stage := 10 }
     let b := s.boot
     let r : BootReport := rp 4 8 [] true
     Clocked s ∧ r.ok = true ∧ b.stage = 10) ∧
    (let s : State := sO { stage := 11 }
     let b := s.boot
     let r : BootReport := rp 4 8 [] true
     Clocked s ∧ r.ok = true ∧ b.stage = 11 ∧ b.result = .inProgress) ∧
    (let s : State := sO { stage := 11, result := .complete }
     let b := s.boot
     let r : BootReport := rp 4 8 [] true
     Clocked s ∧ r.ok = true ∧ b.stage = 11 ∧ b.result = .complete) ∧
    (let s : State := { sO {} with boot := { porstLow := false, testState := true } }
     let b := s.boot
     b.porstLow = false ∧ b.testState = true ∧ s.halted = false) ∧
    (let s : State := sO { stage := 3, sources := [1, 2], fwOut := [0], fwNext := 4096 }
     let b := s.boot
     let p : PortId := 1
     let m : Msg := md 0x21 0 []
     let off := leField m.data 4 4
     let d := m.data.drop 8
     let wellFormed := m.bad = false ∧ m.ll = true ∧ leField m.data 0 1 = 0x21 ∧ leField m.data 1 1 = 0 ∧ leField m.data 2 2 = d.length ∧ d.length ≤ 4096
     let wanted := b.stage = 3 ∧ b.result = .inProgress ∧ b.sources.head? = some p ∧ off ∈ b.fwOut
     Powered s ∧ s.arrived = [] ∧ s.forMailbox m = false ∧ wellFormed ∧ wanted ∧ d = []) ∧
    (let s : State := sO { stage := 3, sources := [1, 2], fwOut := [0], fwNext := 4096 }
     let b := s.boot
     let off := 0
     let q := 1
     let l := [2]
     Powered s ∧ s.arrived = [] ∧ b.stage = 3 ∧ b.result = .inProgress ∧
     b.fwSentAt + 1250000 ≤ s.now ∧ b.fwOut = [off] ∧ b.sources = q :: l ∧ b.fwTries < 2) ∧
    (let s : State := sO { stage := 3, sources := [1, 2], fwOut := [0], fwNext := 4096 }
     let b := s.boot
     let p : PortId := 1
     let m : Msg := mq 100 250
     let off := leField m.data 4 4
     let d := m.data.drop 8
     let wellFormed := m.bad = false ∧ m.ll = true ∧ leField m.data 0 1 = 0x21 ∧ leField m.data 1 1 = 0 ∧ leField m.data 2 2 = d.length ∧ d.length ≤ 4096
     let wanted := b.stage = 3 ∧ b.result = .inProgress ∧ b.sources.head? = some p ∧ off ∈ b.fwOut
     Powered s ∧ s.arrived = [] ∧ s.forMailbox m = false ∧ (¬ (wellFormed ∧ wanted))) ∧
    (let s : State := sO { stage := 3, sources := [1, 2], fwOut := [0], fwNext := 4096 }
     let n : Nat := 100
     let off : Nat := 250
     let m : Msg := mq 100 250
     Powered s ∧ s.arrived = [] ∧ s.forMailbox m = false ∧ m.bad = false ∧ m.ll = true ∧
     m.data = [0x20, 0] ++ leBytes 2 n ++ leBytes 4 off ∧ 1 ≤ n ∧ n ≤ 4096 ∧ off < 2 ^ 32) ∧
    (let s : State := sO { stage := 3, result := .noSource, failedAt := 5 }
     let b := s.boot
     Powered s ∧ s.arrived = [] ∧ b.stage = 3 ∧ (b.result = .noSource ∨ b.result = .authFailed) ∧
     b.failedAt + 1250000000 ≤ s.now) ∧
    (let s : State := sO { stage := 3 }
     let m : Msg := { md 0x21 0 [1] with src := 60, ll := false, addr := 0xF000130000 }
     Powered s ∧ s.arrived = [] ∧ s.halted = false ∧ s.forMailbox m = true) ∧
    (let s : State := sO { stage := 3, sources := [1, 2], fwOut := [4096], fwNext := 8192, fwTries := 2 }
     let b := s.boot
     Powered s ∧ s.arrived = [] ∧ b.stage = 3 ∧ b.result = .inProgress ∧
     b.fwSentAt + 1250000 ≤ s.now ∧ b.fwOut ≠ [] ∧ 2 ≤ b.fwTries) ∧
    (let s : State := sO { stage := 3, sources := [1, 2], fwOut := [0], fwNext := 4096 }
     let b := s.boot
     let p : PortId := 1
     let m : Msg := md 0x21 0 (img 9 3840 0 2)
     let off := leField m.data 4 4
     let d := m.data.drop 8
     let wellFormed := m.bad = false ∧ m.ll = true ∧ leField m.data 0 1 = 0x21 ∧ leField m.data 1 1 = 0 ∧ leField m.data 2 2 = d.length ∧ d.length ≤ 4096
     let wanted := b.stage = 3 ∧ b.result = .inProgress ∧ b.sources.head? = some p ∧ off ∈ b.fwOut
     Powered s ∧ s.arrived = [] ∧ s.forMailbox m = false ∧ wellFormed ∧ wanted ∧ d ≠ [] ∧
     b.fwOut = [off] ∧ off = b.image.length ∧ d.length = b.chunk off ∧ 256 ≤ (b.image ++ d).length ∧
     imageLength (b.image ++ d) = (b.image ++ d).length ∧ imageLength (b.image ++ d) ≤ b.fwNext) := by
  and_intros <;> (try dsimp only) <;>
    (and_intros <;> first | decide +kernel | (apply okOf; decide +kernel) | rfl | (left; decide +kernel) | exact uidNext | (apply exOf; decide +kernel) | (apply notExOf; decide +kernel) | (intro h; cases h) | simp [tableRows])

theorem witness_TestInstructionsAnswer :
    (let s : State := { sO {} with boot := { porstLow := false, testState := true, testReady := true } }
     s.boot.porstLow = false ∧ s.boot.testState = true ∧ s.boot.testReady = true) ∧
    (let s : State := sO {}
     let l : Fin 12 := 3
     let i := .preload
     s.boot.porstLow = false ∧ (s.boot.testState = false ∨ s.boot.testReady = false) ∧
     i ∈ ([.preload, .extest, .hlloop, .stacksel l, .mbist, .corescan] : List Instr)) ∧
    (let s : State := { sO {} with boot := {} }
     let i := .bypass
     s.boot.porstLow = true ∧ i ∈ ([.bypass, .idcode, .sample, .bootstat] : List Instr)) := by
  and_intros <;> (try dsimp only) <;>
    decide +kernel

end Sys2Proof.Tests
end

section
/-!
SUPPORT. The words of the statements tied to the model's operations: a die whose clock runs, an instruction that issues, the
core after a short instruction, a scalar register written, and the die with one core replaced.
-/
namespace Sys2Proof.Machine

open Sys2Proof.Stated

/-! ### Guards and issue -/

/-- With CCLK running, a command has its effect (R373, R380). -/
theorem live_of_Clocked {s : State} {f : State → State} (h : Clocked s) : live s f = .next (f s) :=
  live_of_clocked h.1 h.2.1 h.2.2

/-- A short instruction that may issue, with its fields in order, has its own effect (R179, R180, R185). -/
theorem live_issue_of_Issues {s : State} {c : CoreId} {regs : List (BitVec 5)} {ok : Bool} {eff : State → State}
    (h : Issues s c regs) (hok : ok = true) : live s (issue c.val false ok regs eff) = .next (eff s) := by
  obtain ⟨⟨hclk, hissuing, hlines⟩, hpend⟩ := h
  rw [live_of_Clocked hclk, hok, issue_ready hissuing hlines hpend]

/-! ### Cores -/

/-- The core past a short instruction (R177, R180). -/
theorem advance_short (k : Core) : k.advance false = passed k 8 := by
  unfold Core.advance Csr.countIssued Csr.setWrap passed
  simp only [beq_iff_eq]
  split <;> rfl

/-- A scalar register written (R176). -/
theorem setSreg_eq_holding (k : Core) (n : BitVec 5) (v : Word) : k.setSreg n.toNat v = holding k n v := by
  unfold Core.setSreg holding
  have hz : n.toNat = 0 ↔ n = 0 := (BitVec.toNat_eq (y := 0)).symm
  simp only [hz]

/-- A core changed is the die with the changed core. -/
theorem modCore_eq_withCore (s : State) (c : CoreId) (f : Core → Core) : s.modCore c.val f = withCore s c (f (s.core c.val)) := rfl

/-! ### Fields -/

/-- A number below 2^n has no bit above its low n. -/
theorem and_not_mask_of_lt {x : BitVec 32} {n : Nat} (h : x.toNat < 2 ^ n) : x &&& ~~~ BitVec.ofNat 32 (2 ^ n - 1) = 0 := by
  apply BitVec.eq_of_getLsbD_eq
  intro i hi
  by_cases hin : i < n
  · have hm : (BitVec.ofNat 32 (2 ^ n - 1)).getLsbD i = true := by
      simp [BitVec.getLsbD_ofNat, Nat.testBit_two_pow_sub_one, hi, hin]
    rw [BitVec.getLsbD_and, BitVec.getLsbD_not, hm]
    simp
  · have hx : x.getLsbD i = false :=
      Nat.testBit_lt_two_pow (h.trans_le (Nat.pow_le_pow_right (by omega) (by omega)))
    simp [hx]

end Sys2Proof.Machine
end

section
/-!
SUPPORT. CSR instructions (R177, R190): the forms of their fields, and O9.
-/
namespace Sys2Proof.Machine

open Sys2Proof.Stated

/-- The fields of CSRR are in order: A, B and X are zero, and the number fits in 12 bits (R177, R179). -/
theorem csrr_fields {f : Fields} (ha : f.a = 0) (hb : f.b = 0) (hx : f.x = 0) (hn : f.imm.toNat < 2 ^ 12) :
    f.only true false false 0 0xFFF = true := by
  simpa [Fields.only, ha, hb, hx] using and_not_mask_of_lt hn

/-- The fields of CSRW are in order: D, B and X are zero, and the number fits in 12 bits (R177, R179). -/
theorem csrw_fields {f : Fields} (hd : f.d = 0) (hb : f.b = 0) (hx : f.x = 0) (hn : f.imm.toNat < 2 ^ 12) :
    f.only false true false 0 0xFFF = true := by
  simpa [Fields.only, hd, hb, hx] using and_not_mask_of_lt hn

/-- A CSRR that issues reads a listed CSR into sD and clears what its read clears (R11, R177). -/
theorem exec_csrr_listed {s : State} {c : CoreId} {f : Fields} {v : Word} (h : Issues s c [f.d])
    (hf : f.only true false false 0 0xFFF = true) (hv : csrValue s c.val f.imm.toNat = some v) :
    exec (.csrr c f) s = .next (withCore s c (passed (holding ((s.core c.val).csrReadClears f.imm.toNat) f.d v) 8)) := by
  rw [show exec (.csrr c f) s = execCsrr c f s from rfl, execCsrr, live_issue_of_Issues h hf]
  simp only [hv, modCore_eq_withCore, advance_short, setSreg_eq_holding]

/-- A CSRR of an unlisted number is refused (R177). -/
theorem exec_csrr_unlisted {s : State} {c : CoreId} {f : Fields} (h : Issues s c [f.d])
    (hf : f.only true false false 0 0xFFF = true) (hv : csrValue s c.val f.imm.toNat = none) :
    exec (.csrr c f) s = .next (refuse s c.val fCsrAccess) := by
  rw [show exec (.csrr c f) s = execCsrr c f s from rfl, execCsrr, live_issue_of_Issues h hf]
  simp only [hv]

/-- The low bits of a word are the word cut to them. -/
theorem field_zero_eq_setWidth {n : Nat} (x : BitVec n) (w : Nat) : field x 0 w = x.setWidth w := by
  apply BitVec.eq_of_getLsbD_eq
  simp [field]

/-- A CSRW that issues clears bits of WRAP or of FLAGS, and refuses any other number (R11, R177, R190). -/
theorem exec_csrw_of_Issues {s : State} {c : CoreId} {f : Fields} (h : Issues s c [f.a])
    (hf : f.only false true false 0 0xFFF = true) :
    let k := s.core c.val
    let v := k.sreg f.a.toNat
    exec (.csrw c f) s = .next (
      if f.imm.toNat = 0x035 then withCore s c (passed
        { k with csr := { k.csr with wrap := w1c k.csr.wrap k.csr.newWrap (v.setWidth 5) } } 8)
      else if f.imm.toNat = 0x040 then withCore s c (passed (k.clearFlags v) 8)
      else refuse s c.val fCsrAccess) := by
  rw [show exec (.csrw c f) s = execCsrw c f s from rfl, execCsrw, live_issue_of_Issues h hf]
  simp only [modCore_eq_withCore, advance_short, field_zero_eq_setWidth]

/-- Settles O9: the fields are in order, so the instruction has its own effect, which is the core the statement names. -/
theorem csrAccessReadsAndClears : Obligations.CsrAccessReadsAndClears := by
  unfold Obligations.CsrAccessReadsAndClears
  intro s c f
  refine ⟨fun h ha hb hx hn => ⟨fun v hv => ?_, fun hv => ?_⟩, fun h hd hb hx hn => ?_⟩
  · exact exec_csrr_listed h (csrr_fields ha hb hx hn) hv
  · exact exec_csrr_unlisted h (csrr_fields ha hb hx hn) hv
  · have hw := exec_csrw_of_Issues h (csrw_fields hd hb hx hn)
    refine ⟨fun h35 => ?_, fun h40 => ?_, fun h35 h40 => ?_⟩
    · rw [hw, if_pos h35]; rfl
    · rw [hw, if_neg (by omega), if_pos h40]; rfl
    · rw [hw, if_neg h35, if_neg h40]; rfl

end Sys2Proof.Machine
end
section
/-!
SUPPORT. Little-endian numbers, fields, and runs of bytes (R5, R7): what a number spells, and what a run of memory reads.
-/
namespace Sys2Proof

/-- n bytes are spelled. -/
@[simp] theorem leBytes_length (n v : Nat) : (leBytes n v).length = n := by
  induction n generalizing v with
  | zero => rfl
  | succ n ih => simp [leBytes, ih]

/-- n bytes spell a number modulo 256^n. -/
theorem leNat_leBytes (n v : Nat) : leNat (leBytes n v) = v % 256 ^ n := by
  induction n generalizing v with
  | zero => simp [leBytes, leNat, Nat.mod_one]
  | succ n ih =>
    have hsplit : v % (256 * 256 ^ n) = v % 256 + 256 * (v / 256 % 256 ^ n) := Nat.mod_mul
    rw [leBytes, leNat, ih, BitVec.toNat_ofNat, Nat.pow_succ' (m := 256), hsplit]

/-- Taking as many bytes as a list starts with pads nothing. -/
theorem takePad_append (l m : List Byte) : takePad l.length (l ++ m) = l := by
  simp [takePad]

/-- A field of bytes that stand in a list is their number. -/
theorem leField_mid (pre mid post : List Byte) : leField (pre ++ (mid ++ post)) pre.length mid.length = leNat mid := by
  rw [leField, List.drop_left, takePad_append]

/-- The eight bytes of a word spell it. -/
theorem ofNat_leField_leBytes (v : Word) : BitVec.ofNat 64 (leField (leBytes 8 v.toNat) 0 8) = v := by
  have h := leField_mid [] (leBytes 8 v.toNat) []
  rw [leBytes_length, leNat_leBytes, List.append_nil] at h
  rw [show leField (leBytes 8 v.toNat) 0 8 = v.toNat % 256 ^ 8 from h, Nat.mod_eq_of_lt (by omega), BitVec.ofNat_toNat,
    BitVec.setWidth_eq]

/-- A bit of a word cut to w bits is the word's bit. -/
theorem bit_setWidth {n w i : Nat} (v : BitVec n) (h : i < w) : bit (v.setWidth w) i = bit v i := by
  simp [bit, h]

end Sys2Proof

namespace Sys2Proof.Machine

/-- A run of bytes is two runs on end. -/
theorem bytesAt_add (s : State) (a m n : Nat) : s.bytesAt a (m + n) = s.bytesAt a m ++ s.bytesAt (a + m) n := by
  induction m generalizing a with
  | zero => simp [State.bytesAt]
  | succ m ih =>
    rw [show m + 1 + n = (m + n) + 1 by omega, State.bytesAt, ih, State.bytesAt, List.cons_append,
      show a + 1 + m = a + (m + 1) by omega]

/-- A field of a run of bytes is the number of its own bytes. -/
theorem leField_bytesAt (s : State) (a : Nat) {j m n : Nat} (h : j + m ≤ n) :
    leField (s.bytesAt a n) j m = leNat (s.bytesAt (a + j) m) := by
  have hrun : s.bytesAt a n = s.bytesAt a j ++ (s.bytesAt (a + j) m ++ s.bytesAt (a + j + m) (n - (j + m))) := by
    rw [← bytesAt_add, ← bytesAt_add]
    congr 1
    omega
  have hfield := leField_mid (s.bytesAt a j) (s.bytesAt (a + j) m) (s.bytesAt (a + j + m) (n - (j + m)))
  rw [bytesAt_length, bytesAt_length] at hfield
  rw [hrun, hfield]

/-- Byte i of a run. -/
theorem getElem_bytesAt (s : State) (a n i : Nat) (h : i < (s.bytesAt a n).length) : (s.bytesAt a n)[i] = s.byteAt (a + i) := by
  induction n generalizing a i with
  | zero => simp [State.bytesAt] at h
  | succ n ih =>
    cases i with
    | zero => simp [State.bytesAt]
    | succ i => simp only [State.bytesAt, List.getElem_cons_succ, ih, show a + 1 + i = a + (i + 1) by omega]

/-- Bytes written in the middle of a write read back there. -/
theorem bytesAt_memWrite_mid (s : State) (a : Nat) (pre mid post : List Byte) :
    (memWrite s a (pre ++ (mid ++ post))).1.bytesAt (a + pre.length) mid.length = mid := by
  apply List.ext_getElem
  · simp
  · intro i h1 h2
    rw [getElem_bytesAt, byteAt_memWrite, if_pos (by simp only [List.length_append]; omega)]
    have hi : a + pre.length + i - a = pre.length + i := by omega
    simp [hi, List.getElem?_append_right, List.getElem?_append_left, h2]

/-- A write over bytes that all pass their check meets no failed granule (R118, R119). -/
theorem memWrite_met_of_not_detects {s : State} {a : Nat} {data : List Byte} (h : s.detects a data.length = false) :
    (memWrite s a data).2 = false := by
  simp only [State.detects, Bool.or_eq_false_iff, List.any_eq_false] at h
  obtain ⟨hbad, -⟩ := h
  simp only [memWrite, List.any_eq_false]
  intro g hg hmet
  simp only [Bool.and_eq_true] at hmet
  obtain ⟨⟨-, hlo⟩, hhi⟩ := hmet
  exact hbad g hg (by simp only [hlo, hhi, Bool.and_self])

end Sys2Proof.Machine
end

section
/-!
SUPPORT. Control space as Skovi writes it, one block at a time (R393 to R407): the registers a write covers, the block an
address lies in, and what is read back.
-/
namespace Sys2Proof.Machine

open Sys2Proof.Stated

/-! ### The registers a write covers (R393) -/

/-- Fewer than eight bytes cover no register. -/
theorem coveredRegisters_short {a n : Nat} (h : n < 8) : coveredRegisters a n = [] := by
  have : (a + n - (a + 7) / 8 * 8) / 8 = 0 := by omega
  simp [coveredRegisters, this]

/-- Eight bytes at an aligned address cover the register there. -/
theorem coveredRegisters_word {a : Nat} (h : a % 8 = 0) : coveredRegisters a 8 = [a] := by
  have h1 : (a + 7) / 8 * 8 = a := by omega
  simp [coveredRegisters, h1]

/-- A write that covers no register changes nothing. -/
theorem writeControl_short (s : State) {a : Nat} {data : List Byte} (hmb : mbOf a = none) (h : data.length < 8) :
    writeControl s a data = s := by
  simp [writeControl, hmb, coveredRegisters_short h]

/-- A write of one word at an aligned address writes that register. -/
theorem writeControl_word (s : State) {a : Nat} (v : Word) (hmb : mbOf a = none) (h : a % 8 = 0) :
    writeControl s a (leBytes 8 v.toNat) = writeRegister s a v := by
  have hboth : ([a].contains 0xF000020028 && [a].contains 0xF000020030) = false := by
    simp only [List.contains_cons, List.contains_nil, Bool.or_false, Bool.and_eq_false_iff, beq_eq_false_iff_ne]
    omega
  simp only [writeControl, hmb, leBytes_length, coveredRegisters_word h, hboth, List.foldl_cons, List.foldl_nil,
    Nat.sub_self, ofNat_leField_leBytes, Bool.false_eq_true, if_false]

/-- REGISTER_WRITE of one word to the register at an aligned address outside the mailbox windows. -/
theorem exec_registerWrite_word {s : State} (h : Clocked s) {a : Dla} (v : Word) (hmb : mbOf a.toNat = none)
    (ha : a.toNat % 8 = 0) : exec (.registerWrite a (leBytes 8 v.toNat)) s = .next (writeRegister s a.toNat v) := by
  rw [show exec (.registerWrite a (leBytes 8 v.toNat)) s = execRegisterWrite a (leBytes 8 v.toNat) s from rfl,
    execRegisterWrite, live_of_Clocked h, writeControl_word s v hmb ha]

/-! ### The block an address lies in -/

/-- No mailbox window lies below the first. -/
theorem mbOf_below {a : Nat} (h : a < 0xF000100000) : mbOf a = none := by
  simp only [mbOf, ite_eq_right_iff, Bool.and_eq_true, decide_eq_true_eq]
  omega

/-- No mailbox window lies past the last. -/
theorem mbOf_past {a : Nat} (h : 0xF000200000 ≤ a) : mbOf a = none := by
  simp only [mbOf, ite_eq_right_iff, Bool.and_eq_true, decide_eq_true_eq]
  omega

/-- A word written to the identity block (Table 19-2). -/
theorem exec_write_identity {s : State} (h : Clocked s) {a : Dla} {o : Nat} (v : Word) (ha : a.toNat = 0xF000000000 + o)
    (ho : o < 0x10000) (h8 : o % 8 = 0) : exec (.registerWrite a (leBytes 8 v.toNat)) s = .next (writeIdentity s o v) := by
  rw [exec_registerWrite_word h v (mbOf_below (by omega)) (by omega), writeRegister, ha]
  have e : 0xF000000000 + o - 0xF000000000 = o := by omega
  simp only [e]
  rw [if_neg (by omega), if_pos ho]

/-- The port whose block an offset of control space lies in. -/
theorem port_of_offset (p : PortId) {o : Nat} (ho : o < 0x4000) :
    BitVec.toFin (BitVec.ofNat 2 ((0x10000 + p.val * 0x4000 + o - 0x10000) / 0x4000)) = p := by
  have hp := p.isLt
  have hq : (0x10000 + p.val * 0x4000 + o - 0x10000) / 0x4000 = p.val := by omega
  apply Fin.ext
  rw [hq, BitVec.val_toFin, BitVec.toNat_ofNat]
  exact Nat.mod_eq_of_lt hp

/-- A word written to a port's block (Table 19-3). -/
theorem exec_write_port {s : State} (h : Clocked s) {a : Dla} {p : PortId} {o : Nat} (v : Word)
    (ha : a.toNat = 0xF000010000 + p.val * 0x4000 + o) (ho : o < 0x4000) (h8 : o % 8 = 0) :
    exec (.registerWrite a (leBytes 8 v.toNat)) s = .next (writePort s p o v) := by
  have hp := p.isLt
  rw [exec_registerWrite_word h v (mbOf_below (by omega)) (by omega), writeRegister, ha]
  have e : 0xF000010000 + p.val * 0x4000 + o - 0xF000000000 = 0x10000 + p.val * 0x4000 + o := by omega
  have hoff : (0x10000 + p.val * 0x4000 + o) % 0x4000 = o := by omega
  simp only [e, port_of_offset p ho, hoff]
  rw [if_neg (by omega), if_neg (by omega), if_pos (by omega)]

/-- A word written to the Mast block (Table 19-4). -/
theorem exec_write_mast {s : State} (h : Clocked s) {a : Dla} {o : Nat} (v : Word) (ha : a.toNat = 0xF000020000 + o)
    (ho : o < 0x10000) (h8 : o % 8 = 0) : exec (.registerWrite a (leBytes 8 v.toNat)) s = .next (writeMast s o v) := by
  rw [exec_registerWrite_word h v (mbOf_below (by omega)) (by omega), writeRegister, ha]
  have e : 0xF000020000 + o - 0xF000000000 = 0x20000 + o := by omega
  have hoff : (0x20000 + o) % 0x10000 = o := by omega
  simp only [e, hoff]
  rw [if_neg (by omega), if_neg (by omega), if_neg (by omega), if_pos (by omega)]

/-- A word written to the debug block (R402, R403). -/
theorem exec_write_debug {s : State} (h : Clocked s) {a : Dla} {o : Nat} (v : Word) (ha : a.toNat = 0xF000030000 + o)
    (ho : o < 0x10000) (h8 : o % 8 = 0) : exec (.registerWrite a (leBytes 8 v.toNat)) s = .next (writeDebug s o v) := by
  rw [exec_registerWrite_word h v (mbOf_below (by omega)) (by omega), writeRegister, ha]
  have e : 0xF000030000 + o - 0xF000000000 = 0x30000 + o := by omega
  have hoff : (0x30000 + o) % 0x10000 = o := by omega
  simp only [e, hoff]
  rw [if_neg (by omega), if_neg (by omega), if_neg (by omega), if_neg (by omega), if_pos (by omega)]

/-- The core whose block an offset of control space lies in. -/
theorem core_of_offset (c : CoreId) {o : Nat} (ho : o < 0x10000) :
    Fin.ofNat 48 ((0x1000000 + c.val * 0x10000 + o - 0x1000000) / 0x10000) = c := by
  have hc := c.isLt
  apply Fin.ext
  simp only [Fin.val_ofNat]
  omega

/-- A word written to a core's block (Table 19-5). -/
theorem exec_write_cu {s : State} (h : Clocked s) {a : Dla} {c : CoreId} {o : Nat} (v : Word)
    (ha : a.toNat = 0xF001000000 + c.val * 0x10000 + o) (ho : o < 0x10000) (h8 : o % 8 = 0) :
    exec (.registerWrite a (leBytes 8 v.toNat)) s = .next (writeCu s c o v) := by
  have hc := c.isLt
  rw [exec_registerWrite_word h v (mbOf_past (by omega)) (by omega), writeRegister, ha]
  have e : 0xF001000000 + c.val * 0x10000 + o - 0xF000000000 = 0x1000000 + c.val * 0x10000 + o := by omega
  have hoff : (0x1000000 + c.val * 0x10000 + o) % 0x10000 = o := by omega
  simp only [e, hoff, core_of_offset c ho]
  rw [if_neg (by omega), if_neg (by omega), if_neg (by omega), if_neg (by omega), if_neg (by omega), if_pos]
  simp only [Bool.and_eq_true, decide_eq_true_eq]
  omega

/-- A register of the debug block reads as the block shows it. -/
theorem readRegister_debug (s : State) {o : Nat} (ho : o < 0x10000) : readRegister s (0xF000030000 + o) = readDebug s o := by
  have e : 0xF000030000 + o - 0xF000000000 = 0x30000 + o := by omega
  have hoff : (0x30000 + o) % 0x10000 = o := by omega
  rw [readRegister, mbOf_below (by omega)]
  simp only [e, hoff]
  rw [if_neg (by omega), if_neg (by omega), if_neg (by omega), if_neg (by omega), if_pos (by omega)]

/-- A register of a core's block reads as the block shows it. -/
theorem readRegister_cu (s : State) (c : CoreId) {o : Nat} (ho : o < 0x10000) :
    readRegister s (0xF001000000 + c.val * 0x10000 + o) = readCu s c o := by
  have hc := c.isLt
  have e : 0xF001000000 + c.val * 0x10000 + o - 0xF000000000 = 0x1000000 + c.val * 0x10000 + o := by omega
  have hoff : (0x1000000 + c.val * 0x10000 + o) % 0x10000 = o := by omega
  rw [readRegister, mbOf_past (by omega)]
  simp only [e, hoff, core_of_offset c ho]
  rw [if_neg (by omega), if_neg (by omega), if_neg (by omega), if_neg (by omega), if_neg (by omega), if_pos]
  simp only [Bool.and_eq_true, decide_eq_true_eq]
  omega

/-- An offset in a core's block as a DLA. -/
theorem toNat_base_add {c : CoreId} {base : Dla} {o : Nat} (hb : base.toNat = 0xF001000000 + c.val * 0x10000)
    (ho : o < 0x10000) : (base + BitVec.ofNat 40 o).toNat = 0xF001000000 + c.val * 0x10000 + o := by
  have hc := c.isLt
  rw [BitVec.toNat_add, BitVec.toNat_ofNat, hb]
  omega

end Sys2Proof.Machine
end

section
/-!
SUPPORT. The commands of Skovi that are no plain register: the period change (R401), the capture queue (R354, R396) and the
debug access engine (R403).
-/
namespace Sys2Proof.Machine

open Sys2Proof.Stated

/-! ### The period change (R401) -/

/-- Booking REFRESH changes the die's bookings and what they owe, and nothing else. -/
theorem bookRefresh_eq (s : State) (n : Nat) :
    bookRefresh s n = { s with dieBookings := (bookRefresh s n).dieBookings, owed := (bookRefresh s n).owed } := by
  unfold bookRefresh writeDieBooking
  dsimp only
  split <;> rfl

/-- A period change of a fitting period and stroke is scheduled. -/
theorem writePeriod_fits {s : State} {period e : Word} (hst : s.mast.st ≠ .unlocked) (he : s.mast.stroke.toNat + 2 ≤ e.toNat)
    (h1 : 1 ≤ (field period 16 10).toNat) (h2 : (field period 16 10).toNat ≤ 1000) :
    writePeriod s period e = schedulePeriod s (field period 16 10) e := by
  have hne : field period 16 10 ≠ 0 := fun h0 => by simp [h0] at h1
  have hle : field period 16 10 ≤ 1000 := BitVec.le_def.mpr h2
  rw [writePeriod, if_pos]
  simp only [Bool.and_eq_true, Mast.canChange, bne_iff_ne, decide_eq_true_eq]
  exact ⟨⟨⟨hst, he⟩, hne⟩, hle⟩

/-- Any other period change is ignored. -/
theorem writePeriod_unfit {s : State} {period e : Word}
    (h : ¬ (s.mast.st ≠ .unlocked ∧ s.mast.stroke.toNat + 2 ≤ e.toNat ∧
      1 ≤ (field period 16 10).toNat ∧ (field period 16 10).toNat ≤ 1000)) : writePeriod s period e = s := by
  rw [writePeriod, if_neg]
  simp only [Bool.and_eq_true, Mast.canChange, bne_iff_ne, decide_eq_true_eq]
  rintro ⟨⟨⟨hst, he⟩, hne⟩, hle⟩
  have h1 : (field period 16 10).toNat ≠ 0 := fun h0 => hne (BitVec.eq_of_toNat_eq h0)
  exact h ⟨hst, he, by omega, BitVec.le_def.mp hle⟩

/-! ### Events of vectors (R285, R286) -/

/-- From s to t only the partitions and the queued interrupts change. -/
def OnlyVectors (s t : State) : Prop := t = { s with parts := t.parts, intrs := t.intrs }

/-- Nothing changed is nothing but vectors changed. -/
theorem OnlyVectors.refl (s : State) : OnlyVectors s s := rfl

/-- Two such changes in a row are one. -/
theorem OnlyVectors.trans {s t u : State} (h : OnlyVectors s t) (h' : OnlyVectors t u) : OnlyVectors s u := by
  unfold OnlyVectors at *
  rw [h', h]

/-- A message formed changes its vector and the queue of interrupts. -/
theorem formIntr_onlyVectors (s : State) (colour v : Nat) : OnlyVectors s (formIntr s colour v) := by
  unfold formIntr
  dsimp only
  split <;> rfl

/-- An event of a vector changes its vector and the queue of interrupts. -/
theorem vecEvent_onlyVectors (colour : Nat) (s : State) (v : Nat) : OnlyVectors s (vecEvent colour s v) := by
  unfold vecEvent
  dsimp only
  split
  · rfl
  · split
    · rfl
    · refine OnlyVectors.trans ?_ (formIntr_onlyVectors ..)
      rfl

/-- An EVENT of a colour changes its vectors and the queue of interrupts. -/
theorem fwEvent_onlyVectors (s : State) (colour : Nat) (ev : Byte) : OnlyVectors s (fwEvent s colour ev) := by
  unfold fwEvent
  split
  · exact .refl s
  · generalize vecsWhere s colour (fun x => x.src == 2 && x.event == ev) = vs
    induction vs generalizing s with
    | nil => exact .refl s
    | cons v vs ih => exact (vecEvent_onlyVectors colour s v).trans (ih _)

/-! ### The capture queue (R354, R396) -/

/-- Entering a record leaves the capture queue and the records that wait. -/
theorem Log.enter_queues (l : Log) (r : LogRec) : (l.enter r).capq = l.capq ∧ (l.enter r).waiting = l.waiting := by
  unfold Log.enter
  split
  · split <;> exact ⟨rfl, rfl⟩
  · exact ⟨rfl, rfl⟩

/-- A record entered in an empty log is its first entry. -/
theorem Log.enter_empty {l : Log} (r : LogRec) (h : l.entries = []) :
    l.enter r = { l with entries := [{ r with index := l.nextIndex, repeats := 0 }], nextIndex := l.nextIndex + 1 } := by
  simp [Log.enter, h]

/-- A pop takes the oldest record off the capture queue, moves the oldest waiting one in, and enters the first. -/
theorem Log.pop_cons {l : Log} {r : LogRec} {rest : List LogRec} (h : l.capq = r :: rest) :
    l.pop = ({ l with capq := rest ++ l.waiting.take 1, waiting := l.waiting.drop 1 }).enter r := by
  obtain ⟨capq, waiting⟩ := l
  subst h
  cases waiting <;> simp [Log.pop]

/-- With no record waiting in the capture queue, a pop changes nothing. -/
theorem execCapqPop_empty {s : State} (h : Clocked s) (hq : s.log.capq = []) : execCapqPop s = .next s := by
  rw [execCapqPop, awake_of_powered h.1 h.2.1]
  simp [popCapture, hq]

/-- A pop of the capture queue leaves the popped log, and cores and memory as they were. -/
theorem popCapture_cons {s : State} {r : LogRec} {rest : List LogRec} (hq : s.log.capq = r :: rest) :
    (popCapture s).log = s.log.pop ∧ (popCapture s).cores = s.cores ∧ (popCapture s).mem = s.mem := by
  simp only [popCapture, hq]
  generalize Skovi.portDown _ r = k
  rw [fwEvent_onlyVectors { s with log := s.log.pop, skovi := k } r.colour.toNat 3]
  exact ⟨rfl, rfl, rfl⟩

/-! ### The debug access engine (R403) -/

/-- A write of DBG_CTRL by the command of its direction is a GO write. -/
theorem exec_debug {s : State} (h : Clocked s) (ctrl : Word) :
    exec (if bit ctrl 1 then .dbgWrite ctrl else .dbgRead ctrl) s = .next (debugGo s ctrl) := by
  cases hw : bit ctrl 1
  · rw [if_neg (by decide), show exec (.dbgRead ctrl) s = execDbgRead ctrl s from rfl, execDbgRead, live_of_Clocked h]
    simp only [hw, Bool.false_eq_true, if_false]
  · rw [if_pos rfl, show exec (.dbgWrite ctrl) s = execDbgWrite ctrl s from rfl, execDbgWrite, live_of_Clocked h]
    simp only [hw, if_true]

/-- The bytes of the words of DBG_DATA that a debug access writes. -/
def Debug.bytes (d : Debug) (words : Nat) : List Byte :=
  (List.range words).flatMap (fun k => leBytes 8 (Table.get 0 d.data k).toNat)

@[simp] theorem Debug.bytes_length (d : Debug) (words : Nat) : (d.bytes words).length = 8 * words := by
  simp [Debug.bytes, List.length_flatMap, Nat.mul_comm]

/-- The bytes of n words are those of the words before word k, of word k, and of the words after it. -/
theorem Debug.bytes_split (d : Debug) {k n : Nat} (h : k < n) :
    ∃ post, d.bytes n = d.bytes k ++ (leBytes 8 (Table.get 0 d.data k).toNat ++ post) := by
  obtain ⟨m, rfl⟩ : ∃ m, n = k + (1 + m) := ⟨n - k - 1, by omega⟩
  refine ⟨((List.range m).map (k + 1 + ·)).flatMap (fun j => leBytes 8 (Table.get 0 d.data j).toNat), ?_⟩
  simp only [Debug.bytes, List.range_add, List.flatMap_append, List.map_append, List.range_one, List.map_cons,
    List.map_nil, List.flatMap_cons, List.flatMap_nil, List.append_nil, List.map_map, Nat.add_zero]
  simp only [Function.comp_def, Nat.add_assoc]

/-- A write of memory leaves the debug engine. -/
@[simp] theorem memWrite_dbg (s : State) (a : Nat) (data : List Byte) : (memWrite s a data).1.dbg = s.dbg := rfl

/-- LEVEL allows a read at any level but 0, and a write at 2. -/
theorem level_allows {d : Debug} {write : Bool} (hl : d.level ≠ 0) (hw : write = true → d.level = 2) :
    (d.level = 0 || (write && d.level != 2)) = false := by
  simp only [Bool.or_eq_false_iff, decide_eq_false_iff_not, Bool.and_eq_false_imp, bne_eq_false_iff_eq]
  exact ⟨hl, hw⟩

/-- A write without GO, or while BUSY, is ignored. -/
theorem debugGo_ignored {s : State} {ctrl : Word} (h : ¬ (bit ctrl 0 = true ∧ s.dbg.busy = false)) : debugGo s ctrl = s := by
  rw [debugGo, if_pos]
  simpa [Decidable.imp_iff_not_or] using h

section
variable {s : State} {ctrl : Word} {a n : Nat} (ha : s.dbg.addr.toNat = a) (hn : (field ctrl 4 5).toNat + 1 = n)
  (hgo : bit ctrl 0 = true ∧ s.dbg.busy = false)
include ha hn hgo

/-- An access with a word of a colour outside the mask is refused with COLOUR. -/
theorem debugGo_colour (hc : s.debugColours a n = false) : debugGo s ctrl = { s with dbg := { s.dbg with result := 2 } } := by
  simp only [debugGo, ha, hn, hgo, hc, Bool.not_true, Bool.not_false, Bool.or_false, Bool.false_eq_true, if_false, if_true]

variable (hc : s.debugColours a n = true)
include hc

/-- An access that LEVEL does not allow is refused with LEVEL. -/
theorem debugGo_level (hl : s.dbg.level = 0 ∨ (bit ctrl 1 = true ∧ s.dbg.level ≠ 2)) :
    debugGo s ctrl = { s with dbg := { s.dbg with result := 1 } } := by
  have hl' : (s.dbg.level = 0 || (bit ctrl 1 && s.dbg.level != 2)) = true := by simpa using hl
  simp only [debugGo, ha, hn, hgo, hc, hl', Bool.not_true, Bool.or_false, Bool.false_eq_true, if_false, if_true]

variable (hl : (s.dbg.level = 0 || (bit ctrl 1 && s.dbg.level != 2)) = false)
include hl

/-- An access to an address that is not mapped is refused with UNMAPPED. -/
theorem debugGo_unmapped (hp : s.place a (8 * n) = .unmapped) : debugGo s ctrl = { s with dbg := { s.dbg with result := 3 } } := by
  simp only [debugGo, ha, hn, hgo, hc, hl, hp, Bool.not_true, Bool.or_false, Bool.false_eq_true, if_false, beq_self_eq_true, if_true]

variable (hp : s.place a (8 * n) ≠ .unmapped) (hd : s.detects a (8 * n) = false)
include hp hd

/-- A read takes its words into DBG_DATA. -/
theorem debugGo_read (hr : bit ctrl 1 = false) :
    debugGo s ctrl = { s with dbg := { s.dbg with
      busy := true, settle := 0, data := putData s.dbg.data (s.bytesAt a (8 * n)) n } } := by
  rw [hr] at hl
  simp only [debugGo, ha, hn, hgo, hc, hl, hd, beq_eq_false_iff_ne.mpr hp, hr, Bool.not_true, Bool.or_false, Bool.false_eq_true, if_false]

/-- A write puts its words in memory. -/
theorem debugGo_write (hw : bit ctrl 1 = true) :
    debugGo s ctrl = { (memWrite s a (s.dbg.bytes n)).1 with dbg := { s.dbg with busy := true, settle := 0 } } := by
  have hmet : (memWrite s a (s.dbg.bytes n)).2 = false := memWrite_met_of_not_detects (by rwa [Debug.bytes_length])
  rw [Debug.bytes] at hmet ⊢
  rw [hw] at hl
  simp only [debugGo, ha, hn, hgo, hc, hl, beq_eq_false_iff_ne.mpr hp, hw, hmet, Bool.not_true, Bool.or_false, Bool.false_eq_true,
    if_false, if_true, memWrite_dbg]

end

/-- Register k of DBG_DATA takes field k of the bytes read. -/
theorem get_putData (t : Table Word) (bytes : List Byte) {words k : Nat} (h : k < words) :
    Table.get 0 (putData t bytes words) k = BitVec.ofNat 64 (leField bytes (8 * k) 8) := by
  induction words with
  | zero => omega
  | succ n ih =>
    rw [putData, List.range_succ, List.foldl_append, List.foldl_cons, List.foldl_nil, Table.get_set]
    split
    · subst_vars; rfl
    · exact ih (by omega)

/-- Word k that a debug write puts in memory is word k of DBG_DATA. -/
theorem bytesAt_memWrite_debug (s : State) (d : Debug) (a : Nat) {k n : Nat} (h : k < n) :
    (memWrite s a (d.bytes n)).1.bytesAt (a + 8 * k) 8 = leBytes 8 (Table.get 0 d.data k).toNat := by
  obtain ⟨post, hsplit⟩ := d.bytes_split h
  have hmid := bytesAt_memWrite_mid s a (d.bytes k) (leBytes 8 (Table.get 0 d.data k).toNat) post
  rw [Debug.bytes_length, leBytes_length] at hmid
  rw [hsplit, hmid]

end Sys2Proof.Machine
end

section
/-!
SUPPORT. O56, register by register and command by command.
-/
namespace Sys2Proof.Machine

open Sys2Proof.Stated

/-! ### Registers of the die -/

/-- MAST_FLAGS written with a word: each 1 clears its flag, unless hardware set it in this CCLK (R11, R401). -/
theorem clearFlags_setWidth (m : Mast) (v : Word) : m.clearFlags (v.setWidth 3) = { m with
    lost := m.lost && (!bit v 0 || bit m.newFlags 0), mismatch := m.mismatch && (!bit v 1 || bit m.newFlags 1)
    regress := m.regress && (!bit v 2 || bit m.newFlags 2) } := by
  simp only [Mast.clearFlags, bit_setWidth v (show 0 < 3 by decide), bit_setWidth v (show 1 < 3 by decide),
    bit_setWidth v (show 2 < 3 by decide)]

/-- HL_WRAP keeps the bits that are not written and those set in this CCLK (R11, R400). -/
theorem writePort_wrap_counts (s : State) (p : PortId) (v : Word) :
    ((writePort s p 0x80 v).port p.val).counts = { (s.port p.val).counts with
      wrap := (s.port p.val).counts.wrap &&& ~~~ (v.setWidth 8 &&& ~~~ (s.port p.val).counts.newWrap) } := by
  rw [writePort, if_neg (by decide), if_pos rfl, State.port_modPort_same]
  rfl

/-- DBG_ADDR reads back its implemented bits (R403). -/
theorem readDebug_writeDebug_addr (s : State) (v : Word) : readDebug (writeDebug s 0x100 v) 0x100 = v &&& 0xFFFFFFFFF8 := rfl

/-- DBG_DATA0 reads back what was written (R403). -/
theorem readDebug_writeDebug_data (s : State) (v : Word) : readDebug (writeDebug s 0x200 v) 0x200 = v :=
  Table.get_set_same ..

/-! ### Registers of a core -/

/-- FLAGS of a powered core: each 1 clears its flag, unless it was set in this CCLK (R11, R190). -/
theorem writeCu_flags {s : State} {c : CoreId} (v : Word) (hon : (s.core c.val).on = true) :
    writeCu s c 0x200 v = s.setCore c.val ((s.core c.val).clearFlags v) := by
  simp [writeCu, hon]

/-- WRAP of a powered core: each 1 clears its bit, unless it was set in this CCLK (R11, R177). -/
theorem writeCu_wrap {s : State} {c : CoreId} (v : Word) (hon : (s.core c.val).on = true) :
    writeCu s c 0x1A8 v = s.setCore c.val { s.core c.val with csr := { (s.core c.val).csr with
      wrap := w1c (s.core c.val).csr.wrap (s.core c.val).csr.newWrap (v.setWidth 5) } } := by
  simp [writeCu, hon]

/-- CU_CTRL of a powered core acts by its action bit (R406). -/
theorem writeCu_ctrl {s : State} {c : CoreId} (v : Word) (hon : (s.core c.val).on = true) :
    writeCu s c 0x8000 v = writeCtrl s c v := by
  simp [writeCu, hon]

/-- CU_PC of a stopped core takes a multiple of 8: bits 2 to 0 are dropped, by the model's choice (R404; assumption 124). -/
theorem writeCu_pc_stopped {s : State} {c : CoreId} (v : Word) (hon : (s.core c.val).on = true)
    (hst : (s.core c.val).st = .stopped) : writeCu s c 0x8008 v = s.setCore c.val { s.core c.val with
      csr := { (s.core c.val).csr with pc := v.setWidth 40 &&& ~~~ (7 : Dla) } } := by
  simp [writeCu, hon, hst]

/-- CU_PC of a running core takes no write (R404). -/
theorem writeCu_pc_run {s : State} {c : CoreId} (v : Word) (hon : (s.core c.val).on = true) (hst : (s.core c.val).st = .run) :
    writeCu s c 0x8008 v = s := by
  simp [writeCu, hon, hst]

/-- CU_PC of a powered core reads its PC (R404). -/
theorem readCu_pc {s : State} {c : CoreId} (hon : (s.core c.val).on = true) :
    readCu s c 0x8008 = (s.core c.val).csr.pc.setWidth 64 := by
  simp [readCu, hon]

/-- A DLA cut to a multiple of 8, as a word, is the word under the mask of its implemented bits. -/
theorem setWidth_dla_aligned (v : Word) : (v.setWidth 40 &&& ~~~ (7 : Dla)).setWidth 64 = v &&& 0xFFFFFFFFF8 := by
  apply BitVec.eq_of_getLsbD_eq
  intro i hi
  interval_cases i <;> simp

/-! ### The commands of O56 -/

/-- FLAGS, WRAP, CU_PC and CU_CTRL of a powered core take whole words (R394, R404, R406). -/
theorem exec_write_core_registers {s : State} (hs : Clocked s) (v : Word) (c : CoreId) (base : Dla)
    (hb : base.toNat = 0xF001000000 + c.val * 0x10000) (hon : (s.core c.val).on = true) :
    let put := fun (a : Dla) (v : Word) => exec (.registerWrite a (leBytes 8 v.toNat)) s
    (∃ t, put (base + 0x200) v = .next t ∧ t.core c.val = { s.core c.val with csr := { (s.core c.val).csr with
      flags := (s.core c.val).csr.flags &&& ~~~ (v &&& ~~~ (s.core c.val).flagSets) } }) ∧
    (∃ t, put (base + 0x1A8) v = .next t ∧ t.core c.val = { s.core c.val with csr := { (s.core c.val).csr with
      wrap := (s.core c.val).csr.wrap &&& ~~~ (v.setWidth 5 &&& ~~~ (s.core c.val).csr.newWrap) } }) ∧
    ((s.core c.val).st = .stopped → ∃ t, put (base + 0x8008) v = .next t ∧
      readRegister t (base + 0x8008).toNat = v &&& 0xFFFFFFFFF8) ∧
    ((s.core c.val).st = .run → put (base + 0x8008) v = .next s) ∧
    put (base + 0x8000) 1 = exec (.cuRun c) s ∧ put (base + 0x8000) 3 = .next s := by
  intro put
  have hput : ∀ (o : Nat) (v : Word), o < 0x10000 → o % 8 = 0 → put (base + BitVec.ofNat 40 o) v = .next (writeCu s c o v) :=
    fun o v ho h8 => exec_write_cu hs v (toNat_base_add hb ho) ho h8
  have hpc : put (base + 0x8008) v = .next (writeCu s c 0x8008 v) := hput 0x8008 v (by decide) (by decide)
  have hctrl : ∀ v, put (base + 0x8000) v = .next (writeCtrl s c v) := fun v => by
    rw [← writeCu_ctrl v hon]
    exact hput 0x8000 v (by decide) (by decide)
  refine ⟨⟨_, hput 0x200 v (by decide) (by decide), ?_⟩, ⟨_, hput 0x1A8 v (by decide) (by decide), ?_⟩,
    fun hst => ⟨_, hpc, ?_⟩, fun hst => ?_, hctrl 1, hctrl 3⟩
  · rw [writeCu_flags v hon, State.core_setCore_same]
    rfl
  · rw [writeCu_wrap v hon, State.core_setCore_same]
    rfl
  · have hdla : (base + 0x8008).toNat = 0xF001000000 + c.val * 0x10000 + 0x8008 := toNat_base_add hb (by decide)
    rw [hdla, readRegister_cu _ c (by decide), writeCu_pc_stopped v hon hst, readCu_pc (by rw [State.core_setCore_same]; exact hon),
      State.core_setCore_same, setWidth_dla_aligned]
  · rw [hpc, writeCu_pc_run v hon hst]

/-- MAST_PERIOD_WRITE schedules a change that fits, and ignores any other (R401). -/
theorem exec_mastPeriodWrite {s : State} (hs : Clocked s) (period e : Word) :
    let us := (field period 16 10).toNat
    let fits := s.mast.st ≠ .unlocked ∧ s.mast.stroke.toNat + 2 ≤ e.toNat ∧ 1 ≤ us ∧ us ≤ 1000
    (fits → ∃ t, exec (.mastPeriodWrite period e) s = .next t ∧ t = { s with mast := t.mast, dieBookings := t.dieBookings, owed := t.owed } ∧
      t.mast = { s.mast with next := field period 16 10, effective := e, regNext := field period 16 10, regEffective := e, pend := true }) ∧
    (¬ fits → exec (.mastPeriodWrite period e) s = .next s) := by
  intro us fits
  have hexec : exec (.mastPeriodWrite period e) s = .next (writePeriod s period e) :=
    live_of_Clocked (f := fun s => writePeriod s period e) hs
  rw [hexec]
  refine ⟨fun hf => ⟨_, rfl, ?_⟩, fun hf => by rw [writePeriod_unfit hf]⟩
  obtain ⟨hst, he, h1, h2⟩ := hf
  rw [writePeriod_fits hst he h1 h2, schedulePeriod, bookRefresh_eq]
  exact ⟨rfl, rfl⟩

/-- CAPQ_POP with a record in the queue moves the oldest into the log (R354, R396). -/
theorem exec_capqPop_cons {s : State} (hs : Clocked s) (hup : s.skovi.up = true) {r : LogRec} {l : List LogRec} (hq : s.log.capq = r :: l) :
    ∃ t, exec .capqPop s = .next t ∧ t.log.capq = l ++ s.log.waiting.take 1 ∧ t.log.waiting = s.log.waiting.drop 1 ∧
      (s.log.entries = [] → t.log.entries = [{ r with index := s.log.nextIndex, repeats := 0 }] ∧ t.log.nextIndex = s.log.nextIndex + 1) ∧
      t.cores = s.cores ∧ t.mem = s.mem := by
  have hexec : exec .capqPop s = .next (popCapture s) := by
    rw [show exec .capqPop s = execCapqPop s from rfl, execCapqPop, awake_of_powered hs.1 hs.2.1, if_pos hup]
  obtain ⟨hlog, hcores, hmem⟩ := popCapture_cons hq
  rw [Log.pop_cons hq] at hlog
  refine ⟨_, hexec, ?_, ?_, fun hempty => ?_, hcores, hmem⟩
  · rw [hlog]
    exact (Log.enter_queues ..).1
  · rw [hlog]
    exact (Log.enter_queues ..).2
  · rw [hlog, Log.enter_empty r (by exact hempty)]
    exact ⟨rfl, rfl⟩

/-- A debug read takes the words at DBG_ADDR into DBG_DATA and is BUSY until it settles (R403). -/
theorem exec_dbgRead {s : State} (hs : Clocked s) {ctrl : Word} {n : Nat} (hn : (field ctrl 4 5).toNat + 1 = n)
    (hgo : bit ctrl 0 = true ∧ s.dbg.busy = false) (hc : s.debugColours s.dbg.addr.toNat n = true) (hl : s.dbg.level ≠ 0)
    (hp : s.place s.dbg.addr.toNat (8 * n) ≠ .unmapped) (hd : s.detects s.dbg.addr.toNat (8 * n) = false) (hr : bit ctrl 1 = false) :
    ∃ t, exec (.dbgRead ctrl) s = .next t ∧ t = { s with dbg := t.dbg } ∧ t.dbg.busy = true ∧ t.dbg.settle = 0 ∧
      ∀ k, k < n → Table.get 0 t.dbg.data k = BitVec.ofNat 64 (leNat (s.bytesAt (s.dbg.addr.toNat + 8 * k) 8)) := by
  have hlev := level_allows (d := s.dbg) (write := bit ctrl 1) hl (by simp [hr])
  have hexec := exec_debug hs ctrl
  rw [hr, if_neg (by decide), debugGo_read rfl hn hgo hc hlev hp hd hr] at hexec
  refine ⟨_, hexec, rfl, rfl, rfl, fun k hk => ?_⟩
  rw [get_putData _ _ hk, leField_bytesAt _ _ (by omega)]

/-- A debug write puts the words of DBG_DATA at DBG_ADDR and is BUSY until it settles (R403). -/
theorem exec_dbgWrite {s : State} (hs : Clocked s) {ctrl : Word} {n : Nat} (hn : (field ctrl 4 5).toNat + 1 = n)
    (hgo : bit ctrl 0 = true ∧ s.dbg.busy = false) (hc : s.debugColours s.dbg.addr.toNat n = true) (hl : s.dbg.level = 2)
    (hp : s.place s.dbg.addr.toNat (8 * n) ≠ .unmapped) (hd : s.detects s.dbg.addr.toNat (8 * n) = false) (hw : bit ctrl 1 = true) :
    ∃ t, exec (.dbgWrite ctrl) s = .next t ∧ t.dbg = { s.dbg with busy := true, settle := 0 } ∧
      (∀ b, b < s.dbg.addr.toNat ∨ s.dbg.addr.toNat + 8 * n ≤ b → t.byteAt b = s.byteAt b) ∧
      ∀ k, k < n → t.bytesAt (s.dbg.addr.toNat + 8 * k) 8 = leBytes 8 (Table.get 0 s.dbg.data k).toNat := by
  have hlev := level_allows (d := s.dbg) (write := bit ctrl 1) (by simp [hl]) (fun _ => hl)
  have hexec := exec_debug hs ctrl
  rw [hw, if_pos rfl, debugGo_write rfl hn hgo hc hlev hp hd hw] at hexec
  refine ⟨_, hexec, rfl, fun b hb => ?_, fun k hk => ?_⟩
  · have hbyte := byteAt_memWrite s s.dbg.addr.toNat (s.dbg.bytes n) b
    rw [Debug.bytes_length, if_neg (by omega)] at hbyte
    exact hbyte
  · exact (bytesAt_congr _ _ (fun _ _ _ => rfl)).trans (bytesAt_memWrite_debug s s.dbg _ hk)

/-- DEBUG_ACCESS_COMPLETE shows the result of the access that settles (R403). -/
theorem exec_debugAccessComplete {s : State} (hs : Clocked s) : exec .debugAccessComplete s =
    .next (if s.dbg.busy then { s with dbg := { s.dbg with busy := false, result := s.dbg.settle } } else s) :=
  live_of_Clocked hs

/-- Settles O56: each write lands in the block of its address and has the effect of its register; the other commands have
the clauses proved above. -/
theorem registersTakeWholeWrites : Obligations.RegistersTakeWholeWrites := by
  unfold Obligations.RegistersTakeWholeWrites
  intro s hs put
  have identity : ∀ (a : Dla) (o : Nat) (v : Word), a.toNat = 0xF000000000 + o → o < 0x10000 ∧ o % 8 = 0 →
      put a v = .next (writeIdentity s o v) := fun a o v ha ho => exec_write_identity hs v ha ho.1 ho.2
  have mast : ∀ (a : Dla) (o : Nat) (v : Word), a.toNat = 0xF000020000 + o → o < 0x10000 ∧ o % 8 = 0 →
      put a v = .next (writeMast s o v) := fun a o v ha ho => exec_write_mast hs v ha ho.1 ho.2
  have debug : ∀ (a : Dla) (o : Nat) (v : Word), a.toNat = 0xF000030000 + o → o < 0x10000 ∧ o % 8 = 0 →
      put a v = .next (writeDebug s o v) := fun a o v ha ho => exec_write_debug hs v ha ho.1 ho.2
  refine ⟨fun a data hmb hlen => ?short, fun v => ⟨?faultSum, ?mastFlags, ?mastWrap, fun q => ?linkWrap, ?readOnly, ?mastReadOnly,
    fun hv => ?linkCtrl, fun t ht => ?debugAddr, ?debugData, exec_write_core_registers hs v⟩, exec_mastPeriodWrite hs,
    execCapqPop_empty hs, fun r l hup hq => exec_capqPop_cons hs hup hq, fun ctrl => ?debugEngine, fun hbusy => ?settles, fun hbusy => ?idle⟩
  case short =>
    rw [show exec (.registerWrite a data) s = execRegisterWrite a data s from rfl, execRegisterWrite, live_of_Clocked hs,
      writeControl_short s hmb hlen]
  case faultSum => exact identity _ 0x100 v rfl (by decide)
  case mastFlags => rw [mast _ 0x20 v rfl (by decide), writeMast, if_pos rfl, clearFlags_setWidth]
  case mastWrap => exact mast _ 0x50 v rfl (by decide)
  case linkWrap =>
    have hq : (BitVec.ofNat 40 (0xF000010080 + q.val * 0x4000)).toNat = 0xF000010000 + q.val * 0x4000 + 0x80 := by
      have := q.isLt
      rw [BitVec.toNat_ofNat]
      omega
    exact ⟨_, exec_write_port hs v hq (by decide) (by decide), writePort_wrap_counts s q v⟩
  case readOnly => exact identity _ 0 v rfl (by decide)
  case mastReadOnly => exact mast _ 8 v rfl (by decide)
  case linkCtrl =>
    subst hv
    exact exec_write_port hs 3 (p := 0) (o := 8) rfl (by decide) (by decide)
  case debugAddr =>
    obtain rfl : writeDebug s 0x100 v = t := Host.Outcome.next.inj ((debug _ 0x100 v rfl (by decide)).symm.trans ht)
    exact (readRegister_debug _ (o := 0x100) (by decide)).trans (readDebug_writeDebug_addr s v)
  case debugData =>
    exact ⟨_, debug _ 0x200 v rfl (by decide),
      (readRegister_debug _ (o := 0x200) (by decide)).trans (readDebug_writeDebug_data s v)⟩
  case debugEngine =>
    have hgo_write := exec_debug hs ctrl
    refine ⟨fun hgo => ?_, fun hgo hc => ?_, fun hgo hc hl => ?_, fun hgo hc hl hw hp => ?_, fun hgo hc hl hp hd =>
      ⟨exec_dbgRead hs rfl hgo hc hl hp hd, fun hw hl2 => exec_dbgWrite hs rfl hgo hc hl2 hp hd hw⟩⟩
    · rw [hgo_write, debugGo_ignored hgo]
    · rw [hgo_write, debugGo_colour rfl rfl hgo hc]
    · rw [hgo_write, debugGo_level rfl rfl hgo hc hl]
    · rw [hgo_write, debugGo_unmapped rfl rfl hgo hc (level_allows hl hw) hp]
  case settles => rw [exec_debugAccessComplete hs, if_pos hbusy]
  case idle => rw [exec_debugAccessComplete hs, if_neg (by rw [hbusy]; decide)]

end Sys2Proof.Machine
end

section
/-!
SUPPORT. The selector (R28, R248): the order of its keys as a linear order of places, what a slot holds after a list of
offers, and O20.
-/
namespace Sys2Proof.Machine

/-! ### The total order of numbers as places -/

/-- A sign as a number. -/
def signOf (neg : Bool) : ℤ := if neg then -1 else 1

/-- The rational value of a finite number. -/
def finValue (neg : Bool) (m : Nat) (e : Int) : ℚ := (signOf neg * m : ℤ) * (2 : ℚ) ^ e

/-- Where a number stands among the numbers: infinities outside, finite values by value, and −0 below +0 (R231). -/
def Num.rank : Num → ℤ ×ₗ ℚ ×ₗ ℤ
  | .nan => toLex (0, toLex (0, 0))
  | .inf neg => toLex (signOf neg, toLex (0, 0))
  | .fin neg m e => toLex (0, toLex (finValue neg m e, signOf neg))

/-- A number's place in a slot, the best key lowest: ORDER 1 reverses the numbers and leaves a NaN behind them (R248). -/
def Num.place (desc : Bool) (a : Num) : WithTop (ℤ ×ₗ ℚ ×ₗ ℤ) :=
  if a = .nan then ⊤ else ((if desc then -a.rank else a.rank : ℤ ×ₗ ℚ ×ₗ ℤ) : WithTop _)

theorem signOf_lt_signOf (a b : Bool) : signOf a < signOf b ↔ (a && !b) = true := by
  revert a b; decide

/-- A count of 2^e0 is the value over 2^e0. -/
theorem scaled_mul_zpow {e0 e : Int} (neg : Bool) (m : Nat) (h : e0 ≤ e) :
    (scaled e0 neg m e : ℚ) * 2 ^ e0 = finValue neg m e := by
  have hpow : (2 : ℚ) ^ e = 2 ^ (e - e0).toNat * 2 ^ e0 := by
    rw [← zpow_natCast, ← zpow_add₀ two_ne_zero, Int.toNat_of_nonneg (by omega), sub_add_cancel]
  rw [finValue, hpow]
  cases neg <;> simp [scaled, signOf] <;> ring

/-- Finite numbers compare by their values. -/
theorem Num.ltNum_fin (n1 n2 : Bool) (m1 m2 : Nat) (e1 e2 : Int) :
    (Num.fin n1 m1 e1).ltNum (.fin n2 m2 e2) = decide (finValue n1 m1 e1 < finValue n2 m2 e2) := by
  have hmin : ∀ e : Int, e ≤ e1 → e ≤ e2 →
      (scaled e n1 m1 e1 < scaled e n2 m2 e2 ↔ finValue n1 m1 e1 < finValue n2 m2 e2) := fun e h1 h2 => by
    rw [← scaled_mul_zpow n1 m1 h1, ← scaled_mul_zpow n2 m2 h2, mul_lt_mul_iff_left₀ (by positivity), Int.cast_lt]
  simp only [Num.ltNum, decide_eq_decide]
  exact hmin _ (by split <;> omega) (by split <;> omega)

/-- Two numbers that are not NaN compare by their ranks, wherever NaN stands (R231). -/
theorem Num.ltTotal_iff_rank {a b : Num} (nanLow : Bool) (ha : a ≠ .nan) (hb : b ≠ .nan) :
    Num.ltTotal nanLow a b = true ↔ a.rank < b.rank := by
  match a, b with
  | .inf n1, .inf n2 =>
    simp only [Num.ltTotal, Num.ltNum, Num.isNeg, Num.rank, Prod.Lex.toLex_lt_toLex, signOf_lt_signOf]
    cases n1 <;> cases n2 <;> simp
  | .inf n1, .fin n2 m2 e2 =>
    cases n1 <;> simp [Num.ltTotal, Num.ltNum, Num.isNeg, Num.rank, Prod.Lex.toLex_lt_toLex, signOf]
  | .fin n1 m1 e1, .inf n2 =>
    cases n2 <;> simp [Num.ltTotal, Num.ltNum, Num.isNeg, Num.rank, Prod.Lex.toLex_lt_toLex, signOf]
  | .fin n1 m1 e1, .fin n2 m2 e2 =>
    simp only [Num.ltTotal, Num.ltNum_fin, Num.isNeg, Num.rank, Prod.Lex.toLex_lt_toLex, signOf_lt_signOf]
    have hlt := lt_trichotomy (finValue n1 m1 e1) (finValue n2 m2 e2)
    grind

@[simp] theorem Num.place_nan (desc : Bool) : Num.place desc .nan = ⊤ := rfl

/-- A number stands at its rank, reversed by ORDER 1. -/
theorem Num.place_of_ne_nan (desc : Bool) {a : Num} (ha : a ≠ .nan) :
    a.place desc = ((if desc then -a.rank else a.rank : ℤ ×ₗ ℚ ×ₗ ℤ) : WithTop _) := if_neg ha

/-- The order of a slot's keys is the order of their places: ORDER 1 compares the other way round (R231, R248). -/
theorem Num.ltTotal_iff_place (desc : Bool) (a b : Num) :
    (if desc then Num.ltTotal true b a else Num.ltTotal false a b) = true ↔ a.place desc < b.place desc := by
  by_cases ha : a = .nan
  · subst ha
    exact iff_of_false (by cases desc <;> cases b <;> simp [Num.ltTotal]) (by simp)
  by_cases hb : b = .nan
  · subst hb
    rw [Num.place_of_ne_nan desc ha, Num.place_nan]
    exact iff_of_true (by cases desc <;> cases a <;> simp_all [Num.ltTotal]) (WithTop.coe_lt_top _)
  · rw [Num.place_of_ne_nan desc ha, Num.place_of_ne_nan desc hb, WithTop.coe_lt_coe]
    cases desc
    · exact Num.ltTotal_iff_rank false ha hb
    · exact (Num.ltTotal_iff_rank true hb ha).trans neg_lt_neg_iff.symm

/-- Integers compare as integers. -/
theorem Num.ltTotal_ofInt (nanLow : Bool) (x y : Int) : Num.ltTotal nanLow (.ofInt x) (.ofInt y) = decide (x < y) := by
  have hvalue : ∀ z : Int, scaled 0 (decide (z < 0)) z.natAbs 0 = z := fun z => by
    rw [scaled, sub_self, Int.toNat_zero, pow_zero, mul_one]
    simp only [decide_eq_true_eq]
    split <;> omega
  simp only [Num.ltTotal, Num.ofInt, Num.ltNum, Num.isNeg, lt_irrefl, if_false, hvalue]
  grind

/-! ### Keys -/

/-- A key as a number, by KT (R248). -/
def SuCfg.keyNum (g : SuCfg) (key : BitVec 32) : Num :=
  match g.kt.toNat with
  | 0 => .ofInt key.toNat
  | 1 => .ofInt key.toInt
  | _ => fp32.decode key.toNat

/-- Keys compare as the numbers they stand for, under every KT (R248). -/
theorem SuCfg.keyBetter_eq (g : SuCfg) (a b : BitVec 32) : g.keyBetter a b =
    if g.desc then Num.ltTotal true (g.keyNum b) (g.keyNum a) else Num.ltTotal false (g.keyNum a) (g.keyNum b) := by
  unfold SuCfg.keyBetter SuCfg.keyNum
  generalize g.kt.toNat = kt
  match kt with
  | 0 => simp only [Num.ltTotal_ofInt, Int.ofNat_lt, BitVec.lt_def]
  | 1 => simp only [Num.ltTotal_ofInt, BitVec.slt]
  | _ + 2 => rfl

/-- The place of an entry in a slot: by key, then by ID, then by key pattern (R248; assumption 33). -/
def SuCfg.place (g : SuCfg) (e : SelEntry) : WithTop (ℤ ×ₗ ℚ ×ₗ ℤ) ×ₗ ℕ ×ₗ ℕ :=
  toLex ((g.keyNum e.key).place g.desc, toLex (e.id.toNat, e.key.toNat))

/-- A better key is a key of a lower place. -/
theorem SuCfg.keyBetter_iff (g : SuCfg) (a b : BitVec 32) :
    g.keyBetter a b = true ↔ (g.keyNum a).place g.desc < (g.keyNum b).place g.desc := by
  rw [g.keyBetter_eq, Num.ltTotal_iff_place]

/-- An entry is better when it has the lower place. -/
theorem SuCfg.better_iff (g : SuCfg) (a b : SelEntry) : g.better a b = true ↔ g.place a < g.place b := by
  have hid : a.id = b.id ↔ a.id.toNat = b.id.toNat := BitVec.toNat_eq
  simp only [SuCfg.better, SuCfg.place, Prod.Lex.toLex_lt_toLex, Bool.or_eq_true, Bool.and_eq_true, Bool.not_eq_true',
    Bool.eq_false_iff, ne_eq, g.keyBetter_iff, decide_eq_true_iff, beq_iff_eq, BitVec.lt_def, hid, not_lt]
  have hkey := lt_trichotomy ((g.keyNum a.key).place g.desc) ((g.keyNum b.key).place g.desc)
  grind

/-- Entries at one place are one entry. -/
theorem SuCfg.place_injective (g : SuCfg) : Function.Injective g.place := fun a b h => by
  obtain ⟨-, htail⟩ := Prod.mk.inj (toLex_inj.mp h)
  obtain ⟨hid, hkey⟩ := Prod.mk.inj (toLex_inj.mp htail)
  cases a; cases b
  simp_all [BitVec.toNat_inj]

theorem SuCfg.ne_of_better (g : SuCfg) {a b : SelEntry} (h : g.better a b = true) : a ≠ b := by
  rintro rfl
  exact lt_irrefl _ ((g.better_iff a a).mp h)

theorem SuCfg.better_asymm (g : SuCfg) {a b : SelEntry} (h : g.better a b = true) : ¬ g.better b a = true := by
  rw [g.better_iff] at *
  exact h.asymm

theorem SuCfg.better_trans (g : SuCfg) {a b c : SelEntry} (hab : g.better a b = true) (hbc : g.better b c = true) :
    g.better a c = true := by
  rw [g.better_iff] at *
  exact hab.trans hbc

/-- Of two different entries one is better. -/
theorem SuCfg.better_of_ne (g : SuCfg) {a b : SelEntry} (hne : a ≠ b) (h : ¬ g.better a b = true) :
    g.better b a = true := by
  rw [g.better_iff] at *
  exact lt_of_le_of_ne (not_lt.mp h) (fun heq => hne (g.place_injective heq).symm)

/-! ### Insertion -/

/-- An insertion adds the entry. -/
theorem SuCfg.insert_perm (g : SuCfg) (x : SelEntry) (l : List SelEntry) : (g.insert x l).Perm (x :: l) := by
  induction l with
  | nil => rfl
  | cons y t ih =>
    rw [SuCfg.insert]
    split
    · rfl
    · exact (ih.cons y).trans (List.Perm.swap x y t)

theorem SuCfg.mem_insert (g : SuCfg) {x e : SelEntry} {l : List SelEntry} : e ∈ g.insert x l ↔ e = x ∨ e ∈ l :=
  (g.insert_perm x l).mem_iff.trans List.mem_cons

theorem SuCfg.length_insert (g : SuCfg) (x : SelEntry) (l : List SelEntry) : (g.insert x l).length = l.length + 1 :=
  (g.insert_perm x l).length_eq

/-- An insertion of a new entry keeps a slot's order. -/
theorem SuCfg.insert_pairwise (g : SuCfg) {x : SelEntry} {l : List SelEntry} (hl : l.Pairwise (g.better · ·))
    (hx : x ∉ l) : (g.insert x l).Pairwise (g.better · ·) := by
  induction l with
  | nil => simp [SuCfg.insert]
  | cons y t ih =>
    obtain ⟨hy, ht⟩ := List.pairwise_cons.mp hl
    rw [SuCfg.insert]
    split
    next hxy =>
      have hrest : ∀ z ∈ t, g.better x z = true := fun z hz => g.better_trans hxy (hy z hz)
      exact List.pairwise_cons.mpr ⟨List.forall_mem_cons.mpr ⟨hxy, hrest⟩, hl⟩
    next hxy =>
      have hyx : g.better y x = true := g.better_of_ne (List.ne_of_not_mem_cons hx) hxy
      refine List.pairwise_cons.mpr ⟨fun z hz => ?_, ih ht (List.not_mem_of_not_mem_cons hx)⟩
      rcases g.mem_insert.mp hz with rfl | hzt
      · exact hyx
      · exact hy z hzt

/-! ### What a slot holds -/

/-- A slot that was offered the entries of xs holds the K best of them in order (R248): what it does not hold was kept out
by K better ones. -/
structure SuCfg.HoldsBest (g : SuCfg) (xs held : List SelEntry) : Prop where
  sorted : held.Pairwise (g.better · ·)
  length_le : held.length ≤ g.k
  offered : ∀ e ∈ held, e ∈ xs
  best : ∀ e ∈ xs, e ∉ held → held.length = g.k ∧ ∀ h ∈ held, g.better h e = true

/-- A cut that leaves an entry out keeps as many as it may. -/
theorem length_take_of_mem_drop {α : Type} {n : Nat} {l : List α} {z : α} (hz : z ∈ l.drop n) : (l.take n).length = n := by
  have hpos := List.length_pos_of_mem hz
  rw [List.length_drop] at hpos
  rw [List.length_take]
  omega

/-- The entries a cut keeps of an ordered list are better than those it leaves out. -/
theorem SuCfg.better_of_mem_take_drop (g : SuCfg) {n : Nat} {l : List SelEntry} (hl : l.Pairwise (g.better · ·))
    {y z : SelEntry} (hy : y ∈ l.take n) (hz : z ∈ l.drop n) : g.better y z = true := by
  rw [← List.take_append_drop n l, List.pairwise_append] at hl
  obtain ⟨-, -, hcross⟩ := hl
  exact hcross y hy z hz

namespace SuCfg.HoldsBest

variable {g : SuCfg} {xs held : List SelEntry}

/-- An empty slot was offered nothing. -/
theorem nil (g : SuCfg) : g.HoldsBest [] [] := ⟨.nil, Nat.zero_le _, by simp, by simp⟩

theorem nodup (h : g.HoldsBest xs held) : held.Nodup :=
  h.sorted.imp g.ne_of_better

/-- An offer of an entry that is held changes nothing (R248). -/
theorem offer_held (h : g.HoldsBest xs held) {x : SelEntry} (hx : x ∈ held) : g.HoldsBest (xs ++ [x]) (g.offer held x) := by
  have hsame : g.offer held x = held := by simp [SuCfg.offer, hx]
  rw [hsame]
  refine ⟨h.sorted, h.length_le, fun e he => List.mem_append_left _ (h.offered e he), fun e he hout => ?_⟩
  rcases List.mem_append.mp he with hxs | hlast
  · exact h.best e hxs hout
  · exact absurd (List.mem_singleton.mp hlast ▸ hx) hout

/-- An entry that was kept out by K better ones stays out: a new entry that pushes one of them off is better than that one. -/
theorem better_of_full (h : g.HoldsBest xs held) {x e : SelEntry} (hx : x ∉ held) (hk : held.length = g.k)
    (hbetter : ∀ y ∈ held, g.better y e = true) :
    ((g.insert x held).take g.k).length = g.k ∧ ∀ y ∈ (g.insert x held).take g.k, g.better y e = true := by
  have hdrop : 0 < ((g.insert x held).drop g.k).length := by
    rw [List.length_drop, g.length_insert]
    omega
  obtain ⟨z, hz⟩ := List.exists_mem_of_length_pos hdrop
  refine ⟨length_take_of_mem_drop hz, fun y hy => ?_⟩
  rcases g.mem_insert.mp (List.mem_of_mem_take hy) with rfl | hyheld
  · have hyz : g.better y z = true := g.better_of_mem_take_drop (g.insert_pairwise h.sorted hx) hy hz
    have hzheld : z ∈ held := (g.mem_insert.mp (List.mem_of_mem_drop hz)).resolve_left (g.ne_of_better hyz).symm
    exact g.better_trans hyz (hbetter z hzheld)
  · exact hbetter y hyheld

/-- An offer of a new entry inserts it and keeps the K best (R248). -/
theorem offer_new (h : g.HoldsBest xs held) {x : SelEntry} (hx : x ∉ held) : g.HoldsBest (xs ++ [x]) (g.offer held x) := by
  have hcut : g.offer held x = (g.insert x held).take g.k := by simp [SuCfg.offer, hx]
  have hsorted := g.insert_pairwise h.sorted hx
  rw [hcut]
  refine ⟨hsorted.sublist (List.take_sublist _ _), List.length_take_le _ _, fun e he => ?offered, fun e he hout => ?best⟩
  case offered =>
    rcases g.mem_insert.mp (List.mem_of_mem_take he) with rfl | hheld
    · simp
    · exact List.mem_append_left _ (h.offered e hheld)
  case best =>
    by_cases hin : e ∈ g.insert x held
    · have hdrop : e ∈ (g.insert x held).drop g.k :=
        (List.mem_append.mp ((List.take_append_drop g.k _).symm ▸ hin)).resolve_left hout
      exact ⟨length_take_of_mem_drop hdrop, fun y hy => g.better_of_mem_take_drop hsorted hy hdrop⟩
    · obtain ⟨hex, hheld⟩ := not_or.mp (mt g.mem_insert.mpr hin)
      have hxs : e ∈ xs := (List.mem_append.mp he).resolve_right (mt List.mem_singleton.mp hex)
      obtain ⟨hk, hbetter⟩ := h.best e hxs hheld
      exact h.better_of_full hx hk hbetter

/-- An offer keeps the K best (R248). -/
theorem offer (h : g.HoldsBest xs held) (x : SelEntry) : g.HoldsBest (xs ++ [x]) (g.offer held x) :=
  if hx : x ∈ held then h.offer_held hx else h.offer_new hx

/-- The entries of an offered list, in any order and repeated at will, settle what a slot holds (R28). -/
theorem subset {ys held' : List SelEntry} (h : g.HoldsBest xs held) (h' : g.HoldsBest ys held')
    (hsame : ∀ e, e ∈ xs ↔ e ∈ ys) : held ⊆ held' := by
  intro e he
  by_contra hout
  obtain ⟨hfull, hbetter⟩ := h'.best e ((hsame e).mp (h.offered e he)) hout
  have hsub : ∀ y ∈ held', y ∈ held := fun y hy => by
    by_contra hyout
    obtain ⟨-, hworse⟩ := h.best y ((hsame y).mpr (h'.offered y hy)) hyout
    exact g.better_asymm (hbetter y hy) (hworse e he)
  have hlen : (e :: held').length ≤ held.length :=
    ((List.nodup_cons.mpr ⟨hout, h'.nodup⟩).subperm (List.cons_subset.mpr ⟨he, hsub⟩)).length_le
  have hle := h.length_le
  rw [List.length_cons] at hlen
  omega

/-- Two slots that were offered the same entries hold the same list (R28). -/
theorem unique {ys held' : List SelEntry} (h : g.HoldsBest xs held) (h' : g.HoldsBest ys held')
    (hsame : ∀ e, e ∈ xs ↔ e ∈ ys) : held = held' := by
  have hperm : held.Perm held' := (List.perm_ext_iff_of_nodup h.nodup h'.nodup).mpr fun _ =>
    ⟨fun he => h.subset h' hsame he, fun he => h'.subset h (fun e => (hsame e).symm) he⟩
  exact hperm.eq_of_pairwise (fun _ _ _ _ hab hba => absurd hba (g.better_asymm hab)) h.sorted h'.sorted

end SuCfg.HoldsBest

/-- After any offers a slot holds the K best of them (R248). -/
theorem SuCfg.holdsBest_foldl (g : SuCfg) (xs : List SelEntry) : g.HoldsBest xs (xs.foldl g.offer []) := by
  induction xs using List.reverseRecOn with
  | nil => exact .nil g
  | append_singleton xs x ih =>
    rw [List.foldl_append]
    exact ih.offer x

/-- The better of two entries comes first by key and then by lower ID, when keys of one ID that compare equal are one key. -/
theorem SuCfg.before_of_better (g : SuCfg) {a b : SelEntry} (h : g.better a b = true)
    (hkeys : a.id = b.id → g.keyBetter a.key b.key = false → g.keyBetter b.key a.key = false → a = b) :
    g.keyBetter a.key b.key = true ∨ (g.keyBetter b.key a.key = false ∧ a.id < b.id) := by
  by_contra hnot
  obtain ⟨hab, hid⟩ := not_or.mp hnot
  have hother : g.keyBetter b.key a.key = false ∧ (a.id < b.id ∨ a.id = b.id ∧ a.key < b.key) := by
    simpa [SuCfg.better, hab] using h
  obtain ⟨hba, hlt | ⟨heq, -⟩⟩ := hother
  · exact hid ⟨hba, hlt⟩
  · exact g.ne_of_better h (hkeys heq (Bool.eq_false_iff.mpr hab) hba)

/-- A NaN is not better than a number (R248). -/
theorem SuCfg.keyBetter_nan (g : SuCfg) {a b : BitVec 32} (ha : g.keyNum a = .nan) : g.keyBetter a b = false := by
  rw [Bool.eq_false_iff, ne_eq, g.keyBetter_iff, ha, Num.place_nan]
  exact not_top_lt

/-- Under KT 2 a key is an fp32 value (R248). -/
theorem SuCfg.keyNum_fp32 {g : SuCfg} (hkt : g.kt = 2) (key : BitVec 32) : g.keyNum key = fp32.decode key.toNat := by
  simp [SuCfg.keyNum, hkt]

/-- Settles O20: the K best are held by induction over the offers, and the set of the offers alone decides which they are. -/
theorem selectorHoldsTheKBestOffers : Obligations.SelectorHoldsTheKBestOffers := by
  unfold Obligations.SelectorHoldsTheKBestOffers
  intro g
  refine ⟨fun xs hkeys => ?slot, fun a b => ⟨fun hkt => ?unsigned, fun hkt => ?signed, fun hkt _ _ => ?float,
    fun hkt _ ha => ?nan, fun hkt => ?zero⟩⟩
  case slot =>
    intro held before
    have hbest : g.HoldsBest xs held := g.holdsBest_foldl xs
    have hbefore : ∀ a ∈ xs, ∀ b ∈ xs, g.better a b = true → before a b := fun a ha b hb h =>
      g.before_of_better h (hkeys a ha b hb)
    refine ⟨hbest.length_le, hbest.sorted.imp_of_mem fun ha hb => hbefore _ (hbest.offered _ ha) _ (hbest.offered _ hb),
      hbest.offered, ?_, fun e he => ?_, fun ys hys => (g.holdsBest_foldl ys).unique hbest fun e => hys.mem_iff.symm⟩
    · exact or_iff_not_imp_left.mpr fun hshort e he => by_contra fun hout => hshort (hbest.best e he hout).1
    · exact or_iff_not_imp_left.mpr fun hout h hh =>
        hbefore h (hbest.offered h hh) e he ((hbest.best e he hout).2 h hh)
  case unsigned => rw [SuCfg.keyBetter, hkt]; rfl
  case signed => rw [SuCfg.keyBetter, hkt]; rfl
  case float => rw [g.keyBetter_eq, SuCfg.keyNum_fp32 hkt, SuCfg.keyNum_fp32 hkt]
  case nan => exact g.keyBetter_nan ((SuCfg.keyNum_fp32 hkt a).trans (not_not.mp ha))
  case zero =>
    rw [g.keyBetter_eq, g.keyBetter_eq, SuCfg.keyNum_fp32 hkt, SuCfg.keyNum_fp32 hkt]
    cases g.desc <;> decide

end Sys2Proof.Machine
end

section
/-!
SUPPORT. One PLL cycle on an empty queue (R41, R373, R374), and O2.
-/
namespace Sys2Proof.Machine

/-- While PORST_N is low no cycle passes (R374). -/
theorem tick_of_porstLow {s : State} (hp : s.boot.porstLow = true) : tick s = s := by
  simp [tick, hp]

/-- With CCLK stopped a cycle is the end of one of the AUX oscillator (R373). -/
theorem tick_of_halted {s : State} (hp : s.boot.porstLow = false) (hh : s.halted = true) :
    tick s = endCycle { s with now := s.now + 1 } := by
  simp [tick, hp, hh]

/-- A cycle that delivers a CCLK edge ticks the Mast and every core (R377). -/
theorem tick_of_edge {s : State} (hp : s.boot.porstLow = false) (hh : s.halted = false) (he : s.edge = true) :
    tick s = endCycle { s with
      now := s.now + 1, mast := s.mast.tick true
      cores := Table.update {} (fun _ k => k.tick) (s.cores.map (·.1)) s.cores } := by
  simp [tick, hp, hh, he]

/-- A cycle without an edge ticks the Mast alone (R41). -/
theorem tick_of_noEdge {s : State} (hp : s.boot.porstLow = false) (hh : s.halted = false) (he : s.edge = false) :
    tick s = { s with now := s.now + 1, mast := s.mast.tick false } := by
  simp [tick, hp, hh, he]

/-- A Mast that is not UNLOCKED counts every PLL cycle, with or without an edge (R41). -/
theorem Mast.tick_of_counting {m : Mast} (h : m.st ≠ .unlocked) (edge : Bool) :
    m.tick edge = { m with c := m.c + 1, lastAge := m.lastAge + 1 } := by
  simp [Mast.tick, h]

/-- Settles O2: PORST_N, CCLK and the edge decide which cycle passes, and each is read off its own equation. -/
theorem emptyQueuePassesOneClock : Obligations.EmptyQueuePassesOneClock := by
  unfold Obligations.EmptyQueuePassesOneClock
  intro s hq
  rw [step_nil hq]
  refine ⟨fun hp => congrArg _ (tick_of_porstLow hp), fun hp => ⟨tick s, rfl, ?_⟩⟩
  cases hh : s.halted with
  | true =>
    rw [tick_of_halted hp hh]
    simp [endCycle, hq]
  | false =>
    cases he : s.edge with
    | true =>
      rw [tick_of_edge hp hh he]
      simp +contextual [endCycle, hq, Mast.tick_of_counting]
    | false =>
      rw [tick_of_noEdge hp hh he]
      simp +contextual [hq, Mast.tick_of_counting]

end Sys2Proof.Machine
end

section
/-!
SUPPORT. Mast frames (R39, R42, R44): slots taken from the mesh, what an accepted frame leaves, and each way its stroke
compares with the local one.
-/
namespace Sys2Proof.Machine

open Sys2Proof.Stated

/-! ### Slots on the mesh (R272) -/

/-- A waiting slot is taken and has its effect. -/
theorem takeMesh_of_waits {s : State} {hit : MeshSlot → Bool} {f : State → State} (h : Waits s hit) :
    takeMesh s hit f = f (taken s hit) := by
  rw [takeMesh, if_pos h]; rfl

/-- Where no slot waits nothing happens. -/
theorem takeMesh_of_not_waits {s : State} {hit : MeshSlot → Bool} {f : State → State} (h : ¬ Waits s hit) :
    takeMesh s hit f = s := if_neg h

/-! ### What a frame is checked for (R39, R40) -/

/-- The checks of R39 are those of a good frame. -/
theorem frameBad_eq_false_iff (s : State) (src : BitVec 6) (colour : BitVec 4) (slot : Slot) :
    frameBad s src colour (Frame.ofSlot slot) = false ↔ GoodFrame s src colour slot := by
  simp only [frameBad, Bool.or_eq_false_iff, bne_eq_false_iff_eq, beq_eq_false_iff_ne, decide_eq_false_iff_not, not_lt,
    and_assoc]
  simp only [Frame.ofSlot, GoodFrame, Bool.or_eq_false_iff, bne_eq_false_iff_eq, ne_eq, Nat.one_le_iff_ne_zero]

/-! ### What a frame leaves (R39, R41, R43) -/

/-- Marks on bookings leave the Mast. -/
@[simp] theorem mapBookings_mast (f : Booking → Booking) (s : State) : (mapBookings f s).mast = s.mast := rfl
/-- Marks on bookings leave memory. -/
@[simp] theorem mapBookings_mem (f : Booking → Booking) (s : State) : (mapBookings f s).mem = s.mem := rfl

/-- An accepted frame notes its stroke and fields, and PERIOD_MISMATCH where its period differs. -/
theorem acceptFrame_mast (s : State) (f : Frame) : (acceptFrame s f).mast = { s.mast with
    lastStroke := some (BitVec.ofNat 64 f.stroke), lastAge := 0, src := f.src, hubHold := f.hubHold
    mismatch := s.mast.mismatch || s.mast.periodAt f.stroke != f.period
    newFlags := if s.mast.periodAt f.stroke != f.period then setBit s.mast.newFlags 1 else s.mast.newFlags } := by
  unfold acceptFrame
  simp only [raiseUnit_eq]
  split <;> rfl

/-- An accepted frame leaves memory. -/
@[simp] theorem acceptFrame_mem (s : State) (f : Frame) : (acceptFrame s f).mem = s.mem := by
  unfold acceptFrame
  simp only [raiseUnit_eq]
  split <;> rfl

/-- At the next stroke's frame C is the interval since the frame of the stroke that ends, if that frame came, no period change is
later, and the interval is not too short (R41, R61). -/
theorem Mast.measured_next (m : Mast) : m.measured (m.stroke.toNat + 1) =
    if m.lastStroke = some m.stroke ∧ m.changedAt ≤ m.stroke ∧ 1250 ≤ m.lastAge then m.lastAge else m.capC := by
  unfold Mast.measured
  cases m.lastStroke with
  | none => simp
  | some l =>
    simp only [Nat.add_right_cancel_iff, BitVec.toNat_inj, Bool.and_eq_true, decide_eq_true_eq, Option.some.injEq, and_assoc]
    by_cases hl : l = m.stroke
    · subst hl; rfl
    · simp only [hl, false_and, if_false]

/-! ### MAST_FRAME by its stroke (R42, R44) -/

/-- A frame of an earlier stroke is discarded, counted and marked. -/
theorem takeFrame_earlier {s : State} {f : Frame} (hst : s.mast.st ≠ .unlocked) (h : f.stroke < s.mast.stroke.toNat) :
    takeFrame s f = { s with mast := { s.mast.discard with regress := true, newFlags := setBit s.mast.newFlags 2 } } := by
  simp [takeFrame, hst, h]

/-- A frame of the local stroke confirms it. -/
theorem takeFrame_same {s : State} {f : Frame} (hst : s.mast.st ≠ .unlocked) (h : f.stroke = s.mast.stroke.toNat) :
    takeFrame s f = if s.mast.st = .locked then acceptFrame s f
      else { acceptFrame s f with mast := { (acceptFrame s f).mast with st := .locked, satur := true, hold := 0 } } := by
  simp [takeFrame, hst, h]

/-- The frame of the next stroke begins it. -/
theorem takeFrame_next {s : State} {f : Frame} (hst : s.mast.st ≠ .unlocked) (h : f.stroke = s.mast.stroke.toNat + 1) :
    takeFrame s f = acceptFrame { mapBookings (Booking.markCatch s.mast.stroke.toNat) s with
      mast := s.mast.toStroke f.stroke (s.mast.measured f.stroke) } f := by
  simp [takeFrame, hst, h]

/-- A frame of a later stroke steps forward to it, which STEP_FORWARD counts. -/
theorem takeFrame_later {s : State} {f : Frame} (hst : s.mast.st ≠ .unlocked) (h : s.mast.stroke.toNat + 1 < f.stroke) :
    takeFrame s f = acceptFrame { mapBookings (Booking.markPast (Booking.due s.mast) s.mast f.stroke) s with
      mast := { s.mast.toStroke f.stroke s.mast.capC with
        stepFwd := (bump32 s.mast.stepFwd).1
        wrap := if (bump32 s.mast.stepFwd).2 then setBit s.mast.wrap 0 else s.mast.wrap
        newWrap := if (bump32 s.mast.stepFwd).2 then setBit s.mast.newWrap 0 else s.mast.newWrap } } f := by
  rw [takeFrame, if_neg (by simpa using hst)]
  dsimp only
  rw [if_neg (by omega), if_neg (by omega), if_neg (by omega)]
  rfl

/-- In UNLOCKED the second of two consecutive strokes locks the die to it. -/
theorem takeFrame_lock {s : State} {f : Frame} {l : Word} (hst : s.mast.st = .unlocked) (hl : s.mast.lastStroke = some l)
    (h : l.toNat + 1 = f.stroke) :
    takeFrame s f = acceptFrame { mapBookings (Booking.markPast (fun _ => false) s.mast f.stroke) s with
      mast := s.mast.toStroke f.stroke (s.mast.measured f.stroke) } f := by
  simp [takeFrame, hst, hl, h]

/-- In UNLOCKED the first frame is only noted. -/
theorem takeFrame_first {s : State} {f : Frame} (hst : s.mast.st = .unlocked) (hl : s.mast.lastStroke = none) :
    takeFrame s f = acceptFrame s f := by
  simp [takeFrame, hst, hl]

/-- MAST_FRAME on a slot that waits: the frame is checked, then accepted or discarded (R39, R272). -/
theorem exec_mastFrame_of_waits {s : State} {src : BitVec 6} {colour : BitVec 4} {slot : Slot} (h : Clocked s)
    (hw : Waits s (slotOf 1 src colour slot)) :
    exec (.mastFrame src colour slot) s = .next (
      let u := taken s (slotOf 1 src colour slot)
      if frameBad u src colour (Frame.ofSlot slot) then { u with mast := u.mast.discard } else takeFrame u (Frame.ofSlot slot)) := by
  rw [show exec (.mastFrame src colour slot) s = execMastFrame src colour slot s from rfl, execMastFrame, live_of_Clocked h]
  exact congrArg _ (takeMesh_of_waits hw)

/-- MAST_FRAME with no such slot on the mesh does nothing. -/
theorem exec_mastFrame_of_not_waits {s : State} {src : BitVec 6} {colour : BitVec 4} {slot : Slot} (h : Clocked s)
    (hw : ¬ Waits s (slotOf 1 src colour slot)) : exec (.mastFrame src colour slot) s = .next s := by
  rw [show exec (.mastFrame src colour slot) s = execMastFrame src colour slot s from rfl, execMastFrame, live_of_Clocked h]
  exact congrArg _ (takeMesh_of_not_waits hw)

/-- MAST_FRAME with a good frame that waits is taken by its stroke. -/
theorem exec_mastFrame_good {s : State} {src : BitVec 6} {colour : BitVec 4} {slot : Slot} (h : Clocked s)
    (hw : Waits s (slotOf 1 src colour slot)) (hg : GoodFrame s src colour slot) :
    exec (.mastFrame src colour slot) s = .next (takeFrame (taken s (slotOf 1 src colour slot)) (Frame.ofSlot slot)) := by
  have hok : frameBad (taken s (slotOf 1 src colour slot)) src colour (Frame.ofSlot slot) = false :=
    (frameBad_eq_false_iff ..).mpr hg
  rw [exec_mastFrame_of_waits h hw]
  simp only [hok, Bool.false_eq_true, if_false]

/-- MAST_FRAME with a bad frame that waits is discarded and counted. -/
theorem exec_mastFrame_bad {s : State} {src : BitVec 6} {colour : BitVec 4} {slot : Slot} (h : Clocked s)
    (hw : Waits s (slotOf 1 src colour slot)) (hg : ¬ GoodFrame s src colour slot) :
    exec (.mastFrame src colour slot) s =
      .next { taken s (slotOf 1 src colour slot) with mast := s.mast.discard } := by
  have hbad : frameBad (taken s (slotOf 1 src colour slot)) src colour (Frame.ofSlot slot) = true :=
    Bool.not_eq_false _ ▸ mt (frameBad_eq_false_iff ..).mp hg
  rw [exec_mastFrame_of_waits h hw]
  simp only [hbad, if_true]
  rfl

end Sys2Proof.Machine
end

section
/-!
SUPPORT. The strokes the die makes itself, and a period change with the REFRESH booking that firmware writes for it (R44, R45,
R47, R52, R61).
-/
namespace Sys2Proof.Machine

open Sys2Proof.Stated

/-! ### Bookings that firmware writes (Table 3-4) -/

/-- A field of a number is its digits from there. -/
theorem field_ofNat (n x lo w : Nat) : field (BitVec.ofNat n x) lo w = BitVec.ofNat w (x % 2 ^ n / 2 ^ lo) := by
  apply BitVec.eq_of_toNat_eq
  simp [field, Nat.shiftRight_eq_div_pow]

/-- A bit of a number. -/
theorem bit_ofNat {n i : Nat} (x : Nat) (h : i < n) : bit (BitVec.ofNat n x) i = decide (x / 2 ^ i % 2 = 1) := by
  rw [bit, BitVec.getLsbD_ofNat, Nat.testBit_eq_decide_div_mod_eq]
  simp [h]

/-- The booking that 16 bytes of firmware spell is the armed one of its fields (Table 3-4). -/
theorem ofBits_bookingBits {stroke phase period action colour param : Nat} (hph : phase < 2 ^ 16) (hpe : period < 2 ^ 24)
    (hac : action < 2 ^ 4) (hco : colour < 2 ^ 4) (hpa : param < 2 ^ 12) :
    Booking.ofBits (bookingBits stroke phase period action colour param) =
      { stroke := BitVec.ofNat 64 stroke, phase := BitVec.ofNat 16 phase, period := BitVec.ofNat 24 period
        action := BitVec.ofNat 4 action, colour := BitVec.ofNat 4 colour, param := BitVec.ofNat 12 param, valid := true } := by
  simp only [Booking.ofBits, bookingBits, field_ofNat, bit_ofNat, Nat.reduceLT, Booking.mk.injEq, and_true]
  refine ⟨?_, ?_, ?_, ?_, ?_, ?_, ?_, ?_⟩
  iterate 6 (apply BitVec.eq_of_toNat_eq; simp only [BitVec.toNat_ofNat]; omega)
  all_goals simp only [decide_eq_true_eq, decide_eq_false_iff_not]; omega

/-- Such a write is not refused where its action is permitted to the die and its PARAM in range (R49, R50). -/
theorem bookingBad_bookingBits {stroke phase period action colour param : Nat} (hph : phase < 2 ^ 16) (hpe : period < 2 ^ 24)
    (hac : action < 2 ^ 4) (hco : colour < 2 ^ 4) (hpa : param < 2 ^ 12) (hact : actionOk false action = true)
    (hpar : paramOk false action param = true) :
    bookingBad false (bookingBits stroke phase period action colour param) = false := by
  have hrsv : bit (bookingBits stroke phase period action colour param) 127 = false := by
    rw [bookingBits, bit_ofNat _ (by decide), decide_eq_false_iff_not]
    omega
  have hac' : (BitVec.ofNat 4 action).toNat = action := Nat.mod_eq_of_lt hac
  have hpa' : (BitVec.ofNat 12 param).toNat = param := Nat.mod_eq_of_lt hpa
  simp [bookingBad, hrsv, ofBits_bookingBits hph hpe hac hco hpa, hac', hpa', hact, hpar]

/-- A REFRESH booking of n slices at every stroke, as written (R52). -/
theorem refresh_written (s : State) {stroke phase n : Nat} (hph : phase < 2 ^ 16) (h1 : 1 ≤ n) (h2 : n ≤ 256) :
    let b := Table.get {} (writeDieBooking s 0 (bookingBits stroke phase 1 1 0 (n - 1))).dieBookings 0
    b.valid = true ∧ b.action = 1 ∧ b.period = 1 ∧ b.param.toNat + 1 = n := by
  have hpar : paramOk false 1 (n - 1) = true := decide_eq_true (by omega)
  have hgood := bookingBad_bookingBits (stroke := stroke) (period := 1) (colour := 0) hph (by decide) (by decide) (by decide)
    (show n - 1 < 2 ^ 12 by omega) (by decide) hpar
  have hbits := ofBits_bookingBits (stroke := stroke) (period := 1) (action := 1) (colour := 0) hph (by decide) (by decide)
    (by decide) (show n - 1 < 2 ^ 12 by omega)
  simp only [writeDieBooking, Table.get_set_same, Booking.write, hgood, hbits, Bool.false_eq_true, if_false, BitVec.toNat_ofNat,
    true_and]
  exact ⟨rfl, rfl, by omega⟩

/-- Firmware's REFRESH booking takes the slices asked for (R52). -/
theorem bookRefresh_entry (s : State) {n : Nat} (h1 : 1 ≤ n) (h2 : n ≤ 256) :
    let b := Table.get {} (bookRefresh s n).dieBookings 0
    b.valid = true ∧ b.action = 1 ∧ b.period = 1 ∧ b.param.toNat + 1 = n := by
  unfold bookRefresh
  dsimp only
  split
  · exact refresh_written s (BitVec.isLt _) h1 h2
  · exact refresh_written s (by decide) h1 h2

/-- The slices of a period of 1 to 1,000 microseconds are 1 to 256 (R51). -/
theorem refreshSlices_bounds {p : Nat} (h1 : 1 ≤ p) (h2 : p ≤ 1000) : 1 ≤ refreshSlices p ∧ refreshSlices p ≤ 256 := by
  unfold refreshSlices ceilDiv
  omega

/-! ### The strokes that the die makes itself -/

/-- HOLDOVER_ENTRY once c has reached C + floor(C / 16) (R44, R47). -/
theorem exec_holdoverEntry_due {s : State} (h : Clocked s) (hst : s.mast.st = .locked)
    (hc : s.mast.capC + s.mast.capC / 16 ≤ s.mast.c) :
    exec .holdoverEntry s = .next { s with mast := { s.mast with
      st := .holdover, stroke := s.mast.stroke + 1, c := s.mast.c - s.mast.capC, satur := false, hold := 0
      holdC := s.mast.c - s.mast.capC, beats := s.mast.beats + 1 } } := by
  rw [show exec .holdoverEntry s = execHoldoverEntry s from rfl, execHoldoverEntry, live_of_Clocked h]
  simp [hst, hc]

/-- HOLDOVER_ENTRY before that, or not in LOCKED, does nothing. -/
theorem exec_holdoverEntry_not_due {s : State} (h : Clocked s)
    (hn : s.mast.st ≠ .locked ∨ s.mast.c < s.mast.capC + s.mast.capC / 16) : exec .holdoverEntry s = .next s := by
  rw [show exec .holdoverEntry s = execHoldoverEntry s from rfl, execHoldoverEntry, live_of_Clocked h]
  dsimp only
  rw [if_neg]
  simp only [Bool.and_eq_true, beq_iff_eq, decide_eq_true_eq, not_and, not_le]
  exact fun hst => hn.resolve_left (not_not.mpr hst)

/-- EXTRAPOLATED_STROKE in HOLDOVER or LOST, once c has reached C (R47). -/
theorem exec_extrapolatedStroke_due {s : State} (h : Clocked s) (hst : s.mast.st = .holdover ∨ s.mast.st = .lost)
    (hc : s.mast.capC ≤ s.mast.c) :
    exec .extrapolatedStroke s = .next { s with mast := { s.mast with
      stroke := s.mast.stroke + 1, c := s.mast.c - s.mast.capC, hold := s.mast.hold + 1, beats := s.mast.beats + 1 } } := by
  rw [show exec .extrapolatedStroke s = execExtrapolatedStroke s from rfl, execExtrapolatedStroke, live_of_Clocked h]
  simp [hst, hc]

/-- MAST_LOST_ENTRY after 64 whole strokes in HOLDOVER: MAST_LOST is set and F_MAST_LOST recorded (R44, R45). -/
theorem exec_mastLostEntry_due {s : State} (h : Clocked s) (hst : s.mast.st = .holdover)
    (hd : 64 < s.mast.hold ∨ (s.mast.hold = 64 ∧ s.mast.holdC ≤ s.mast.c)) :
    exec .mastLostEntry s = .next { s with
      mast := { s.mast with st := .lost, lost := true, newFlags := setBit s.mast.newFlags 0 }
      log := s.log.push { mkRec s fMastLost 0 none 14 with peer := none, detail := 0 } } := by
  rw [show exec .mastLostEntry s = execMastLostEntry s from rfl, execMastLostEntry, live_of_Clocked h, if_pos]
  · rfl
  · simpa [hst] using hd

/-- MAST_LOST_ENTRY before that does nothing. -/
theorem exec_mastLostEntry_not_due {s : State} (h : Clocked s)
    (hn : s.mast.st ≠ .holdover ∨ s.mast.hold < 64 ∨ (s.mast.hold = 64 ∧ s.mast.c < s.mast.holdC)) :
    exec .mastLostEntry s = .next s := by
  rw [show exec .mastLostEntry s = execMastLostEntry s from rfl, execMastLostEntry, live_of_Clocked h, if_neg]
  simp only [Bool.and_eq_true, Bool.or_eq_true, beq_iff_eq, decide_eq_true_eq]
  rintro ⟨hst, hd⟩
  have := hn.resolve_left (not_not.mpr hst)
  omega

/-- A record pushed on a queue with room is its last (R354). -/
theorem Log.push_capq {l : Log} (r : LogRec) (h : l.capq.length < 64) : (l.push r).capq = l.capq ++ [r] := by
  simp [Log.push, h]

/-! ### The period change in force (R52, R61) -/

/-- The Mast once its pending period is in force. -/
def Mast.changed (m : Mast) : Mast :=
  { m with period := m.next, capC := m.next.toNat * 1250, changedAt := m.effective, pend := false }

/-- PERIOD_CHANGE_EFFECTIVE at its stroke: C is nominal, and firmware that runs books the refresh slices. -/
theorem exec_periodChangeEffective_due {s : State} (h : Clocked s) (hp : s.mast.pend = true) (hst : s.mast.st ≠ .unlocked)
    (he : s.mast.effective ≤ s.mast.stroke) :
    exec .periodChangeEffective s = .next (
      if s.skovi.up then bookRefresh { s with mast := s.mast.changed } (refreshSlices s.mast.next.toNat)
      else { s with mast := s.mast.changed }) := by
  rw [show exec .periodChangeEffective s = execPeriodChangeEffective s from rfl, execPeriodChangeEffective, live_of_Clocked h]
  simp [hp, hst, he, Mast.changed]

/-- With firmware running the change leaves its Mast and the REFRESH booking of its slices. -/
theorem exec_periodChangeEffective_books {s : State} (h : Clocked s) (hp : s.mast.pend = true) (hst : s.mast.st ≠ .unlocked)
    (he : s.mast.effective ≤ s.mast.stroke) (hup : s.skovi.up = true) (h1 : 1 ≤ s.mast.next.toNat) (h2 : s.mast.next.toNat ≤ 1000) :
    ∃ t, exec .periodChangeEffective s = .next t ∧ t.mast = s.mast.changed ∧
      let b := Table.get {} t.dieBookings 0
      b.valid = true ∧ b.action = 1 ∧ b.period = 1 ∧ b.param.toNat + 1 = refreshSlices s.mast.next.toNat := by
  obtain ⟨hlo, hhi⟩ := refreshSlices_bounds h1 h2
  refine ⟨_, exec_periodChangeEffective_due h hp hst he, ?_⟩
  rw [if_pos hup]
  exact ⟨by rw [bookRefresh_eq], bookRefresh_entry _ hlo hhi⟩

end Sys2Proof.Machine
end

section
/-!
SUPPORT. O34, from the frames by their strokes and the strokes that the die makes itself.
-/
namespace Sys2Proof.Machine

open Sys2Proof.Stated

/-- Settles O34: a frame that waits is good or bad, and a good one is earlier than the local stroke, the same, the next or later;
the die's own strokes each have their condition. -/
theorem mastFramesMoveTheStroke : Obligations.MastFramesMoveTheStroke := by
  unfold Obligations.MastFramesMoveTheStroke
  refine ⟨fun s src colour slot h hw => exec_mastFrame_of_not_waits h hw, fun s src colour slot h hw => ?frames,
    fun s h => ?strokes⟩
  case frames =>
    refine ⟨fun hg => ⟨_, exec_mastFrame_bad h hw hg, ?_⟩, fun hg => ?_⟩
    · simp [Mast.discard, bump32]
    have hexec := exec_mastFrame_good h hw hg
    refine ⟨fun hst hlt => ⟨_, hexec.trans (congrArg _ (takeFrame_earlier hst hlt)), ?earlier⟩,
      fun hst heq => ⟨_, hexec.trans (congrArg _ (takeFrame_same hst (congrArg BitVec.toNat heq))), ?same⟩,
      fun hst hnext => ⟨_, hexec.trans (congrArg _ (takeFrame_next hst hnext)), ?next⟩,
      fun hst hlater => ⟨_, hexec.trans (congrArg _ (takeFrame_later hst hlater)), ?later⟩,
      fun hst ⟨l, hl, hn⟩ => ⟨_, hexec.trans (congrArg _ (takeFrame_lock hst hl hn)), ?lock⟩,
      fun hst hl => ⟨_, hexec.trans (congrArg _ (takeFrame_first hst hl)), ?first⟩⟩
    case earlier => simp [taken, Mast.discard, bump32]
    case same =>
      by_cases hlocked : s.mast.st = .locked <;> simp [taken, acceptFrame_mast, Frame.ofSlot, hlocked, heq]
    case next =>
      have hC := s.mast.measured_next
      rw [← hnext] at hC
      simp [taken, acceptFrame_mast, Mast.toStroke, Frame.ofSlot, hC]
    case later => simp [taken, acceptFrame_mast, Mast.toStroke, Frame.ofSlot, bump32]
    case lock => simp [taken, acceptFrame_mast, Mast.toStroke, Frame.ofSlot]
    case first => simp [taken, acceptFrame_mast, Frame.ofSlot, hst]
  case strokes =>
    refine ⟨exec_holdoverEntry_due h, exec_holdoverEntry_not_due h, exec_extrapolatedStroke_due h,
      fun hst hd => ⟨_, exec_mastLostEntry_due h hst hd, rfl, rfl, fun hroom => ⟨_, Log.push_capq _ hroom, rfl, rfl, rfl⟩⟩,
      exec_mastLostEntry_not_due h, fun hp hst he => ⟨fun hup => ?_, fun hup h1 h2 =>
        exec_periodChangeEffective_books h hp hst he hup h1 h2⟩⟩
    rw [exec_periodChangeEffective_due h hp hst he, hup]
    rfl

end Sys2Proof.Machine
end

section
/-!
SUPPORT. Core bookings written and read by a core (R49, R54, R57, R192), and a program fault as the core sees it (R353).
-/
namespace Sys2Proof.Machine

open Sys2Proof.Stated

/-! ### A core changed twice -/

/-- A powered core is no core at its default. -/
theorem Core.ne_default_of_on {k : Core} (h : k.on = true) : k ≠ {} := by
  rintro rfl
  exact absurd h (by decide)

/-- A core that may issue is powered (R185). -/
theorem Core.on_of_issuing {k : Core} (h : k.issuing = true) : k.on = true := by
  simp only [Core.issuing, Bool.and_eq_true] at h
  exact h.1.1.1

/-- Two changes of a core that stays powered are one. -/
theorem modCore_modCore {s : State} {c : Nat} {f g : Core → Core} (hf : (f (s.core c)).on = true)
    (hg : (g (f (s.core c))).on = true) : (s.modCore c f).modCore c g = s.modCore c (fun k => g (f k)) := by
  have hset := Table.set_set_of_ne ({} : Core) s.cores c _ _ (Core.ne_default_of_on hf) (Core.ne_default_of_on hg)
  simp only [State.modCore, State.core_setCore_same]
  exact congrArg (fun t => { s with cores := t }) hset

/-! ### A program fault (R353) -/

/-- A fault of a core's unit marks its CSRs and pushes a record. -/
theorem raiseCore_eq (s : State) (c : CoreId) (code : BitVec 16) (unit : Nat) (detail : BitVec 16) :
    raiseCore s c.val code unit detail = { setFault s c.val code with
      log := s.log.push { mkRec s code (s.colourOf c.val) (some c.val) unit with detail := detail } } := by
  have hc : (BitVec.ofNat 6 c.val).toNat = c.val := Nat.mod_eq_of_lt (by omega)
  have hraise : raiseCore s c.val code unit detail = { setFault s (BitVec.ofNat 6 c.val).toNat code with
      log := s.log.push { mkRec s code (s.colourOf c.val) (some c.val) unit with detail := detail } } := rfl
  rw [hraise, hc]

/-- A fault of a core's unit changes no more of the core than its CSRs. -/
theorem raiseCore_core (s : State) (c : CoreId) (code : BitVec 16) (unit : Nat) (detail : BitVec 16) :
    ∃ csr, (raiseCore s c.val code unit detail).core c.val = { s.core c.val with csr := csr } := by
  rw [raiseCore_eq]
  show ∃ csr, (setFault s c.val code).core c.val = { s.core c.val with csr := csr }
  rw [setFault, State.core_modCore_same]
  exact ⟨_, rfl⟩

/-- A program fault halts its core; beside its CSRs the rest of the core stays. -/
theorem raiseP_core (s : State) (c : CoreId) (code : BitVec 16) (unit : Nat) (detail : BitVec 16) :
    ∃ csr, (raiseP s c.val code unit detail).core c.val = { s.core c.val with st := .halted, hold := none, csr := csr } := by
  obtain ⟨csr, hcore⟩ := raiseCore_core s c code unit detail
  rw [raiseP, failStep, State.core_modCore_same, State.core_modCore_same, hcore]
  exact ⟨_, rfl⟩

/-! ### The fields of the three instructions (R179, R192) -/

/-- The fields of BOOK are in order. -/
theorem book_fields {f : Fields} (hd : f.d = 0) (hx : f.x = 0) (hn : f.imm.toNat < 32) :
    f.only false true true 0 0x1F = true := by
  simpa [Fields.only, hd, hx] using and_not_mask_of_lt (n := 5) hn

/-- The fields of BOOKRD and BOOKRDS are in order. -/
theorem bookrd_fields {f : Fields} (ha : f.a = 0) (hb : f.b = 0) (hx : f.x = 0) (hn : f.imm.toNat < 32) :
    f.only true false false 0 0x1F = true := by
  simpa [Fields.only, ha, hb, hx] using and_not_mask_of_lt (n := 5) hn

/-! ### BOOK, BOOKRD, BOOKRDS -/

/-- The 16 bytes that BOOK writes. -/
def bookOperand (k : Core) (f : Fields) : BitVec 128 := (k.sreg f.b.toNat) ++ (k.sreg f.a.toNat)

/-- A BOOK that issues writes its booking, then advances or is refused (R49, R192). -/
theorem exec_book_of_Issues {s : State} {c : CoreId} {f : Fields} (h : Issues s c [f.a, f.b])
    (hf : f.only false true true 0 0x1F = true) :
    exec (.book c f) s = .next (
      if bookingBad true (bookOperand (s.core c.val) f) then
        refuse (writeCoreBooking s c.val f.imm.toNat (bookOperand (s.core c.val) f)) c.val fReservedSet
      else issued (writeCoreBooking s c.val f.imm.toNat (bookOperand (s.core c.val) f)) c.val) := by
  rw [show exec (.book c f) s = execBook c f s from rfl, execBook, live_issue_of_Issues h hf]
  rfl

/-- A BOOK of good bytes leaves the core past it, with the booking as written and old contents that were due still owed. -/
theorem exec_book_good {s : State} {c : CoreId} {f : Fields} (h : Issues s c [f.a, f.b])
    (hf : f.only false true true 0 0x1F = true) (hgood : bookingBad true (bookOperand (s.core c.val) f) = false) :
    let k := s.core c.val
    let old := Table.get {} k.bookings f.imm.toNat
    let new : Booking := { Booking.ofBits (bookOperand k f) with firedAt := old.firedAt }
    exec (.book c f) s = .next (withCore s c { (passed k 8) with
      owed := k.owed ++ old.owes s.mast f.imm.toNat
      bookings := Table.set {} k.bookings f.imm.toNat { new with past := new.due s.mast } }) := by
  have hon : (s.core c.val).on = true := Core.on_of_issuing h.1.2.1
  dsimp only
  rw [exec_book_of_Issues h hf, if_neg (by simp [hgood]), issued, writeCoreBooking, modCore_modCore hon hon, modCore_eq_withCore, advance_short]
  simp [Booking.write, hgood, passed]

/-- A BOOK of bytes that are refused halts the core; the booking is disarmed and old contents that were due are still owed. -/
theorem exec_book_bad {s : State} {c : CoreId} {f : Fields} (h : Issues s c [f.a, f.b])
    (hf : f.only false true true 0 0x1F = true) (hbad : bookingBad true (bookOperand (s.core c.val) f) = true) :
    ∃ t, exec (.book c f) s = .next t ∧ (t.core c.val).st = .halted ∧
      (t.core c.val).owed = (s.core c.val).owed ++ (Table.get {} (s.core c.val).bookings f.imm.toNat).owes s.mast f.imm.toNat ∧
      (Table.get {} (t.core c.val).bookings f.imm.toNat).valid = false := by
  have hx := exec_book_of_Issues h hf
  rw [if_pos hbad] at hx
  obtain ⟨csr, hcore⟩ :=
    raiseP_core (writeCoreBooking s c.val f.imm.toNat (bookOperand (s.core c.val) f)) c fReservedSet 0 0
  refine ⟨_, hx, ?_⟩
  rw [refuse, hcore]
  simp [writeCoreBooking, Booking.write, hbad, Booking.disarm]

/-- BOOKRDS returns the STROKE of a booking. -/
theorem exec_bookrds_of_Issues {s : State} {c : CoreId} {f : Fields} (h : Issues s c [f.d])
    (hf : f.only true false false 0 0x1F = true) :
    exec (.bookrds c f) s = .next (withCore s c
      (passed (holding (s.core c.val) f.d (Table.get {} (s.core c.val).bookings f.imm.toNat).stroke) 8)) := by
  rw [show exec (.bookrds c f) s = execBookrds c f s from rfl, execBookrds, live_issue_of_Issues h hf]
  simp only [State.booking, modCore_eq_withCore, advance_short, setSreg_eq_holding]

/-- BOOKRD returns bytes 8 to 15 of a booking. -/
theorem exec_bookrd_of_Issues {s : State} {c : CoreId} {f : Fields} (h : Issues s c [f.d])
    (hf : f.only true false false 0 0x1F = true) :
    exec (.bookrd c f) s = .next (withCore s c
      (passed (holding (s.core c.val) f.d (Table.get {} (s.core c.val).bookings f.imm.toNat).high) 8)) := by
  rw [show exec (.bookrd c f) s = execBookrd c f s from rfl, execBookrd, live_issue_of_Issues h hf]
  simp only [State.booking, modCore_eq_withCore, advance_short, setSreg_eq_holding]

end Sys2Proof.Machine
end

section
/-!
SUPPORT. Bookings that fire: a core's SIGNAL (R50, R53 to R57), and the refresh slices (R114); O35.
-/
namespace Sys2Proof.Machine

open Sys2Proof.Stated

/-- The cores do not depend on the Mast. -/
@[simp] theorem State.core_with_mast (s : State) (m : Mast) (c : Nat) : State.core { s with mast := m } c = s.core c := rfl

/-! ### Flags set (R275, R285) -/

/-- A change of vectors leaves the cores. -/
theorem OnlyVectors.core {s t : State} (h : OnlyVectors s t) (c : Nat) : t.core c = s.core c := by rw [h]; rfl
/-- A change of vectors leaves the Mast. -/
theorem OnlyVectors.mast {s t : State} (h : OnlyVectors s t) : t.mast = s.mast := by rw [h]
/-- A change of vectors leaves memory. -/
theorem OnlyVectors.mem {s t : State} (h : OnlyVectors s t) : t.mem = s.mem := by rw [h]

/-- Setting flags changes the core's flags and, beyond the cores, vectors only. -/
theorem setFlags_onlyVectors (s : State) (core : Nat) (mask : Word) :
    OnlyVectors (s.modCore core (fun k => { k with
      csr := { k.csr with flags := k.csr.flags ||| mask }, flagSets := k.flagSets ||| mask })) (setFlags s core mask) := by
  unfold setFlags
  dsimp only
  split
  · exact .refl _
  · generalize vecsWhere _ _ _ = vs
    generalize (s.modCore core _) = u
    induction vs generalizing u with
    | nil => exact .refl u
    | cons v vs ih => exact (vecEvent_onlyVectors _ u v).trans (ih _)

/-! ### A core's SIGNAL booking fires (R50, R55, R57) -/

/-- The entry that a firing leaves: what a write has put, or the booking after its occurrences (R56, R57). -/
def Booking.left (m : Mast) (b : Booking) : Booking := { b.after (b.merged m) with late := b.late || b.past }

/-- A one-shot is disarmed by its firing (R56). -/
theorem Booking.left_oneShot (m : Mast) {b : Booking} (h : b.period = 0) :
    (b.left m).valid = false ∧ (b.left m).stroke = b.stroke := by
  simp [Booking.left, Booking.after, h, Booking.disarm]

/-- A periodic booking moves past the occurrences that fired (R56). -/
theorem Booking.left_periodic (m : Mast) {b : Booking} (h : b.period ≠ 0) :
    (b.left m).valid = b.valid ∧ (b.left m).stroke = b.stroke + BitVec.ofNat 64 (b.merged m * b.period.toNat) := by
  simp only [Booking.left, Booking.after, if_neg h, and_self]

/-- The SIGNAL of a core from contents b sets its flag; the entry notes the cycle, and MISSED counts the occurrences merged. -/
theorem fireBooking_signal (s : State) (c i : Nat) (o : Option Booking) {b : Booking} (entry : Booking) (ha : b.action = 7) :
    fireBooking s ⟨some c, i, o⟩ b entry =
      setFlags { setBooking s (some c) i { entry with firedAt := s.cclk + 1 } with
        mast := s.mast.countMissed (b.merged s.mast - 1) } c (BitVec.ofNat 64 (2 ^ (b.param.toNat % 64))) := by
  simp only [fireBooking, fireAction, ha]
  rfl

/-- What that SIGNAL leaves of the cores, the Mast and memory. -/
theorem fireBooking_signal_leaves (s : State) (c i : Nat) (o : Option Booking) {b : Booking} (entry : Booking) (ha : b.action = 7) :
    let flag : Word := BitVec.ofNat 64 (2 ^ (b.param.toNat % 64))
    let k := s.core c
    let t := fireBooking s ⟨some c, i, o⟩ b entry
    t.core c = { k with
      bookings := Table.set {} k.bookings i { entry with firedAt := s.cclk + 1 }
      flagSets := k.flagSets ||| flag, csr := { k.csr with flags := k.csr.flags ||| flag } } ∧
    t.mast.missed = s.mast.missed + BitVec.ofNat 32 (b.merged s.mast - 1) ∧
    (∀ d : Nat, d ≠ c → t.core d = s.core d) ∧ t.mem = s.mem := by
  dsimp only
  rw [fireBooking_signal s c i o entry ha]
  have hv := setFlags_onlyVectors { setBooking s (some c) i { entry with firedAt := s.cclk + 1 } with
    mast := s.mast.countMissed (b.merged s.mast - 1) } c (BitVec.ofNat 64 (2 ^ (b.param.toNat % 64)))
  refine ⟨?_, by rw [hv.mast]; rfl, fun d hd => ?_, hv.mem⟩
  · rw [hv.core, State.core_modCore_same]
    simp only [State.core_with_mast, setBooking, State.core_modCore_same]
  · rw [hv.core, State.core_modCore, if_neg hd]
    simp only [State.core_with_mast, setBooking, State.core_modCore, if_neg hd]

/-- BOOKING_FIRE with nothing due, or without a CCLK edge, does nothing (R53, R377). -/
theorem exec_bookingFire_idle {s : State} (h : Clocked s) (hn : s.dueBookings = [] ∨ s.edge = false) :
    exec .bookingFire s = .next s := by
  rw [show exec .bookingFire s = execBookingFire s from rfl, execBookingFire, live_of_Clocked h]
  rcases hn with hn | hn <;> simp [hn, oneCycle]

/-- BOOKING_FIRE with one firing due fires it. -/
theorem exec_bookingFire_one {s : State} {x : Firing} (h : Clocked s) (he : s.edge = true) (hx : s.dueBookings = [x]) :
    exec .bookingFire s = .next (fireOne s x) := by
  have hone : oneCycle [x] = [x] := by simp [oneCycle]; cases x.core <;> simp
  rw [show exec .bookingFire s = execBookingFire s from rfl, execBookingFire, live_of_Clocked h, if_pos he, hx, hone]
  rfl

/-- Old contents fire, and the entry stays as it was written (R57). -/
theorem fireOne_owed (s : State) (c i : Nat) (b : Booking) :
    fireOne s ⟨some c, i, some b⟩ = fireBooking (s.modCore c (fun k => { k with owed := eraseOnce (i, b) k.owed }))
      ⟨some c, i, some b⟩ b (Table.get {} (s.core c).bookings i) := rfl

/-- An armed booking that is due and not skipped fires (R53, R54). -/
theorem fireOne_armed {s : State} {c i : Nat} {b : Booking} (hb : Table.get {} (s.core c).bookings i = b)
    (hd : b.due s.mast = true ∨ b.catchup = true) (hs : b.skips = false) :
    fireOne s ⟨some c, i, none⟩ = fireBooking s ⟨some c, i, none⟩ b (b.left s.mast) := by
  have hdue : (!b.due s.mast && !b.catchup) = false := by rcases hd with hd | hd <;> simp [hd]
  simp only [fireOne, State.booking, hb, hdue, hs, Bool.false_eq_true, if_false]
  rfl

/-! ### Refresh slices (R114) -/

/-- REFRESH_SLICE with no slice due, or out of its half's turn, does nothing. -/
theorem exec_refreshSlice_idle {s : State} (h : Clocked s) (v : Fin 48) (upper : Bool)
    (hn : Table.get 0 s.mem.sliceDue v.val = 0 ∨ ¬ Table.get 0 s.mem.sliceNext v.val = if upper then 1 else 0) :
    exec (.refreshSlice v upper) s = .next s := by
  rw [show exec (.refreshSlice v upper) s = execRefreshSlice v upper s from rfl, execRefreshSlice, live_of_Clocked h]
  dsimp only
  rw [if_pos (by simpa using hn)]

/-- REFRESH_SLICE in its turn takes the next row of its half, and the other half is next. -/
theorem exec_refreshSlice_due {s : State} (h : Clocked s) (v : Fin 48) (upper : Bool) (hd : 0 < Table.get 0 s.mem.sliceDue v.val)
    (ht : Table.get 0 s.mem.sliceNext v.val = if upper then 1 else 0) :
    let half := if upper then 1 else 0
    let key := 2 * v.val + half
    exec (.refreshSlice v upper) s = .next { s with mem := { s.mem with
      sliceDue := Table.set 0 s.mem.sliceDue v.val (Table.get 0 s.mem.sliceDue v.val - 1)
      sliceNext := Table.set 0 s.mem.sliceNext v.val (1 - half)
      sliceRow := Table.set 0 s.mem.sliceRow key ((Table.get 0 s.mem.sliceRow key + 1) % 4096) } } := by
  rw [show exec (.refreshSlice v upper) s = execRefreshSlice v upper s from rfl, execRefreshSlice, live_of_Clocked h]
  dsimp only
  rw [if_neg (by simpa [ht] using Nat.ne_of_gt hd)]

/-- Settles O35: a BOOK writes or is refused, a firing is of old contents or of an armed entry, and a slice has its turn or not. -/
theorem bookingsAreWrittenAndFire : Obligations.BookingsAreWrittenAndFire := by
  unfold Obligations.BookingsAreWrittenAndFire
  refine ⟨fun s c f hn hx => ⟨fun h hd hgood => ?_, fun h hd hbad => ?_, fun h ha hb => ⟨?_, ?_⟩⟩,
    fun s h => ⟨exec_bookingFire_idle h, fun c i old he hdue hfit hact => ?fire, fun v upper => ⟨exec_refreshSlice_idle h v upper,
      fun hd ht => ⟨_, exec_refreshSlice_due h v upper hd ht, ?_⟩⟩⟩⟩
  · exact exec_book_good h (book_fields hd hx hn) hgood
  · exact exec_book_bad h (book_fields hd hx hn) hbad
  · exact exec_bookrds_of_Issues h (bookrd_fields ha hb hx hn)
  · exact exec_bookrd_of_Issues h (bookrd_fields ha hb hx hn)
  case fire =>
    refine ⟨_, exec_bookingFire_one h he hdue, ?_⟩
    cases old with
    | some b =>
      rw [fireOne_owed]
      obtain ⟨hcore, hmissed, hothers, hmem⟩ := fireBooking_signal_leaves
        (s.modCore c.val (fun k => { k with owed := eraseOnce (i, b) k.owed })) c.val i (some b)
        (Table.get {} (s.core c.val).bookings i) hact
      rw [State.core_modCore_same] at hcore
      refine ⟨hcore, hmissed, fun d hd => (hothers d hd).trans ?_, hmem, fun h0 => absurd h0 (Option.some_ne_none b),
        fun h0 => absurd h0 (Option.some_ne_none b)⟩
      rw [State.core_modCore, if_neg hd]
    | none =>
      obtain ⟨hd, hs⟩ := hfit rfl
      rw [fireOne_armed rfl hd hs]
      obtain ⟨hcore, hmissed, hothers, hmem⟩ := fireBooking_signal_leaves s c.val i none
        ((Table.get {} (s.core c.val).bookings i).left s.mast) hact
      refine ⟨hcore, hmissed, hothers, hmem, fun _ => Booking.left_oneShot _, fun _ => Booking.left_periodic _⟩
  · simp

end Sys2Proof.Machine
end

section
/-!
SUPPORT. The firmware pull (R383 to R386; Table 18-7): what is asked of a source, and what its data and failures do.
-/
namespace Sys2Proof.Machine

open Sys2Proof.Stated

/-! ### Messages of the pull -/

/-- A firmware-load message is the FW_REQ or FW_DATA that the statement names. -/
theorem sendLoad_eq (s : State) (p : PortId) (mtype : Byte) (len off : Nat) (data : List Byte) :
    sendLoad s p mtype len off data = { s with tx := s.tx ++ [loadMsg s p mtype len off data] } := rfl

/-- An offset is asked of the first source. -/
theorem askOffset_cons {s : State} {q : PortId} {l : List PortId} (h : s.boot.sources = q :: l) (off : Nat) :
    askOffset s off = { s with
      boot := { s.boot with fwSentAt := s.now }, tx := s.tx ++ [loadMsg s q 0x20 (s.boot.chunk off) off []] } := by
  simp only [askOffset, h]
  rfl

/-- A pull with no source left fails. -/
theorem pullFrom_nil (s : State) : pullFrom s [] = { s with boot := { s.boot with
    stage := 3, result := if s.boot.fwRejected then .authFailed else .noSource, sources := [], image := [], imageOk := false
    fwOut := [], fwNext := 4096, fwTries := 0, failedAt := s.now } } := rfl

/-- A pull asks its first source for the first 4,096 bytes. -/
theorem pullFrom_cons (s : State) (q : PortId) (l : List PortId) : pullFrom s (q :: l) = { s with
    boot := { s.boot with
      stage := 3, result := .inProgress, sources := q :: l, image := [], imageOk := false, fwOut := [0], fwNext := 4096
      fwTries := 0, fwSentAt := s.now }
    tx := s.tx ++ [loadMsg s q 0x20 4096 0 []] } := rfl

/-- A pull of either kind is in stage 3, with its sources and no bytes yet. -/
theorem pullFrom_boot (s : State) (l : List PortId) :
    (pullFrom s l).boot.stage = 3 ∧ (pullFrom s l).boot.sources = l ∧ (pullFrom s l).boot.image = [] := by
  cases l <;> exact ⟨rfl, rfl, rfl⟩

/-- A source that failed without an image gives way to the next. -/
theorem nextSource_false (s : State) : nextSource s false = pullFrom s (s.boot.sources.drop 1) := by
  simp [nextSource]

/-! ### FW_DATA (R383 to R385) -/

/-- With nothing arrived no message is taken. -/
theorem takeMsg_of_arrived_nil {s : State} (h : s.arrived = []) (m : Msg) : takeMsg s m = s := by
  simp [takeMsg, takeArrived, h]

/-- A message for a mailbox is one, whatever its MTYPE (R411). -/
theorem exec_fw_forMailbox {s : State} (p : PortId) {m : Msg} (h : s.forMailbox m = true) :
    exec (.fwData p m) s = exec (.mbWrite m) s ∧ exec (.fwReq p m) s = exec (.mbWrite m) s := by
  rw [show exec (.fwData p m) s = execFwData p m s from rfl, show exec (.fwReq p m) s = execFwReq p m s from rfl,
    execFwData, execFwReq, if_pos h, if_pos h]
  exact ⟨rfl, rfl⟩

/-- FW_DATA in form, for an outstanding offset of the present source. -/
def fwWanted (s : State) (p : PortId) (m : Msg) : Prop :=
  (m.bad = false ∧ m.ll = true ∧ leField m.data 0 1 = 0x21 ∧ leField m.data 1 1 = 0 ∧
    leField m.data 2 2 = (m.data.drop 8).length ∧ (m.data.drop 8).length ≤ 4096) ∧
  s.boot.stage = 3 ∧ s.boot.result = .inProgress ∧ s.boot.sources.head? = some p ∧ leField m.data 4 4 ∈ s.boot.fwOut

/-- FW_DATA that is wanted is taken. -/
theorem exec_fwData_wanted {s : State} {p : PortId} {m : Msg} (h : Powered s) (ha : s.arrived = []) (hm : s.forMailbox m = false)
    (hw : fwWanted s p m) : exec (.fwData p m) s = .next (takeData s (leField m.data 4 4) (m.data.drop 8)) := by
  rw [show exec (.fwData p m) s = execFwData p m s from rfl, execFwData,
    if_neg (c := s.forMailbox m = true) (by simp [hm]), awake_of_powered h.1 h.2]
  dsimp only
  rw [takeMsg_of_arrived_nil ha, if_pos]
  simpa [fwWanted, and_assoc] using hw

/-- Any other FW_DATA is discarded. -/
theorem exec_fwData_unwanted {s : State} {p : PortId} {m : Msg} (h : Powered s) (ha : s.arrived = [])
    (hm : s.forMailbox m = false) (hw : ¬ fwWanted s p m) : exec (.fwData p m) s = .next s := by
  rw [show exec (.fwData p m) s = execFwData p m s from rfl, execFwData,
    if_neg (c := s.forMailbox m = true) (by simp [hm]), awake_of_powered h.1 h.2]
  dsimp only
  rw [takeMsg_of_arrived_nil ha, if_neg]
  simpa [fwWanted, and_assoc] using hw

/-- Data with no bytes end the source (R383). -/
theorem takeData_nil (s : State) (off : Nat) : takeData s off [] = pullFrom s (s.boot.sources.drop 1) := nextSource_false s

/-- Bytes put at the end of an image follow it. -/
theorem placeBytes_end (img d : List Byte) : placeBytes img img.length d = img ++ d := by
  simp [placeBytes, takePad]

/-- An image that is accepted has a length that fits (R384, R385). -/
theorem length_fits_of_imageAccepted {img : List Byte} (h : imageAccepted img = true) :
    1 ≤ leField img 8 4 ∧ leField img 8 4 ≤ 8388352 := by
  simp only [imageAccepted, imageForm, Bool.and_eq_true, decide_eq_true_eq] at h
  tauto

/-- Once every byte has been asked for no more is asked. -/
theorem askMore_of_whole (n : Nat) {s : State} (h : imageLength s.boot.image ≤ s.boot.fwNext) : askMore n s = s := by
  cases n with
  | zero => rfl
  | succ n => simp [askMore, h]

/-- The last outstanding bytes of an image that is accepted end the pull (R385). -/
theorem takeData_last {s : State} {d : List Byte} (hd : d ≠ []) (hout : s.boot.fwOut = [s.boot.image.length])
    (hn : d.length = s.boot.chunk s.boot.image.length) (hlong : 256 ≤ (s.boot.image ++ d).length)
    (hlen : imageLength (s.boot.image ++ d) = (s.boot.image ++ d).length) (hnext : imageLength (s.boot.image ++ d) ≤ s.boot.fwNext)
    (hacc : imageAccepted (s.boot.image ++ d) = true) :
    takeData s s.boot.image.length d = { s with boot := { s.boot with
      image := s.boot.image ++ d, imageOk := true, imageHash := Config.sha384 (s.boot.image ++ d), stage := 4, sources := []
      fwOut := [], fwTries := 0, fwSentAt := s.now } } := by
  obtain ⟨hlow, hhigh⟩ := length_fits_of_imageAccepted hacc
  have hform : ¬ (leField (s.boot.image ++ d) 8 4 = 0 ∨ 8388352 < leField (s.boot.image ++ d) 8 4) := by omega
  have hwhole : (s.boot.image ++ d).length ≤ s.boot.fwNext := hlen ▸ hnext
  simp only [takeData, List.isEmpty_iff, hd, if_false, ← hn, List.take_length, placeBytes_end, hout, List.filter_cons,
    List.filter_nil, bne_self_eq_false, Bool.false_eq_true, lt_self_iff_false, decide_false, Bool.false_and, hlong, decide_true,
    Bool.true_and, Bool.or_eq_true, decide_eq_true_eq, hform, if_true, askMore_of_whole, hlen, hwhole, List.isEmpty_nil,
    authenticate, hacc]

/-! ### FW_REQ (R383) -/

/-- The first two bytes and the numbers of a message [a, b] ++ n ++ off (Table 18-7). -/
theorem loadFields (a b : Byte) {n off : Nat} (hn : n < 256 ^ 2) (ho : off < 256 ^ 4) :
    let l := [a, b] ++ leBytes 2 n ++ leBytes 4 off
    leField l 0 1 = a.toNat ∧ leField l 1 1 = b.toNat ∧ leField l 2 2 = n ∧ leField l 4 4 = off ∧ l.length = 8 := by
  have h2 := leField_mid [a, b] (leBytes 2 n) (leBytes 4 off)
  have h4 := leField_mid ([a, b] ++ leBytes 2 n) (leBytes 4 off) []
  rw [leNat_leBytes, leBytes_length, Nat.mod_eq_of_lt hn] at h2
  rw [leNat_leBytes, leBytes_length, Nat.mod_eq_of_lt ho, List.append_nil] at h4
  refine ⟨leField_mid [] [a] _, leField_mid [a] [b] _, by rw [List.append_assoc]; exact h2, ?_, by simp⟩
  simpa using h4

/-- A FW_REQ in form is answered from the image held here. -/
theorem exec_fwReq_inForm {s : State} {p : PortId} {n off : Nat} {m : Msg} (h : Powered s) (ha : s.arrived = [])
    (hm : s.forMailbox m = false) (hbad : m.bad = false) (hll : m.ll = true)
    (hdata : m.data = [0x20, 0] ++ leBytes 2 n ++ leBytes 4 off) (h1 : 1 ≤ n) (h2 : n ≤ 4096) (ho : off < 2 ^ 32) :
    let d := if s.boot.imageOk then (s.boot.image.drop off).take n else []
    exec (.fwReq p m) s = .next { s with tx := s.tx ++ [loadMsg s p 0x21 d.length off d] } := by
  obtain ⟨f0, f1, f2, f4, hlen⟩ := loadFields 0x20 0 (show n < 256 ^ 2 by omega) (show off < 256 ^ 4 by omega)
  rw [← hdata] at f0 f1 f2 f4 hlen
  rw [show exec (.fwReq p m) s = execFwReq p m s from rfl, execFwReq,
    if_neg (c := s.forMailbox m = true) (by simp [hm]), awake_of_powered h.1 h.2]
  dsimp only
  rw [takeMsg_of_arrived_nil ha, f0, f1, f2, f4, hlen]
  refine congrArg _ ((if_neg ?_).trans (sendLoad_eq ..))
  simp [hbad, hll]
  omega

/-! ### FW_REQ_RESEND and BOOT_SOURCE_RETRY (R383, R386) -/

/-- Requests that are not 1 ms old, or none in a pull, are not sent again. -/
theorem exec_fwReqResend_not_due {s : State} (h : Powered s)
    (hn : s.boot.stage ≠ 3 ∨ s.boot.result ≠ .inProgress ∨ s.boot.fwOut = [] ∨ s.now < s.boot.fwSentAt + 1250000) :
    exec .fwReqResend s = .next s := by
  rw [show exec .fwReqResend s = execFwReqResend s from rfl, execFwReqResend, awake_of_powered h.1 h.2]
  dsimp only
  rw [if_pos]
  simp only [Bool.or_eq_true, bne_iff_ne, List.isEmpty_iff, decide_eq_true_eq, or_assoc]
  exact hn

/-- Outstanding requests 1 ms old fail for the third time, or go again. -/
theorem exec_fwReqResend_due {s : State} (h : Powered s) (hs : s.boot.stage = 3) (hr : s.boot.result = .inProgress)
    (ht : s.boot.fwSentAt + 1250000 ≤ s.now) (ho : s.boot.fwOut ≠ []) :
    exec .fwReqResend s = .next (if 2 ≤ s.boot.fwTries then pullFrom s (s.boot.sources.drop 1)
      else s.boot.fwOut.foldl askOffset { s with boot := { s.boot with fwTries := s.boot.fwTries + 1 } }) := by
  rw [show exec .fwReqResend s = execFwReqResend s from rfl, execFwReqResend, awake_of_powered h.1 h.2]
  dsimp only
  rw [if_neg, nextSource_false]
  simp only [Bool.or_eq_true, bne_iff_ne, List.isEmpty_iff, decide_eq_true_eq, hs, hr, ho, ne_eq, not_true, false_or]
  exact not_lt.mpr ht

/-- No round of sources begins before every source has failed for 1 s. -/
theorem exec_bootSourceRetry_not_due {s : State} (h : Powered s)
    (hn : s.boot.result ≠ .noSource ∧ s.boot.result ≠ .authFailed ∨ s.boot.stage ≠ 3 ∨ s.now < s.boot.failedAt + 1250000000) :
    exec .bootSourceRetry s = .next s := by
  rw [show exec .bootSourceRetry s = execBootSourceRetry s from rfl, execBootSourceRetry, awake_of_powered h.1 h.2]
  dsimp only
  rw [if_neg]
  simp only [Bool.and_eq_true, Bool.or_eq_true, beq_iff_eq, decide_eq_true_eq]
  rintro ⟨⟨hs, hr⟩, ht⟩
  rcases hn with ⟨hn1, hn2⟩ | hn | hn
  · exact not_or.mpr ⟨hn1, hn2⟩ hr
  · exact hn hs
  · exact not_le.mpr hn ht

/-- 1 s after every source has failed stage 3 begins again. -/
theorem exec_bootSourceRetry_due {s : State} (h : Powered s) (hs : s.boot.stage = 3)
    (hr : s.boot.result = .noSource ∨ s.boot.result = .authFailed) (ht : s.boot.failedAt + 1250000000 ≤ s.now) :
    exec .bootSourceRetry s = .next (startPull s) := by
  rw [show exec .bootSourceRetry s = execBootSourceRetry s from rfl, execBootSourceRetry, awake_of_powered h.1 h.2]
  dsimp only
  rw [if_pos]
  simp only [Bool.and_eq_true, Bool.or_eq_true, beq_iff_eq, decide_eq_true_eq]
  exact ⟨⟨hs, hr⟩, ht⟩

end Sys2Proof.Machine
end

section
/-!
SUPPORT. Failing rows, layers and cores of the boot test (R122, R123, R387).
-/
namespace Sys2Proof.Machine

open Sys2Proof.Stated

/-! ### Bits gathered from a list -/

/-- A bit of a word with one more bit set. -/
theorem bit_or_two_pow {n i : Nat} (m : BitVec n) (j : Nat) (hi : i < n) :
    bit (m ||| BitVec.ofNat n (2 ^ j)) i = (bit m i || decide (j = i)) := by
  rw [bit, BitVec.getLsbD_or, BitVec.getLsbD_ofNat, Nat.testBit_two_pow, decide_eq_true hi, Bool.true_and]
  rfl

/-- A bit gathered from a list is set at first, or by an element that a test selects. -/
theorem bit_foldl_or {α : Type} {n i : Nat} (p : α → Bool) (q : α → Nat) (l : List α) (m : BitVec n) (hi : i < n) :
    bit (l.foldl (fun m x => if p x then m ||| BitVec.ofNat n (2 ^ q x) else m) m) i = true ↔
      bit m i = true ∨ ∃ x ∈ l, p x = true ∧ q x = i := by
  induction l generalizing m with
  | nil => simp
  | cons x l ih =>
    have hstep : bit (if p x then m ||| BitVec.ofNat n (2 ^ q x) else m) i = true ↔
        bit m i = true ∨ (p x = true ∧ q x = i) := by
      cases hp : p x with
      | false => simp
      | true => simp only [if_true, bit_or_two_pow _ _ hi, Bool.or_eq_true, decide_eq_true_eq, true_and]
    rw [List.foldl_cons, ih, hstep, or_assoc]
    simp only [List.mem_cons, exists_eq_or_imp]

/-- A layer stays off that failed its training, or has a bank that is short of spare rows (R387). -/
theorem bit_badLayers (r : BootReport) (l : Fin 12) : bit (badLayers r) l.val = true ↔ bit r.layersFailed l.val = true ∨
    ∃ x ∈ r.rows, x < 2 ^ 30 ∧ x / (48 * 16 * 4096) = l.val ∧ shortBank r.rows x = true := by
  rw [badLayers, bit_foldl_or (fun x => decide (x < 2 ^ 30) && shortBank r.rows x) (fun x => x / (48 * 16 * 4096)) _ _ l.isLt]
  simp only [Bool.and_eq_true, decide_eq_true_eq, and_assoc, and_comm (a := shortBank _ _ = true)]

/-- A core stays off that failed its test, or has a bank that is short of spare rows (R387). -/
theorem bit_badCores (r : BootReport) (c : CoreId) : bit (badCores r) c.val = true ↔ bit r.coresFailed c.val = true ∨
    ∃ x ∈ r.rows, 2 ^ 30 ≤ x ∧ (x - 2 ^ 30) / (32 * 3072) = c.val ∧ shortBank r.rows x = true := by
  rw [badCores, bit_foldl_or (fun x => decide (2 ^ 30 ≤ x) && shortBank r.rows x) (fun x => (x - 2 ^ 30) / (32 * 3072)) _ _ c.isLt]
  simp only [Bool.and_eq_true, decide_eq_true_eq, and_assoc, and_comm (a := shortBank _ _ = true)]

/-! ### Spare rows (R122, R123) -/

/-- The rows of a list that the remap entries of firmware hold: each once, of that list only, and every row of a bank that is not
short. -/
structure Remapped (rows done : List Nat) (k : Skovi) : Prop where
  nodup : k.retired.Nodup
  sub : k.retired ⊆ done
  all : ∀ x ∈ done, shortBank rows x = false → x ∈ k.retired

/-- A row beyond those remapped of a bank that is not short finds a free spare row. -/
theorem spareFor_of_not_short {rows done : List Nat} {k : Skovi} {x : Nat} (h : Remapped rows done k) (hdone : done ⊆ rows)
    (hx : x ∈ rows) (hnew : x ∉ k.retired) (hs : shortBank rows x = false) : k.spareFor x = true := by
  have hsub : (x :: k.retired.filter (fun y => (bankOfRow y).1 == (bankOfRow x).1)) ⊆
      rows.eraseDups.filter (fun y => (bankOfRow y).1 == (bankOfRow x).1) := by
    intro y hy
    simp only [List.mem_cons, List.mem_filter, List.mem_eraseDups] at hy ⊢
    rcases hy with rfl | ⟨hy, hbank⟩
    · exact ⟨hx, beq_self_eq_true _⟩
    · exact ⟨hdone (h.sub hy), hbank⟩
  have hlen := List.Nodup.length_le_of_subset
    (List.nodup_cons.mpr ⟨fun hmem => hnew (List.mem_of_mem_filter hmem), h.nodup.filter _⟩) hsub
  simp only [shortBank, decide_eq_false_iff_not, List.length_cons] at hs hlen
  simp only [Skovi.spareFor, decide_eq_true_eq]
  omega

/-- One more failing row is remapped where its bank has a spare row left. -/
theorem Remapped.remap {rows done : List Nat} {k : Skovi} {x : Nat} (h : Remapped rows done k) (hdone : done ⊆ rows)
    (hx : x ∈ rows) : Remapped rows (done ++ [x]) (k.remap x) := by
  unfold Skovi.remap
  by_cases hin : x ∈ k.retired
  · rw [if_pos (by simp [hin])]
    refine ⟨h.nodup, fun y hy => List.mem_append_left _ (h.sub hy), fun y hy hs => ?_⟩
    rcases List.mem_append.mp hy with hy | hy
    · exact h.all y hy hs
    · exact List.mem_singleton.mp hy ▸ hin
  · cases hspare : k.spareFor x with
    | false =>
      rw [if_pos (by simp)]
      refine ⟨h.nodup, fun y hy => List.mem_append_left _ (h.sub hy), fun y hy hs => ?_⟩
      rcases List.mem_append.mp hy with hy | hy
      · exact h.all y hy hs
      · obtain rfl := List.mem_singleton.mp hy
        exact absurd (spareFor_of_not_short h hdone hx hin hs) (by simp [hspare])
    | true =>
      rw [if_neg (by simp [hin])]
      refine ⟨?_, fun y hy => ?_, fun y hy hs => ?_⟩
      · exact List.nodup_append.mpr ⟨h.nodup, List.nodup_singleton x, by simpa using fun a ha => ne_of_mem_of_not_mem ha hin⟩
      · rcases List.mem_append.mp hy with hy | hy
        · exact List.mem_append_left _ (h.sub hy)
        · exact List.mem_append_right _ hy
      · rcases List.mem_append.mp hy with hy | hy
        · exact List.mem_append_left _ (h.all y hy hs)
        · exact List.mem_append_right _ hy

/-- The failing rows remapped from none. -/
theorem remapped_foldl (rows : List Nat) (k : Skovi) : Remapped rows rows (rows.foldl Skovi.remap { k with retired := [] }) := by
  suffices h : ∀ done, done ⊆ rows → Remapped rows done (done.foldl Skovi.remap { k with retired := [] }) from
    h rows (List.Subset.refl _)
  intro done
  induction done using List.reverseRecOn with
  | nil => exact fun _ => ⟨List.nodup_nil, List.Subset.refl _, fun x hx => absurd hx List.not_mem_nil⟩
  | append_singleton done x ih =>
    intro hsub
    obtain ⟨hdone, hx⟩ := List.append_subset.mp hsub
    rw [List.foldl_append]
    exact (ih hdone).remap hdone (hx (List.mem_singleton.mpr rfl))

end Sys2Proof.Machine
end

section
/-!
SUPPORT. Arrays retired by the boot test (R217, R361): how many there are after the test's reports.
-/
namespace Sys2Proof.Machine

open Sys2Proof.Stated

/-! ### The load of a table -/

/-- The sum of a weight over a table's entries. -/
def Table.load {α : Type} (w : α → Nat) (t : Table α) : Nat := (t.map (fun e => w e.2)).sum

/-- A key below every key of a rising table reads the default. -/
theorem Table.get_of_rising {α : Type} (d : α) {a : Nat} {t : Table α} (h : Table.rising a t = true) {j : Nat} (hj : j < a) :
    Table.get d t j = d := by
  induction t generalizing a with
  | nil => rfl
  | cons e t ih =>
    obtain ⟨k, v⟩ := e
    simp only [Table.rising, Bool.and_eq_true, decide_eq_true_eq] at h
    rw [Table.get, if_neg (by omega), ih h.2 (by omega)]

/-- A value put in a rising table takes the place of what was read there. -/
theorem Table.load_put {α : Type} (d : α) {w : α → Nat} (hd : w d = 0) {a : Nat} {t : Table α} (h : Table.rising a t = true)
    (j : Nat) (v : α) : Table.load w (Table.put t j v) + w (Table.get d t j) = Table.load w t + w v := by
  induction t generalizing a with
  | nil => simp [Table.load, Table.put, Table.get, hd]
  | cons e t ih =>
    obtain ⟨k, x⟩ := e
    simp only [Table.rising, Bool.and_eq_true, decide_eq_true_eq] at h
    by_cases hlt : j < k
    · rw [Table.put, if_pos hlt, Table.get, if_neg (by omega), Table.get_of_rising d h.2 (by omega), hd]
      simp only [Table.load, List.map_cons, List.sum_cons]
      omega
    · by_cases heq : j = k
      · rw [Table.put, if_neg hlt, if_pos heq, Table.get, if_pos heq]
        simp only [Table.load, List.map_cons, List.sum_cons]
        omega
      · rw [Table.put, if_neg hlt, if_neg heq, Table.get, if_neg heq]
        have := ih h.2
        simp only [Table.load, List.map_cons, List.sum_cons] at this ⊢
        omega

/-- A key dropped takes at least what was read there. -/
theorem Table.load_drop {α : Type} (d : α) {w : α → Nat} (hd : w d = 0) (t : Table α) (j : Nat) :
    Table.load w (Table.drop t j) + w (Table.get d t j) ≤ Table.load w t := by
  induction t with
  | nil => simp [Table.load, Table.drop, Table.get, hd]
  | cons e t ih =>
    obtain ⟨k, x⟩ := e
    have hsub : Table.load w (Table.drop t j) ≤ Table.load w t := by omega
    simp only [Table.load, Table.drop] at ih hsub
    by_cases heq : j = k
    · simp only [Table.load, Table.drop, Table.get, heq, List.filter_cons, bne_self_eq_false, Bool.false_eq_true, if_false, if_true,
        List.map_cons, List.sum_cons]
      rw [heq] at hsub
      omega
    · have hne : (k != j) = true := bne_iff_ne.mpr (Ne.symm heq)
      simp only [Table.load, Table.drop, Table.get, heq, List.filter_cons, hne, if_false, if_true, List.map_cons, List.sum_cons]
      omega

/-- A value written in a rising table takes the place of what was read there. -/
theorem Table.load_set {α : Type} [DecidableEq α] (d : α) {w : α → Nat} (hd : w d = 0) {a : Nat} {t : Table α}
    (h : Table.rising a t = true) (j : Nat) (v : α) :
    Table.load w (Table.set d t j v) + w (Table.get d t j) ≤ Table.load w t + w v := by
  unfold Table.set
  split
  · exact (Table.load_drop d hd t j).trans (Nat.le_add_right ..)
  · exact (Table.load_put d hd h j v).le

/-! ### Retired arrays -/

/-- The weight of an array: 1 where it is retired. -/
def MArray.load (a : MArray) : Nat := if a.retired then 1 else 0

/-- The retired arrays of a core. -/
def Core.retiredLoad (k : Core) : Nat := Table.load MArray.load k.arrays

/-- The die's retired arrays are those of its cores. -/
theorem retiredArrays_eq_load (s : State) : s.retiredArrays = Table.load Core.retiredLoad s.cores := by
  have hcore : ∀ t : Table MArray, (t.filter (fun a => a.2.retired)).length = Table.load MArray.load t := by
    intro t
    induction t with
    | nil => rfl
    | cons e t ih =>
      simp only [Table.load, List.map_cons, List.sum_cons] at ih ⊢
      cases hr : e.2.retired <;> simp [hr, ih, MArray.load]
      omega
  have hdie : ∀ (t : Table Core) (n : Nat),
      t.foldl (fun n e => n + (e.2.arrays.filter (fun a => a.2.retired)).length) n = n + Table.load Core.retiredLoad t := by
    intro t
    induction t with
    | nil => exact fun _ => rfl
    | cons e t ih =>
      intro n
      rw [List.foldl_cons, ih, hcore]
      simp only [Table.load, List.map_cons, List.sum_cons, Core.retiredLoad]
      omega
  rw [State.retiredArrays, hdie, Nat.zero_add]

/-- The tables of cores and of their arrays are rising, and at most n arrays are retired. -/
structure RetiredAtMost (n : Nat) (s : State) : Prop where
  cores : Table.wf {} s.cores = true
  arrays : ∀ c : Nat, Table.wf {} (s.core c).arrays = true
  load : Table.load Core.retiredLoad s.cores ≤ n

/-- A core changed, with at most m more retired arrays. -/
theorem RetiredAtMost.modCore {n m : Nat} {s : State} (h : RetiredAtMost n s) (c : Nat) {f : Core → Core}
    (hwf : Table.wf {} (f (s.core c)).arrays = true) (hload : (f (s.core c)).retiredLoad ≤ (s.core c).retiredLoad + m) :
    RetiredAtMost (n + m) (s.modCore c f) := by
  refine ⟨Table.wf_set _ _ _ h.cores, fun d => ?_, ?_⟩
  · rw [State.core_modCore]
    split
    · exact hwf
    · exact h.arrays d
  · have hrise : Table.rising 0 s.cores = true := (Bool.and_eq_true_iff.mp h.cores).1
    have hset := Table.load_set ({} : Core) (w := Core.retiredLoad) rfl hrise c (f (s.core c))
    have hn := h.load
    rw [State.core] at hload
    simp only [State.modCore, State.setCore, State.core] at hset ⊢
    omega

/-- Whether a report retires its array (R217). -/
def arrayRetires (r : ArrayReport) : Bool := r.rowFault || decide (4 < popcount r.bad)

/-- A report retires one array at most. -/
theorem RetiredAtMost.testArray {n : Nat} {s : State} (h : RetiredAtMost n s) (r : ArrayReport) :
    RetiredAtMost (n + if arrayRetires r then 1 else 0) (testArray s r) := by
  refine h.modCore _ (Table.wf_set _ _ _ (h.arrays _)) ?_
  have hrise : Table.rising 0 (s.core r.core.val).arrays = true := (Bool.and_eq_true_iff.mp (h.arrays _)).1
  have hset := Table.load_set ({} : MArray) (w := MArray.load) rfl hrise r.array.val
    ((Table.get {} (s.core r.core.val).arrays r.array.val).tested r)
  have hone : ((Table.get {} (s.core r.core.val).arrays r.array.val).tested r).load = if arrayRetires r then 1 else 0 := rfl
  rw [hone] at hset
  simp only [Core.retiredLoad]
  omega

/-- The reports retire at most as many arrays as they say. -/
theorem RetiredAtMost.testArrays {n : Nat} {s : State} (h : RetiredAtMost n s) (l : List ArrayReport) :
    RetiredAtMost (n + (l.filter arrayRetires).length) (l.foldl Machine.testArray s) := by
  induction l generalizing n s with
  | nil => exact h
  | cons r l ih =>
    have hr := ih (h.testArray r)
    rw [List.filter_cons, List.foldl_cons]
    cases hret : arrayRetires r with
    | true =>
      rw [hret, if_pos rfl, Nat.add_right_comm] at hr
      exact hr
    | false =>
      rw [hret] at hr
      simpa using hr

end Sys2Proof.Machine
end

section
/-!
SUPPORT. The boot stages (R382 to R388, R391; Table 18-6), and O59.
-/
namespace Sys2Proof.Machine

open Sys2Proof.Stated

/-! ### Cores changed one after another -/

/-- Cores of a list without repeats changed in turn: each of them once, any other not. -/
theorem core_foldl_modCore {l : List Nat} (hl : l.Nodup) (f : Core → Core) (s : State) (c : Nat) :
    (l.foldl (fun s c => s.modCore c f) s).core c = if c ∈ l then f (s.core c) else s.core c := by
  induction l generalizing s with
  | nil => simp
  | cons d l ih =>
    obtain ⟨hd, hl⟩ := List.nodup_cons.mp hl
    rw [List.foldl_cons, ih hl, State.core_modCore]
    by_cases hc : c = d
    · subst hc; simp [hd]
    · simp [hc]

/-! ### Which stage ends -/

/-- What the end of a stage that succeeded does (Table 18-6). -/
def endOfStage (s : State) (r : BootReport) : Nat → State
  | 1 => enterStage s 2
  | 2 => endStage2 s
  | 4 => endStage4 s
  | 5 => endStage5 s r
  | 6 => endStage6 s r
  | 7 => enterStage s 8
  | 8 => endStage8 s
  | 9 => endStage9 s
  | 10 => if s.mast.st == .unlocked then s else enterStage s 11
  | 11 => if s.boot.result == .inProgress then adminReady s else s
  | _ => s

/-- BOOT_STAGE_DONE with CCLK running ends the present stage, or reports that it failed. -/
theorem exec_bootStageDone_clocked {s : State} (h : Clocked s) (r : BootReport) : exec (.bootStageDone r) s = .next (
    if r.ok then endOfStage s r s.boot.stage else { s with boot := { s.boot with savedTraining := false } }) := by
  obtain ⟨hp, ht, hc⟩ := h
  rw [show exec (.bootStageDone r) s = execBootStageDone r s from rfl, execBootStageDone]
  cases hok : r.ok with
  | false => simp [hp, ht, hc]
  | true =>
    simp only [hp, ht, hc, Bool.or_self, Bool.false_eq_true, if_false, Bool.not_true, if_true]
    rfl

/-- A stage that succeeds ends as its number says. -/
theorem exec_bootStageDone_stage {s : State} (h : Clocked s) {r : BootReport} (hok : r.ok = true) {n : Nat} (hn : s.boot.stage = n) :
    exec (.bootStageDone r) s = .next (endOfStage s r n) := by
  rw [exec_bootStageDone_clocked h, if_pos hok, hn]

/-- In the test state the zero fill ends (R391). -/
theorem exec_bootStageDone_testState {s : State} (r : BootReport) (hp : s.boot.porstLow = false) (ht : s.boot.testState = true)
    (hc : s.halted = false) : exec (.bootStageDone r) s = .next { s with boot := { s.boot with testReady := true } } := by
  rw [show exec (.bootStageDone r) s = execBootStageDone r s from rfl, execBootStageDone]
  simp [hp, ht, hc]

/-! ### Stages 2, 4 and 5 -/

/-- A warm boot goes on with the image it holds. -/
theorem endStage2_warm {s : State} (hw : s.boot.warm = true) (hi : s.boot.imageOk = true)
    (hsha : Config.sha384 s.boot.image = s.boot.imageHash) : endStage2 s = enterStage s 4 := by
  simp [endStage2, hw, hi, hsha]

/-- A cold boot pulls firmware. -/
theorem endStage2_cold {s : State} (hw : s.boot.warm = false) :
    endStage2 s = pullFrom { s with boot := { s.boot with fwRejected := false } } s.pullOrder := by
  simp [endStage2, hw, startPull]

/-- Without an image stage 4 does not end. -/
theorem endStage4_without {s : State} (hi : s.boot.imageOk = false) : endStage4 s = s := by
  simp [endStage4, hi]

/-- With one firmware takes over. -/
theorem endStage4_with {s : State} (hi : s.boot.imageOk = true) : endStage4 s = enterStage { s with skovi := { s.skovi with
    up := true, active := imageBuild s.boot.image, activeSha := Config.sha384 s.boot.image } } 5 := by
  simp [endStage4, hi]

/-! ### Stage 6 -/

/-- The cores that pass their test are on (R387). -/
def coresOn (s : State) (r : BootReport) : State :=
  ((List.range 48).filter (fun c => !bit (badCores r) c)).foldl (fun s c => s.modCore c (fun k => { k with on := true })) s

/-- A report of an array leaves every core's power. -/
theorem testArray_on (s : State) (r : ArrayReport) (c : Nat) : ((testArray s r).core c).on = (s.core c).on := by
  rw [testArray, State.core_modCore]
  split
  · next h => rw [h]
  · rfl

/-- Reports of arrays leave every core's power. -/
theorem testArrays_on (l : List ArrayReport) (s : State) (c : Nat) : ((l.foldl testArray s).core c).on = (s.core c).on := by
  induction l generalizing s with
  | nil => rfl
  | cons r l ih => rw [List.foldl_cons, ih, testArray_on]

/-- Of a die without cores those that pass are on, and no array is retired. -/
theorem coresOn_of_none {s : State} (hs : s.cores = []) (r : BootReport) :
    (∀ c : CoreId, ((coresOn s r).core c.val).on = !bit (badCores r) c.val) ∧ RetiredAtMost 0 (coresOn s r) := by
  have hnone : ∀ c : Nat, s.core c = {} := fun c => by rw [State.core, hs]; rfl
  constructor
  · intro c
    rw [coresOn, core_foldl_modCore (List.nodup_range.filter _)]
    simp only [hnone, List.mem_filter, List.mem_range, c.isLt, true_and, apply_ite Core.on]
    cases bit (badCores r) c.val <;> rfl
  · have hstart : RetiredAtMost 0 s := ⟨by rw [hs]; rfl, fun c => by rw [hnone]; rfl, by rw [hs]; rfl⟩
    exact List.foldlRecOn _ _ hstart fun u hu c _ => hu.modCore (m := 0) c (hu.arrays c) le_rfl

/-- The power of cores leaves the boot block. -/
theorem coresOn_boot (s : State) (r : BootReport) : (coresOn s r).boot = s.boot :=
  List.foldlRecOn (motive := fun u : State => u.boot = s.boot) _ _ rfl fun _ hu _ _ => hu

/-- Reports of arrays leave the boot block. -/
theorem testArrays_boot (l : List ArrayReport) (s : State) : (l.foldl testArray s).boot = s.boot :=
  List.foldlRecOn (motive := fun u : State => u.boot = s.boot) _ _ rfl fun _ hu _ _ => hu

/-- The die as stage 6 powers it: rows remapped, cores on (R123, R387). -/
def poweredDie (s : State) (r : BootReport) : State :=
  let u := coresOn { s with skovi := r.rows.foldl Skovi.remap s.skovi } r
  { u with boot := { u.boot with coreFailed := u.boot.coreFailed || badCores r != 0 } }

/-- The die as stage 6 leaves it, before it is looked for persistent faults (R361). -/
def testedDie (s : State) (r : BootReport) : State := r.arrays.foldl testArray (poweredDie s r)

/-- With fewer than four arrays retired stage 6 leaves the tested die. -/
theorem endStage6_of_few {s : State} (hs : s.cores = []) {r : BootReport} (hfew : (r.arrays.filter arrayRetires).length < 4) :
    endStage6 s r = enterStageAfter (testedDie s r) 7 (badCores r != 0) .coreFailed := by
  obtain ⟨hcores, harrays, hload⟩ := (coresOn_of_none (s := { s with skovi := r.rows.foldl Skovi.remap s.skovi }) hs r).2
  have hpowered : RetiredAtMost 0 (poweredDie s r) := ⟨hcores, harrays, hload⟩
  have hcount : (testedDie s r).retiredArrays ≤ 0 + (r.arrays.filter arrayRetires).length := by
    rw [retiredArrays_eq_load]
    exact (hpowered.testArrays r.arrays).load
  have hshape : endStage6 s r = enterStageAfter (checkArrays (testedDie s r)) 7 (badCores r != 0) .coreFailed := rfl
  rw [hshape, checkArrays, if_neg (by omega)]

/-- The tested die has the cores that passed on, and notes whether one failed. -/
theorem testedDie_cores {s : State} (hs : s.cores = []) (r : BootReport) :
    (∀ c : CoreId, ((testedDie s r).core c.val).on = !bit (badCores r) c.val) ∧
    (testedDie s r).boot.coreFailed = (s.boot.coreFailed || badCores r != 0) := by
  constructor
  · intro c
    rw [testedDie, testArrays_on]
    exact (coresOn_of_none (s := { s with skovi := r.rows.foldl Skovi.remap s.skovi }) hs r).1 c
  · rw [testedDie, testArrays_boot, poweredDie, coresOn_boot]

/-- A lone report leaves its map in its array (R217). -/
theorem testedDie_array {s : State} {r : BootReport} {x : ArrayReport} (hx : r.arrays = [x]) :
    let a := Table.get {} ((testedDie s r).core x.core.val).arrays x.array.val
    a.bad = x.bad ∧ a.retired = (x.rowFault || decide (4 < popcount x.bad)) := by
  simp [testedDie, hx, testArray, MArray.tested]

/-! ### Stage 8 -/

/-- A test of the ports by number holds of one of the four. -/
theorem any_ports (P : Nat → Bool) : (List.range 4).any P = true ↔ ∃ p : PortId, P p.val = true := by
  simp only [List.any_eq_true, List.mem_range]
  exact ⟨fun ⟨p, hp, h⟩ => ⟨⟨p, hp⟩, h⟩, fun ⟨p, h⟩ => ⟨p.val, p.isLt, h⟩⟩

/-- While a port trains stage 8 does not end. -/
theorem endStage8_training {s : State} (h : ∃ p : PortId, (s.port p.val).st = .training) : endStage8 s = s := by
  rw [endStage8, if_pos]
  exact (any_ports _).mpr (h.imp fun p hp => by simp [hp])

/-- With no port training stage 8 ends, and a port that is DOWN has failed. -/
theorem endStage8_ends {s : State} (h : ∀ p : PortId, (s.port p.val).st ≠ .training) {failed : Bool}
    (hf : (List.range 4).any (fun p => (s.port p).st == .down) = failed) : endStage8 s =
    enterStageAfter { s with boot := { s.boot with portFailed := s.boot.portFailed || failed, savedTraining := true } } 9 failed .portFailed := by
  rw [endStage8, if_neg, hf]
  rw [any_ports]
  rintro ⟨p, hp⟩
  exact h p (by simpa using hp)

/-! ### Stage 11 -/

/-- From s to t only the die's bookings and what they owe change. -/
def OnlyBookings (s t : State) : Prop := t = { s with dieBookings := t.dieBookings, owed := t.owed }

/-- Two such changes in a row are one. -/
theorem OnlyBookings.trans {s t u : State} (h : OnlyBookings s t) (h' : OnlyBookings t u) : OnlyBookings s u := by
  unfold OnlyBookings at *
  rw [h', h]

/-- A booking that firmware writes changes bookings only. -/
theorem writeDieBooking_onlyBookings (s : State) (i : Nat) (x : BitVec 128) : OnlyBookings s (writeDieBooking s i x) := rfl

/-- Bookings that firmware writes one after another change bookings only. -/
theorem foldl_writeDieBooking_onlyBookings (i : Nat → Nat) (x : Nat → BitVec 128) (l : List Nat) (s : State) :
    OnlyBookings s (l.foldl (fun s n => writeDieBooking s (i n) (x n)) s) :=
  List.foldlRecOn (motive := OnlyBookings s) _ _ rfl fun _ hu n _ => hu.trans (writeDieBooking_onlyBookings _ (i n) (x n))

/-- Firmware's own bookings change bookings only (R52, R59). -/
theorem armOwn_onlyBookings (s : State) : OnlyBookings s (armOwn s) :=
  (((writeDieBooking_onlyBookings s _ _).trans (writeDieBooking_onlyBookings _ _ _)).trans
    (foldl_writeDieBooking_onlyBookings (18 + ·) _ _ _)).trans (foldl_writeDieBooking_onlyBookings (3 + ·) _ _ _)

/-- From s to t only the ports change. -/
def OnlyPorts (s t : State) : Prop := t = { s with ports := t.ports }

/-- Two such changes in a row are one. -/
theorem OnlyPorts.trans {s t u : State} (h : OnlyPorts s t) (h' : OnlyPorts t u) : OnlyPorts s u := by
  unfold OnlyPorts at *
  rw [h', h]

/-- A port changed is only a port changed. -/
theorem modPort_onlyPorts (s : State) (p : Nat) (f : Port → Port) : OnlyPorts s (s.modPort p f) := rfl

/-- TRIGGERED Pennants asked for change ports only (R91). -/
theorem triggerAll_onlyPorts (s : State) : OnlyPorts s (triggerAll s) :=
  List.foldlRecOn (motive := OnlyPorts s) _ _ rfl fun _ hu p _ => hu.trans (modPort_onlyPorts _ p _)

/-- The die that has completed its boot: its first start is counted and its HEALTH told (R90, R303, R386). -/
def bootedDie (u : State) : State :=
  { u with
    boot := { u.boot with result := .complete }, skovi := { u.skovi with mbEpoch := 1 }
    member := { u.member with
      health := if u.member.fenced then 2 else if u.boot.layerFailed || u.boot.coreFailed || u.boot.portFailed then 1 else 0 } }

/-- Stage 11 makes the admin mailbox of the booted die fresh and asks for Pennants. -/
theorem adminReady_eq (s : State) : adminReady s =
    triggerAll ((bootedDie (armOwn (zeroRange s 0 0x1200000000))).setMailbox 0
      (freshMailbox (bootedDie (armOwn (zeroRange s 0 0x1200000000))) 0)) := by
  unfold adminReady
  generalize armOwn (zeroRange s 0 0x1200000000) = u
  rfl

/-- What a booted die leaves once Pennants are asked for: the admin mailbox READY, memory as it was, HEALTH (R303, R386). -/
theorem triggerAll_bootedDie (u : State) :
    let t := triggerAll ((bootedDie u).setMailbox 0 (freshMailbox (bootedDie u) 0))
    t.boot.result = .complete ∧ t.skovi.mbEpoch = 1 ∧ t.mailbox 0 = { st := .ready, info := 0x0204, mbEpoch := 1 } ∧ t.mem = u.mem ∧
    t.member.health = (if u.member.fenced then 2 else if u.boot.layerFailed || u.boot.coreFailed || u.boot.portFailed then 1 else 0) := by
  have hready := triggerAll_onlyPorts ((bootedDie u).setMailbox 0 (freshMailbox (bootedDie u) 0))
  generalize triggerAll ((bootedDie u).setMailbox 0 (freshMailbox (bootedDie u) 0)) = t at hready ⊢
  have hmailbox : t.mailbox 0 = ((bootedDie u).setMailbox 0 (freshMailbox (bootedDie u) 0)).mailbox 0 := by rw [hready]; rfl
  rw [State.mailbox_setMailbox_same] at hmailbox
  rw [hready] at hmailbox ⊢
  exact ⟨rfl, rfl, hmailbox, rfl, rfl⟩

/-- What stage 11 leaves: stack memory zero, the admin mailbox READY, HEALTH (R46, R303, R386). -/
theorem adminReady_leaves (s : State) :
    let t := adminReady s
    t.boot.result = .complete ∧ t.skovi.mbEpoch = 1 ∧ t.mailbox 0 = { st := .ready, info := 0x0204, mbEpoch := 1 } ∧
    (∀ a : Nat, a < 0x1200000000 → t.byteAt a = 0) ∧
    t.member.health = (if s.member.fenced then 2 else if s.boot.layerFailed || s.boot.coreFailed || s.boot.portFailed then 1 else 0) := by
  have hzero := fun a => byteAt_zeroRange s 0 0x1200000000 a
  have hmember : (zeroRange s 0 0x1200000000).member = s.member := rfl
  have hboot : (zeroRange s 0 0x1200000000).boot = s.boot := rfl
  rw [adminReady_eq]
  generalize zeroRange s 0 0x1200000000 = z at hzero hmember hboot ⊢
  have harm := armOwn_onlyBookings z
  generalize armOwn z = u at harm ⊢
  obtain ⟨hresult, hepoch, hmailbox, hmem, hhealth⟩ := triggerAll_bootedDie u
  refine ⟨hresult, hepoch, hmailbox, fun a ha => ?_, ?_⟩
  · have hcells := hzero a
    rw [if_pos (by omega)] at hcells
    rw [State.byteAt, hmem, harm]
    exact hcells
  · rw [hhealth, harm, ← hmember, ← hboot]

/-! ### O59 -/

/-- What RESULT tells of a mask of parts that stay off (R386, R387). -/
theorem resultOf_bad {n : Nat} (m : BitVec n) (b : BootResult) :
    (if (m != 0) = true then b else .inProgress) = if m = 0 then BootResult.inProgress else b := by
  by_cases hm : m = 0 <;> simp [hm]

/-- Stage 8 leaves PORT_FAILED as it found the ports. -/
theorem endStage8_leaves {s : State} (htrain : ∀ p : PortId, (s.port p.val).st ≠ .training) :
    let t := endStage8 s
    t.boot.stage = 9 ∧ ((∃ p : PortId, (s.port p.val).st = .down) → t.boot.portFailed = true ∧ t.boot.result = .portFailed) ∧
    ((∀ p : PortId, (s.port p.val).st ≠ .down) → t.boot.portFailed = s.boot.portFailed ∧ t.boot.result = .inProgress) := by
  dsimp only
  rw [endStage8_ends htrain rfl]
  refine ⟨rfl, fun hdown => ?_, fun hup => ?_⟩
  · rw [(any_ports fun p => (s.port p).st == .down).mpr (hdown.imp fun p hp => by simp [hp])]
    exact ⟨Bool.or_true _, rfl⟩
  · have hfailed : ¬ (List.range 4).any (fun p => (s.port p).st == .down) = true := by
      rw [any_ports]
      rintro ⟨p, hp⟩
      exact hup p (by simpa using hp)
    rw [Bool.eq_false_iff.mpr hfailed]
    exact ⟨Bool.or_false _, rfl⟩

/-- Stage 9 with a Hub ends once the die holds an ID and its Hub is VERIFIED (R96). -/
theorem endStage9_some {s : State} {h : BitVec 6} (hhub : s.hub = some h) : endStage9 s =
    if s.member.id.isSome = true ∧ (s.die h.toNat).st = .verified then enterStage s 10 else s := by
  simp only [endStage9, hhub, Bool.and_eq_true, beq_iff_eq]

/-- Settles O59: each stage by what ends it, the firmware pull by what is asked of a source and what its data do. -/
theorem bootStagesFollowInOrder : Obligations.BootStagesFollowInOrder := by
  unfold Obligations.BootStagesFollowInOrder
  intro s
  dsimp only
  refine ⟨fun r hp ht hc => exec_bootStageDone_testState r hp ht hc, fun r hc => ⟨fun hok => ?_, fun hok => ?_⟩, fun hp ha => ?_⟩
  · rw [exec_bootStageDone_clocked hc, if_neg (by simp [hok])]
  · have hends : ∀ {n t}, s.boot.stage = n → endOfStage s r n = t → exec (.bootStageDone r) s = .next t :=
      fun hn ht => ht ▸ exec_bootStageDone_stage hc hok hn
    refine ⟨fun hn => hends hn rfl, fun hn hw hi hsha => hends hn (endStage2_warm hw hi hsha),
      fun hn hw => ⟨fun hnil => ⟨_, hends hn (endStage2_cold hw), ?_⟩, fun q l hcons => ⟨_, hends hn (endStage2_cold hw), ?_⟩⟩,
      fun hn hi => hends hn (endStage4_without hi),
      fun hn hi => ⟨_, hends hn (endStage4_with hi), rfl, rfl, rfl, rfl⟩,
      fun hn => ⟨_, hends hn rfl, rfl, rfl, rfl, resultOf_bad _ _, (remapped_foldl r.rows s.skovi).sub, (remapped_foldl r.rows s.skovi).all⟩,
      bit_badLayers r, bit_badCores r,
      fun hn hnone hfew => ⟨_, hends hn (endStage6_of_few hnone hfew), rfl, (testedDie_cores hnone r).1, (testedDie_cores hnone r).2,
        resultOf_bad _ _, fun x hx => testedDie_array hx⟩,
      fun hn => hends hn rfl,
      fun hn htrain => hends hn (endStage8_training htrain),
      fun hn htrain => ⟨_, hends hn rfl, endStage8_leaves htrain⟩,
      fun hn hhub => hends hn (by simp [endOfStage, endStage9, hhub]),
      fun h hn hhub => hends hn (endStage9_some hhub),
      fun hn => hends hn (by simp only [endOfStage, beq_iff_eq]; rfl),
      fun hn hr => ⟨_, hends hn (if_pos (by simp [hr])), ?_⟩,
      fun hn hr => hends hn (if_neg (by simp [hr]))⟩
    · rw [hnil, pullFrom_nil]
      exact ⟨rfl, rfl, rfl, rfl⟩
    · rw [hcons, pullFrom_cons]
      exact ⟨rfl, rfl, rfl, rfl, rfl, rfl⟩
    · obtain ⟨hresult, hepoch, hmailbox, hzero, hhealth⟩ := adminReady_leaves s
      refine ⟨hresult, hepoch, hmailbox, hzero, fun h1 h2 h3 h4 => ?_, fun h1 => ?_⟩
      · rw [hhealth, h1, h2, h3, h4]; rfl
      · rw [hhealth, h1]; rfl
  · refine ⟨fun p m _ hm => exec_fw_forMailbox p hm, fun p m hm => ⟨fun hw => exec_fwData_unwanted hp ha hm hw, fun hform hwant hd => ?_,
      fun hform hwant hd hout hoff hn hlong hlen hnext hacc => ?_⟩,
      fun p n off m hm hbad hll hdata h1 h2 ho => exec_fwReq_inForm hp ha hm hbad hll hdata h1 h2 ho,
      exec_fwReqResend_not_due hp, fun hs hr ht => ⟨fun hout htries => ?_, fun off q l hout hsources htries => ?_⟩,
      exec_bootSourceRetry_not_due hp, fun hs hr ht => ⟨_, exec_bootSourceRetry_due hp hs hr ht, pullFrom_boot _ _⟩⟩
    · rw [exec_fwData_wanted hp ha hm ⟨hform, hwant⟩, hd, takeData_nil]
    · refine ⟨_, exec_fwData_wanted hp ha hm ⟨hform, hwant⟩, ?_⟩
      rw [hoff] at hout hn ⊢
      rw [takeData_last hd hout hn hlong hlen hnext hacc]
      exact ⟨rfl, rfl, rfl, rfl, rfl⟩
    · rw [exec_fwReqResend_due hp hs hr ht hout, if_pos htries]
    · refine ⟨_, exec_fwReqResend_due hp hs hr ht (by simp [hout]), ?_⟩
      have hask := askOffset_cons (s := { s with boot := { s.boot with fwTries := s.boot.fwTries + 1 } }) hsources off
      rw [if_neg (by omega), hout, List.foldl_cons, List.foldl_nil, hask]
      exact ⟨rfl, rfl, rfl⟩

end Sys2Proof.Machine
end

section
/-!
SUPPORT. What a cut of a core's mover, a core reset and the launch of a core change (R175, R198, R348): which parts of the die,
and what of each core.
-/
namespace Sys2Proof.Machine

open Sys2Proof.Stated

/-! ### A core whose mover is cut -/

/-- From k to k' only what a cut of movers may change does: channels, credit entries, arrivals, the scoreboard, and the fault CSRs. -/
def MoverCut (k k' : Core) : Prop := k' = { k with
  chans := k'.chans, credits := k'.credits, bars := k'.bars, sb := k'.sb
  csr := { k.csr with fault := k'.csr.fault, newFault := k'.csr.newFault } }

/-- Nothing changed. -/
theorem MoverCut.refl (k : Core) : MoverCut k k := rfl

/-- Two such changes in a row are one. -/
theorem MoverCut.trans {k k' k'' : Core} (h : MoverCut k k') (h' : MoverCut k' k'') : MoverCut k k'' := by
  unfold MoverCut at *
  rw [h', h]

/-- From s to t the cores change no more than cuts of movers change them. -/
def CoresCut (s t : State) : Prop := ∀ d : Nat, MoverCut (s.core d) (t.core d)

/-- The cores did not change. -/
theorem CoresCut.of_eq {s t : State} (h : t.cores = s.cores) : CoresCut s t := fun d => by
  rw [State.core, State.core, h]
  exact MoverCut.refl _

/-- Two such changes in a row are one. -/
theorem CoresCut.trans {s t u : State} (h : CoresCut s t) (h' : CoresCut t u) : CoresCut s u := fun d => (h d).trans (h' d)

/-- One core so changed. -/
theorem CoresCut.modCore (s : State) (c : Nat) {f : Core → Core} (hf : ∀ k, MoverCut k (f k)) : CoresCut s (s.modCore c f) := fun d => by
  rw [State.core_modCore]
  split
  · next h => rw [h]; exact hf _
  · exact MoverCut.refl _

/-- Changes in a row. -/
theorem CoresCut.foldl {α : Type} {f : State → α → State} (hf : ∀ s x, CoresCut s (f s x)) (l : List α) (s : State) :
    CoresCut s (l.foldl f s) :=
  List.foldlRecOn (motive := CoresCut s) l f (.of_eq rfl) fun _ hu x _ => hu.trans (hf _ x)

/-- From s to t only cores, slots, messages and requests change. -/
def OnlyBooks (s t : State) : Prop := t = { s with cores := t.cores, mesh := t.mesh, tx := t.tx, reqs := t.reqs }

/-- Two such changes in a row are one. -/
theorem OnlyBooks.trans {s t u : State} (h : OnlyBooks s t) (h' : OnlyBooks t u) : OnlyBooks s u := by
  unfold OnlyBooks at *
  rw [h', h]

/-- From s to t only cores, slots, messages, requests, windows, memory and the log change. -/
def OnlyMovers (s t : State) : Prop := t = { s with
  cores := t.cores, mesh := t.mesh, tx := t.tx, reqs := t.reqs, windows := t.windows, mem := t.mem, log := t.log }

/-- Two such changes in a row are one. -/
theorem OnlyMovers.trans {s t u : State} (h : OnlyMovers s t) (h' : OnlyMovers t u) : OnlyMovers s u := by
  unfold OnlyMovers at *
  rw [h', h]

/-- A change of books is one of movers. -/
theorem OnlyBooks.movers {s t : State} (h : OnlyBooks s t) : OnlyMovers s t := by
  unfold OnlyBooks at h
  unfold OnlyMovers
  rw [h]

/-- Changes in a row. -/
theorem OnlyMovers.foldl {α : Type} {f : State → α → State} (hf : ∀ s x, OnlyMovers s (f s x)) (l : List α) (s : State) :
    OnlyMovers s (l.foldl f s) :=
  List.foldlRecOn (motive := OnlyMovers s) l f rfl fun _ hu x _ => hu.trans (hf _ x)

/-! ### Credits returned and channels cleared (R162, R168, R175) -/

/-- A slot to a die changes the mesh or the messages. -/
theorem sendSlot_onlyBooks (s : State) (dst : BitVec 6) (stype : Byte) (colour : BitVec 4) (core : Nat) (slot : Slot) :
    OnlyBooks s (sendSlot s dst stype colour core slot) ∧ (sendSlot s dst stype colour core slot).cores = s.cores := by
  unfold sendSlot
  split
  · exact ⟨rfl, rfl⟩
  · split <;> exact ⟨rfl, rfl⟩

/-- Release slots change the mesh or the messages. -/
theorem releaseSlots_onlyBooks (colour : BitVec 4) (c : Nat) (e : Credit) (n u : Nat) (s : State) :
    OnlyBooks s (releaseSlots colour c e n u s) ∧ (releaseSlots colour c e n u s).cores = s.cores := by
  induction n generalizing u s with
  | zero => exact ⟨rfl, rfl⟩
  | succ n ih =>
    unfold releaseSlots
    split
    · exact ⟨rfl, rfl⟩
    · obtain ⟨hsend, hcores⟩ := sendSlot_onlyBooks s e.die 3 colour c (windowSlot e.win c (Nat.min u 0xFFFFF))
      obtain ⟨hrest, hrestCores⟩ := ih (u - Nat.min u 0xFFFFF) (sendSlot s e.die 3 colour c (windowSlot e.win c (Nat.min u 0xFFFFF)))
      exact ⟨hsend.trans hrest, hrestCores.trans hcores⟩

/-- Credits that return change the books, and of a core its credit entries. -/
theorem returnCredit_onlyBooks (c u : Nat) (s : State) (e : Credit) :
    OnlyBooks s (returnCredit c u s e) ∧ CoresCut s (returnCredit c u s e) := by
  obtain ⟨hslots, hcores⟩ := releaseSlots_onlyBooks (s.colourOf c) c e (((if e.barred then 0 else e.held) + u) / 0xFFFFF + 1)
    ((if e.barred then 0 else e.held) + u) s
  exact ⟨hslots.trans rfl, (CoresCut.of_eq hcores).trans (CoresCut.modCore _ c fun _ => rfl)⟩

/-- A core's mover before its windows are settled: credits returned, messages cut, channels cleared (R175). -/
def moverStopped (s : State) (c : Nat) : State :=
  let u := (s.core c).credits.foldl (fun s e => returnCredit c (s.unsentTo c e) s e) s
  clearChans { u with tx := u.tx.filterMap (TxMsg.cut c), reqs := u.reqs.filter (fun q => !(u.cutTags c).contains q.tag) } c

/-- A window of a mover that is cut: RELEASED becomes FILLED (R175). -/
def settleWindow (s : State) (e : Nat × Window) : State :=
  let w := s.window e.1
  if w.filled = w.released then s else putWindow s e.1 { w with released := w.filled, free := w.free + (w.filled - w.released).toNat }

/-- A cut stops the mover, then settles its windows. -/
theorem cutMover_eq (s : State) (c : Nat) : cutMover s c =
    ((moverStopped s c).windows.filter (fun e => e.2.valid && e.2.owner == c)).foldl settleWindow (moverStopped s c) := rfl

/-- A stopped mover changes the books, and of cores no more than a cut does. -/
theorem moverStopped_onlyBooks (s : State) (c : Nat) : OnlyBooks s (moverStopped s c) ∧ CoresCut s (moverStopped s c) := by
  have hcredits : OnlyBooks s ((s.core c).credits.foldl (fun s e => returnCredit c (s.unsentTo c e) s e) s) ∧
      CoresCut s ((s.core c).credits.foldl (fun s e => returnCredit c (s.unsentTo c e) s e) s) :=
    List.foldlRecOn (motive := fun u => OnlyBooks s u ∧ CoresCut s u) _ _ ⟨rfl, .of_eq rfl⟩ fun u hu e _ =>
      have he := returnCredit_onlyBooks c (u.unsentTo c e) u e
      ⟨hu.1.trans he.1, hu.2.trans he.2⟩
  exact ⟨hcredits.1.trans rfl, hcredits.2.trans ((CoresCut.of_eq rfl).trans (CoresCut.modCore _ c fun _ => rfl))⟩

/-! ### Windows -/

/-- A fault of a core's unit changes that core's fault CSRs and the log. -/
theorem raiseCore_onlyMovers (s : State) (c : Nat) (code : BitVec 16) (unit : Nat) (detail : BitVec 16) :
    OnlyMovers s (raiseCore s c code unit detail) ∧ CoresCut s (raiseCore s c code unit detail) := by
  have hfault : CoresCut s (setFault s (BitVec.ofNat 6 c).toNat code) := CoresCut.modCore _ _ fun _ => rfl
  exact ⟨rfl, hfault.trans (.of_eq rfl)⟩

/-- A window and its occupancy record change no more than movers do. -/
theorem putWindow_onlyMovers (s : State) (n : Nat) (w : Window) : OnlyMovers s (putWindow s n w) ∧ CoresCut s (putWindow s n w) := by
  unfold putWindow
  dsimp only
  split
  · exact ⟨rfl, .of_eq rfl⟩
  · have hset : OnlyMovers s (s.setWindow n w) ∧ CoresCut s (s.setWindow n w) := ⟨rfl, .of_eq rfl⟩
    exact ⟨hset.1.trans (raiseCore_onlyMovers ..).1, hset.2.trans (raiseCore_onlyMovers ..).2⟩

/-- A window that is settled changes no more than movers do. -/
theorem settleWindow_onlyMovers (s : State) (e : Nat × Window) : OnlyMovers s (settleWindow s e) ∧ CoresCut s (settleWindow s e) := by
  unfold settleWindow
  dsimp only
  split
  · exact ⟨rfl, .of_eq rfl⟩
  · exact putWindow_onlyMovers ..

/-- A cut of a mover changes no more than movers do. -/
theorem cutMover_onlyMovers (s : State) (c : Nat) : OnlyMovers s (cutMover s c) := by
  rw [cutMover_eq]
  exact (moverStopped_onlyBooks s c).1.movers.trans (OnlyMovers.foldl (fun s e => (settleWindow_onlyMovers s e).1) _ _)

/-- A cut of a mover changes cores as its name says. -/
theorem cutMover_coresCut (s : State) (c : Nat) : CoresCut s (cutMover s c) := by
  rw [cutMover_eq]
  exact (moverStopped_onlyBooks s c).2.trans (CoresCut.foldl (fun s e => (settleWindow_onlyMovers s e).2) _ _)

/-- A core that owns no valid window: a cut of its mover changes the books alone. -/
theorem cutMover_onlyBooks {s : State} {c : Nat} (h : ∀ e ∈ s.windows, e.2.valid = true → e.2.owner ≠ c) :
    OnlyBooks s (cutMover s c) := by
  have hstopped := (moverStopped_onlyBooks s c).1
  have hwindows : (moverStopped s c).windows = s.windows := by rw [hstopped]
  have hnone : s.windows.filter (fun e => e.2.valid && e.2.owner == c) = [] :=
    List.filter_eq_nil_iff.mpr fun e he hx => by
      simp only [Bool.and_eq_true, beq_iff_eq] at hx
      exact h e he hx.1 hx.2
  rw [cutMover_eq, hwindows, hnone]
  exact hstopped

/-! ### Core reset and launch (R198, R348 step 1) -/

/-- A core reset changes no more than movers do. -/
theorem coreReset_onlyMovers (s : State) (c : Nat) : OnlyMovers s (coreReset s c) := (cutMover_onlyMovers s c).trans rfl

/-- A core made ready for a launch changes no more than movers do. -/
theorem launchCore_onlyMovers (s : State) (c : Nat) : OnlyMovers s (launchCore s c) := (coreReset_onlyMovers s c).trans rfl

/-- A launched core is STOPPED with empty operand buffers (R348). -/
theorem launchCore_core_same (s : State) (c : Nat) :
    ((launchCore s c).core c).st = .stopped ∧ ((launchCore s c).core c).ob = [] := by
  have hreset : (coreReset s c).core c = ((cutMover s c).core c).reset := State.core_modCore_same ..
  have hcore : ((zeroRange (coreReset s c) (cmBase c) 0x600000).core c) = ((cutMover s c).core c).reset := hreset
  rw [launchCore, State.core_modCore_same, hcore]
  exact ⟨rfl, rfl⟩

/-- The launch of a core changes other cores as a cut does. -/
theorem launchCore_core_other (s : State) {c d : Nat} (h : d ≠ c) : MoverCut (s.core d) ((launchCore s c).core d) := by
  have hreset : (coreReset s c).core d = ((cutMover s c).modCore c Core.reset).core d := rfl
  have hcore : (zeroRange (coreReset s c) (cmBase c) 0x600000).core d = (cutMover s c).core d := by
    rw [State.core_modCore, if_neg h] at hreset
    exact hreset
  rw [launchCore, State.core_modCore, if_neg h, hcore]
  exact cutMover_coresCut s c d

/-- A core reset of a core that owns no valid window leaves windows and memory. -/
theorem coreReset_windowless {s : State} {c : Nat} (h : ∀ e ∈ s.windows, e.2.valid = true → e.2.owner ≠ c) :
    (coreReset s c).windows = s.windows ∧ (coreReset s c).mem = s.mem := by
  have hcut := cutMover_onlyBooks h
  have hbooks : (cutMover s c).windows = s.windows ∧ (cutMover s c).mem = s.mem := by rw [hcut]; exact ⟨rfl, rfl⟩
  exact hbooks

/-- The launch of a core that owns no valid window leaves the windows, and zeroes its core memory alone. -/
theorem launchCore_windowless {s : State} {c : Nat} (h : ∀ e ∈ s.windows, e.2.valid = true → e.2.owner ≠ c) :
    (launchCore s c).windows = s.windows ∧
    ∀ a, (launchCore s c).byteAt a = if cmBase c ≤ a ∧ a < cmBase c + 0x600000 then 0 else s.byteAt a := by
  obtain ⟨hwindows, hmem⟩ := coreReset_windowless h
  unfold launchCore
  generalize coreReset s c = u at hwindows hmem ⊢
  generalize 0x600000 = n
  refine ⟨hwindows, fun a => ?_⟩
  rw [show s.byteAt a = u.byteAt a by rw [State.byteAt, State.byteAt, hmem]]
  exact byteAt_zeroRange u (cmBase c) n a

end Sys2Proof.Machine
end

section
/-!
SUPPORT. PART_CREATE (R333): a command that runs, the counters that it gives, and the partition it leaves.
-/
namespace Sys2Proof.Machine

open Sys2Proof.Stated

/-! ### Commands -/

/-- A command that may run and passes the checks is performed on its payload, and its mailbox is served. -/
theorem live_runCmd_of_Runs {s : State} {mb : Fin 16} {i : BitVec 16} {op : Nat} {l : Layout} {p : List Byte}
    (h : Runs s mb i op l p) (f : State → List Byte → State) :
    live s (fun s => runCmd s mb.val i op (fun _ => l) (f s)) = .next (serve (f s p) mb.val) := by
  obtain ⟨⟨hclocked, hup, hst⟩, hfits, htakes, c, hc, hop, hmay, hhead, hpay⟩ := h
  have hserved : ((s.mailbox mb.val).st == .ready || (s.mailbox mb.val).st == .resetting) = true := by simpa using hst
  rw [live_of_Clocked hclocked, runCmd]
  simp only [hup, hserved, hop, hmay, hhead, hpay, htakes, hfits, Option.mem_def.mp hc, Bool.not_true, Bool.or_self, bne_self_eq_false,
    Bool.false_eq_true, if_false, stOk, BitVec.ofNat_eq_ofNat]

/-- The colour of a payload whose first byte has four assigned bits is below 16. -/
theorem colour_lt_of_fits {l : Layout} {p : List Byte} (h : l.fits p = true) (hm : l.mask 0 = 0x0F) : leField p 0 1 < 16 := by
  cases p with
  | nil => decide
  | cons b p =>
    simp only [Layout.fits, Bool.and_eq_true, List.length_cons, List.range_succ_eq_map, List.zip_cons_cons, List.all_cons, hm, beq_iff_eq] at h
    have hbyte : ∀ b : Byte, b &&& ~~~ (0x0F : Byte) = 0 → leField [b] 0 1 < 16 := by decide
    exact hbyte b h.2.1

/-- The set bits of a mask, as a list. -/
theorem mem_bitsSet {n : Nat} (x : BitVec n) (i : Nat) : i ∈ bitsSet x ↔ i < n ∧ bit x i = true := by
  simp [bitsSet, bit]

/-! ### The counters of a partition -/

/-- The population count of a number is the count of its one bits. -/
theorem popcountTo_eq {n x : Nat} (h : x < 2 ^ n) : popcountTo n x = x.bitIndices.length := by
  induction n generalizing x with
  | zero => simp [popcountTo, show x = 0 by omega]
  | succ n ih =>
    rw [Nat.pow_succ] at h
    rw [popcountTo, ih (by omega)]
    obtain ⟨k, rfl | rfl⟩ := x.even_or_odd'
    · simp
    · rw [Nat.bitIndices_two_mul_add_one, show (2 * k + 1) / 2 = k by omega, show (2 * k + 1) % 2 = 1 by omega]
      simp [Nat.add_comm]

/-- The mask of counters as PART_CREATE gathers it. -/
def maskOf (l : List Nat) : BitVec 128 := BitVec.ofNat 128 (l.foldl (fun n k => n + 2 ^ k) 0)

/-- Of a rising list of numbers below 128, the mask has these bits. -/
theorem bitIndices_maskOf {l : List Nat} (hl : l.SortedLT) (hlt : ∀ k ∈ l, k < 128) : (maskOf l).toNat.bitIndices = l := by
  have hfold : ∀ (l : List Nat) (n : Nat), l.foldl (fun n k => n + 2 ^ k) n = n + (l.map (fun k => 2 ^ k)).sum := by
    intro l
    induction l with
    | nil => simp
    | cons k l ih => intro n; rw [List.foldl_cons, ih, List.map_cons, List.sum_cons, Nat.add_assoc]
  have hbits := Nat.bitIndices_sum_map_two_pow hl
  have hsmall : (l.map (fun k => 2 ^ k)).sum < 2 ^ 128 := by
    refine Nat.lt_pow_two_of_testBit _ fun k hk => ?_
    rw [Bool.eq_false_iff, ne_eq, ← Nat.mem_bitIndices, hbits]
    exact fun hmem => absurd (hlt k hmem) (by omega)
  rw [maskOf, hfold, Nat.zero_add, BitVec.toNat_ofNat, Nat.mod_eq_of_lt hsmall, hbits]

/-- As many counters as asked for, each of them free. -/
theorem maskOf_freeCounters {s : State} {n : Nat} (hn : n ≤ s.freeCounters.length) :
    popcount (maskOf (s.freeCounters.take n)) = n ∧ ∀ x, bit (maskOf (s.freeCounters.take n)) x = true → s.counterOwner x = 0 := by
  have hsub : (s.freeCounters.take n).Sublist (List.range 128) := (List.take_sublist _ _).trans List.filter_sublist
  have hbits := bitIndices_maskOf (List.pairwise_lt_range.sublist hsub).sortedLT fun k hk => List.mem_range.mp (hsub.subset hk)
  constructor
  · rw [popcount, popcountTo_eq (BitVec.isLt _), hbits, List.length_take, Nat.min_eq_left hn]
  · intro x hx
    have hmem : x ∈ s.freeCounters.take n := by
      rw [← hbits, Nat.mem_bitIndices]
      exact hx
    have hfree := List.mem_of_mem_take hmem
    simp only [State.freeCounters, List.mem_filter, beq_iff_eq] at hfree
    exact hfree.2

/-! ### The cores of a partition -/

/-- Cores launched one after another for a colour. -/
def launchFor (col : Nat) (s : State) (c : Nat) : State := (launchCore s c).modCore c (fun k => { k with colour := BitVec.ofNat 4 col })

/-- A core given a colour is only a core changed. -/
theorem launchFor_frame (col : Nat) (s : State) (c : Nat) :
    launchFor col s c = { launchCore s c with cores := (launchFor col s c).cores } := by
  unfold launchFor
  generalize launchCore s c = u
  rfl

/-- Cores launched change no more than movers do. -/
theorem launchFor_onlyMovers (col : Nat) (l : List Nat) (s : State) : OnlyMovers s (l.foldl (launchFor col) s) := by
  refine OnlyMovers.foldl (fun s c => (launchCore_onlyMovers s c).trans ?_) l s
  rw [launchFor_frame]
  generalize launchCore s c = u
  rfl

/-- Launched cores carry the colour, STOPPED, with empty operand buffers. -/
theorem launchFor_cores (col : Nat) (l : List Nat) (s : State) : ∀ c ∈ l,
    ((l.foldl (launchFor col) s).core c).colour = BitVec.ofNat 4 col ∧ ((l.foldl (launchFor col) s).core c).st = .stopped ∧
    ((l.foldl (launchFor col) s).core c).ob = [] := by
  induction l using List.reverseRecOn with
  | nil => exact fun c hc => absurd hc List.not_mem_nil
  | append_singleton l d ih =>
    intro c hc
    rw [List.foldl_append, List.foldl_cons, List.foldl_nil, launchFor, State.core_modCore]
    by_cases hcd : c = d
    · rw [if_pos hcd]
      exact ⟨rfl, launchCore_core_same _ d⟩
    · have hmem : c ∈ l := by simpa [hcd] using hc
      have hcut := launchCore_core_other (l.foldl (launchFor col) s) hcd
      rw [if_neg hcd, hcut]
      exact ih c hmem

/-- Launched cores that own no valid window have zeroed core memory. -/
theorem launchFor_memory (col : Nat) (l : List Nat) {s : State} (h : ∀ e ∈ s.windows, e.2.valid = true → e.2.owner ∉ l) :
    (l.foldl (launchFor col) s).windows = s.windows ∧
    ∀ c ∈ l, ∀ a : Nat, cmBase c ≤ a → a < cmBase c + 0x600000 → (l.foldl (launchFor col) s).byteAt a = 0 := by
  induction l using List.reverseRecOn with
  | nil => exact ⟨rfl, fun c hc => absurd hc List.not_mem_nil⟩
  | append_singleton l d ih =>
    simp only [List.mem_append, List.mem_singleton, not_or] at h ⊢
    obtain ⟨hwindows, hzero⟩ := ih fun e he hv => (h e he hv).1
    rw [List.foldl_append, List.foldl_cons, List.foldl_nil]
    generalize l.foldl (launchFor col) s = u at hwindows hzero
    obtain ⟨hkeep, hbytes⟩ := launchCore_windowless (s := u) (c := d) fun e he hv => (h e (hwindows ▸ he) hv).2
    rw [launchFor_frame]
    generalize launchCore u d = v at hkeep hbytes ⊢
    refine ⟨hkeep.trans hwindows, fun c hc a hlo hhi => (hbytes a).trans ?_⟩
    split
    · rfl
    · next hout =>
      refine hzero c (hc.resolve_right fun hcd => ?_) a hlo hhi
      rw [hcd] at hlo hhi
      exact hout ⟨hlo, hhi⟩

/-! ### The partition -/

/-- A new partition, with a table of its base regions alone where no request queue is of its colour (R333). -/
theorem regionTable_fresh {s : State} {col : Nat} {p : Partn} (hp : p.present = true) (hi : p.images = []) (hj : p.job.live = false)
    (hq : ∀ e ∈ s.queues, e.2.colour.toNat ≠ col) : regionTable s col p = p.baseRegions := by
  have hqueues : ∀ t : List Region, s.queues.foldl (fun t (e : Nat × ReqQueue) =>
      if e.2.used && e.2.colour.toNat == col then installBytes t e.2.base e.2.bytes attrsOwn else t) t = t := by
    intro t
    refine List.foldlRecOn (motive := fun u => u = t) _ _ rfl fun u hu e he => ?_
    rw [if_neg (by simp [hq e he])]
    exact hu
  simp only [regionTable, hp, hi, hj, hqueues, Bool.not_true, Bool.false_eq_true, if_false, List.filter_nil, List.foldl_nil]

/-- The record of a partition as it comes into being. -/
def newPartn (cores : BitVec 48) (granules counters : List Nat) (first count : Nat) : Partn :=
  { present := true, cores := cores, granules := granules, counters := maskOf counters, bookFirst := first, bookCount := count }

/-- PART_CREATE launches the cores, then writes the record, the region table and the mailbox. -/
theorem createPart_eq (s : State) (col : Nat) (cores : BitVec 48) (granules counters : List Nat) (first count : Nat) :
    createPart s col cores granules counters first count =
      let u := (bitsSet cores).foldl (launchFor col) s
      let v := rebuildRegions (u.setPart col (newPartn cores granules counters first count)) col
      v.setMailbox col (freshMailbox v col) := rfl

/-- What PART_CREATE leaves of the records: the partition, its regions and its mailbox. -/
theorem createPart_records (s : State) (col : Nat) (cores : BitVec 48) (granules counters : List Nat) (first count : Nat) :
    let t := createPart s col cores granules counters first count
    t.part col = newPartn cores granules counters first count ∧
    ((∀ e ∈ s.queues, e.2.colour.toNat ≠ col) → t.regionsOf col = (newPartn cores granules counters first count).baseRegions) ∧
    t.mailbox col = { st := .ready, info := mbInfo col, mbEpoch := s.skovi.mbEpoch } := by
  have hmovers := launchFor_onlyMovers col (bitsSet cores) s
  rw [createPart_eq]
  dsimp only
  generalize (bitsSet cores).foldl (launchFor col) s = u at hmovers ⊢
  have hpart : (u.setPart col (newPartn cores granules counters first count)).part col = newPartn cores granules counters first count :=
    State.part_setPart_same ..
  have hregions := fun hq => regionTable_fresh (s := u.setPart col (newPartn cores granules counters first count)) (col := col)
    (p := newPartn cores granules counters first count) rfl rfl rfl hq
  generalize newPartn cores granules counters first count = q at hpart hregions ⊢
  refine ⟨hpart, fun hq => ?_, ?_⟩
  · refine (Table.get_set_same ..).trans ?_
    rw [hpart]
    have hqueues : u.queues = s.queues := by rw [hmovers]
    exact hregions fun e he => hq e (hqueues ▸ he)
  · have hskovi : u.skovi = s.skovi := by rw [hmovers]
    rw [State.mailbox_setMailbox_same, ← hskovi]
    rfl

/-- What PART_CREATE leaves of the cores and their memory. -/
theorem createPart_cores (s : State) {col : Nat} (hcol : col < 16) (cores : BitVec 48) (granules counters : List Nat) (first count : Nat) :
    let t := createPart s col cores granules counters first count
    ∀ c ∈ bitsSet cores, (t.core c).colour.toNat = col ∧ (t.core c).st = .stopped ∧ (t.core c).ob = [] ∧
      ((∀ e ∈ s.windows, e.2.valid = true → bit cores e.2.owner = false) →
        ∀ a : Nat, cmBase c ≤ a → a < cmBase c + 0x600000 → t.byteAt a = 0) := by
  dsimp only
  intro c hc
  have hcores := launchFor_cores col (bitsSet cores) s c hc
  have hmemory := fun h => (launchFor_memory col (bitsSet cores) (s := s) h).2 c hc
  rw [createPart_eq]
  generalize (bitsSet cores).foldl (launchFor col) s = u at hcores hmemory
  obtain ⟨hcolour, hst, hob⟩ := hcores
  refine ⟨?_, hst, hob, fun hfree => hmemory fun e he hv hmem => ?_⟩
  · exact (congrArg BitVec.toNat hcolour).trans (Nat.mod_eq_of_lt hcol)
  · rw [mem_bitsSet, hfree e he hv] at hmem
    exact absurd hmem.2 (by decide)

/-! ### The command -/

/-- What the cores and granules of a PART_CREATE must be: owned by nobody, and on. -/
def Unowned (s : State) (cores : BitVec 48) (granules : List Nat) : Prop :=
  (∀ c ∈ bitsSet cores, s.ownerOf c = 0 ∧ (s.core c).on = true) ∧
  ∀ g ∈ granules, s.granuleOwned g = false ∧ bit s.mem.layersOn (g / 24) = true

/-- The test that a core or granule is taken. -/
theorem taken_iff (s : State) (cores : BitVec 48) (granules : List Nat) :
    ((bitsSet cores).any (fun c => s.ownerOf c != 0 || !(s.core c).on) ||
      granules.any (fun g => s.granuleOwned g || !bit s.mem.layersOn (granuleLayer g))) = true ↔ ¬ Unowned s cores granules := by
  rw [← Bool.not_eq_false, not_iff_not]
  simp only [Unowned, granuleLayer, Bool.or_eq_false_iff, List.any_eq_false, Bool.or_eq_true, bne_iff_ne, Bool.not_eq_true', not_or,
    not_not, Bool.not_eq_false, Bool.not_eq_true, ne_eq]

/-- What PART_CREATE does with a payload, as its checks come. -/
def partCreated (s : State) (mb : Nat) (i : BitVec 16) (p : List Byte) : State :=
  let col := leField p 0 1
  let cores : BitVec 48 := BitVec.ofNat 48 (leField p 8 6)
  let granules := bitsOf (leField p 16 36) 288
  let n := leField p 52 1
  let k := leField p 53 1
  if col = 0 || 128 < n || 224 < k then answer s mb i stBadField []
  else if (s.part col).present then answer s mb i stExists []
  else if (bitsSet cores).any (fun c => s.ownerOf c != 0 || !(s.core c).on) ||
      granules.any (fun g => s.granuleOwned g || !bit s.mem.layersOn (granuleLayer g)) then answer s mb i stInUse []
  else
    match s.freeRun k with
    | none => answer s mb i stNospace []
    | some first =>
      if s.freeCounters.length < n || 64 < (Partn.baseRegions { cores := cores, granules := granules }).length then answer s mb i stNospace []
      else
        let s := createPart s col cores granules (s.freeCounters.take n) first k
        answer s mb i stOk (leBytes 16 (s.part col).counters.toNat ++ [b8 first])

/-- PART_CREATE that runs. -/
theorem exec_partCreate {s : State} {mb : Fin 16} {i : BitVec 16} {p : List Byte}
    (h : Runs s mb i 0x60 [(0, 1, 0x0F), (8, 6, 0xFF), (16, 38, 0xFF)] p) :
    exec (.partCreate mb i) s = .next (serve (partCreated s mb.val i p) mb.val) := by
  rw [show exec (.partCreate mb i) s = execPartCreate mb i s from rfl, execPartCreate]
  exact live_runCmd_of_Runs h fun s p => partCreated s mb.val i p

end Sys2Proof.Machine
end

section
/-!
SUPPORT. PART_CREATE by its checks (R333), and the reset of a partition begun (R290, R294): what stops, what stays, what its mailbox
shows.
-/
namespace Sys2Proof.Machine

open Sys2Proof.Stated

/-! ### The checks of PART_CREATE, in order -/

section
variable {s : State} {mb : Nat} {i : BitVec 16} {p : List Byte}

/-- A field out of range. -/
theorem partCreated_badField (h : leField p 0 1 = 0 ∨ 128 < leField p 52 1 ∨ 224 < leField p 53 1) :
    partCreated s mb i p = answer s mb i 0x0101 [] := by
  unfold partCreated
  exact if_pos (by simpa [or_assoc] using h)

variable (hcol : leField p 0 1 ≠ 0) (hn : leField p 52 1 ≤ 128) (hk : leField p 53 1 ≤ 224)
include hcol hn hk

/-- A colour that has a partition. -/
theorem partCreated_exists (h : (s.part (leField p 0 1)).present = true) : partCreated s mb i p = answer s mb i 0x0203 [] := by
  unfold partCreated
  refine (if_neg ?_).trans (if_pos h)
  simp [hcol, hn, hk]

variable (hnew : (s.part (leField p 0 1)).present = false)
include hnew

/-- A core or granule that is taken. -/
theorem partCreated_inUse (h : ¬ Unowned s (BitVec.ofNat 48 (leField p 8 6)) (bitsOf (leField p 16 36) 288)) :
    partCreated s mb i p = answer s mb i 0x0202 [] := by
  unfold partCreated
  refine (if_neg ?_).trans ((if_neg ?_).trans (if_pos ((taken_iff ..).mpr h)))
  · simp [hcol, hn, hk]
  · simp [hnew]

variable (hfree : Unowned s (BitVec.ofNat 48 (leField p 8 6)) (bitsOf (leField p 16 36) 288))
include hfree

/-- Of free cores and granules it is the bookings, counters and regions that decide. -/
theorem partCreated_free : partCreated s mb i p =
    match s.freeRun (leField p 53 1) with
    | none => answer s mb i 0x0201 []
    | some first =>
      if s.freeCounters.length < leField p 52 1 ||
        64 < (Partn.baseRegions { cores := BitVec.ofNat 48 (leField p 8 6), granules := bitsOf (leField p 16 36) 288 }).length
      then answer s mb i 0x0201 []
      else
        let t := createPart s (leField p 0 1) (BitVec.ofNat 48 (leField p 8 6)) (bitsOf (leField p 16 36) 288)
          (s.freeCounters.take (leField p 52 1)) first (leField p 53 1)
        answer t mb i 0 (leBytes 16 (t.part (leField p 0 1)).counters.toNat ++ [BitVec.ofNat 8 first]) := by
  unfold partCreated
  refine (if_neg ?_).trans ((if_neg ?_).trans ((if_neg fun h => (taken_iff ..).mp h hfree).trans ?_))
  · simp [hcol, hn, hk]
  · simp [hnew]
  · rfl

/-- Too few bookings, counters or regions. -/
theorem partCreated_noSpace (h : s.freeRun (leField p 53 1) = none ∨ s.freeCounters.length < leField p 52 1 ∨
    64 < (Partn.baseRegions { cores := BitVec.ofNat 48 (leField p 8 6), granules := bitsOf (leField p 16 36) 288 }).length) :
    partCreated s mb i p = answer s mb i 0x0201 [] := by
  rw [partCreated_free hcol hn hk hnew hfree]
  cases hrun : s.freeRun (leField p 53 1) with
  | none => rfl
  | some first =>
    simp only [hrun, reduceCtorEq, false_or] at h
    exact if_pos (by simpa using h)

/-- A partition that is created. -/
theorem partCreated_done {first : Nat} (hrun : s.freeRun (leField p 53 1) = some first) (hcount : leField p 52 1 ≤ s.freeCounters.length)
    (hroom : ¬ 64 < (Partn.baseRegions { cores := BitVec.ofNat 48 (leField p 8 6), granules := bitsOf (leField p 16 36) 288 }).length) :
    partCreated s mb i p =
      let t := createPart s (leField p 0 1) (BitVec.ofNat 48 (leField p 8 6)) (bitsOf (leField p 16 36) 288)
        (s.freeCounters.take (leField p 52 1)) first (leField p 53 1)
      answer t mb i 0 (leBytes 16 (t.part (leField p 0 1)).counters.toNat ++ [BitVec.ofNat 8 first]) := by
  rw [partCreated_free hcol hn hk hnew hfree, hrun]
  exact if_neg (by simpa using ⟨hcount, not_lt.mp hroom⟩)

end

/-! ### Cores that a reset stops (R290 steps 1 to 4) -/

/-- A core changed is one of the things movers change. -/
theorem modCore_onlyMovers (s : State) (c : Nat) (f : Core → Core) : OnlyMovers s (s.modCore c f) := rfl

/-- The bits of a mask are listed once. -/
theorem bitsSet_nodup {n : Nat} (x : BitVec n) : (bitsSet x).Nodup := List.nodup_range.filter _

/-- The cores of a colour's partition stopped. -/
def stopCores (s : State) (col : Nat) : State := (bitsSet (s.part col).cores).foldl (fun s c => s.modCore c Core.stopIssue) s

/-- One mover cut; its entries stay until what is outstanding has settled. -/
def cutForReset (s : State) (c : Nat) : State := clearSettled ((cutMover s c).modCore c Core.keepSettling) c

/-- A mover cut for a reset changes no more than movers do. -/
theorem cutForReset_onlyMovers (s : State) (c : Nat) : OnlyMovers s (cutForReset s c) ∧ CoresCut s (cutForReset s c) := by
  have hkeep : OnlyMovers s ((cutMover s c).modCore c Core.keepSettling) ∧ CoresCut s ((cutMover s c).modCore c Core.keepSettling) :=
    ⟨(cutMover_onlyMovers s c).trans rfl, (cutMover_coresCut s c).trans (CoresCut.modCore _ c fun _ => rfl)⟩
  unfold cutForReset clearSettled
  split
  · exact hkeep
  · exact ⟨hkeep.1.trans rfl, hkeep.2.trans (CoresCut.modCore _ c fun _ => rfl)⟩

/-- The die with a colour's cores stopped and their movers cut. -/
def stoppedPart (s : State) (col : Nat) : State := (bitsSet (s.part col).cores).foldl cutForReset (stopCores s col)

/-- Stopped cores change no more than movers do; each is as its issue stopped, but for what a cut changes. -/
theorem stoppedPart_onlyMovers (s : State) (col : Nat) : OnlyMovers s (stoppedPart s col) ∧
    ∀ c ∈ bitsSet (s.part col).cores, MoverCut (s.core c).stopIssue ((stoppedPart s col).core c) := by
  have hstop : OnlyMovers s (stopCores s col) := OnlyMovers.foldl (fun s c => modCore_onlyMovers s c _) _ _
  refine ⟨hstop.trans (OnlyMovers.foldl (fun s c => (cutForReset_onlyMovers s c).1) _ _), fun c hc => ?_⟩
  have hcut : CoresCut (stopCores s col) (stoppedPart s col) := CoresCut.foldl (fun s c => (cutForReset_onlyMovers s c).2) _ _
  have hcore : (stopCores s col).core c = (s.core c).stopIssue := by
    rw [stopCores, core_foldl_modCore (bitsSet_nodup _), if_pos hc]
  exact hcore ▸ hcut c

/-! ### Windows and counters -/

/-- No window of a colour is left once they are uninstalled. -/
theorem uninstallWindows_windows (s : State) (col : Nat) : ∀ e ∈ (uninstallWindows s col).windows, e.2.colour.toNat ≠ col := by
  intro e he hcol
  obtain ⟨hmem, hkept⟩ := List.mem_filter.mp he
  simp only [Bool.not_eq_true', List.contains_eq_mem, decide_eq_false_iff_not, List.mem_map, List.mem_filter, beq_iff_eq] at hkept
  exact hkept ⟨e, ⟨hmem, hcol⟩, rfl⟩

/-- What an update leaves at each listed key holds there. -/
theorem Table.update_holds {α : Type} [DecidableEq α] (d : α) {f : Nat → α → α} {P : α → Prop} (hf : ∀ i v, P (f i v)) (js : List Nat)
    (t : Table α) {i : Nat} (hi : i ∈ js) : P (Table.get d (Table.update d f js t) i) := by
  induction js generalizing t with
  | nil => exact absurd hi List.not_mem_nil
  | cons j js ih =>
    rw [Table.update]
    by_cases htail : i ∈ js
    · exact ih _ htail
    · obtain rfl : i = j := (List.mem_cons.mp hi).resolve_right htail
      rw [Table.get_update_other _ _ _ _ _ htail, Table.get_set_same]
      exact hf _ _

/-- A key that a table does not have reads the default. -/
theorem Table.get_of_notMem {α : Type} (d : α) {t : Table α} {i : Nat} (h : i ∉ t.map (fun e => e.1)) : Table.get d t i = d := by
  induction t with
  | nil => rfl
  | cons e t ih =>
    simp only [List.map_cons, List.mem_cons, not_or] at h
    rw [Table.get, if_neg h.1, ih h.2]

/-- Every counter of a colour has lost VALID. -/
theorem invalidateCounters_counter (s : State) (col : Nat) (x : Nat) (h : ((invalidateCounters s col).counter x).colour.toNat = col) :
    ((invalidateCounters s col).counter x).valid = false := by
  revert h
  by_cases hx : x ∈ s.counters.map (fun (e : Nat × Counter) => e.1)
  · refine Table.update_holds ({} : Counter) (P := fun y => y.colour.toNat = col → y.valid = false) (fun _ y => ?_) _ _ hx
    split
    · exact fun _ => rfl
    · next hne => exact fun h => absurd (beq_iff_eq.mpr h) hne
  · have hget : (invalidateCounters s col).counter x = Table.get {} s.counters x := Table.get_update_other _ _ _ _ _ hx
    rw [hget, Table.get_of_notMem _ hx]
    exact fun _ => rfl

/-! ### A reset begins -/

/-- What a reset that begins makes of the partition's record. -/
def Partn.inReset (p : Partn) (reason : Byte) : Partn :=
  { p with repair := none, resetting := true, resetReason := reason, resetJob := p.job.live }

/-- A reset of a colour that is in none: cores stopped, windows, counters and bookings gone, the record in reset. -/
theorem beginReset_eq {s : State} {col : Nat} (h : (s.part col).resetting = false) (reason : Byte) :
    beginReset s col reason =
      (dropRepair (disarmDie (invalidateCounters (uninstallWindows (stoppedPart s col) col) col) (fun _ b => b.colour.toNat == col)) col).modPart
        col (fun p => { p with resetting := true, resetReason := reason, resetJob := p.job.live }) := by
  rw [beginReset, if_neg (by simp [h])]
  rfl

section
variable (s : State) (col d : Nat)

/-- Windows uninstalled leave the cores. -/
theorem core_uninstallWindows : (uninstallWindows s col).core d = s.core d := rfl

/-- Counters that lose VALID leave the cores. -/
theorem core_invalidateCounters : (invalidateCounters s col).core d = s.core d := rfl

/-- Die bookings disarmed leave the cores. -/
theorem core_disarmDie (sel : Nat → Booking → Bool) : (disarmDie s sel).core d = s.core d := rfl

/-- A repair dropped leaves the cores. -/
theorem core_dropRepair : (dropRepair s col).core d = s.core d := rfl

end

/-- What a reset that begins leaves. -/
theorem beginReset_leaves {s : State} {col : Nat} (h : (s.part col).resetting = false) (reason : Byte) :
    let t := beginReset s col reason
    t.part col = (s.part col).inReset reason ∧
    (∀ c ∈ bitsSet (s.part col).cores, MoverCut (s.core c).stopIssue (t.core c)) ∧
    (∀ e ∈ t.windows, e.2.colour.toNat ≠ col) ∧ ∀ x : Nat, (t.counter x).colour.toNat = col → (t.counter x).valid = false := by
  obtain ⟨hmovers, hcores⟩ := stoppedPart_onlyMovers s col
  have hpart : (stoppedPart s col).part col = s.part col := by rw [hmovers]; rfl
  rw [beginReset_eq h]
  generalize stoppedPart s col = u at hcores hpart ⊢
  refine ⟨?_, fun c hc => ?_, uninstallWindows_windows u col, invalidateCounters_counter (uninstallWindows u col) col⟩
  · have hdrop : ∀ (v : State) (sel : Purpose → Bool) (d : Nat), (dropTransfers v sel).part d = v.part d := fun _ _ _ => rfl
    have hbefore : (disarmDie (invalidateCounters (uninstallWindows u col) col) (fun _ b => b.colour.toNat == col)).part col = u.part col := rfl
    rw [State.part_modPart_same, dropRepair, hdrop, State.part_modPart_same, hbefore, hpart]
    rfl
  · rw [State.core_modPart, core_dropRepair, core_disarmDie, core_invalidateCounters, core_uninstallWindows]
    exact hcores c hc

/-! ### Commands that wait and commands that are cut (R294) -/

/-- A command that waits for a reset leaves all but its mailbox and the record's list of waiting commands. -/
theorem waitReset_leaves (s : State) (mb : Nat) (i : BitVec 16) (col : Nat) (st : BitVec 16) :
    let t := waitReset s mb i col st
    t = { s with mailboxes := t.mailboxes, parts := t.parts } ∧
    t.part col = { s.part col with resetBy := (s.part col).resetBy ++ [(BitVec.ofNat 4 mb, i, st)] } :=
  ⟨rfl, State.part_modPart_same ..⟩

/-- From s to t only mailboxes, firmware's state and the images of partitions change. -/
def OnlyCommands (s t : State) : Prop :=
  t = { s with mailboxes := t.mailboxes, skovi := t.skovi, parts := t.parts } ∧
  ∀ d : Nat, t.part d = { s.part d with images := (t.part d).images }

/-- Nothing changed but mailboxes and firmware's state. -/
theorem OnlyCommands.of_eq {s t : State} (h : t = { s with mailboxes := t.mailboxes, skovi := t.skovi }) : OnlyCommands s t := by
  have hparts : t.parts = s.parts := by rw [h]
  refine ⟨h.trans (by rw [hparts]), fun d => ?_⟩
  rw [State.part, State.part, hparts]

/-- Two such changes in a row are one. -/
theorem OnlyCommands.trans {s t u : State} (h : OnlyCommands s t) (h' : OnlyCommands t u) : OnlyCommands s u := by
  obtain ⟨hstate, hparts⟩ := h
  obtain ⟨hstate', hparts'⟩ := h'
  refine ⟨?_, fun d => ?_⟩
  · rw [hstate', hstate]
  · rw [hparts' d, hparts d]

/-- A response changes its mailbox, and what firmware has touched. -/
theorem answer_onlyCommands (s : State) (mb : Nat) (i st : BitVec 16) (b : List Byte) : OnlyCommands s (answer s mb i st b) := by
  refine OnlyCommands.of_eq ?_
  unfold answer touchCmd
  split
  · split <;> rfl
  · rfl

/-- A mailbox changed. -/
theorem modMailbox_onlyCommands (s : State) (mb : Nat) (f : Mailbox → Mailbox) : OnlyCommands s (s.modMailbox mb f) := .of_eq rfl

/-- An image back in STAGING. -/
theorem unstage_onlyCommands (s : State) (mb : Nat) (c : Cmd) : OnlyCommands s (unstage s mb c) := by
  unfold unstage
  split
  · exact .of_eq rfl
  · refine ⟨rfl, fun d => ?_⟩
    rw [State.part_modPart]
    split
    · next h => rw [h]
    · rfl

/-- A command that is cut. -/
theorem cutCommand_onlyCommands (col : Nat) (s : State) (c : Cmd) : OnlyCommands s (cutCommand col s c) := by
  have hdrop : OnlyCommands s (dropTransfers (unstage s col c) (fun w => w == .cmd col c.idx)) :=
    (unstage_onlyCommands s col c).trans (.of_eq rfl)
  exact (hdrop.trans (modMailbox_onlyCommands ..)).trans (answer_onlyCommands ..)

/-- The commands that a reset cuts. -/
theorem cutCommands_onlyCommands (s : State) (col : Nat) : OnlyCommands s (cutCommands s col) := by
  have hfold : ∀ l : List Cmd, OnlyCommands s (l.foldl (cutCommand col) s) := fun l =>
    List.foldlRecOn (motive := OnlyCommands s) l _ (.of_eq rfl) fun _ hu c _ => hu.trans (cutCommand_onlyCommands col _ c)
  unfold cutCommands
  exact (hfold _).trans (modMailbox_onlyCommands _ _ _)

/-- A mailbox that has had its turn. -/
theorem serve_onlyCommands (s : State) (mb : Nat) : OnlyCommands s (serve s mb) := by
  refine OnlyCommands.of_eq ?_
  unfold serve
  split <;> rfl

end Sys2Proof.Machine
end

section
/-!
SUPPORT. The end of a partition reset (R290 to R293) and a partition destroyed (R334): what they leave, whatever becomes of the job.
-/
namespace Sys2Proof.Machine

open Sys2Proof.Stated

/-! ### What the end of a job or its restart keeps -/

/-- From s to t the mailboxes stay, every WITHDRAW stays queued, and no partition enters or leaves reset. -/
structure KeepsReset (s t : State) : Prop where
  mailboxes : t.mailboxes = s.mailboxes
  withdraws : ∀ m ∈ s.intrs, m.withdraw = true → m ∈ t.intrs
  resetting : ∀ d : Nat, (t.part d).resetting = (s.part d).resetting

namespace KeepsReset

/-- Nothing of it changed. -/
theorem of_eq {s t : State} (hm : t.mailboxes = s.mailboxes) (hi : t.intrs = s.intrs) (hp : t.parts = s.parts) : KeepsReset s t :=
  ⟨hm, fun m h _ => hi ▸ h, fun d => by rw [State.part, State.part, hp]⟩

/-- Two such changes in a row are one. -/
theorem trans {s t u : State} (h : KeepsReset s t) (h' : KeepsReset t u) : KeepsReset s u :=
  ⟨h'.mailboxes.trans h.mailboxes, fun m hm hw => h'.withdraws m (h.withdraws m hm hw) hw,
    fun d => (h'.resetting d).trans (h.resetting d)⟩

/-- Changes in a row. -/
theorem foldl {α : Type} {f : State → α → State} (hf : ∀ s x, KeepsReset s (f s x)) (l : List α) (s : State) :
    KeepsReset s (l.foldl f s) :=
  List.foldlRecOn (motive := KeepsReset s) l f (.of_eq rfl rfl rfl) fun _ hu x _ => hu.trans (hf _ x)

/-- What movers change. -/
theorem of_onlyMovers {s t : State} (h : OnlyMovers s t) : KeepsReset s t := by
  unfold OnlyMovers at h
  exact .of_eq (by rw [h]) (by rw [h]) (by rw [h])

/-- What bookings that firmware writes change. -/
theorem of_onlyBookings {s t : State} (h : OnlyBookings s t) : KeepsReset s t := by
  unfold OnlyBookings at h
  exact .of_eq (by rw [h]) (by rw [h]) (by rw [h])

/-- A core changed. -/
theorem modCore (s : State) (c : Nat) (f : Core → Core) : KeepsReset s (s.modCore c f) := .of_eq rfl rfl rfl

/-- A counter replaced. -/
theorem setCounter (s : State) (n : Nat) (x : Counter) : KeepsReset s (s.setCounter n x) := .of_eq rfl rfl rfl

/-- A partition's record replaced by one that is in reset if it was. -/
theorem setPart (s : State) (col : Nat) {x : Partn} (h : x.resetting = (s.part col).resetting) : KeepsReset s (s.setPart col x) := by
  refine ⟨rfl, fun m hm _ => hm, fun d => ?_⟩
  rw [State.part_setPart]
  split
  · next hd => rw [hd, h]
  · rfl

/-- A partition's record changed. -/
theorem modPart (s : State) (col : Nat) {f : Partn → Partn} (hf : ∀ p, (f p).resetting = p.resetting) : KeepsReset s (s.modPart col f) :=
  setPart s col (hf _)

end KeepsReset

/-! ### Events (R285, R286) -/

/-- What a replacement does not hit stays in the list. -/
theorem mem_mapFirst_of_not {α : Type} {p : α → Bool} {f : α → α} {l : List α} {x : α} (hx : x ∈ l) (h : p x = false) :
    x ∈ mapFirst p f l := by
  induction l with
  | nil => exact hx
  | cons y l ih =>
    rw [mapFirst]
    rcases List.mem_cons.mp hx with rfl | hx
    · simp [h]
    · split
      · exact List.mem_cons_of_mem _ hx
      · exact List.mem_cons_of_mem _ (ih hx)

/-- A message that a vector forms. -/
theorem formIntr_keepsReset (s : State) (colour v : Nat) : KeepsReset s (formIntr s colour v) := by
  unfold formIntr
  dsimp only
  split
  · exact .of_eq rfl rfl rfl
  · exact ⟨rfl, fun m hm _ => List.mem_append_left _ hm, (KeepsReset.setPart s colour (by rfl)).resetting⟩

/-- An event of a vector. -/
theorem vecEvent_keepsReset (colour : Nat) (s : State) (v : Nat) : KeepsReset s (vecEvent colour s v) := by
  unfold vecEvent
  dsimp only
  split
  · exact ⟨rfl, fun m hm hw => mem_mapFirst_of_not hm (by simp [hw]), fun _ => rfl⟩
  · split
    · exact .setPart s colour (by rfl)
    · exact (KeepsReset.setPart s colour (by rfl)).trans (formIntr_keepsReset _ _ _)

/-- An EVENT of firmware. -/
theorem fwEvent_keepsReset (s : State) (colour : Nat) (ev : Byte) : KeepsReset s (fwEvent s colour ev) := by
  unfold fwEvent
  split
  · exact .of_eq rfl rfl rfl
  · exact .foldl (vecEvent_keepsReset colour) _ _

/-! ### A job that ends or starts again (R348, R349) -/

/-- A counter reinitialised. -/
theorem reinitCounter_keepsReset (s : State) (n : Nat) : KeepsReset s (reinitCounter s n) := by
  unfold reinitCounter
  exact (KeepsReset.setCounter s n _).trans (.foldl (fun s c => .modCore s c _) _ _)

/-- A region table rebuilt. -/
theorem rebuildRegions_keepsReset (s : State) (col : Nat) : KeepsReset s (rebuildRegions s col) := .of_eq rfl rfl rfl

/-- A repair dropped. -/
theorem dropRepair_keepsReset (s : State) (col : Nat) : KeepsReset s (dropRepair s col) := by
  have hdrop : ∀ u sel, KeepsReset u (dropTransfers u sel) := fun _ _ => .of_eq rfl rfl rfl
  exact (KeepsReset.modPart s col fun _ => by rfl).trans (hdrop _ _)

/-- Credits that a core returns. -/
theorem returnHeld_keepsReset (s : State) (c : Nat) : KeepsReset s (returnHeld s c) :=
  .foldl (fun s e => .of_onlyMovers (returnCredit_onlyBooks c 0 s e).1.movers) _ _

/-- The end of a job. -/
theorem endJob_keepsReset (s : State) (col : Nat) (st : JobState) (reason : Byte) : KeepsReset s (endJob s col st reason) := by
  unfold endJob
  split
  · exact .of_eq rfl rfl rfl
  · have hrecords : KeepsReset s (takeRecords s col) := .of_eq rfl rfl rfl
    have hcores : ∀ u c, KeepsReset u (returnHeld (u.modCore c Core.disarm) c) := fun u c =>
      (KeepsReset.modCore u c _).trans (returnHeld_keepsReset _ c)
    have hdie : ∀ u sel, KeepsReset u (disarmDie u sel) := fun _ _ => .of_eq rfl rfl rfl
    exact (hrecords.trans (dropRepair_keepsReset _ col)).trans ((KeepsReset.foldl hcores _ _).trans ((hdie _ _).trans
      ((KeepsReset.foldl reinitCounter_keepsReset _ _).trans ((KeepsReset.modPart _ col fun _ => by rfl).trans
        ((rebuildRegions_keepsReset _ col).trans (fwEvent_keepsReset _ col 1))))))

/-- A firmware request. -/
theorem fwRequest_keepsReset (s : State) (die : BitVec 6) (mtype : Byte) (colour : BitVec 4) (job : BitVec 32) (body : List Byte) :
    KeepsReset s (fwRequest s die mtype colour job body) := .of_eq rfl rfl rfl

/-- A JOB_EVENT to the other dies. -/
theorem jobEventAll_keepsReset (s : State) (col : Nat) (ev reason : Byte) (code : BitVec 16) (step : BitVec 32) :
    KeepsReset s (jobEventAll s col ev reason code step) := by
  unfold jobEventAll
  refine KeepsReset.foldl (fun u d => ?_) _ _
  split
  · exact .of_eq rfl rfl rfl
  · exact fwRequest_keepsReset ..

/-- A directory written. -/
theorem writeDirectory_keepsReset (s : State) (g : Image) : KeepsReset s (writeDirectory s g) := by
  unfold writeDirectory
  split <;> exact .of_eq rfl rfl rfl

/-- A declared window installed. -/
theorem installWindow_keepsReset (col : Nat) (s : State) (w : DeclWindow) : KeepsReset s (installWindow col s w) := by
  unfold installWindow
  refine KeepsReset.trans ?_ (.of_onlyMovers (putWindow_onlyMovers _ _ _).1)
  exact .of_eq rfl rfl rfl

/-- A declared counter installed. -/
theorem installCounter_keepsReset (col : Nat) (s : State) (d : DeclCounter) : KeepsReset s (installCounter col s d) := by
  unfold installCounter
  exact (KeepsReset.setCounter s _ _).trans (reinitCounter_keepsReset _ _)

/-- A declared booking armed. -/
theorem installBooking_keepsReset (col : Nat) (s : State) (d : DeclBooking) : KeepsReset s (installBooking col s d) := by
  unfold installBooking
  dsimp only
  split
  · exact .modCore s _ _
  · exact .of_onlyBookings (writeDieBooking_onlyBookings s _ _)

/-- The memory that a launch prepares: cores, state ranges, core memory images, the directory (R348 steps 1 to 3). -/
def launchMemory (s : State) (g : Image) : State :=
  let s := (bitsSet g.role.cores).foldl launchCore s
  let s := g.role.state.foldl (fun s (x : Range) => zeroRange s x.base x.len) s
  writeDirectory (g.role.initCm.foldl (fun s (x : Nat × List Byte) => (memWrite s x.1 x.2).1) s) g

/-- The memory that a launch prepares is no partition's record. -/
theorem launchMemory_keepsReset (s : State) (g : Image) : KeepsReset s (launchMemory s g) := by
  have hcores : ∀ u c, KeepsReset u (launchCore u c) := fun u c => .of_onlyMovers (launchCore_onlyMovers u c)
  have hzero : ∀ u (x : Range), KeepsReset u (zeroRange u x.base x.len) := fun _ _ => .of_eq rfl rfl rfl
  have hwrite : ∀ u (x : Nat × List Byte), KeepsReset u (memWrite u x.1 x.2).1 := fun _ _ => .of_eq rfl rfl rfl
  exact (KeepsReset.foldl hcores _ _).trans ((KeepsReset.foldl hzero _ _).trans
    ((KeepsReset.foldl hwrite _ _).trans (writeDirectory_keepsReset _ g)))

/-- What a launch declares: windows, credits, counters, bookings, entries (R348 steps 4 and 5). -/
def launchDeclared (s : State) (col : Nat) (r : Role) : State :=
  let s := r.windows.foldl (installWindow col) s
  let s := r.credits.foldl installCredit s
  let s := r.counters.foldl (installCounter col) s
  let s := armWatchdog (r.bookings.foldl (installBooking col) s) col r.stepTime
  fwEvent (r.entries.foldl startCore s) col 1

/-- What a launch declares changes no record's reset. -/
theorem launchDeclared_keepsReset (s : State) (col : Nat) (r : Role) : KeepsReset s (launchDeclared s col r) := by
  have hcredits : ∀ u e, KeepsReset u (installCredit u e) := fun u _ => .modCore u _ _
  have hentries : ∀ u e, KeepsReset u (startCore u e) := fun u _ => .modCore u _ _
  have hwatch : ∀ u, KeepsReset u (armWatchdog u col r.stepTime) := fun u => .of_onlyBookings (writeDieBooking_onlyBookings u _ _)
  unfold launchDeclared
  exact (KeepsReset.foldl (installWindow_keepsReset col) _ _).trans ((KeepsReset.foldl hcredits _ _).trans
    ((KeepsReset.foldl (installCounter_keepsReset col) _ _).trans ((KeepsReset.foldl (installBooking_keepsReset col) _ _).trans
      ((hwatch _).trans ((KeepsReset.foldl hentries _ _).trans (fwEvent_keepsReset _ col 1))))))

/-- The job of a launch on a die as it is (R348). -/
def launchedJob (s : State) (g : Image) (j : Job) : Job := { j with
  st := .running, reason := 0, digest := g.digest, epoch := s.member.epoch, launchStroke := s.mast.stroke
  stepReplays := 0, ends := 0, failed := false, fromWatch := false, watchdog := none }

/-- A launch prepares memory, records the job and installs what the role declares. -/
theorem launchSteps_eq (s : State) (col : Nat) (g : Image) (j : Job) : launchSteps s col g j =
    let u := uninstallWindows (launchMemory s g) col
    launchDeclared (rebuildRegions (u.modPart col (fun p => { p with job := launchedJob u g j })) col) col g.role := by
  unfold launchSteps launchMemory launchDeclared launchedJob
  rfl

/-- A launch keeps mailboxes, WITHDRAW and the records' reset. -/
theorem launchSteps_keepsReset (s : State) (col : Nat) (g : Image) (j : Job) : KeepsReset s (launchSteps s col g j) := by
  have huninstall : ∀ u, KeepsReset u (uninstallWindows u col) := fun u => .of_eq rfl rfl rfl
  rw [launchSteps_eq]
  exact (launchMemory_keepsReset s g).trans ((huninstall _).trans ((KeepsReset.modPart _ col fun _ => by rfl).trans
    ((rebuildRegions_keepsReset _ col).trans (launchDeclared_keepsReset _ col g.role))))

/-- What becomes of the job as its reset ends keeps mailboxes, WITHDRAW and the records' reset. -/
theorem afterAbort_keepsReset (s : State) (col : Nat) (restart tell : Bool) (reason : Byte) :
    KeepsReset s (afterAbort s col restart tell reason) := by
  unfold afterAbort
  dsimp only
  split
  · split
    · exact launchSteps_keepsReset ..
    · refine KeepsReset.trans ?_ (endJob_keepsReset ..)
      split
      · exact jobEventAll_keepsReset ..
      · exact .of_eq rfl rfl rfl
  · exact endJob_keepsReset ..

end Sys2Proof.Machine
end

section
/-!
SUPPORT. The end of a reset and a destroyed partition, record by record, and O51.
-/
namespace Sys2Proof.Machine

open Sys2Proof.Stated

/-! ### A reset that ends (R290 steps 6 and 7, R293) -/

/-- The die whose reset has ended, before its job, its waiting commands and its mailbox are seen to. -/
def resetEnded (s : State) (col : Nat) : State :=
  ((bitsSet (s.part col).cores).foldl (fun s c => s.modCore c Core.endReset) (withdraw s col)).modPart col (fun p => { p with
    resetting := false, resetBy := [], resetJob := false, resetPolicy := false, resetRestart := false, resetNotify := false })

/-- The die whose reset has ended and whose job is settled. -/
def resetSettled (s : State) (col : Nat) : State :=
  let p := s.part col
  let asked := !p.resetBy.isEmpty || !p.resetPolicy
  let u := if asked then resetExtras (resetEnded s col) col else resetEnded s col
  if !p.resetJob then rebuildRegions u col else afterAbort u col (p.resetRestart && !asked) (p.resetNotify && !asked) p.resetReason

/-- The die whose reset has ended, its job settled and the commands that waited for it answered. -/
def resetAnswered (s : State) (col : Nat) : State :=
  ((s.part col).resetBy.foldl (fun s (w : BitVec 4 × BitVec 16 × BitVec 16) => answer s w.1.toNat w.2.1 w.2.2 [])
    (resetSettled s col)).modMailbox col (fun m => { m with st := if m.st == .resetting then .ready else m.st })

/-- The end of a reset records EVENT 0x04 last. -/
theorem finishReset_eq (s : State) (col : Nat) : finishReset s col = fwEvent (resetAnswered s col) col 4 := rfl

/-- What the end of a reset leaves before the job is seen to. -/
theorem resetEnded_leaves (s : State) (col : Nat) :
    let t := resetEnded s col
    t.mailboxes = s.mailboxes ∧ (t.part col).resetting = false ∧
    (∃ m ∈ t.intrs, m.colour = BitVec.ofNat 4 col ∧ m.withdraw = true) ∧ ∀ k ∈ bitsSet (s.part col).cores, (t.core k).ve = {} := by
  have hfold : ∀ (l : List Nat) (u : State), OnlyMovers u (l.foldl (fun s c => s.modCore c Core.endReset) u) := fun l u =>
    OnlyMovers.foldl (fun s c => modCore_onlyMovers s c _) l u
  have hmailboxes : (withdraw s col).mailboxes = s.mailboxes := rfl
  have hintrs : ∃ m ∈ (withdraw s col).intrs, m.colour = BitVec.ofNat 4 col ∧ m.withdraw = true :=
    ⟨_, List.mem_append_right _ (List.mem_singleton.mpr rfl), rfl, rfl⟩
  have hcore : ∀ k ∈ bitsSet (s.part col).cores,
      (((bitsSet (s.part col).cores).foldl (fun s c => s.modCore c Core.endReset) (withdraw s col)).core k).ve = {} := fun k hk => by
    rw [core_foldl_modCore (bitsSet_nodup _), if_pos hk, Core.endReset]
  have hkept := hfold (bitsSet (s.part col).cores) (withdraw s col)
  unfold resetEnded
  generalize (bitsSet (s.part col).cores).foldl (fun s c => s.modCore c Core.endReset) (withdraw s col) = u at hkept hcore
  generalize withdraw s col = v at hkept hmailboxes hintrs
  have hsame : u.mailboxes = v.mailboxes ∧ u.intrs = v.intrs := by rw [hkept]; exact ⟨rfl, rfl⟩
  refine ⟨hsame.1.trans hmailboxes, ?_, ?_, hcore⟩
  · rw [State.part_modPart_same]
  · exact hsame.2 ▸ hintrs

/-- What a commanded reset adds. -/
theorem resetExtras_keepsReset (s : State) (col : Nat) : KeepsReset s (resetExtras s col) := by
  have hqueues : ∀ q, KeepsReset s { s with queues := q } := fun _ => .of_eq rfl rfl rfl
  exact (hqueues _).trans (.modPart _ col fun _ => by rfl)

/-- The job settled keeps mailboxes, WITHDRAW and the records' reset; without a job to end the cores too. -/
theorem resetSettled_keeps (s : State) (col : Nat) : KeepsReset (resetEnded s col) (resetSettled s col) ∧
    ((s.part col).resetJob = false → (resetSettled s col).cores = (resetEnded s col).cores) := by
  unfold resetSettled
  dsimp only
  generalize resetEnded s col = v
  have hextras : ∀ b : Bool, KeepsReset v (if b then resetExtras v col else v) ∧ (if b then resetExtras v col else v).cores = v.cores := by
    intro b
    cases b
    · exact ⟨.of_eq rfl rfl rfl, rfl⟩
    · exact ⟨resetExtras_keepsReset v col, rfl⟩
  generalize (!(s.part col).resetBy.isEmpty || !(s.part col).resetPolicy) = asked
  obtain ⟨hkeeps, hcores⟩ := hextras asked
  generalize (if asked = true then resetExtras v col else v) = u at hkeeps hcores ⊢
  refine ⟨hkeeps.trans ?_, fun hjob => ?_⟩
  · split
    · exact rebuildRegions_keepsReset ..
    · exact afterAbort_keepsReset ..
  · rw [hjob]
    exact hcores

/-- What a response does to its command's mailbox. -/
def responds (j st : BitVec 16) (y : Cmd) : Cmd := if y.idx == j && y.resp.isNone then { y with resp := some (st, []), running := false } else y

/-- A response of no payload is recorded with its command. -/
theorem answer_accepted (s : State) (mb : Nat) (j st : BitVec 16) :
    ((answer s mb j st []).mailbox mb).accepted = (s.mailbox mb).accepted.map (responds j st) := by
  have htouch : (touchCmd s mb j st).mailbox mb = s.mailbox mb := by
    unfold touchCmd
    split
    · split <;> rfl
    · rfl
  rw [answer, State.mailbox_modMailbox_same, htouch]
  rfl

/-- The commands that waited are answered; one alone has its response in its mailbox. -/
theorem resetAnswered_leaves (s : State) (col : Nat) : OnlyCommands (resetSettled s col) (resetAnswered s col) ∧
    ∀ (m : BitVec 4) (j st : BitVec 16), (s.part col).resetBy = [(m, j, st)] →
      ((resetAnswered s col).mailbox m.toNat).accepted = ((resetSettled s col).mailbox m.toNat).accepted.map (responds j st) := by
  unfold resetAnswered
  refine ⟨OnlyCommands.trans ?_ (modMailbox_onlyCommands _ _ _), fun m j st hby => ?_⟩
  · exact List.foldlRecOn (motive := OnlyCommands (resetSettled s col)) _ _ (.of_eq rfl) fun _ hu x _ =>
      hu.trans (answer_onlyCommands _ _ _ _ _)
  · rw [hby, List.foldl_cons, List.foldl_nil, State.mailbox_modMailbox]
    split
    · next hd => rw [← hd]; exact answer_accepted ..
    · exact answer_accepted ..

/-- What the end of a reset leaves. -/
theorem finishReset_leaves (s : State) (col : Nat) :
    let t := finishReset s col
    (t.part col).resetting = false ∧ (∃ m ∈ t.intrs, m.colour = BitVec.ofNat 4 col ∧ m.withdraw = true) ∧
    ((s.part col).resetJob = false → ∀ k ∈ bitsSet (s.part col).cores, (t.core k).ve = {}) ∧
    ∀ (m : BitVec 4) (j st : BitVec 16), (s.part col).resetBy = [(m, j, st)] →
      (t.mailbox m.toNat).accepted = (s.mailbox m.toNat).accepted.map (responds j st) := by
  obtain ⟨hmailboxes, hresetting, ⟨w, hw, hcolour, hwithdraw⟩, hve⟩ := resetEnded_leaves s col
  obtain ⟨hkeeps, hcores⟩ := resetSettled_keeps s col
  obtain ⟨⟨hstate, hparts⟩, haccepted⟩ := resetAnswered_leaves s col
  have hevent := fwEvent_keepsReset (resetAnswered s col) col 4
  have hvectors := fwEvent_onlyVectors (resetAnswered s col) col 4
  rw [finishReset_eq]
  generalize resetAnswered s col = u at hstate hparts haccepted hevent hvectors ⊢
  generalize resetSettled s col = v at hkeeps hcores hstate hparts haccepted
  refine ⟨?_, ⟨w, ?_, hcolour, hwithdraw⟩, fun hjob k hk => ?_, fun m j st hby => ?_⟩
  · rw [hevent.resetting, hparts col, hkeeps.resetting, hresetting]
  · have hintrs : u.intrs = v.intrs := by rw [hstate]
    exact hevent.withdraws w (hintrs ▸ hkeeps.withdraws w hw hwithdraw) hwithdraw
  · have hcoresU : u.cores = v.cores := by rw [hstate]
    have hcoresT : (fwEvent u col 4).cores = u.cores := by rw [hvectors]
    have hcore : (fwEvent u col 4).core k = (resetEnded s col).core k := by
      rw [State.core, State.core, hcoresT, hcoresU, hcores hjob]
    rw [hcore]
    exact hve k hk
  · have hbefore : v.mailbox m.toNat = s.mailbox m.toNat := by rw [State.mailbox, State.mailbox, hkeeps.mailboxes, hmailboxes]
    have hafter : (fwEvent u col 4).mailbox m.toNat = u.mailbox m.toNat := by rw [State.mailbox, State.mailbox, hevent.mailboxes]
    rw [hafter, haccepted m j st hby, hbefore]

/-! ### Images that leave, and a partition destroyed (R127, R334, R342) -/

/-- From s to t the counters, the mailboxes and the interrupt queue stay, and each partition keeps its counters. -/
structure KeepsRecords (s t : State) : Prop where
  counters : t.counters = s.counters
  mailboxes : t.mailboxes = s.mailboxes
  intrs : t.intrs = s.intrs
  owned : ∀ d : Nat, (t.part d).counters = (s.part d).counters

namespace KeepsRecords

/-- Nothing of it changed. -/
theorem of_eq {s t : State} (hc : t.counters = s.counters) (hm : t.mailboxes = s.mailboxes) (hi : t.intrs = s.intrs)
    (hp : t.parts = s.parts) : KeepsRecords s t :=
  ⟨hc, hm, hi, fun d => by rw [State.part, State.part, hp]⟩

/-- Two such changes in a row are one. -/
theorem trans {s t u : State} (h : KeepsRecords s t) (h' : KeepsRecords t u) : KeepsRecords s u :=
  ⟨h'.counters.trans h.counters, h'.mailboxes.trans h.mailboxes, h'.intrs.trans h.intrs, fun d => (h'.owned d).trans (h.owned d)⟩

/-- Changes in a row. -/
theorem foldl {α : Type} {f : State → α → State} (hf : ∀ s x, KeepsRecords s (f s x)) (l : List α) (s : State) :
    KeepsRecords s (l.foldl f s) :=
  List.foldlRecOn (motive := KeepsRecords s) l f (.of_eq rfl rfl rfl rfl) fun _ hu x _ => hu.trans (hf _ x)

/-- A partition's record changed, its counters kept. -/
theorem modPart (s : State) (col : Nat) {f : Partn → Partn} (hf : ∀ p, (f p).counters = p.counters) :
    KeepsRecords s (s.modPart col f) := by
  refine ⟨rfl, rfl, rfl, fun d => ?_⟩
  rw [State.part_modPart]
  split
  · next hd => rw [hd, hf]
  · rfl

end KeepsRecords

/-- An image that leaves. -/
theorem evictImage_keepsRecords (s : State) (col : Nat) (g : Image) : KeepsRecords s (evictImage s col g) := by
  have hzero : ∀ u (x : Range), KeepsRecords u (zeroRange u x.base x.len) := fun _ _ => .of_eq rfl rfl rfl rfl
  have hrequest : ∀ u die mtype colour job body, KeepsRecords u (fwRequest u die mtype colour job body) :=
    fun _ _ _ _ _ _ => .of_eq rfl rfl rfl rfl
  have hregions : ∀ u, KeepsRecords u (rebuildRegions u col) := fun _ => .of_eq rfl rfl rfl rfl
  exact (KeepsRecords.foldl hzero _ _).trans ((KeepsRecords.foldl (fun u _ => hrequest u _ _ _ _ _) _ _).trans
    ((KeepsRecords.modPart _ col fun _ => by rfl).trans (hregions _)))

/-- The die with a colour's windows uninstalled and its images gone (R334). -/
def evictedPart (s : State) (col : Nat) : State := (s.part col).images.foldl (fun s g => evictImage s col g) (uninstallWindows s col)

/-- What it keeps. -/
theorem evictedPart_keepsRecords (s : State) (col : Nat) : KeepsRecords s (evictedPart s col) := by
  have huninstall : KeepsRecords s (uninstallWindows s col) := .of_eq rfl rfl rfl rfl
  exact huninstall.trans (.foldl (fun s g => evictImage_keepsRecords s col g) _ _)

/-- A core that a destroyed partition gives back: launched anew, with no colour and no channel. -/
def returnCore (s : State) (c : Nat) : State := (launchCore s c).modCore c (fun k => { k with colour := 0, chans := [] })

/-- The die with a colour's queues gone, and a partition's granules and cores zero (R334). -/
def zeroedPart (s : State) (col : Nat) (p : Partn) : State :=
  (bitsSet p.cores).foldl returnCore (p.granules.foldl (fun s g => zeroRange s (g * 0x10000000) 0x10000000)
    { s with queues := s.queues.filter (fun (e : Nat × ReqQueue) => e.2.colour.toNat != col) })

/-- The partition of a record gone: its counters, its bookings, its record and its regions. -/
def releasedPart (s : State) (col : Nat) (p : Partn) : State :=
  let u := disarmDie { s with counters := s.counters.filter (fun (e : Nat × Counter) => !bit p.counters e.1) }
    (fun i _ => decide (p.bookFirst ≤ i) && decide (i < p.bookFirst + p.bookCount))
  { u with parts := Table.drop u.parts col, regions := Table.drop u.regions col }

/-- A destroy evicts, zeroes and releases; its mailbox is OFFLINE. -/
theorem destroyPart_eq (s : State) (col : Nat) : destroyPart s col =
    (releasedPart (zeroedPart (evictedPart s col) col ((evictedPart s col).part col)) col ((evictedPart s col).part col)).modMailbox col
      (fun m => { m with st := .offline }) := rfl

/-- What a zeroed partition leaves: no queue of the colour; counters, mailboxes and interrupts as they were. -/
theorem zeroedPart_leaves (s : State) (col : Nat) (p : Partn) :
    let t := zeroedPart s col p
    t.queues = s.queues.filter (fun (e : Nat × ReqQueue) => e.2.colour.toNat != col) ∧
    t.counters = s.counters ∧ t.mailboxes = s.mailboxes ∧ t.intrs = s.intrs := by
  have hzero : ∀ u a n, OnlyMovers u (zeroRange u a n) := fun _ _ _ => rfl
  have hcores : ∀ u c, OnlyMovers u (returnCore u c) := fun u c => (launchCore_onlyMovers u c).trans (modCore_onlyMovers _ c _)
  have hmovers : OnlyMovers { s with queues := s.queues.filter (fun (e : Nat × ReqQueue) => e.2.colour.toNat != col) } (zeroedPart s col p) :=
    (OnlyMovers.foldl (fun u g => hzero u (g * 0x10000000) 0x10000000) _ _).trans (.foldl hcores _ _)
  dsimp only
  rw [hmovers]
  exact ⟨rfl, rfl, rfl, rfl⟩

/-- What a released partition leaves. -/
theorem releasedPart_leaves (s : State) (col : Nat) (p : Partn) :
    let t := releasedPart s col p
    t.part col = {} ∧ t.regionsOf col = [] ∧ (∀ x : Nat, bit p.counters x = true → t.counter x = {}) ∧
    t.queues = s.queues ∧ t.mailboxes = s.mailboxes ∧ t.intrs = s.intrs := by
  refine ⟨?_, ?_, fun x hx => ?_, rfl, rfl, rfl⟩
  · exact (Table.get_drop _ _ _ _).trans (if_pos rfl)
  · exact (Table.get_drop _ _ _ _).trans (if_pos rfl)
  · exact (Table.get_filter _ s.counters (fun n => !bit p.counters n) x).trans (if_neg (by simp [hx]))

/-- What a destroyed partition leaves. -/
theorem destroyPart_leaves (s : State) (col : Nat) :
    let t := destroyPart s col
    t.part col = {} ∧ t.regionsOf col = [] ∧ (t.mailbox col).st = .offline ∧
    (∀ x : Nat, bit (s.part col).counters x = true → t.counter x = {}) ∧ (∀ e ∈ t.queues, e.2.colour.toNat ≠ col) ∧
    t.intrs = s.intrs ∧ ∀ d : Nat, (t.mailbox d).accepted = (s.mailbox d).accepted := by
  have hkeeps := evictedPart_keepsRecords s col
  have hzeroed := zeroedPart_leaves (evictedPart s col) col ((evictedPart s col).part col)
  have hreleased := releasedPart_leaves (zeroedPart (evictedPart s col) col ((evictedPart s col).part col)) col ((evictedPart s col).part col)
  rw [destroyPart_eq]
  rw [← hkeeps.owned col]
  generalize evictedPart s col = u at hkeeps hzeroed hreleased ⊢
  generalize zeroedPart u col (u.part col) = v at hzeroed hreleased ⊢
  generalize releasedPart v col (u.part col) = w at hreleased ⊢
  obtain ⟨hqueues, hcounters, hmailboxes, hintrs⟩ := hzeroed
  obtain ⟨hpart, hregions, hgone, hqueuesKept, hmailboxesKept, hintrsKept⟩ := hreleased
  refine ⟨hpart, hregions, ?_, hgone, fun e he => ?_, ?_, fun d => ?_⟩
  · rw [State.mailbox_modMailbox_same]
  · have hmem : e ∈ v.queues := hqueuesKept ▸ he
    rw [hqueues] at hmem
    simpa using (List.mem_filter.mp hmem).2
  · exact hintrsKept.trans (hintrs.trans hkeeps.intrs)
  · have hmailbox : w.mailbox d = s.mailbox d := by
      rw [State.mailbox, State.mailbox, hmailboxesKept, hmailboxes, hkeeps.mailboxes]
    rw [State.mailbox_modMailbox, ← hmailbox]
    split
    · next hd => rw [hd]
    · rfl

end Sys2Proof.Machine
end

section
/-!
SUPPORT. PART_RESET, PART_DESTROY and PARTITION_DRAIN_END (R290 to R294, R334), and O51.
-/
namespace Sys2Proof.Machine

open Sys2Proof.Stated

/-! ### PART_RESET -/

/-- What PART_RESET does for a colour. -/
def partReset (s : State) (mb : Nat) (i : BitVec 16) (col : Nat) : State :=
  if !(s.part col).present then answer s mb i stBadField []
  else if (s.part col).resetting then waitReset s mb i col stResetDone
  else cutCommands (beginReset (waitReset s mb i col stResetDone) col 5) col

/-- PART_RESET that runs. -/
theorem exec_partReset {s : State} {mb : Fin 16} {i : BitVec 16} {p : List Byte} (h : Runs s mb i 0x62 [(0, 1, 0x0F)] p) :
    exec (.partReset mb i) s = .next (serve (partReset s mb.val i (leField p 0 1)) mb.val) := by
  rw [show exec (.partReset mb i) s = execPartReset mb i s from rfl, execPartReset]
  exact live_runCmd_of_Runs h fun s p => partReset s mb.val i (leField p 0 1)

/-- What a reset that a command begins leaves of a stopped core (R198, R290, R293). -/
theorem stopIssue_kept {k k' : Core} (h : MoverCut k.stopIssue k') :
    k'.st = .stopped ∧ k'.queues = [] ∧ k'.csr.flags = 0 ∧ k'.csr.admitCut = 0 ∧ k'.csr.cycle = 0 ∧ k'.shadow = [] ∧ k'.icache = [] ∧
    k'.ccache = [] ∧ k'.ob = k.ob ∧ k'.sregs = k.sregs := by
  rw [h]
  exact ⟨rfl, rfl, rfl, rfl, rfl, rfl, rfl, rfl, rfl, rfl⟩

/-- The reset that a command begins: the record in reset with the command waiting, cores stopped, windows and counters gone. -/
theorem beginReset_of_waitReset {s : State} {col : Nat} (h : (s.part col).resetting = false) (mb : Nat) (i st : BitVec 16) (reason : Byte) :
    let t := beginReset (waitReset s mb i col st) col reason
    (t.part col).resetting = true ∧ (t.part col).resetBy = (s.part col).resetBy ++ [(BitVec.ofNat 4 mb, i, st)] ∧
    (∀ c ∈ bitsSet (s.part col).cores, MoverCut (s.core c).stopIssue (t.core c)) ∧
    (∀ e ∈ t.windows, e.2.colour.toNat ≠ col) ∧ ∀ x : Nat, (t.counter x).colour.toNat = col → (t.counter x).valid = false := by
  obtain ⟨hwait, hpart⟩ := waitReset_leaves s mb i col st
  generalize waitReset s mb i col st = w at hwait hpart ⊢
  have hcore : ∀ c, w.core c = s.core c := fun c => by rw [hwait]; rfl
  obtain ⟨hrecord, hcores, hwindows, hcounters⟩ := beginReset_leaves (s := w) (col := col) (by rw [hpart]; exact h) reason
  dsimp only
  generalize beginReset w col reason = t at hrecord hcores hwindows hcounters ⊢
  rw [hpart] at hrecord hcores
  simp only [hcore] at hcores
  rw [hrecord]
  exact ⟨rfl, rfl, hcores, hwindows, hcounters⟩

/-- The commands cut and the mailbox served keep what the reset made. -/
theorem serve_cutCommands (s : State) (col mb : Nat) : OnlyCommands s (serve (cutCommands s col) mb) :=
  (cutCommands_onlyCommands s col).trans (serve_onlyCommands _ mb)

section
variable {s : State} {col : Nat} (hp : (s.part col).present = true)
include hp

/-- A PART_RESET of a colour in no reset begins one. -/
theorem partReset_begins (hr : (s.part col).resetting = false) (mb : Nat) (i : BitVec 16) :
    let t := serve (partReset s mb i col) mb
    (t.part col).resetting = true ∧ (t.part col).resetBy = (s.part col).resetBy ++ [(BitVec.ofNat 4 mb, i, stResetDone)] ∧
    (∀ c ∈ bitsSet (s.part col).cores, let k := t.core c
      k.st = .stopped ∧ k.queues = [] ∧ k.csr.flags = 0 ∧ k.csr.admitCut = 0 ∧ k.csr.cycle = 0 ∧ k.shadow = [] ∧ k.icache = [] ∧ k.ccache = [] ∧
      k.ob = (s.core c).ob ∧ k.sregs = (s.core c).sregs) ∧
    (∀ e ∈ t.windows, e.2.colour.toNat ≠ col) ∧ ∀ x : Nat, (t.counter x).colour.toNat = col → (t.counter x).valid = false := by
  rw [partReset, if_neg (by simp [hp]), if_neg (by simp [hr])]
  obtain ⟨hresetting, hby, hcores, hwindows, hcounters⟩ := beginReset_of_waitReset hr mb i stResetDone 5
  obtain ⟨hstate, hparts⟩ := serve_cutCommands (beginReset (waitReset s mb i col stResetDone) col 5) col mb
  dsimp only
  generalize beginReset (waitReset s mb i col stResetDone) col 5 = u at *
  generalize serve (cutCommands u col) mb = t at *
  have hcore : ∀ c, t.core c = u.core c := fun c => by rw [hstate]; rfl
  have hcounter : ∀ x, t.counter x = u.counter x := fun x => by rw [hstate]; rfl
  have hwindow : t.windows = u.windows := by rw [hstate]
  refine ⟨?_, ?_, fun c hc => ?_, hwindow ▸ hwindows, fun x => ?_⟩
  · rw [hparts]; exact hresetting
  · rw [hparts]; exact hby
  · rw [hcore]; exact stopIssue_kept (hcores c hc)
  · rw [hcounter]; exact hcounters x

/-- A PART_RESET of a colour in reset joins it. -/
theorem partReset_joins (hr : (s.part col).resetting = true) (mb : Nat) (i : BitVec 16) :
    let t := serve (partReset s mb i col) mb
    t.cores = s.cores ∧ (t.part col).resetBy = (s.part col).resetBy ++ [(BitVec.ofNat 4 mb, i, stResetDone)] := by
  rw [partReset, if_neg (by simp [hp]), if_pos hr]
  obtain ⟨hwait, hpart⟩ := waitReset_leaves s mb i col stResetDone
  obtain ⟨hstate, hparts⟩ := serve_onlyCommands (waitReset s mb i col stResetDone) mb
  constructor
  · rw [hstate, hwait]
  · rw [hparts, hpart]

end

/-! ### PART_DESTROY -/

/-- What PART_DESTROY does for a colour. -/
def partDestroyed (s : State) (mb : Nat) (i : BitVec 16) (col : Nat) : State :=
  let x := s.part col
  if !x.present then answer s mb i stNotFound []
  else if x.lent.any (fun (l : Nat × BitVec 6 × BitVec 256) => (s.die l.2.1.toNat).st == .verified) then answer s mb i stInUse []
  else if x.job.live then
    cutCommands ((beginReset (waitReset s mb i col stOk) col 5).modPart col (fun p => { p with destroying := true })) col
  else answer (destroyPart (touch (cutCommands s col) x.units) col) mb i stOk []

/-- PART_DESTROY that runs. -/
theorem exec_partDestroy {s : State} {mb : Fin 16} {i : BitVec 16} {p : List Byte} (h : Runs s mb i 0x61 [(0, 1, 0x0F)] p) :
    exec (.partDestroy mb i) s = .next (serve (partDestroyed s mb.val i (leField p 0 1)) mb.val) := by
  rw [show exec (.partDestroy mb i) s = execPartDestroy mb i s from rfl, execPartDestroy]
  exact live_runCmd_of_Runs h fun s p => partDestroyed s mb.val i (leField p 0 1)

section
variable {s : State} {mb : Nat} {i : BitVec 16} {col : Nat} (hp : (s.part col).present = true)
include hp

/-- A granule that is lent to a VERIFIED borrower. -/
theorem partDestroyed_lent (hl : ∃ l ∈ (s.part col).lent, (s.die l.2.1.toNat).st = .verified) :
    partDestroyed s mb i col = answer s mb i 0x0202 [] := by
  unfold partDestroyed
  exact (if_neg (by simp [hp])).trans (if_pos (List.any_eq_true.mpr (by simpa using hl)))

variable (hl : ¬ ∃ l ∈ (s.part col).lent, (s.die l.2.1.toNat).st = .verified)
include hl

/-- Without a job the partition is destroyed at once. -/
theorem partDestroyed_idle (hj : (s.part col).job.live = false) :
    partDestroyed s mb i col = answer (destroyPart (touch (cutCommands s col) (s.part col).units) col) mb i 0 [] := by
  unfold partDestroyed
  refine (if_neg (by simp [hp])).trans ((if_neg fun h => hl ?_).trans (if_neg (by simp [hj])))
  simpa using List.any_eq_true.mp h

/-- With a job its reset comes first. -/
theorem partDestroyed_busy (hj : (s.part col).job.live = true) : partDestroyed s mb i col =
    cutCommands ((beginReset (waitReset s mb i col 0) col 5).modPart col (fun p => { p with destroying := true })) col := by
  unfold partDestroyed
  refine (if_neg (by simp [hp])).trans ((if_neg fun h => hl ?_).trans (if_pos hj))
  simpa using List.any_eq_true.mp h

/-- Until that reset ends the partition is in reset, to be destroyed, and the command waits. -/
theorem partDestroyed_waits (hj : (s.part col).job.live = true) (hr : (s.part col).resetting = false) :
    let t := serve (partDestroyed s mb i col) mb
    (t.part col).resetting = true ∧ (t.part col).destroying = true ∧
    (t.part col).resetBy = (s.part col).resetBy ++ [(BitVec.ofNat 4 mb, i, 0)] := by
  rw [partDestroyed_busy hp hl hj]
  obtain ⟨hresetting, hby, -, -, -⟩ := beginReset_of_waitReset hr mb i 0 5
  generalize beginReset (waitReset s mb i col 0) col 5 = u at *
  obtain ⟨-, hparts⟩ := serve_cutCommands (u.modPart col (fun p => { p with destroying := true })) col mb
  dsimp only
  rw [hparts, State.part_modPart_same]
  exact ⟨hresetting, rfl, hby⟩

end

/-- A partition destroyed at once leaves nothing of its colour. -/
theorem destroyPart_now_leaves (s : State) (col : Nat) :
    let t := destroyPart (touch (cutCommands s col) (s.part col).units) col
    t.part col = {} ∧ t.regionsOf col = [] ∧ (t.mailbox col).st = .offline ∧
    (∀ x : Nat, bit (s.part col).counters x = true → t.counter x = {}) ∧ ∀ e ∈ t.queues, e.2.colour.toNat ≠ col := by
  obtain ⟨hpart, hregions, hmailbox, hcounters, hqueues, -, -⟩ := destroyPart_leaves (touch (cutCommands s col) (s.part col).units) col
  refine ⟨hpart, hregions, hmailbox, fun x hx => hcounters x ?_, hqueues⟩
  have htouched : (touch (cutCommands s col) (s.part col).units).part col = (cutCommands s col).part col := rfl
  rw [htouched, (cutCommands_onlyCommands s col).2 col]
  exact hx

/-! ### PARTITION_DRAIN_END -/

/-- A colour that is not in reset, or has a request outstanding, drains no further (R292). -/
theorem exec_drainEnd_waits {s : State} (h : Clocked s) {c : BitVec 4}
    (hw : (s.part c.toNat).resetting = false ∨ ∃ q ∈ s.reqs, q.colour = c) : exec (.partitionDrainEnd c) s = .next s := by
  rw [show exec (.partitionDrainEnd c) s = execPartitionDrainEnd c s from rfl, execPartitionDrainEnd, live_of_Clocked h]
  refine congrArg _ (if_pos ?_)
  rcases hw with hw | ⟨q, hq, hc⟩
  · simp [hw]
  · have hany : s.reqs.any (fun (q : Req) => q.colour.toNat == c.toNat) = true := List.any_eq_true.mpr ⟨q, hq, by simp [hc]⟩
    simp [State.drainedOf, hany]

/-- A colour in reset with no request outstanding has drained: the reset ends, and a destroy goes on. -/
theorem exec_drainEnd_ends {s : State} (h : Clocked s) (hup : s.skovi.up = true) {c : BitVec 4} (hr : (s.part c.toNat).resetting = true)
    (hq : ∀ q ∈ s.reqs, q.colour ≠ c) : exec (.partitionDrainEnd c) s = .next (
      if (s.part c.toNat).destroying then destroyPart (finishReset s c.toNat) c.toNat else finishReset s c.toNat) := by
  rw [show exec (.partitionDrainEnd c) s = execPartitionDrainEnd c s from rfl, execPartitionDrainEnd, live_of_Clocked h]
  refine congrArg _ (if_neg ?_)
  have hnone : s.reqs.any (fun (q : Req) => q.colour.toNat == c.toNat) = false :=
    List.any_eq_false.mpr fun q hmem hc => hq q hmem (BitVec.eq_of_toNat_eq (by simpa using hc))
  simp [hup, hr, State.drainedOf, hnone]

/-- What the drain's end leaves. -/
theorem drainEnd_leaves (s : State) (col : Nat) :
    let x := s.part col
    let t := if x.destroying then destroyPart (finishReset s col) col else finishReset s col
    (t.part col).resetting = false ∧ (x.resetJob = false → x.destroying = false → ∀ k ∈ bitsSet x.cores, (t.core k).ve = {}) ∧
    (∃ m ∈ t.intrs, m.colour = BitVec.ofNat 4 col ∧ m.withdraw = true) ∧ (x.destroying = true → t.part col = {}) ∧
    ∀ (m : BitVec 4) (j st : BitVec 16), x.resetBy = [(m, j, st)] →
      (t.mailbox m.toNat).accepted = (s.mailbox m.toNat).accepted.map (responds j st) := by
  obtain ⟨hresetting, hwithdraw, hve, haccepted⟩ := finishReset_leaves s col
  obtain ⟨hpart, -, -, -, -, hintrs, hkept⟩ := destroyPart_leaves (finishReset s col) col
  dsimp only
  cases hd : (s.part col).destroying with
  | false =>
    refine ⟨hresetting, fun hj _ => hve hj, hwithdraw, fun h => absurd h (by decide), haccepted⟩
  | true =>
    rw [if_pos rfl, hpart, hintrs]
    exact ⟨rfl, fun _ h => absurd h (by decide), hwithdraw, fun _ => rfl, fun m j st hby => (hkept _).trans (haccepted m j st hby)⟩

/-! ### O51 -/

/-- Settles O51: creation by its checks, a reset by the cores it stops and the records it marks, a destroy by what it releases, and
the drain's end by what the job's end or restart keeps. -/
theorem partitionsAreCreatedResetAndDestroyed : Obligations.PartitionsAreCreatedResetAndDestroyed := by
  unfold Obligations.PartitionsAreCreatedResetAndDestroyed
  intro s mb i p
  dsimp only
  refine ⟨fun h => ?_, fun h => ?_, fun h => ?_, fun c hc hup => ⟨fun hw => exec_drainEnd_waits hc hw, fun hr hq => ?_⟩⟩
  · have hexec : ∀ {t}, partCreated s mb.val i p = t → exec (.partCreate mb i) s = .next (serve t mb.val) := fun ht => ht ▸ exec_partCreate h
    have hcol : leField p 0 1 < 16 := colour_lt_of_fits h.2.1 (by decide)
    refine ⟨fun hbad => hexec (partCreated_badField hbad), fun hcol0 hn hk => ⟨fun hp => hexec (partCreated_exists hcol0 hn hk hp),
      fun hp => ⟨fun hbusy => hexec (partCreated_inUse hcol0 hn hk hp hbusy),
        fun hfree hfull => hexec (partCreated_noSpace hcol0 hn hk hp hfree hfull), fun first hfree hrun hcount hroom => ?_⟩⟩⟩
    refine ⟨_, hexec (partCreated_done hcol0 hn hk hp hfree hrun hcount hroom), ?_⟩
    obtain ⟨hpart, hregions, hmailbox⟩ := createPart_records s (leField p 0 1) (BitVec.ofNat 48 (leField p 8 6))
      (bitsOf (leField p 16 36) 288) (s.freeCounters.take (leField p 52 1)) first (leField p 53 1)
    obtain ⟨hpop, howned⟩ := maskOf_freeCounters hcount
    refine ⟨?_, ?_, ?_, ?_, hmailbox, createPart_cores s hcol _ _ _ _ _⟩
    · rw [hpart]; rfl
    · rw [hpart]; exact hpop
    · rw [hpart]; exact howned
    · rw [hpart]; exact hregions
  · have hexec := exec_partReset h
    refine ⟨fun hp => ?_, fun hp hr => ?_, fun hp hr => ?_⟩
    · rw [partReset, if_pos (by simp [hp])] at hexec
      exact hexec
    · exact ⟨_, hexec, partReset_begins hp hr mb.val i⟩
    · exact ⟨_, hexec, partReset_joins hp hr mb.val i⟩
  · have hexec := exec_partDestroy h
    refine ⟨fun hp => ?_, fun hp hl => ?_, fun hp hl hj => ?_, fun hp hl hj hr => ?_⟩
    · rw [partDestroyed, if_pos (by simp [hp])] at hexec
      exact hexec
    · rw [partDestroyed_lent hp hl] at hexec
      exact hexec
    · rw [partDestroyed_idle hp hl hj] at hexec
      exact ⟨_, hexec, destroyPart_now_leaves s (leField p 0 1)⟩
    · exact ⟨_, hexec, partDestroyed_waits hp hl hj hr⟩
  · obtain ⟨hresetting, hve, ⟨m, hm, hcolour, hwithdraw⟩, hgone, haccepted⟩ := drainEnd_leaves s c.toNat
    exact ⟨_, exec_drainEnd_ends hc hup hr hq, hresetting, hve, ⟨m, hm, by simpa using hcolour, hwithdraw⟩, hgone, haccepted⟩

end Sys2Proof.Machine
end

section
/-!
SUPPORT. The last END of a job whose core still holds credits (R168, R184): the slot that returns them leaves before the reply, and
O55.
-/
namespace Sys2Proof.Machine

open Sys2Proof.Stated

/-- Die 2 with a job on dies 2, 4 and 5 that only die 5 has still to end; core 0 of the job holds one credit of a window on die 4. -/
def lastEndDie : State where
  boot := { porstLow := false }
  skovi := { up := true }
  member := { id := some 2, dies := [(4, { st := .verified }), (5, { st := .verified })] }
  cores := [(0, { colour := 8, credits := [{ die := 4, win := 7, base := 0, len := 256, held := 1 }] })]
  parts := [(8, { present := true, cores := 1, job := { st := .running, id := 3, dieSet := 0x34, ends := 0x14 } })]

/-- The JOB_EVENT by which die 5 tells that its part of job 3 of colour 8 has ended (R184, Table 15-9). -/
def lastEndMsg : Msg where
  src := 5
  dst := 2
  colour := 0
  op := 6
  addr := 0
  tag := 0
  win := 0
  winv := false
  status := 0
  ll := false
  data := [0x35, 8, 1, 0] ++ leBytes 4 3 ++ [2, 0, 0, 0] ++ leBytes 8 0
  bad := false

/-- Two messages leave: the release slot of the credit to die 4, and the reply to die 5 (R168, R322). -/
theorem lastEnd_sends_two : ∃ u, exec (.jobEvent lastEndMsg) lastEndDie = .next u ∧ u.tx.length = 2 := ⟨_, rfl, rfl⟩

/-- Refutes O55: with the last END the job ends, and a HELD credit that its core returns leaves in a message of its own, while the
statement lets only the reply leave (R168). -/
theorem not_firmwareMessagesAreAnsweredOnce : ¬ Obligations.FirmwareMessagesAreAnsweredOnce := by
  unfold Obligations.FirmwareMessagesAreAnsweredOnce
  intro h
  obtain ⟨-, -, -, -, -, -, -, hnew, -⟩ := (h lastEndDie ⟨rfl, rfl, rfl⟩ rfl rfl).1 lastEndMsg
  obtain ⟨-, -, -, -, -, -, hevent⟩ := hnew rfl (by decide) rfl
  obtain ⟨-, -, -, -, hlast⟩ := hevent (by decide)
  obtain ⟨u, hu, htx, -⟩ := hlast ⟨rfl, by decide⟩ (by decide) (by decide)
  obtain ⟨v, hv, hlen⟩ := lastEnd_sends_two
  rw [hu] at hv
  cases hv
  rw [htx] at hlen
  exact absurd hlen (by decide)

end Sys2Proof.Machine
end

section
/-!
SUPPORT. One path of a port (R64 to R72, R79, R80): what its link layer is read as after each operation of the port, and which
operations change that port only.
-/
namespace Sys2Proof.Machine

open Sys2Proof.Stated

/-- With PORST_N high and outside the test state, a command of the AUX domain has its effect (R373, R374). -/
theorem awake_of_Powered {s : State} {f : State → State} (h : Powered s) : awake s f = .next (f s) :=
  awake_of_powered h.1 h.2

/-! ### The link layer of a path -/

/-- The link layer put is the one read. -/
@[simp] theorem Port.link_setLink (x : Port) (path : Path) (l : Link) : (x.setLink path l).link path = l := by
  cases path <;> rfl

/-- A link layer changed is read as changed. -/
@[simp] theorem Port.link_modLink (x : Port) (path : Path) (g : Link → Link) : (x.modLink path g).link path = g (x.link path) :=
  Port.link_setLink x path _

/-- A link layer put over another covers it. -/
@[simp] theorem Port.setLink_setLink (x : Port) (path : Path) (l l' : Link) : (x.setLink path l).setLink path l' = x.setLink path l' := by
  cases path <;> rfl

@[simp] theorem Port.setLink_st (x : Port) (path : Path) (l : Link) : (x.setLink path l).st = x.st := by cases path <;> rfl
@[simp] theorem Port.setLink_counts (x : Port) (path : Path) (l : Link) : (x.setLink path l).counts = x.counts := by cases path <;> rfl
@[simp] theorem Port.setLink_rxHeld (x : Port) (path : Path) (l : Link) : (x.setLink path l).rxHeld = x.rxHeld := by cases path <;> rfl

/-- Whether a path carries flits depends on its link layer only by whether that is initialised (R64). -/
theorem Port.carries_setLink {x : Port} {path : Path} {l : Link} (h : l.initDone = (x.link path).initDone) :
    (x.setLink path l).carries path = x.carries path := by
  cases path <;> simp_all [Port.carries, Port.setLink, Port.link]

/-- A trailer leaves the expected sequence. -/
@[simp] theorem Link.take_expect (now : Nat) (t : Trailer) (l : Link) : (Link.take now t l).expect = l.expect := by
  simp [Link.take, apply_ite Link.expect]

/-- A trailer does not end an initialisation. -/
@[simp] theorem Link.take_initDone (now : Nat) (t : Trailer) (l : Link) : (Link.take now t l).initDone = l.initDone := by
  simp [Link.take, apply_ite Link.initDone]

/-! ### Only one port changes -/

/-- From s to t only port p changes. -/
def OnlyPort (s t : State) (p : PortId) : Prop := OnlyPorts s t ∧ ∀ q : Nat, q ≠ p.val → t.port q = s.port q

/-- Two such changes in a row are one. -/
theorem OnlyPort.trans {s t u : State} {p : PortId} (h : OnlyPort s t p) (h' : OnlyPort t u p) : OnlyPort s u p :=
  ⟨h.1.trans h'.1, fun q hq => (h'.2 q hq).trans (h.2 q hq)⟩

/-- A port changed. -/
theorem modPort_onlyPort (s : State) (p : PortId) (f : Port → Port) : OnlyPort s (s.modPort p.val f) p :=
  ⟨rfl, fun q hq => by rw [State.port_modPort, if_neg hq]⟩

/-- A change of one port leaves memory and what waits to be sent and performed. -/
theorem OnlyPort.rest {s t : State} {p : PortId} (h : OnlyPort s t p) : t.mem = s.mem ∧ t.tx = s.tx ∧ t.arrived = s.arrived := by
  obtain ⟨hstate, -⟩ := h
  unfold OnlyPorts at hstate
  rw [hstate]
  exact ⟨rfl, rfl, rfl⟩

/-! ### What the operations of a port leave of it -/

section
variable (s : State) (p : PortId) (path : Path)

/-- A confirmed INIT is marked in the path's link layer (R64). -/
theorem port_confirmInit : (confirmInit s p path).port p.val =
    (s.port p.val).setLink path { (s.port p.val).link path with confirmed := true } := by
  simp [confirmInit, Port.modLink]

@[simp] theorem confirmInit_cclk : (confirmInit s p path).cclk = s.cclk := rfl
@[simp] theorem tryActive_cclk : (tryActive s p path).cclk = s.cclk := rfl
@[simp] theorem takeTrailer_cclk (t : Trailer) : (takeTrailer s p path t).cclk = s.cclk := rfl
@[simp] theorem heard_cclk : (heard s p path).cclk = s.cclk := rfl
@[simp] theorem countPort_cclk (i : Nat) : (countPort s p i).cclk = s.cclk := rfl
@[simp] theorem takeTrailer_mast (t : Trailer) : (takeTrailer s p path t).mast = s.mast := rfl
@[simp] theorem tryActive_mast : (tryActive s p path).mast = s.mast := rfl
@[simp] theorem confirmInit_mast : (confirmInit s p path).mast = s.mast := rfl

/-- On an initialised path nothing more is initialised (R64). -/
theorem port_tryActive_of_initDone (h : ((s.port p.val).link path).initDone = true) :
    (tryActive s p path).port p.val = s.port p.val := by
  simp [tryActive, h]

/-- The trailer's acknowledgement and credits are taken (R70). -/
theorem port_takeTrailer (t : Trailer) : (takeTrailer s p path t).port p.val =
    (s.port p.val).setLink path (Link.take s.cclk t ((s.port p.val).link path)) := by
  simp [takeTrailer, Port.modLink]

/-- The port as it has heard its partner on a path (R66, R92, R364). -/
def heardPort (x : Port) : Port :=
  match path with
  | .main => { x with lastHeard := s.mast.beats, silentSeen := false, lastFlit := s.mast.beats }
  | .side => { x with lastHeard := s.mast.beats, silentSeen := false, lastSb := s.cclk }

/-- A partner heard is noted at its port. -/
theorem port_heard : (heard s p path).port p.val = heardPort s path (s.port p.val) := by
  cases path <;> simp [heard, heardPort]

@[simp] theorem heardPort_st (x : Port) : (heardPort s path x).st = x.st := by cases path <;> rfl
@[simp] theorem heardPort_vc3Total (x : Port) : (heardPort s path x).vc3Total = x.vc3Total := by cases path <;> rfl
@[simp] theorem heardPort_counts (x : Port) : (heardPort s path x).counts = x.counts := by cases path <;> rfl
@[simp] theorem heardPort_link (x : Port) (w : Path) : (heardPort s path x).link w = x.link w := by cases path <;> cases w <;> rfl

/-- A port whose error counter i has counted one more (R86). -/
def Port.counted (x : Port) (i : Nat) : Port := { x with counts := x.counts.add i 1 }

@[simp] theorem Port.counted_counts (x : Port) (i : Nat) : (x.counted i).counts = x.counts.add i 1 := rfl
@[simp] theorem Port.counted_link (x : Port) (i : Nat) : (x.counted i).link path = x.link path := by cases path <;> rfl

/-- A counter of the port steps by one (R86). -/
theorem port_countPort (i : Nat) : (countPort s p i).port p.val = (s.port p.val).counted i := by
  simp [countPort, Port.counted]

end

/-- Counter 2 of a port is its duplicates (Table 4-10). -/
@[simp] theorem PortCounts.add_dup (k : PortCounts) : (k.add 2 1).dup = k.dup + 1 := by
  show (if decide (2 ^ 32 ≤ k.dup.toNat + 1) then { k with wrap := setBit k.wrap 2, newWrap := setBit k.newWrap 2 } else k).dup + 1 = _
  split <;> rfl

/-- Counter 4 of a port is the NAKs it received (Table 4-10). -/
@[simp] theorem PortCounts.add_nakRx (k : PortCounts) : (k.add 4 1).nakRx = k.nakRx + 1 := by
  show (if decide (2 ^ 32 ≤ k.nakRx.toNat + 1) then { k with wrap := setBit k.wrap 4, newWrap := setBit k.newWrap 4 } else k).nakRx + 1 = _
  split <;> rfl

/-- Counter 6 of a port is its replays by the timer (Table 4-10). -/
@[simp] theorem PortCounts.add_timerReplay (k : PortCounts) : (k.add 6 1).timerReplay = k.timerReplay + 1 := by
  show (if decide (2 ^ 32 ≤ k.timerReplay.toNat + 1) then { k with wrap := setBit k.wrap 6, newWrap := setBit k.newWrap 6 } else k).timerReplay + 1 = _
  split <;> rfl

end Sys2Proof.Machine
end

section
/-!
SUPPORT. What a port receives (R64, R65, R67, R70, R72, R79, R80): INIT, NOP, NAK and MSG flits, and O37.
-/
namespace Sys2Proof.Machine

open Sys2Proof.Stated

/-! ### INIT (R64, R65) -/

/-- The mainband as the first INIT of a training leaves it: credits from its counts, sequences and the retry buffer at zero (R65). -/
def begunPort (x : Port) (credits : List Nat) (total : Nat) : Port :=
  { x with
    main := { x.main with
      gotInit := true, credits := credits, txSeq := 0, expect := 0, retry := [], resend := 0, replays := 0
      freedTx := [0, 0, 0, 0], freedRx := [0, 0, 0, 0] }
    vc3Total := total }

/-- The die whose port has taken the first INIT of a training and marked what its ECHO confirms. -/
def afterInit (s : State) (p : PortId) (credits : List Nat) (total : Nat) (echo : Bool) : State :=
  let u := heard (s.modPort p.val (fun x => begunPort x credits total)) p .main
  if echo then confirmInit u p .main else u

/-- The port that has taken the first INIT of a training. -/
theorem port_afterInit (s : State) (p : PortId) (credits : List Nat) (total : Nat) (echo : Bool) :
    let x := s.port p.val
    let y := heardPort s .main (begunPort x credits total)
    (afterInit s p credits total echo).port p.val = { y with main := { y.main with confirmed := echo || x.main.confirmed } } := by
  cases echo <;> simp [afterInit, port_confirmInit, port_heard, heardPort, begunPort, Port.setLink, Port.link]

/-- A mainband that trains and has an INIT enters ACTIVE once one of its own is confirmed, and else trains on (R64). -/
theorem main_tryActive {s : State} {p : PortId} (hst : (s.port p.val).st = .training) (hgot : (s.port p.val).main.gotInit = true)
    (hinit : (s.port p.val).main.initDone = false) :
    let x := s.port p.val
    let y := (tryActive s p .main).port p.val
    y.main.gotInit = true ∧ y.main.txSeq = x.main.txSeq ∧ y.main.expect = x.main.expect ∧ y.main.retry = x.main.retry ∧
    y.main.credits = x.main.credits ∧ y.vc3Total = x.vc3Total ∧ y.st = if x.main.confirmed then .active else .training := by
  cases hc : (s.port p.val).main.confirmed <;> simp [tryActive, Port.link, Port.setLink, hst, hgot, hinit, hc]

/-- INIT_RECEIVE on a mainband that trains and has had no INIT yet (R64, R65). -/
theorem exec_initReceive_first {s : State} {p : PortId} (h : Powered s) (hst : (s.port p.val).st = .training)
    (hgot : (s.port p.val).main.gotInit = false) (counts : Word) (echo : Bool) :
    exec (.initReceive p .main counts echo) s = .next (tryActive (afterInit s p
      [(field counts 0 16).toNat, (field counts 16 16).toNat, (field counts 32 16).toNat,
        if (s.port p.val).vc3Side then 0 else (field counts 48 16).toNat] (field counts 48 16).toNat echo) p .main) := by
  rw [show exec (.initReceive p .main counts echo) s = execInitReceive p .main counts echo s from rfl, execInitReceive,
    awake_of_Powered h]
  dsimp only
  rw [if_neg (by simp [hst]), if_neg (c := ((s.port p.val).link .main).gotInit = true) (by simp [Port.link, hgot])]
  rfl

/-- The first INIT of a training sets credits and sequences, and with ECHO enters ACTIVE (R64, R65). -/
theorem firstInit_leaves {s : State} {p : PortId} (hst : (s.port p.val).st = .training) (hinit : (s.port p.val).main.initDone = false)
    (credits : List Nat) (total : Nat) (echo : Bool) :
    let y := (tryActive (afterInit s p credits total echo) p .main).port p.val
    y.main.gotInit = true ∧ y.main.txSeq = 0 ∧ y.main.expect = 0 ∧ y.main.retry = [] ∧ y.main.credits = credits ∧
    y.vc3Total = total ∧ y.st = (if echo || (s.port p.val).main.confirmed then .active else .training) := by
  have hport := port_afterInit s p credits total echo
  have hleaves := main_tryActive (s := afterInit s p credits total echo) (p := p) (by rw [hport]; exact hst) (by rw [hport]; rfl)
    (by rw [hport]; exact hinit)
  rw [hport] at hleaves
  exact hleaves

/-- INIT_RESEND on a path that initialises: an INIT every 64 CCLK (R64, R85). -/
theorem exec_initResend {s : State} {p : PortId} {path : Path} (h : Powered s) {t : Nat}
    (hlast : ((s.port p.val).link path).lastInit = some t) (hinit : ((s.port p.val).link path).initDone = false)
    (hst : (s.port p.val).st = .training) (hsb : (s.port p.val).sbUp = true) :
    exec (.initResend p path) s = .next (if t + 64 ≤ s.cclk then putInit s p path else s) := by
  rw [show exec (.initResend p path) s = execInitResend p path s from rfl, execInitResend, awake_of_Powered h]
  simp only [hlast]
  cases path <;> simp [hinit, hst, hsb]

/-! ### NOP and NAK (R70, R79, R80) -/

section
variable {s : State} {p : PortId} {path : Path} (h : Powered s) (hcarries : (s.port p.val).carries path = true)
  (hinit : ((s.port p.val).link path).initDone = true)

/-- The port of an initialised path after a flit has confirmed its INIT (R64). -/
theorem port_confirmed (hinit : ((s.port p.val).link path).initDone = true) : (tryActive (confirmInit s p path) p path).port p.val =
    (s.port p.val).setLink path { (s.port p.val).link path with confirmed := true } := by
  rw [port_tryActive_of_initDone, port_confirmInit]
  rw [port_confirmInit, Port.link_setLink]
  exact hinit

include hcarries hinit in
/-- A path still carries flits once its INIT is confirmed again. -/
theorem carries_confirmed : ((tryActive (confirmInit s p path) p path).port p.val).carries path = true := by
  rw [port_confirmed hinit, Port.carries_setLink, hcarries]
  rfl

include h hcarries hinit

/-- NOP_RECEIVE takes the trailer, and the partner was heard (R65, R70). -/
theorem exec_nopReceive (tr : Trailer) : exec (.nopReceive p path tr) s =
    .next (heard (takeTrailer (tryActive (confirmInit s p path) p path) p path tr) p path) := by
  rw [show exec (.nopReceive p path tr) s = execNopReceive p path tr s from rfl, execNopReceive, awake_of_Powered h]
  dsimp only
  rw [if_neg (by simp [carries_confirmed hcarries hinit])]

/-- NAK_RECEIVE also counts it and replays from its SEQ (R80). -/
theorem exec_nakReceive (q : BitVec 10) (tr : Trailer) : exec (.nakReceive p path q tr) s =
    let t := countPort (heard (takeTrailer (tryActive (confirmInit s p path) p path) p path tr) p path) p 4
    .next (t.modPort p.val (fun x => x.modLink path (fun l => l.replay t.cclk (l.fromSeq q) path))) := by
  rw [show exec (.nakReceive p path q tr) s = execNakReceive p path q tr s from rfl, execNakReceive, awake_of_Powered h]
  dsimp only
  rw [if_neg (by simp [carries_confirmed hcarries hinit])]

end

/-- The port of an initialised path after a confirming flit's trailer. -/
theorem port_confirmed_trailer {s : State} {p : PortId} {path : Path} (hinit : ((s.port p.val).link path).initDone = true) (tr : Trailer) :
    (takeTrailer (tryActive (confirmInit s p path) p path) p path tr).port p.val =
    (s.port p.val).setLink path (Link.take s.cclk tr { (s.port p.val).link path with confirmed := true }) := by
  rw [port_takeTrailer, port_confirmed hinit, Port.link_setLink, Port.setLink_setLink, tryActive_cclk, confirmInit_cclk]

/-- Such a trailer changes its port only. -/
theorem confirmed_trailer_onlyPort (s : State) (p : PortId) (path : Path) (tr : Trailer) :
    OnlyPort s (takeTrailer (tryActive (confirmInit s p path) p path) p path tr) p :=
  ((modPort_onlyPort s p _).trans (modPort_onlyPort _ p _)).trans (modPort_onlyPort _ p _)

/-! ### MSG flits (R67, R72, R79) -/

section
variable {s : State} {p : PortId} {path : Path} (h : Powered s) (hcarries : (s.port p.val).carries path = true)
  {f : Flit} (hlen : f.payload.length = 224)

include h hcarries hlen

/-- A flit with a bad CRC is counted and NAKed (R79). -/
theorem exec_msgFlitReceive_bad (hbad : f.good = false) :
    exec (.msgFlitReceive p path f) s = .next (sendNak (countPort s p 0) p path) := by
  rw [show exec (.msgFlitReceive p path f) s = execMsgFlitReceive p path f s from rfl, execMsgFlitReceive, if_neg (by simp [hlen]),
    awake_of_Powered h]
  simp [hbad, hcarries]

/-- A good flit of a reserved FTYPE gives its trailer and is logged (R67). -/
theorem exec_msgFlitReceive_reserved (hgood : f.good = true) (htype : 4 ≤ f.ftype.toNat) :
    exec (.msgFlitReceive p path f) s = .next (protocolError (takeTrailer s p path f.trailer) p f.colour f.src) := by
  rw [show exec (.msgFlitReceive p path f) s = execMsgFlitReceive p path f s from rfl, execMsgFlitReceive, if_neg (by simp [hlen]),
    awake_of_Powered h]
  have h3 : f.ftype ≠ 3 := by rintro h3; simp [h3] at htype
  have hkind : ¬ f.ftype.toNat ≤ 2 := by omega
  obtain ⟨n, hn⟩ : ∃ n, f.ftype.toNat = n + 4 := ⟨f.ftype.toNat - 4, by omega⟩
  simp only [hgood, hkind, hcarries, h3, decide_false, Bool.and_false, Bool.not_true, Bool.false_eq_true, if_false]
  rw [hn]
  rfl

/-- A good MSG flit is judged by its sequence, once its trailer is taken (R64, R70, R79). -/
theorem exec_msgFlitReceive_msg (hinit : ((s.port p.val).link path).initDone = true) (hgood : f.good = true) (htype : f.ftype = 1) :
    exec (.msgFlitReceive p path f) s =
      .next (sequenced (takeTrailer (tryActive (confirmInit s p path) p path) p path f.trailer) p path f) := by
  rw [show exec (.msgFlitReceive p path f) s = execMsgFlitReceive p path f s from rfl, execMsgFlitReceive, if_neg (by simp [hlen]),
    awake_of_Powered h]
  simp [hgood, htype, carries_confirmed hcarries hinit]

end

section
variable {s : State} {p : PortId} {path : Path} {f : Flit}

/-- A duplicate is counted and owed an acknowledgement again (R79). -/
theorem sequenced_duplicate (h0 : (((s.port p.val).link path).expect - f.seq).toNat ≠ 0)
    (hback : (((s.port p.val).link path).expect - f.seq).toNat ≤ 256) :
    sequenced s p path f = countPort (s.modPort p.val (fun x => x.modLink path (fun l => { l with ackDue := true }))) p 2 := by
  have hne : f.seq ≠ ((s.port p.val).link path).expect := by
    rintro heq
    simp [heq] at h0
  simp only [sequenced]
  rw [if_neg hne, if_pos hback]

/-- A flit neither expected nor a duplicate is counted and NAKed (R79). -/
theorem sequenced_gap (hback : 256 < (((s.port p.val).link path).expect - f.seq).toNat) :
    sequenced s p path f = sendNak (countPort s p 1) p path := by
  have hne : f.seq ≠ ((s.port p.val).link path).expect := by
    rintro heq
    simp [heq] at hback
  simp only [sequenced]
  rw [if_neg hne, if_neg (by omega)]

/-- The expected flit is taken where a receive buffer is free (R72, R79). -/
theorem sequenced_expected (heq : f.seq = ((s.port p.val).link path).expect)
    (hroom : natAt (s.port p.val).rxHeld f.vc.toNat < natAt (bufferCounts path) f.vc.toNat) :
    sequenced s p path f = takeFlit (heard (s.setPort p.val
      { ((s.port p.val).modLink path (fun l => { l with expect := l.expect + 1, ackDue := true })) with
        rxHeld := setAt (s.port p.val).rxHeld f.vc.toNat (natAt (s.port p.val).rxHeld f.vc.toNat + 1) }) p path) p path f := by
  simp only [sequenced]
  rw [if_pos heq, if_neg (by omega)]

end

/-- A payload that is not of 224 bytes is no flit (R66). -/
theorem exec_msgFlitReceive_wrongLength (s : State) (p : PortId) (path : Path) {f : Flit} (hlen : f.payload.length ≠ 224) :
    exec (.msgFlitReceive p path f) s = .fault (.illFormed "MSG_FLIT_RECEIVE") := by
  rw [show exec (.msgFlitReceive p path f) s = execMsgFlitReceive p path f s from rfl, execMsgFlitReceive, if_pos hlen]

/-- A duplicate leaves the message waiting here and the expected sequence as they were (R79). -/
theorem duplicate_leaves (s : State) (p : PortId) (path : Path) :
    let t := countPort (s.modPort p.val (fun x => x.modLink path (fun l => { l with ackDue := true }))) p 2
    (t.port p.val).counts.dup = (s.port p.val).counts.dup + 1 ∧ t.arrived = s.arrived ∧ t.tx = s.tx ∧
    ((t.port p.val).link path).expect = ((s.port p.val).link path).expect := by
  obtain ⟨-, htx, harrived⟩ := ((modPort_onlyPort s p fun x => x.modLink path fun l => { l with ackDue := true }).trans
    (modPort_onlyPort _ p fun x => x.counted 2)).rest
  refine ⟨?_, harrived, htx, ?_⟩ <;> simp [port_countPort, Port.modLink]

/-- Settles O37: each flit by what it leaves of the port that received it. -/
theorem linkLayerReceives : Obligations.LinkLayerReceives := by
  unfold Obligations.LinkLayerReceives
  intro s p path h x l
  refine ⟨fun hst hgot hinit counts echo => ?_, fun hcarries hinit => ?_, fun f hlen => ?_, fun t hlast hinit hst hsb => ?_⟩
  · exact ⟨_, exec_initReceive_first h hst hgot counts echo, firstInit_leaves hst hinit _ _ echo⟩
  · refine ⟨fun tr => ⟨_, exec_nopReceive h hcarries hinit tr, ?_⟩, fun tr q => ⟨_, exec_nakReceive h hcarries hinit q tr, ?_⟩,
      fun f hlen => ⟨fun hbad => ?_, fun hgood htype => ?_, fun hgood htype => ?_⟩⟩
    · obtain ⟨hmem, htx, -⟩ := ((confirmed_trailer_onlyPort s p path tr).trans (modPort_onlyPort _ p _)).rest
      refine ⟨?_, hmem, htx⟩
      rw [port_heard, port_confirmed_trailer hinit]
      rfl
    · simp [port_countPort, port_heard, port_confirmed_trailer hinit, Port.modLink, x, l]
    · exact exec_msgFlitReceive_bad h hcarries hlen hbad
    · exact exec_msgFlitReceive_reserved h hcarries hlen hgood htype
    · have hport := port_confirmed_trailer (p := p) hinit f.trailer
      have honly := confirmed_trailer_onlyPort s p path f.trailer
      rw [exec_msgFlitReceive_msg h hcarries hlen hinit hgood htype]
      generalize takeTrailer (tryActive (confirmInit s p path) p path) p path f.trailer = u at hport honly ⊢
      have hexpect : ((u.port p.val).link path).expect = l.expect := by simp [hport, l, x]
      have hheld : (u.port p.val).rxHeld = x.rxHeld := by simp [hport, x]
      have hcounts : (u.port p.val).counts = x.counts := by simp [hport, x]
      obtain ⟨-, htx, harrived⟩ := honly.rest
      obtain ⟨hstate, hothers⟩ := honly
      refine ⟨u, hport, hothers, hstate, fun ⟨h0, hback⟩ => ?_, fun hback => ?_, fun heq hroom => ?_⟩
      · rw [← hexpect] at h0 hback
        rw [sequenced_duplicate h0 hback, ← hcounts, ← hexpect, ← htx, ← harrived]
        exact ⟨_, rfl, duplicate_leaves u p path⟩
      · rw [← hexpect] at hback
        rw [sequenced_gap hback]
      · rw [← hexpect] at heq
        rw [← hheld] at hroom ⊢
        rw [sequenced_expected heq hroom]
  · exact exec_msgFlitReceive_wrongLength s p path hlen
  · exact exec_initResend h hlast hinit hst hsb

end Sys2Proof.Machine
end

section
/-!
SUPPORT. What a port sends (R69, R72, R75, R79, R80, R84, R92): replays, NOPs, a lone message, VC3's path, and O38.
-/
namespace Sys2Proof.Machine

open Sys2Proof.Stated

/-! ### Timers and NOPs (R72, R80, R92) -/

section
variable {s : State} {p : PortId} {path : Path} (h : Powered s) (hcarries : (s.port p.val).carries path = true)

/-- A replay of the whole retry buffer (R80). -/
theorem Link.replay_whole {l : Link} (now : Nat) (path : Path) (hretry : l.retry ≠ []) (hfew : l.replays < 16) :
    l.replay now l.retry.length path = { l with replays := l.replays + 1, resend := l.retry.length, lastProgress := now } := by
  have hlen : l.retry.length ≠ 0 := by simpa using hretry
  unfold Link.replay
  rw [if_neg (by simp [hlen]; omega), if_neg (by omega)]

include h hcarries

/-- REPLAY_TIMER that is due replays the retry buffer and counts it (R80). -/
theorem exec_replayTimer_due (hretry : ((s.port p.val).link path).retry ≠ []) (hfew : ((s.port p.val).link path).replays < 16)
    (hdue : ((s.port p.val).link path).lastProgress + 512 ≤ s.cclk) : exec (.replayTimer p path) s = .next
      (countPort (s.modPort p.val (fun x => x.modLink path (fun l => l.replay s.cclk l.retry.length path))) p 6) := by
  rw [show exec (.replayTimer p path) s = execReplayTimer p path s from rfl, execReplayTimer, awake_of_Powered h]
  dsimp only
  rw [if_neg (by simp [hcarries, hretry]; omega), if_neg]
  simp [Link.replay_whole _ _ hretry hfew]
  omega

omit hcarries in
/-- REPLAY_TIMER that is not due does nothing (R80). -/
theorem exec_replayTimer_not_due (hn : ((s.port p.val).link path).retry = [] ∨ s.cclk < ((s.port p.val).link path).lastProgress + 512) :
    exec (.replayTimer p path) s = .next s := by
  rw [show exec (.replayTimer p path) s = execReplayTimer p path s from rfl, execReplayTimer, awake_of_Powered h]
  dsimp only
  rw [if_pos]
  simp only [Bool.or_eq_true, List.isEmpty_iff, decide_eq_true_eq]
  tauto

/-- ACK_TRAILER_DUE sends a NOP where something is owed (R72, R80). -/
theorem exec_ackTrailerDue : exec (.ackTrailerDue p path) s =
    .next (if ((s.port p.val).link path).ackDue || ((s.port p.val).link path).freeDue then putNop s p path else s) := by
  rw [show exec (.ackTrailerDue p path) s = execAckTrailerDue p path s from rfl, execAckTrailerDue, awake_of_Powered h]
  simp only [hcarries, Bool.true_and]

end

/-- IDLE_NOP sends a NOP where nothing was sent for 1,024 CCLK (R92). -/
theorem exec_idleNop {s : State} {p : PortId} (h : Powered s) (hcarries : (s.port p.val).carries .main = true) :
    exec (.idleNop p) s = .next (if (s.port p.val).main.lastSent + 1024 ≤ s.cclk then putNop s p .main else s) := by
  rw [show exec (.idleNop p) s = execIdleNop p s from rfl, execIdleNop, awake_of_Powered h]
  simp [hcarries]

/-! ### What leaves next (R69, R75, R301) -/

section
variable {s : State} {p : PortId} {path : Path}

/-- Where nothing waits no VC has a head. -/
theorem heads_of_tx_nil (htx : s.tx = []) (vc : Nat) : s.heads p path vc = [] := by
  simp [State.heads, htx]

/-- Without a head no VC is served. -/
theorem served_nil (vc : Nat) : s.served p vc [] = none := by
  simp [State.served, sortBy]

/-- A VC without a head sends nothing. -/
theorem nextOn_of_heads_nil {vc : Nat} (h : s.heads p path vc = []) : s.nextOn p path vc = none := by
  simp [State.nextOn, h, served_nil]

/-- Where nothing waits nothing is picked. -/
theorem pick_of_tx_nil (htx : s.tx = []) : s.pick p path = none := by
  simp [State.pick, nextOn_of_heads_nil (heads_of_tx_nil htx _)]

/-- Where nothing waits no wait is counted. -/
theorem countStarved_of_tx_nil (htx : s.tx = []) : countStarved s p path = s := by
  simp [countStarved, heads_of_tx_nil htx]

end

section
variable {s : State} {p : PortId} {path : Path} (h : Powered s) (hcarries : (s.port p.val).carries path = true)
  (hfew : ((s.port p.val).link path).replays < 17)

include h hcarries hfew

/-- A due replay leaves first (R80). -/
theorem exec_flitTransmit_replay {f : Flit} (hdue : 0 < ((s.port p.val).link path).resend)
    (hf : ((s.port p.val).link path).retry[((s.port p.val).link path).retry.length - ((s.port p.val).link path).resend]? = some f) :
    exec (.flitTransmit p path) s = .next (putFlit (countPort (s.setPort p.val ((s.port p.val).setLink path
      { (s.port p.val).link path with resend := ((s.port p.val).link path).resend - 1 })) p 5) p path f) := by
  rw [show exec (.flitTransmit p path) s = execFlitTransmit p path s from rfl, execFlitTransmit, awake_of_Powered h]
  dsimp only
  rw [if_neg (by simp [hcarries]; omega), if_pos (by omega), hf]

/-- With no replay due and nothing picked only the waits are counted (R75, R297). -/
theorem exec_flitTransmit_idle (hnone : ((s.port p.val).link path).resend = 0) (hpick : (countStarved s p path).pick p path = none) :
    exec (.flitTransmit p path) s = .next (if 256 ≤ ((s.port p.val).link path).retry.length then s else countStarved s p path) := by
  rw [show exec (.flitTransmit p path) s = execFlitTransmit p path s from rfl, execFlitTransmit, awake_of_Powered h]
  dsimp only
  rw [if_neg (by simp [hcarries]; omega), if_neg (by omega), hpick]

/-- With no replay due and room in the retry buffer, what is picked leaves (R75, R80). -/
theorem exec_flitTransmit_picked {vc : Nat} {t : TxMsg} (hnone : ((s.port p.val).link path).resend = 0)
    (hroom : ((s.port p.val).link path).retry.length < 256) (hcount : countStarved s p path = s) (hpick : s.pick p path = some (vc, t)) :
    exec (.flitTransmit p path) s = .next (sendItem
      (s.modPort p.val (fun x => x.servedVc vc (s.classAt p t.msg.colour) t.msg.colour t.starts s.skovi.weights)) p path vc t) := by
  rw [show exec (.flitTransmit p path) s = execFlitTransmit p path s from rfl, execFlitTransmit, awake_of_Powered h]
  dsimp only
  rw [if_neg (by simp [hcarries]; omega), if_neg (by omega), if_neg (by omega), hcount, hpick]

end

/-! ### A lone message of this die (R66, R69, R72) -/

/-- The first element with a value, where one element only has a value. -/
theorem findSome?_eq_of_only {α β : Type} {f : α → Option β} {a : α} {b : β} (ha : f a = some b) (hrest : ∀ c, c ≠ a → f c = none) :
    ∀ l : List α, a ∈ l → l.findSome? f = some b
  | c :: l, hmem => by
    by_cases hc : c = a
    · simp [hc, ha]
    · rw [List.findSome?_cons, hrest c hc]
      exact findSome?_eq_of_only ha hrest l ((List.mem_cons.mp hmem).resolve_left (Ne.symm hc))

/-- VC0 is tried in every turn (R75). -/
theorem zero_mem_vcOrder (x : Port) : 0 ∈ x.vcOrder := by
  rw [Port.vcOrder]
  split <;> simp

/-- A message of this die none of whose flits has left, bound for port p. -/
def ready (m : Msg) (p : PortId) : TxMsg := { msg := m, port := some p }

@[simp] theorem ready_msg (m : Msg) (p : PortId) : (ready m p).msg = m := rfl
@[simp] theorem ready_fwd (m : Msg) (p : PortId) : (ready m p).fwd = none := rfl
@[simp] theorem ready_sent (m : Msg) (p : PortId) : (ready m p).sent = 0 := rfl

section
variable {s : State} {p : PortId} {m : Msg} (htx : s.tx = [ready m p]) (hvc : vcOf m.op = 0) (hcolour : m.colour = 0)

include hcolour in
/-- A message of colour 0 waits for no tokens (R297). -/
theorem not_starved_ready : s.starved p (ready m p) = false := by
  simp [State.starved, TxMsg.budgeted, ready, hcolour]

include htx hvc

/-- A lone message on VC0 is the head of VC0. -/
theorem heads_ready (hopen : Table.get 0 (s.port p.val).fwdOpen 0 = 0) : s.heads p .main 0 = [ready m p] := by
  simp [State.heads, htx, ready, TxMsg.vc, State.outPort, TxMsg.begun, pathNat, hvc, hopen]

/-- A lone message on VC0 is the head of no other VC. -/
theorem heads_ready_other {vc : Nat} (h : vc ≠ 0) : s.heads p .main vc = [] := by
  simp [State.heads, htx, ready, TxMsg.vc, hvc, h.symm]

include hcolour

/-- A lone message of colour 0 meets no wait. -/
theorem countStarved_ready (hopen : Table.get 0 (s.port p.val).fwdOpen 0 = 0) : countStarved s p .main = s := by
  simp [countStarved, heads_ready htx hvc hopen, heads_ready_other htx hvc, not_starved_ready hcolour]

omit htx hvc in
/-- A lone head of colour 0 is served (R301). -/
theorem served_ready : s.served p 0 [ready m p] = some (ready m p) := by
  have hfilter : [ready m p].filter (fun t => !s.starved p t) = [ready m p] := by simp [not_starved_ready hcolour]
  have hfind : [ready m p].find? (fun t => t.msg.colour == 0) = some (ready m p) := by simp [ready, hcolour]
  rw [State.served]
  dsimp only
  rw [hfilter, if_neg (by simp), hfind]

/-- A lone message of colour 0 on an open VC0 is picked (R75). -/
theorem pick_ready (hopen : Table.get 0 (s.port p.val).fwdOpen 0 = 0) (hvcOpen : s.vcOpen p .main 0 = true) :
    s.pick p .main = some (0, ready m p) := by
  refine findSome?_eq_of_only ?_ ?_ _ (zero_mem_vcOrder _)
  · simp [State.nextOn, hvcOpen, heads_ready htx hvc hopen, served_ready hcolour]
  · intro vc h
    simp [nextOn_of_heads_nil (heads_ready_other htx hvc h)]

end

/-- The arbiter's records leave the mainband's link layer. -/
@[simp] theorem Port.servedVc_main (x : Port) (vc cls : Nat) (colour : BitVec 4) (start : Bool) (weights : List (BitVec 4)) :
    (x.servedVc vc cls colour start weights).main = x.main := by
  simp [Port.servedVc, apply_ite Port.main]

/-- A flit that leaves takes the owed acknowledgements and frees of its path with it (R70, R72). -/
theorem port_putFlit (s : State) (p : PortId) (path : Path) (f : Flit) : (putFlit s p path f).port p.val =
    (s.port p.val).modLink path (fun l => { l with lastSent := s.cclk, ackDue := false, freeDue := false }) :=
  State.port_setPort_same s p.val _

/-- A MSG flit that leaves takes a credit and a sequence number and is kept for replay (R72, R79, R80). -/
theorem link_sendFlit (s : State) (p : PortId) (path : Path) (vc : Nat) (f : Flit) :
    let l := (s.port p.val).link path
    let l' := ((sendFlit s p path vc f).port p.val).link path
    l'.txSeq = l.txSeq + 1 ∧ l'.retry = l.retry ++ [{ f with seq := l.txSeq }] ∧ l'.credits = setAt l.credits vc (natAt l.credits vc - 1) := by
  simp [sendFlit, port_putFlit]

/-- A message of one flit takes one flit (R66). -/
theorem flitCount_of_le {n : Nat} (h : n ≤ 224) : flitCount n = 1 := by
  have : ceilDiv n 224 ≤ 1 := by simp only [ceilDiv]; omega
  exact Nat.max_eq_left this

/-- A MSG flit that leaves is no more than its flit: the queue stays as it is. -/
theorem tx_sendFlit (s : State) (p : PortId) (path : Path) (vc : Nat) (f : Flit) : (sendFlit s p path vc f).tx = s.tx := rfl

/-- The only flit of a lone message of colour 0 leaves as any flit does, and the message leaves the queue (R66, R69). -/
theorem sendItem_ready {s : State} {p : PortId} {m : Msg} (htx : s.tx = [ready m p]) (hcolour : m.colour = 0) (hlen : m.data.length ≤ 224) :
    ∃ u : State, u.tx = [] ∧ u.port p.val = s.port p.val ∧ sendItem s p .main 0 (ready m p) = sendFlit u p .main 0 (m.flit 0 0 0) := by
  have hbudget : (ready m p).budgeted = false := by simp [TxMsg.budgeted, hcolour]
  have hdone : (0 + 1 == flitCount m.data.length) = true := by simp [flitCount_of_le hlen]
  have herase : eraseOnce (ready m p) s.tx = [] := by simp [eraseOnce, removeFirst, htx]
  refine ⟨{ s with
    tx := []
    reqs := s.reqs.map (fun q => if isRequest m.op && q.tag == m.tag && q.die == m.dst then { q with port := some p, sentAt := some (q.sentAt.getD s.cclk) } else q) },
    rfl, rfl, ?_⟩
  simp only [sendItem, ready_fwd, ready_msg, ready_sent, hbudget, hdone, herase, Bool.false_eq_true, if_false, if_true]
  rfl

/-- FLIT_TRANSMIT of a lone message of one flit on VC0: it leaves the queue, takes a credit and a sequence number and is kept for
replay (R66, R69, R72, R75, R79, R80). -/
theorem exec_flitTransmit_ready {s : State} {p : PortId} {m : Msg} (h : Powered s) (htx : s.tx = [ready m p]) (hvc : vcOf m.op = 0)
    (hcolour : m.colour = 0) (hlen : m.data.length ≤ 224) (hcarries : (s.port p.val).carries .main = true)
    (hfew : (s.port p.val).main.replays < 17) (hnone : (s.port p.val).main.resend = 0) (hroom : (s.port p.val).main.retry.length < 256)
    (hopen : Table.get 0 (s.port p.val).fwdOpen 0 = 0) (hvcOpen : s.vcOpen p .main 0 = true) :
    ∃ t, exec (.flitTransmit p .main) s = .next t ∧ t.tx = [] ∧ (t.port p.val).main.txSeq = (s.port p.val).main.txSeq + 1 ∧
      (t.port p.val).main.retry = (s.port p.val).main.retry ++ [{ (m.flit 0 0 0) with seq := (s.port p.val).main.txSeq }] ∧
      (t.port p.val).main.credits = setAt (s.port p.val).main.credits 0 (natAt (s.port p.val).main.credits 0 - 1) := by
  refine ⟨_, exec_flitTransmit_picked h hcarries hfew hnone hroom (countStarved_ready htx hvc hcolour hopen)
    (pick_ready htx hvc hcolour hopen hvcOpen), ?_⟩
  set u := s.modPort p.val (fun x => x.servedVc 0 (s.classAt p (ready m p).msg.colour) (ready m p).msg.colour (ready m p).starts s.skovi.weights) with hu
  have hmain : (u.port p.val).main = (s.port p.val).main := by simp [hu]
  obtain ⟨v, hvtx, hvport, hsend⟩ := sendItem_ready (s := u) (p := p) htx hcolour hlen
  have hlink := link_sendFlit v p .main 0 (m.flit 0 0 0)
  rw [hvport] at hlink
  rw [hsend, tx_sendFlit, ← hmain]
  exact ⟨hvtx, hlink⟩

/-! ### VC3's path and messages without a route (R77, R84, R85) -/

section
variable {s : State} (h : Powered s)

include h

/-- VC3_PATH_MOVE: VC3 stays on the path that it should use (R84). -/
theorem exec_vc3PathMove_stays {p : PortId} (hwants : (s.port p.val).wantsSide = (s.port p.val).vc3Side) :
    exec (.vc3PathMove p) s = .next s := by
  rw [show exec (.vc3PathMove p) s = execVc3PathMove p s from rfl, execVc3PathMove, awake_of_Powered h]
  simp [hwants]

/-- VC3_PATH_MOVE: VC3 goes back to an ACTIVE mainband with its credits (R84, R85). -/
theorem exec_vc3PathMove_back {p : PortId} (hside : (s.port p.val).vc3Side = true) (hst : (s.port p.val).st = .active) (htx : s.tx = [])
    (hopen : Table.get 0 (s.port p.val).fwdOpen 7 = 0) (hretry : (s.port p.val).side.retry = [])
    (hcredits : (s.port p.val).vc3Total ≤ natAt (s.port p.val).side.credits 3) (hinit : (s.port p.val).main.initDone = true) :
    exec (.vc3PathMove p) s = .next (s.setPort p.val { s.port p.val with
      vc3Side := false, side := { (s.port p.val).side with credits := setAt (s.port p.val).side.credits 3 0 }
      main := { (s.port p.val).main with credits := setAt (s.port p.val).main.credits 3 (natAt (s.port p.val).side.credits 3) } }) := by
  rw [show exec (.vc3PathMove p) s = execVc3PathMove p s from rfl, execVc3PathMove, awake_of_Powered h]
  simp [hside, hst, htx, hopen, hretry, hinit, Port.wantsSide, Port.link, Port.modLink, Port.setLink, pathNat, Nat.not_lt.mpr hcredits]

/-- QUEUED_MESSAGE_REROUTE does nothing where all that is queued has a route (R77). -/
theorem exec_queuedMessageReroute_routed (hrouted : ∀ y ∈ s.tx, y.port.isSome = true ∨ (s.outPort y).isSome = true) :
    exec .queuedMessageReroute s = .next s := by
  have hfind : s.tx.find? (fun t => t.port.isNone && (s.outPort t).isNone) = none := by
    rw [List.find?_eq_none]
    intro y hy
    rcases hrouted y hy with hp | hp <;> simp [Option.isSome_iff_ne_none.mp hp]
  rw [show exec .queuedMessageReroute s = execQueuedMessageReroute s from rfl, execQueuedMessageReroute, awake_of_Powered h]
  dsimp only
  rw [hfind]

/-- QUEUED_MESSAGE_REROUTE drops a request of this die without a route, which ends NO_ROUTE (R77, R87). -/
theorem exec_queuedMessageReroute_request {m : Msg} {rest : List TxMsg} {q : Req} (htx : s.tx = { msg := m, port := none } :: rest)
    (hout : s.outPort { msg := m, port := none } = none)
    (hreq : s.reqs.find? (fun r => isRequest m.op && r.tag == m.tag && r.die == m.dst) = some q) :
    exec .queuedMessageReroute s = .next (settle { s with tx := rest } q 1 []) := by
  have hfind : s.tx.find? (fun t => t.port.isNone && (s.outPort t).isNone) = some { msg := m, port := none } := by
    rw [htx, List.find?_cons_of_pos]
    simp [hout]
  rw [show exec .queuedMessageReroute s = execQueuedMessageReroute s from rfl, execQueuedMessageReroute, awake_of_Powered h]
  dsimp only
  rw [hfind]
  dsimp only
  rw [hreq, htx]
  simp [eraseOnce, removeFirst]

end

/-- Settles O38, by a lemma per event of a port's link layer. -/
theorem linkLayerSends : Obligations.LinkLayerSends := by
  unfold Obligations.LinkLayerSends
  intro s p path h x l
  refine ⟨fun hcarries => ⟨?_, exec_replayTimer_not_due h, ?_, ?_, fun f hfew => exec_flitTransmit_replay h hcarries hfew, ?_⟩,
    exec_idleNop h, ?_, exec_vc3PathMove_stays h, exec_vc3PathMove_back h, exec_queuedMessageReroute_routed h,
    fun m rest q => exec_queuedMessageReroute_request h⟩
  · intro hretry hfew hdue
    refine ⟨_, exec_replayTimer_due h hcarries hretry hfew hdue, ?_, ?_⟩
    · simp [port_countPort, Link.replay_whole s.cclk path hretry hfew, l, x]
    · simp [port_countPort, Port.modLink, x]
  · intro hdue
    rw [exec_ackTrailerDue h hcarries, if_pos (by simpa using hdue)]
  · intro hack hfree
    rw [exec_ackTrailerDue h hcarries, if_neg (by simp [hack, hfree, l, x])]
  · intro hfew hnone htx
    rw [exec_flitTransmit_idle h hcarries hfew hnone (by rw [countStarved_of_tx_nil htx, pick_of_tx_nil htx]), countStarved_of_tx_nil htx, ite_self]
  · intro m htx hvc hcolour hlen _ hcarries hfew hnone hroom hcredit hopen hfenced hid
    refine exec_flitTransmit_ready h htx hvc hcolour hlen hcarries hfew hnone hroom hopen ?_
    simp [State.vcOpen, Port.link, hfenced, hid, show 0 < natAt (s.port p.val).main.credits 0 from hcredit]
end Sys2Proof.Machine
end

section
/-!
SUPPORT. Responses, timeouts and CTRL flits (R68, R71, R88, R146, R272, R297), and O40.
-/
namespace Sys2Proof.Machine

open Sys2Proof.Stated

/-! ### Tokens (R295, R297) -/

/-- From s to t only the partitions' records change, their buckets among them. -/
def OnlyParts (s t : State) : Prop := t = { s with parts := t.parts }

/-- Two such changes in a row are one. -/
theorem OnlyParts.trans {s t u : State} (h : OnlyParts s t) (h' : OnlyParts t u) : OnlyParts s u := by
  unfold OnlyParts at *
  rw [h', h]

/-- A bucket changed. -/
theorem modBucket_onlyParts (s : State) (colour key : Nat) (g : Bucket → Bucket) : OnlyParts s (modBucket s colour key g) := rfl

/-- A list of such changes. -/
theorem foldl_onlyParts {α : Type} {f : State → α → State} (hf : ∀ s a, OnlyParts s (f s a)) : ∀ (l : List α) (s : State), OnlyParts s (l.foldl f s)
  | [], _ => rfl
  | a :: l, s => (hf s a).trans (foldl_onlyParts hf l (f s a))

/-- A start takes its tokens or counts its wait, and nothing else (R295, R297). -/
theorem qosStart_onlyParts (s : State) (colour : Nat) (costs : List (Nat × Nat)) : OnlyParts s (qosStart s colour costs).2 := by
  rw [qosStart]
  split
  · rfl
  · split
    · refine foldl_onlyParts (fun s a => ?_) _ _
      split
      · exact modBucket_onlyParts ..
      · rfl
    · exact foldl_onlyParts (fun s a => modBucket_onlyParts ..) _ _

/-! ### A response (R88, R146, R162, R297) -/

section
variable {s : State} {m : Msg}

/-- A late or unknown response is discarded, and frees its TAG (R88). -/
theorem response_unmatched (k : ReqKind → Bool) (harrived : s.arrived = []) (h : ∀ q ∈ s.reqs, q.tag ≠ m.tag) :
    response s m k = { s with late := s.late.filter (fun e => !(e.1 == m.tag && (e.2 == m.src || m.status == 1))) } := by
  have hnone : s.matching m k = none := by
    rw [State.matching, List.find?_eq_none]
    intro q hq
    simp [h q hq]
  rw [response, takeMsg_of_arrived_nil harrived, hnone]

/-- The one request of a TAG and die is the one that a response of its kind answers (R88). -/
theorem matching_single {k : ReqKind → Bool} {q : Req} (hreqs : s.reqs = [q]) (htag : q.tag = m.tag) (hdie : q.die = m.src ∨ m.status = 1)
    (hk : k q.kind = true) : s.matching m k = some q := by
  have hfrom : (q.die == m.src || m.status == 1) = true := by simpa using hdie
  simp only [State.matching, hreqs, List.find?_cons, htag, beq_self_eq_true, hfrom, hk, Bool.and_self]

/-- A response that needs no tokens, or has them, ends its request (R88, R297). -/
theorem response_settles {k : ReqKind → Bool} {q : Req} (harrived : s.arrived = []) (hmatch : s.matching m k = some q)
    (h : m.status ≠ 0 ∨ s.writeShort q = false) : response s m k = settle s q (m.status.setWidth 8) m.data := by
  rw [response, takeMsg_of_arrived_nil harrived, hmatch]
  dsimp only
  split
  · rw [if_neg]
    simp only [Bool.and_eq_true, beq_iff_eq, not_and, Bool.not_eq_true]
    exact fun hzero => h.resolve_left (not_not_intro hzero)
  · rfl

/-- A response whose write has no tokens waits (R297). -/
theorem response_waits {k : ReqKind → Bool} {q : Req} (harrived : s.arrived = []) (hmatch : s.matching m k = some q) (hstatus : m.status = 0)
    (hshort : s.writeShort q = true) : OnlyParts s (response s m k) := by
  obtain ⟨d, cost, hwrite⟩ : ∃ d cost, s.writeOf q = some (d, cost) := by
    rcases hw : s.writeOf q with _ | ⟨d, cost⟩
    · simp [State.writeShort, hw] at hshort
    · exact ⟨d, cost, rfl⟩
  rw [response, takeMsg_of_arrived_nil harrived, hmatch]
  dsimp only
  rw [hwrite]
  dsimp only
  rw [if_pos (by simp [hstatus, hshort])]
  exact qosStart_onlyParts ..

/-- A request that awaits WRITE_ACK writes no bytes here when it is answered (R88). -/
theorem writeShort_of_wantsAck {q : Req} (h : q.kind.wantsAck = true) : s.writeShort q = false := by
  have hnone : s.writeOf q = none := by
    cases hkind : q.kind <;> simp_all [State.writeOf, ReqKind.wantsAck]
  simp [State.writeShort, hnone]

/-- The request of a fence ends; with an error the fence is marked bad (R146). -/
theorem settle_fence {q : Req} {c : Nat} (hkind : q.kind = .fence c) (st : Byte) (data : List Byte) :
    settle s q st data = (if st = 0 then { s with reqs := removeFirst (fun r => r.tag == q.tag) s.reqs }
      else ({ s with reqs := removeFirst (fun r => r.tag == q.tag) s.reqs }).modCore c (fun k => { k with fenceBad := true })) := by
  rw [settle, hkind]

/-- A status of a response is zero as a byte only where it is zero. -/
theorem setWidth_status_eq_zero (st : BitVec 4) : st.setWidth 8 = (0 : Byte) ↔ st = 0 := by
  revert st
  decide

end

/-! ### A request that times out (R88, R162, R175) -/

/-- Whether a request of a TAG has waited 2^17 CCLK for its response. -/
def Req.overdue (now : Nat) (tag : BitVec 12) (r : Req) : Bool := r.tag == tag && r.sentAt.any (fun t0 => decide (t0 + 2 ^ 17 ≤ now))

/-- An overdue request's first flit left 2^17 CCLK ago. -/
theorem Req.overdue_iff {now : Nat} {tag : BitVec 12} {r : Req} :
    r.overdue now tag = true ↔ r.tag = tag ∧ ∃ t0, r.sentAt = some t0 ∧ t0 + 2 ^ 17 ≤ now := by
  cases hsent : r.sentAt <;> simp [Req.overdue, hsent]

section
variable {s : State} {tag : BitVec 12} (h : Powered s)

include h

/-- REQUEST_TIMEOUT does nothing where no request of its TAG is overdue. -/
theorem exec_requestTimeout_none (hnone : ∀ q ∈ s.reqs, ¬ q.overdue s.cclk tag = true) : exec (.requestTimeout tag) s = .next s := by
  rw [show exec (.requestTimeout tag) s = execRequestTimeout tag s from rfl, execRequestTimeout, awake_of_Powered h]
  split
  · rfl
  · next q hfind =>
    have hwaits := List.find?_some hfind
    refine absurd (Req.overdue_iff.mpr ?_) (hnone q (List.mem_of_find?_eq_some hfind))
    cases hsent : q.sentAt with
    | none => simp [hsent] at hwaits
    | some t0 =>
      simp only [hsent, Bool.and_eq_true, beq_iff_eq, decide_eq_true_eq] at hwaits
      exact ⟨hwaits.1.1, t0, rfl, hwaits.2⟩

/-- REQUEST_TIMEOUT of a fence's request: it ends, its TAG waits for the late response, and its core is told of the fault and fails its
step (R88, R175). -/
theorem exec_requestTimeout_fence {q : Req} {c : Nat} (harrived : s.arrived = []) (hfind : s.reqs.find? (Req.overdue s.cclk tag) = some q)
    (hkind : q.kind = .fence c) :
    ∃ r : LogRec, r.core = some (BitVec.ofNat 6 c) ∧ r.code = fHalyardTimeout ∧ exec (.requestTimeout tag) s =
      .next (failStep (raiseRec (settle { s with late := s.late ++ [(tag, q.die)] } q 6 []) r) c) := by
  obtain ⟨htag, t0, hsent, hlong⟩ := Req.overdue_iff.mp (List.find?_some hfind)
  refine ⟨{ mkRec (settle { s with late := s.late ++ [(tag, q.die)] } q 6 []) fHalyardTimeout q.colour q.kind.core q.kind.unit with peer := some q.die },
    by simp [mkRec, hkind, ReqKind.core], rfl, ?_⟩
  rw [show exec (.requestTimeout tag) s = execRequestTimeout tag s from rfl, execRequestTimeout, awake_of_Powered h]
  split
  · next hnot =>
    have hno := List.find?_eq_none.mp hnot q (List.mem_of_find?_eq_some hfind)
    simp only [hsent, harrived, htag, beq_self_eq_true, List.any_nil, Bool.not_false, Bool.and_self, Bool.true_and, decide_eq_true_eq] at hno
    exact absurd hlong hno
  · next q' hfind' =>
    have hsame : s.reqs.find? (Req.overdue s.cclk tag) = some q' := by
      rw [← hfind']
      congr 1
      funext r
      cases hsent : r.sentAt <;> simp [Req.overdue, hsent, harrived]
    obtain rfl : q = q' := Option.some.inj (hfind.symm.trans hsame)
    rw [htag]
    simp only [hkind, ReqKind.core]

end

/-- A core's record of a fault: its FAULT CSR takes the code where it is clear, and the rest of the core but what is new is kept (R11,
R354). -/
theorem raiseRec_of_core {s : State} {r : LogRec} {c : Nat} (hc : c < 64) (hr : r.core = some (BitVec.ofNat 6 c)) :
    raiseRec s r = { setFault s c r.code with log := s.log.push r } := by
  have hnat : (BitVec.ofNat 6 c).toNat = c := by rw [BitVec.toNat_ofNat]; exact Nat.mod_eq_of_lt hc
  rw [raiseRec, hr]
  dsimp only
  rw [hnat]
  rfl

/-- A core that is told of a fault and fails its step. -/
theorem failStep_raiseRec {s : State} {r : LogRec} {c : Nat} (hc : c < 64) (hr : r.core = some (BitVec.ofNat 6 c)) :
    let t := failStep (raiseRec s r) c
    t.reqs = s.reqs ∧ t.late = s.late ∧ (t.core c).fenceBad = (s.core c).fenceBad ∧ (t.core c).csr.stepFail = true ∧
      ((s.core c).csr.fault = 0 → (t.core c).csr.fault = r.code) := by
  have hcore : (failStep (raiseRec s r) c).core c = { (setFault s c r.code).core c with
      csr := { ((setFault s c r.code).core c).csr with stepFail := true } } := by
    rw [raiseRec_of_core hc hr, failStep, State.core_modCore_same]
    rfl
  refine ⟨?_, ?_, ?_, ?_, fun hclear => ?_⟩
  · rw [raiseRec_of_core hc hr]; rfl
  · rw [raiseRec_of_core hc hr]; rfl
  · rw [hcore]; simp [setFault]
  · rw [hcore]
  · rw [hcore]
    exact (setFault_fault s c r.code).trans (if_pos hclear)

/-! ### CTRL flits (R68, R71, R272) -/

/-- A field that begins in a tail of zero bytes is zero. -/
theorem leField_of_drop_zero {l : List Byte} {lo k : Nat} (n : Nat) (h : l.drop lo = List.replicate k 0) : leField l lo n = 0 := by
  have hzero : ∀ j, leNat (List.replicate j 0) = 0 := by
    intro j
    induction j with
    | zero => rfl
    | succ j ih => rw [List.replicate_succ, leNat, ih]; rfl
  rw [leField, h, takePad, List.replicate_append_replicate, List.take_replicate, hzero]

section
variable (stype : Byte) (slot : Slot)

/-- The first slot of a CTRL flit of one slot (R71). -/
theorem ctrlPayload_slot : leField (ctrlPayload stype slot) 0 16 = slot.toNat := by
  have h := leField_mid [] (leBytes 16 slot.toNat) (List.replicate 192 0 ++ [stype] ++ List.replicate 15 0)
  rw [leBytes_length, leNat_leBytes, show 256 ^ 16 = 2 ^ 128 by norm_num, Nat.mod_eq_of_lt slot.isLt] at h
  rw [← h, ctrlPayload, List.append_assoc, List.append_assoc, List.append_assoc]
  rfl

/-- The first slot type of a CTRL flit of one slot (R71). -/
theorem ctrlPayload_type : leField (ctrlPayload stype slot) 208 1 = stype.toNat := by
  have h := leField_mid (leBytes 16 slot.toNat ++ List.replicate 192 0) [stype] (List.replicate 15 0)
  rw [List.length_append, leBytes_length, List.length_replicate] at h
  rw [ctrlPayload, List.append_assoc _ [stype]]
  exact h.trans (by rw [leNat, leNat, Nat.mul_zero, Nat.add_zero])

/-- Beyond its first slot type a CTRL flit of one slot is zero (R71). -/
theorem ctrlPayload_rest (i n : Nat) : leField (ctrlPayload stype slot) (209 + i) n = 0 := by
  refine leField_of_drop_zero (k := 15 - i) n ?_
  have hlen : (leBytes 16 slot.toNat ++ List.replicate 192 0 ++ [stype]).length = 209 := by
    simp only [List.length_append, leBytes_length, List.length_replicate, List.length_singleton]
  rw [ctrlPayload, ← hlen, List.drop_length_add_append, List.drop_replicate]

end

section
variable {s : State} {p : PortId} {m : Msg} {stype : Byte} {slot : Slot}

/-- An empty slot is skipped (R71). -/
theorem takeSlot_empty {i : Nat} (h : leField m.data (208 + i) 1 = 0) (acc : State × Bool) : takeSlot p m acc i = acc := by
  simp [takeSlot, h]

/-- A CTRL flit of one slot is that slot (R71). -/
theorem foldl_takeSlot_ctrlPayload (hdata : m.data = ctrlPayload stype slot) (acc : State × Bool) :
    (List.range 13).foldl (takeSlot p m) acc = takeSlot p m acc 0 := by
  rw [List.range_succ_eq_map, List.foldl_cons, List.foldl_map]
  refine List.foldl_fixed' (fun i => takeSlot_empty (i := i.succ) ?_ _) _
  rw [hdata, show 208 + i.succ = 209 + i by omega]
  exact ctrlPayload_rest stype slot i 1

/-- The first slot of a CTRL flit of one slot goes onto the mesh, or breaks the message by a reserved bit (R68, R272). -/
theorem takeSlot_ctrlPayload (hdata : m.data = ctrlPayload stype slot) (hlow : 1 ≤ stype.toNat) (hhigh : stype.toNat ≤ 7) :
    takeSlot p m (s, false) 0 = (if slotReserved stype.toNat slot then (protocolError s p m.colour m.src, true)
      else ({ s with mesh := s.mesh ++ [{ stype := stype, colour := m.colour, src := m.src, core := 0, slot := slot }] }, false)) := by
  have htype : leField m.data (208 + 0) 1 = stype.toNat := by rw [hdata]; exact ctrlPayload_type stype slot
  have hslot : leField m.data (16 * 0) 16 = slot.toNat := by rw [hdata]; exact ctrlPayload_slot stype slot
  rw [takeSlot, htype, hslot, BitVec.ofNat_toNat, BitVec.ofNat_toNat]
  dsimp only
  rw [if_neg (by simp; omega)]
  simp [show ¬ 7 < stype.toNat by omega]

section
variable (h : Clocked s)

include h

/-- A CTRL flit with a set reserved byte, or that is broken, is logged at the port it came by (R68, R71). -/
theorem exec_ctrlFlitReceive_broken (hbroken : m.bad = true ∨ leField m.data 221 3 ≠ 0) :
    exec (.ctrlFlitReceive m) s = .next (protocolError (takeMsg s m) (s.arrival m).port m.colour m.src) := by
  rw [show exec (.ctrlFlitReceive m) s = execCtrlFlitReceive m s from rfl, execCtrlFlitReceive, live_of_Clocked h]
  dsimp only
  rw [if_pos (by simpa using hbroken)]

/-- A CTRL flit of one slot is taken, and its slot with it (R71). -/
theorem exec_ctrlFlitReceive_one (hbad : m.bad = false) (hdata : m.data = ctrlPayload stype slot) :
    exec (.ctrlFlitReceive m) s = .next (takeSlot (s.arrival m).port m (takeMsg s m, false) 0).1 := by
  rw [show exec (.ctrlFlitReceive m) s = execCtrlFlitReceive m s from rfl, execCtrlFlitReceive, live_of_Clocked h]
  dsimp only
  have hreserved : leField m.data 221 3 = 0 := by rw [hdata]; exact ctrlPayload_rest stype slot 12 3
  rw [if_neg (by simp [hbad, hreserved]), foldl_takeSlot_ctrlPayload hdata]

end
end

/-! ### O40 -/

theorem exec_readDataReceive {s : State} (h : Clocked s) (m : Msg) : exec (.readDataReceive m) s = .next (response s m ReqKind.wantsData) := by
  rw [show exec (.readDataReceive m) s = execReadDataReceive m s from rfl, execReadDataReceive, live_of_Clocked h]

theorem exec_writeAckReceive {s : State} (h : Clocked s) (m : Msg) : exec (.writeAckReceive m) s = .next (response s m ReqKind.wantsAck) := by
  rw [show exec (.writeAckReceive m) s = execWriteAckReceive m s from rfl, execWriteAckReceive, live_of_Clocked h]

/-- Settles O40, by what a response, a timeout and a slot of a CTRL flit do. -/
theorem responsesEndTheirRequests : Obligations.ResponsesEndTheirRequests := by
  unfold Obligations.ResponsesEndTheirRequests
  intro s h
  have hpowered : Powered s := ⟨h.1, h.2.1⟩
  refine ⟨fun m harrived => ⟨fun hnone => ?_, fun q hreqs htag hdie => ?_⟩, fun tag => ⟨fun hsoon => ?_, ?_⟩, fun m => ⟨?_, exec_ctrlFlitReceive_broken h⟩⟩
  · rw [exec_readDataReceive h, exec_writeAckReceive h, response_unmatched _ harrived hnone, response_unmatched _ harrived hnone]
    exact ⟨rfl, rfl⟩
  · have hempty : removeFirst (fun r => r.tag == q.tag) s.reqs = [] := by simp [hreqs, removeFirst]
    have hack : q.kind.wantsAck = true → exec (.writeAckReceive m) s = .next (settle s q (m.status.setWidth 8) m.data) := fun hk => by
      rw [exec_writeAckReceive h, response_settles harrived (matching_single hreqs htag hdie hk) (.inr (writeShort_of_wantsAck hk))]
    refine ⟨fun hk => ⟨fun hready => ?_, fun hstatus hshort => ?_⟩, hack, fun c hkind hstatus => ?_, fun c hkind hstatus => ?_⟩
    · rw [exec_readDataReceive h, response_settles harrived (matching_single hreqs htag hdie hk) hready]
    · have hparts := response_waits harrived (matching_single hreqs htag hdie hk) hstatus hshort
      refine ⟨_, exec_readDataReceive h m, ?_⟩
      unfold OnlyParts at hparts
      rw [hparts]
      exact ⟨rfl, rfl⟩
    · rw [hack (by rw [hkind]; rfl), settle_fence hkind, if_pos ((setWidth_status_eq_zero _).mpr hstatus), hempty]
    · refine ⟨_, hack (by rw [hkind]; rfl), ?_⟩
      rw [settle_fence hkind, if_neg (mt (setWidth_status_eq_zero _).mp hstatus), hempty]
      exact ⟨rfl, State.core_modCore_same _ _ _, rfl⟩
  · refine exec_requestTimeout_none hpowered (fun q hq => ?_)
    intro hover
    obtain ⟨htag, t0, hsent, hlong⟩ := Req.overdue_iff.mp hover
    exact absurd hlong (Nat.not_le.mpr (hsoon q hq htag t0 hsent))
  · intro q c harrived hfind hkind
    have hover : s.reqs.find? (Req.overdue s.cclk tag) = some q := by
      rw [← hfind]
      congr 1
      funext r
      cases hsent : r.sentAt <;> simp [Req.overdue, hsent]
    obtain ⟨htag, -⟩ := Req.overdue_iff.mp (List.find?_some hover)
    obtain ⟨r, hcore, hcode, hexec⟩ := exec_requestTimeout_fence hpowered harrived hover hkind
    refine ⟨_, hexec, ?_⟩
    obtain ⟨hreqs, hlate, hbad, hfail, hfault⟩ := failStep_raiseRec (s := settle { s with late := s.late ++ [(tag, q.die)] } q 6 []) (c.isLt.trans (by decide)) hcore
    rw [settle_fence hkind, if_neg (by decide), htag] at hreqs hlate hbad hfail hfault ⊢
    refine ⟨hreqs, hlate, ?_, hfail, fun hclear => ?_⟩
    · rw [hbad, State.core_modCore_same]
    · rw [hfault (by rw [State.core_modCore_same]; exact hclear), hcode]
      rfl
  · intro stype slot hbad hdata hlow hhigh
    rw [exec_ctrlFlitReceive_one h hbad hdata, takeSlot_ctrlPayload hdata hlow hhigh]
    exact ⟨fun hok => by rw [if_neg (by simp [hok])], fun hres => by rw [if_pos hres]⟩

end Sys2Proof.Machine
end

section
/-!
SUPPORT. Requests performed at their destination (R68, R69, R78, R119, R120, R143, R144, R220), and O39.
-/
namespace Sys2Proof.Machine

open Sys2Proof.Stated

/-! ### A request taken, gated and answered (R77, R78, R103, R143, R291) -/

/-- A message that is taken leaves all but its port's receive buffers and the messages that wait. -/
theorem takeMsg_rest (s : State) (m : Msg) : ∃ ports arrived, takeMsg s m = { s with ports := ports, arrived := arrived } := by
  rw [takeMsg, takeArrived]
  split
  · exact ⟨s.ports, s.arrived, rfl⟩
  · exact ⟨_, _, rfl⟩

section
variable (s : State) (m : Msg)

@[simp] theorem takeMsg_die (i : Nat) : (takeMsg s m).die i = s.die i := by
  obtain ⟨ports, arrived, h⟩ := takeMsg_rest s m; rw [h]; rfl
@[simp] theorem takeMsg_resetting (i : Nat) : (takeMsg s m).resetting i = s.resetting i := by
  obtain ⟨ports, arrived, h⟩ := takeMsg_rest s m; rw [h]; rfl
@[simp] theorem takeMsg_mem : (takeMsg s m).mem = s.mem := by
  obtain ⟨ports, arrived, h⟩ := takeMsg_rest s m; rw [h]
@[simp] theorem takeMsg_tx : (takeMsg s m).tx = s.tx := by
  obtain ⟨ports, arrived, h⟩ := takeMsg_rest s m; rw [h]
@[simp] theorem takeMsg_landed : (takeMsg s m).landed = s.landed := by
  obtain ⟨ports, arrived, h⟩ := takeMsg_rest s m; rw [h]
@[simp] theorem takeMsg_log : (takeMsg s m).log = s.log := by
  obtain ⟨ports, arrived, h⟩ := takeMsg_rest s m; rw [h]
@[simp] theorem takeMsg_cores : (takeMsg s m).cores = s.cores := by
  obtain ⟨ports, arrived, h⟩ := takeMsg_rest s m; rw [h]
@[simp] theorem takeMsg_free : (takeMsg s m).free = s.free := by
  obtain ⟨ports, arrived, h⟩ := takeMsg_rest s m; rw [h]
@[simp] theorem takeMsg_byteAt (a : Nat) : (takeMsg s m).byteAt a = s.byteAt a := by simp [State.byteAt]
@[simp] theorem takeMsg_bytesAt (a n : Nat) : (takeMsg s m).bytesAt a n = s.bytesAt a n := bytesAt_congr a n (fun b _ _ => takeMsg_byteAt s m b)
@[simp] theorem takeMsg_check (col : Nat) (agent win : Option Nat) (write : Bool) (a n : Nat) :
    (takeMsg s m).check col agent win write a n = s.check col agent win write a n := by
  obtain ⟨ports, arrived, h⟩ := takeMsg_rest s m
  generalize takeMsg s m = t at h
  subst h
  rfl
@[simp] theorem takeMsg_checkPage (m' : Msg) : checkPage (takeMsg s m) m' = checkPage s m' := takeMsg_check s m ..

end

/-- The waiting message of a message is that message. -/
@[simp] theorem arrival_msg (s : State) (m : Msg) : (s.arrival m).msg = m := by
  rw [State.arrival]
  cases h : s.arrived.find? (fun a => a.msg == m) with
  | none => rfl
  | some a => simpa using List.find?_some h

section
variable {s : State} {m : Msg} (hdie : (s.die m.src.toNat).st ≠ .absent)

include hdie

/-- A source that is known gets its answer (R77). -/
theorem answerMsg_present (op status : BitVec 4) (data : List Byte) :
    answerMsg s m op status data = { s with tx := s.tx ++ [answerTo m op status data] } := by
  rw [answerMsg, if_neg (by simp [hdie])]
  rfl

/-- What waited here is answered, unless its acknowledgement left early (R143). -/
theorem answerArrived_present {a : Arrived} (ha : a.msg = m) (status : BitVec 4) (data : List Byte) :
    answerArrived s a status data = { s with tx := s.tx ++ if a.acked then [] else [answerTo m (answerOp m.op) status data] } := by
  rw [answerArrived, ha]
  split
  · simp
  · exact answerMsg_present hdie ..

/-- A request of a known die, of a colour not in reset, is performed (R103, R291). -/
theorem requestGate_passes {a : Arrived} (ha : a.msg = m) (hreset : s.resetting m.colour.toNat = false) (f : State → State) :
    requestGate s a f = f (takeMsg s m) := by
  rw [requestGate, ha, if_neg (by simp [hdie]), if_neg (by simp [hreset])]

end

/-! ### Bytes (R118, R119, R220) -/

section
variable {s : State} {m : Msg} (hbad : s.mem.bad = [])

include hbad

/-- A WRITE of whole memory puts its bytes (R119). -/
theorem performBytes_write (hop : m.op = 0) (i j : Nat) :
    performBytes s m i j = ((memWrite s (m.addr.toNat + i) ((m.data.take j).drop i)).1, false) := by
  have hmet : (memWrite s (m.addr.toNat + i) ((m.data.take j).drop i)).2 = false := by simp [memWrite, hbad]
  rw [performBytes, hop]
  dsimp only
  rw [if_neg (by decide), hmet]
  rfl

/-- Of memory without failed bytes no read detects an error (R118). -/
theorem detects_of_clear (hcm : s.mem.cmBad = []) (a n : Nat) : s.detects a n = false := by
  simp [State.detects, hbad, hcm]

/-- A LEDGER of one slot is added into its 16 bytes (R220). -/
theorem performBytes_slot (hcm : s.mem.cmBad = []) (hop : m.op = 2) (hlen : m.data.length = 16) :
    performBytes s m 0 m.data.length = ((memWrite { s with free := s.free + 1 } m.addr.toNat
      (leBytes 16 (ledgerAdd (Config.freeLedger s.free) (BitVec.ofNat 128 (leNat (s.bytesAt m.addr.toNat 16))) (BitVec.ofNat 128 (leNat m.data))).toNat)).1, false) := by
  have hslots : ledgerSlots (m.addr.toNat + 0) ((m.data.take m.data.length).drop 0) = [(m.addr.toNat, m.data)] := by
    have htake : m.data.take 16 = m.data := List.take_of_length_le (by omega)
    simp [ledgerSlots, hlen, htake]
  rw [performBytes, hop]
  dsimp only
  rw [if_pos (by decide), hslots, List.foldl_cons, List.foldl_nil, addSlot]
  dsimp only
  rw [detects_of_clear hbad hcm]
  rfl

end

/-! ### Refused and landed pieces (R136, R166, R170) -/

/-- From s to t only the log and the units of windows change. -/
def OnlyRefused (s t : State) : Prop := t = { s with log := t.log, windows := t.windows, senders := t.senders }

/-- A refused piece gives its units back. -/
theorem refusePiece_onlyRefused (s : State) (m : Msg) (n : Nat) : OnlyRefused s (refusePiece s m n) := by
  rw [refusePiece]
  split
  · rw [refuseUnits]
    split <;> rfl
  · rfl

/-- A refused access to control space is logged. -/
theorem noteControl_onlyRefused (s : State) (a : Arrived) (x n : Nat) : OnlyRefused s (noteControl s a x n) := by
  rw [noteControl]
  split <;> rfl

/-- Two such changes in a row are one. -/
theorem OnlyRefused.trans {s t u : State} (h : OnlyRefused s t) (h' : OnlyRefused t u) : OnlyRefused s u := by
  unfold OnlyRefused at *
  rw [h', h]

/-- What a refusal leaves: the dies, memory, what waits to be sent, and the pieces that landed. -/
theorem OnlyRefused.rest {s t : State} (h : OnlyRefused s t) : (∀ i, t.die i = s.die i) ∧ t.mem = s.mem ∧ t.tx = s.tx ∧ t.landed = s.landed := by
  unfold OnlyRefused at h
  rw [h]
  exact ⟨fun _ => rfl, rfl, rfl, rfl⟩

/-- A piece with bytes waits to be booked if it names a window (R166). -/
theorem landPiece_of_pos (s : State) (m : Msg) {n : Nat} (h : 0 < n) : landPiece s m n = { s with
    landed := s.landed ++ if m.winv then [{ win := m.win, die := m.src, core := field m.tag 6 6, units := ceilDiv n 256 }] else [] } := by
  have hn : (n != 0) = true := by simp; omega
  rw [landPiece, hn, Bool.and_true]
  split <;> simp

/-! ### A whole WRITE or LEDGER (R68, R78, R119, R143, R220) -/

/-- A whole request that waits, with nothing of it performed. -/
structure WholeRequest (s : State) (m : Msg) : Prop where
  here : s.receiving m = none ∨ ∃ b ∈ s.arrived, b.msg = m
  fresh : (s.arrival m).done = 0
  unhurt : (s.arrival m).hurt = false
  total : (s.arrival m).total = m.data.length

/-- A source and colour whose requests are performed, in memory without failed bytes (R103, R118, R291). -/
structure Performs (s : State) (m : Msg) : Prop where
  clocked : Clocked s
  known : (s.die m.src.toNat).st ≠ .absent
  free : s.resetting m.colour.toNat = false
  bad : s.mem.bad = []
  cmBad : s.mem.cmBad = []
  good : m.bad = false

/-- The bytes of a WRITE or LEDGER that lie in its page, of a LEDGER whole slots (R78, R220). -/
def keptBytes (m : Msg) : Nat :=
  if m.op == opLedger then Nat.min m.data.length (4096 - m.addr.toNat % 4096) / 16 * 16
  else Nat.min m.data.length (4096 - m.addr.toNat % 4096)

/-- The units that a message's n bytes land in a window (R166). -/
def landing (m : Msg) : List Landed :=
  if m.winv then [{ win := m.win, die := m.src, core := field m.tag 6 6, units := ceilDiv m.data.length 256 }] else []

section
variable {s : State} {m : Msg} (hp : Performs s m) (hw : WholeRequest s m)

include hp

/-- A request of a known die, of a colour not in reset, is performed on the state that it left the waiting messages of. -/
theorem requestGate_of_Performs (f : State → State) : requestGate s (s.arrival m) f = f (takeMsg s m) :=
  requestGate_passes hp.known (arrival_msg s m) hp.free f

include hw

/-- A whole request whose page is writable puts its bytes, lands its piece and is acknowledged (R78, R119, R143, R166). -/
theorem performWhole_ok {u : State} (hskew : ledgerSkew m = false) (hpage : checkPage s m = .ok) (hkept : keptBytes m = m.data.length)
    (hpos : 0 < m.data.length) (hbytes : performBytes (takeMsg s m) m 0 m.data.length = (u, false)) (hdie : u.die m.src.toNat = s.die m.src.toNat) :
    performWhole s m = { u with
      landed := u.landed ++ landing m
      tx := u.tx ++ if (s.arrival m).acked then [] else [answerTo m (answerOp m.op) 0 []] } := by
  have hshort : (false || decide (m.data.length < m.data.length)) = false := by simp
  rw [performWhole, requestGate_of_Performs hp, hskew, if_neg (by decide), if_neg (by simp [hpage]), ← keptBytes, hkept, hw.fresh, hbytes,
    hw.unhurt, hp.good]
  dsimp only
  rw [hshort, if_neg (by decide), if_neg (by decide), if_neg (by decide), landPiece_of_pos u m hpos]
  refine answerArrived_present ?_ (arrival_msg s m) 0 []
  exact fun habsent => hp.known (hdie ▸ habsent)

omit hw in
/-- A whole request whose page is refused changes no byte and is answered so (R78, R136, R170). -/
theorem performWhole_refused (hskew : ledgerSkew m = false) (hpage : checkPage s m ≠ .ok) :
    (performWhole s m).tx = s.tx ++ (if (s.arrival m).acked then [] else [answerTo m (answerOp m.op) 3 []]) ∧
      (performWhole s m).mem = s.mem ∧ (performWhole s m).landed = s.landed := by
  obtain ⟨hdie, hmem, htx, hlanded⟩ := ((noteControl_onlyRefused (takeMsg s m) (s.arrival m) (m.addr.toNat / 4096 * 4096) 4096).trans
    (refusePiece_onlyRefused _ m (s.arrival m).total)).rest
  have hwhole : performWhole s m = answerArrived (refusePiece (noteControl (takeMsg s m) (s.arrival m) (m.addr.toNat / 4096 * 4096) 4096) m
      (s.arrival m).total) (s.arrival m) 3 [] := by
    rw [performWhole, requestGate_of_Performs hp, hskew, if_neg (by decide), if_pos (by simp [hpage])]
  rw [hwhole, answerArrived_present (by rw [hdie, takeMsg_die]; exact hp.known) (arrival_msg s m)]
  exact ⟨by rw [htx, takeMsg_tx], hmem.trans (takeMsg_mem s m), hlanded.trans (takeMsg_landed s m)⟩

end

/-! ### WRITE, READ and LEDGER messages -/

section
variable {s : State} {m : Msg} (hp : Performs s m)

include hp

/-- WRITE_MESSAGE of a whole message with bytes performs it whole. -/
theorem exec_writeMessage_whole (hw : WholeRequest s m) (hpos : 0 < m.data.length) : exec (.writeMessage m) s = .next (performWhole s m) := by
  rw [show exec (.writeMessage m) s = execWriteMessage m s from rfl, execWriteMessage, live_of_Clocked hp.clocked]
  split
  · next p r hnot hrec =>
    rcases hw.here with hnone | ⟨b, hb, hmsg⟩
    · simp [hnone] at hrec
    · simp only [List.any_eq_false, beq_iff_eq] at hnot
      exact absurd hmsg (hnot b hb)
  · rw [hw.total, if_neg (by omega)]

/-- LEDGER_MESSAGE of a whole message performs it whole. -/
theorem exec_ledgerMessage_whole (hw : WholeRequest s m) : exec (.ledgerMessage m) s = .next (performWhole s m) := by
  rw [show exec (.ledgerMessage m) s = execLedgerMessage m s from rfl, execLedgerMessage, live_of_Clocked hp.clocked]
  split
  · next p r hnot hrec =>
    rcases hw.here with hnone | ⟨b, hb, hmsg⟩
    · simp [hnone] at hrec
    · simp only [List.any_eq_false, beq_iff_eq] at hnot
      exact absurd hmsg (hnot b hb)
  · rfl

/-- READ_MESSAGE of a length that is no READ's is answered MALFORMED (R68). -/
theorem exec_readMessage_malformed (h : leField m.data 0 4 = 0 ∨ 4096 < leField m.data 0 4) :
    exec (.readMessage m) s = .next { takeMsg s m with tx := s.tx ++ [answerTo m 3 5 []] } := by
  rw [show exec (.readMessage m) s = execReadMessage m s from rfl, execReadMessage, live_of_Clocked hp.clocked]
  dsimp only
  rw [requestGate_of_Performs hp, if_pos (by simpa [hp.good] using h), answerMsg_present (by simpa using hp.known), takeMsg_tx]
  rfl

section
variable (hlow : 1 ≤ leField m.data 0 4) (hhigh : leField m.data 0 4 ≤ 4096)

include hlow hhigh

/-- READ_MESSAGE of bytes that the colour may read answers them (R78, R120). -/
theorem exec_readMessage_ok (hcheck : s.check m.colour.toNat none none false m.addr.toNat (leField m.data 0 4) = .ok) :
    exec (.readMessage m) s = .next { takeMsg s m with tx := s.tx ++ [answerTo m 3 0 (s.bytesAt m.addr.toNat (leField m.data 0 4))] } := by
  rw [show exec (.readMessage m) s = execReadMessage m s from rfl, execReadMessage, live_of_Clocked hp.clocked]
  dsimp only
  rw [requestGate_of_Performs hp, if_neg (by simp [hp.good]; omega), if_neg (by simp [hcheck]),
    if_neg (by simp [detects_of_clear, hp.bad, hp.cmBad]), answerMsg_present (by simpa using hp.known), takeMsg_tx, takeMsg_bytesAt]
  rfl

/-- READ_MESSAGE of bytes that the colour may not read is refused (R78). -/
theorem exec_readMessage_refused (hcheck : s.check m.colour.toNat none none false m.addr.toNat (leField m.data 0 4) ≠ .ok) :
    ∃ t, exec (.readMessage m) s = .next t ∧ t.tx = s.tx ++ [answerTo m 3 3 []] ∧ t.mem = s.mem := by
  obtain ⟨hdie, hmem, htx, -⟩ := (noteControl_onlyRefused (takeMsg s m) (s.arrival m) m.addr.toNat (leField m.data 0 4)).rest
  refine ⟨{ noteControl (takeMsg s m) (s.arrival m) m.addr.toNat (leField m.data 0 4) with tx := s.tx ++ [answerTo m 3 3 []] }, ?_, rfl,
    hmem.trans (takeMsg_mem s m)⟩
  rw [show exec (.readMessage m) s = execReadMessage m s from rfl, execReadMessage, live_of_Clocked hp.clocked]
  dsimp only
  rw [requestGate_of_Performs hp, if_neg (by simp [hp.good]; omega), if_pos (by simp [hcheck]),
    answerMsg_present (by rw [hdie, takeMsg_die]; exact hp.known), htx, takeMsg_tx]
  rfl

end
end

/-- The bytes of an aligned message of an operation that is no LEDGER, or of a LEDGER at a slot, are no skew (assumption 50). -/
theorem ledgerSkew_of_write {m : Msg} (h : m.op = 0) : ledgerSkew m = false := by
  rw [ledgerSkew, h]
  rfl

theorem ledgerSkew_of_aligned {m : Msg} (h : m.addr.toNat % 16 = 0) : ledgerSkew m = false := by
  simp [ledgerSkew, h]

/-- A WRITE within its page keeps all its bytes (R78). -/
theorem keptBytes_write {m : Msg} (h : m.op = 0) (hfits : m.addr.toNat % 4096 + m.data.length ≤ 4096) : keptBytes m = m.data.length := by
  rw [keptBytes, h, if_neg (by decide)]
  exact Nat.min_eq_left (by omega)

/-- An aligned LEDGER of one slot keeps it (R220). -/
theorem keptBytes_slot {m : Msg} (h : m.op = 2) (hlen : m.data.length = 16) (haligned : m.addr.toNat % 16 = 0) : keptBytes m = m.data.length := by
  have hmin : Nat.min m.data.length (4096 - m.addr.toNat % 4096) = 16 := by
    rw [hlen]
    exact Nat.min_eq_left (by omega)
  rw [keptBytes, h, if_pos (by decide), hmin, hlen]

section
variable {s : State} {m : Msg} (hp : Performs s m)

include hp

/-- WRITE_MESSAGE of a whole message that may be written: its bytes and nothing else, its piece, and its acknowledgement (R119, R143,
R166). -/
theorem exec_writeMessage_ok (hw : WholeRequest s m) (hop : m.op = 0) (hpos : 0 < m.data.length) (hfits : m.addr.toNat % 4096 + m.data.length ≤ 4096)
    (hpage : checkPage s m = .ok) : ∃ t, exec (.writeMessage m) s = .next t ∧
      t.tx = s.tx ++ (if (s.arrival m).acked then [] else [answerTo m 4 0 []]) ∧
      (∀ y, t.byteAt y = if m.addr.toNat ≤ y ∧ y < m.addr.toNat + m.data.length then m.data.getD (y - m.addr.toNat) 0 else s.byteAt y) ∧
      t.landed = s.landed ++ landing m ∧ t.log = s.log ∧ t.cores = s.cores := by
  have hbytes : performBytes (takeMsg s m) m 0 m.data.length = ((memWrite (takeMsg s m) m.addr.toNat m.data).1, false) := by
    rw [performBytes_write (by rw [takeMsg_mem]; exact hp.bad) hop, List.take_length, List.drop_zero, Nat.add_zero]
  refine ⟨_, exec_writeMessage_whole hp hw hpos, ?_⟩
  rw [performWhole_ok hp hw (ledgerSkew_of_write hop) hpage (keptBytes_write hop hfits) hpos hbytes (takeMsg_die s m _), hop]
  refine ⟨by rw [← takeMsg_tx s m]; rfl, fun y => ?_, by rw [← takeMsg_landed s m]; rfl, takeMsg_log s m, takeMsg_cores s m⟩
  rw [← takeMsg_byteAt s m y]
  exact byteAt_memWrite (takeMsg s m) m.addr.toNat m.data y

/-- LEDGER_MESSAGE of one aligned slot that may be written: it is added into its 16 bytes and acknowledged (R220). -/
theorem exec_ledgerMessage_slot (hw : WholeRequest s m) (hop : m.op = 2) (hlen : m.data.length = 16) (haligned : m.addr.toNat % 16 = 0)
    (hpage : checkPage s m = .ok) : ∃ t, exec (.ledgerMessage m) s = .next t ∧
      t.tx = s.tx ++ (if (s.arrival m).acked then [] else [answerTo m 4 0 []]) ∧
      (∀ y, t.byteAt y = if m.addr.toNat ≤ y ∧ y < m.addr.toNat + 16 then
        (leBytes 16 (ledgerAdd (Config.freeLedger s.free) (BitVec.ofNat 128 (leNat (s.bytesAt m.addr.toNat 16))) (BitVec.ofNat 128 (leNat m.data))).toNat).getD (y - m.addr.toNat) 0
        else s.byteAt y) := by
  have hbytes := performBytes_slot (s := takeMsg s m) (m := m) (by rw [takeMsg_mem]; exact hp.bad) (by rw [takeMsg_mem]; exact hp.cmBad) hop hlen
  rw [takeMsg_free, takeMsg_bytesAt] at hbytes
  refine ⟨_, exec_ledgerMessage_whole hp hw, ?_⟩
  rw [performWhole_ok hp hw (ledgerSkew_of_aligned haligned) hpage (keptBytes_slot hop hlen haligned) (by omega) hbytes (takeMsg_die s m _), hop]
  refine ⟨by rw [← takeMsg_tx s m]; rfl, fun y => ?_⟩
  rw [← takeMsg_byteAt s m y]
  refine (byteAt_memWrite { takeMsg s m with free := s.free + 1 } m.addr.toNat _ y).trans ?_
  rw [leBytes_length]
  rfl

end

/-! ### A message that is still arriving (R68, R69) -/

/-- What a port is receiving of a message is of that message. -/
theorem msg_of_receiving {s : State} {m : Msg} {p : PortId} {r : RxPart} (h : s.receiving m = some (p, r)) : r.msg = m := by
  obtain ⟨q, -, hq⟩ := List.exists_of_findSome?_eq_some h
  split at hq
  · split at hq
    · next hcond =>
      obtain ⟨-, rfl⟩ := Prod.mk.inj (Option.some.inj hq)
      simp only [Bool.and_eq_true, beq_iff_eq] at hcond
      exact hcond.1.1.1
    · exact absurd hq (by simp)
  · exact absurd hq (by simp)

section
variable {s : State} {m : Msg} (hp : Performs s m)

include hp

/-- WRITE_MESSAGE of a message still arriving performs its whole granules and no more (R68, R69). -/
theorem exec_writeMessage_part {p : PortId} {r : RxPart} (hnot : ∀ b ∈ s.arrived, b.msg ≠ m) (hrec : s.receiving m = some (p, r)) (hop : m.op = 0)
    (hdone : r.done = 0) (hpage : checkPage s m = .ok) {upTo : Nat} (hup : (m.addr.toNat + m.data.length) / 64 * 64 = upTo) (hpos : m.addr.toNat < upTo) :
    ∃ t, exec (.writeMessage m) s = .next t ∧ t.tx = s.tx ∧ t.arrived = s.arrived ∧
      (∀ y, t.byteAt y = if m.addr.toNat ≤ y ∧ y < upTo then m.data.getD (y - m.addr.toNat) 0 else s.byteAt y) := by
  have hmsg := msg_of_receiving hrec
  have hnone : s.arrived.any (fun a => a.msg == m) = false := by
    simp only [List.any_eq_false, beq_iff_eq]
    exact hnot
  have hlen : (m.data.take (upTo - m.addr.toNat)).length = upTo - m.addr.toNat := by
    rw [List.length_take]
    omega
  have hpart : performPart s p r = setRx (memWrite s m.addr.toNat (m.data.take (upTo - m.addr.toNat))).1 p .main 0
      (some { r with done := upTo - m.addr.toNat, hurt := r.hurt || false }) := by
    have hskew := ledgerSkew_of_write hop
    rw [performPart, hmsg]
    dsimp only
    rw [hup, hdone, hskew, hp.free, hpage, if_neg (by simp [hp.known]; omega), performBytes_write hp.bad hop, List.drop_zero, Nat.add_zero]
  refine ⟨performPart s p r, ?_, ?_⟩
  · rw [show exec (.writeMessage m) s = execWriteMessage m s from rfl, execWriteMessage, live_of_Clocked hp.clocked, hnone, hrec]
  · rw [hpart]
    refine ⟨rfl, rfl, fun y => (byteAt_memWrite s m.addr.toNat _ y).trans ?_⟩
    rw [hlen, show m.addr.toNat + (upTo - m.addr.toNat) = upTo by omega]
    split
    · next hin =>
      rw [List.getD_eq_getElem?_getD, List.getD_eq_getElem?_getD, List.getElem?_take_of_lt (by omega)]
    · rfl

/-! ### Fence probes (R144) -/

/-- A fence probe behind no other message is acknowledged. -/
theorem fenceProbe_alone (harrived : s.arrived = []) : fenceProbe s m = { s with tx := s.tx ++ [answerTo m 4 0 []] } := by
  rw [fenceProbe, if_neg (by simp [harrived]), requestGate_of_Performs hp, takeMsg_of_arrived_nil harrived, answerMsg_present hp.known, hp.good]
  rfl

omit hp in
/-- A fence probe waits behind an earlier request of its source and colour. -/
theorem fenceProbe_waits {b : Arrived} (harrived : s.arrived = [b]) (hother : b.msg ≠ m) (hreq : isRequest b.msg.op = true)
    (hsrc : b.msg.src = m.src) (hcolour : b.msg.colour = m.colour) : fenceProbe s m = s := by
  rw [fenceProbe, if_pos]
  simp [harrived, hother, hreq, hsrc, hcolour]

theorem exec_fenceProbe : exec (.fenceProbe m) s = .next (fenceProbe s m) := by
  rw [show exec (.fenceProbe m) s = execFenceProbe m s from rfl, execFenceProbe, live_of_Clocked hp.clocked]

/-- A WRITE without bytes is a fence probe (R144). -/
theorem exec_writeMessage_empty (hdata : m.data = []) (harrived : s.arrived = []) (hnone : s.receiving m = none) :
    exec (.writeMessage m) s = .next (fenceProbe s m) := by
  have htotal : (s.arrival m).total = 0 := by simp [State.arrival, harrived, hdata]
  rw [show exec (.writeMessage m) s = execWriteMessage m s from rfl, execWriteMessage, live_of_Clocked hp.clocked, hnone, htotal]
  simp

/-! ### Acknowledgement as the message arrives (R143) -/

/-- A whole WRITE of a colour is acknowledged as it arrives where its entry has EA = 1 (R143). -/
theorem messageDone_write {p : PortId} {path : Path} {vc : Nat} {r : RxPart} {e : Region} (hmsg : r.msg = m) (hop : m.op = 0) (htotal : r.total ≠ 0)
    (hcolour : m.colour ≠ 0) (hpage : checkPage s m = .ok) (hentry : s.regionAt m.colour.toNat (m.addr.toNat / 4096 * 4096) 4096 = some e) :
    messageDone s p path vc r = { s with
      arrived := s.arrived ++ [{ msg := m, port := p, path := path, flits := 1, vc := vc, done := r.done, total := r.total, hurt := r.hurt, acked := bit e.attrs 3 }]
      tx := s.tx ++ (if bit e.attrs 3 then [answerTo m 4 0 []] else []) } := by
  have hhalt : s.halted = false := hp.clocked.2.2
  have hearly : s.acksEarly r = bit e.attrs 3 := by
    have hfree : (s.part m.colour.toNat).resetting = false := hp.free
    simp [State.acksEarly, hmsg, hop, htotal, hpage, hentry, hp.good, hhalt, hp.known, hfree, opWrite, Region.ea]
    exact fun _ => hcolour
  rw [messageDone, hmsg, hearly, hp.good, hop, if_neg (by decide), if_neg (by simp [opMgmt])]
  dsimp only
  by_cases hea : bit e.attrs 3 = true
  · rw [hea, if_pos rfl, if_pos rfl]
    refine answerMsg_present ?_ opWriteAck 0 []
    exact hp.known
  · rw [if_neg hea, if_neg hea, List.append_nil]

end

/-- Settles O39, by a lemma per kind of request. -/
theorem messagesArePerformedWhole : Obligations.MessagesArePerformedWhole := by
  unfold Obligations.MessagesArePerformedWhole
  intro s m a w page whole acked hclocked hknown hfree hbad hcmBad hgood
  have hp : Performs s m := ⟨hclocked, hknown, hfree, hbad, hcmBad, hgood⟩
  have hwhole : whole → WholeRequest s m := fun ⟨hhere, hfresh, hunhurt, htotal⟩ => ⟨hhere, hfresh, hunhurt, htotal⟩
  refine ⟨fun hw hop hpos hfits => ⟨fun hpage => exec_writeMessage_ok hp (hwhole hw) hop hpos hfits hpage, fun hpage => ?_⟩,
    fun p r hnot hrec hop hdone hpage => exec_writeMessage_part hp hnot hrec hop hdone hpage rfl, ?_,
    fun hw hop hlen haligned hpage => exec_ledgerMessage_slot hp (hwhole hw) hop hlen haligned hpage,
    fun hdata harrived => ⟨fun hnone => ?_, ?_⟩, fun b _ harrived hother hreq hsrc hcolour => ?_,
    fun p path vc r e hmsg hop htotal hcolour hpage hentry => messageDone_write hp hmsg hop htotal hcolour hpage hentry⟩
  · obtain ⟨htx, hmem, hlanded⟩ := performWhole_refused hp (ledgerSkew_of_write hop) hpage
    rw [hop] at htx
    exact ⟨_, exec_writeMessage_whole hp (hwhole hw) hpos, htx, hmem, hlanded⟩
  · rintro n rfl
    exact ⟨fun hlow hhigh hcheck => ⟨_, exec_readMessage_ok hp hlow hhigh hcheck, rfl, takeMsg_mem s m, takeMsg_log s m⟩,
      fun hlow hhigh hcheck => exec_readMessage_refused hp hlow hhigh hcheck,
      fun hn => ⟨_, exec_readMessage_malformed hp hn, rfl, takeMsg_mem s m⟩⟩
  · rw [exec_writeMessage_empty hp hdata harrived hnone, fenceProbe_alone hp harrived]
  · rw [exec_fenceProbe hp, fenceProbe_alone hp harrived]
  · rw [exec_fenceProbe hp, fenceProbe_waits harrived hother hreq hsrc hcolour]

end Sys2Proof.Machine
end

section
/-!
SUPPORT. What a port keeps while paths, messages and die-table entries are lost (R66, R69, R85, R87, R91, R99, R103).
-/
namespace Sys2Proof.Machine

open Sys2Proof.Stated

/-! ### A reading of the ports that a change keeps -/

/-- From s to t a reading of every port, and the mast, are the same. -/
def KeepsPorts {α : Type} (reading : Port → α) (s t : State) : Prop :=
  t.mast = s.mast ∧ ∀ q : Nat, reading (t.port q) = reading (s.port q)

namespace KeepsPorts

variable {α : Type} {reading : Port → α} {s t u : State}

theorem refl (s : State) : KeepsPorts reading s s := ⟨rfl, fun _ => rfl⟩

theorem trans (h : KeepsPorts reading s t) (h' : KeepsPorts reading t u) : KeepsPorts reading s u :=
  ⟨h'.1.trans h.1, fun q => (h'.2 q).trans (h.2 q)⟩

/-- A change of neither ports nor mast. -/
theorem of_eq (hports : t.ports = s.ports) (hmast : t.mast = s.mast) : KeepsPorts reading s t :=
  ⟨hmast, fun q => by rw [State.port, hports]; rfl⟩

/-- A change of one port that keeps the reading of it. -/
theorem modPort (s : State) (p : Nat) {f : Port → Port} (hf : ∀ x, reading (f x) = reading x) : KeepsPorts reading s (s.modPort p f) := by
  refine ⟨rfl, fun q => ?_⟩
  rw [State.port_modPort]
  split
  · next hq => rw [hf, hq]
  · rfl

/-- One of two changes. -/
theorem ite {c : Prop} [Decidable c] (h : KeepsPorts reading s t) (h' : KeepsPorts reading s u) : KeepsPorts reading s (if c then t else u) := by
  split
  · exact h
  · exact h'

/-- Changes in a row. -/
theorem foldl {β : Type} {f : State → β → State} (hf : ∀ s x, KeepsPorts reading s (f s x)) (l : List β) (s : State) :
    KeepsPorts reading s (l.foldl f s) :=
  List.foldlRecOn (motive := KeepsPorts reading s) l f (refl s) fun _ hu x _ => hu.trans (hf _ x)

end KeepsPorts

/-! ### Requests that fail (R87, R162) -/

section
variable {α : Type} {reading : Port → α}

theorem freeSettled_keepsPorts (s : State) (c n : Nat) (idx : BitVec 16) : KeepsPorts reading s (freeSettled s c n idx) := .of_eq rfl rfl

theorem pieceDone_keepsPorts (s : State) (c n : Nat) (idx : BitVec 16) (bytes : Nat) (st : Byte) :
    KeepsPorts reading s (pieceDone s c n idx bytes st) := by
  refine KeepsPorts.trans ?_ (freeSettled_keepsPorts ..)
  split <;> exact .of_eq rfl rfl

theorem refundPiece_keepsPorts (s : State) (c : Nat) (d : Desc) (u : Nat) : KeepsPorts reading s (refundPiece s c d u) := by
  rw [refundPiece]
  split <;> exact .of_eq rfl rfl

theorem clearSettled_keepsPorts (s : State) (c : Nat) : KeepsPorts reading s (clearSettled s c) := by
  rw [clearSettled]
  split <;> exact .of_eq rfl rfl

theorem sendParts_keepsPorts : ∀ (n : Nat) (s : State), KeepsPorts reading s (sendParts n s)
  | 0, s => .refl s
  | n + 1, s => by
    rw [sendParts]
    split
    · exact KeepsPorts.trans (.of_eq rfl rfl) (sendParts_keepsPorts n _)
    · exact .refl s

/-- A request that fails leaves the ports. -/
theorem settle_keepsPorts (s : State) (q : Req) {st : Byte} (hst : st ≠ 0) (data : List Byte) : KeepsPorts reading s (settle s q st data) := by
  have hdrop : KeepsPorts reading s { s with reqs := removeFirst (fun r => r.tag == q.tag) s.reqs } := .of_eq rfl rfl
  rw [settle]
  refine hdrop.trans ?_
  split
  · split
    · exact .refl _
    · rw [if_neg (by simp only [Bool.and_eq_true, decide_eq_true_eq, not_and]; exact fun h => absurd h hst)]
      exact (refundPiece_keepsPorts ..).trans (pieceDone_keepsPorts ..)
  · refine KeepsPorts.trans ?_ (pieceDone_keepsPorts ..)
    split
    · split <;> exact .of_eq rfl rfl
    · exact .refl _
  · exact pieceDone_keepsPorts ..
  · rw [if_neg hst]
    exact .of_eq rfl rfl
  · refine KeepsPorts.trans ?_ (clearSettled_keepsPorts ..)
    split
    · split <;> exact .of_eq rfl rfl
    · exact .refl _
  · exact KeepsPorts.trans (.of_eq rfl rfl) (sendParts_keepsPorts ..)

/-! ### Membership changes (R91, R99, R101, R103) -/

theorem failDesc_keepsPorts (s : State) (c n : Nat) (idx : BitVec 16) (st : Byte) : KeepsPorts reading s (failDesc s c n idx st) := by
  have hfail : ∀ u : State, KeepsPorts reading u (failStep u c) := fun u => .of_eq rfl rfl
  have hchan : ∀ g, KeepsPorts reading s (modChan s c n g) := fun g => .of_eq rfl rfl
  exact ((hchan _).trans (hfail _)).trans (freeSettled_keepsPorts ..)

theorem forfeit_keepsPorts (s : State) (d : BitVec 6) : KeepsPorts reading s (forfeit s d) := by
  rw [forfeit]
  refine KeepsPorts.foldl (fun s c => ?_) _ _
  have hcore : ∀ (u : State) (f : Core → Core), KeepsPorts reading u (u.modCore c f) := fun u f => .of_eq rfl rfl
  refine KeepsPorts.trans (KeepsPorts.foldl (fun s n => ?_) _ _) (hcore _ _)
  split
  · exact failDesc_keepsPorts ..
  · exact .refl s

variable (htrig : ∀ (x : Port) (n : Nat), reading { x with trig := n } = reading x)

include htrig

/-- A change asks for TRIGGERED Pennants, of the ports nothing else (R91). -/
theorem triggerAll_keepsPorts (s : State) : KeepsPorts reading s (triggerAll s) := by
  refine KeepsPorts.foldl (fun s p => .modPort s p (fun x => ?_)) _ _
  split
  · exact htrig x 4
  · rfl

theorem noteChange_keepsPorts (s : State) (d : Option Nat) : KeepsPorts reading s (noteChange s d) := by
  refine KeepsPorts.trans ?_ (triggerAll_keepsPorts htrig _)
  split <;> exact .of_eq rfl rfl

theorem putDie_keepsPorts (s : State) (d : Nat) (e : DieEntry) : KeepsPorts reading s (putDie s d e) := by
  have hleader : ∀ (u : State) (w : Word), KeepsPorts reading u (noteLeader w u) := by
    intro u w
    rw [noteLeader]
    split <;> exact .of_eq rfl rfl
  have hput : ∀ e' : DieEntry, KeepsPorts reading s
      (if s.leaderUid == (s.setDie d e').leaderUid then s.setDie d e' else noteLeader s.leaderUid (s.setDie d e')) := by
    intro e'
    have hset : KeepsPorts reading s (s.setDie d e') := .of_eq rfl rfl
    exact .ite hset (hset.trans (hleader _ _))
  rw [putDie]
  dsimp only
  exact .ite ((hput _).trans (noteChange_keepsPorts htrig _ _)) (.ite ((hput _).trans (triggerAll_keepsPorts htrig _)) (hput _))

theorem toAbsent_keepsPorts (s : State) (d : Nat) : KeepsPorts reading s (toAbsent s d) := by
  rw [toAbsent]
  split
  · exact .refl s
  · have hput := putDie_keepsPorts htrig s d { s.die d with st := .absent, count := 0, direct := false }
    dsimp only
    generalize putDie s d { s.die d with st := .absent, count := 0, direct := false } = u at hput ⊢
    exact hput.trans (KeepsPorts.trans (.of_eq rfl rfl) (forfeit_keepsPorts ..))

theorem dropUnreached_keepsPorts (s : State) : KeepsPorts reading s (dropUnreached s) := by
  refine KeepsPorts.foldl (fun s d => ?_) _ _
  split
  · exact .refl s
  · exact toAbsent_keepsPorts htrig s d

theorem noteDown_keepsPorts (s : State) (p : PortId) : KeepsPorts reading s (noteDown s p) := by
  rw [noteDown]
  split <;> exact noteChange_keepsPorts htrig ..

theorem refreshReach_keepsPorts (s : State) (p : PortId) : KeepsPorts reading s (refreshReach s p) := by
  refine KeepsPorts.foldl (fun s d => ?_) _ _
  split
  · exact KeepsPorts.trans (.of_eq rfl rfl) (triggerAll_keepsPorts htrig _)
  · exact .refl s

end

/-! ### A path that is lost (R66, R69, R85, R87) -/

/-- What of a port no lost path touches. -/
structure Standing where
  st : PortState
  sbUp : Bool
  held : Bool
  counts : PortCounts
  flaps : List Nat
  capX64 : Bool
  capRate32 : Bool
  penBeat : Option Nat
  lastSb : Nat

/-- A port's standing. -/
def Port.standing (x : Port) : Standing :=
  { st := x.st, sbUp := x.sbUp, held := x.held, counts := x.counts, flaps := x.flaps, capX64 := x.capX64, capRate32 := x.capRate32
    penBeat := x.penBeat, lastSb := x.lastSb }

/-- The link layers of a port are no part of its standing. -/
@[simp] theorem Port.standing_setLink (x : Port) (path : Path) (l : Link) : (x.setLink path l).standing = x.standing := by
  cases path <;> rfl

theorem freeBuffers_keepsStanding (s : State) (p : PortId) (path : Path) (vc n : Nat) :
    KeepsPorts Port.standing s (freeBuffers s p path vc n) :=
  .modPort s _ (fun _ => by cases path <;> rfl)

theorem dropMsgFlits_keepsStanding (s : State) (num : Nat) : KeepsPorts Port.standing s (dropMsgFlits s num) := by
  refine KeepsPorts.trans (.of_eq rfl rfl) (KeepsPorts.foldl (fun s t => ?_) _ _)
  split
  · exact freeBuffers_keepsStanding ..
  · exact .refl s

theorem failForward_keepsStanding (s : State) (code num vc : Nat) : KeepsPorts Port.standing s (failForward s code num vc) := by
  rw [failForward]
  split
  · exact .refl s
  · exact (dropMsgFlits_keepsStanding s num).trans (.modPort _ _ (fun _ => rfl))

theorem clearInput_keepsStanding (s : State) (p : PortId) (path : Path) : KeepsPorts Port.standing s (clearInput s p path) := by
  rw [clearInput]
  dsimp only
  have hshut : ∀ u : State, KeepsPorts Port.standing u
      ([0, 1, 2, 3].foldl (fun s q => s.modPort q (fun x => { x with fwdOpen := x.fwdOpen.filter (fun e => e.2 != inputCode p path) })) u) := by
    intro u
    refine KeepsPorts.foldl (fun s q => ?_) _ u
    exact .modPort s q (fun _ => rfl)
  refine KeepsPorts.trans ?_ (.modPort _ _ (fun _ => ?_))
  · exact KeepsPorts.trans (.of_eq rfl rfl) (hshut _)
  · rfl

/-- A lost path leaves every port's standing. -/
theorem losePath_keepsStanding (s : State) (p : PortId) (path : Path) : KeepsPorts Port.standing s (losePath s p path) := by
  rw [losePath]
  dsimp only
  refine KeepsPorts.trans ?_ (KeepsPorts.foldl (fun s q => settle_keepsPorts s q (by decide) []) _ _)
  refine KeepsPorts.trans ?_ (.modPort _ _ (fun x => ?_))
  · refine KeepsPorts.trans ?_ (.modPort _ _ (fun x => Port.standing_setLink x path {}))
    refine KeepsPorts.trans ?_ (clearInput_keepsStanding ..)
    exact KeepsPorts.trans (.of_eq rfl rfl) (KeepsPorts.foldl (fun s vc => failForward_keepsStanding ..) _ _)
  · cases path
    · dsimp only
      split <;> rfl
    · rfl

end Sys2Proof.Machine
end

section
/-!
SUPPORT. Port states: DOWN, TRAINING and DISABLED, lanes and their repair, training, retrain and the sideband (R62 to R66, R81, R92,
R105, R400, R409, R410), and O36.
-/
namespace Sys2Proof.Machine

open Sys2Proof.Stated

/-! ### DOWN and TRAINING (R64, R66, R87, R105) -/

/-- A Pennant owed is no part of a port's standing. -/
theorem standing_trig (x : Port) (n : Nat) : ({ x with trig := n } : Port).standing = x.standing := rfl

/-! Each part of a standing is that part of the port. -/

theorem Port.st_of_standing {x : Port} {y : Standing} (h : x.standing = y) : x.st = y.st := congrArg Standing.st h
theorem Port.sbUp_of_standing {x : Port} {y : Standing} (h : x.standing = y) : x.sbUp = y.sbUp := congrArg Standing.sbUp h
theorem Port.held_of_standing {x : Port} {y : Standing} (h : x.standing = y) : x.held = y.held := congrArg Standing.held h
theorem Port.flaps_of_standing {x : Port} {y : Standing} (h : x.standing = y) : x.flaps = y.flaps := congrArg Standing.flaps h
theorem Port.counts_of_standing {x : Port} {y : Standing} (h : x.standing = y) : x.counts = y.counts := congrArg Standing.counts h
theorem Port.penBeat_of_standing {x : Port} {y : Standing} (h : x.standing = y) : x.penBeat = y.penBeat := congrArg Standing.penBeat h
theorem Port.lastSb_of_standing {x : Port} {y : Standing} (h : x.standing = y) : x.lastSb = y.lastSb := congrArg Standing.lastSb h

/-- The downs of the last 1,024 strokes, with one now (R105). -/
def downsWith (now : Nat) (x : Port) : List Nat := x.flaps.filter (fun b => decide (now < b + 1024)) ++ [now]

/-- A down that counts is noted among the last 1,024 strokes', and the eighth holds the port (R105). -/
theorem port_countFlap (s : State) (p : PortId) : (countFlap s p).port p.val = { s.port p.val with
    flaps := downsWith s.mast.beats (s.port p.val), held := (s.port p.val).held || decide (8 ≤ (downsWith s.mast.beats (s.port p.val)).length) } := by
  rw [countFlap]
  dsimp only
  split
  · rw [raiseUnit_eq]
    exact State.port_setPort_same ..
  · exact State.port_setPort_same ..

section
variable (s : State) (p : PortId)

/-- A port goes DOWN: its state, and the downs that count (R66, R105). -/
theorem goDown_standing (counted : Bool) : ((goDown s p counted).port p.val).st = .down ∧
    (counted = true → ((goDown s p counted).port p.val).flaps = downsWith s.mast.beats (s.port p.val)) := by
  obtain ⟨hmast, hports⟩ := losePath_keepsStanding s p .main
  have hflaps : ((losePath s p .main).port p.val).flaps = (s.port p.val).flaps := congrArg Standing.flaps (hports p.val)
  rw [goDown]
  generalize losePath s p .main = u at hmast hflaps ⊢
  rw [raiseUnit_eq]
  set v := u.modPort p.val (fun x => { x with st := .down, stChanged := true, failedRetrains := 0, downBeat := u.mast.beats }) with hv
  have hport : v.port p.val = { u.port p.val with st := .down, stChanged := true, failedRetrains := 0, downBeat := u.mast.beats } :=
    State.port_modPort_same ..
  have hvmast : v.mast = s.mast := hmast
  clear_value v
  generalize hlog : Log.push v.log _ = log
  have hkeep : ∀ w : State, KeepsPorts Port.standing w (dropUnreached (noteDown w p)) := fun w =>
    (noteDown_keepsPorts standing_trig w p).trans (dropUnreached_keepsPorts standing_trig _)
  cases counted with
  | false =>
    refine ⟨(Port.st_of_standing ((hkeep { v with log := log }).2 p.val)).trans (congrArg Port.st hport), fun h => absurd h (by decide)⟩
  | true =>
    have hcount := port_countFlap { v with log := log } p
    have hstand := (hkeep (countFlap { v with log := log } p)).2 p.val
    refine ⟨(Port.st_of_standing hstand).trans ((congrArg Port.st hcount).trans (congrArg Port.st hport)), fun _ => ?_⟩
    refine (Port.flaps_of_standing hstand).trans ((congrArg Port.flaps hcount).trans ?_)
    show downsWith v.mast.beats (v.port p.val) = _
    rw [downsWith, downsWith, hvmast, hport, hflaps]

/-- A port that is DOWN is so in state. -/
theorem goDown_st (counted : Bool) : ((goDown s p counted).port p.val).st = .down := (goDown_standing s p counted).1

/-- An INIT that leaves changes only its path's link layer (R64, R65). -/
theorem port_putInit (path : Path) : ∃ l, (putInit s p path).port p.val = (s.port p.val).setLink path l := by
  rw [putInit, State.port_modPort_same, port_putFlit]
  simp [Port.modLink]

/-- A port that begins a training keeps its counters, flaps and bounds, is no longer held, and has VC3 on its sideband (R64, R85). -/
theorem startTraining_standing : ((startTraining s p).port p.val).standing = { (s.port p.val).standing with st := .training, held := false } ∧
    ((startTraining s p).port p.val).vc3Side = true := by
  have hlost := (losePath_keepsStanding s p .side).2 p.val
  rw [startTraining]
  dsimp only
  generalize losePath s p .side = u at hlost ⊢
  split
  · obtain ⟨l, hl⟩ := port_putInit (u.modPort p.val (fun x => { x with
      st := .training, stChanged := true, held := false, main := ({} : Link), vc3Side := true, failedRetrains := 0
      askX64 := true, askRate32 := true, slow := false, attempts := 0, asks := 0 })) p .side
    rw [hl, State.port_modPort_same, ← hlost]
    exact ⟨rfl, rfl⟩
  · rw [State.port_modPort_same, ← hlost]
    exact ⟨rfl, rfl⟩

/-- A training that a step down bounds (R81). -/
theorem startTraining_bounded (wide fast : Bool) :
    let y := ((startTraining s p).modPort p.val (fun x => { x with capX64 := wide, capRate32 := fast })).port p.val
    y.st = .training ∧ y.capX64 = wide ∧ y.capRate32 = fast := by
  have hst := Port.st_of_standing (startTraining_standing s p).1
  rw [State.port_modPort_same]
  generalize (startTraining s p).port p.val = y at hst ⊢
  exact ⟨hst, rfl, rfl⟩

end

/-! ### ENABLE, DISABLE and RESET (R63, R81, R399, R400) -/

section
variable {s : State} {p : PortId} (h : Powered s)

include h

theorem exec_portEnable : exec (.portEnable p) s = .next (portEnable s p) := by
  rw [show exec (.portEnable p) s = execPortEnable p s from rfl, execPortEnable, awake_of_Powered h]
theorem exec_hlCtrlEnable : exec (.hlCtrlEnable p) s = .next (portEnable s p) := by
  rw [show exec (.hlCtrlEnable p) s = execHlCtrlEnable p s from rfl, execHlCtrlEnable, awake_of_Powered h]
theorem exec_hlCtrlDisable : exec (.hlCtrlDisable p) s = .next (portDisable s p) := by
  rw [show exec (.hlCtrlDisable p) s = execHlCtrlDisable p s from rfl, execHlCtrlDisable, awake_of_Powered h]
theorem exec_hlCtrlReset : exec (.hlCtrlReset p) s = .next (portReset s p) := by
  rw [show exec (.hlCtrlReset p) s = execHlCtrlReset p s from rfl, execHlCtrlReset, awake_of_Powered h]

end

section
variable {s : State} {p : PortId}

/-- ENABLE trains a DISABLED or held port (R400). -/
theorem portEnable_trains (hrest : (s.port p.val).st = .disabled ∨ (s.port p.val).held = true) :
    ((portEnable s p).port p.val).st = .training ∧ ((portEnable s p).port p.val).held = false ∧ ((portEnable s p).port p.val).vc3Side = true := by
  obtain ⟨hstand, hvc3⟩ := startTraining_standing s p
  rw [portEnable, if_pos (by simpa using hrest)]
  exact ⟨Port.st_of_standing hstand, Port.held_of_standing hstand, hvc3⟩

/-- ENABLE leaves any other port (R400). -/
theorem portEnable_other (hst : (s.port p.val).st ≠ .disabled) (hheld : (s.port p.val).held = false) : portEnable s p = s := by
  rw [portEnable, if_neg (by simp [hst, hheld])]

/-- DISABLE rests a port (R400, Table 4-3). -/
theorem portDisable_rests (hst : (s.port p.val).st ≠ .disabled) :
    ((portDisable s p).port p.val).st = .disabled ∧ ((portDisable s p).port p.val).sbUp = false := by
  rw [portDisable, if_neg hst]
  dsimp only
  have hstand := (refreshReach_keepsPorts standing_trig ((losePath (goDown s p false) p .side).modPort p.val
    (fun x => { x with st := .disabled, sbUp := false, stChanged := true, penBeat := none })) p).2 p.val
  rw [State.port_modPort_same] at hstand
  exact ⟨Port.st_of_standing hstand, Port.sbUp_of_standing hstand⟩

/-- RESET trains a port with its counters and flaps cleared (R81, R399). -/
theorem portReset_trains (hst : (s.port p.val).st ≠ .disabled) :
    ((portReset s p).port p.val).st = .training ∧ ((portReset s p).port p.val).held = false ∧ ((portReset s p).port p.val).flaps = [] ∧
      ((portReset s p).port p.val).counts = PortCounts.mk 0 0 0 0 0 0 0 0 0 0 0 0 := by
  have hstand := (startTraining_standing (clearPortCounts (goDown s p false) p) p).1
  rw [clearPortCounts, State.port_modPort_same] at hstand
  rw [portReset, if_neg hst, clearPortCounts]
  exact ⟨Port.st_of_standing hstand, Port.held_of_standing hstand, Port.flaps_of_standing hstand, Port.counts_of_standing hstand⟩

end

/-! ### Lanes and their repair (R409) -/

/-- The population count of the low n bits is how many of them are set. -/
theorem popcountTo_eq_length_filter (n x : Nat) : popcountTo n x = ((List.range n).filter (fun i => x.testBit i)).length := by
  induction n generalizing x with
  | zero => rfl
  | succ n ih =>
    rw [popcountTo, ih, List.range_succ_eq_map, List.filter_cons, List.filter_map, Function.comp_def]
    simp only [Nat.testBit_succ, Nat.testBit_zero]
    rcases Nat.mod_two_eq_zero_or_one x with hx | hx <;> simp [hx, Nat.add_comm]

/-- A bit of a field is a bit of its word (R7). -/
theorem testBit_field {n : Nat} (x : BitVec n) (lo w i : Nat) (h : i < w) : (field x lo w).toNat.testBit i = bit x (lo + i) := by
  rw [BitVec.testBit_toNat, field, bit, BitVec.getLsbD_extractLsb']
  simp [h]

/-- The failing lanes of a half in one direction are the set bits of its lanes (R409). -/
theorem lanesOf_eq (w : Word) (upper : Bool) :
    lanesOf w upper = ((List.range 32).filter (fun i => bit w ((if upper then 32 else 0) + i))).length := by
  rw [lanesOf, popcount, popcountTo_eq_length_filter]
  congr 1
  refine List.filter_congr fun i hi => ?_
  exact testBit_field w _ 32 i (List.mem_range.mp hi)

/-- A half can be repaired where each direction of it can (R409). -/
theorem halfOk_eq (rx tx : Word) (upper : Bool) :
    halfOk rx tx upper = (mendable rx (if upper then 32 else 0) && mendable tx (if upper then 32 else 0)) := by
  rw [halfOk, lanesOf_eq, lanesOf_eq, mendable, mendable]

/-- The redundant lanes in use (R409, Table 19-20). -/
theorem repairMapOf_eq (rx tx : Word) (low high : Bool) : repairMapOf rx tx low high = spares rx tx low high := by
  rw [repairMapOf, spares, lanesOf_eq, lanesOf_eq, lanesOf_eq, lanesOf_eq]
  rfl

/-! ### Training (R62 to R64, R409, R410) -/

section
variable {s : State} {p : PortId} (h : Powered s) (hst : (s.port p.val).st = .training) (hsb : (s.port p.val).sbUp = true)
  (hinit : (s.port p.val).main.lastInit = none)

include h hst hsb hinit

theorem exec_trainingComplete_failed : exec (.trainingComplete p .failed) s = .next (trainFailed s p) := by
  rw [show exec (.trainingComplete p .failed) s = execTrainingComplete p .failed s from rfl, execTrainingComplete, awake_of_Powered h]
  simp [hst, hsb, hinit]

theorem exec_trainingComplete_asked (o : PartnerOption) : exec (.trainingComplete p (.asked o)) s = .next (askOption s p o) := by
  rw [show exec (.trainingComplete p (.asked o)) s = execTrainingComplete p (.asked o) s from rfl, execTrainingComplete, awake_of_Powered h]
  simp [hst, hsb, hinit]

/-- A mainband neither half of which can be repaired has failed to train (R409, R410). -/
theorem exec_trainingComplete_unmended {rx tx : Word} (rev : Bool) (hlow : (mendable rx 0 && mendable tx 0) = false)
    (hhigh : (mendable rx 32 && mendable tx 32) = false) : exec (.trainingComplete p (.trained rx tx rev)) s = .next (trainFailed s p) := by
  rw [show exec (.trainingComplete p (.trained rx tx rev)) s = execTrainingComplete p (.trained rx tx rev) s from rfl, execTrainingComplete,
    awake_of_Powered h]
  have hlow' : halfOk rx tx false = false := (halfOk_eq rx tx false).trans hlow
  have hhigh' : halfOk rx tx true = false := (halfOk_eq rx tx true).trans hhigh
  simp [hst, hsb, hinit, hlow', hhigh']

/-- A mainband with a half that can be repaired sends its INIT, at x64 or over that half (R63, R64, R409). -/
theorem exec_trainingComplete_mended {rx tx : Word} (rev : Bool) {low high wide : Bool} (hlow : low = (mendable rx 0 && mendable tx 0))
    (hhigh : high = (mendable rx 32 && mendable tx 32)) (hwide : wide = (low && high && (s.port p.val).capX64 && (s.port p.val).askX64))
    (hone : (low || high) = true) : exec (.trainingComplete p (.trained rx tx rev)) s = .next (putInit (s.setPort p.val { s.port p.val with
      x64 := wide, rate32 := (s.port p.val).tries32, reversed := rev, upper := !wide && !low
      repairMap := spares rx tx low (high && (wide || !low)) }) p .main) := by
  rw [show exec (.trainingComplete p (.trained rx tx rev)) s = execTrainingComplete p (.trained rx tx rev) s from rfl, execTrainingComplete,
    awake_of_Powered h]
  have hlow' : halfOk rx tx false = low := (halfOk_eq rx tx false).trans hlow.symm
  have hhigh' : halfOk rx tx true = high := (halfOk_eq rx tx true).trans hhigh.symm
  dsimp only
  rw [if_neg (by simp [hst, hsb, hinit]), hlow', hhigh', ← hwide, repairMapOf_eq, if_neg]
  revert hone
  cases low <;> simp

end

section
variable {s : State} {p : PortId}

/-- Fewer than three attempts failed: another is made (R63). -/
theorem trainFailed_again (hfew : (s.port p.val).attempts < 2) :
    trainFailed s p = s.setPort p.val { s.port p.val with attempts := (s.port p.val).attempts + 1 } := by
  rw [trainFailed, if_pos hfew]

/-- Three failed at 32 GT/s: the port goes on at 16 GT/s (R63, R410). -/
theorem trainFailed_slower (hmany : 2 ≤ (s.port p.val).attempts) (hfast : (s.port p.val).tries32 = true) :
    trainFailed s p = s.setPort p.val { s.port p.val with slow := true, attempts := 0 } := by
  rw [trainFailed, if_neg (by omega), if_pos hfast]

/-- Three failed at 16 GT/s: the port goes DOWN (R63). -/
theorem trainFailed_down (hmany : 2 ≤ (s.port p.val).attempts) (hslow : (s.port p.val).tries32 = false) :
    ((trainFailed s p).port p.val).st = .down := by
  rw [trainFailed, if_neg (by omega), if_neg (by simp [hslow])]
  exact goDown_st s p true

/-- An option without a supported one near it is counted (R62). -/
theorem askOption_none {o : PartnerOption} (ho : nearestOffer o = none) :
    askOption s p o = s.setPort p.val { s.port p.val with asks := (s.port p.val).asks + 1 } := by
  rw [askOption, ho]

/-- A width is agreed on, or answered with the nearest (R62). -/
theorem askOption_width (n : Nat) : askOption s p (.width n) =
    (let y := if 64 ≤ n then s.port p.val else { s.port p.val with askX64 := false }
    if n = 64 ∨ n = 32 then s.setPort p.val y else { (s.setPort p.val y) with out := .offer p (if 64 ≤ n then .x64 else .x32) :: s.out }) := by
  have hagree : (s.port p.val).agree (if 64 ≤ n then .x64 else .x32) = if 64 ≤ n then s.port p.val else { s.port p.val with askX64 := false } := by
    split <;> rfl
  rw [askOption, nearestOffer]
  dsimp only
  rw [hagree]
  by_cases hn : n = 64 ∨ n = 32
  · rw [if_pos hn, if_pos (by simpa [optionSupported] using hn)]
  · rw [if_neg hn, if_neg (by simpa [optionSupported] using hn)]
    rfl

end

/-! ### Retraining (R81, R86, R409) -/

section
variable {s : State} {p : PortId}

/-- The lanes of a trained mode are repaired where each half in use can be (R81, R409). -/
theorem Port.repairs_eq (x : Port) (rx tx : Word) : x.repairs rx tx =
    if ((x.x64 || !x.upper) = true → (mendable rx 0 && mendable tx 0) = true) ∧ ((x.x64 || x.upper) = true → (mendable rx 32 && mendable tx 32) = true)
    then some (spares rx tx (x.x64 || !x.upper) (x.x64 || x.upper)) else none := by
  have hlow : halfOk rx tx false = (mendable rx 0 && mendable tx 0) := halfOk_eq rx tx false
  have hhigh : halfOk rx tx true = (mendable rx 32 && mendable tx 32) := halfOk_eq rx tx true
  rw [Port.repairs, hlow, hhigh, repairMapOf_eq]
  refine if_congr ?_ rfl rfl
  simp only [Bool.and_eq_true, Bool.or_eq_true, Bool.not_eq_true', ← Bool.not_eq_true, imp_iff_not_or]

variable (h : Powered s)

include h

theorem exec_retrainEntry_due (hst : (s.port p.val).st = .active) (hdue : (s.port p.val).main.replays = 17) : exec (.retrainEntry p) s =
    .next (s.setPort p.val { s.port p.val with
      st := .retrain, stChanged := true, failedRetrains := 0, main := { (s.port p.val).main with resend := 0 } }) := by
  rw [show exec (.retrainEntry p) s = execRetrainEntry p s from rfl, execRetrainEntry, awake_of_Powered h]
  simp [hst, hdue]

theorem exec_retrainEntry_not_due (hfew : (s.port p.val).main.replays < 17) : exec (.retrainEntry p) s = .next s := by
  rw [show exec (.retrainEntry p) s = execRetrainEntry p s from rfl, execRetrainEntry, awake_of_Powered h]
  simp [hfew]

section
variable (hst : (s.port p.val).st = .retrain) {ok : Bool} {rx tx : Word}

include hst

/-- A retrain that succeeds with lanes that can be repaired takes the port back to ACTIVE (R81, R409). -/
theorem exec_retrainAttemptDone_ok {map : Byte} (hmend : (if ok then (s.port p.val).repairs rx tx else none) = some map) :
    exec (.retrainAttemptDone p ok ⟨rx, tx⟩) s = .next (s.setPort p.val { s.port p.val with
      st := .active, stChanged := true, repairMap := map, failedRetrains := 0
      counts := { (s.port p.val).counts with retrain := satInc16 (s.port p.val).counts.retrain }
      main := { (s.port p.val).main with
        replays := 0, resend := (s.port p.val).main.retry.length, lastProgress := s.cclk, lastSent := s.cclk } }) := by
  rw [show exec (.retrainAttemptDone p ok ⟨rx, tx⟩) s = execRetrainAttemptDone p ok ⟨rx, tx⟩ s from rfl, execRetrainAttemptDone,
    awake_of_Powered h]
  dsimp only
  rw [if_neg (by simp [hst])]
  split
  · next map' hm =>
    obtain rfl : map = map' := Option.some.inj (hmend.symm.trans hm)
    rfl
  · next hm => exact absurd (hmend.symm.trans hm) (by simp)

section
variable (hfail : (if ok then (s.port p.val).repairs rx tx else none) = none)

include hfail

/-- A retrain that fails is tried again while fewer than three have failed (R81). -/
theorem exec_retrainAttemptDone_again (hfew : (s.port p.val).failedRetrains < 2) :
    exec (.retrainAttemptDone p ok ⟨rx, tx⟩) s = .next (s.setPort p.val { s.port p.val with
      failedRetrains := (s.port p.val).failedRetrains + 1
      counts := { (s.port p.val).counts with retrain := satInc16 (s.port p.val).counts.retrain } }) := by
  rw [show exec (.retrainAttemptDone p ok ⟨rx, tx⟩) s = execRetrainAttemptDone p ok ⟨rx, tx⟩ s from rfl, execRetrainAttemptDone,
    awake_of_Powered h]
  dsimp only
  rw [if_neg (by simp [hst])]
  split
  · next map hm => exact absurd (hm.symm.trans hfail) (by simp)
  · rw [if_pos hfew]

/-- After three failures the port steps down a rung, which bounds the training that follows (R81). -/
theorem exec_retrainAttemptDone_rung (hmany : 2 ≤ (s.port p.val).failedRetrains) {wide fast : Bool} (hrung : (s.port p.val).rung = some (wide, fast)) :
    ∃ t, exec (.retrainAttemptDone p ok ⟨rx, tx⟩) s = .next t ∧
      (t.port p.val).st = .training ∧ (t.port p.val).capX64 = wide ∧ (t.port p.val).capRate32 = fast := by
  rw [show exec (.retrainAttemptDone p ok ⟨rx, tx⟩) s = execRetrainAttemptDone p ok ⟨rx, tx⟩ s from rfl, execRetrainAttemptDone,
    awake_of_Powered h]
  dsimp only
  rw [if_neg (by simp [hst])]
  split
  · next map hm => exact absurd (hm.symm.trans hfail) (by simp)
  · rw [if_neg (by omega)]
    split
    · next hnone => exact absurd (hrung.symm.trans hnone) (by simp)
    · next wide' fast' hsome =>
      obtain ⟨rfl, rfl⟩ := Prod.mk.inj (Option.some.inj (hrung.symm.trans hsome))
      exact ⟨_, rfl, startTraining_bounded _ p wide fast⟩

/-- With no rung below the port goes DOWN (R81). -/
theorem exec_retrainAttemptDone_down (hmany : 2 ≤ (s.port p.val).failedRetrains) (hrung : (s.port p.val).rung = none) :
    ∃ t, exec (.retrainAttemptDone p ok ⟨rx, tx⟩) s = .next t ∧ (t.port p.val).st = .down := by
  rw [show exec (.retrainAttemptDone p ok ⟨rx, tx⟩) s = execRetrainAttemptDone p ok ⟨rx, tx⟩ s from rfl, execRetrainAttemptDone,
    awake_of_Powered h]
  dsimp only
  rw [if_neg (by simp [hst])]
  split
  · next map hm => exact absurd (hm.symm.trans hfail) (by simp)
  · rw [if_neg (by omega)]
    split
    · exact ⟨_, rfl, goDown_st _ p true⟩
    · next hsome => exact absurd (hrung.symm.trans hsome) (by simp)

end
end
end

/-! ### The partner and LINK_DOWN (R64, R66, R81) -/

section
variable {s : State} {p : PortId} (h : Powered s)

include h

theorem exec_linkDown_idle (hst : (s.port p.val).st = .disabled ∨ (s.port p.val).st = .down) : exec (.linkDown p) s = .next s := by
  rw [show exec (.linkDown p) s = execLinkDown p s from rfl, execLinkDown, awake_of_Powered h]
  rcases hst with hst | hst <;> simp [hst]

theorem exec_linkDown (hst : (s.port p.val).st ≠ .disabled) (hst' : (s.port p.val).st ≠ .down) :
    exec (.linkDown p) s = .next (goDown s p true) := by
  rw [show exec (.linkDown p) s = execLinkDown p s from rfl, execLinkDown, awake_of_Powered h]
  simp [hst, hst']

variable (hsb : (s.port p.val).sbUp = true) (hst : (s.port p.val).st ≠ .disabled)

include hsb hst

/-- A partner that trains takes a port that is not held to TRAINING (R64, Table 4-3). -/
theorem exec_partnerTrainingRequest_train (hheld : (s.port p.val).held = false)
    (hinit : (s.port p.val).st = .training → (s.port p.val).main.lastInit.isSome = true) :
    ∃ t, exec (.partnerTrainingRequest p .train) s = .next t ∧ (t.port p.val).st = .training := by
  rw [show exec (.partnerTrainingRequest p .train) s = execPartnerTrainingRequest p .train s from rfl, execPartnerTrainingRequest,
    awake_of_Powered h]
  dsimp only
  rw [if_neg (by simp [hsb, hst]), if_neg (by simpa using fun ht => Option.isSome_iff_ne_none.mp (hinit ht)), if_neg (by simp [hheld])]
  exact ⟨_, rfl, Port.st_of_standing (startTraining_standing _ p).1⟩

/-- A partner that retrains takes an ACTIVE port to RETRAIN (R81). -/
theorem exec_partnerTrainingRequest_retrain (hactive : (s.port p.val).st = .active) :
    ∃ t, exec (.partnerTrainingRequest p .retrain) s = .next t ∧ (t.port p.val).st = .retrain := by
  rw [show exec (.partnerTrainingRequest p .retrain) s = execPartnerTrainingRequest p .retrain s from rfl, execPartnerTrainingRequest,
    awake_of_Powered h]
  dsimp only
  rw [if_neg (by simp [hsb, hst]), if_pos (by simp [hactive])]
  exact ⟨_, rfl, by rw [State.port_modPort_same]⟩

/-- A partner that is DOWN takes the port DOWN (R66). -/
theorem exec_partnerTrainingRequest_down :
    ∃ t, exec (.partnerTrainingRequest p .down) s = .next t ∧ (t.port p.val).st = .down := by
  rw [show exec (.partnerTrainingRequest p .down) s = execPartnerTrainingRequest p .down s from rfl, execPartnerTrainingRequest,
    awake_of_Powered h]
  dsimp only
  rw [if_neg (by simp [hsb, hst])]
  refine ⟨_, rfl, ?_⟩
  split
  · next hdown => rw [port_heard, heardPort_st]; exact beq_iff_eq.mp hdown
  · exact goDown_st _ p true

end

/-! ### The sideband (R66, R85, R92) -/

/-- What a change of the die table leaves of a port that comes up: its standing, and the path of VC3. -/
def Port.standingVc3 (x : Port) : Standing × Bool := (x.standing, x.vc3Side)

section
variable {s : State} {p : PortId} (h : Powered s)

include h

/-- A sideband comes up with a new link layer, and VC3 on it (R66, R85). -/
theorem exec_sidebandUp (hsb : (s.port p.val).sbUp = false) (hst : (s.port p.val).st ≠ .disabled) :
    ∃ t, exec (.sidebandUp p) s = .next t ∧ (t.port p.val).sbUp = true ∧ (t.port p.val).vc3Side = true ∧ (t.port p.val).lastSb = s.cclk ∧
      (t.port p.val).st = (s.port p.val).st := by
  set u := s.setPort p.val { s.port p.val with
    sbUp := true, side := ({} : Link), vc3Side := true, lastSb := s.cclk, penBeat := none, stChanged := true } with hu
  have hexec : exec (.sidebandUp p) s = .next (putInit (refreshReach u p) p .side) := by
    rw [show exec (.sidebandUp p) s = execSidebandUp p s from rfl, execSidebandUp, awake_of_Powered h]
    dsimp only
    rw [if_neg (by simp [hsb, hst])]
  have hstand := (refreshReach_keepsPorts (reading := Port.standingVc3) (fun _ _ => rfl) u p).2 p.val
  rw [hu, State.port_setPort_same, ← hu] at hstand
  obtain ⟨l, hl⟩ := port_putInit (refreshReach u p) p .side
  refine ⟨_, hexec, ?_⟩
  rw [hl]
  generalize (refreshReach u p).port p.val = y at hstand ⊢
  obtain ⟨hstand, hvc3⟩ := Prod.mk.inj hstand
  exact ⟨Port.sbUp_of_standing hstand, hvc3, Port.lastSb_of_standing hstand, Port.st_of_standing hstand⟩

theorem exec_sidebandUp_idle (hidle : (s.port p.val).sbUp = true ∨ (s.port p.val).st = .disabled) : exec (.sidebandUp p) s = .next s := by
  rw [show exec (.sidebandUp p) s = execSidebandUp p s from rfl, execSidebandUp, awake_of_Powered h]
  dsimp only
  rw [if_pos (by simpa using hidle)]

theorem exec_sidebandDown : exec (.sidebandDown p) s = .next (sidebandLost s p) := by
  rw [show exec (.sidebandDown p) s = execSidebandDown p s from rfl, execSidebandDown, awake_of_Powered h]

theorem exec_sidebandSilence (hsb : (s.port p.val).sbUp = true) (hst : (s.port p.val).st ≠ .active)
    (hlong : (s.port p.val).lastSb + 4096 ≤ s.cclk) : exec (.sidebandSilence p) s = .next (sidebandLost s p) := by
  rw [show exec (.sidebandSilence p) s = execSidebandSilence p s from rfl, execSidebandSilence, awake_of_Powered h]
  dsimp only
  rw [if_pos (by simp [hsb, hst, hlong])]

theorem exec_sidebandSilence_idle (hidle : (s.port p.val).st = .active ∨ s.cclk < (s.port p.val).lastSb + 4096) :
    exec (.sidebandSilence p) s = .next s := by
  rw [show exec (.sidebandSilence p) s = execSidebandSilence p s from rfl, execSidebandSilence, awake_of_Powered h]
  dsimp only
  rw [if_neg]
  simp only [Bool.and_eq_true, bne_iff_ne, decide_eq_true_eq, not_and, Nat.not_le]
  exact fun hon => hidle.resolve_left hon.2

/-- A changed state is told the partner (R92). -/
theorem exec_linkStateMessage (hsb : (s.port p.val).sbUp = true) (hdue : (s.port p.val).stChanged = true ∨ (s.port p.val).st ≠ .active) :
    exec (.linkStateMessage p) s = .next { (s.setPort p.val { s.port p.val with stChanged := false, lastLinkState := s.cclk }) with
      out := .linkState p (s.port p.val).st :: s.out } := by
  rw [show exec (.linkStateMessage p) s = execLinkStateMessage p s from rfl, execLinkStateMessage, awake_of_Powered h]
  dsimp only
  rw [if_neg]
  · rfl
  · simp only [hsb, Bool.not_true, Bool.false_or, Bool.and_eq_true, Bool.not_eq_true', beq_iff_eq, not_and]
    exact fun hsame hactive => hdue.elim (by simp [hsame]) (fun hst => hst hactive)

end

section
variable {s : State} {p : PortId}

/-- A sideband that is down is not lost again. -/
theorem sidebandLost_idle (hsb : (s.port p.val).sbUp = false) : sidebandLost s p = s := by
  rw [sidebandLost, if_pos (by simp [hsb])]

/-- A lost sideband takes the port DOWN with it, and no Pennant has left on it since (R66, R91). -/
theorem sidebandLost_down (hsb : (s.port p.val).sbUp = true) :
    let y := (sidebandLost s p).port p.val
    y.sbUp = false ∧ y.penBeat = none ∧ ((s.port p.val).st = .disabled ∨ y.st = .down) := by
  intro y
  have hdown : ∀ u : State, u = (if (s.port p.val).st == .down || (s.port p.val).st == .disabled then s else goDown s p true) →
      (s.port p.val).st = .disabled ∨ (u.port p.val).st = .down := by
    rintro u rfl
    split
    · next hst => simpa [or_comm] using hst
    · exact .inr (goDown_st s p true)
  obtain ⟨u, hu⟩ : ∃ u, u = (if (s.port p.val).st == .down || (s.port p.val).st == .disabled then s else goDown s p true) := ⟨_, rfl⟩
  have hlost : sidebandLost s p = refreshReach ((losePath u p .side).modPort p.val (fun x => { x with sbUp := false, penBeat := none })) p := by
    rw [sidebandLost, if_neg (by simp [hsb]), hu]
  have hstand := (refreshReach_keepsPorts standing_trig ((losePath u p .side).modPort p.val (fun x => { x with sbUp := false, penBeat := none })) p).2 p.val
  rw [State.port_modPort_same, ← hlost] at hstand
  have hst : y.st = (u.port p.val).st := (Port.st_of_standing hstand).trans (Port.st_of_standing ((losePath_keepsStanding u p .side).2 p.val))
  exact ⟨Port.sbUp_of_standing hstand, Port.penBeat_of_standing hstand, hst ▸ hdown u hu⟩

end

/-! ### O36 -/

/-- A rung below a trained mode is x32, at 32 GT/s only from x64 (R81). -/
theorem Port.rung_of_fast {x : Port} (hx : x.x64 = true ∨ x.rate32 = true) : x.rung = some (false, x.x64 && x.rate32) := by
  rw [Port.rung]
  cases hwide : x.x64 with
  | true => rfl
  | false => simp [hx.resolve_left (by simp [hwide])]

/-- Below x32 at 16 GT/s there is none (R81). -/
theorem Port.rung_of_slow {x : Port} (hwide : x.x64 = false) (hfast : x.rate32 = false) : x.rung = none := by
  simp [Port.rung, hwide, hfast]

/-- Settles O36, by a lemma per event of a port and of its sideband. -/
theorem portsChangeState : Obligations.PortsChangeState := by
  unfold Obligations.PortsChangeState
  refine ⟨fun s p => ?_, fun s p => ?_⟩
  · intro x becomes h
    refine ⟨fun hrest => ?_, fun hst hheld => ?_, fun hst => ⟨?_, ?_⟩, fun hst => ⟨?_, ?_⟩, fun hst hsb hinit => ?_,
      exec_retrainEntry_due h, exec_retrainEntry_not_due h, fun hst ok rx tx => ?_, exec_linkDown_idle h,
      fun hst hst' => ⟨_, exec_linkDown h hst hst', goDown_st s p true, (goDown_standing s p true).2 rfl⟩,
      fun hsb hst => ⟨exec_partnerTrainingRequest_train h hsb hst, exec_partnerTrainingRequest_retrain h hsb hst,
        exec_partnerTrainingRequest_down h hsb hst⟩⟩
    · exact ⟨⟨_, exec_portEnable h, portEnable_trains hrest⟩, ⟨_, exec_hlCtrlEnable h, portEnable_trains hrest⟩⟩
    · rw [exec_portEnable h, exec_hlCtrlEnable h, portEnable_other hst hheld]
      exact ⟨rfl, rfl⟩
    · exact ⟨_, exec_hlCtrlDisable h, portDisable_rests hst⟩
    · exact ⟨_, exec_hlCtrlReset h, portReset_trains hst⟩
    · rw [exec_hlCtrlDisable h, portDisable, if_pos hst]
    · rw [exec_hlCtrlReset h, portReset, if_pos hst]
      rfl
    · intro tries32 failed
      have hfailed : ∀ i, exec i s = .next (trainFailed s p) → failed i := fun i hi =>
        ⟨fun hfew => by rw [hi, trainFailed_again hfew], fun hmany hfast => by rw [hi, trainFailed_slower hmany hfast],
          fun hmany hslow => ⟨_, hi, trainFailed_down hmany hslow⟩⟩
      refine ⟨hfailed _ (exec_trainingComplete_failed h hst hsb hinit), fun rx tx rev => ?_, fun o ho => ?_, fun n => ?_⟩
      · intro low high wide
        exact ⟨fun hlow hhigh => hfailed _ (exec_trainingComplete_unmended h hst hsb hinit rev hlow hhigh),
          exec_trainingComplete_mended h hst hsb hinit rev rfl rfl rfl⟩
      · rw [exec_trainingComplete_asked h hst hsb hinit, askOption_none]
        simp only [List.mem_cons, List.not_mem_nil, or_false] at ho
        rcases ho with rfl | rfl | rfl <;> rfl
      · rw [exec_trainingComplete_asked h hst hsb hinit, askOption_width]
    · intro low high mends
      have hrepairs : (if ok then x.repairs rx tx else none) = if mends then some (spares rx tx low high) else none := by
        rw [Port.repairs_eq]
        cases ok <;> simp [mends, low, high]
      refine ⟨fun hm => ?_, fun hm => ?_, fun hm hmany hfast => ?_, fun hm hmany hwide hslow => ?_⟩
      · exact exec_retrainAttemptDone_ok h hst (hrepairs.trans (if_pos hm))
      · exact exec_retrainAttemptDone_again h hst (hrepairs.trans (if_neg hm))
      · exact exec_retrainAttemptDone_rung h hst (hrepairs.trans (if_neg hm)) hmany (Port.rung_of_fast hfast)
      · exact exec_retrainAttemptDone_down h hst (hrepairs.trans (if_neg hm)) hmany (Port.rung_of_slow hwide hslow)
  · intro x becomes lost h
    refine ⟨exec_sidebandUp h, exec_sidebandUp_idle h, fun hsb => ⟨_, exec_sidebandDown h, sidebandLost_down hsb⟩, fun hsb => ?_,
      fun hsb hst hlong => ⟨_, exec_sidebandSilence h hsb hst hlong, sidebandLost_down hsb⟩, exec_sidebandSilence_idle h, exec_linkStateMessage h⟩
    rw [exec_sidebandDown h, sidebandLost_idle hsb]

end Sys2Proof.Machine
end

section
/-!
SUPPORT. Pennants that leave (R89 to R91, R96, R101): what PENNANT_PERIODIC_SEND and PENNANT_TRIGGERED_SEND do, and O41.
-/
namespace Sys2Proof.Machine

open Sys2Proof.Stated

/-- A Pennant is 88 bytes long (Table 5-2). -/
@[simp] theorem Pennant.bytes_length (x : Pennant) : x.bytes.length = 88 := by
  simp [Pennant.bytes]

/-- A routed Pennant changes nothing but the messages that wait. -/
theorem routed_eq (s : State) (dst : BitVec 6) (pn : Pennant) : routed s dst pn = { s with tx := (routed s dst pn).tx } := by
  unfold routed
  split <;> rfl

@[simp] theorem routed_member (s : State) (dst : BitVec 6) (pn : Pennant) : (routed s dst pn).member = s.member := by rw [routed_eq]
@[simp] theorem routed_port (s : State) (dst : BitVec 6) (pn : Pennant) (q : Nat) : (routed s dst pn).port q = s.port q := by
  rw [routed_eq]; rfl

/-- A link-local Pennant leaves the membership. -/
@[simp] theorem sendPennant_member (s : State) (p : PortId) (trig : Bool) : (sendPennant s p trig).member = s.member := rfl

/-- A link-local Pennant takes the assignment of its port with it and starts the count of strokes anew (R91, R96). -/
theorem sendPennant_port (s : State) (p : PortId) (trig : Bool) :
    (sendPennant s p trig).port p.val = { s.port p.val with assign := none, penBeat := some s.mast.beats } := by
  rw [sendPennant, State.port_setPort_same]

/-- A link-local Pennant is one more message for its port, of MGMT and 88 bytes (R89, Table 5-2). -/
theorem sendPennant_tx (s : State) (p : PortId) (trig : Bool) : ∃ m : TxMsg, (sendPennant s p trig).tx = s.tx ++ [m] ∧
    m.port = some p ∧ m.msg.ll = true ∧ m.msg.op = 6 ∧ m.msg.data.length = 88 :=
  ⟨_, rfl, rfl, rfl, rfl, Pennant.bytes_length _⟩

/-- A port's TRIGGERED Pennant sent: its count is one less (R91). -/
def triggeredSent (s : State) (p : PortId) : State :=
  (sendPennant s p true).modPort p.val (fun y => { y with trig := y.trig - 1 })

theorem triggeredSent_trig (s : State) (p : PortId) : ((triggeredSent s p).port p.val).trig = (s.port p.val).trig - 1 := by
  rw [triggeredSent, State.port_modPort_same, sendPennant_port]

/-- The report owed is told to the assigner with a TRIGGERED Pennant on port p (R101). -/
def reportTold (t : State) (p : PortId) : State :=
  let u := routed t t.assignerId { t.body 1 p.val with mask := t.member.changed }
  { u with member := { u.member with changed := 0, owe := false } }

/-- After a report told nothing is owed, and the ports are as they were. -/
theorem reportTold_leaves (t : State) (p : PortId) :
    (reportTold t p).member = { t.member with changed := 0, owe := false } ∧ ∀ q, (reportTold t p).port q = t.port q := by
  unfold reportTold
  exact ⟨by rw [routed_eq], fun q => routed_port ..⟩

section
variable {s : State} {p : PortId} (h : Powered s)
include h

/-- Without a sideband no Pennant leaves (R91). -/
theorem exec_pennantSend_down (hsb : (s.port p.val).sbUp = false) :
    exec (.pennantPeriodicSend p) s = .next s ∧ exec (.pennantTriggeredSend p) s = .next s := by
  rw [show exec (.pennantPeriodicSend p) s = execPennantPeriodicSend p s from rfl, execPennantPeriodicSend, awake_of_Powered h,
    show exec (.pennantTriggeredSend p) s = execPennantTriggeredSend p s from rfl, execPennantTriggeredSend, awake_of_Powered h]
  simp [hsb]

/-- The first Pennant on a port with a sideband and no TRIGGERED one owed leaves at once (R91). -/
theorem exec_pennantPeriodicSend_first (hsb : (s.port p.val).sbUp = true) (htrig : (s.port p.val).trig = 0)
    (hnone : (s.port p.val).penBeat = none) : exec (.pennantPeriodicSend p) s = .next (sendPennant s p false) := by
  rw [show exec (.pennantPeriodicSend p) s = execPennantPeriodicSend p s from rfl, execPennantPeriodicSend, awake_of_Powered h]
  simp [hsb, htrig, hnone]

/-- A later PERIODIC Pennant leaves in each stroke where the port is eager, else 1,024 strokes after the last (R91). -/
theorem exec_pennantPeriodicSend_again {b : Nat} (hsb : (s.port p.val).sbUp = true) (htrig : (s.port p.val).trig = 0)
    (hb : (s.port p.val).penBeat = some b) : exec (.pennantPeriodicSend p) s =
      .next (if (s.eager p.val && b < s.mast.beats) || b + 1024 ≤ s.mast.beats then sendPennant s p false else s) := by
  rw [show exec (.pennantPeriodicSend p) s = execPennantPeriodicSend p s from rfl, execPennantPeriodicSend, awake_of_Powered h]
  simp [hsb, htrig, hb]

/-- A TRIGGERED Pennant waits for the next stroke (R91). -/
theorem exec_pennantTriggeredSend_waits (hnew : (s.port p.val).trig ≠ 4) (hbeat : (s.port p.val).penBeat = some s.mast.beats) :
    exec (.pennantTriggeredSend p) s = .next s := by
  rw [show exec (.pennantTriggeredSend p) s = execPennantTriggeredSend p s from rfl, execPennantTriggeredSend, awake_of_Powered h]
  simp [hnew, hbeat]

/-- A TRIGGERED Pennant that is due leaves, its count one less, and the report that is owed goes to the assigner (R91, R101). -/
theorem exec_pennantTriggeredSend_due (hsb : (s.port p.val).sbUp = true) (htrig : 0 < (s.port p.val).trig)
    (hdue : (s.port p.val).trig = 4 ∨ (s.port p.val).penBeat ≠ some s.mast.beats) :
    exec (.pennantTriggeredSend p) s = .next (if !s.member.owe || s.member.assigner || s.member.id.isNone then triggeredSent s p
      else reportTold (triggeredSent s p) p) := by
  rw [show exec (.pennantTriggeredSend p) s = execPennantTriggeredSend p s from rfl, execPennantTriggeredSend, awake_of_Powered h]
  have hnow : ((s.port p.val).trig != 4 && (s.port p.val).penBeat == some s.mast.beats) = false := by
    rcases hdue with hd | hd <;> simp [hd]
  simp only [hsb, hnow, Nat.pos_iff_ne_zero.mp htrig, Bool.not_true, Bool.false_or, decide_false, Bool.false_eq_true, if_false]
  rfl

end

/-- A die with an ID and a VERIFIED partner on a port sends there no more than every 1,024 strokes (R91). -/
theorem eager_of_partner {s : State} {p : Nat} (hid : s.member.id.isSome = true) (hp : (s.partnerOf p).isSome = true) : s.eager p = false := by
  have hsome : s.member.id.isNone = false := by rw [← Option.not_isSome, hid]; rfl
  unfold State.partnerOf at hp
  unfold State.eager
  rw [hsome, Bool.false_or]
  split at hp
  · next heq =>
    split at hp
    · next hv =>
      simp only [Bool.and_eq_true, beq_iff_eq] at hv
      simp [hv]
    · exact absurd hp (by decide)
  · exact absurd hp (by decide)

/-- Settles O41: each command is its condition, and a Pennant sent is one message and a port that remembers it. -/
theorem pennantsLeaveWhenDue : Obligations.PennantsLeaveWhenDue := by
  unfold Obligations.PennantsLeaveWhenDue
  intro s p h
  dsimp only
  refine ⟨exec_pennantSend_down h, fun hsb htrig => ⟨fun hnone => ?_, fun b hb => ⟨fun hlong => ?_, fun hid hb' => ?_, fun hid hp hlt => ?_⟩⟩,
    fun _ _ => exec_pennantTriggeredSend_waits h, fun hsb htrig hdue => ⟨fun howe => ?_, fun howe hassign hid => ?_⟩, fun trig => ?_⟩
  · exact exec_pennantPeriodicSend_first h hsb htrig hnone
  · rw [exec_pennantPeriodicSend_again h hsb htrig hb]
    simp [hlong]
  · rw [exec_pennantPeriodicSend_again h hsb htrig hb]
    simp [State.eager, hid, hb']
  · rw [exec_pennantPeriodicSend_again h hsb htrig hb]
    simp [eager_of_partner hid hp, Nat.not_le.mpr hlt]
  · have hquiet : (!s.member.owe || s.member.assigner || s.member.id.isNone) = true := by rcases howe with ho | ho | ho <;> simp [ho]
    rw [exec_pennantTriggeredSend_due h hsb htrig hdue, if_pos hquiet]
    rfl
  · refine ⟨_, exec_pennantTriggeredSend_due h hsb htrig hdue, ?_⟩
    obtain ⟨hmember, hports⟩ := reportTold_leaves (triggeredSent s p) p
    rw [if_neg (by simp [howe, hassign, Option.isSome_iff_ne_none.mp hid]), hports]
    exact ⟨hmember, triggeredSent_trig s p⟩
  · obtain ⟨m, htx, hm⟩ := sendPennant_tx s p trig
    refine ⟨?_, ?_, ?_, m, htx, hm⟩
    · rw [htx, List.length_append]; rfl
    · rw [sendPennant_port]
    · rw [sendPennant_port]

end Sys2Proof.Machine
end


section
/-!
SUPPORT. What a change of the die table leaves of the die (R91, R93, R97, R101, R103): membership and ports alone change, and
of the membership the table and the notes of the change.
-/
namespace Sys2Proof.Machine

open Sys2Proof.Stated

/-! ### Frames -/

/-- From s to t only membership and ports change. -/
def OnlyMembership (s t : State) : Prop := t = { s with member := t.member, ports := t.ports }

theorem OnlyMembership.trans {s t u : State} (h : OnlyMembership s t) (h' : OnlyMembership t u) : OnlyMembership s u := by
  unfold OnlyMembership at *
  rw [h', h]

/-- From m to m' only the die table and the notes of its changes change: who leads since when, and what is to be reported. -/
def Member.Noted (m m' : Member) : Prop := m' = { m with
  dies := m'.dies, leaderSince := m'.leaderSince, changed := m'.changed, owe := m'.owe, reports := m'.reports
  reported := m'.reported, reportBeat := m'.reportBeat }

theorem Member.Noted.trans {m m' m'' : Member} (h : m.Noted m') (h' : m'.Noted m'') : m.Noted m'' := by
  unfold Member.Noted at *
  rw [h', h]

/-- From s to t the die table becomes the given one, and nothing else changes but ports and notes. -/
structure EntriesPut (dies : Table DieEntry) (s t : State) : Prop where
  frame : OnlyMembership s t
  noted : s.member.Noted t.member
  dies : t.member.dies = dies

namespace EntriesPut

variable {s t u : State} {l l' : Table DieEntry}

theorem refl (s : State) : EntriesPut s.member.dies s s := ⟨rfl, rfl, rfl⟩

theorem trans (h : EntriesPut l s t) (h' : EntriesPut l' t u) : EntriesPut l' s u :=
  ⟨h.frame.trans h'.frame, h.noted.trans h'.noted, h'.dies⟩

/-- A change that leaves the table after one that put it. -/
theorem before (h : EntriesPut l s t) (h' : EntriesPut t.member.dies t u) : EntriesPut l s u := h.dies ▸ h.trans h'

theorem ite {c : Prop} [Decidable c] (h : EntriesPut l s t) (h' : EntriesPut l s u) : EntriesPut l s (if c then t else u) := by
  split
  · exact h
  · exact h'

theorem id (h : EntriesPut l s t) : t.member.id = s.member.id := by rw [h.noted]
theorem epoch (h : EntriesPut l s t) : t.member.epoch = s.member.epoch := by rw [h.noted]
theorem fenced (h : EntriesPut l s t) : t.member.fenced = s.member.fenced := by rw [h.noted]
theorem handshakes (h : EntriesPut l s t) : t.member.handshakes = s.member.handshakes := by rw [h.noted]
theorem mast (h : EntriesPut l s t) : t.mast = s.mast := by rw [h.frame]
theorem parts (h : EntriesPut l s t) : t.parts = s.parts := by rw [h.frame]

end EntriesPut

/-! ### The parts of a change -/

theorem triggerAll_entriesPut (s : State) : EntriesPut s.member.dies s (triggerAll s) := by
  have h := triggerAll_onlyPorts s
  generalize triggerAll s = t at h ⊢
  unfold OnlyPorts at h
  rw [h]
  exact ⟨rfl, rfl, rfl⟩

@[simp] theorem triggerAll_member (s : State) : (triggerAll s).member = s.member := by
  have h := triggerAll_onlyPorts s
  unfold OnlyPorts at h
  rw [h]

theorem noteChange_entriesPut (s : State) (d : Option Nat) : EntriesPut s.member.dies s (noteChange s d) := by
  unfold noteChange
  dsimp only
  have hnote : EntriesPut s.member.dies s (if s.member.assigner then takeReport s (match d with | some d => setBit (0 : Word) d | none => 0)
      else { s with member := { s.member with changed := s.member.changed ||| (match d with | some d => setBit (0 : Word) d | none => 0), owe := true } }) :=
    .ite ⟨rfl, rfl, rfl⟩ ⟨rfl, rfl, rfl⟩
  exact hnote.before (triggerAll_entriesPut _)

theorem noteLeader_entriesPut (before : Word) (s : State) : EntriesPut s.member.dies s (noteLeader before s) :=
  .ite (.refl s) ⟨rfl, rfl, rfl⟩

/-- An entry as it is put: an ABSENT one keeps SB_REACH, any other takes that of its port (R93, R103). -/
def State.entryAs (s : State) (d : Nat) (e : DieEntry) : DieEntry :=
  { e with sbReach := if e.st == .absent && (s.die d).st == .absent then (s.die d).sbReach else (s.port e.port.val).sbUp }

@[simp] theorem State.entryAs_st (s : State) (d : Nat) (e : DieEntry) : (s.entryAs d e).st = e.st := rfl
@[simp] theorem State.entryAs_uid (s : State) (d : Nat) (e : DieEntry) : (s.entryAs d e).uid = e.uid := rfl
@[simp] theorem State.entryAs_port (s : State) (d : Nat) (e : DieEntry) : (s.entryAs d e).port = e.port := rfl
@[simp] theorem State.entryAs_fenced (s : State) (d : Nat) (e : DieEntry) : (s.entryAs d e).fenced = e.fenced := rfl

/-- An entry put changes that entry, ports and notes. -/
theorem putDie_entriesPut (s : State) (d : Nat) (e : DieEntry) :
    EntriesPut (Table.set {} s.member.dies d (s.entryAs d e)) s (putDie s d e) := by
  unfold putDie
  extract_lets old f t u
  have hset : EntriesPut (Table.set {} s.member.dies d f) s t := ⟨rfl, rfl, rfl⟩
  have hleader : EntriesPut (Table.set {} s.member.dies d f) s u := .ite hset (hset.before (noteLeader_entriesPut _ _))
  exact .ite (hleader.before (noteChange_entriesPut _ _)) (.ite (hleader.before (triggerAll_entriesPut _)) hleader)

theorem putDie_die (s : State) (d i : Nat) (e : DieEntry) : (putDie s d e).die i = if i = d then s.entryAs d e else s.die i := by
  rw [State.die, (putDie_entriesPut s d e).dies, Table.get_set]
  rfl

@[simp] theorem putDie_die_same (s : State) (d : Nat) (e : DieEntry) : (putDie s d e).die d = s.entryAs d e := by
  rw [putDie_die, if_pos rfl]

theorem putDie_die_other (s : State) {d i : Nat} (e : DieEntry) (h : i ≠ d) : (putDie s d e).die i = s.die i := by
  rw [putDie_die, if_neg h]

/-! ### Entries that go ABSENT (R88, R103) -/

/-- From s to t only membership, ports, cores, senders and awaited late responses change. -/
def OnlyReach (s t : State) : Prop := t = { s with member := t.member, ports := t.ports, cores := t.cores, senders := t.senders, late := t.late }

theorem OnlyReach.trans {s t u : State} (h : OnlyReach s t) (h' : OnlyReach t u) : OnlyReach s u := by
  unfold OnlyReach at *
  rw [h', h]

theorem OnlyMembership.reach {s t : State} (h : OnlyMembership s t) : OnlyReach s t := by
  unfold OnlyMembership at h
  unfold OnlyReach
  rw [h]

/-- From s to t only cores change. -/
def OnlyCores (s t : State) : Prop := t = { s with cores := t.cores }

theorem OnlyCores.trans {s t u : State} (h : OnlyCores s t) (h' : OnlyCores t u) : OnlyCores s u := by
  unfold OnlyCores at *
  rw [h', h]

theorem OnlyCores.foldl {α : Type} {f : State → α → State} (hf : ∀ s x, OnlyCores s (f s x)) (l : List α) (s : State) :
    OnlyCores s (l.foldl f s) :=
  List.foldlRecOn (motive := OnlyCores s) l f rfl fun _ hu x _ => hu.trans (hf _ x)

theorem failDesc_onlyCores (s : State) (c n : Nat) (idx : BitVec 16) (st : Byte) : OnlyCores s (failDesc s c n idx st) := by
  have hchan : ∀ g, OnlyCores s (modChan s c n g) := fun _ => rfl
  have hfail : ∀ u, OnlyCores u (failStep u c) := fun _ => rfl
  have hfree : ∀ u, OnlyCores u (freeSettled u c n idx) := fun _ => rfl
  exact ((hchan _).trans (hfail _)).trans (hfree _)

/-- Credits forfeited are the cores'. -/
theorem forfeit_onlyCores (s : State) (d : BitVec 6) : OnlyCores s (forfeit s d) := by
  refine OnlyCores.foldl (fun s c => ?_) _ _
  have hcredits : ∀ (u : State) (f : Core → Core), OnlyCores u (u.modCore c f) := fun _ _ => rfl
  refine (OnlyCores.foldl (fun s n => ?_) _ _).trans (hcredits _ _)
  split
  · exact failDesc_onlyCores ..
  · rfl

/-- The table with an entry gone ABSENT. -/
def State.withoutDie (s : State) (d : Nat) : Table DieEntry :=
  if (s.die d).st == .absent then s.member.dies
  else Table.set {} s.member.dies d (s.entryAs d { s.die d with st := .absent, count := 0, direct := false })

/-- An entry that goes ABSENT: that entry, its handshake, notes, and what is owed to or by its die (R88, R103). -/
theorem toAbsent_leaves (s : State) (d : Nat) : OnlyReach s (toAbsent s d) ∧ (toAbsent s d).member.dies = s.withoutDie d ∧
    Member.Noted { s.member with handshakes := (toAbsent s d).member.handshakes } (toAbsent s d).member ∧
    (∀ h ∈ (toAbsent s d).member.handshakes, h ∈ s.member.handshakes) := by
  unfold toAbsent State.withoutDie
  dsimp only
  split
  · exact ⟨rfl, rfl, rfl, fun _ h => h⟩
  · have hput := putDie_entriesPut s d { s.die d with st := .absent, count := 0, direct := false }
    generalize putDie s d { s.die d with st := .absent, count := 0, direct := false } = t at hput ⊢
    obtain ⟨hframe, hnoted, hdies⟩ := hput
    rw [forfeit_onlyCores]
    refine ⟨hframe.reach.trans rfl, hdies, ?_, fun h hh => ?_⟩
    · unfold Member.Noted at hnoted ⊢
      rw [hnoted]
    · rw [hnoted] at hh
      exact (List.mem_filter.mp hh).1

/-- An entry that went ABSENT is ABSENT and no longer direct, and every other entry is as it was. -/
theorem toAbsent_die (s : State) (d i : Nat) : (toAbsent s d).die i =
    if i = d ∧ (s.die d).st ≠ .absent then s.entryAs d { s.die d with st := .absent, count := 0, direct := false } else s.die i := by
  obtain ⟨-, hdies, -⟩ := toAbsent_leaves s d
  rw [State.die, hdies, State.withoutDie]
  by_cases hst : (s.die d).st = .absent
  · rw [if_pos (by simp [hst]), if_neg (by simp [hst])]
    rfl
  · rw [if_neg (by simp [hst]), Table.get_set]
    simp only [hst, ne_eq, not_false_eq_true, and_true]
    rfl

@[simp] theorem toAbsent_st (s : State) (d : Nat) : ((toAbsent s d).die d).st = .absent := by
  rw [toAbsent_die]
  split
  · rfl
  · next h => simpa using h

theorem toAbsent_die_other (s : State) {d i : Nat} (h : i ≠ d) : (toAbsent s d).die i = s.die i := by
  rw [toAbsent_die, if_neg (by simp [h])]

end Sys2Proof.Machine
end


section
/-!
SUPPORT. Pennants that arrive (R90, R93, R94, R104): a new partner, a claim of a held ID, the handshake, fences, and O42.
-/
namespace Sys2Proof.Machine

open Sys2Proof.Stated

/-! ### Pennants taken (R66, R90) -/

/-- A message taken leaves the membership, and of each port its standing. -/
theorem takeArrived_leaves (s : State) (sel : Arrived → Bool) :
    (takeArrived s sel).member = s.member ∧ KeepsPorts Port.standing s (takeArrived s sel) := by
  unfold takeArrived
  split
  · exact ⟨rfl, .refl s⟩
  · exact ⟨rfl, KeepsPorts.trans (.of_eq rfl rfl) (freeBuffers_keepsStanding ..)⟩

/-- A Pennant taken leaves the membership, and whether a port is usable. -/
theorem takePennant_leaves (s : State) (pn : Pennant) (sel : Arrived → Bool) :
    (takePennant s pn sel).member = s.member ∧ ∀ q, ((takePennant s pn sel).port q).usable = (s.port q).usable := by
  obtain ⟨hmember, -, hstanding⟩ := takeArrived_leaves s
    fun a => sel a && a.msg.op == opMgmt && a.msg.data.head? == some 1 && Pennant.ofBytes a.msg.data == pn
  rw [takePennant]
  refine ⟨hmember, fun q => ?_⟩
  have hst := congrArg Standing.st (hstanding q)
  simp only [Port.standing] at hst
  rw [Port.usable, Port.usable, hst]

section
variable {s : State} (h : s.arrived = []) (pn : Pennant) (sel : Arrived → Bool)
include h

/-- Where no message waits a Pennant is taken from none. -/
theorem takePennant_of_none : takePennant s pn sel = s := by
  rw [takePennant, takeArrived, h, List.find?_nil]

theorem pennantBad_of_none : s.pennantBad pn sel = pn.bad := by
  rw [State.pennantBad, State.arrivedPennant, h, List.find?_nil, Bool.or_false]

theorem pennantPort_of_none : s.pennantPort pn = (s.die pn.dieId.toNat).port := by
  rw [State.pennantPort, State.arrivedPennant, h, List.find?_nil]

end

/-- An epoch that is not above the own is not adopted (R101). -/
theorem adoptEpoch_of_le {s : State} {e : BitVec 32} (h : e ≤ s.member.epoch) (mask : Option Word) : adoptEpoch s e mask = s := by
  rw [adoptEpoch, if_pos h]

/-! ### Requests held (R94) -/

/-- From s to t only the messages that wait change. -/
def OnlyTx (s t : State) : Prop := t = { s with tx := t.tx }

theorem OnlyTx.trans {s t u : State} (h : OnlyTx s t) (h' : OnlyTx t u) : OnlyTx s u := by
  unfold OnlyTx at *
  rw [h', h]

theorem OnlyTx.foldl {α : Type} {f : State → α → State} (hf : ∀ s x, OnlyTx s (f s x)) (l : List α) (s : State) :
    OnlyTx s (l.foldl f s) :=
  List.foldlRecOn (motive := OnlyTx s) l f rfl fun _ hu x _ => hu.trans (hf _ x)

/-- Held requests answered: messages, and the requests leave. -/
theorem answerHeld_onlyTx (s : State) (d : Nat) :
    OnlyTx { s with member := { s.member with held := s.member.held.filter (fun h => h.src.toNat != d) } } (answerHeld s d) := by
  refine OnlyTx.foldl (fun s h => ?_) _ _
  split
  · exact routed_eq ..
  · rfl

@[simp] theorem answerHeld_die (s : State) (d i : Nat) : (answerHeld s d).die i = s.die i := by rw [answerHeld_onlyTx]; rfl
@[simp] theorem answerHeld_port (s : State) (d i : Nat) : (answerHeld s d).port i = s.port i := by rw [answerHeld_onlyTx]; rfl
@[simp] theorem answerHeld_epoch (s : State) (d : Nat) : (answerHeld s d).member.epoch = s.member.epoch := by rw [answerHeld_onlyTx]

/-! ### A new partner (R93) -/

theorem port_with_member (s : State) (m : Member) (q : Nat) : State.port { s with member := m } q = s.port q := rfl

/-- What the body of a link-local Pennant leaves before its ID is looked at (R92, R97, R99). -/
def linkHeard (s : State) (p : PortId) (pn : Pennant) : State :=
  let u := s.modPort p.val (fun x => { x with
    lastHeard := s.mast.beats, silentSeen := false, partner := some (pn.dieId, pn.idV, pn.port, pn.role, pn.uid) })
  hearLeader { u with member := { u.member with
    routes := Table.set 0 u.member.routes p.val pn.route, heardRoute := setBit u.member.heardRoute p.val } } pn

theorem noteLeader_eq (before : Word) (s : State) : noteLeader before s =
    { s with member := { s.member with leaderSince := (noteLeader before s).member.leaderSince } } := by
  unfold noteLeader
  split <;> rfl

/-- What is heard of the leader is noted in the membership alone. -/
theorem hearLeader_eq (s : State) (pn : Pennant) : hearLeader s pn = { s with member := { s.member with
    leader := (hearLeader s pn).member.leader, leaderSince := (hearLeader s pn).member.leaderSince } } := by
  unfold hearLeader
  dsimp only
  rw [noteLeader_eq]

theorem linkHeard_leaves (s : State) (p : PortId) (pn : Pennant) :
    let u := linkHeard s p pn
    u.member.dies = s.member.dies ∧ u.member.id = s.member.id ∧ u.member.epoch = s.member.epoch ∧
    (u.port p.val).partner = some (pn.dieId, pn.idV, pn.port, pn.role, pn.uid) ∧ (u.port p.val).usable = (s.port p.val).usable := by
  have hport : (linkHeard s p pn).port p.val = { s.port p.val with
      lastHeard := s.mast.beats, silentSeen := false, partner := some (pn.dieId, pn.idV, pn.port, pn.role, pn.uid) } := by
    unfold linkHeard
    rw [hearLeader_eq, port_with_member]
    dsimp only
    rw [port_with_member, State.port_modPort_same]
  dsimp only
  rw [hport]
  unfold linkHeard
  rw [hearLeader_eq]
  exact ⟨rfl, rfl, rfl, rfl, rfl⟩

/-- A link-local Pennant: what is heard, the ID that it names, its ROUTE, its epoch (R91 to R101). -/
theorem linkPennant_eq (s : State) (p : PortId) (pn : Pennant) : linkPennant s p pn =
    let u := takeAssignment (linkHeard s p pn) p pn
    let v := if pn.idV then namedId u p pn else reportIdless u p pn.uid
    adoptEpoch (if (v.partnerOf p.val).isSome then dropUnreached ((List.range 64).foldl (routeSays p) v) else v)
      pn.epoch (if pn.kind = 1 then some pn.mask else none) := by
  unfold linkPennant linkHeard
  rfl

/-- A new direct entry is PROVISIONAL, count 1, one hop away on its port (Table 5-3). -/
theorem newDirect_die (s : State) (p : PortId) (d : Nat) (pn : Pennant) : (newDirect s p d pn).die d =
    s.entryAs d { (({} : DieEntry)).take pn with st := .provisional, port := p, dist := 1, count := 1, direct := true } := by
  rw [newDirect, answerHeld_die, putDie_die_same]

theorem newDirect_leaves (s : State) (p : PortId) (d : Nat) (pn : Pennant) :
    (newDirect s p d pn).member.epoch = s.member.epoch ∧ ∀ q, ((newDirect s p d pn).port q).partner = (s.port q).partner := by
  have hports := putDie_keepsPorts (reading := fun x => x.partner) (fun _ _ => rfl) s d
    { (({} : DieEntry)).take pn with st := .provisional, port := p, dist := 1, count := 1, direct := true }
  rw [newDirect, answerHeld_epoch, (putDie_entriesPut ..).epoch]
  exact ⟨rfl, fun q => by rw [answerHeld_port]; exact hports.2 q⟩

/-- A port whose partner is not VERIFIED leads to no ID (R99). -/
theorem partnerOf_of_not_verified {s : State} {p : Nat} {d : BitVec 6} {v : Bool} {x : BitVec 2 × BitVec 2 × Word}
    (hp : (s.port p).partner = some (d, v, x)) (hd : (s.die d.toNat).st ≠ .verified) : s.partnerOf p = none := by
  unfold State.partnerOf
  rw [hp]
  cases v
  · rfl
  · exact if_neg (by simp [hd])

/-- The first Pennant of an ID on a usable port makes its entry, and no more (R93). -/
theorem linkPennant_new {s : State} {p : PortId} {pn : Pennant} (hid : pn.idV = true) (hno : pn.targetV = false)
    (hepoch : pn.epoch ≤ s.member.epoch) (hown : s.member.id ≠ some pn.dieId) (hst : (s.die pn.dieId.toNat).st = .absent)
    (hfenced : (s.die pn.dieId.toNat).fenced = false) (hport : (s.port p.val).usable = true) :
    linkPennant s p pn = newDirect (linkHeard s p pn) p pn.dieId.toNat pn := by
  obtain ⟨hdies, hmid, hmepoch, hpartner, husable⟩ := linkHeard_leaves s p pn
  rw [linkPennant_eq]
  generalize linkHeard s p pn = u at hdies hmid hmepoch hpartner husable ⊢
  have hdie : ∀ d, u.die d = s.die d := fun d => by rw [State.die, hdies]; rfl
  have hassign : takeAssignment u p pn = u := by simp [takeAssignment, hno]
  have hnamed : namedId u p pn = newDirect u p pn.dieId.toNat pn := by
    simp [namedId, hmid, hown, hdie, hst, hfenced, husable, hport]
  obtain ⟨hnewEpoch, hnewPartner⟩ := newDirect_leaves u p pn.dieId.toNat pn
  have hnewDie := newDirect_die u p pn.dieId.toNat pn
  simp only [hassign, if_pos hid, hnamed]
  generalize newDirect u p pn.dieId.toNat pn = v at hnewEpoch hnewPartner hnewDie ⊢
  have hnone : v.partnerOf p.val = none :=
    partnerOf_of_not_verified ((hnewPartner _).trans hpartner) (by rw [hnewDie, State.entryAs_st]; exact EntryState.noConfusion)
  rw [if_neg (by simp [hnone]), adoptEpoch_of_le (by rw [hnewEpoch, hmepoch]; exact hepoch)]

/-! ### Claims and the handshake (R93, R94) -/

section
variable {s : State} {p : PortId} {pn : Pennant}

/-- A Pennant that names the own ID with another UID is a conflict (R93). -/
theorem routedClaim_own (hid : pn.idV = true) (hown : s.member.id = some pn.dieId) (huid : pn.uid ≠ Config.uid) :
    routedClaim s p pn = some (pennantConflict s p) := by
  simp [routedClaim, hid, hown, huid]

/-- One that names a held ID with another UID is a claim of it (R93). -/
theorem routedClaim_held (hid : pn.idV = true) (hown : s.member.id ≠ some pn.dieId) (hheld : (s.die pn.dieId.toNat).heldByOther pn.uid = true) :
    routedClaim s p pn = some (claimHeld s p pn.dieId.toNat (fun u => answerHeld (putDie u pn.dieId.toNat
      { (({} : DieEntry)).take pn with
        st := .provisional, port := p, dist := (s.die pn.dieId.toNat).dist
        count := if (s.die pn.dieId.toNat).direct then 1 else 0, direct := (s.die pn.dieId.toNat).direct }) pn.dieId.toNat)) := by
  simp [routedClaim, hid, hown, hheld]

/-- Any other Pennant claims nothing (R93). -/
theorem routedClaim_none (h : pn.idV = false ∨ (s.member.id ≠ some pn.dieId ∧ (s.die pn.dieId.toNat).heldByOther pn.uid = false)) :
    routedClaim s p pn = none := by
  rcases h with h | ⟨hown, hheld⟩
  · simp [routedClaim, h]
  · simp [routedClaim, hown, hheld]

end

/-- A claim on the port that reaches the entry replaces it; on another it is logged while the entry is not silent (R93). -/
theorem claimHeld_same {s : State} {p : PortId} {d : Nat} (h : (s.die d).port = p) (f : State → State) :
    claimHeld s p d f = f (toAbsent s d) := if_pos h

theorem claimHeld_other {s : State} {p : PortId} {d : Nat} (h : (s.die d).port ≠ p)
    (hsilent : ¬ ((s.die d).direct = true ∧ (s.port (s.die d).port.val).lastHeard + 16 ≤ s.mast.beats)) (f : State → State) :
    claimHeld s p d f = pennantConflict s p := by
  unfold claimHeld
  dsimp only
  rw [if_neg h, if_neg (by simpa using hsilent)]

section
variable {s : State} (h : Powered s) (harrived : s.arrived = []) (p : PortId) (src : BitVec 6) {pn : Pennant} (hgood : pn.bad = false)
include h harrived hgood

/-- CONFIRM_REQ in form: a claim, or an answer, or held (R94). -/
theorem exec_confirmReqReceive : exec (.confirmReqReceive p src pn) s = .next ((routedClaim s p pn).getD (
    let u := adoptEpoch s pn.epoch none
    if (u.die src.toNat).st == .absent then
      { u with member := { u.member with held := u.member.held ++ [{ src := src, pn := pn, beat := u.mast.beats }] } }
    else sendAck u src pn)) := by
  rw [show exec (.confirmReqReceive p src pn) s = execConfirmReqReceive p src pn s from rfl, execConfirmReqReceive, awake_of_Powered h]
  simp only [pennantBad_of_none harrived, takePennant_of_none harrived, hgood, Bool.false_eq_true, if_false]

/-- CONFIRM_ACK to no handshake, or not in time, or not with its NONCE and the own UID: discarded (R94). -/
theorem exec_confirmAckReceive_discarded (hepoch : pn.epoch ≤ s.member.epoch)
    (hno : ∀ x, s.member.handshakes.find? (fun y => y.id == src) = some x →
      x.nonce ≠ pn.nonce ∨ pn.peerUid ≠ Config.uid ∨ x.beat + 4 ≤ s.mast.beats) :
    exec (.confirmAckReceive p src pn) s = .next s := by
  rw [show exec (.confirmAckReceive p src pn) s = execConfirmAckReceive p src pn s from rfl, execConfirmAckReceive, awake_of_Powered h]
  simp only [pennantBad_of_none harrived, takePennant_of_none harrived, hgood, adoptEpoch_of_le hepoch, Bool.false_eq_true, if_false]
  cases hx : s.member.handshakes.find? (fun y => y.id == src) with
  | none => rfl
  | some x =>
    dsimp only
    rw [if_pos]
    rcases hno x hx with hn | hn | hn <;> simp [hn]

/-- CONFIRM_ACK in time with the NONCE and the own UID from a compatible die makes the entry VERIFIED (R93 to R95). -/
theorem exec_confirmAckReceive_verifies (hepoch : pn.epoch ≤ s.member.epoch) {x : Handshake}
    (hx : s.member.handshakes.find? (fun y => y.id == src) = some x) (hnonce : x.nonce = pn.nonce) (hpeer : pn.peerUid = Config.uid)
    (hbeat : s.mast.beats < x.beat + 4) (hst : (s.die src.toNat).st = .provisional) (hfenced : (s.die src.toNat).fenced = false)
    (huid : (s.die src.toNat).uid = pn.uid) (hfit : pn.incompatible = false) :
    exec (.confirmAckReceive p src pn) s = .next (yieldAssigner (putDie
      { s with member := { s.member with handshakes := s.member.handshakes.filter (fun y => y.id != src) } } src.toNat
      { (s.die src.toNat).take pn with st := .verified })) := by
  rw [show exec (.confirmAckReceive p src pn) s = execConfirmAckReceive p src pn s from rfl, execConfirmAckReceive, awake_of_Powered h]
  simp only [pennantBad_of_none harrived, takePennant_of_none harrived, hgood, adoptEpoch_of_le hepoch, Bool.false_eq_true, if_false, hx]
  have hheld : (s.die src.toNat).heldByOther pn.uid = false := by simp [DieEntry.heldByOther, huid]
  rw [if_neg (by simp [hnonce, hpeer, hst, hfenced, Nat.not_le.mpr hbeat]), if_neg (by simp [hheld]), if_neg (by simp [hfit])]

end

/-- An assigner that yields changes no entry and no handshake. -/
theorem yieldAssigner_leaves (s : State) : (yieldAssigner s).member.dies = s.member.dies ∧
    (yieldAssigner s).member.handshakes = s.member.handshakes := by
  unfold yieldAssigner
  split <;> exact ⟨rfl, rfl⟩

/-! ### Fences (R104) -/

section
variable {s : State} (harrived : s.arrived = []) {pn : Pennant} (f : State → Nat → State)
include harrived

theorem namedFence_bad (hbad : pn.bad = true ∨ pn.targetV = false) : namedFence s pn f = pennantConflict s (s.die pn.dieId.toNat).port := by
  unfold namedFence
  dsimp only
  rw [pennantBad_of_none harrived, takePennant_of_none harrived, pennantPort_of_none harrived, if_pos]
  rcases hbad with hb | hb <;> simp [hb]

theorem namedFence_good (hgood : pn.bad = false) (htarget : pn.targetV = true) (hepoch : pn.epoch ≤ s.member.epoch) :
    namedFence s pn f = f s pn.targetId.toNat := by
  unfold namedFence
  dsimp only
  rw [pennantBad_of_none harrived, takePennant_of_none harrived, adoptEpoch_of_le hepoch, if_neg (by simp [hgood, htarget])]

end

/-- A fenced entry is ABSENT and FENCED (R104). -/
theorem fenceEntry_die {s : State} {d : BitVec 6} (h : s.member.id ≠ some d) :
    ((fenceEntry s d.toNat).die d.toNat).fenced = true ∧ ((fenceEntry s d.toNat).die d.toNat).st = .absent := by
  have hother : some (BitVec.ofNat 6 d.toNat) ≠ s.member.id := by simpa using Ne.symm h
  unfold fenceEntry
  dsimp only
  rw [if_neg hother, putDie_die_same]
  exact ⟨rfl, toAbsent_st s d.toNat⟩

theorem reinstateEntry_die (s : State) (d : Nat) :
    ((reinstateEntry s d).die d).fenced = false ∧ ((reinstateEntry s d).die d).st = (s.die d).st := by
  rw [reinstateEntry, putDie_die_same]
  exact ⟨rfl, rfl⟩

/-- A FENCE that names another die fences it; one for the own die fences that (R104). -/
theorem exec_fencePennantReceive {s : State} (h : Powered s) (pn : Pennant) : exec (.fencePennantReceive pn) s =
    .next (namedFence s pn fun s d => if s.member.id != some pn.targetId then fenceEntry s d
      else if pn.peerUid == Config.uid then fenceSelf (fenceEntry s d) else s) := by
  rw [show exec (.fencePennantReceive pn) s = execFencePennantReceive pn s from rfl, execFencePennantReceive, awake_of_Powered h]

/-- The own die's fence ends (R104). -/
def reinstateSelf (s : State) : State :=
  triggerAll { s with member := { s.member with fenced := false, health := if s.member.health = 2 then 0 else s.member.health } }

theorem exec_reinstatePennantReceive {s : State} (h : Powered s) (pn : Pennant) : exec (.reinstatePennantReceive pn) s =
    .next (namedFence s pn fun s d => if s.member.id != some pn.targetId then reinstateEntry s d
      else if pn.peerUid == Config.uid then reinstateEntry (reinstateSelf s) d else s) := by
  rw [show exec (.reinstatePennantReceive pn) s = execReinstatePennantReceive pn s from rfl, execReinstatePennantReceive, awake_of_Powered h]
  rfl

theorem fenceSelf_member (s : State) : (fenceSelf s).member = { s.member with fenced := true, health := 2, assigner := false } :=
  triggerAll_member _

theorem reinstateEntry_self_fenced (s : State) (d : Nat) : (reinstateEntry (reinstateSelf s) d).member.fenced = false := by
  rw [reinstateEntry, (putDie_entriesPut ..).fenced, reinstateSelf, triggerAll_member]

/-- A link-local Pennant that breaks R90 is discarded and logged. -/
theorem exec_pennantLinkReceive_bad {s : State} (h : Powered s) (p : PortId) (ll : Bool) (pn : Pennant)
    (hbad : s.pennantBad pn (fun b => b.port == p && b.msg.ll == ll) = true) : exec (.pennantLinkReceive p ll pn) s =
      .next (pennantConflict (takePennant s pn fun b => b.port == p && b.msg.ll == ll) p) := by
  rw [show exec (.pennantLinkReceive p ll pn) s = execPennantLinkReceive p ll pn s from rfl, execPennantLinkReceive, awake_of_Powered h]
  simp only [hbad, Bool.true_or, if_true]

/-- A link-local PERIODIC or TRIGGERED Pennant in form is heard (R89). -/
theorem exec_pennantLinkReceive_good {s : State} (h : Powered s) (p : PortId) (pn : Pennant)
    (hgood : s.pennantBad pn (fun b => b.port == p && b.msg.ll == true) = false) (hkind : pn.kind = 0 ∨ pn.kind = 1) :
    exec (.pennantLinkReceive p true pn) s = .next (linkPennant (takePennant s pn fun b => b.port == p && b.msg.ll == true) p pn) := by
  have hk : (!(pn.kind == 0 || pn.kind == 1)) = false := by rcases hkind with hk | hk <;> simp [hk]
  rw [show exec (.pennantLinkReceive p true pn) s = execPennantLinkReceive p true pn s from rfl, execPennantLinkReceive, awake_of_Powered h]
  simp only [hgood, hk, Bool.or_self, Bool.false_eq_true, if_false, if_true]

/-- What the first Pennant of an ID on a usable port leaves of its entry and port (R93). -/
theorem linkPennant_new_leaves {s : State} {p : PortId} {pn : Pennant} (hid : pn.idV = true) (hno : pn.targetV = false)
    (hepoch : pn.epoch ≤ s.member.epoch) (hown : s.member.id ≠ some pn.dieId) (hst : (s.die pn.dieId.toNat).st = .absent)
    (hfenced : (s.die pn.dieId.toNat).fenced = false) (hport : (s.port p.val).usable = true) :
    let t := linkPennant s p pn
    let e := t.die pn.dieId.toNat
    (e.st = .provisional ∧ e.count = 1 ∧ e.direct = true ∧ e.port = p ∧ e.dist = 1 ∧ e.uid = pn.uid ∧ e.role = pn.role) ∧
    (t.port p.val).partner = some (pn.dieId, true, pn.port, pn.role, pn.uid) := by
  obtain ⟨-, -, -, hpartner, -⟩ := linkHeard_leaves s p pn
  dsimp only
  rw [linkPennant_new hid hno hepoch hown hst hfenced hport, newDirect_die, (newDirect_leaves ..).2, hpartner, hid]
  exact ⟨⟨rfl, rfl, rfl, rfl, rfl, rfl, rfl⟩, rfl⟩

/-- Settles O42: each Pennant by its kind, through what it leaves of the die table. -/
theorem pennantsChangeTheDieTable : Obligations.PennantsChangeTheDieTable := by
  unfold Obligations.PennantsChangeTheDieTable
  intro s p pn h
  dsimp only
  refine ⟨fun ll hbad => exec_pennantLinkReceive_bad h p ll pn hbad, fun hgood hkind hid hno hepoch hown hst hfenced hport => ?_,
    fun src ha hgood hid => ⟨fun hown huid => ?_, fun hown hheld => ⟨fun hsame => ?_, fun hother hsilent => ?_⟩⟩,
    fun src ha hgood hepoch hclaim => ⟨fun hst => ?_, fun hst => ?_, fun hnone => ?_, fun x hx => ⟨fun hno => ?_, ?_⟩⟩,
    fun ha hbad => ⟨?_, ?_⟩, fun ha hgood htarget hepoch => ⟨fun hown => ?_, fun hown huid => ?_, fun hown huid => ?_⟩⟩
  · obtain ⟨hmember, husable⟩ := takePennant_leaves s pn fun b => b.port == p && b.msg.ll == true
    refine ⟨_, exec_pennantLinkReceive_good h p pn hgood hkind, ?_⟩
    generalize takePennant s pn (fun b => b.port == p && b.msg.ll == true) = u at hmember husable ⊢
    have hdie : ∀ d, u.die d = s.die d := fun d => by rw [State.die, hmember]; rfl
    exact linkPennant_new_leaves hid hno (hmember ▸ hepoch) (hmember ▸ hown) ((hdie _).symm ▸ hst) ((hdie _).symm ▸ hfenced)
      ((husable _).trans hport)
  · rw [exec_confirmReqReceive h ha p src hgood, routedClaim_own hid hown huid, Option.getD_some]
  · refine ⟨_, exec_confirmReqReceive h ha p src hgood, ?_⟩
    rw [routedClaim_held hid hown hheld, Option.getD_some, claimHeld_same hsame, answerHeld_die, putDie_die_same]
    exact ⟨rfl, rfl, rfl⟩
  · rw [exec_confirmReqReceive h ha p src hgood, routedClaim_held hid hown hheld, Option.getD_some, claimHeld_other hother hsilent]
  · rw [exec_confirmReqReceive h ha p src hgood, routedClaim_none hclaim, Option.getD_none, adoptEpoch_of_le hepoch]
    simp [hst]
  · rw [exec_confirmReqReceive h ha p src hgood, routedClaim_none hclaim, Option.getD_none, adoptEpoch_of_le hepoch]
    simp [hst]
  · refine exec_confirmAckReceive_discarded h ha p src hgood hepoch fun x hx => ?_
    rw [List.find?_eq_none.mpr (by simpa using hnone)] at hx
    exact absurd hx (by simp)
  · refine exec_confirmAckReceive_discarded h ha p src hgood hepoch fun y hy => ?_
    rwa [← Option.some.inj (hx.symm.trans hy)]
  · intro hnonce hpeer hbeat hst hfenced huid hfit
    refine ⟨_, exec_confirmAckReceive_verifies h ha p src hgood hepoch hx hnonce hpeer hbeat hst hfenced huid hfit, ?_⟩
    obtain ⟨hdies, hhandshakes⟩ := yieldAssigner_leaves (putDie
      { s with member := { s.member with handshakes := s.member.handshakes.filter (fun y => y.id != src) } } src.toNat
      { (s.die src.toNat).take pn with st := .verified })
    rw [State.die, hdies, hhandshakes, (putDie_entriesPut ..).handshakes, ← State.die, putDie_die_same]
    exact ⟨rfl, rfl, rfl⟩
  · rw [exec_fencePennantReceive h, namedFence_bad ha _ hbad]
  · rw [exec_reinstatePennantReceive h, namedFence_bad ha _ hbad]
  · refine ⟨⟨_, exec_fencePennantReceive h pn, ?_⟩, ⟨_, exec_reinstatePennantReceive h pn, ?_⟩⟩
    · rw [namedFence_good ha _ hgood htarget hepoch, if_pos (by simp [hown])]
      exact fenceEntry_die hown
    · rw [namedFence_good ha _ hgood htarget hepoch, if_pos (by simp [hown])]
      exact reinstateEntry_die s _
  · rw [exec_fencePennantReceive h, exec_reinstatePennantReceive h, namedFence_good ha _ hgood htarget hepoch,
      namedFence_good ha _ hgood htarget hepoch]
    simp [hown, huid]
  · refine ⟨⟨_, exec_fencePennantReceive h pn, ?_⟩, ⟨_, exec_reinstatePennantReceive h pn, ?_⟩⟩
    · rw [namedFence_good ha _ hgood htarget hepoch, if_neg (by simp [hown]), if_pos (by simp [huid]), fenceSelf_member]
      exact ⟨rfl, rfl, rfl⟩
    · rw [namedFence_good ha _ hgood htarget hepoch, if_neg (by simp [hown]), if_pos (by simp [huid])]
      exact reinstateEntry_self_fenced s _

end Sys2Proof.Machine
end


section
/-!
SUPPORT. What time does to membership (R92 to R94, R96, R97, R99, R101): handshakes, silence, the epoch, the assigner, IDs and
routes, and O43.
-/
namespace Sys2Proof.Machine

open Sys2Proof.Stated

/-- A fold whose every step leaves the start leaves it. -/
theorem foldl_eq_self {α β : Type} {f : β → α → β} {b : β} {l : List α} (h : ∀ a ∈ l, f b a = b) : l.foldl f b = b :=
  List.foldlRecOn (motive := fun u => u = b) l f rfl fun _ hu a ha => hu ▸ h a ha

/-! ### Handshakes and held requests (R94) -/

section
variable {s : State} (h : Powered s) (id : BitVec 6)
include h

/-- A handshake that is not there, or younger than 4 strokes, does not time out (R94). -/
theorem exec_handshakeTimeout_early (hyoung : ∀ x, s.member.handshakes.find? (fun y => y.id == id) = some x → s.mast.beats < x.beat + 4) :
    exec (.handshakeTimeout id) s = .next s := by
  rw [show exec (.handshakeTimeout id) s = execHandshakeTimeout id s from rfl, execHandshakeTimeout, awake_of_Powered h]
  cases hx : s.member.handshakes.find? (fun y => y.id == id) with
  | none => rfl
  | some x => exact congrArg Host.Outcome.next (if_pos (hyoung x hx))

/-- A handshake of 4 strokes ends, and its PROVISIONAL entry goes ABSENT (R94, Table 5-3). -/
theorem exec_handshakeTimeout_late {x : Handshake} (hx : s.member.handshakes.find? (fun y => y.id == id) = some x)
    (hlate : x.beat + 4 ≤ s.mast.beats) (hst : (s.die id.toNat).st = .provisional) : exec (.handshakeTimeout id) s =
      .next (toAbsent { s with member := { s.member with handshakes := s.member.handshakes.filter (fun y => y.id != id) } } id.toNat) := by
  rw [show exec (.handshakeTimeout id) s = execHandshakeTimeout id s from rfl, execHandshakeTimeout, awake_of_Powered h]
  dsimp only
  simp only [hx]
  rw [if_neg (Nat.not_lt.mpr hlate), if_pos]
  exact beq_iff_eq.mpr hst

end

/-! ### Silence (R92, R93) -/

/-- From s to t entries stay or go ABSENT, and the own ID stays. -/
structure DropsOnly (s t : State) : Prop where
  id : t.member.id = s.member.id
  die : ∀ d, t.die d = s.die d ∨ (t.die d).st = .absent

namespace DropsOnly

variable {s t u : State}

theorem refl (s : State) : DropsOnly s s := ⟨rfl, fun _ => .inl rfl⟩

theorem trans (h : DropsOnly s t) (h' : DropsOnly t u) : DropsOnly s u :=
  ⟨h'.id.trans h.id, fun d => (h'.die d).elim (fun he => he ▸ h.die d) .inr⟩

theorem foldl {α : Type} {f : State → α → State} (hf : ∀ s x, DropsOnly s (f s x)) (l : List α) (s : State) : DropsOnly s (l.foldl f s) :=
  List.foldlRecOn (motive := DropsOnly s) l f (refl s) fun _ hu x _ => hu.trans (hf _ x)

/-- An ABSENT entry stays ABSENT. -/
theorem absent (h : DropsOnly s t) {d : Nat} (hd : (s.die d).st = .absent) : (t.die d).st = .absent :=
  (h.die d).elim (fun he => he ▸ hd) fun he => he

/-- What a step drops of the die as it was is dropped by the whole fold. -/
theorem foldl_absent {f : State → Nat → State} (hf : ∀ s x, DropsOnly s (f s x)) {d : Nat} {l : List Nat} (hd : d ∈ l)
    (hdrop : ∀ u : State, u.member.id = s.member.id → u.die d = s.die d → ((f u d).die d).st = .absent) :
    ((l.foldl f s).die d).st = .absent := by
  obtain ⟨l₁, l₂, rfl⟩ := List.append_of_mem hd
  rw [List.foldl_append, List.foldl_cons]
  have hbefore := foldl hf l₁ s
  refine (foldl hf l₂ _).absent ?_
  rcases hbefore.die d with hsame | habsent
  · exact hdrop _ hbefore.id hsame
  · exact (hf _ d).absent habsent

end DropsOnly

theorem toAbsent_dropsOnly (s : State) (d : Nat) : DropsOnly s (toAbsent s d) := by
  obtain ⟨-, -, hnoted, -⟩ := toAbsent_leaves s d
  refine ⟨by rw [hnoted], fun i => ?_⟩
  by_cases hi : i = d
  · exact .inr (by rw [hi, toAbsent_st])
  · exact .inl (toAbsent_die_other s hi)

theorem dropUnreached_dropsOnly (s : State) : DropsOnly s (dropUnreached s) := by
  refine .foldl (fun s d => ?_) _ _
  split
  · exact .refl s
  · exact toAbsent_dropsOnly s d

/-- The direct partner on a silent port goes ABSENT (R93). -/
def dropSilent (p : PortId) (s : State) (d : Nat) : State :=
  if (s.die d).direct && (s.die d).port == p && some (BitVec.ofNat 6 d) != s.member.id then toAbsent s d else s

theorem dropSilent_dropsOnly (p : PortId) (s : State) (d : Nat) : DropsOnly s (dropSilent p s d) := by
  unfold dropSilent
  split
  · exact toAbsent_dropsOnly s d
  · exact .refl s

/-- A port known to be silent, its direct partner gone. -/
def silenced (s : State) (p : PortId) : State :=
  (s.member.dies.map (fun e => e.1)).foldl (dropSilent p) (s.setPort p.val { s.port p.val with silentSeen := true })

section
variable {s : State} (h : Powered s) (p : PortId)
include h

/-- A partner heard within 16 strokes is not silent (R92). -/
theorem exec_partnerSilence_early (hheard : s.mast.beats < (s.port p.val).lastHeard + 16) : exec (.partnerSilence p) s = .next s := by
  rw [show exec (.partnerSilence p) s = execPartnerSilence p s from rfl, execPartnerSilence, awake_of_Powered h]
  simp [hheard]

/-- A partner silent for 16 strokes is dropped, and so is what nothing else reaches (R92, R93). -/
theorem exec_partnerSilence_late (hseen : (s.port p.val).silentSeen = false) (hpartner : (s.port p.val).partner.isSome = true)
    (hsilent : (s.port p.val).lastHeard + 16 ≤ s.mast.beats) : exec (.partnerSilence p) s = .next (dropUnreached (silenced s p)) := by
  rw [show exec (.partnerSilence p) s = execPartnerSilence p s from rfl, execPartnerSilence, awake_of_Powered h]
  dsimp only
  rw [if_neg]
  · rfl
  · simp [hseen, Option.isSome_iff_ne_none.mp hpartner, Nat.not_lt.mpr hsilent]

end

/-- Every direct entry of a silent port goes ABSENT, but the own. -/
theorem silenced_drops {s : State} {p : PortId} {d : Nat} (hdirect : (s.die d).direct = true) (hport : (s.die d).port = p)
    (hown : s.member.id ≠ some (BitVec.ofNat 6 d)) : ((silenced s p).die d).st = .absent := by
  have hmem : d ∈ s.member.dies.map (fun e => e.1) := by
    by_contra hno
    rw [State.die, Table.get_of_notMem _ hno] at hdirect
    exact absurd hdirect (by decide)
  refine DropsOnly.foldl_absent (dropSilent_dropsOnly p) hmem fun u hid hdie => ?_
  have hdie' : u.die d = s.die d := hdie
  have hid' : u.member.id = s.member.id := hid
  rw [dropSilent, if_pos]
  · exact toAbsent_st u d
  · simp [hdie', hid', hdirect, hport, Ne.symm hown]

theorem silenced_silentSeen (s : State) (p : PortId) : ((dropUnreached (silenced s p)).port p.val).silentSeen = true := by
  have hdrop : ∀ u d, KeepsPorts Port.silentSeen u (dropSilent p u d) := fun u d => by
    unfold dropSilent
    split
    · exact toAbsent_keepsPorts (fun _ _ => rfl) u d
    · exact .refl u
  have hfold := KeepsPorts.foldl hdrop (s.member.dies.map (fun e => e.1)) (s.setPort p.val { s.port p.val with silentSeen := true })
  rw [(dropUnreached_keepsPorts (reading := Port.silentSeen) (fun _ _ => rfl) _).2, silenced, hfold.2, State.port_setPort_same]

/-! ### The epoch and the assigner (R97, R101) -/

/-- A port with a sideband owes TRIGGERED Pennants after a change (R91). -/
theorem triggerAll_trig {s : State} {p : Nat} (hp : p < 4) (hsb : (s.port p).sbUp = true) : ((triggerAll s).port p).trig = 4 := by
  obtain rfl | rfl | rfl | rfl : p = 0 ∨ p = 1 ∨ p = 2 ∨ p = 3 := by omega
  all_goals simp [triggerAll, State.port_modPort, hsb]

@[simp] theorem triggerAll_parts (s : State) : (triggerAll s).parts = s.parts := (triggerAll_entriesPut s).parts

/-- A colour without a job adopts nothing (R102). -/
theorem jobAdopts_jobless {s : State} {col : Nat} (h : (s.part col).job.live = false) (e : BitVec 32) (mask : Option Word) :
    jobAdopts e mask s col = s := by
  unfold jobAdopts
  dsimp only
  rw [h]
  rfl

/-- With no job a higher epoch is taken with its mask, and told (R101, R102). -/
theorem adoptEpoch_jobless {s : State} {e : BitVec 32} (hlt : s.member.epoch < e) (mask : Option Word)
    (hjobs : ∀ c < 16, (s.part c).job.live = false) : adoptEpoch s e mask =
      triggerAll { s with member := { s.member with epoch := e, mask := mask.getD 0xFFFFFFFFFFFFFFFF } } := by
  rw [adoptEpoch, if_neg (by simpa using hlt)]
  dsimp only
  refine foldl_eq_self fun c hc => jobAdopts_jobless ?_ _ _
  rw [State.part, triggerAll_parts]
  exact hjobs c (List.mem_range.mp hc)

section
variable {s : State} (h : Powered s)
include h

/-- Without an assigner, a report or room above, the epoch stays (R101). -/
theorem exec_epochIncrement_idle (hidle : s.member.assigner = false ∨ s.member.reported = false ∨ s.member.epoch = 0xFFFFFFFF) :
    exec .epochIncrement s = .next s := by
  rw [show exec .epochIncrement s = execEpochIncrement s from rfl, execEpochIncrement, awake_of_Powered h]
  dsimp only
  rw [if_pos]
  rcases hidle with hi | hi | hi <;> simp [hi]

/-- The stroke after a report the epoch is one higher, with the reports as mask (R101). -/
theorem exec_epochIncrement_due (hassigner : s.member.assigner = true) (hreported : s.member.reported = true)
    (hbeat : s.member.reportBeat < s.mast.beats) (htop : s.member.epoch ≠ 0xFFFFFFFF) (hjobs : ∀ c < 16, (s.part c).job.live = false) :
    exec .epochIncrement s = .next (triggerAll { s with member := { s.member with
      epoch := s.member.epoch + 1, mask := s.member.reports, reports := 0, reported := false } }) := by
  have hlt : s.member.epoch < s.member.epoch + 1 := by bv_omega
  have hroom : (s.member.epoch == 0xFFFFFFFF) = false := beq_eq_false_iff_ne.mpr htop
  rw [show exec .epochIncrement s = execEpochIncrement s from rfl, execEpochIncrement, awake_of_Powered h]
  dsimp only
  rw [if_neg (by simp only [hassigner, hreported, hroom, Nat.not_le.mpr hbeat, Bool.not_true, decide_false, Bool.or_self, Bool.false_eq_true,
    not_false_eq_true])]
  exact congrArg Host.Outcome.next (adoptEpoch_jobless (by exact hlt) _ (by exact hjobs))

/-- A die that assigns, is fenced, or does not lead for 4 strokes does not take over (R97). -/
theorem exec_assignerTakeover_idle (hidle : s.member.assigner = true ∨ s.member.fenced = true ∨ s.leaderUid ≠ Config.uid ∨
    s.mast.beats < s.member.leaderSince + 4) : exec .assignerTakeover s = .next s := by
  rw [show exec .assignerTakeover s = execAssignerTakeover s from rfl, execAssignerTakeover, awake_of_Powered h]
  dsimp only
  rw [if_pos]
  rcases hidle with hi | hi | hi | hi <;> simp [hi]

end

/-- The leader as it becomes the assigner: with ID 0 where it has none (R97). -/
def withLeaderId (s : State) : State := if s.member.id.isNone then acceptId s 0 else s

theorem withLeaderId_leaves (s : State) : (withLeaderId s).member.id = some (s.member.id.getD 0) ∧
    (withLeaderId s).member.epoch = s.member.epoch ∧ (withLeaderId s).parts = s.parts := by
  unfold withLeaderId
  cases hid : s.member.id with
  | none =>
    rw [if_pos Option.isNone_none, acceptId, (putDie_entriesPut ..).id, (putDie_entriesPut ..).epoch, (putDie_entriesPut ..).parts]
    exact ⟨rfl, rfl, rfl⟩
  | some d => exact ⟨hid, rfl, rfl⟩

/-- The assigner's records as it takes over (R97, R101). -/
def takenOver (s : State) : State := { s with member := { s.member with
  assigner := true, reports := if s.member.epoch = 0 then 0 else s.member.changed, changed := 0, owe := false
  reported := s.member.epoch != 0, reportBeat := s.mast.beats, wantBeat := s.mast.beats } }

theorem exec_assignerTakeover_due {s : State} (h : Powered s) (hassigner : s.member.assigner = false) (hfenced : s.member.fenced = false)
    (hleads : s.leaderUid = Config.uid) (hsince : s.member.leaderSince + 4 ≤ s.mast.beats)
    (hhub : s.member.dies.any (fun e => e.2.st == .verified && e.2.role == 1 && e.2.assigner) = false) :
    exec .assignerTakeover s = .next (
      if (withLeaderId s).member.epoch = 0 then adoptEpoch (takenOver (withLeaderId s)) 1 (some (withLeaderId s).member.changed)
      else triggerAll (takenOver (withLeaderId s))) := by
  rw [show exec .assignerTakeover s = execAssignerTakeover s from rfl, execAssignerTakeover, awake_of_Powered h]
  dsimp only
  rw [if_neg (by simp only [hassigner, hfenced, hleads, hhub, Nat.not_lt.mpr hsince, bne_self_eq_false, decide_false, Bool.or_self,
    Bool.false_eq_true, not_false_eq_true])]
  rfl

/-- What a takeover leaves: the assigner, its ID, an epoch of at least 1 (R97, R101). -/
theorem takeover_leaves {s : State} (hjobs : ∀ c < 16, (s.part c).job.live = false) :
    let u := withLeaderId s
    let t := if u.member.epoch = 0 then adoptEpoch (takenOver u) 1 (some u.member.changed) else triggerAll (takenOver u)
    t.member.assigner = true ∧ t.member.id = some (s.member.id.getD 0) ∧
    t.member.epoch = (if s.member.epoch = 0 then 1 else s.member.epoch) := by
  obtain ⟨hid, hepoch, hparts⟩ := withLeaderId_leaves s
  dsimp only
  generalize withLeaderId s = u at hid hepoch hparts ⊢
  have hjobs' : ∀ c < 16, ((takenOver u).part c).job.live = false := fun c hc => by
    have hpart : (takenOver u).part c = s.part c := by rw [State.part, State.part, ← hparts]; rfl
    rw [hpart, hjobs c hc]
  rw [← hepoch]
  by_cases hz : u.member.epoch = 0
  · have hlt : (takenOver u).member.epoch < 1 := by
      change u.member.epoch < 1
      rw [hz]
      decide
    rw [if_pos hz, if_pos hz, adoptEpoch_jobless hlt _ hjobs', triggerAll_member]
    exact ⟨rfl, hid, rfl⟩
  · rw [if_neg hz, if_neg hz, triggerAll_member]
    exact ⟨rfl, hid, rfl⟩

/-! ### IDs (R96, R97) -/

section
variable {s : State} (h : Powered s)
include h

theorem exec_idAssignRound_idle (hidle : s.member.assigner = false ∨ s.member.wanting = []) : exec .idAssignRound s = .next s := by
  rw [show exec .idAssignRound s = execIdAssignRound s from rfl, execIdAssignRound, awake_of_Powered h]
  dsimp only
  rw [if_pos]
  rcases hidle with hi | hi <;> simp [hi]

/-- One die reported and no new one for 4 strokes: its turn has come (R97). -/
theorem exec_idAssignRound_one {w : Want} (hassigner : s.member.assigner = true) (hwanting : s.member.wanting = [w])
    (hbeat : s.member.wantBeat + 4 ≤ s.mast.beats) :
    exec .idAssignRound s = .next (assignOne { s with member := { s.member with firstRound := false } } w) := by
  rw [show exec .idAssignRound s = execIdAssignRound s from rfl, execIdAssignRound, awake_of_Powered h]
  dsimp only
  rw [if_neg (by simp [hassigner, hwanting, Nat.not_lt.mpr hbeat]), hwanting]
  have hsorted : sortBy (fun (w : Want) => [w.uid.toNat]) [w] = [w] := rfl
  rw [hsorted, ite_self]
  rfl

end

/-- A die new to the assigner that its own port sees takes the lowest free ID by the next Pennant there (R96, R97). -/
theorem assignOne_new {s : State} {w : Want} {d : BitVec 6} (hwanting : s.member.wanting = [w]) (hrelay : w.relay = none)
    (hgiven : s.member.given.find? (fun g => g.1 == w.uid) = none) (hfree : s.freeId = some d) : assignOne s w =
      State.modPort { s with member := { s.member with given := s.member.given ++ [(w.uid, d)], wanting := [] } } w.port.val
        (fun x => { x with assign := some (w.uid, d), trig := Nat.max 1 x.trig }) := by
  unfold assignOne
  simp only [hgiven, hfree, hrelay, hwanting]
  simp

/-! ### Routes (R99) -/

/-- A key of a table after a write is the key written or was there before. -/
theorem Table.mem_keys_set {α : Type} [DecidableEq α] {d : α} {t : Table α} {j k : Nat} {w : α}
    (h : k ∈ (Table.set d t j w).map (fun e => e.1)) : k = j ∨ k ∈ t.map (fun e => e.1) := by
  by_contra hno
  obtain ⟨hkj, hkt⟩ := not_or.mp hno
  have hput : ∀ t : Table α, k ∉ t.map (fun e => e.1) → k ∉ (Table.put t j w).map (fun e => e.1) := by
    intro t
    induction t with
    | nil => simp [Table.put, hkj]
    | cons e t ih =>
      intro hk
      simp only [List.map_cons, List.mem_cons, not_or] at hk ih
      unfold Table.put
      split
      · simp [hkj, hk.1, hk.2]
      · split
        · simp [hkj, hk.2]
        · simpa [hk.1] using ih hk.2
  unfold Table.set at h
  split at h
  · obtain ⟨e, he, rfl⟩ := List.mem_map.mp h
    exact hkt (List.mem_map_of_mem (List.mem_filter.mp he).1)
  · exact hput t hkt h

/-- Ports, ROUTEs and the standing of partners are as they were, so the best routes are (R99). -/
theorem bestRoute_congr {s t : State} (hpartner : ∀ p, t.partnerOf p = s.partnerOf p) (hroute : ∀ p d, t.routeField p d = s.routeField p d)
    (d : Nat) : t.bestRoute d = s.bestRoute d := by
  have hhops : ∀ p, t.hopsVia p d = s.hopsVia p d := fun p => by
    unfold State.hopsVia
    rw [hpartner, hroute]
  unfold State.bestRoute
  simp only [hhops]

/-- A port through which an ID is reached is usable. -/
theorem usable_of_hopsVia {s : State} {p d n : Nat} (h : s.hopsVia p d = some n) : (s.port p).usable = true := by
  have hpartner : s.partnerOf p ≠ none := fun hnone => by
    rw [State.hopsVia, hnone] at h
    exact absurd h (by simp)
  unfold State.partnerOf at hpartner
  split at hpartner
  · split at hpartner
    · next hv =>
      simp only [Bool.and_eq_true] at hv
      exact hv.1.1
    · exact absurd rfl hpartner
  · exact absurd rfl hpartner

/-- The best route goes through a port by its hops (R99). -/
theorem hopsVia_of_bestRoute {s : State} {d : Nat} {r : PortId × Nat} (h : s.bestRoute d = some r) : s.hopsVia r.1.val d = some r.2 := by
  have hbest : ∀ q, s.bestRoute d = some q → s.hopsVia q.1.val d = some q.2 := by
    unfold State.bestRoute
    refine List.foldlRecOn (motive := fun best => ∀ q : PortId × Nat, best = some q → s.hopsVia q.1.val d = some q.2) _ _
      (fun _ hq => absurd hq (by simp)) fun best hb p _ => ?_
    cases hp : s.hopsVia p.val d with
    | none => exact hb
    | some n =>
      cases best with
      | none =>
        intro q hq
        rw [← Option.some.inj hq]
        exact hp
      | some b =>
        dsimp only
        split
        · intro q hq
          rw [← Option.some.inj hq]
          exact hp
        · exact hb
  exact hbest r h

/-- An entry put with the state and UID it has leaves partners, ROUTEs and usable ports. -/
theorem putDie_keepsRoutes (s : State) (d : Nat) {e : DieEntry} (hst : e.st = (s.die d).st) (huid : e.uid = (s.die d).uid) :
    (∀ p, ((putDie s d e).port p).usable = (s.port p).usable) ∧ ∀ i, (putDie s d e).bestRoute i = s.bestRoute i := by
  have hports := putDie_keepsPorts (reading := fun x => (x.partner, x.usable)) (fun _ _ => rfl) s d e
  have hput := putDie_entriesPut s d e
  have hdie : ∀ i, ((putDie s d e).die i).st = (s.die i).st ∧ ((putDie s d e).die i).uid = (s.die i).uid := fun i => by
    rw [putDie_die]
    split
    · next hi => rw [hi]; exact ⟨hst, huid⟩
    · exact ⟨rfl, rfl⟩
  generalize putDie s d e = t at hports hput hdie ⊢
  have hpartner : ∀ p, (t.port p).partner = (s.port p).partner := fun p => congrArg Prod.fst (hports.2 p)
  have husable : ∀ p, (t.port p).usable = (s.port p).usable := fun p => congrArg Prod.snd (hports.2 p)
  refine ⟨husable, bestRoute_congr (fun p => ?_) fun p i => ?_⟩
  · unfold State.partnerOf
    rw [hpartner, husable]
    simp only [hdie]
  · unfold State.routeField
    rw [hput.noted]

/-- Whether an entry that keeps its record is reached depends on ports and routes alone. -/
theorem reached_congr {s t : State} (husable : ∀ p, (t.port p).usable = (s.port p).usable) (hbest : ∀ i, t.bestRoute i = s.bestRoute i)
    {d : Nat} (hdie : t.die d = s.die d) : t.reached d = s.reached d := by
  unfold State.reached
  dsimp only
  rw [hdie, husable, hbest]

/-- Entries that are reached all stay. -/
theorem dropUnreached_of_reached {s : State}
    (h : ∀ k ∈ s.member.dies.map (fun e => e.1), s.member.id = some (BitVec.ofNat 6 k) ∨ s.reached k = true) : dropUnreached s = s := by
  refine foldl_eq_self fun k hk => if_pos ?_
  rcases h k hk with hid | hreached
  · simp [hid]
  · simp [hreached]

/-- A failed route gives way to the best one (R99). -/
def rerouted (s : State) (d : Nat) : State :=
  if some (BitVec.ofNat 6 d) = s.member.id || !s.routeFails d then s
  else match s.bestRoute d with
    | some r => takeRoute s d r
    | none => s

theorem rerouted_of_holds {s : State} {d : Nat} (h : s.routeFails d = false) : rerouted s d = s := by
  unfold rerouted
  rw [if_pos (by simp [h])]

theorem rerouted_of_fails {s : State} {d : Nat} {r : PortId × Nat} (hown : s.member.id ≠ some (BitVec.ofNat 6 d)) (h : s.routeFails d = true)
    (hr : s.bestRoute d = some r) : rerouted s d = takeRoute s d r := by
  unfold rerouted
  rw [if_neg (by simp [h, Ne.symm hown]), hr]

theorem exec_routeRecompute {s : State} (h : Powered s) :
    exec .routeRecompute s = .next (dropUnreached ((s.member.dies.map (fun e => e.1)).foldl rerouted s)) := by
  rw [show exec .routeRecompute s = execRouteRecompute s from rfl, execRouteRecompute, awake_of_Powered h]
  rfl

/-- The best route reaches its entry. -/
theorem reached_takeRoute {s : State} {d : Nat} {r : PortId × Nat} (hr : s.bestRoute d = some r) : (takeRoute s d r).reached d = true := by
  obtain ⟨husable, hbest⟩ := putDie_keepsRoutes s d (e := { s.die d with port := r.1, dist := BitVec.ofNat 3 r.2, direct := r.2 == 1 }) rfl rfl
  have hport := usable_of_hopsVia (hopsVia_of_bestRoute hr)
  have hdie := putDie_die_same s d { s.die d with port := r.1, dist := BitVec.ofNat 3 r.2, direct := r.2 == 1 }
  rw [← takeRoute] at husable hbest hdie
  unfold State.reached
  dsimp only
  rw [hdie, husable, hbest, hr]
  by_cases hone : r.2 = 1
  · simp [State.entryAs, hone, hport]
  · simp [State.entryAs, hone]

/-- Settles O43: each clause is the one step of its command. -/
theorem membershipFollowsTime : Obligations.MembershipFollowsTime := by
  unfold Obligations.MembershipFollowsTime
  intro s h
  dsimp only
  refine ⟨fun id => ⟨fun hnone => ?_, fun x hx => ⟨fun hyoung => ?_, fun hlate hst => ?_⟩, ?_⟩,
    fun p => ⟨exec_partnerSilence_early h p, fun hseen hpartner hsilent => ?_⟩, exec_epochIncrement_idle h,
    fun hassigner hreported hbeat htop hjobs => ?_, fun hassigner hfenced hleads hsince hjobs hhub => ?_, exec_assignerTakeover_idle h,
    exec_idAssignRound_idle h, fun w d hassigner hwanting hrelay hbeat hgiven hfree => ?_, fun hall => ?_,
    fun q d f e r hqd hd hdies hown hq hqr hfails hr => ?_⟩
  · refine exec_handshakeTimeout_early h id fun x hx => ?_
    rw [List.find?_eq_none.mpr (by simpa using hnone)] at hx
    exact absurd hx (by simp)
  · exact exec_handshakeTimeout_early h id fun y hy => Option.some.inj (hx.symm.trans hy) ▸ hyoung
  · refine ⟨_, exec_handshakeTimeout_late h id hx hlate hst, toAbsent_st _ _, ?_⟩
    obtain ⟨-, -, -, hsub⟩ := toAbsent_leaves
      { s with member := { s.member with handshakes := s.member.handshakes.filter (fun y => y.id != id) } } id.toNat
    rw [List.any_eq_false]
    intro y hy
    simpa using (List.mem_filter.mp (hsub y hy)).2
  · rw [show exec (.confirmHoldExpiry id) s = execConfirmHoldExpiry id s from rfl, execConfirmHoldExpiry, awake_of_Powered h]
  · exact ⟨_, exec_partnerSilence_late h p hseen hpartner hsilent, silenced_silentSeen s p,
      fun d _ hdirect hport hown => (dropUnreached_dropsOnly _).absent (silenced_drops hdirect hport hown)⟩
  · refine ⟨_, exec_epochIncrement_due h hassigner hreported hbeat htop hjobs, triggerAll_member _, fun p hp hsb => triggerAll_trig hp hsb⟩
  · exact ⟨_, exec_assignerTakeover_due h hassigner hfenced hleads hsince hhub, takeover_leaves hjobs⟩
  · refine ⟨_, exec_idAssignRound_one h hassigner hwanting hbeat, ?_⟩
    rw [assignOne_new (s := { s with member := { s.member with firstRound := false } }) hwanting hrelay hgiven hfree]
    refine ⟨rfl, ?_⟩
    rw [State.port_modPort_same]
  · rw [exec_routeRecompute h, foldl_eq_self fun k hk => ?_, dropUnreached_of_reached fun k hk => ?_]
    · obtain ⟨e, he, rfl⟩ := List.mem_map.mp hk
      exact (hall e he).2
    · obtain ⟨e, he, rfl⟩ := List.mem_map.mp hk
      exact rerouted_of_holds (hall e he).1
  · have hdie : s.die d = e := by simp [State.die, hdies, Table.get, (Nat.ne_of_gt hqd)]
    have hkeys : s.member.dies.map (fun e => e.1) = [q, d] := by rw [hdies]; rfl
    obtain ⟨husable, hbest⟩ := putDie_keepsRoutes s d (e := { s.die d with port := r.1, dist := BitVec.ofNat 3 r.2, direct := r.2 == 1 }) rfl rfl
    have hput := putDie_entriesPut s d { s.die d with port := r.1, dist := BitVec.ofNat 3 r.2, direct := r.2 == 1 }
    refine ⟨_, exec_routeRecompute h, ?_⟩
    rw [hkeys, List.foldl_cons, List.foldl_cons, List.foldl_nil, rerouted_of_holds hq, rerouted_of_fails hown hfails hr,
      dropUnreached_of_reached fun k hk => ?_]
    · rw [takeRoute, putDie_die_same, hdie]
      exact ⟨rfl, rfl, rfl⟩
    · rw [takeRoute, hput.dies] at hk
      rcases Table.mem_keys_set hk with rfl | hk
      · exact .inr (reached_takeRoute hr)
      · rw [hkeys] at hk
        rcases List.mem_pair.mp hk with rfl | rfl
        · exact .inr ((reached_congr husable hbest (putDie_die_other s _ (Nat.ne_of_lt hqd))).trans hqr)
        · exact .inr (reached_takeRoute hr)

end Sys2Proof.Machine
end


section
/-!
SUPPORT. A mover's next piece (R103, R158 to R164, R170, R297): what keeps it from starting, where its bytes go, and O28.
-/
namespace Sys2Proof.Machine

open Sys2Proof.Stated

/-! ### What keeps a piece from starting (R88, R103, R164, R170, R297) -/

section
variable {s : State} {c n : Nat} {p : Posted} (hcur : ((s.core c).chan n).current = some p)
include hcur

/-- Toward an ABSENT die, or under a barred entry, a piece can go nowhere (R103, R170). -/
theorem channelReady_failed (h : (p.desc.farDies s.ownId).any (fun y => (s.die y.toNat).st == .absent) = true ∨
    ∃ e u, p.needs s.ownId (s.core c) = some (e, u) ∧ e.barred = true) : s.channelReady c n = .failed := by
  unfold State.channelReady
  simp only [hcur]
  rw [if_pos]
  rcases h with hlost | ⟨e, u, hneeds, hbarred⟩
  · rw [hlost, Bool.or_true]
  · simp only [hneeds, hbarred, Bool.true_or]

/-- A piece that has a route but not its credits, or whose lower channels wait for them, waits (R164). -/
theorem channelReady_poor (hlost : ¬ (p.desc.farDies s.ownId).any (fun y => (s.die y.toNat).st == .absent) = true) {e : Credit} {u : Nat}
    (hneeds : p.needs s.ownId (s.core c) = some (e, u)) (hbarred : ¬ e.barred = true) (hpoor : e.held < u ∨ s.lowerWaits c n e = true) :
    s.channelReady c n = .waits := by
  unfold State.channelReady
  simp only [hcur, hneeds, Bool.eq_false_iff.mpr hlost, Bool.eq_false_iff.mpr hbarred, Bool.or_self, Bool.false_eq_true, if_false]
  rw [if_pos]
  rcases hpoor with hheld | hlower
  · simp [hheld]
  · simp [hlower]

/-- A piece for another die waits for a TAG (R88). -/
theorem channelReady_tagless (hlost : ¬ (p.desc.farDies s.ownId).any (fun y => (s.die y.toNat).st == .absent) = true)
    (hbarred : ¬ ∃ e u, p.needs s.ownId (s.core c) = some (e, u) ∧ e.barred = true) (hfar : p.desc.farDies s.ownId ≠ [])
    (htag : freshTag s c = none) : s.channelReady c n = .waits := by
  have hwaits : (!(p.desc.farDies s.ownId).isEmpty && (freshTag s c).isNone) = true := by simp [hfar, htag]
  unfold State.channelReady
  simp only [hcur, hwaits, Bool.or_true, if_true, Bool.eq_false_iff.mpr hlost, Bool.or_false]
  cases hneeds : p.needs s.ownId (s.core c) with
  | none => rfl
  | some x =>
    obtain ⟨e, u⟩ := x
    exact if_neg fun hb => hbarred ⟨e, u, hneeds, hb⟩

/-- A piece without credits that has its route and TAG looks to its tokens alone (R297). -/
theorem channelReady_plain (hlost : ¬ (p.desc.farDies s.ownId).any (fun y => (s.die y.toNat).st == .absent) = true)
    (hneeds : p.needs s.ownId (s.core c) = none) (htag : p.desc.farDies s.ownId ≠ [] → freshTag s c ≠ none) :
    s.channelReady c n = if s.tokensShort c p.desc (p.piece s.ownId) then .short else .ready p := by
  have htagged : (!(p.desc.farDies s.ownId).isEmpty && (freshTag s c).isNone) = false := by
    by_cases hfar : p.desc.farDies s.ownId = []
    · simp [hfar]
    · simp [Option.isSome_iff_ne_none.mpr (htag hfar)]
  unfold State.channelReady
  simp only [hcur, hneeds, htagged, Bool.eq_false_iff.mpr hlost, Bool.or_self, Bool.false_eq_true, if_false]

end

/-- A start that finds its tokens is one whose piece is not short of them (R295, R297). -/
theorem qosStart_fst (s : State) (c : Nat) (d : Desc) (x : Piece) :
    (qosStart s (s.core c).colour.toNat (pieceCost s.ownId c d x)).1 = !s.tokensShort c d x := by
  unfold qosStart State.tokensShort
  dsimp only
  rw [State.colourOf, List.any_filter]
  by_cases hz : (s.core c).colour.toNat = 0
  · simp [hz]
  · simp only [hz, if_false, bne, beq_eq_false_iff_ne.mpr hz, Bool.not_false, Bool.true_and]
    split
    · next hshort => rw [hshort]; rfl
    · next hshort => rw [Bool.eq_false_iff.mpr hshort]; rfl

theorem qosStart_ownId (s : State) (colour : Nat) (costs : List (Nat × Nat)) : (qosStart s colour costs).2.ownId = s.ownId := by
  have h := qosStart_onlyParts s colour costs
  unfold OnlyParts at h
  rw [h]
  rfl

theorem modCore_ownId (s : State) (c : Nat) (f : Core → Core) : (s.modCore c f).ownId = s.ownId := rfl

/-! ### MOVER_PIECE_START by the channel's standing (R160) -/

section
variable {s : State} (h : Clocked s) {c : CoreId} {ch : Fin 16}
include h

theorem exec_moverPieceStart_failed {p : Posted} (hcur : ((s.core c.val).chan ch.val).current = some p) (hr : s.channelReady c.val ch.val = .failed) :
    exec (.moverPieceStart c ch) s = .next (failDesc s c.val ch.val p.index 1) := by
  rw [show exec (.moverPieceStart c ch) s = execMoverPieceStart c ch s from rfl, execMoverPieceStart, live_of_Clocked h]
  simp only [hcur, hr]

theorem exec_moverPieceStart_waits (hr : s.channelReady c.val ch.val = .waits) : exec (.moverPieceStart c ch) s = .next s := by
  rw [show exec (.moverPieceStart c ch) s = execMoverPieceStart c ch s from rfl, execMoverPieceStart, live_of_Clocked h]
  simp only [hr]
  cases ((s.core c.val).chan ch.val).current <;> rfl

theorem exec_moverPieceStart_short {p : Posted} (hcur : ((s.core c.val).chan ch.val).current = some p) (hr : s.channelReady c.val ch.val = .short) :
    exec (.moverPieceStart c ch) s =
      .next (qosStart s (s.core c.val).colour.toNat (pieceCost s.ownId c.val p.desc (p.piece s.ownId))).2 := by
  rw [show exec (.moverPieceStart c ch) s = execMoverPieceStart c ch s from rfl, execMoverPieceStart, live_of_Clocked h]
  simp only [hcur, hr]

/-- The die as a piece that needs no credits starts: tokens taken, its channel served last (R160, R297). -/
def pieceServed (s : State) (c n : Nat) (p : Posted) : State :=
  (qosStart s (s.core c).colour.toNat (pieceCost s.ownId c p.desc (p.piece s.ownId))).2.modCore c (fun k => { k with lastChan := n })

theorem exec_moverPieceStart_ready {p : Posted} (hcur : ((s.core c.val).chan ch.val).current = some p)
    (hr : s.channelReady c.val ch.val = .ready p) (hneeds : p.needs s.ownId (s.core c.val) = none) : exec (.moverPieceStart c ch) s =
      .next (if s.turnTaken c.val ch.val then s else runPiece (pieceServed s c.val ch.val p) c.val ch.val p) := by
  rw [show exec (.moverPieceStart c ch) s = execMoverPieceStart c ch s from rfl, execMoverPieceStart, live_of_Clocked h]
  simp only [hcur, hr, modCore_ownId, qosStart_ownId, hneeds]
  rfl

end

/-! ### What a piece leaves of the die -/

/-- From k to k' only a mover's own records change: channels, the channel served last, scoreboard entries. -/
def MoverMoved (k k' : Core) : Prop := k' = { k with chans := k'.chans, lastChan := k'.lastChan, sb := k'.sb }

theorem MoverMoved.trans {k k' k'' : Core} (h : MoverMoved k k') (h' : MoverMoved k' k'') : MoverMoved k k'' := by
  unfold MoverMoved at *
  rw [h', h]

/-- From s to t only tokens and the movers' own records change. -/
def OnlyChannels (s t : State) : Prop := t = { s with parts := t.parts, cores := t.cores } ∧ ∀ d, MoverMoved (s.core d) (t.core d)

namespace OnlyChannels

variable {s t u : State}

theorem trans (h : OnlyChannels s t) (h' : OnlyChannels t u) : OnlyChannels s u := by
  refine ⟨?_, fun d => (h.2 d).trans (h'.2 d)⟩
  rw [h'.1, h.1]

theorem modCore (s : State) (c : Nat) {f : Core → Core} (hf : ∀ k, MoverMoved k (f k)) : OnlyChannels s (s.modCore c f) := by
  refine ⟨rfl, fun d => ?_⟩
  rw [State.core_modCore]
  split
  · next hd => rw [hd]; exact hf _
  · rfl

theorem colourOf (h : OnlyChannels s t) (c : Nat) : t.colourOf c = s.colourOf c := by rw [State.colourOf, State.colourOf, h.2 c]

/-- A local access is judged by what such a change leaves (R135). -/
theorem localRefusal (h : OnlyChannels s t) (c : Nat) (win : Option Nat) (write : Bool) (a n : Nat) :
    localRefusal t c win write a n = localRefusal s c win write a n := by
  have hon : ∀ d, (t.core d).on = (s.core d).on := fun d => by rw [h.2 d]
  have hmem : t.mem = s.mem := by rw [h.1]
  have hwindows : t.windows = s.windows := by rw [h.1]
  have hregions : t.regions = s.regions := by rw [h.1]
  have hplace : ∀ a n, t.place a n = s.place a n := fun a n => by
    unfold State.place
    rw [hmem]
    simp only [hon]
  have hcheck : ∀ col a n, t.check col (some c) win write a n = s.check col (some c) win write a n := fun col a n => by
    unfold State.check State.regionAt State.regionsOf State.credOk State.window
    rw [hplace, hregions, hwindows]
  unfold Sys2Proof.Machine.localRefusal
  simp only [hcheck, h.colourOf]

end OnlyChannels

theorem modChan_onlyChannels (s : State) (c n : Nat) (g : Chan → Chan) : OnlyChannels s (modChan s c n g) :=
  .modCore s c fun _ => rfl

theorem freeSettled_onlyChannels (s : State) (c n : Nat) (idx : BitVec 16) : OnlyChannels s (freeSettled s c n idx) := by
  refine .modCore s c fun k => ?_
  split <;> rfl

/-- A piece that settles well changes the mover's records alone. -/
theorem pieceDone_onlyChannels (s : State) (c n : Nat) (idx : BitVec 16) (bytes : Nat) : OnlyChannels s (pieceDone s c n idx bytes 0) := by
  unfold pieceDone
  dsimp only
  rw [if_neg (by simp)]
  exact (modChan_onlyChannels ..).trans (freeSettled_onlyChannels ..)

theorem pieceServed_onlyChannels (s : State) (c n : Nat) (p : Posted) : OnlyChannels s (pieceServed s c n p) := by
  unfold pieceServed
  have htokens := qosStart_onlyParts s (s.core c).colour.toNat (pieceCost s.ownId c p.desc (p.piece s.ownId))
  generalize (qosStart s (s.core c).colour.toNat (pieceCost s.ownId c p.desc (p.piece s.ownId))).2 = u at htokens ⊢
  refine OnlyChannels.trans ⟨?_, fun d => ?_⟩ (.modCore u c fun _ => rfl)
  · rw [htokens]
  · rw [htokens]; rfl

/-! ### Where the bytes of a piece go (R159, R160) -/

/-- Memory without failed checks detects nothing (R118). -/
theorem not_detects_of_sound {s : State} (hbad : s.mem.bad = []) (hcm : s.mem.cmBad = []) (a n : Nat) : s.detects a n = false := by
  unfold State.detects
  rw [hbad, hcm]
  rfl

/-- A local read that is not refused gives its bytes (R120, R135). -/
theorem moverRead_sound {s : State} {c a n : Nat} (hok : localRefusal s c none false a n = none) (hbad : s.mem.bad = []) (hcm : s.mem.cmBad = []) :
    moverRead s c a n = (s, some (s.bytesAt a n)) := by
  unfold moverRead
  simp only [hok, not_detects_of_sound hbad hcm, Bool.false_eq_true, if_false]

/-- A local write that is not refused puts its bytes (R119, R135). -/
theorem moverWrite_sound {s : State} {c a : Nat} {win : Option Nat} {data : List Byte}
    (hok : localRefusal s c win true a data.length = none) (hbad : s.mem.bad = []) :
    moverWrite s c win a data = ((memWrite s a data).1, 0) := by
  have hmet : (memWrite s a data).2 = false := by
    unfold memWrite
    rw [hbad]
    rfl
  unfold moverWrite
  simp only [hok, hmet, Bool.false_eq_true, if_false]

section
variable {s : State} {c n : Nat} {d : Desc} (idx : BitVec 16) (dst : Nat) (data : List Byte) (hwin : d.winv = false)
include hwin

/-- Bytes for the own die are written there, and the piece settles (R159, R162). -/
theorem deliver_own {b : Nat} (hdst : d.dstKind = some (.pga s.ownId b)) (hok : localRefusal s c none true dst data.length = none)
    (hbad : s.mem.bad = []) : deliver s c n idx d dst data = pieceDone (memWrite s dst data).1 c n idx data.length 0 := by
  unfold deliver
  simp only [hdst, hwin, if_true, Bool.false_eq_true, if_false, moverWrite_sound hok hbad]

/-- The WRITE that carries a piece to another die (R160). -/
def pieceWrite (s : State) (c n : Nat) (idx : BitVec 16) (die : BitVec 6) (dst : Nat) (data : List Byte) (g : BitVec 12) : State :=
  sendReq s { tag := g, die := die, colour := s.colourOf c, kind := .write c n idx data.length 0, win := none }
    { plainMsg s die (s.colourOf c) opWrite (BitVec.ofNat 40 dst) g with data := data }

/-- Bytes of a COPY for another die leave as a WRITE (R160). -/
theorem deliver_far {die : BitVec 6} {b : Nat} {g : BitVec 12} (hdst : d.dstKind = some (.pga die b)) (hfar : die ≠ s.ownId) (hop : d.op = 1)
    (htag : freshTag s c = some g) : deliver s c n idx d dst data =
      markEarly (modChan (pieceWrite s c n idx die dst data g) c n (fun h => h.modPosted idx (fun p => { p with dies := setBit p.dies die.toNat })))
        c die dst := by
  have hcopy : (d.op == 5) = false := by rw [hop]; rfl
  unfold deliver
  simp only [hdst, hwin, if_neg hfar, htag, hcopy, Bool.false_eq_true, if_false]
  rfl

end

/-- The channel once its piece is under way (R158). -/
def pieceTaken (s : State) (c n : Nat) (p : Posted) : State :=
  modChan s c n (fun h => h.modPosted p.index (fun q => { q.next (p.piece s.ownId).n with waited := false }))

/-- A piece whose source is the own die's memory is read and delivered (R159). -/
theorem startPiece_local {s : State} {c n : Nat} {p : Posted} {a : Nat} (hsrc : p.desc.srcKind = some (.pga s.ownId a))
    (hok : localRefusal s c none false (p.piece s.ownId).src (p.piece s.ownId).n = none) (hbad : s.mem.bad = []) (hcm : s.mem.cmBad = []) :
    startPiece s c n p = deliver (pieceTaken s c n p) c n p.index p.desc (p.piece s.ownId).dst
      (s.bytesAt (p.piece s.ownId).src (p.piece s.ownId).n) := by
  have htaken : OnlyChannels s (pieceTaken s c n p) := modChan_onlyChannels ..
  have hown : (pieceTaken s c n p).ownId = s.ownId := rfl
  have hmem : (pieceTaken s c n p).mem = s.mem := rfl
  have hread := moverRead_sound (s := pieceTaken s c n p) ((htaken.localRefusal c none false _ _).trans hok) hbad hcm
  have hbytes := bytesAt_congr (s := s) (t := pieceTaken s c n p) (p.piece s.ownId).src (p.piece s.ownId).n fun b _ _ => by
    rw [State.byteAt, hmem]; rfl
  unfold pieceTaken at *
  unfold startPiece
  simp only [hsrc, hown, if_true, hread, hbytes]

/-- What a change of the mover's records after bytes are put leaves of the die. -/
theorem OnlyChannels.after_memWrite {s u t : State} (h : OnlyChannels s u) {a : Nat} {data : List Byte} (h' : OnlyChannels (memWrite u a data).1 t) :
    t.log = s.log ∧ t.windows = s.windows ∧ t.tx = s.tx ∧
    ∀ y, t.byteAt y = if a ≤ y ∧ y < a + data.length then data.getD (y - a) 0 else s.byteAt y := by
  have hbytes := byteAt_memWrite u a data
  have hput := memWrite_eq u a data
  generalize (memWrite u a data).1 = v at hbytes hput h'
  refine ⟨by rw [h'.1, hput, h.1], by rw [h'.1, hput, h.1], by rw [h'.1, hput, h.1], fun y => ?_⟩
  have hmem : t.mem = v.mem := by rw [h'.1]
  have hkept : u.mem = s.mem := by rw [h.1]
  rw [State.byteAt, hmem, ← State.byteAt, hbytes, State.byteAt, hkept]
  rfl

/-- What a piece between two places of the own die leaves: its bytes moved, and nothing else in memory (R159). -/
theorem runPiece_own {s : State} {c n : Nat} {p : Posted} {a b : Nat} (hwin : p.desc.winv = false)
    (hsrc : p.desc.srcKind = some (.pga s.ownId a)) (hdst : p.desc.dstKind = some (.pga s.ownId b))
    (hread : localRefusal s c none false (p.piece s.ownId).src (p.piece s.ownId).n = none)
    (hwrite : localRefusal s c none true (p.piece s.ownId).dst (p.piece s.ownId).n = none) (hbad : s.mem.bad = []) (hcm : s.mem.cmBad = []) :
    let x := p.piece s.ownId
    let t := runPiece s c n p
    t.log = s.log ∧ t.windows = s.windows ∧ t.tx = s.tx ∧
    ∀ y, t.byteAt y = if x.dst ≤ y ∧ y < x.dst + x.n then s.byteAt (x.src + (y - x.dst)) else s.byteAt y := by
  have htaken : OnlyChannels s (pieceTaken s c n p) := modChan_onlyChannels ..
  have hown : (pieceTaken s c n p).ownId = s.ownId := rfl
  have hsound : (pieceTaken s c n p).mem.bad = [] := hbad
  dsimp only
  unfold runPiece
  rw [startPiece_local hsrc hread hbad hcm]
  generalize p.piece s.ownId = x at hread hwrite ⊢
  rw [deliver_own _ _ _ hwin (hown ▸ hdst) (by rw [bytesAt_length, htaken.localRefusal, hwrite]) hsound]
  obtain ⟨hlog, hwindows, htx, hbytes⟩ := htaken.after_memWrite
    ((pieceDone_onlyChannels (memWrite (pieceTaken s c n p) x.dst (s.bytesAt x.src x.n)).1 c n p.index (s.bytesAt x.src x.n).length).trans
      (freeSettled_onlyChannels _ c n p.index))
  refine ⟨hlog, hwindows, htx, fun y => (hbytes y).trans ?_⟩
  rw [bytesAt_length]
  split
  · next hy => rw [List.getD_eq_getElem _ _ (by rw [bytesAt_length]; omega), getElem_bytesAt]
  · rfl

/-- What an early acknowledgement that may come marks (R143, R145). -/
theorem markEarly_leaves (s : State) (c : Nat) (die : BitVec 6) (a : Nat) : (markEarly s c die a).log = s.log ∧
    (markEarly s c die a).windows = s.windows ∧ (markEarly s c die a).mem = s.mem ∧ (markEarly s c die a).tx = s.tx := by
  unfold markEarly
  split <;> exact ⟨rfl, rfl, rfl, rfl⟩

/-- What a piece from the own die to another leaves: a WRITE that carries its bytes (R160). -/
theorem runPiece_far {s : State} {c n : Nat} {p : Posted} {a b : Nat} {die : BitVec 6} {g : BitVec 12} (hwin : p.desc.winv = false)
    (hsrc : p.desc.srcKind = some (.pga s.ownId a)) (hdst : p.desc.dstKind = some (.pga die b)) (hfar : die ≠ s.ownId) (hop : p.desc.op = 1)
    (hread : localRefusal s c none false (p.piece s.ownId).src (p.piece s.ownId).n = none) (hbad : s.mem.bad = []) (hcm : s.mem.cmBad = [])
    (htag : freshTag s c = some g) :
    let x := p.piece s.ownId
    let t := runPiece s c n p
    t.log = s.log ∧ t.windows = s.windows ∧ t.mem = s.mem ∧
    t.tx = s.tx ++ [{ msg := { plainMsg s die (s.colourOf c) opWrite (BitVec.ofNat 40 x.dst) g with data := s.bytesAt x.src x.n }, port := none }] := by
  have htaken : OnlyChannels s (pieceTaken s c n p) := modChan_onlyChannels ..
  have htag' : freshTag (pieceTaken s c n p) c = some g := htag
  have hfar' : die ≠ (pieceTaken s c n p).ownId := hfar
  have hcolour := htaken.colourOf c
  dsimp only
  unfold runPiece
  rw [startPiece_local hsrc hread hbad hcm]
  generalize p.piece s.ownId = x
  rw [deliver_far _ _ _ hwin hdst hfar' hop htag']
  generalize hw : pieceWrite (pieceTaken s c n p) c n p.index die x.dst (s.bytesAt x.src x.n) g = w
  have hsent : w.log = s.log ∧ w.windows = s.windows ∧ w.mem = s.mem ∧ w.tx = s.tx ++
      [{ msg := { plainMsg s die (s.colourOf c) opWrite (BitVec.ofNat 40 x.dst) g with data := s.bytesAt x.src x.n }, port := none }] := by
    rw [← hw, pieceWrite, hcolour]
    exact ⟨rfl, rfl, rfl, rfl⟩
  have hmarked := modChan_onlyChannels w c n (fun h => h.modPosted p.index (fun p => { p with dies := setBit p.dies die.toNat }))
  generalize modChan w c n _ = v at hmarked ⊢
  obtain ⟨hlog, hwindows, hmem, htx⟩ := markEarly_leaves v c die x.dst
  generalize markEarly v c die x.dst = u at hlog hwindows hmem htx ⊢
  have hfreed := freeSettled_onlyChannels u c n p.index
  generalize freeSettled u c n p.index = t at hfreed ⊢
  rw [hfreed.1]
  dsimp only
  rw [hlog, hwindows, hmem, htx, hmarked.1]
  exact hsent

/-! ### O28 -/

/-- A piece that needs no credits. -/
theorem needs_of_no_window {p : Posted} (h : p.desc.winv = false) (own : BitVec 6) (k : Core) : p.needs own k = none := by
  unfold Posted.needs
  rw [h]

/-- A COPY from the own die reaches for its destination's die alone. -/
theorem farDies_of_own_source {d : Desc} {own die : BitVec 6} {a b : Nat} (hsrc : d.srcKind = some (.pga own a))
    (hdst : d.dstKind = some (.pga die b)) : d.farDies own = if die = own then [] else [die] := by
  unfold Desc.farDies
  simp only [hsrc, hdst, if_true, List.nil_append]

/-- Settles O28: the channel's standing decides whether the piece starts, and a piece that starts is delivered. -/
theorem moverPiecesMoveTheirBytes : Obligations.MoverPiecesMoveTheirBytes := by
  unfold Obligations.MoverPiecesMoveTheirBytes
  intro s c ch p
  dsimp only
  intro h hcur
  refine ⟨fun a b die hsrc hdst hwin hlost htag => ?_, fun hlost hbarred ⟨e, u, hneeds, hpoor⟩ => ?_, fun hlost hbarred hfar htag => ?_,
    fun hfails => exec_moverPieceStart_failed h hcur (channelReady_failed hcur hfails)⟩
  · have hready := channelReady_plain hcur hlost (needs_of_no_window hwin s.ownId (s.core c.val)) fun hfar => htag fun hd => by
      rw [farDies_of_own_source hsrc hdst, if_pos hd] at hfar
      exact hfar rfl
    have hneeds := needs_of_no_window hwin s.ownId (s.core c.val)
    rw [qosStart_fst]
    refine ⟨fun hshort => ?_, fun htokens hturn => ?_, fun htokens hturn hread hbad hcm => ?_⟩
    · rw [if_pos (by simpa using hshort)] at hready
      exact exec_moverPieceStart_short h hcur hready
    · rw [if_neg (by simpa using htokens)] at hready
      rw [exec_moverPieceStart_ready h hcur hready hneeds, if_pos hturn]
    · rw [if_neg (by simpa using htokens)] at hready
      have hexec := exec_moverPieceStart_ready h hcur hready hneeds
      rw [if_neg (by simp [hturn])] at hexec
      have hserved := pieceServed_onlyChannels s c.val ch.val p
      generalize pieceServed s c.val ch.val p = u at hexec hserved
      have hown : u.ownId = s.ownId := by rw [hserved.1]; rfl
      have hmem : u.mem = s.mem := by rw [hserved.1]
      have hlog : u.log = s.log ∧ u.windows = s.windows ∧ u.tx = s.tx := by rw [hserved.1]; exact ⟨rfl, rfl, rfl⟩
      have hbyte : ∀ y, u.byteAt y = s.byteAt y := fun y => by rw [State.byteAt, hmem]; rfl
      refine ⟨fun hdie hwrite => ?_, fun g hdie hop htag => ?_⟩
      · obtain ⟨hl, hw, ht, hb⟩ := runPiece_own (s := u) (c := c.val) (n := ch.val) (p := p) (a := a) (b := b) hwin (hown ▸ hsrc) (hown ▸ hdie ▸ hdst)
          (by rw [hserved.localRefusal, hown]; exact hread) (by rw [hserved.localRefusal, hown]; exact hwrite) (by rw [hmem]; exact hbad)
          (by rw [hmem]; exact hcm)
        simp only [hown, hbyte] at hb
        exact ⟨_, hexec, hl.trans hlog.1, hw.trans hlog.2.1, ht.trans hlog.2.2, hb⟩
      · obtain ⟨hl, hw, hm, ht⟩ := runPiece_far (s := u) (c := c.val) (n := ch.val) (p := p) (a := a) (b := b) (die := die) (g := g) hwin (hown ▸ hsrc) hdst
          (hown ▸ hdie) hop (by rw [hserved.localRefusal, hown]; exact hread) (by rw [hmem]; exact hbad) (by rw [hmem]; exact hcm)
          (by rw [← htag, hserved.1]; rfl)
        refine ⟨_, hexec, hl.trans hlog.1, hw.trans hlog.2.1, hm.trans hmem, ht.trans ?_⟩
        rw [hlog.2.2, hserved.colourOf, hown, bytesAt_congr _ _ fun b _ _ => hbyte b, plainMsg, hown]
        rfl
  · by_cases hb : e.barred = true
    · exact absurd ⟨e, u, hneeds, hb⟩ hbarred
    · exact exec_moverPieceStart_waits h (channelReady_poor hcur hlost hneeds hb hpoor)
  · exact exec_moverPieceStart_waits h (channelReady_tagless hcur hlost hbarred hfar htag)

end Sys2Proof.Machine
end


section
/-!
SUPPORT. Commands that wait for transfers (R314, R325): the transfers of firmware, a command at work, and how it begins, waits
and ends.
-/
namespace Sys2Proof.Machine

open Sys2Proof.Stated

/-! ### Transfers of firmware -/

/-- Only requests, messages behind those that wait, and the list of transfers may differ. -/
def OnlySends (s t : State) : Prop :=
  t = { s with tx := t.tx, reqs := t.reqs, skovi := { s.skovi with transfers := t.skovi.transfers, nextTransfer := t.skovi.nextTransfer } } ∧
  s.tx <+: t.tx

theorem OnlySends.trans {s t u : State} (h : OnlySends s t) (h' : OnlySends t u) : OnlySends s u := by
  obtain ⟨hstate, htx⟩ := h
  obtain ⟨hstate', htx'⟩ := h'
  exact ⟨by rw [hstate', hstate], htx.trans htx'⟩

theorem sendPart_onlySends (s : State) (t : Transfer) (tag : BitVec 12) : OnlySends s (sendPart s t tag) := ⟨rfl, _, rfl⟩

theorem sendParts_onlySends : ∀ (n : Nat) (s : State), OnlySends s (sendParts n s)
  | 0, s => ⟨rfl, List.prefix_rfl⟩
  | n + 1, s => by
    rw [sendParts]
    split
    · exact (sendPart_onlySends ..).trans (sendParts_onlySends n _)
    · exact ⟨rfl, List.prefix_rfl⟩

/-- A transfer that has sent nothing yet. -/
def newTransfer (s : State) (who : Purpose) (write : Bool) (d : BitVec 6) (a len : Nat) (data : List Byte) : Transfer :=
  { num := s.skovi.nextTransfer, who := who, write := write, die := d, addr := a, len := len, data := data }

/-- The die with one more transfer. -/
def withTransfer (s : State) (x : Transfer) : State :=
  { s with skovi := { s.skovi with transfers := s.skovi.transfers ++ [x], nextTransfer := s.skovi.nextTransfer + 1 } }

theorem startTransfer_eq (s : State) (who : Purpose) (write : Bool) (d : BitVec 6) (a len : Nat) (data : List Byte) :
    startTransfer s who write d a len data = sendParts 64 (withTransfer s (newTransfer s who write d a len data)) := rfl

theorem newTransfer_due (s : State) (who : Purpose) (write : Bool) (d : BitVec 6) (a len : Nat) (data : List Byte) :
    (newTransfer s who write d a len data).due = decide (0 < len) := rfl

theorem startTransfer_onlySends (s : State) (who : Purpose) (write : Bool) (d : BitVec 6) (a len : Nat) (data : List Byte) :
    OnlySends s (startTransfer s who write d a len data) := by
  rw [startTransfer_eq]
  have hnew : ∀ x, OnlySends s (withTransfer s x) := fun _ => ⟨rfl, List.prefix_rfl⟩
  exact (hnew _).trans (sendParts_onlySends 64 _)

/-- Each element is still there or changed, once the first of a kind is changed. -/
theorem mem_mapFirst {α : Type} {p : α → Bool} {f : α → α} {l : List α} {x : α} (h : x ∈ l) : x ∈ mapFirst p f l ∨ f x ∈ mapFirst p f l := by
  induction l with
  | nil => cases h
  | cons y l ih =>
    rw [mapFirst]
    obtain rfl | h := List.mem_cons.mp h
    · split <;> simp
    · split
      · exact .inl (List.mem_cons_of_mem _ h)
      · exact (ih h).imp (List.mem_cons_of_mem _) (List.mem_cons_of_mem _)

/-- What is changed among the first of a kind was there before, or is what one of them became. -/
theorem of_mem_mapFirst {α : Type} {p : α → Bool} {f : α → α} {l : List α} {x : α} (h : x ∈ mapFirst p f l) : x ∈ l ∨ ∃ y ∈ l, x = f y := by
  induction l with
  | nil => cases h
  | cons y l ih =>
    rw [mapFirst] at h
    split at h
    · obtain rfl | h := List.mem_cons.mp h
      · exact .inr ⟨y, List.mem_cons_self, rfl⟩
      · exact .inl (List.mem_cons_of_mem _ h)
    · obtain rfl | h := List.mem_cons.mp h
      · exact .inl List.mem_cons_self
      · exact (ih h).imp (List.mem_cons_of_mem _) fun ⟨z, hz, hx⟩ => ⟨z, List.mem_cons_of_mem _ hz, hx⟩

/-- Where a list has one of a kind, the first of the kind in it is the one that is changed. -/
theorem mapFirst_append {α : Type} {p : α → Bool} {l : List α} (h : ∃ x ∈ l, p x = true) (f : α → α) (m : List α) :
    mapFirst p f (l ++ m) = mapFirst p f l ++ m := by
  induction l with
  | nil => obtain ⟨x, hx, -⟩ := h; cases hx
  | cons y l ih =>
    rw [List.cons_append, mapFirst, mapFirst]
    split
    · rfl
    · next hy =>
      obtain ⟨x, hx, hp⟩ := h
      obtain rfl | hx := List.mem_cons.mp hx
      · exact absurd hp hy
      · rw [ih ⟨x, hx, hp⟩, List.cons_append]

/-- A transfer for a purpose that has not ended. -/
def Unfinished (s : State) (who : Purpose) : Prop := ∃ x ∈ s.skovi.transfers, x.who = who ∧ x.done = false

/-- A transfer that has not ended has not ended after a further message of any transfer. -/
theorem Unfinished.sendPart {s : State} {who : Purpose} (h : Unfinished s who) (t : Transfer) (tag : BitVec 12) :
    Unfinished (sendPart s t tag) who := by
  obtain ⟨x, hx, hwho, hdone⟩ := h
  obtain hx | hx := mem_mapFirst (p := fun y => y.num == t.num) (f := fun y => { y with sent := y.sent + t.piece, out := y.out + 1 }) hx
  · exact ⟨x, hx, hwho, hdone⟩
  · exact ⟨_, hx, hwho, by simp [Transfer.done]⟩

theorem Unfinished.sendParts {who : Purpose} : ∀ (n : Nat) {s : State}, Unfinished s who → Unfinished (sendParts n s) who
  | 0, _, h => h
  | n + 1, s, h => by
    rw [Machine.sendParts]
    split
    · exact Unfinished.sendParts n (h.sendPart _ _)
    · exact h

/-- A transfer of at least one byte begins and has not ended. -/
theorem startTransfer_unfinished (s : State) (who : Purpose) (write : Bool) (d : BitVec 6) (a : Nat) {len : Nat} (data : List Byte)
    (h : len ≠ 0) : Unfinished (startTransfer s who write d a len data) who := by
  rw [startTransfer_eq]
  refine Unfinished.sendParts 64 ⟨_, List.mem_append_right _ List.mem_cons_self, rfl, ?_⟩
  rw [Transfer.done, newTransfer_due, decide_eq_true (Nat.pos_of_ne_zero h)]
  rfl

/-- The last transfer has ended, and no other is for this purpose. -/
def FinishedAtOnce (s : State) (who : Purpose) : Prop :=
  ∃ l x, s.skovi.transfers = l ++ [x] ∧ x.done = true ∧ ∀ y ∈ l, y.who ≠ who

theorem FinishedAtOnce.sendPart {s : State} {who : Purpose} (h : FinishedAtOnce s who) {t : Transfer}
    (ht : s.skovi.transfers.find? Transfer.due = some t) (tag : BitVec 12) : FinishedAtOnce (sendPart s t tag) who := by
  obtain ⟨l, x, hl, hx, hwho⟩ := h
  have hnot : ¬ x.due = true := by
    simp only [Transfer.done, Bool.and_eq_true, Bool.not_eq_true'] at hx
    simp [hx.1]
  have hmem : t ∈ l := by
    have hdue := List.find?_some ht
    rw [hl] at ht
    obtain h | h := List.mem_append.mp (List.mem_of_find?_eq_some ht)
    · exact h
    · rw [List.mem_singleton.mp h] at hdue
      exact absurd hdue hnot
  refine ⟨mapFirst (fun y => y.num == t.num) (fun y => { y with sent := y.sent + t.piece, out := y.out + 1 }) l, x, ?_, hx, fun y hy => ?_⟩
  · show mapFirst _ _ s.skovi.transfers = _
    rw [hl, mapFirst_append ⟨t, hmem, by simp⟩]
  · obtain hy | ⟨z, hz, rfl⟩ := of_mem_mapFirst hy
    · exact hwho y hy
    · exact hwho z hz

theorem FinishedAtOnce.sendParts {who : Purpose} : ∀ (n : Nat) {s : State}, FinishedAtOnce s who → FinishedAtOnce (sendParts n s) who
  | 0, _, h => h
  | n + 1, s, h => by
    rw [Machine.sendParts]
    split
    · next ht _ => exact FinishedAtOnce.sendParts n (h.sendPart ht _)
    · exact h

/-- A transfer of no byte has ended at once. -/
theorem startTransfer_finished {s : State} {who : Purpose} (write : Bool) (d : BitVec 6) (a : Nat) (data : List Byte)
    (h : s.transfersOf who = []) : FinishedAtOnce (startTransfer s who write d a 0 data) who := by
  rw [startTransfer_eq]
  refine FinishedAtOnce.sendParts 64 ⟨s.skovi.transfers, _, rfl, rfl, fun y hy hwho => ?_⟩
  exact absurd (beq_iff_eq.mpr hwho) (List.filter_eq_nil_iff.mp h y hy)

/-- Where no other transfer has anything to send, the first message of a transfer that begins leaves first (R88, R314). -/
theorem startTransfer_first (s : State) (who : Purpose) (write : Bool) (r : BulkRef) {len : Nat} (data : List Byte) (h : len ≠ 0) :
    FirstPart s (startTransfer s who write r.die r.addr len data) r (if write then opWrite else opRead)
      (if write then takePad (min (4096 - r.addr % 4096) len) data else leBytes 4 (min (4096 - r.addr % 4096) len)) := by
  intro hdue tag htag
  have hnew : (newTransfer s who write r.die r.addr len data).due = true := by
    rw [newTransfer_due, decide_eq_true (Nat.pos_of_ne_zero h)]
  have hfind : (withTransfer s (newTransfer s who write r.die r.addr len data)).skovi.transfers.find? Transfer.due =
      some (newTransfer s who write r.die r.addr len data) := by
    rw [withTransfer, List.find?_append, List.find?_eq_none.mpr (by simpa using hdue), List.find?_cons_of_pos hnew]
    rfl
  have htag' : ∀ x, freshTag (withTransfer s x) skoviTag = some tag := fun _ => htag
  have hpiece : (newTransfer s who write r.die r.addr len data).piece = min (4096 - r.addr % 4096) len := rfl
  rw [startTransfer_eq, sendParts, hfind, htag']
  obtain ⟨-, more, hmore⟩ := sendParts_onlySends 63
    (sendPart (withTransfer s (newTransfer s who write r.die r.addr len data)) (newTransfer s who write r.die r.addr len data) tag)
  refine ⟨_, more, hmore.symm.trans (List.append_assoc ..), rfl, rfl, rfl, rfl, rfl, ?_⟩
  rw [← hpiece]
  rfl

end Sys2Proof.Machine
end


section
/-!
SUPPORT. Commands that wait (R314, R325; assumption 129): a command at work, and how a command begins, waits and ends.
-/
namespace Sys2Proof.Machine

open Sys2Proof.Stated

/-! ### A command at work -/

theorem atWork_congr {s t : State} (h : t.mailboxes = s.mailboxes) (mb : Nat) (i : BitVec 16) (op : Nat) :
    t.atWork mb i op = s.atWork mb i op := by
  rw [State.atWork, State.atWork, State.mailbox, State.mailbox, h]

theorem serve_mailboxes (s : State) (mb : Nat) : (serve s mb).mailboxes = s.mailboxes := by
  unfold serve
  split <;> rfl

theorem serve_transfers (s : State) (mb : Nat) : (serve s mb).skovi.transfers = s.skovi.transfers := by
  unfold serve
  split <;> rfl

theorem serve_tx (s : State) (mb : Nat) : (serve s mb).tx = s.tx := by
  unfold serve
  split <;> rfl

theorem serve_up (s : State) (mb : Nat) : (serve s mb).skovi.up = s.skovi.up := by
  unfold serve
  split <;> rfl

theorem serve_boot (s : State) (mb : Nat) : (serve s mb).boot = s.boot := by
  unfold serve
  split <;> rfl

theorem serve_halted (s : State) (mb : Nat) : (serve s mb).halted = s.halted := by
  unfold serve
  split <;> rfl

/-- The command at an index after a change of it. -/
def atIndex (i : BitVec 16) (f : Cmd → Cmd) (c : Cmd) : Cmd := if c.idx == i then f c else c

theorem modCmd_accepted (s : State) (mb : Nat) (i : BitVec 16) (f : Cmd → Cmd) :
    ((modCmd s mb i f).mailbox mb).accepted = (s.mailbox mb).accepted.map (atIndex i f) := by
  rw [modCmd, State.mailbox_modMailbox_same]
  rfl

theorem modCmd_toPhase_accepted (s : State) (mb : Nat) (i : BitVec 16) (n : Nat) (g : Cmd → Cmd) :
    ((modCmd (toPhase s mb i n) mb i g).mailbox mb).accepted =
      (s.mailbox mb).accepted.map (atIndex i fun c => g { c with running := true, phase := n, awaited := [], replies := [] }) := by
  rw [modCmd_accepted, toPhase, modCmd_accepted, List.map_map]
  refine List.map_congr_left fun c _ => ?_
  by_cases hc : (c.idx == i) = true
  · simp only [Function.comp_apply, atIndex, hc, if_true]
  · simp only [Function.comp_apply, atIndex, hc, Bool.false_eq_true, if_false]

/-- A change that puts a command to work, and leaves what it is and whether it is performed. -/
structure PutsToWork (f : Cmd → Cmd) : Prop where
  idx : ∀ c, (f c).idx = c.idx
  bytes : ∀ c, (f c).bytes = c.bytes
  running : ∀ c, (f c).running = true
  phase : ∀ c, (f c).phase ≠ 0
  resp : ∀ c, (f c).resp = c.resp

/-- A command that waits to start is at work once it is put to work. -/
theorem atWork_of_putsToWork {s t : State} {mb : Nat} {i : BitVec 16} {op : Nat} {f : Cmd → Cmd} {c : Cmd} (hf : PutsToWork f)
    (ht : (t.mailbox mb).accepted = (s.mailbox mb).accepted.map (atIndex i f)) (hc : s.waitingCmd mb i = some c) (hop : c.opcode = op) :
    ∃ y, t.atWork mb i op = some (f y) ∧ (f y).idx = i := by
  have hidx := List.find?_some hc
  rw [Bool.and_eq_true, beq_iff_eq, Cmd.started, Bool.not_eq_true', Bool.or_eq_false_iff, Option.isSome_eq_false_iff] at hidx
  obtain ⟨hidx, -, hresp⟩ := hidx
  have hchosen : (atIndex i f c).idx == i && (atIndex i f c).opcode == op && (atIndex i f c).running && (atIndex i f c).phase != 0 &&
      (atIndex i f c).resp.isNone := by
    rw [atIndex, if_pos (beq_iff_eq.mpr hidx), Cmd.opcode, hf.idx, hf.bytes, hf.running, hf.resp, hresp, ← Cmd.opcode, hop, hidx]
    simpa using hf.phase c
  have hsome : (t.atWork mb i op).isSome := by
    rw [State.atWork, ht, List.find?_isSome]
    exact ⟨_, List.mem_map_of_mem (List.mem_of_find?_eq_some hc), hchosen⟩
  obtain ⟨x, hx⟩ := Option.isSome_iff_exists.mp hsome
  have hxi := List.find?_some hx
  have hmem := List.mem_of_find?_eq_some hx
  rw [ht] at hmem
  obtain ⟨y, -, rfl⟩ := List.mem_map.mp hmem
  simp only [Bool.and_eq_true, beq_iff_eq] at hxi
  obtain ⟨⟨⟨⟨hxi, -⟩, -⟩, -⟩, -⟩ := hxi
  have hy : y.idx = i := by
    rw [atIndex] at hxi
    split at hxi
    · exact (hf.idx y).symm.trans hxi
    · exact hxi
  have hat : atIndex i f y = f y := if_pos (beq_iff_eq.mpr hy)
  rw [hat] at hx hxi
  exact ⟨y, hx, hxi⟩

/-- A response puts no command to work. -/
theorem answer_idle {s : State} {mb : Nat} {i : BitVec 16} {op : Nat} (st : BitVec 16) (h : s.atWork mb i op = none) :
    (answer s mb i st []).atWork mb i op = none := by
  rw [State.atWork, answer_accepted, List.find?_eq_none]
  intro c hc
  obtain ⟨y, hy, rfl⟩ := List.mem_map.mp hc
  rw [responds]
  split
  · simp
  · exact List.find?_eq_none.mp h y hy

/-- A command that asked no die waits while one of its transfers has not ended. -/
theorem cmdReady_of_unfinished {s : State} {mb : Nat} {c : Cmd} (h : Unfinished s (.cmd mb c.idx)) : s.cmdReady mb c = false := by
  obtain ⟨x, hx, hwho, hdone⟩ := h
  have hall : (s.transfersOf (.cmd mb c.idx)).all Transfer.done = false :=
    List.all_eq_false.mpr ⟨x, List.mem_filter.mpr ⟨hx, beq_iff_eq.mpr hwho⟩, by simp [hdone]⟩
  rw [State.cmdReady, hall, Bool.false_and]

/-- A command that asked no die goes on once its transfer has ended. -/
theorem cmdReady_of_finishedAtOnce {s : State} {mb : Nat} {c : Cmd} (h : FinishedAtOnce s (.cmd mb c.idx)) (hasked : c.awaited = []) :
    s.cmdReady mb c = true := by
  obtain ⟨l, x, hl, hx, hwho⟩ := h
  have hall : (s.transfersOf (.cmd mb c.idx)).all Transfer.done = true := by
    refine List.all_eq_true.mpr fun y hy => ?_
    obtain ⟨hy, hyw⟩ := List.mem_filter.mp hy
    rw [hl] at hy
    obtain hy | hy := List.mem_append.mp hy
    · exact absurd (beq_iff_eq.mp hyw) (hwho y hy)
    · rwa [List.mem_singleton.mp hy]
  rw [State.cmdReady, hall, hasked]
  rfl

/-! ### Beginning, waiting and ending -/

/-- A command that may run and passes the checks is performed on its payload, whose length its layout may depend on. -/
theorem runCmd_of_Runs {s : State} {mb : Fin 16} {i : BitVec 16} {op : Nat} {l : Layout} {p : List Byte} (h : Runs s mb i op l p)
    {layout : List Byte → Layout} (hl : layout p = l) (f : List Byte → State) : runCmd s mb.val i op layout f = serve (f p) mb.val := by
  obtain ⟨⟨-, hup, hst⟩, hfits, htakes, c, hc, hop, hmay, hhead, hpay⟩ := h
  have hserved : ((s.mailbox mb.val).st == .ready || (s.mailbox mb.val).st == .resetting) = true := by simpa using hst
  rw [runCmd]
  simp only [hup, hserved, hop, hmay, hhead, hpay, htakes, hl, hfits, Option.mem_def.mp hc, Bool.not_true, Bool.or_self, bne_self_eq_false,
    Bool.false_eq_true, if_false, stOk, BitVec.ofNat_eq_ofNat]

/-- A command at work goes on once it is ready. -/
theorem runStaged_of_atWork {s : State} {mb : Nat} {i : BitVec 16} {op : Nat} {layout : List Byte → Layout} {start : List Byte → State}
    {next : State → Cmd → State} {c : Cmd} (hup : s.skovi.up = true) (h : s.atWork mb i op = some c) :
    runStaged s mb i op layout start next = if s.cmdReady mb c then next s c else s := by
  rw [runStaged, hup, h]
  rfl

/-- A command that is not at work begins; what is not at work then has been answered. -/
theorem runStaged_of_answered {s t : State} {mb : Nat} {i : BitVec 16} {op : Nat} {layout : List Byte → Layout} {start : List Byte → State}
    {next : State → Cmd → State} (hup : s.skovi.up = true) (h : s.atWork mb i op = none) (ht : runCmd s mb i op layout start = t)
    (h' : t.atWork mb i op = none) : runStaged s mb i op layout start next = t := by
  rw [runStaged, hup, h, ht]
  dsimp only
  rw [h']
  rfl

/-- A command that is not at work begins; what is at work then goes on at once where it is ready. -/
theorem runStaged_of_begun {s t : State} {mb : Nat} {i : BitVec 16} {op : Nat} {layout : List Byte → Layout} {start : List Byte → State}
    {next : State → Cmd → State} {c : Cmd} (hup : s.skovi.up = true) (h : s.atWork mb i op = none) (ht : runCmd s mb i op layout start = t)
    (h' : t.atWork mb i op = some c) : runStaged s mb i op layout start next = if t.cmdReady mb c then next t c else t := by
  rw [runStaged, hup, h, ht]
  dsimp only
  rw [h']
  rfl

/-- The instruction j is a command that waits: it begins with start and goes on with next. -/
def Waits (j : Instr) (mb : Fin 16) (i : BitVec 16) (op : Nat) (l : Layout) (start : State → List Byte → State) (next : State → Cmd → State) : Prop :=
  ∀ s, exec j s = live s fun s => runStaged s mb.val i op (fun _ => l) (start s) next

section
variable {j : Instr} {mb : Fin 16} {i : BitVec 16} {op : Nat} {l : Layout} {start : State → List Byte → State} {next : State → Cmd → State}
  {s : State} {p : List Byte}

/-- A command that a check refuses is answered at once. -/
theorem Waits.exec_refused (hj : Waits j mb i op l start next) (h : Runs s mb i op l p) (hidle : s.atWork mb.val i op = none) {st : BitVec 16}
    (hstart : start s p = answer s mb.val i st []) : exec j s = .next (responded s mb.val i st []) := by
  have hrun : runCmd s mb.val i op (fun _ => l) (start s) = responded s mb.val i st [] := by
    rw [runCmd_of_Runs h rfl, hstart, responded]
  have hdone : (responded s mb.val i st []).atWork mb.val i op = none := by
    rw [responded, atWork_congr (serve_mailboxes ..), answer_idle st hidle]
  obtain ⟨⟨hclocked, hup, -⟩, -⟩ := h
  rw [hj, live_of_Clocked hclocked, runStaged_of_answered hup hidle hrun hdone]

/-- A command that is at work does nothing before it is ready. -/
theorem Waits.exec_waiting (hj : Waits j mb i op l start next) (hclocked : Clocked s) (hup : s.skovi.up = true) {c : Cmd}
    (h : s.atWork mb.val i op = some c) (hready : s.cmdReady mb.val c = false) : exec j s = .next s := by
  rw [hj, live_of_Clocked hclocked, runStaged_of_atWork hup h, hready]
  rfl

/-- A command that is at work goes on once it is ready. -/
theorem Waits.exec_ready (hj : Waits j mb i op l start next) (hclocked : Clocked s) (hup : s.skovi.up = true) {c : Cmd}
    (h : s.atWork mb.val i op = some c) (hready : s.cmdReady mb.val c = true) : exec j s = .next (next s c) := by
  rw [hj, live_of_Clocked hclocked, runStaged_of_atWork hup h, hready]
  rfl

/-- A command that begins leaves it at work. -/
theorem Waits.exec_begun (hj : Waits j mb i op l start next) (h : Runs s mb i op l p) (hidle : s.atWork mb.val i op = none) {c : Cmd}
    (hc : (serve (start s p) mb.val).atWork mb.val i op = some c) (hready : (serve (start s p) mb.val).cmdReady mb.val c = false) :
    exec j s = .next (serve (start s p) mb.val) := by
  have hrun := runCmd_of_Runs h (layout := fun _ => l) rfl (start s)
  obtain ⟨⟨hclocked, hup, -⟩, -⟩ := h
  rw [hj, live_of_Clocked hclocked, runStaged_of_begun hup hidle hrun hc, hready]
  rfl

/-- A command that has nothing to wait for goes on as it does when it is at work. -/
theorem Waits.exec_through (hj : Waits j mb i op l start next) (h : Runs s mb i op l p) (hidle : s.atWork mb.val i op = none) {t : State}
    (ht : serve (start s p) mb.val = t) {c : Cmd} (hc : t.atWork mb.val i op = some c) (hready : t.cmdReady mb.val c = true)
    (hclocked' : Clocked t) (hup' : t.skovi.up = true) : exec j s = exec j t := by
  have hrun := runCmd_of_Runs h (layout := fun _ => l) rfl (start s)
  obtain ⟨⟨hclocked, hup, -⟩, -⟩ := h
  rw [hj.exec_ready hclocked' hup' hc hready, hj, live_of_Clocked hclocked, runStaged_of_begun hup hidle hrun (c := c) (by rw [ht, hc]), ht, hready]
  rfl

/-- A command that is at work ends as u says, where it fails with its transfer. -/
theorem Waits.concludes (hj : Waits j mb i op l start next) {u : Cmd → State}
    (hfailed : ∀ c, s.cmdFailed mb.val c = true → next s c = finishCmd s mb.val c 0x0501 [])
    (hdone : ∀ c, s.cmdFailed mb.val c = false → next s c = u c) : Concludes j s mb.val i op u := by
  intro hclocked hup c hc
  refine ⟨hj.exec_waiting hclocked hup hc, fun hready hf => ?_, fun hready hf => ?_⟩
  · rw [hj.exec_ready hclocked hup hc hready, hfailed c hf]
  · rw [hj.exec_ready hclocked hup hc hready, hdone c hf]

end

/-! ### Commands that read or write bulk data -/

/-- The die stays clocked while messages leave. -/
theorem clocked_of_sends {s t : State} (h : Clocked s) (hs : OnlySends s t) (mb : Nat) : Clocked (serve t mb) := by
  obtain ⟨hstate, -⟩ := hs
  have hboot : t.boot = s.boot := by rw [hstate]
  have hhalted : t.halted = s.halted := by rw [hstate]; rfl
  simpa only [Clocked, serve_boot, serve_halted, hboot, hhalted] using h

section
variable {j : Instr} {mb : Fin 16} {i : BitVec 16} {op : Nat} {l : Layout} {start : State → List Byte → State} {next : State → Cmd → State}
  {s w : State} {p : List Byte} {f : Cmd → Cmd} {r : BulkRef} {write : Bool} {len : Nat} {data : List Byte}

/-- A command begins with a transfer: it is at work, waits while there is a byte to move, and the first message leaves. -/
theorem Waits.exec_transfer (hj : Waits j mb i op l start next) (h : Begins s mb i op l p) (hf : PutsToWork f) (hasked : ∀ c, (f c).awaited = [])
    (hw : w = { s with mailboxes := w.mailboxes }) (hacc : (w.mailbox mb.val).accepted = (s.mailbox mb.val).accepted.map (atIndex i f))
    (hstart : start s p = startTransfer w (.cmd mb.val i) write r.die r.addr len data) :
    let v := serve (startTransfer w (.cmd mb.val i) write r.die r.addr len data) mb.val
    (∃ y, v.atWork mb.val i op = some (f y) ∧ v.cmdReady mb.val (f y) = (len == 0)) ∧
    (len = 0 → exec j s = exec j v) ∧
    (len ≠ 0 → exec j s = .next v ∧ FirstPart s v r (if write then opWrite else opRead)
      (if write then takePad (min (4096 - r.addr % 4096) len) data else leBytes 4 (min (4096 - r.addr % 4096) len))) := by
  intro v
  obtain ⟨hruns, hidle, hnone⟩ := h
  have hclockedW : Clocked w := by
    rw [hw]
    exact hruns.1.1
  have hsends := startTransfer_onlySends w (.cmd mb.val i) write r.die r.addr len data
  have hclocked : Clocked v := clocked_of_sends hclockedW hsends mb.val
  have hmailboxes : v.mailboxes = w.mailboxes := by rw [serve_mailboxes, hsends.1]
  have hup : v.skovi.up = true := by
    rw [serve_up, hsends.1, hw]
    exact hruns.1.2.1
  obtain ⟨y, hy, hyi⟩ : ∃ y, v.atWork mb.val i op = some (f y) ∧ (f y).idx = i := by
    obtain ⟨-, -, -, c, hc, hop, -⟩ := hruns
    rw [atWork_congr hmailboxes]
    exact atWork_of_putsToWork hf hacc hc hop
  have hready : v.cmdReady mb.val (f y) = (len == 0) := by
    by_cases hlen : len = 0
    · have hfinished : FinishedAtOnce v (.cmd mb.val i) := by
        subst hlen
        obtain ⟨l, x, hl, hrest⟩ := startTransfer_finished (s := w) write r.die r.addr data (by rw [hw]; exact hnone)
        exact ⟨l, x, by rw [serve_transfers, hl], hrest⟩
      rw [cmdReady_of_finishedAtOnce (by rw [hyi]; exact hfinished) (hasked y), hlen]
      rfl
    · have hpending : Unfinished v (.cmd mb.val i) := by
        obtain ⟨x, hx, hrest⟩ := startTransfer_unfinished w (.cmd mb.val i) write r.die r.addr data hlen
        exact ⟨x, by rw [serve_transfers]; exact hx, hrest⟩
      rw [cmdReady_of_unfinished (by rw [hyi]; exact hpending), beq_eq_false_iff_ne.mpr hlen]
  refine ⟨⟨y, hy, hready⟩, fun hlen => ?_, fun hlen => ⟨?_, fun hdue tag htag => ?_⟩⟩
  · rw [hlen, beq_self_eq_true] at hready
    exact hj.exec_through hruns hidle (by rw [hstart]) hy hready hclocked hup
  · rw [beq_eq_false_iff_ne.mpr hlen] at hready
    have hv : serve (start s p) mb.val = v := by rw [hstart]
    rw [hj.exec_begun hruns hidle (by rw [hv, hy]) (by rw [hv, hready]), hv]
  · have hskovi : w.skovi = s.skovi := by rw [hw]
    have htags : freshTag w skoviTag = freshTag s skoviTag := by rw [hw]; rfl
    have htx : w.tx = s.tx := by rw [hw]
    obtain ⟨m, more, hm, hrest⟩ := startTransfer_first w (.cmd mb.val i) write r data hlen (by rwa [hskovi]) tag (by rwa [htags])
    exact ⟨m, more, by rw [serve_tx, hm, htx], hrest⟩

/-- A command that begins by reading a bulk reference fetches it. -/
theorem Waits.fetches (hj : Waits j mb i op l start next) (h : Begins s mb i op l p) {n : Nat} (hn : n ≠ 0)
    (hstart : start s p = readBulk s mb.val i r n) : Fetches j s mb.val i op r n := by
  have hf : PutsToWork (fun c => { c with running := true, phase := n, awaited := [], replies := [] }) :=
    ⟨fun _ => rfl, fun _ => rfl, fun _ => rfl, fun _ => hn, fun _ => rfl⟩
  obtain ⟨⟨y, hy, hready⟩, hrest⟩ := hj.exec_transfer (w := toPhase s mb.val i n) h hf (fun _ => rfl) rfl (modCmd_accepted ..) hstart
  rw [Nat.min_comm] at hrest
  exact ⟨⟨_, hy, rfl, hready⟩, hrest⟩

/-- A command that begins by writing to a bulk reference delivers what it writes. -/
theorem Waits.delivers (hj : Waits j mb i op l start next) (h : Begins s mb i op l p) {report : List Byte}
    (hstart : start s p = writeBulk s mb.val i r data report) : Delivers j s s mb.val i op r data report := by
  have hf : PutsToWork (fun c => { c with running := true, phase := 1, awaited := [], replies := [], report := report }) :=
    ⟨fun _ => rfl, fun _ => rfl, fun _ => rfl, fun _ => Nat.one_ne_zero, fun _ => rfl⟩
  have hacc := modCmd_toPhase_accepted s mb.val i 1 fun c => { c with report := report }
  obtain ⟨⟨y, hy, hready⟩, hthrough, hbegun⟩ := hj.exec_transfer h hf (fun _ => rfl) rfl hacc hstart
  have hempty : ((data.take r.len).length == 0) = (data.take r.len == []) := by cases data.take r.len <;> rfl
  have hpart : takePad (min (4096 - r.addr % 4096) (data.take r.len).length) (data.take r.len) = (data.take r.len).take (4096 - r.addr % 4096) := by
    rw [takePad, Nat.sub_eq_zero_of_le (Nat.min_le_right ..), List.replicate_zero, List.append_nil, ← List.take_eq_take_min]
  refine ⟨⟨_, hy, rfl, hready.trans hempty⟩, fun hd => hthrough (List.length_eq_zero_iff.mpr hd), fun hd => ?_⟩
  rw [if_pos rfl, if_pos rfl, hpart] at hbegun
  exact hbegun (fun hl => hd (List.length_eq_zero_iff.mp hl))

end

end Sys2Proof.Machine
end


section
/-!
SUPPORT. The admin commands with an effect on firmware, time, links and membership (R104, R329 to R332, R336).
-/
namespace Sys2Proof.Machine

open Sys2Proof.Stated

/-! ### Fields of a payload -/

theorem leNat_lt : ∀ l : List Byte, leNat l < 256 ^ l.length
  | [] => by decide
  | b :: l => by
    have hb := b.isLt
    have hl := leNat_lt l
    rw [leNat, List.length_cons, Nat.pow_succ]
    omega

theorem leField_lt (p : List Byte) (lo n : Nat) : leField p lo n < 256 ^ n := by
  have h := leNat_lt (takePad n (p.drop lo))
  rwa [show (takePad n (p.drop lo)).length = n by simp only [takePad, List.length_take, List.length_append, List.length_replicate]; omega] at h

/-- Eight bytes are a word. -/
theorem ofNat_leField_toNat (p : List Byte) (lo : Nat) : (BitVec.ofNat 64 (leField p lo 8)).toNat = leField p lo 8 :=
  Nat.mod_eq_of_lt (leField_lt p lo 8)

/-- The bits of a byte of a payload that fits are those that its layout assigns. -/
theorem byte_of_fits {l : Layout} {p : List Byte} (h : l.fits p = true) {k : Nat} (hk : k < l.stop) :
    ∃ b : Byte, leField p k 1 = b.toNat ∧ b &&& ~~~ l.mask k = 0 := by
  rw [Layout.fits, Bool.and_eq_true, decide_eq_true_eq, List.all_eq_true] at h
  have hlen : k < p.length := hk.trans_le h.1
  have hmem : (k, p[k]) ∈ (List.range p.length).zip p :=
    List.mem_iff_getElem.mpr ⟨k, by simpa using hlen, by simp⟩
  refine ⟨p[k], ?_, beq_iff_eq.mp (h.2 _ hmem)⟩
  rw [leField, List.drop_eq_getElem_cons hlen]
  rfl

/-! ### FW_STAGE (R314, R329) -/

/-- How FW_STAGE begins. -/
def fwStageBegun (mb : Nat) (i : BitVec 16) (s : State) (p : List Byte) : State :=
  match s.bulk p 0 with
  | none => answer s mb i stBadField []
  | some r => if r.len = 0 || 0x800000 < r.len then answer s mb i stBadField [] else readBulk s mb i r 1

theorem fwStage_waits (mb : Fin 16) (i : BitVec 16) :
    Waits (.fwStage mb i .overPorts) mb i 0x10 (bulkBits 0) (fwStageBegun mb.val i) (stageFirmware mb.val) := fun _ => rfl

/-- FW_STAGE reads the bulk reference of 1 to 8 MiB, and is refused with any other. -/
theorem exec_fwStage {s : State} {mb : Fin 16} {i : BitVec 16} {p : List Byte} (h : Begins s mb i 0x10 (bulkBits 0) p) :
    ((s.bulk p 0 = none ∨ ∃ r, s.bulk p 0 = some r ∧ (r.len = 0 ∨ 0x800000 < r.len)) →
      exec (.fwStage mb i .overPorts) s = .next (responded s mb.val i 0x0101 [])) ∧
    (∀ r, s.bulk p 0 = some r → 1 ≤ r.len → r.len ≤ 0x800000 → Fetches (.fwStage mb i .overPorts) s mb.val i 0x10 r 1) := by
  refine ⟨fun hbad => ?_, fun r hr h1 h2 => ?_⟩
  · refine (fwStage_waits mb i).exec_refused h.1 h.2.1 ?_
    obtain hr | ⟨r, hr, hlen⟩ := hbad
    · rw [fwStageBegun, hr]
      rfl
    · rw [fwStageBegun, hr]
      exact if_pos (by simpa using hlen)
  · refine (fwStage_waits mb i).fetches h Nat.one_ne_zero ?_
    rw [fwStageBegun, hr]
    exact if_neg (by simp only [Bool.or_eq_true, decide_eq_true_eq]; omega)

/-- FW_STAGE stages an image of good form and signature once it is read (R329, R384). -/
theorem fwStage_concludes (s : State) (mb : Fin 16) (i : BitVec 16) : Concludes (.fwStage mb i .overPorts) s mb.val i 0x10 (fun c =>
    let g := (s.cmdBytes mb.val c).take (imageLength (s.cmdBytes mb.val c))
    if imageForm g = true ∧ imageSigned g = true then
      finishCmd { s with skovi := { s.skovi with staged := some g } } mb.val c 0 (leBytes 4 (imageBuild g).toNat ++ leBytes 48 (Config.sha384 g).toNat)
    else finishCmd s mb.val c 0x0401 []) := by
  refine (fwStage_waits mb i).concludes (fun c hc => ?_) (fun c hc => ?_)
  · rw [stageFirmware]
    exact if_pos hc
  · rw [stageFirmware]
    simp only [hc, Bool.false_eq_true, if_false, Bool.and_eq_true]
    rfl

/-! ### FW_ACTIVATE and WARM_RESET (R329, R330) -/

section
variable {s : State} {mb : Fin 16} {i : BitVec 16} {p : List Byte}

/-- FW_ACTIVATE takes the staged build of level 2. -/
theorem exec_fwActivate (h : Runs s mb i 0x11 [(0, 4, 0xFF)] p) :
    (s.skovi.staged = none → exec (.fwActivate mb i) s = .next (responded s mb.val i 0x0206 [])) ∧
    (∀ g, s.skovi.staged = some g → (imageBuild g).toNat ≠ leField p 0 4 → exec (.fwActivate mb i) s = .next (responded s mb.val i 0x0206 [])) ∧
    (∀ g, s.skovi.staged = some g → (imageBuild g).toNat = leField p 0 4 → imageMajor g ≠ 2 →
      exec (.fwActivate mb i) s = .next (responded s mb.val i 0x0305 [])) ∧
    (∀ g, s.skovi.staged = some g → (imageBuild g).toNat = leField p 0 4 → imageMajor g = 2 →
      exec (.fwActivate mb i) s = .next (responded { s with skovi := { s.skovi with activating := true } } mb.val i 0 [])) := by
  rw [show exec (.fwActivate mb i) s = execFwActivate mb i s from rfl, execFwActivate, live_runCmd_of_Runs h]
  refine ⟨fun hg => ?_, fun g hg hb => ?_, fun g hg hb hm => ?_, fun g hg hb hm => ?_⟩
  · rw [hg]
    rfl
  · simp only [hg, bne_iff_ne.mpr hb, if_true]
    rfl
  · simp only [hg, hb, bne_self_eq_false, Bool.false_eq_true, if_false, bne_iff_ne.mpr hm, if_true]
    rfl
  · simp only [hg, hb, hm, bne_self_eq_false, Bool.false_eq_true, if_false]
    rfl

/-- WARM_RESET is refused while a partition is present, unless it is forced. -/
theorem exec_warmReset (h : Runs s mb i 0x21 [(0, 1, 0x01)] p) :
    (leField p 0 1 = 0 → (∃ e ∈ s.parts, e.2.present = true) → exec (.warmReset mb i) s = .next (responded s mb.val i 0x0202 [])) ∧
    (leField p 0 1 = 1 → exec (.warmReset mb i) s = .next (responded s mb.val i 0 [])) ∧
    ((∀ e ∈ s.parts, e.2.present = false) → exec (.warmReset mb i) s = .next (responded s mb.val i 0 [])) := by
  rw [show exec (.warmReset mb i) s = execWarmReset mb i s from rfl, execWarmReset, live_runCmd_of_Runs h]
  refine ⟨fun hforce hparts => ?_, fun hforce => ?_, fun hparts => ?_⟩
  · rw [if_pos (by simpa [hforce] using hparts)]
    rfl
  · rw [if_neg (by simp [hforce])]
    rfl
  · rw [if_neg (by simpa using fun _ a b hab => hparts (a, b) hab)]
    rfl

/-! ### MAST_CONFIG and LINK_RESET (R61, R87, R331) -/

/-- MAST_CONFIG schedules a period of 1 to 1000 for a stroke at least two ahead on a die that has a lock. -/
theorem exec_mastConfig (h : Runs s mb i 0x30 [(0, 2, 0xFF), (8, 8, 0xFF)] p) :
    let us := leField p 0 2
    let e := leField p 8 8
    let fits := s.mast.st ≠ .unlocked ∧ s.mast.stroke.toNat + 2 ≤ e
    ((us = 0 ∨ 1000 < us) → exec (.mastConfig mb i) s = .next (responded s mb.val i 0x0101 [])) ∧
    (1 ≤ us → us ≤ 1000 → ¬ fits → exec (.mastConfig mb i) s = .next (responded s mb.val i 0x0206 [])) ∧
    (1 ≤ us → us ≤ 1000 → fits →
      exec (.mastConfig mb i) s = .next (responded (schedulePeriod s (BitVec.ofNat 10 us) (BitVec.ofNat 64 e)) mb.val i 0 (leBytes 8 e))) := by
  intro us e fits
  have hchange : s.mast.canChange (BitVec.ofNat 64 e) = true ↔ fits := by
    simp only [Mast.canChange, Bool.and_eq_true, bne_iff_ne, decide_eq_true_eq, e, ofNat_leField_toNat, fits]
  rw [show exec (.mastConfig mb i) s = execMastConfig mb i s from rfl, execMastConfig, live_runCmd_of_Runs h]
  have hperiod : (decide (leField p 0 2 = 0) || decide (1000 < leField p 0 2)) = true ↔ us = 0 ∨ 1000 < us := by simp [us]
  refine ⟨fun hus => ?_, fun h1 h2 hfits => ?_, fun h1 h2 hfits => ?_⟩
  · dsimp only
    rw [if_pos (hperiod.mpr hus)]
    rfl
  · dsimp only
    rw [if_neg (fun hus => by have := hperiod.mp hus; omega), if_neg (fun hc => hfits (hchange.mp hc))]
    rfl
  · dsimp only
    rw [if_neg (fun hus => by have := hperiod.mp hus; omega), if_pos (hchange.mpr hfits), ofNat_leField_toNat]
    rfl

/-- A period change is recorded and REFRESH booked for it: of the rest nothing changes. -/
theorem schedulePeriod_leaves (s : State) (n : BitVec 10) (e : Word) :
    schedulePeriod s n e = { s with mast := (schedulePeriod s n e).mast, dieBookings := (schedulePeriod s n e).dieBookings
                                    owed := (schedulePeriod s n e).owed } ∧
    (schedulePeriod s n e).mast = { s.mast with next := n, effective := e, regNext := n, regEffective := e, pend := true } := by
  unfold schedulePeriod
  dsimp only
  rw [bookRefresh_eq]
  exact ⟨rfl, rfl⟩

/-- LINK_RESET resets the named port. -/
theorem exec_linkReset (h : Runs s mb i 0x41 [(0, 1, 0x03)] p) (q : PortId) (hq : leField p 0 1 = q.val) :
    exec (.linkReset mb i) s = .next (responded (portReset s q) mb.val i 0 []) := by
  rw [show exec (.linkReset mb i) s = execLinkReset mb i s from rfl, execLinkReset, live_runCmd_of_Runs h, hq]
  have hport : (BitVec.ofNat 2 q.val).toFin = q := Fin.ext (Nat.mod_eq_of_lt q.isLt)
  rw [hport]
  rfl

/-! ### DIE_FENCE and DIE_REINSTATE (R104, R332) -/

/-- Fence Pennants only wait to leave. -/
theorem sendFence_onlyTx (s : State) (kind : BitVec 3) (d : BitVec 6) (uid : Word) : OnlyTx s (sendFence s kind d uid) :=
  OnlyTx.foldl (fun u x => by
    split
    · rfl
    · split
      · exact routed_eq ..
      · rfl) _ _

/-- What DIE_FENCE and DIE_REINSTATE name. -/
theorem named_eq {d : BitVec 6} (hd : leField p 0 1 = d.toNat) :
    ((s.member.id = some d ∨ 60 ≤ d.toNat) → s.named p = .error 0x0101) ∧
    (¬ (s.member.id = some d ∨ 60 ≤ d.toNat) → (s.die d.toNat).uid ≠ BitVec.ofNat 64 (leField p 8 8) → s.named p = .error 0x0204) ∧
    (¬ (s.member.id = some d ∨ 60 ≤ d.toNat) → (s.die d.toNat).uid = BitVec.ofNat 64 (leField p 8 8) →
      s.named p = .ok (d, BitVec.ofNat 64 (leField p 8 8))) := by
  have hwrong : (s.member.id == some d || decide (60 ≤ d.toNat)) = true ↔ s.member.id = some d ∨ 60 ≤ d.toNat := by simp
  rw [State.named, hd, BitVec.ofNat_toNat, BitVec.setWidth_eq]
  refine ⟨fun hw => ?_, fun hw hu => ?_, fun hw hu => ?_⟩
  · exact if_pos (hwrong.mpr hw)
  · exact (if_neg (fun h => hw (hwrong.mp h))).trans (if_pos (bne_iff_ne.mpr hu))
  · exact (if_neg (fun h => hw (hwrong.mp h))).trans (if_neg (by simp [hu]))

/-- DIE_FENCE fences the entry of the named ID and UID. -/
theorem exec_dieFence {d : BitVec 6} (hd : leField p 0 1 = d.toNat) (h : Runs s mb i 0x51 [(0, 1, 0x3F), (8, 8, 0xFF)] p) :
    let wrong := s.member.id = some d ∨ 60 ≤ d.toNat
    let found := (s.die d.toNat).uid = BitVec.ofNat 64 (leField p 8 8)
    (wrong → exec (.dieFence mb i) s = .next (responded s mb.val i 0x0101 [])) ∧
    (¬ wrong → ¬ found → exec (.dieFence mb i) s = .next (responded s mb.val i 0x0204 [])) ∧
    (¬ wrong → found → ∃ t, exec (.dieFence mb i) s = .next (responded t mb.val i 0 []) ∧
      (t.die d.toNat).fenced = true ∧ (t.die d.toNat).st = .absent) := by
  intro wrong found
  obtain ⟨hwrong, hother, hnamed⟩ := named_eq (s := s) hd
  rw [show exec (.dieFence mb i) s = execDieFence mb i s from rfl, execDieFence, live_runCmd_of_Runs h]
  refine ⟨fun hw => ?_, fun hw hf => ?_, fun hw hf => ?_⟩
  · rw [hwrong hw]
    rfl
  · rw [hother hw hf]
    rfl
  · rw [hnamed hw hf]
    refine ⟨_, rfl, fenceEntry_die fun hid => hw (.inl ?_)⟩
    rwa [sendFence_onlyTx] at hid

/-- DIE_REINSTATE frees the fenced entry of the named ID and UID. -/
theorem exec_dieReinstate {d : BitVec 6} (hd : leField p 0 1 = d.toNat) (h : Runs s mb i 0x52 [(0, 1, 0x3F), (8, 8, 0xFF)] p) :
    let wrong := s.member.id = some d ∨ 60 ≤ d.toNat
    let found := (s.die d.toNat).uid = BitVec.ofNat 64 (leField p 8 8)
    (wrong → exec (.dieReinstate mb i) s = .next (responded s mb.val i 0x0101 [])) ∧
    (¬ wrong → ¬ found → exec (.dieReinstate mb i) s = .next (responded s mb.val i 0x0204 [])) ∧
    (¬ wrong → found → (s.die d.toNat).fenced = false → exec (.dieReinstate mb i) s = .next (responded s mb.val i 0x0206 [])) ∧
    (¬ wrong → found → (s.die d.toNat).fenced = true → ∃ t, exec (.dieReinstate mb i) s = .next (responded t mb.val i 0 []) ∧
      (t.die d.toNat).fenced = false) := by
  intro wrong found
  obtain ⟨hwrong, hother, hnamed⟩ := named_eq (s := s) hd
  rw [show exec (.dieReinstate mb i) s = execDieReinstate mb i s from rfl, execDieReinstate, live_runCmd_of_Runs h]
  refine ⟨fun hw => ?_, fun hw hf => ?_, fun hw hf hfree => ?_, fun hw hf hfenced => ?_⟩
  · rw [hwrong hw]
    rfl
  · rw [hother hw hf]
    rfl
  · rw [hnamed hw hf]
    dsimp only
    rw [hfree]
    rfl
  · rw [hnamed hw hf]
    dsimp only
    rw [hfenced]
    exact ⟨_, rfl, (reinstateEntry_die _ _).1⟩

/-! ### Debug access (R336) -/

/-- DEBUG_CHALLENGE opens a challenge with a free NONCE, unless debug commands are locked. -/
theorem exec_debugChallenge (h : Runs s mb i 0xA0 [] p) :
    (s.dbg.locked = true → exec (.debugChallenge mb i) s = .next (responded s mb.val i 0x0402 [])) ∧
    (s.dbg.locked = false → exec (.debugChallenge mb i) s = .next (responded
      { s with free := s.free + 1, dbg := { s.dbg with nonce := Config.freeNonce s.free, seq := s.dbg.seq + 1, challenge := true, issuedAt := s.now } }
      mb.val i 0 (leBytes 8 Config.uid.toNat ++ leBytes 32 (Config.freeNonce s.free).toNat ++ leBytes 4 (s.dbg.seq + 1).toNat))) := by
  rw [show exec (.debugChallenge mb i) s = execDebugChallenge mb i s from rfl, execDebugChallenge, live_runCmd_of_Runs h]
  refine ⟨fun hl => ?_, fun hl => ?_⟩
  · rw [hl]
    rfl
  · rw [hl]
    rfl

/-- DEBUG_UNLOCK: a verified request of level 1 or 2 opens debug access, any other counts a failure, and the third locks. -/
theorem exec_debugUnlock (h : Runs s mb i 0xA1 [(0, 5, 0xFF), (6, 98, 0xFF)] p) :
    let lv := leField p 4 1
    let form := lv ≤ 2 ∧ (lv = 0 → leField p 8 96 = 0)
    let opened := s.dbg.challenge = true ∧ s.dbg.seq.toNat = leField p 0 4 ∧ s.now < s.dbg.issuedAt + 1250000000
    let gives := fun (t : State) (st : BitVec 16) (b : List Byte) => exec (.debugUnlock mb i) s = .next (responded t mb.val i st b)
    (¬ form → gives s 0x0101 []) ∧
    (form → s.dbg.locked = true → gives s 0x0402 []) ∧
    (form → s.dbg.locked = false → ¬ opened → gives s 0x0206 []) ∧
    (form → s.dbg.locked = false → opened → 1 ≤ lv → s.unlockOk p = true → gives
      { s with dbg := { s.dbg with level := BitVec.ofNat 2 lv, mask := BitVec.ofNat 16 (leField p 6 2), challenge := false, fails := 0 } } 0 [BitVec.ofNat 8 lv]) ∧
    (form → s.dbg.locked = false → opened → 1 ≤ lv → s.unlockOk p = false → gives
      { s with dbg := { s.dbg with fails := s.dbg.fails + 1, locked := s.dbg.fails + 1 == 3 } } 0x0401 []) := by
  intro lv form opened gives
  simp only [gives]
  have hform : ¬ (decide (2 < leField p 4 1) || decide (leField p 4 1 = 0) && leField p 8 96 != 0) = true ↔ form := by
    simp only [form, lv, Bool.or_eq_true, decide_eq_true_eq, Bool.and_eq_true, bne_iff_ne, not_or, not_and, not_not, not_lt]
  have hopened : s.challengeOpen (leField p 0 4) = true ↔ opened := by
    simp only [State.challengeOpen, opened, Bool.and_eq_true, beq_iff_eq, decide_eq_true_eq, and_assoc]
    exact Iff.rfl
  rw [show exec (.debugUnlock mb i) s = execDebugUnlock mb i s from rfl, execDebugUnlock, live_runCmd_of_Runs h]
  dsimp only
  refine ⟨fun hf => ?_, fun hf hl => ?_, fun hf hl ho => ?_, fun hf hl ho h1 hu => ?_, fun hf hl ho h1 hu => ?_⟩
  · rw [if_pos (not_not.mp fun hn => hf (hform.mp hn))]
    rfl
  · rw [if_neg (hform.mpr hf), hl]
    rfl
  · have hclosed : s.challengeOpen (leField p 0 4) = false := Bool.eq_false_iff.mpr fun hc => ho (hopened.mp hc)
    rw [if_neg (hform.mpr hf), hl, hclosed]
    rfl
  · have hlevel : leField p 4 1 ≠ 0 := Nat.one_le_iff_ne_zero.mp h1
    rw [if_neg (hform.mpr hf), hl, hopened.mpr ho, hu]
    simp only [Bool.false_eq_true, if_false, Bool.not_true, Bool.or_true, if_true, if_neg hlevel]
    rfl
  · have hlevel : leField p 4 1 ≠ 0 := Nat.one_le_iff_ne_zero.mp h1
    rw [if_neg (hform.mpr hf), hl, hopened.mpr ho, hu]
    simp only [Bool.false_eq_true, if_false, Bool.not_true, decide_eq_false hlevel, Bool.or_false]
    rfl

end

/-- An open challenge expires 1 s after its issue, and not before (R336, R402). -/
theorem exec_debugChallengeExpiry {s : State} (h : Clocked s) :
    (s.dbg.challenge = true → s.dbg.issuedAt + 1250000000 ≤ s.now →
      exec .debugChallengeExpiry s = .next { s with dbg := { s.dbg with challenge := false } }) ∧
    ((s.dbg.challenge = false ∨ s.now < s.dbg.issuedAt + 1250000000) → exec .debugChallengeExpiry s = .next s) := by
  rw [show exec .debugChallengeExpiry s = execDebugChallengeExpiry s from rfl, execDebugChallengeExpiry, live_of_Clocked h]
  refine ⟨fun hc hnow => ?_, fun hc => ?_⟩
  · rw [if_pos (by rw [hc, Bool.true_and, decide_eq_true_eq]; exact hnow)]
  · rw [if_neg]
    rw [Bool.and_eq_true, decide_eq_true_eq]
    rintro ⟨hopen, hnow⟩
    obtain hc | hc := hc
    · simp [hc] at hopen
    · exact absurd hc (Nat.not_lt.mpr hnow)

end Sys2Proof.Machine
end


section
/-!
SUPPORT. QOS_SET (R296, R298, R301).
-/
namespace Sys2Proof.Machine

open Sys2Proof.Stated

/-! ### Fields and INSTANCEs -/

/-- A byte of a payload that fits is at most the mask of its assigned bits. -/
theorem leField_le_mask {l : Layout} {p : List Byte} (h : l.fits p = true) {k : Nat} (hk : k < l.stop) : leField p k 1 ≤ (l.mask k).toNat := by
  obtain ⟨b, hb, hmask⟩ := byte_of_fits h hk
  have hand : b = b &&& l.mask k := by
    ext j hj
    have hbit := congrArg (fun x => x[j]) hmask
    simp only [BitVec.getElem_and, BitVec.getElem_not] at hbit
    rw [BitVec.getElem_and]
    cases hbj : b[j]
    · rfl
    · simpa [hbj] using hbit
  rw [hb, hand, BitVec.toNat_and]
  exact Nat.and_le_right

/-- The INSTANCEs that QOS_SET names in a bucket that each core has. -/
theorem mem_qosInstances_own {p : Partn} {bucket : Nat} (hown : bucket = 1 ∨ bucket = 6) (inst : Nat) (all : Bool) {k : Nat} (hk : k < 48) :
    k ∈ qosInstances p bucket inst all ↔ bit p.cores k = true ∧ (all = true ∨ k = inst) := by
  have hbucket : (decide (bucket = 1) || decide (bucket = 6)) = true := by simpa using hown
  rw [qosInstances, if_pos hbucket]
  cases all
  · by_cases hb : bit p.cores inst = true
    · simp only [Bool.false_eq_true, if_false, hb, if_true, List.mem_singleton, false_or]
      exact ⟨fun he => ⟨he ▸ hb, he⟩, fun he => he.2⟩
    · simp only [Bool.false_eq_true, if_false, if_neg hb, List.not_mem_nil, false_or, false_iff, not_and]
      exact fun hbk he => hb (he ▸ hbk)
  · rw [if_pos rfl, mem_bitsSet]
    simp [hk]

theorem qosInstances_colour {p : Partn} {bucket : Nat} (hown : ¬ (bucket = 1 ∨ bucket = 6)) (inst : Nat) (all : Bool) :
    qosInstances p bucket inst all = [0] := by
  have hbucket : ¬ (decide (bucket = 1) || decide (bucket = 6)) = true := by simpa using hown
  exact if_neg hbucket

/-! ### Entries that wait for the refill (R298) -/

/-- The partition with an entry of one INSTANCE that waits for the refill. -/
def entryQueued (e : Word) (bucket : Nat) (p : Partn) (k : Nat) : Partn :=
  { p with buckets := Table.set {} p.buckets (bucketKey bucket k) { Table.get {} p.buckets (bucketKey bucket k) with nextEntry := some e } }

/-- The buckets of the named INSTANCEs have the entry waiting, and nothing else of a bucket changes. -/
theorem foldl_entryQueued (e : Word) (bucket : Nat) (l : List Nat) (p : Partn) (x : Nat) :
    Table.get {} (l.foldl (entryQueued e bucket) p).buckets x =
      if x ∈ l.map (bucketKey bucket) then { Table.get {} p.buckets x with nextEntry := some e } else Table.get {} p.buckets x := by
  induction l generalizing p with
  | nil => rfl
  | cons k l ih =>
    rw [List.foldl_cons, ih, entryQueued, Table.get_set, List.map_cons]
    by_cases hx : x = bucketKey bucket k
    · subst hx
      simp
    · simp [hx]

/-- The next refill is armed by a booking of firmware. -/
theorem armRefill_onlyBookings (s : State) : OnlyBookings s (armRefill s) := by
  unfold armRefill
  split
  · split
    · rfl
    · exact writeDieBooking_onlyBookings ..
  · rfl

theorem bucketKey_inj {bucket k k' : Nat} : bucketKey bucket k = bucketKey bucket k' ↔ k = k' := by
  unfold bucketKey
  omega

/-! ### The command -/

section
variable {s : State} {mb : Fin 16} {i : BitVec 16} {p : List Byte}

/-- With COLOUR 0 QOS_SET sets the weights W1 to W3, each 1 to 15 (R301). -/
theorem exec_qosSet_weights (hcol : leField p 0 1 = 0) (h : Runs s mb i 0x70 [(0, 1, 0x0F), (1, 1, 0x07), (2, 1, 0x7F), (8, 3, 0xFF)] p) :
    let w := [leField p 8 1, leField p 9 1, leField p 10 1]
    ((∃ x ∈ w, x = 0 ∨ 15 < x) → exec (.qosSet mb i) s = .next (responded s mb.val i 0x0101 [])) ∧
    ((∀ x ∈ w, 1 ≤ x ∧ x ≤ 15) →
      exec (.qosSet mb i) s = .next (responded { s with skovi := { s.skovi with weights := w.map (BitVec.ofNat 4) } } mb.val i 0 [])) := by
  intro w
  have hweights : (List.range 3).map (fun k => leField p (8 + k) 1) = w := rfl
  rw [show exec (.qosSet mb i) s = execQosSet mb i s from rfl, execQosSet, live_of_Clocked h.1.1, runCmd_of_Runs h (by simp [hcol])]
  dsimp only
  rw [if_pos hcol, hweights]
  refine ⟨fun ⟨x, hx, hbad⟩ => ?_, fun hgood => ?_⟩
  · rw [if_neg]
    · rfl
    · intro hall
      have hxw := List.all_eq_true.mp hall x hx
      simp only [Bool.and_eq_true, decide_eq_true_eq] at hxw
      omega
  · rw [if_pos (List.all_eq_true.mpr fun x hx => by simpa using hgood x hx)]
    rfl

/-- Whether QOS_SET refuses an entry (R296). -/
theorem qosBad_iff (e : Word) : qosBad e = true ↔
    bit e 31 = true ∨ field e 60 4 ≠ 0 ∨ (bit e 30 = false ∧ (field e 0 28 = 0 ∨ (field e 32 28).toNat < (field e 0 28).toNat)) := by
  simp only [qosBad, Bool.or_eq_true, bne_iff_ne, Bool.and_eq_true, Bool.not_eq_true', beq_iff_eq, decide_eq_true_eq, or_assoc]
  exact Iff.rfl

/-- What QOS_SET refuses of an entry (R296): bucket 7, an entry out of form, or an INSTANCE that is no core. -/
def QosRefused (p : List Byte) : Prop :=
  leField p 1 1 = 7 ∨ qosBad (BitVec.ofNat 64 (leField p 8 8)) = true ∨
    ((leField p 1 1 = 1 ∨ leField p 1 1 = 6) ∧ 48 ≤ leField p 2 1 ∧ leField p 2 1 < 64)

theorem not_qosRefused (hbucket : leField p 1 1 < 7) (hentry : ¬ qosBad (BitVec.ofNat 64 (leField p 8 8)) = true)
    (hinst : (leField p 1 1 = 1 ∨ leField p 1 1 = 6) → leField p 2 1 < 48 ∨ 64 ≤ leField p 2 1) : ¬ QosRefused p := by
  rintro (hr | hr | ⟨hown, hlow, hhigh⟩)
  · exact absurd hr (Nat.ne_of_lt hbucket)
  · exact hentry hr
  · exact (hinst hown).elim (fun hlt => absurd hlow (Nat.not_le.mpr hlt)) fun hge => absurd hhigh (Nat.not_lt.mpr hge)

/-- The partition with the entry of a QOS_SET waiting in each INSTANCE that it names. -/
def qosQueued (p : List Byte) (x : Partn) : Partn :=
  (qosInstances x (leField p 1 1) (leField p 2 1 % 64) (leField p 2 1 / 64 == 1)).foldl
    (entryQueued (BitVec.ofNat 64 (leField p 8 8)) (leField p 1 1)) x

/-- ALL is bit 6 of INSTANCE. -/
theorem qosAll_iff (h : Runs s mb i 0x70 [(0, 1, 0x0F), (1, 1, 0x07), (2, 1, 0x7F), (8, 8, 0xFF)] p) :
    (leField p 2 1 / 64 == 1) = true ↔ 64 ≤ leField p 2 1 := by
  have hinst : leField p 2 1 < 128 := Nat.lt_succ_of_le (leField_le_mask h.2.1 (k := 2) (by decide))
  rw [beq_iff_eq]
  generalize leField p 2 1 = n at *
  omega

/-- With another COLOUR QOS_SET refuses an entry, or an absent partition, or sets an entry that waits for the refill (R296, R298). -/
theorem exec_qosSet_entry (hcol : leField p 0 1 ≠ 0) (h : Runs s mb i 0x70 [(0, 1, 0x0F), (1, 1, 0x07), (2, 1, 0x7F), (8, 8, 0xFF)] p) :
    (QosRefused p → exec (.qosSet mb i) s = .next (responded s mb.val i 0x0101 [])) ∧
    (¬ QosRefused p → (s.part (leField p 0 1)).present = false → exec (.qosSet mb i) s = .next (responded s mb.val i 0x0204 [])) ∧
    (¬ QosRefused p → (s.part (leField p 0 1)).present = true →
      exec (.qosSet mb i) s = .next (responded (armRefill (s.modPart (leField p 0 1) (qosQueued p))) mb.val i 0 [])) := by
  have hcol16 : leField p 0 1 < 16 := colour_lt_of_fits h.2.1 (by decide)
  have hrefused : (decide (leField p 1 1 = 7) || qosBad (BitVec.ofNat 64 (leField p 8 8)) ||
      (decide (leField p 1 1 = 1) || decide (leField p 1 1 = 6)) && !(leField p 2 1 / 64 == 1) && decide (48 ≤ leField p 2 1 % 64)) = true ↔ QosRefused p := by
    have hrange : (¬ 64 ≤ leField p 2 1) ∧ 48 ≤ leField p 2 1 % 64 ↔ 48 ≤ leField p 2 1 ∧ leField p 2 1 < 64 := by
      generalize leField p 2 1 = n
      omega
    simp only [Bool.or_eq_true, Bool.and_eq_true, Bool.not_eq_true', ← Bool.not_eq_true, qosAll_iff h, decide_eq_true_eq, and_assoc, hrange,
      or_assoc, QosRefused]
  rw [show exec (.qosSet mb i) s = execQosSet mb i s from rfl, execQosSet, live_of_Clocked h.1.1,
    runCmd_of_Runs h (by simp [Nat.mod_eq_of_lt hcol16, hcol])]
  dsimp only
  rw [if_neg hcol]
  refine ⟨fun hr => ?_, fun hr habsent => ?_, fun hr hpresent => ?_⟩
  · rw [if_pos (hrefused.mpr hr)]
    rfl
  · rw [if_neg (mt hrefused.mp hr), habsent]
    rfl
  · rw [if_neg (mt hrefused.mp hr), hpresent]
    rfl

/-- The buckets of the colour once an entry waits in each named INSTANCE. -/
theorem bucket_qosQueued (s : State) (c : Nat) (p : List Byte) (x : Nat) :
    (armRefill (s.modPart c (qosQueued p))).bucket c x =
      if x ∈ (qosInstances (s.part c) (leField p 1 1) (leField p 2 1 % 64) (leField p 2 1 / 64 == 1)).map (bucketKey (leField p 1 1)) then
        { s.bucket c x with nextEntry := some (BitVec.ofNat 64 (leField p 8 8)) } else s.bucket c x := by
  have hpart : (armRefill (s.modPart c (qosQueued p))).part c = qosQueued p (s.part c) := by
    rw [armRefill_onlyBookings]
    exact State.part_modPart_same ..
  rw [State.bucket, State.bucket, hpart, qosQueued, foldl_entryQueued]

/-- Whether QOS_SET names INSTANCE k of a bucket that each core has, or the bucket of the colour. -/
theorem qosNamed_iff (h : Runs s mb i 0x70 [(0, 1, 0x0F), (1, 1, 0x07), (2, 1, 0x7F), (8, 8, 0xFF)] p) (x : Partn) {k : Nat} (hk : k < 48) :
    bucketKey (leField p 1 1) (if leField p 1 1 = 1 ∨ leField p 1 1 = 6 then k else 0) ∈
        (qosInstances x (leField p 1 1) (leField p 2 1 % 64) (leField p 2 1 / 64 == 1)).map (bucketKey (leField p 1 1)) ↔
      ((leField p 1 1 = 1 ∨ leField p 1 1 = 6) → bit x.cores k = true ∧ (64 ≤ leField p 2 1 ∨ k = leField p 2 1)) := by
  simp only [List.mem_map, bucketKey_inj, exists_eq_right]
  by_cases hown : leField p 1 1 = 1 ∨ leField p 1 1 = 6
  · rw [if_pos hown, mem_qosInstances_own hown _ _ hk, qosAll_iff h]
    have hone : (64 ≤ leField p 2 1 ∨ k = leField p 2 1 % 64) ↔ (64 ≤ leField p 2 1 ∨ k = leField p 2 1) := by
      generalize leField p 2 1 = n
      omega
    rw [hone]
    exact ⟨fun hb _ => hb, fun hb => hb hown⟩
  · rw [if_neg hown, qosInstances_colour hown]
    simp [hown]

end

end Sys2Proof.Machine
end

section
/-!
SUPPORT. The settlement of AdminCommandsTakeEffect.
-/
namespace Sys2Proof.Machine

open Sys2Proof.Stated

/-- Settles O49: each command by the checks that refuse it and by what it does once it passes them. -/
theorem adminCommandsTakeEffect : Obligations.AdminCommandsTakeEffect := by
  unfold Obligations.AdminCommandsTakeEffect
  intro s mb i p
  refine ⟨exec_fwStage, fwStage_concludes s mb i, exec_fwActivate, exec_warmReset, fun h => ?_, exec_linkReset,
    fun d hd => ⟨exec_dieFence hd, exec_dieReinstate hd⟩, exec_qosSet_weights, fun hcol h => ?_, exec_debugChallenge, exec_debugUnlock,
    fun h => (exec_debugChallengeExpiry h).1, fun h => (exec_debugChallengeExpiry h).2⟩
  · obtain ⟨hperiod, hunfit, hfit⟩ := exec_mastConfig h
    exact ⟨hperiod, hunfit, fun h1 h2 hfits => ⟨_, hfit h1 h2 hfits, schedulePeriod_leaves ..⟩⟩
  · obtain ⟨hrefused, habsent, hset⟩ := exec_qosSet_entry hcol h
    refine ⟨fun hr => hrefused ?_, fun hb hbad hin => habsent (not_qosRefused hb (mt (qosBad_iff _).mp hbad) hin), fun hb hbad hin hpresent =>
      ⟨_, hset (not_qosRefused hb (mt (qosBad_iff _).mp hbad) hin) hpresent, fun k hk => ?_⟩⟩
    · rw [QosRefused, qosBad_iff]
      exact hr
    · have hnamed := qosNamed_iff h (s.part (leField p 0 1)) hk
      dsimp only
      generalize bucketKey (leField p 1 1) (if leField p 1 1 = 1 ∨ leField p 1 1 = 6 then k else 0) = x at hnamed ⊢
      rw [bucket_qosQueued]
      refine ⟨?_, fun hn => ?_, fun hn => ?_⟩
      · split <;> rfl
      · rw [if_pos (hnamed.mpr hn)]
      · rw [if_neg (mt hnamed.mp hn)]

end Sys2Proof.Machine
end


section
/-!
SUPPORT. JOB_LAUNCH that begins, JOB_ABORT, JOB_STATUS and PART_TELEMETRY (R290, R337, R347, R350).
-/
namespace Sys2Proof.Machine

open Sys2Proof.Stated

/-! ### Fields of a report -/

theorem leField_head (n v : Nat) (b : List Byte) : leField (leBytes n v ++ b) 0 n = v % 256 ^ n := by
  have h := leField_mid [] (leBytes n v) b
  rwa [leBytes_length, leNat_leBytes] at h

/-- A field past the first bytes is one of the bytes after them. -/
theorem leField_past {a : List Byte} {lo : Nat} (h : a.length ≤ lo) (b : List Byte) (n : Nat) : leField (a ++ b) lo n = leField b (lo - a.length) n := by
  rw [leField, leField, List.drop_append, List.drop_eq_nil_of_le h, List.nil_append]

/-- The bytes of a number depend on it modulo their range. -/
theorem leBytes_mod (n v : Nat) : leBytes n (v % 256 ^ n) = leBytes n v := by
  induction n generalizing v with
  | zero => rfl
  | succ n ih =>
    rw [leBytes, leBytes, ← ih (v / 256), ← ih (v % 256 ^ (n + 1) / 256)]
    have hbyte : BitVec.ofNat 8 (v % 256 ^ (n + 1)) = BitVec.ofNat 8 v := by
      refine BitVec.eq_of_toNat_eq ?_
      rw [BitVec.toNat_ofNat, BitVec.toNat_ofNat]
      exact Nat.mod_mod_of_dvd v (Dvd.intro_left (256 ^ n) rfl)
    rw [hbyte, Nat.pow_succ, Nat.mul_comm, Nat.mod_mul_right_div_self, Nat.mod_mod]

/-! ### What is asked of other dies (R321, R322) -/

/-- From s to t only messages and what firmware asks of other dies change. -/
def OnlyAsks (s t : State) : Prop := t = { s with tx := t.tx, skovi := { s.skovi with seqno := t.skovi.seqno, peers := t.skovi.peers } }

theorem OnlyAsks.trans {s t u : State} (h : OnlyAsks s t) (h' : OnlyAsks t u) : OnlyAsks s u := by
  unfold OnlyAsks at *
  rw [h', h]

/-- The requests of one kind to a list of dies. -/
def askAll (who : Option (Nat × BitVec 16)) (mtype : Byte) (colour : BitVec 4) (job : BitVec 32) (body : List Byte) (l : List Nat) (s : State) : State :=
  l.foldl (fun s x => fwAsk s who (BitVec.ofNat 6 x) mtype colour job body) s

section
variable (who : Option (Nat × BitVec 16)) (mtype : Byte) (colour : BitVec 4) (job : BitVec 32) (body : List Byte)

theorem askAll_onlyAsks (l : List Nat) (s : State) : OnlyAsks s (askAll who mtype colour job body l s) := by
  have hask : ∀ u x, OnlyAsks u (fwAsk u who (BitVec.ofNat 6 x) mtype colour job body) := fun _ _ => rfl
  exact List.foldlRecOn (motive := OnlyAsks s) l _ rfl fun u hu x _ => hu.trans (hask u x)

/-- A message leaves for each die of the list, in order, each with the next SEQNO. -/
theorem askAll_tx (l : List Nat) (s : State) : let t := askAll who mtype colour job body l s
    s.tx <+: t.tx ∧ t.tx.length = s.tx.length + l.length ∧
    ∀ k, k < l.length → ∃ m, t.tx[s.tx.length + k]? = some { msg := m, port := none } ∧ m.dst = BitVec.ofNat 6 (l.getD k 0) ∧ m.op = 6 ∧
      m.data = [mtype, colour.setWidth 8] ++ leBytes 2 (s.skovi.seqno + BitVec.ofNat 16 k).toNat ++ leBytes 4 job.toNat ++ body := by
  induction l generalizing s with
  | nil => exact ⟨List.prefix_rfl, rfl, fun k hk => absurd hk (Nat.not_lt_zero k)⟩
  | cons x l ih =>
    obtain ⟨hprefix, hlength, hmsgs⟩ := ih (fwAsk s who (BitVec.ofNat 6 x) mtype colour job body)
    have hfirst : ∃ m, (fwAsk s who (BitVec.ofNat 6 x) mtype colour job body).tx = s.tx ++ [{ msg := m, port := none }] ∧
        m.dst = BitVec.ofNat 6 x ∧ m.op = 6 ∧ m.data = [mtype, colour.setWidth 8] ++ leBytes 2 s.skovi.seqno.toNat ++ leBytes 4 job.toNat ++ body :=
      ⟨_, rfl, rfl, rfl, rfl⟩
    have hseqno : (fwAsk s who (BitVec.ofNat 6 x) mtype colour job body).skovi.seqno = s.skovi.seqno + 1 := rfl
    rw [show askAll who mtype colour job body (x :: l) s = askAll who mtype colour job body l (fwAsk s who (BitVec.ofNat 6 x) mtype colour job body) from rfl]
    generalize fwAsk s who (BitVec.ofNat 6 x) mtype colour job body = u at hprefix hlength hmsgs hfirst hseqno ⊢
    obtain ⟨m, hm, hdst, hop, hdata⟩ := hfirst
    have hlen : u.tx.length = s.tx.length + 1 := by rw [hm, List.length_append, List.length_singleton]
    refine ⟨List.IsPrefix.trans (by rw [hm]; exact List.prefix_append ..) hprefix, by rw [hlength, hlen, List.length_cons]; omega, fun k hk => ?_⟩
    cases k with
    | zero =>
      refine ⟨m, ?_, hdst, hop, by rw [hdata, BitVec.add_zero]⟩
      obtain ⟨more, hmore⟩ := hprefix
      rw [← hmore, hm]
      simp
    | succ k =>
      obtain ⟨n, hn, hndst, hnop, hndata⟩ := hmsgs k (Nat.lt_of_succ_lt_succ hk)
      refine ⟨n, ?_, hndst, hnop, ?_⟩
      · rw [← hn, hlen]
        congr 1
        omega
      · rw [hndata, hseqno, BitVec.add_assoc, show (1 : BitVec 16) + BitVec.ofNat 16 k = BitVec.ofNat 16 (k + 1) by
          rw [Nat.add_comm, BitVec.ofNat_add]
          rfl]

end

/-! ### JOB_LAUNCH begins (R347) -/

theorem jobLaunch_waits (mb : Fin 16) (i : BitVec 16) (tests : List ArrayReport) :
    Waits (.jobLaunch mb i .overPorts tests) mb i 0x120 [(0, 36, 0xFF), (40, 8, 0xFF)] (fun s => beginLaunch s mb.val i) (endLaunch mb.val tests) :=
  fun _ => rfl

/-- The command at an index at work in phase 1, for which some dies are asked. -/
def asking (s : State) (mb : Nat) (i : BitVec 16) (l : List (BitVec 6)) : State :=
  modCmd (toPhase s mb i 1) mb i (fun c => { c with awaited := l })

/-- A command so put to work. -/
def Cmd.asking (l : List (BitVec 6)) (c : Cmd) : Cmd := { c with running := true, phase := 1, awaited := l, replies := [] }

theorem asking_accepted (s : State) (mb : Nat) (i : BitVec 16) (l : List (BitVec 6)) :
    ((asking s mb i l).mailbox mb).accepted = (s.mailbox mb).accepted.map (atIndex i (Cmd.asking l)) :=
  modCmd_toPhase_accepted s mb i 1 fun c => { c with awaited := l }

theorem Cmd.asking_putsToWork (l : List (BitVec 6)) : PutsToWork (Cmd.asking l) :=
  ⟨fun _ => rfl, fun _ => rfl, fun _ => rfl, fun _ => Nat.one_ne_zero, fun _ => rfl⟩

/-- A command that awaits dies, none of which has answered, is not ready. -/
theorem cmdReady_of_asking (s : State) (mb : Nat) {l : List (BitVec 6)} (hl : l ≠ []) (c : Cmd) : s.cmdReady mb (c.asking l) = false := by
  obtain ⟨x, l, rfl⟩ := List.exists_cons_of_ne_nil hl
  rw [State.cmdReady, Cmd.asking, List.all_cons, List.any_nil, Bool.false_and, Bool.and_false]

/-- The dies of DIE_SET that JOB_LAUNCH asks: all but the own one. -/
def State.launchAsked (s : State) (p : List Byte) : List Nat :=
  (bitsSet (BitVec.ofNat 64 (leField p 40 8) : Word)).filter (fun e => e != s.ownId.toNat)

section
variable {s : State} {mb : Nat} {i : BitVec 16} {p : List Byte}

theorem beginLaunch_unknown (h : (s.part mb).image (BitVec.ofNat 256 (leField p 0 32)) = none) : beginLaunch s mb i p = answer s mb i 0x0204 [] := by
  rw [beginLaunch, launchFields]
  dsimp only
  rw [h]
  rfl

variable {g : Image} (h : (s.part mb).image (BitVec.ofNat 256 (leField p 0 32)) = some g)
include h

theorem beginLaunch_refused (hst : launchFirst s mb g (BitVec.ofNat 64 (leField p 40 8)) ≠ 0) :
    beginLaunch s mb i p = answer s mb i (launchFirst s mb g (BitVec.ofNat 64 (leField p 40 8))) [] := by
  rw [beginLaunch, launchFields]
  dsimp only
  rw [h]
  exact if_pos (bne_iff_ne.mpr hst)

theorem beginLaunch_asks (hst : launchFirst s mb g (BitVec.ofNat 64 (leField p 40 8)) = 0) :
    beginLaunch s mb i p = askAll (some (mb, i)) 0x34 (BitVec.ofNat 4 mb) (BitVec.ofNat 32 (leField p 32 4))
      (leBytes 32 (BitVec.ofNat 256 (leField p 0 32)).toNat ++ leBytes 8 (BitVec.ofNat 64 (leField p 40 8)).toNat) (s.launchAsked p)
      (asking s mb i ((s.launchAsked p).map (BitVec.ofNat 6))) := by
  rw [beginLaunch, launchFields]
  dsimp only
  rw [h]
  exact if_neg (by rw [hst]; decide)

end

/-- Checks 1 to 4 of JOB_LAUNCH, in order (R347). -/
theorem launchFirst_eq (s : State) (col : Nat) (g : Image) (dies : Word) :
    (g.st ≠ .committed → launchFirst s col g dies = 0x0206) ∧
    (g.st = .committed → (s.part col).job.live = true → launchFirst s col g dies = 0x0205) ∧
    (g.st = .committed → (s.part col).job.live = false → (bit dies s.ownId.toNat = false ∨ field dies 60 4 ≠ 0) → launchFirst s col g dies = 0x0101) ∧
    (g.st = .committed → (s.part col).job.live = false → bit dies s.ownId.toNat = true → field dies 60 4 = 0 →
      launchFirst s col g dies = if s.diesOk dies then 0 else 0x0301) := by
  refine ⟨fun hg => ?_, fun hg hl => ?_, fun hg hl hd => ?_, fun hg hl hb hf => ?_⟩
  · exact if_pos (bne_iff_ne.mpr hg)
  · rw [launchFirst, hg, hl]
    rfl
  · rw [launchFirst, hg, hl, if_neg (by decide), if_neg (by decide)]
    exact if_pos (by simpa using hd)
  · rw [launchFirst, hg, hl, if_neg (by decide), if_neg (by decide), if_neg (by simp [hb, hf])]
    rfl

theorem setMailbox_twice (s : State) (mb : Nat) {x : Mailbox} (h : x ≠ {}) : (s.setMailbox mb x).setMailbox mb x = s.setMailbox mb x := by
  rw [State.setMailbox, State.setMailbox]
  dsimp only
  rw [Table.set_set_of_ne _ _ _ _ _ h h]

/-- A command that asks no die is put to work as any other. -/
theorem asking_nil {s : State} {mb : Nat} {i : BitVec 16} {c : Cmd} (h : s.waitingCmd mb i = some c) : asking s mb i [] = toPhase s mb i 1 := by
  have hacc := (asking_accepted s mb i []).trans (modCmd_accepted s mb i _).symm
  have hsame : (asking s mb i []).mailbox mb = (toPhase s mb i 1).mailbox mb := by
    rw [asking, modCmd, State.mailbox_modMailbox_same] at hacc ⊢
    exact congrArg (fun l => { (toPhase s mb i 1).mailbox mb with accepted := l }) hacc
  have hne : (toPhase s mb i 1).mailbox mb ≠ {} := fun he => by
    have hmem := List.mem_map_of_mem (f := atIndex i (Cmd.asking [])) (List.mem_of_find?_eq_some h)
    rw [← asking_accepted, hsame, he] at hmem
    exact List.not_mem_nil hmem
  have hset : asking s mb i [] = (toPhase s mb i 1).setMailbox mb ((asking s mb i []).mailbox mb) := by
    rw [asking, modCmd, State.mailbox_modMailbox_same]
    rfl
  rw [hset, hsame]
  rw [toPhase, modCmd, State.modMailbox, State.mailbox_setMailbox_same] at hne ⊢
  exact setMailbox_twice s mb hne

section
variable {s : State} {mb : Fin 16} {i : BitVec 16} {p : List Byte} (h : Begins s mb i 0x120 [(0, 36, 0xFF), (40, 8, 0xFF)] p)
  (tests : List ArrayReport) {g : Image} (hg : (s.part mb.val).image (BitVec.ofNat 256 (leField p 0 32)) = some g)
  (hst : launchFirst s mb.val g (BitVec.ofNat 64 (leField p 40 8)) = 0)
include h hg hst

/-- The command at work once JOB_LAUNCH has begun. -/
theorem jobLaunch_atWork : ∃ y : Cmd, (serve (beginLaunch s mb.val i p) mb.val).atWork mb.val i 0x120 =
    some (y.asking ((s.launchAsked p).map (BitVec.ofNat 6))) := by
  have hmailboxes : (serve (beginLaunch s mb.val i p) mb.val).mailboxes = (asking s mb.val i ((s.launchAsked p).map (BitVec.ofNat 6))).mailboxes := by
    rw [serve_mailboxes, beginLaunch_asks hg hst, askAll_onlyAsks]
  obtain ⟨⟨-, -, -, c, hc, hop, -⟩, -⟩ := h
  obtain ⟨y, hy, -⟩ := atWork_of_putsToWork (Cmd.asking_putsToWork _) (asking_accepted s mb.val i _) hc hop
  exact ⟨y, by rw [atWork_congr hmailboxes, hy]⟩

/-- JOB_LAUNCH sends a LAUNCH_CHECK to each other die of DIE_SET, and waits (R321, R347). -/
theorem exec_jobLaunch_asks (hfar : s.launchAsked p ≠ []) :
    ∃ t c, exec (.jobLaunch mb i .overPorts tests) s = .next t ∧ t.atWork mb.val i 0x120 = some c ∧ c.awaited = (s.launchAsked p).map (BitVec.ofNat 6) ∧
      c.replies = [] ∧ t.cores = s.cores ∧ t.parts = s.parts ∧ t.tx.length = s.tx.length + (s.launchAsked p).length ∧
      ∀ k : Nat, k < (s.launchAsked p).length → ∃ m, t.tx[s.tx.length + k]? = some { msg := m, port := none } ∧
        m.dst = BitVec.ofNat 6 ((s.launchAsked p).getD k 0) ∧ m.op = 6 ∧
        m.data = [0x34, BitVec.ofNat 8 mb.val] ++ leBytes 2 (s.skovi.seqno.toNat + k) ++ leBytes 4 (leField p 32 4) ++ leBytes 32 (leField p 0 32) ++
          leBytes 8 (leField p 40 8) := by
  obtain ⟨y, hy⟩ := jobLaunch_atWork h hg hst
  have hready := cmdReady_of_asking (serve (beginLaunch s mb.val i p) mb.val) mb.val (l := (s.launchAsked p).map (BitVec.ofNat 6))
    (fun he => hfar (List.map_eq_nil_iff.mp he)) y
  have hasks := askAll_onlyAsks (some (mb.val, i)) 0x34 (BitVec.ofNat 4 mb.val) (BitVec.ofNat 32 (leField p 32 4))
    (leBytes 32 (BitVec.ofNat 256 (leField p 0 32)).toNat ++ leBytes 8 (BitVec.ofNat 64 (leField p 40 8)).toNat) (s.launchAsked p)
    (asking s mb.val i ((s.launchAsked p).map (BitVec.ofNat 6)))
  have hmsgs := (askAll_tx (some (mb.val, i)) 0x34 (BitVec.ofNat 4 mb.val) (BitVec.ofNat 32 (leField p 32 4))
    (leBytes 32 (BitVec.ofNat 256 (leField p 0 32)).toNat ++ leBytes 8 (BitVec.ofNat 64 (leField p 40 8)).toNat) (s.launchAsked p)
    (asking s mb.val i ((s.launchAsked p).map (BitVec.ofNat 6)))).2
  rw [← beginLaunch_asks hg hst] at hasks hmsgs
  obtain ⟨hlength, hmsgs⟩ := hmsgs
  have hasking : ∀ l, asking s mb.val i l = { s with mailboxes := (asking s mb.val i l).mailboxes } := fun _ => rfl
  obtain ⟨honly, -⟩ := serve_onlyCommands (beginLaunch s mb.val i p) mb.val
  have hcores : (beginLaunch s mb.val i p).cores = s.cores := by rw [hasks, hasking]
  have hparts : (beginLaunch s mb.val i p).parts = s.parts := by rw [hasks, hasking]
  have hserved : (serve (beginLaunch s mb.val i p) mb.val).parts = (beginLaunch s mb.val i p).parts := by
    unfold serve
    split <;> rfl
  refine ⟨_, _, (jobLaunch_waits mb i tests).exec_begun h.1 h.2.1 hy hready, hy, rfl, rfl, by rw [honly, hcores], by rw [hserved, hparts],
    by rw [serve_tx, hlength]; rfl, fun k hk => ?_⟩
  obtain ⟨m, hm, hdst, hop, hdata⟩ := hmsgs k hk
  refine ⟨m, by rw [serve_tx]; exact hm, hdst, hop, hdata.trans ?_⟩
  have hcolour : (BitVec.ofNat 4 mb.val).setWidth 8 = BitVec.ofNat 8 mb.val := by
    refine BitVec.eq_of_toNat_eq ?_
    simp only [BitVec.toNat_setWidth, BitVec.toNat_ofNat]
    omega
  have hseqno : leBytes 2 ((asking s mb.val i ((s.launchAsked p).map (BitVec.ofNat 6))).skovi.seqno + BitVec.ofNat 16 k).toNat =
      leBytes 2 (s.skovi.seqno.toNat + k) := by
    have hskovi : (asking s mb.val i ((s.launchAsked p).map (BitVec.ofNat 6))).skovi = s.skovi := rfl
    rw [hskovi, BitVec.toNat_add, BitVec.toNat_ofNat, Nat.add_mod_mod]
    exact leBytes_mod 2 _
  have hjob : leField p 32 4 % 2 ^ 32 = leField p 32 4 := Nat.mod_eq_of_lt (leField_lt p 32 4)
  have hdigest : leField p 0 32 % 2 ^ 256 = leField p 0 32 := Nat.mod_eq_of_lt (leField_lt p 0 32)
  have hdies : leField p 40 8 % 2 ^ 64 = leField p 40 8 := Nat.mod_eq_of_lt (leField_lt p 40 8)
  rw [hcolour, hseqno, BitVec.toNat_ofNat, BitVec.toNat_ofNat, BitVec.toNat_ofNat, hjob, hdigest, hdies]
  exact (List.append_assoc ..).symm

/-- JOB_LAUNCH of a job on this die alone goes on at once. -/
theorem exec_jobLaunch_alone (hfar : s.launchAsked p = []) :
    exec (.jobLaunch mb i .overPorts tests) s = exec (.jobLaunch mb i .overPorts tests) (serve (toPhase s mb.val i 1) mb.val) := by
  obtain ⟨y, hy⟩ := jobLaunch_atWork h hg hst
  obtain ⟨hruns, hidle, hnone⟩ := h
  obtain ⟨c, hc, -⟩ := hruns.2.2.2
  have hstart : beginLaunch s mb.val i p = toPhase s mb.val i 1 := by
    rw [beginLaunch_asks hg hst, hfar, List.map_nil, asking_nil hc]
    rfl
  rw [hstart] at hy
  have hidx : (y.asking ((s.launchAsked p).map (BitVec.ofNat 6))).idx = i := by
    have hfound := List.find?_some hy
    simp only [Bool.and_eq_true, beq_iff_eq] at hfound
    exact hfound.1.1.1.1
  have hready : (serve (toPhase s mb.val i 1) mb.val).cmdReady mb.val (y.asking ((s.launchAsked p).map (BitVec.ofNat 6))) = true := by
    have hnone' : (serve (toPhase s mb.val i 1) mb.val).transfersOf (.cmd mb.val i) = [] := by
      rw [State.transfersOf, serve_transfers]
      exact hnone
    rw [State.cmdReady, hidx, hnone', hfar]
    rfl
  refine (jobLaunch_waits mb i tests).exec_through hruns hidle (by rw [hstart]) hy hready ?_ (by rw [serve_up]; exact hruns.1.2.1)
  obtain ⟨hporst, htest, hhalted⟩ := hruns.1.1
  exact ⟨by rw [serve_boot]; exact hporst, by rw [serve_boot]; exact htest, by rw [serve_halted]; exact hhalted⟩

end

end Sys2Proof.Machine
end


section
/-!
SUPPORT. JOB_ABORT, JOB_STATUS and PART_TELEMETRY (R290, R337, R350).
-/
namespace Sys2Proof.Machine

open Sys2Proof.Stated

section
variable {s : State} {mb : Fin 16} {i : BitVec 16} {p : List Byte}

/-! ### JOB_ABORT -/

/-- What JOB_ABORT begins for the job of a colour. -/
def jobAborted (s : State) (mb : Nat) (i : BitVec 16) : State :=
  (beginReset (waitReset s mb i mb stOk) mb 3).modPart mb (fun p => { p with resetReason := 3 })

/-- The reset that JOB_ABORT begins or joins ends its job with reason 3 and answers it. -/
theorem jobAborted_leaves (s : State) (mb : Nat) (i : BitVec 16) : let t := jobAborted s mb i
    (t.part mb).resetting = true ∧ (t.part mb).resetReason = 3 ∧
    (t.part mb).resetBy = (s.part mb).resetBy ++ [(BitVec.ofNat 4 mb, i, 0)] ∧
    ((s.part mb).resetting = false → ∀ c ∈ bitsSet (s.part mb).cores, (t.core c).st = .stopped) := by
  dsimp only
  rw [jobAborted, State.part_modPart_same]
  by_cases hr : (s.part mb).resetting = true
  · obtain ⟨hwait, hpart⟩ := waitReset_leaves s mb i mb stOk
    have hin : ((waitReset s mb i mb stOk).part mb).resetting = true := by rw [hpart]; exact hr
    rw [beginReset, if_pos hin, hpart]
    exact ⟨hr, rfl, rfl, fun hn => absurd hr (by simp [hn])⟩
  · obtain ⟨hresetting, hby, hcores, -⟩ := beginReset_of_waitReset (Bool.eq_false_iff.mpr hr) mb i stOk 3
    exact ⟨hresetting, rfl, hby, fun _ c hc => (stopIssue_kept (hcores c hc)).1⟩

/-- JOB_ABORT of a job that is not live or has another JOB_ID finds none; else it begins the job's reset. -/
theorem exec_jobAbort (h : Runs s mb i 0x121 [(0, 4, 0xFF)] p) : let x := s.part mb.val
    ((x.job.live = false ∨ x.job.id.toNat ≠ leField p 0 4) → exec (.jobAbort mb i) s = .next (responded s mb.val i 0x0204 [])) ∧
    (x.job.live = true → x.job.id.toNat = leField p 0 4 → ∃ t, exec (.jobAbort mb i) s = .next t ∧ (t.part mb.val).resetting = true ∧
      (t.part mb.val).resetReason = 3 ∧ (t.part mb.val).resetBy = x.resetBy ++ [(BitVec.ofNat 4 mb.val, i, 0)] ∧
      (x.resetting = false → ∀ c ∈ bitsSet x.cores, (t.core c).st = .stopped)) := by
  dsimp only
  rw [show exec (.jobAbort mb i) s = execJobAbort mb i s from rfl, execJobAbort, live_runCmd_of_Runs h]
  refine ⟨fun hnone => ?_, fun hlive hid => ⟨serve (jobAborted s mb.val i) mb.val, ?_, ?_⟩⟩
  · rw [if_pos (by simpa using hnone)]
    rfl
  · rw [if_neg (by simp [hlive, hid])]
    rfl
  · obtain ⟨hstate, hparts⟩ := serve_onlyCommands (jobAborted s mb.val i) mb.val
    have hcore : ∀ c, (serve (jobAborted s mb.val i) mb.val).core c = (jobAborted s mb.val i).core c := fun c => by rw [hstate]; rfl
    rw [hparts]
    simp only [hcore]
    exact jobAborted_leaves s mb.val i

/-! ### JOB_STATUS -/

theorem leField_past_leBytes {m lo : Nat} (h : m ≤ lo) (v : Nat) (b : List Byte) (n : Nat) :
    leField (leBytes m v ++ b) lo n = leField b (lo - m) n := by
  rw [leField_past (by rwa [leBytes_length]), leBytes_length]

theorem leField_past_word {lo : Nat} (h : 4 ≤ lo) (w x y z : Byte) (b : List Byte) (n : Nat) :
    leField ([w, x, y, z] ++ b) lo n = leField b (lo - 4) n := leField_past h b n

/-- The 40 bytes of JOB_STATUS, and the fields of the job in them (R350). -/
theorem jobReport_fields (s : State) (col : Nat) : let b := s.jobReport col
    let j := (s.part col).job
    b.length = 40 ∧ leField b 0 4 = j.id.toNat ∧ leField b 5 1 = j.reason.toNat ∧ leField b 8 4 = j.epoch.toNat ∧
    leField b 16 4 = j.replays.toNat ∧ leField b 20 4 = j.restarts.toNat ∧ leField b 32 8 = j.launchStroke.toNat := by
  unfold State.jobReport
  dsimp only
  generalize (s.part col).job = j
  generalize BitVec.toNat (match s.jobCores col with | c :: _ => if j.st == .none then 0 else (s.core c).csr.committed | [] => 0) = n
  simp only [List.append_assoc]
  refine ⟨by simp, ?_, ?_, ?_, ?_, ?_, ?_⟩
  · rw [leField_head]
    exact Nat.mod_eq_of_lt j.id.isLt
  · rw [leField_past_leBytes (by decide)]
    exact Nat.add_zero _
  all_goals simp (disch := decide) only [leField_past_leBytes, leField_past_word, Nat.reduceSub, leField_head]
  · exact Nat.mod_eq_of_lt j.epoch.isLt
  · exact Nat.mod_eq_of_lt j.replays.isLt
  · exact Nat.mod_eq_of_lt j.restarts.isLt
  · rw [← List.append_nil (leBytes 8 _), leField_head]
    exact Nat.mod_eq_of_lt j.launchStroke.isLt

/-- JOB_STATUS of another JOB_ID than the job's finds none; else it reports the job. -/
theorem exec_jobStatus (h : Runs s mb i 0x122 [(0, 4, 0xFF)] p) : let x := s.part mb.val
    (leField p 0 4 ≠ 0 → x.job.id.toNat ≠ leField p 0 4 → exec (.jobStatus mb i) s = .next (responded s mb.val i 0x0204 [])) ∧
    ((leField p 0 4 = 0 ∨ x.job.id.toNat = leField p 0 4) → exec (.jobStatus mb i) s = .next (responded s mb.val i 0 (s.jobReport mb.val))) := by
  dsimp only
  rw [show exec (.jobStatus mb i) s = execJobStatus mb i s from rfl, execJobStatus, live_runCmd_of_Runs h]
  refine ⟨fun hn hid => ?_, fun hid => ?_⟩
  · rw [if_pos (by simp [hn, hid])]
    rfl
  · rw [if_neg (by simpa using fun hn => hid.resolve_left hn)]
    rfl

/-! ### PART_TELEMETRY -/

/-- How PART_TELEMETRY begins. -/
def partTelemetryBegun (mb : Nat) (i : BitVec 16) (s : State) (p : List Byte) : State :=
  let n := leField p 0 1
  match s.bulk p 8 with
  | none => answer s mb i stBadField []
  | some r =>
    if 4 ≤ n then answer s mb i stBadField []
    else
      let data := (s.partValues mb n).flatMap (fun (v : Word) => leBytes 8 v.toNat)
      writeBulk s mb i r data (leBytes 8 data.length ++ leBytes 8 s.mast.stroke.toNat)

theorem partTelemetry_waits (mb : Fin 16) (i : BitVec 16) :
    Waits (.partTelemetry mb i .overPorts) mb i 0x160 ((0, 1, 0xFF) :: bulkBits 8) (partTelemetryBegun mb.val i) (bulkWritten mb.val id) := fun _ => rfl

/-- PART_TELEMETRY answers once its values are written (R325). -/
theorem partTelemetry_concludes (s : State) (mb : Fin 16) (i : BitVec 16) :
    Concludes (.partTelemetry mb i .overPorts) s mb.val i 0x160 (fun c => finishCmd s mb.val c 0 c.report) :=
  (partTelemetry_waits mb i).concludes (fun _ hc => if_pos hc) fun _ hc => if_neg (Bool.eq_false_iff.mp hc)

/-- PART_TELEMETRY writes the values of a set to the bulk reference, and refuses any other reference or set. -/
theorem exec_partTelemetry (h : Begins s mb i 0x160 ((0, 1, 0xFF) :: bulkBits 8) p) :
    ((s.bulk p 8 = none ∨ 4 ≤ leField p 0 1) → exec (.partTelemetry mb i .overPorts) s = .next (responded s mb.val i 0x0101 [])) ∧
    (∀ r, s.bulk p 8 = some r → leField p 0 1 < 4 →
      let data := (s.partValues mb.val (leField p 0 1)).flatMap (fun v => leBytes 8 v.toNat)
      Delivers (.partTelemetry mb i .overPorts) s s mb.val i 0x160 r data (leBytes 8 data.length ++ leBytes 8 s.mast.stroke.toNat)) := by
  refine ⟨fun hbad => ?_, fun r hr hn => ?_⟩
  · refine (partTelemetry_waits mb i).exec_refused h.1 h.2.1 ?_
    rw [partTelemetryBegun]
    cases hr : s.bulk p 8 with
    | none => rfl
    | some r => exact if_pos (hbad.resolve_left (by simp [hr]))
  · refine (partTelemetry_waits mb i).delivers h ?_
    rw [partTelemetryBegun, hr]
    exact if_neg (Nat.not_le.mpr hn)

end

end Sys2Proof.Machine
end


section
/-!
SUPPORT. What the steps of a launch leave (R348), and what the check of retired arrays before them changes (R361, R362).
-/
namespace Sys2Proof.Machine

open Sys2Proof.Stated

/-! ### Records of partitions, and memory -/

/-- From s to t the record of each partition keeps all but its vectors. -/
def PartsKept (s t : State) : Prop := ∀ d : Nat, t.part d = { s.part d with vectors := (t.part d).vectors }

theorem PartsKept.of_eq {s t : State} (h : t.parts = s.parts) : PartsKept s t := fun d => by
  rw [State.part, State.part, h]

theorem PartsKept.trans {s t u : State} (h : PartsKept s t) (h' : PartsKept t u) : PartsKept s u := fun d => by
  rw [h' d, h d]

theorem PartsKept.foldl {α : Type} {f : State → α → State} (hf : ∀ s x, PartsKept s (f s x)) (l : List α) (s : State) :
    PartsKept s (l.foldl f s) :=
  List.foldlRecOn (motive := PartsKept s) l f (.of_eq rfl) fun _ hu x _ => hu.trans (hf _ x)

/-- Vectors of a partition replaced. -/
theorem PartsKept.setVectors (s : State) (c : Nat) (v : Table Vector) : PartsKept s (s.setPart c { s.part c with vectors := v }) := fun d => by
  rw [State.part_setPart]
  split
  · next hd => rw [hd]
  · rfl

theorem formIntr_partsKept (s : State) (colour v : Nat) : PartsKept s (formIntr s colour v) := by
  unfold formIntr
  dsimp only
  split
  · exact .of_eq rfl
  · exact PartsKept.setVectors s colour _

theorem vecEvent_partsKept (colour : Nat) (s : State) (v : Nat) : PartsKept s (vecEvent colour s v) := by
  unfold vecEvent
  dsimp only
  split
  · exact .of_eq rfl
  · split
    · exact PartsKept.setVectors s colour _
    · exact (PartsKept.setVectors s colour _).trans (formIntr_partsKept _ colour v)

theorem fwEvent_partsKept (s : State) (colour : Nat) (ev : Byte) : PartsKept s (fwEvent s colour ev) := by
  unfold fwEvent
  split
  · exact .of_eq rfl
  · exact .foldl (vecEvent_partsKept colour) _ _

/-- From s to t the partitions' records keep all but vectors, and memory stays. -/
structure RecordsKept (s t : State) : Prop where
  parts : PartsKept s t
  mem : t.mem = s.mem

namespace RecordsKept

theorem of_eq {s t : State} (hp : t.parts = s.parts) (hm : t.mem = s.mem) : RecordsKept s t := ⟨.of_eq hp, hm⟩

theorem trans {s t u : State} (h : RecordsKept s t) (h' : RecordsKept t u) : RecordsKept s u :=
  ⟨h.parts.trans h'.parts, h'.mem.trans h.mem⟩

theorem foldl {α : Type} {f : State → α → State} (hf : ∀ s x, RecordsKept s (f s x)) (l : List α) (s : State) : RecordsKept s (l.foldl f s) :=
  List.foldlRecOn (motive := RecordsKept s) l f (of_eq rfl rfl) fun _ hu x _ => hu.trans (hf _ x)

theorem of_onlyBookings {s t : State} (h : OnlyBookings s t) : RecordsKept s t := by
  unfold OnlyBookings at h
  exact of_eq (by rw [h]) (by rw [h])

theorem modCore (s : State) (c : Nat) (f : Core → Core) : RecordsKept s (s.modCore c f) := of_eq rfl rfl

end RecordsKept

theorem fwEvent_recordsKept (s : State) (colour : Nat) (ev : Byte) : RecordsKept s (fwEvent s colour ev) :=
  ⟨fwEvent_partsKept s colour ev, (fwEvent_onlyVectors s colour ev).mem⟩

theorem reinitCounter_recordsKept (s : State) (n : Nat) : RecordsKept s (reinitCounter s n) := by
  have hcounter : ∀ x, RecordsKept s (s.setCounter n x) := fun _ => .of_eq rfl rfl
  unfold reinitCounter
  exact (hcounter _).trans (.foldl (fun u c => .modCore u c _) _ _)

/-! ### What a launch declares (R348 steps 4 and 5) -/

/-- What a launch declares beside windows: credits, counters, bookings, entries. -/
def launchArmed (s : State) (col : Nat) (r : Role) : State :=
  let s := r.credits.foldl installCredit s
  let s := r.counters.foldl (installCounter col) s
  let s := armWatchdog (r.bookings.foldl (installBooking col) s) col r.stepTime
  fwEvent (r.entries.foldl startCore s) col 1

theorem launchDeclared_eq (s : State) (col : Nat) (r : Role) :
    launchDeclared s col r = launchArmed (r.windows.foldl (installWindow col) s) col r := rfl

theorem installBooking_recordsKept (col : Nat) (s : State) (d : DeclBooking) : RecordsKept s (installBooking col s d) := by
  unfold installBooking
  dsimp only
  split
  · exact .modCore s _ _
  · exact .of_onlyBookings (writeDieBooking_onlyBookings s _ _)

/-- All but the windows that a launch declares leaves records and memory. -/
theorem launchArmed_recordsKept (s : State) (col : Nat) (r : Role) : RecordsKept s (launchArmed s col r) := by
  have hcredits : ∀ u e, RecordsKept u (installCredit u e) := fun u _ => .modCore u _ _
  have hset : ∀ u n x, RecordsKept u (u.setCounter n x) := fun _ _ _ => .of_eq rfl rfl
  have hcounters : ∀ u d, RecordsKept u (installCounter col u d) := fun u d => (hset u _ _).trans (reinitCounter_recordsKept _ _)
  have hwatch : ∀ u, RecordsKept u (armWatchdog u col r.stepTime) := fun u => .of_onlyBookings (writeDieBooking_onlyBookings u _ _)
  have hentries : ∀ u e, RecordsKept u (startCore u e) := fun u _ => .modCore u _ _
  unfold launchArmed
  exact (RecordsKept.foldl hcredits _ _).trans ((RecordsKept.foldl hcounters _ _).trans
    ((RecordsKept.foldl (installBooking_recordsKept col) _ _).trans ((hwatch _).trans
      ((RecordsKept.foldl hentries _ _).trans (fwEvent_recordsKept _ col 1)))))

/-- Windows that a launch declares leave the records. -/
theorem installWindow_partsKept (col : Nat) (s : State) (w : DeclWindow) : PartsKept s (installWindow col s w) := by
  have hsenders : ∀ l, PartsKept s { s with senders := l } := fun _ => .of_eq rfl
  have hput : ∀ u n x, PartsKept u (putWindow u n x) := fun u n x => .of_eq (by rw [(putWindow_onlyMovers u n x).1])
  unfold installWindow
  exact (hsenders _).trans (hput _ _ _)

theorem launchDeclared_partsKept (s : State) (col : Nat) (r : Role) : PartsKept s (launchDeclared s col r) := by
  rw [launchDeclared_eq]
  exact (PartsKept.foldl (installWindow_partsKept col) _ _).trans (launchArmed_recordsKept _ col r).parts

/-! ### Entry cores (R180, R348 step 5) -/

theorem core_startCore (s : State) (e : CoreId × Dla) (d : Nat) : (startCore s e).core d =
    if d = e.1.val then { (s.core d).runNow with csr := { (s.core d).csr with pc := e.2 &&& ~~~ (7 : Dla) } } else s.core d := by
  rw [startCore, State.core_modCore]
  split
  · next hd => rw [hd]
  · rfl

/-- A core in RUN stays in RUN while entry cores start. -/
theorem foldl_startCore_run {l : List (CoreId × Dla)} {s : State} {d : Nat} (h : (s.core d).st = .run) : ((l.foldl startCore s).core d).st = .run :=
  List.foldlRecOn (motive := fun u : State => (u.core d).st = .run) l _ h fun u hu e _ => by
    rw [core_startCore]
    split
    · rfl
    · exact hu

/-- A core that is no entry stays as it is while entry cores start. -/
theorem foldl_startCore_other {l : List (CoreId × Dla)} {s : State} {d : Nat} (h : ∀ e ∈ l, d ≠ e.1.val) :
    (l.foldl startCore s).core d = s.core d := by
  induction l generalizing s with
  | nil => rfl
  | cons e l ih =>
    rw [List.foldl_cons, ih fun x hx => h x (List.mem_cons_of_mem _ hx), core_startCore, if_neg (h e List.mem_cons_self)]

/-- Each entry core is in RUN, and where no core is named twice its PC is its entry. -/
theorem foldl_startCore_entries (l : List (CoreId × Dla)) (s : State) : ∀ e ∈ l, ((l.foldl startCore s).core e.1.val).st = .run ∧
    ((l.map (fun y => y.1)).Nodup → ((l.foldl startCore s).core e.1.val).csr.pc = e.2 &&& ~~~ (7 : Dla)) := by
  induction l generalizing s with
  | nil => exact fun e he => absurd he List.not_mem_nil
  | cons x l ih =>
    intro e he
    rw [List.foldl_cons, List.map_cons, List.nodup_cons]
    obtain rfl | he := List.mem_cons.mp he
    · refine ⟨foldl_startCore_run (by rw [core_startCore, if_pos rfl]; rfl), fun ⟨hnot, _⟩ => ?_⟩
      rw [foldl_startCore_other, core_startCore, if_pos rfl]
      exact fun y hy hxy => hnot (List.mem_map.mpr ⟨y, hy, (Fin.ext hxy).symm⟩)
    · obtain ⟨hrun, hpc⟩ := ih (startCore s x) e he
      exact ⟨hrun, fun h => hpc h.2⟩

/-! ### Memory -/

/-- Launched cores where no window is installed have zeroed core memory. -/
theorem foldl_launchCore_memory (l : List Nat) {s : State} (h : s.windows = []) : (l.foldl launchCore s).windows = [] ∧
    ∀ c ∈ l, ∀ a : Nat, cmBase c ≤ a → a < cmBase c + 0x600000 → (l.foldl launchCore s).byteAt a = 0 := by
  induction l using List.reverseRecOn with
  | nil => exact ⟨h, fun c hc => absurd hc List.not_mem_nil⟩
  | append_singleton l d ih =>
    obtain ⟨hwindows, hzero⟩ := ih
    rw [List.foldl_append, List.foldl_cons, List.foldl_nil]
    generalize l.foldl launchCore s = u at hwindows hzero
    obtain ⟨hkeep, hbytes⟩ := launchCore_windowless (s := u) (c := d) fun e he _ => by rw [hwindows] at he; cases he
    refine ⟨hkeep.trans hwindows, fun c hc a hlo hhi => ?_⟩
    rw [hbytes]
    split
    · rfl
    · next hout =>
      obtain hc | hc := List.mem_append.mp hc
      · exact hzero c hc a hlo hhi
      · rw [List.mem_singleton.mp hc] at hlo hhi
        exact absurd ⟨hlo, hhi⟩ hout

/-- A zero byte stays zero while ranges are zeroed. -/
theorem byteAt_foldl_zeroRange (l : List Range) {s : State} {a : Nat} (h : s.byteAt a = 0) :
    (l.foldl (fun s (x : Range) => zeroRange s x.base x.len) s).byteAt a = 0 :=
  List.foldlRecOn (motive := fun u : State => u.byteAt a = 0) l _ h fun u hu x _ => by
    rw [byteAt_zeroRange]
    split
    · rfl
    · exact hu

/-- A launch that writes no image of core memory and no directory leaves the core memory of its cores zero. -/
theorem launchMemory_zero {s : State} (hw : s.windows = []) {g : Image} (hcm : g.role.initCm = []) (hdir : g.role.directory = none)
    {k : Nat} (hk : k ∈ bitsSet g.role.cores) {a : Nat} (hlo : cmBase k ≤ a) (hhi : a < cmBase k + 0x600000) : (launchMemory s g).byteAt a = 0 := by
  have hzero := (foldl_launchCore_memory (bitsSet g.role.cores) hw).2 k hk a hlo hhi
  rw [launchMemory, hcm, writeDirectory, hdir]
  exact byteAt_foldl_zeroRange _ hzero

theorem launchMemory_onlyMovers (s : State) (g : Image) : OnlyMovers s (launchMemory s g) := by
  have hzero : ∀ u (x : Range), OnlyMovers u (zeroRange u x.base x.len) := fun _ _ => rfl
  have hwrite : ∀ u (x : Nat × List Byte), OnlyMovers u (memWrite u x.1 x.2).1 := fun _ _ => rfl
  have hdir : ∀ u, OnlyMovers u (writeDirectory u g) := fun u => by
    unfold writeDirectory
    split <;> rfl
  exact (OnlyMovers.foldl launchCore_onlyMovers _ _).trans ((OnlyMovers.foldl hzero _ _).trans ((OnlyMovers.foldl hwrite _ _).trans (hdir _)))

/-! ### The steps -/

/-- What the steps of a launch leave: the job in force, the entry cores in RUN, and core memory zero where nothing is declared for it. -/
theorem launchSteps_leaves (s : State) (col : Nat) (g : Image) (j : Job) : let t := launchSteps s col g j
    (t.part col).job = launchedJob s g j ∧
    (∀ e ∈ g.role.entries, (t.core e.1.val).st = .run ∧
      ((g.role.entries.map (fun y => y.1)).Nodup → (t.core e.1.val).csr.pc = e.2 &&& ~~~ (7 : Dla))) ∧
    (s.windows = [] → g.role.windows = [] → g.role.initCm = [] → g.role.directory = none →
      ∀ k ∈ bitsSet g.role.cores, ∀ a, cmBase k ≤ a → a < cmBase k + 0x600000 → t.byteAt a = 0) := by
  dsimp only
  rw [launchSteps_eq]
  have hmovers := launchMemory_onlyMovers s g
  have hzero := fun hw hcm hdir k hk a => launchMemory_zero (s := s) hw (g := g) hcm hdir (k := k) hk (a := a)
  dsimp only
  generalize launchMemory s g = m at hmovers hzero
  have hjob : launchedJob (uninstallWindows m col) g j = launchedJob s g j := by
    rw [hmovers]
    rfl
  rw [hjob]
  have hrecord : ((rebuildRegions ((uninstallWindows m col).modPart col (fun p => { p with job := launchedJob s g j })) col).part col).job =
      launchedJob s g j := by
    have hregions : ∀ u : State, (rebuildRegions u col).part col = u.part col := fun _ => rfl
    rw [hregions, State.part_modPart_same]
  have hmem : (rebuildRegions ((uninstallWindows m col).modPart col (fun p => { p with job := launchedJob s g j })) col).mem = m.mem := rfl
  generalize rebuildRegions ((uninstallWindows m col).modPart col (fun p => { p with job := launchedJob s g j })) col = v at hrecord hmem
  refine ⟨?_, fun e he => ?_, fun hw hnone hcm hdir k hk a hlo hhi => ?_⟩
  · rw [launchDeclared_partsKept v col g.role col]
    exact hrecord
  · rw [launchDeclared_eq, launchArmed, (fwEvent_onlyVectors _ col 1).core]
    exact foldl_startCore_entries _ _ e he
  · have hbytes := (launchArmed_recordsKept v col g.role).mem
    rw [launchDeclared_eq, hnone, List.foldl_nil, State.byteAt, hbytes, hmem]
    exact hzero hw hcm hdir k hk a hlo hhi

/-! ### Retests and retired arrays (R218, R361, R362) -/

/-- From s to t no more changes than a persistent fault changes: the log, firmware's state, messages, membership, ports, cores and what
is owed to or by a die that goes. -/
def OnlyFaults (s t : State) : Prop := t = { s with
  log := t.log, skovi := t.skovi, tx := t.tx, member := t.member, ports := t.ports, cores := t.cores, senders := t.senders, late := t.late }

theorem OnlyFaults.trans {s t u : State} (h : OnlyFaults s t) (h' : OnlyFaults t u) : OnlyFaults s u := by
  unfold OnlyFaults at *
  rw [h', h]

theorem OnlyReach.faults {s t : State} (h : OnlyReach s t) : OnlyFaults s t := by
  unfold OnlyReach at h
  unfold OnlyFaults
  rw [h]

theorem OnlyCores.faults {s t : State} (h : OnlyCores s t) : OnlyFaults s t := by
  unfold OnlyCores at h
  unfold OnlyFaults
  rw [h]

theorem OnlyTx.faults {s t : State} (h : OnlyTx s t) : OnlyFaults s t := by
  unfold OnlyTx at h
  unfold OnlyFaults
  rw [h]

theorem fenceEntry_onlyFaults (s : State) (d : Nat) : OnlyFaults s (fenceEntry s d) := by
  have hput : ∀ u e, OnlyFaults u (putDie u d e) := fun u e => (putDie_entriesPut u d e).frame.reach.faults
  unfold fenceEntry
  dsimp only
  split
  · exact hput _ _
  · exact (toAbsent_leaves s d).1.faults.trans (hput _ _)

theorem fenceSelf_onlyFaults (s : State) : OnlyFaults s (fenceSelf s) := by
  have hself : ∀ m k, OnlyFaults s { s with member := m, cores := k } := fun _ _ => rfl
  unfold fenceSelf
  exact (hself _ _).trans (triggerAll_entriesPut _).frame.reach.faults

theorem persistentFault_onlyFaults (s : State) (cond : BitVec 16) : OnlyFaults s (persistentFault s cond) := by
  have hraise : OnlyFaults s (fwRaise s fDiePersistent 0 cond) := rfl
  have hset : ∀ u : State, OnlyFaults u { u with skovi := { u.skovi with persistent := true } } := fun _ => rfl
  unfold persistentFault
  dsimp only
  refine hraise.trans ?_
  split
  · rfl
  · refine (hset _).trans (OnlyFaults.trans ?_ (fenceSelf_onlyFaults _))
    split
    · exact (sendFence_onlyTx ..).faults.trans (fenceEntry_onlyFaults ..)
    · rfl

theorem checkArrays_onlyFaults (s : State) : OnlyFaults s (checkArrays s) := by
  unfold checkArrays
  split
  · exact persistentFault_onlyFaults ..
  · rfl

theorem retestArrays_onlyCores (s : State) (g : Image) (rs : List ArrayReport) : OnlyCores s (retestArrays s g rs) :=
  OnlyCores.foldl (fun u r => by
    dsimp only
    split <;> rfl) _ _

end Sys2Proof.Machine
end


section
/-!
SUPPORT. JOB_LAUNCH once every die that it asked has answered (R347, R348).
-/
namespace Sys2Proof.Machine

open Sys2Proof.Stated

/-! ### The checks that are left -/

/-- A die of DIE_SET is not VERIFIED, or says so of one. -/
def Away (s : State) (c : Cmd) (dies : Word) : Prop := s.diesOk dies = false ∨ ∃ r ∈ c.replies, r.2.1 = 0x0301

/-- Checks 4 to 6 of JOB_LAUNCH, in order (R347). -/
theorem launchDies_eq (s : State) (c : Cmd) (g : Image) (dies : Word) :
    (Away s c dies → launchDies s c g dies = 0x0301) ∧
    (¬ Away s c dies → (∃ r ∈ c.replies, r.2.1 ≠ 0) → launchDies s c g dies = 0x0302) ∧
    (¬ Away s c dies → ¬ (∃ r ∈ c.replies, r.2.1 ≠ 0) → launchDies s c g dies =
      if g.lends.all (fun (l : Lend) => bit dies l.die.toNat) then 0 else 0x0303) := by
  have haway : (!s.diesOk dies || c.replies.any (fun r => r.2.1 == stDieAbsent)) = true ↔ Away s c dies := by
    rw [Bool.or_eq_true, Bool.not_eq_true', List.any_eq_true, Away]
    simp only [beq_iff_eq]
    exact Iff.rfl
  have hrefused : (!c.replies.all (fun r => r.2.1 == stOk)) = true ↔ ∃ r ∈ c.replies, r.2.1 ≠ 0 := by
    rw [Bool.not_eq_true', List.all_eq_false]
    simp only [beq_iff_eq]
    exact Iff.rfl
  refine ⟨fun h => ?_, fun h hr => ?_, fun h hr => ?_⟩
  · rw [launchDies, if_pos (haway.mpr h)]
    rfl
  · rw [launchDies, if_neg (mt haway.mp h), if_pos (hrefused.mpr hr)]
    rfl
  · rw [launchDies, if_neg (mt haway.mp h), if_neg (mt hrefused.mp hr)]
    cases g.lends.all (fun (l : Lend) => bit dies l.die.toNat) <;> rfl

/-! ### The end of JOB_LAUNCH -/

section
variable {s : State} {mb : Nat} {tests : List ArrayReport} {c : Cmd} {g : Image}
  (h : (s.part mb).image (BitVec.ofNat 256 (leField c.payload 0 32)) = some g)
include h

theorem endLaunch_refused {st : BitVec 16} (hst : launchDies s c g (BitVec.ofNat 64 (leField c.payload 40 8)) = st) (hne : st ≠ 0) :
    endLaunch mb tests s c = finishCmd s mb c st [] := by
  rw [endLaunch, launchFields]
  dsimp only
  rw [h]
  dsimp only
  rw [hst]
  exact if_pos (bne_iff_ne.mpr hne)

variable (hst : launchDies s c g (BitVec.ofNat 64 (leField c.payload 40 8)) = 0)
include hst

theorem endLaunch_unfit (hrest : launchRest (checkArrays (retestArrays s g tests)) mb g ≠ 0) : endLaunch mb tests s c =
    finishCmd (checkArrays (retestArrays s g tests)) mb c (launchRest (checkArrays (retestArrays s g tests)) mb g) [] := by
  rw [endLaunch, launchFields]
  dsimp only
  rw [h]
  dsimp only
  rw [hst, if_neg (by decide)]
  exact if_pos (bne_iff_ne.mpr hrest)

theorem endLaunch_launches (hrest : launchRest (checkArrays (retestArrays s g tests)) mb g = 0) : ∃ b : List Byte, b.length = 17 ∧
    endLaunch mb tests s c = finishCmd (launchSteps (checkArrays (retestArrays s g tests)) mb g
      { id := BitVec.ofNat 32 (leField c.payload 32 4), dieSet := BitVec.ofNat 64 (leField c.payload 40 8) }) mb c 0 b := by
  rw [endLaunch, launchFields]
  dsimp only
  rw [h]
  dsimp only
  rw [hst, if_neg (by decide), hrest, if_neg (by decide)]
  exact ⟨_, by simp, rfl⟩

end

/-- JOB_LAUNCH at work: it waits, answers the first of checks 4 to 9 that fails, or puts the job in force (R347, R348). -/
theorem exec_jobLaunch_atWork {s : State} {mb : Fin 16} {i : BitVec 16} (hclocked : Clocked s) (hup : s.skovi.up = true) {c : Cmd}
    (tests : List ArrayReport) (hc : s.atWork mb.val i 0x120 = some c) :
    let d : BitVec 256 := BitVec.ofNat 256 (leField c.payload 0 32)
    let dies : Word := BitVec.ofNat 64 (leField c.payload 40 8)
    let j := Instr.jobLaunch mb i .overPorts tests
    (s.cmdReady mb.val c = false → exec j s = .next s) ∧
    (s.cmdReady mb.val c = true → ∀ g, (s.part mb.val).image d = some g →
      let refused := ∃ r ∈ c.replies, r.2.1 ≠ 0
      let lenders := ∀ l ∈ g.lends, bit dies l.die.toNat = true
      let u := checkArrays (retestArrays s g tests)
      (Away s c dies → exec j s = .next (finishCmd s mb.val c 0x0301 [])) ∧
      (¬ Away s c dies → refused → exec j s = .next (finishCmd s mb.val c 0x0302 [])) ∧
      (¬ Away s c dies → ¬ refused → ¬ lenders → exec j s = .next (finishCmd s mb.val c 0x0303 [])) ∧
      (¬ Away s c dies → ¬ refused → lenders → launchRest u mb.val g ≠ 0 → exec j s = .next (finishCmd u mb.val c (launchRest u mb.val g) [])) ∧
      (¬ Away s c dies → ¬ refused → lenders → launchRest u mb.val g = 0 → ∃ t b, exec j s = .next (finishCmd t mb.val c 0 b) ∧ b.length = 17 ∧
        (t.part mb.val).job = { id := BitVec.ofNat 32 (leField c.payload 32 4), st := .running, digest := g.digest, dieSet := dies
                                epoch := u.member.epoch, launchStroke := s.mast.stroke } ∧
        (∀ e ∈ g.role.entries, (t.core e.1.val).st = .run ∧
          ((g.role.entries.map (fun y => y.1)).Nodup → (t.core e.1.val).csr.pc = e.2 &&& ~~~ (7 : Dla))) ∧
        (s.windows = [] → g.role.windows = [] → g.role.initCm = [] → g.role.directory = none →
          ∀ k ∈ bitsSet g.role.cores, ∀ a, cmBase k ≤ a → a < cmBase k + 0x600000 → t.byteAt a = 0))) := by
  have hj := jobLaunch_waits mb i tests
  refine ⟨hj.exec_waiting hclocked hup hc, fun hready g hg => ?_⟩
  have hexec := hj.exec_ready hclocked hup hc hready
  obtain ⟨haway, hrefused, hlend⟩ := launchDies_eq s c g (BitVec.ofNat 64 (leField c.payload 40 8))
  have hall : g.lends.all (fun (l : Lend) => bit (BitVec.ofNat 64 (leField c.payload 40 8) : Word) l.die.toNat) = true ↔
      ∀ l ∈ g.lends, bit (BitVec.ofNat 64 (leField c.payload 40 8) : Word) l.die.toNat = true := List.all_eq_true
  refine ⟨fun ha => ?_, fun ha hr => ?_, fun ha hr hl => ?_, fun ha hr hl hrest => ?_, fun ha hr hl hrest => ?_⟩
  · rw [hexec, endLaunch_refused hg (haway ha) (by decide)]
  · rw [hexec, endLaunch_refused hg (hrefused ha hr) (by decide)]
  · rw [hexec, endLaunch_refused hg ((hlend ha hr).trans (if_neg (mt hall.mp hl))) (by decide)]
  · rw [hexec, endLaunch_unfit hg ((hlend ha hr).trans (if_pos (hall.mpr hl))) hrest]
  · obtain ⟨b, hb, hend⟩ := endLaunch_launches hg ((hlend ha hr).trans (if_pos (hall.mpr hl))) hrest
    have hfaults := (retestArrays_onlyCores s g tests).faults.trans (checkArrays_onlyFaults _)
    have hwindows : (checkArrays (retestArrays s g tests)).windows = s.windows := by rw [hfaults]
    have hmast : (checkArrays (retestArrays s g tests)).mast = s.mast := by rw [hfaults]
    obtain ⟨hjob, hentries, hzero⟩ := launchSteps_leaves (checkArrays (retestArrays s g tests)) mb.val g
      { id := BitVec.ofNat 32 (leField c.payload 32 4), dieSet := BitVec.ofNat 64 (leField c.payload 40 8) }
    rw [hwindows] at hzero
    refine ⟨_, b, hexec.trans (congrArg _ hend), hb, hjob.trans ?_, hentries, hzero⟩
    rw [launchedJob, hmast]

end Sys2Proof.Machine
end


section
/-!
SUPPORT. A step that is replayed and a job that is aborted (R197, R278, R290, R349, R360).
-/
namespace Sys2Proof.Machine

open Sys2Proof.Stated

/-! ### Cores that are resumed (R197) -/

/-- k' is k resumed: registers and PC from its shadow set, in RUN with nothing to redo. -/
def Resumed (k k' : Core) : Prop :=
  k'.sregs = k.shadow ∧ k'.csr.pc = k.csr.stepPc ∧ k'.csr.stepFail = false ∧ k'.st = .run ∧ k'.ccFill = none

/-- What cuts of movers change before and after does not matter. -/
theorem Resumed.of_cut {k m n k' : Core} (h : MoverCut k m) (hr : Resumed m n) (h' : MoverCut n k') : Resumed k k' := by
  unfold Resumed at *
  rw [h']
  rw [h] at hr
  exact hr

/-- The engines of a core reset. -/
def Core.enginesReset (k : Core) : Core := (List.range 6).foldl (fun k e => (k.dropEngine e).clearEngine e) k

/-- Engines that are reset leave the shadow set and the CSRs. -/
theorem Core.enginesReset_leaves (k : Core) : k.enginesReset.shadow = k.shadow ∧ k.enginesReset.csr = k.csr :=
  List.foldlRecOn (motive := fun m : Core => m.shadow = k.shadow ∧ m.csr = k.csr) _ _ ⟨rfl, rfl⟩ fun m hm e _ => by
    have hclear : ∀ n : Core, (n.clearEngine e).shadow = n.shadow ∧ (n.clearEngine e).csr = n.csr := fun n => by
      unfold Core.clearEngine
      split
      · exact ⟨rfl, rfl⟩
      · split
        · exact ⟨rfl, rfl⟩
        · split <;> exact ⟨rfl, rfl⟩
    exact ⟨(hclear _).1.trans hm.1, (hclear _).2.trans hm.2⟩

/-- A core whose channels are cleared for a replay (R162, R175). -/
def chansCleared (s : State) (c : Nat) : State :=
  if (s.core c).transferring then cutMover s c else clearChans ((s.core c).credits.foldl (takeBack c) s) c

/-- What a resumed core is. -/
def Core.resumed (k : Core) : Core :=
  Core.runNow { k.enginesReset with
    sb := [], sregs := k.enginesReset.shadow, pendS := [], pendM := [], ccFill := none, hold := none, fenceBad := false, probesSent := false
    csr := { k.enginesReset.csr with pc := k.enginesReset.csr.stepPc, stepFail := false } }

theorem Core.resumed_resumed (k : Core) : Resumed k k.resumed := by
  obtain ⟨hshadow, hcsr⟩ := k.enginesReset_leaves
  refine ⟨hshadow, ?_, rfl, rfl, rfl⟩
  show k.enginesReset.csr.stepPc = _
  rw [hcsr]

theorem core_resumeCore (s : State) (c d : Nat) : (resumeCore s c).core d =
    if d = c then ((chansCleared s c).core c).resumed else (chansCleared s c).core d := by
  rw [resumeCore, State.core_modCore]
  split
  · rw [replayCore, State.core_modCore_same, State.core_modCore_same]
    rfl
  · next hd =>
    rw [replayCore, State.core_modCore, if_neg hd, State.core_modCore, if_neg hd]
    rfl

theorem clearChans_onlyMovers (s : State) (c : Nat) : OnlyMovers s (clearChans s c) ∧ CoresCut s (clearChans s c) := by
  have hreqs : ∀ l, OnlyMovers s { s with reqs := l } ∧ CoresCut s { s with reqs := l } := fun _ => ⟨rfl, .of_eq rfl⟩
  unfold clearChans
  exact ⟨(hreqs _).1.trans (modCore_onlyMovers _ c _), (hreqs _).2.trans (CoresCut.modCore _ c fun _ => rfl)⟩

theorem chansCleared_onlyMovers (s : State) (c : Nat) : OnlyMovers s (chansCleared s c) ∧ CoresCut s (chansCleared s c) := by
  unfold chansCleared
  split
  · exact ⟨cutMover_onlyMovers s c, cutMover_coresCut s c⟩
  · have htake : ∀ u e, OnlyMovers u (takeBack c u e) ∧ CoresCut u (takeBack c u e) := fun u e => by
      unfold takeBack
      exact ⟨modCore_onlyMovers u c _, CoresCut.modCore u c fun _ => rfl⟩
    have hcredits : OnlyMovers s ((s.core c).credits.foldl (takeBack c) s) ∧ CoresCut s ((s.core c).credits.foldl (takeBack c) s) :=
      ⟨OnlyMovers.foldl (fun u e => (htake u e).1) _ _, CoresCut.foldl (fun u e => (htake u e).2) _ _⟩
    have hclear := clearChans_onlyMovers ((s.core c).credits.foldl (takeBack c) s) c
    exact ⟨hcredits.1.trans hclear.1, hcredits.2.trans hclear.2⟩

theorem resumeCore_onlyMovers (s : State) (c : Nat) : OnlyMovers s (resumeCore s c) := by
  exact (((chansCleared_onlyMovers s c).1.trans (modCore_onlyMovers _ c _)).trans (modCore_onlyMovers _ c _)).trans (modCore_onlyMovers _ c _)

theorem resumeCore_other (s : State) {c d : Nat} (h : d ≠ c) : MoverCut (s.core d) ((resumeCore s c).core d) := by
  rw [core_resumeCore, if_neg h]
  exact (chansCleared_onlyMovers s c).2 d

theorem resumeCore_same (s : State) (c : Nat) : Resumed (s.core c) ((resumeCore s c).core c) := by
  rw [core_resumeCore, if_pos rfl]
  exact .of_cut ((chansCleared_onlyMovers s c).2 c) (Core.resumed_resumed _) (MoverCut.refl _)

/-- A core that is not resumed is at most cut. -/
theorem foldl_resumeCore_other (l : List Nat) {s : State} {d : Nat} (h : d ∉ l) : MoverCut (s.core d) ((l.foldl resumeCore s).core d) := by
  induction l generalizing s with
  | nil => exact MoverCut.refl _
  | cons c l ih =>
    rw [List.mem_cons, not_or] at h
    exact (resumeCore_other s h.1).trans (ih h.2)

/-- Each of a list of distinct cores is resumed. -/
theorem foldl_resumeCore (l : List Nat) (hl : l.Nodup) (s : State) : ∀ k ∈ l, Resumed (s.core k) ((l.foldl resumeCore s).core k) := by
  induction l generalizing s with
  | nil => exact fun k hk => absurd hk List.not_mem_nil
  | cons c l ih =>
    rw [List.nodup_cons] at hl
    intro k hk
    by_cases hkc : k = c
    · subst hkc
      exact .of_cut (MoverCut.refl _) (resumeCore_same s k) (foldl_resumeCore_other l hl.1)
    · exact .of_cut (resumeCore_other s hkc) (ih hl.2 (resumeCore s c) k ((List.mem_cons.mp hk).resolve_left hkc)) (MoverCut.refl _)

/-! ### Cores that move nothing -/

/-- A core with no channel and no credit is resumed without a change of memory or of another core. -/
theorem resumeCore_idle {s : State} {c : Nat} (hchans : (s.core c).chans = []) (hcredits : (s.core c).credits = []) :
    (resumeCore s c).mem = s.mem ∧ ∀ d, d ≠ c → (resumeCore s c).core d = s.core d := by
  have hclear : chansCleared s c = clearChans s c := by
    rw [chansCleared, Core.transferring, hchans, hcredits]
    rfl
  refine ⟨?_, fun d hd => ?_⟩
  · have hmod : ∀ (u : State) (f : Core → Core), (u.modCore c f).mem = u.mem := fun _ _ => rfl
    have hcleared : (chansCleared s c).mem = s.mem := by
      rw [hclear, clearChans, hmod]
    rw [resumeCore, hmod, replayCore, hmod, hmod]
    exact hcleared
  · rw [core_resumeCore, if_neg hd, hclear, clearChans, State.core_modCore, if_neg hd]
    rfl

/-- Cores that move nothing are resumed without a change of memory. -/
theorem foldl_resumeCore_mem (l : List Nat) (hl : l.Nodup) {s : State} (h : ∀ k ∈ l, (s.core k).chans = [] ∧ (s.core k).credits = []) :
    (l.foldl resumeCore s).mem = s.mem := by
  induction l generalizing s with
  | nil => rfl
  | cons c l ih =>
    rw [List.nodup_cons] at hl
    obtain ⟨hmem, hother⟩ := resumeCore_idle (h c List.mem_cons_self).1 (h c List.mem_cons_self).2
    rw [List.foldl_cons, ih hl.2, hmem]
    intro k hk
    rw [hother k fun hkc => hl.1 (hkc ▸ hk)]
    exact h k (List.mem_cons_of_mem _ hk)

/-! ### Counters reinitialised (R278) -/

/-- From s to t no core changes but in its arrivals. -/
def BarsOnly (s t : State) : Prop := ∀ d : Nat, t.core d = { s.core d with bars := (t.core d).bars }

theorem BarsOnly.of_eq {s t : State} (h : t.cores = s.cores) : BarsOnly s t := fun d => by
  rw [State.core, State.core, h]

theorem BarsOnly.trans {s t u : State} (h : BarsOnly s t) (h' : BarsOnly t u) : BarsOnly s u := fun d => by
  rw [h' d, h d]

theorem BarsOnly.foldl {α : Type} {f : State → α → State} (hf : ∀ s x, BarsOnly s (f s x)) (l : List α) (s : State) : BarsOnly s (l.foldl f s) :=
  List.foldlRecOn (motive := BarsOnly s) l f (.of_eq rfl) fun _ hu x _ => hu.trans (hf _ x)

theorem reinitCounter_barsOnly (s : State) (n : Nat) : BarsOnly s (reinitCounter s n) := by
  have hset : ∀ x, BarsOnly s (s.setCounter n x) := fun _ => .of_eq rfl
  have hbars : ∀ u c, BarsOnly u (u.modCore c (fun k => { k with bars := Table.set {} k.bars n {} })) := fun u c d => by
    rw [State.core_modCore]
    split
    · next hd => rw [hd]
    · rfl
  unfold reinitCounter
  exact (hset _).trans (.foldl hbars _ _)

/-! ### A replay (R360) -/

theorem PartsKept.jobCores {s t : State} (h : PartsKept s t) (col : Nat) : t.jobCores col = s.jobCores col := by
  rw [State.jobCores, State.jobCores, h col]
  rfl

theorem jobCores_nodup (s : State) (col : Nat) : (s.jobCores col).Nodup := by
  unfold State.jobCores
  split <;> exact bitsSet_nodup _

/-- The job of a step that is replayed. -/
def Job.replayed (j : Job) : Job :=
  { j with st := .replaying, failed := false, fromWatch := false, stepReplays := j.stepReplays + 1, replays := j.replays + 1 }

/-- What a replay leaves: the job replaying with one replay more, its cores resumed, and memory where they move nothing. -/
theorem replayJob_leaves (s : State) (col : Nat) : let t := replayJob s col
    (t.part col).job = (s.part col).job.replayed ∧ (∀ k ∈ s.jobCores col, Resumed (s.core k) (t.core k)) ∧
    ((∀ k ∈ s.jobCores col, (s.core k).chans = [] ∧ (s.core k).credits = []) → t.mem = s.mem) := by
  have hrecords : RecordsKept s ((s.countersOf col).foldl reinitCounter s) := RecordsKept.foldl reinitCounter_recordsKept _ _
  have hbars : BarsOnly s ((s.countersOf col).foldl reinitCounter s) := BarsOnly.foldl reinitCounter_barsOnly _ _
  have hcs := hrecords.parts.jobCores col
  have hnodup := jobCores_nodup s col
  unfold replayJob
  dsimp only
  rw [hcs]
  generalize s.jobCores col = cs at hnodup
  generalize (s.countersOf col).foldl reinitCounter s = u at hrecords hbars
  have hmovers : OnlyMovers u (cs.foldl resumeCore u) := OnlyMovers.foldl resumeCore_onlyMovers _ _
  have hresumed := foldl_resumeCore cs hnodup u
  have hmemory := foldl_resumeCore_mem cs hnodup (s := u)
  generalize cs.foldl resumeCore u = v at hmovers hresumed hmemory
  have hvpart : v.part col = u.part col := by rw [hmovers]; rfl
  refine ⟨?_, fun k hk => ?_, fun hidle => ?_⟩
  · rw [fwEvent_partsKept _ col 1 col, State.part_modPart_same, hvpart, hrecords.parts col]
    rfl
  · have hcut : MoverCut (s.core k) (u.core k) := by
      rw [hbars k]
      rfl
    rw [(fwEvent_onlyVectors _ col 1).core, State.core_modPart]
    exact .of_cut hcut (hresumed k hk) (MoverCut.refl _)
  · rw [(fwEvent_onlyVectors _ col 1).mem]
    refine (hmemory fun k hk => ?_).trans hrecords.mem
    rw [hbars k]
    exact hidle k hk

/-! ### An abort (R290, R349) -/

/-- What the abort of a live job in no reset leaves: its partition in a reset that the policy decided, its cores stopped. -/
theorem abortJob_leaves {s : State} {col : Nat} (hlive : (s.part col).job.live = true) (hfree : (s.part col).resetting = false)
    (reason : Byte) (restart tell : Bool) : let t := abortJob s col reason restart tell
    t.part col = { (s.part col).inReset reason with resetPolicy := true, resetRestart := restart, resetNotify := tell } ∧
    ∀ k ∈ bitsSet (s.part col).cores, (t.core k).st = .stopped := by
  obtain ⟨hpart, hcores, -⟩ := beginReset_leaves hfree reason
  have hgo : ¬ (!(s.part col).job.live || (s.part col).resetting) = true := by simp [hlive, hfree]
  dsimp only
  rw [abortJob, if_neg hgo, State.part_modPart_same, hpart]
  exact ⟨rfl, fun k hk => (stopIssue_kept (hcores k hk)).1⟩

end Sys2Proof.Machine
end


section
/-!
SUPPORT. STEP_REPAIR (R357, R358): where a step's repair begins, how its refetches go on, and how it ends.
-/
namespace Sys2Proof.Machine

open Sys2Proof.Stated

/-! ### What a repair ends in -/

/-- The job of a colour awaits the repair of its step. -/
def AwaitsRepair (s : State) (col : Nat) : Prop :=
  (s.part col).job.live = true ∧ (s.part col).job.failed = true ∧ (s.part col).resetting = false

/-- The policy of a partition allows a replay of its job's step (R349). -/
def Partn.again (p : Partn) : Prop := p.replay = true ∧ p.job.stepReplays < p.maxReplay

/-- From s to t the step of a colour's job is replayed (R197, R360). -/
def Replays (s t : State) (col : Nat) : Prop :=
  (t.part col).job = (s.part col).job.replayed ∧ ∀ k ∈ s.jobCores col, Resumed (s.core k) (t.core k)

/-- From s to t the job of a colour is aborted by the policy, for a restart or not (R290, R349). -/
def Aborts (s t : State) (col : Nat) (restart : Bool) : Prop :=
  (t.part col).resetting = true ∧ (t.part col).resetPolicy = true ∧ (t.part col).resetRestart = restart ∧ (t.part col).resetReason = 2 ∧
    ∀ k ∈ bitsSet (s.part col).cores, (t.core k).st = .stopped

/-- No row that has not failed three times is retired (R121). -/
theorem retireRows_of_few {s : State} (h : ∀ e ∈ s.skovi.rowHits, e.2 < 3) : retireRows s = s := by
  have hnone : s.skovi.rowHits.filter (fun (e : Nat × Nat) => decide (3 ≤ e.2)) = [] :=
    List.filter_eq_nil_iff.mpr fun e he => by simpa using h e he
  rw [retireRows, hnone]
  rfl

/-- The die with no repair of a colour's step open. -/
def repairClosed (s : State) (col : Nat) : State := s.modPart col (fun p => { p with repair := none })

/-- A repair of which nothing failed ends in the decision of R349. -/
theorem endRepair_of_fetched {s : State} (hrows : ∀ e ∈ s.skovi.rowHits, e.2 < 3) (col : Nat) {r : Repair} (hr : r.failed = false) :
    endRepair s col r = decideStep (repairClosed s col) col r.own := by
  have hrows' : retireRows (repairClosed s col) = repairClosed s col := retireRows_of_few hrows
  rw [endRepair, ← repairClosed, hrows', hr]
  rfl

theorem part_repairClosed (s : State) (col : Nat) : (repairClosed s col).part col = { s.part col with repair := none } := State.part_modPart_same ..

theorem jobCores_repairClosed (s : State) (col : Nat) : (repairClosed s col).jobCores col = s.jobCores col := by
  rw [State.jobCores, part_repairClosed, State.jobCores]
  rfl

/-- Where the policy allows it the step is replayed. -/
theorem decideStep_again {s : State} {col : Nat} (h : (s.part col).again) (own : Bool) : decideStep s col own = replayJob s col :=
  if_pos (by rw [h.1, decide_eq_true h.2]; rfl)

/-- Where the policy allows none and this die detected nothing the job is aborted for a restart. -/
theorem decideStep_abort {s : State} {col : Nat} (h : ¬ (s.part col).again) : decideStep s col false = abortJob s col 2 true true := by
  rw [decideStep]
  exact if_neg fun hagain => h (by simpa [Partn.again] using hagain)

/-- A repair of which nothing failed ends in a replay where the policy allows one. -/
theorem endRepair_replays {s : State} (hrows : ∀ e ∈ s.skovi.rowHits, e.2 < 3) {col : Nat} (h : (s.part col).again) {r : Repair}
    (hr : r.failed = false) : Replays s (endRepair s col r) col ∧
      ((∀ k ∈ s.jobCores col, (s.core k).chans = [] ∧ (s.core k).credits = []) → (endRepair s col r).mem = s.mem) := by
  have hagain : ((repairClosed s col).part col).again := by
    rw [part_repairClosed]
    exact h
  obtain ⟨hjob, hcores, hmem⟩ := replayJob_leaves (repairClosed s col) col
  rw [jobCores_repairClosed] at hcores hmem
  rw [part_repairClosed] at hjob
  rw [endRepair_of_fetched hrows col hr, decideStep_again hagain]
  exact ⟨⟨hjob, hcores⟩, hmem⟩

/-- What an abort leaves of a die whose record of the colour is in no reset. -/
theorem abortJob_aborts {s t : State} {col : Nat} (hlive : (t.part col).job.live = true) (hfree : (t.part col).resetting = false)
    (hcores : (t.part col).cores = (s.part col).cores) (restart : Bool) : Aborts s (abortJob t col 2 restart true) col restart := by
  obtain ⟨hpart, hstopped⟩ := abortJob_leaves hlive hfree 2 restart true
  rw [Aborts, hpart, ← hcores]
  exact ⟨rfl, rfl, rfl, rfl, hstopped⟩

/-- A repair of which nothing failed, of a step without errors of this die, ends in an abort where the policy allows no replay. -/
theorem endRepair_aborts {s : State} (hrows : ∀ e ∈ s.skovi.rowHits, e.2 < 3) {col : Nat} (hawaits : AwaitsRepair s col)
    (h : ¬ (s.part col).again) {r : Repair} (hr : r.failed = false) (hown : r.own = false) : Aborts s (endRepair s col r) col true := by
  have hagain : ¬ ((repairClosed s col).part col).again := by
    rw [part_repairClosed]
    exact h
  obtain ⟨hlive, -, hfree⟩ := hawaits
  rw [endRepair_of_fetched hrows col hr, hown, decideStep_abort hagain]
  refine abortJob_aborts ?_ ?_ ?_ true
  · rw [part_repairClosed]; exact hlive
  · rw [part_repairClosed]; exact hfree
  · rw [part_repairClosed]

/-- A repair of which a weight could not be had ends in an abort, and the job's image is BROKEN (R342, R358). -/
theorem endRepair_broken {s : State} (hrows : ∀ e ∈ s.skovi.rowHits, e.2 < 3) {col : Nat} (hlive : (s.part col).job.live = true)
    (hfree : (s.part col).resetting = false) {r : Repair} (hr : r.failed = true) : Aborts s (endRepair s col r) col false ∧
      ∀ h ∈ ((endRepair s col r).part col).images, h.digest = (s.part col).job.digest → h.st = .broken := by
  have hrows' : retireRows (repairClosed s col) = repairClosed s col := retireRows_of_few hrows
  have hpart := part_repairClosed s col
  rw [endRepair, ← repairClosed, hrows', hr]
  dsimp only
  rw [if_pos rfl, hpart]
  generalize repairClosed s col = u at hpart
  have hmarked := State.part_modPart_same u col (fun p => { p with
    job := { p.job with lastFault := fRefetchFailed }
    images := p.images.map (fun g => if g.digest == (s.part col).job.digest then { g with st := .broken } else g) })
  rw [hpart] at hmarked
  generalize u.modPart col _ = w at hmarked ⊢
  have hlive' : (w.part col).job.live = true := by rw [hmarked]; exact hlive
  have hfree' : (w.part col).resetting = false := by rw [hmarked]; exact hfree
  refine ⟨abortJob_aborts hlive' hfree' (by rw [hmarked]) false, fun h hh hd => ?_⟩
  rw [(abortJob_leaves hlive' hfree' 2 false true).1, hmarked] at hh
  obtain ⟨x, -, rfl⟩ := List.mem_map.mp hh
  split
  · rfl
  · next hne =>
    rw [if_neg hne] at hd
    exact absurd (beq_iff_eq.mpr hd) hne

/-! ### One refetch (R358) -/

section
variable {s : State} {col g : Nat} {golden : Bool} {f : Transfer} (h : s.transfersOf (.refetch col g golden) = [f]) (r : Repair)
include h

/-- A refetch that goes on is left alone. -/
theorem endRefetch_waits (hf : f.done = false) : endRefetch col (s, r) (g, golden) = (s, r) := by
  rw [endRefetch]
  dsimp only
  rw [h, List.find?_singleton, hf]
  rfl

/-- A refetch that has come is written to its granule. -/
theorem endRefetch_written (hf : f.done = true) (hok : f.failed = false) : endRefetch col (s, r) (g, golden) =
    ((memWrite (dropTransfers s (fun w => w == .refetch col g golden)) (g * 64) (takePad 64 f.bytes)).1,
      { r with todo := r.todo.filter (fun y => y != (g, golden)) }) := by
  rw [endRefetch]
  dsimp only
  rw [h, List.find?_singleton, hf, if_pos rfl]
  dsimp only
  rw [hok]
  rfl

/-- After a replica that has failed the golden share is asked. -/
theorem endRefetch_replica_failed (hf : f.done = true) (hbad : f.failed = true) (hgolden : golden = false) : endRefetch col (s, r) (g, golden) =
    (dropTransfers s (fun w => w == .refetch col g golden), { r with todo := r.todo.filter (fun y => y != (g, golden)) ++ [(g, true)] }) := by
  rw [endRefetch]
  dsimp only
  rw [h, List.find?_singleton, hf, if_pos rfl]
  dsimp only
  rw [hbad, hgolden]
  rfl

/-- Where the golden share fails too F_REFETCH_FAILED is logged, and the repair fails. -/
theorem endRefetch_golden_failed (hf : f.done = true) (hbad : f.failed = true) (hgolden : golden = true) : ∃ rec,
    endRefetch col (s, r) (g, golden) = (fwFault (dropTransfers s (fun w => w == .refetch col g golden)) rec,
      { r with todo := r.todo.filter (fun y => y != (g, golden)), failed := true }) := by
  rw [endRefetch]
  dsimp only
  rw [h, List.find?_singleton, hf, if_pos rfl]
  dsimp only
  rw [hbad, hgolden]
  exact ⟨_, rfl⟩

end

/-- A refetch that begins changes messages and transfers alone. -/
theorem startRefetch_leaves (col : Nat) (s : State) (x : Nat × Bool) : (startRefetch col s x).mem = s.mem ∧ (startRefetch col s x).parts = s.parts := by
  have hsends : ∀ {t}, OnlySends s t → t.mem = s.mem ∧ t.parts = s.parts := fun h => by
    rw [h.1]
    exact ⟨rfl, rfl⟩
  unfold startRefetch
  dsimp only
  split
  · split
    · exact hsends (startTransfer_onlySends ..)
    · exact ⟨rfl, rfl⟩
  · split
    · exact hsends (startTransfer_onlySends ..)
    · exact ⟨rfl, rfl⟩

/-! ### STEP_REPAIR -/

section
variable {s : State} (hclocked : Clocked s) (hup : s.skovi.up = true) (c : BitVec 4)
include hclocked hup

/-- A job that awaits no repair is left alone. -/
theorem exec_stepRepair_idle (h : ¬ AwaitsRepair s c.toNat) : exec (.stepRepair c .overPorts) s = .next s := by
  rw [show exec (.stepRepair c .overPorts) s = execStepRepair c .overPorts s from rfl, execStepRepair, live_of_Clocked hclocked]
  dsimp only
  rw [if_pos]
  simp only [Bool.or_eq_true, Bool.not_eq_true', ← Bool.not_eq_true, hup, not_true, false_or]
  by_contra hn
  push Not at hn
  exact h ⟨hn.1.1, hn.1.2, Bool.eq_false_iff.mpr hn.2⟩

/-- A repair that is open goes on. -/
theorem exec_stepRepair_goesOn (h : AwaitsRepair s c.toNat) {r : Repair} (hr : (s.part c.toNat).repair = some r) :
    exec (.stepRepair c .overPorts) s = .next (goOnRepair s c.toNat r) := by
  obtain ⟨hlive, hfailed, hfree⟩ := h
  rw [show exec (.stepRepair c .overPorts) s = execStepRepair c .overPorts s from rfl, execStepRepair, live_of_Clocked hclocked]
  dsimp only
  rw [if_neg (by simp [hup, hlive, hfailed, hfree]), hr]

/-- A repair waits for the capture queue to be empty. -/
theorem exec_stepRepair_queued (hr : (s.part c.toNat).repair = none) (hq : s.log.capq ≠ [] ∨ s.log.waiting ≠ []) :
    exec (.stepRepair c .overPorts) s = .next s := by
  by_cases h : AwaitsRepair s c.toNat
  · obtain ⟨hlive, hfailed, hfree⟩ := h
    rw [show exec (.stepRepair c .overPorts) s = execStepRepair c .overPorts s from rfl, execStepRepair, live_of_Clocked hclocked]
    dsimp only
    rw [if_neg (by simp [hup, hlive, hfailed, hfree]), hr]
    dsimp only
    rw [if_pos (by simpa [List.isEmpty_iff] using hq)]
  · exact exec_stepRepair_idle hclocked hup c h

/-- Of a step whose cores have settled, with no record of this die, the repair begins and ends at once. -/
theorem exec_stepRepair_begins (h : AwaitsRepair s c.toNat) (hr : (s.part c.toNat).repair = none) (hw : (s.part c.toNat).job.fromWatch = false)
    (hcapq : s.log.capq = []) (hwaiting : s.log.waiting = []) (hrecords : s.skovi.records = [])
    (hsettled : ∀ k ∈ s.jobCores c.toNat, (s.core k).settledStep = true) :
    exec (.stepRepair c .overPorts) s = .next (endRepair s c.toNat { own := false, todo := [] }) := by
  obtain ⟨hlive, hfailed, hfree⟩ := h
  have htaken : takeRecords s c.toNat = s := by
    have hsame : s.skovi.records.filter (fun (r : LogRec) => r.jobId != s.jobId c.toNat) = s.skovi.records := by rw [hrecords]; rfl
    rw [takeRecords, hsame]
  have hbegun : beginRepair s c.toNat = (s, { own := false, todo := [] }) := by
    rw [beginRepair, htaken]
    rw [State.stepRecords, hrecords]
    rfl
  rw [show exec (.stepRepair c .overPorts) s = execStepRepair c .overPorts s from rfl, execStepRepair, live_of_Clocked hclocked]
  dsimp only
  rw [if_neg (by simp [hup, hlive, hfailed, hfree]), hr]
  dsimp only
  rw [if_neg (by simp [hcapq, hwaiting]), hw, if_neg Bool.false_ne_true, if_neg (by simpa using hsettled), hbegun]
  rfl

end

end Sys2Proof.Machine
end


section
/-!
SUPPORT. A repair that goes on with one refetch (R358), and the settlement of JobsLaunchReplayAndAbort.
-/
namespace Sys2Proof.Machine

open Sys2Proof.Stated

/-! ### A repair of one refetch -/

/-- The die with a repair of a colour's step open. -/
def repairOpen (s : State) (col : Nat) (r : Repair) : State := s.modPart col (fun p => { p with repair := some r })

theorem part_repairOpen (s : State) (col : Nat) (r : Repair) : (repairOpen s col r).part col = { s.part col with repair := some r } :=
  State.part_modPart_same ..

theorem foldl_startRefetch_mem (col : Nat) (l : List (Nat × Bool)) (s : State) : (l.foldl (startRefetch col) s).mem = s.mem :=
  List.foldlRecOn (motive := fun u : State => u.mem = s.mem) l _ rfl fun u hu x _ => (startRefetch_leaves col u x).1.trans hu

section
variable {s : State} {col g : Nat} {golden : Bool} {r : Repair} (htodo : r.todo = [(g, golden)])
include htodo

/-- Once its only refetch is dealt with a repair ends where nothing is left. -/
theorem goOnRepair_ends {t : State} {q : Repair} (h : endRefetch col (s, r) (g, golden) = (t, q)) (hq : q.todo = []) :
    goOnRepair s col r = endRepair t col q := by
  rw [goOnRepair, htodo, List.foldl_cons, List.foldl_nil, h]
  dsimp only
  rw [hq]
  rfl

/-- A repair that has more to fetch asks for what it has not asked for. -/
theorem goOnRepair_fetches {t : State} {q : Repair} (h : endRefetch col (s, r) (g, golden) = (t, q)) (hq : q.todo ≠ []) : ∃ l,
    l = q.todo.filter (fun y => (t.transfersOf (.refetch col y.1 y.2)).isEmpty) ∧
    goOnRepair s col r = repairOpen (l.foldl (startRefetch col) t) col q := by
  rw [goOnRepair, htodo, List.foldl_cons, List.foldl_nil, h]
  dsimp only
  rw [if_neg (by simpa [List.isEmpty_iff] using hq)]
  exact ⟨_, rfl, rfl⟩

theorem todo_rest : r.todo.filter (fun y => y != (g, golden)) = [] := by
  rw [htodo]
  simp

variable {f : Transfer} (hf : s.transfersOf (.refetch col g golden) = [f])
include hf

/-- A repair waits while its refetch goes on. -/
theorem goOnRepair_waits (hdone : f.done = false) : goOnRepair s col r = repairOpen s col r := by
  obtain ⟨l, hl, hgo⟩ := goOnRepair_fetches htodo (endRefetch_waits hf r hdone) (by simp [htodo])
  rw [htodo, List.filter_cons_of_neg (by simp [hf])] at hl
  rw [hgo, hl]
  rfl

/-- A repair whose refetch has come writes its granule and replays the step where the policy allows it (R358, R360). -/
theorem goOnRepair_replays (hrows : ∀ e ∈ s.skovi.rowHits, e.2 < 3) (hr : r.failed = false) (hdone : f.done = true) (hok : f.failed = false)
    (hagain : (s.part col).again) (hidle : ∀ k ∈ s.jobCores col, (s.core k).chans = [] ∧ (s.core k).credits = []) :
    Replays s (goOnRepair s col r) col ∧
      ∀ a, (goOnRepair s col r).byteAt a = if g * 64 ≤ a ∧ a < g * 64 + 64 then (takePad 64 f.bytes).getD (a - g * 64) 0 else s.byteAt a := by
  rw [goOnRepair_ends htodo (endRefetch_written hf r hdone hok) (todo_rest htodo)]
  have hbytes := byteAt_memWrite (dropTransfers s (fun w => w == .refetch col g golden)) (g * 64) (takePad 64 f.bytes)
  have hframe : (memWrite (dropTransfers s (fun w => w == .refetch col g golden)) (g * 64) (takePad 64 f.bytes)).1 =
      { s with mem := (memWrite (dropTransfers s (fun w => w == .refetch col g golden)) (g * 64) (takePad 64 f.bytes)).1.mem
               skovi := (dropTransfers s (fun w => w == .refetch col g golden)).skovi } := rfl
  have hhits : (dropTransfers s (fun w => w == .refetch col g golden)).skovi.rowHits = s.skovi.rowHits := rfl
  generalize (memWrite (dropTransfers s (fun w => w == .refetch col g golden)) (g * 64) (takePad 64 f.bytes)).1 = w at hbytes hframe ⊢
  have hrows' : ∀ e ∈ w.skovi.rowHits, e.2 < 3 := by
    rw [hframe, hhits]
    exact hrows
  have hpart : w.part col = s.part col := by rw [hframe]; rfl
  have hcore : ∀ k, w.core k = s.core k := fun k => by rw [hframe]; rfl
  have hcores : w.jobCores col = s.jobCores col := by rw [hframe]; rfl
  obtain ⟨⟨hjob, hresumed⟩, hmem⟩ := endRepair_replays hrows' (col := col) (by rw [hpart]; exact hagain)
    (r := { r with todo := r.todo.filter (fun y => y != (g, golden)) }) hr
  rw [hcores] at hresumed hmem
  simp only [hcore] at hresumed hmem
  rw [hpart] at hjob
  refine ⟨⟨hjob, hresumed⟩, fun a => ?_⟩
  have hlength : (takePad 64 f.bytes).length = 64 := by
    simp only [takePad, List.length_take, List.length_append, List.length_replicate]
    omega
  rw [State.byteAt, hmem hidle]
  exact (hbytes a).trans (by rw [hlength]; rfl)

/-- A repair whose replica has failed asks the golden share. -/
theorem goOnRepair_asks_golden (hdone : f.done = true) (hbad : f.failed = true) (hgolden : golden = false) :
    ((goOnRepair s col r).part col).repair = some { r with todo := [(g, true)] } ∧ (goOnRepair s col r).mem = s.mem := by
  have hend := endRefetch_replica_failed hf r hdone hbad hgolden
  rw [todo_rest htodo] at hend
  obtain ⟨l, -, hgo⟩ := goOnRepair_fetches htodo hend (List.cons_ne_nil _ _)
  have hdrop : (dropTransfers s (fun w => w == .refetch col g golden)).mem = s.mem := rfl
  have hopen : ∀ u q, (repairOpen u col q).mem = u.mem := fun _ _ => rfl
  rw [hgo, part_repairOpen, hopen, foldl_startRefetch_mem, hdrop]
  exact ⟨rfl, rfl⟩

/-- A repair whose golden share has failed aborts the job, and its image is BROKEN (R342, R358). -/
theorem goOnRepair_aborts (hrows : ∀ e ∈ s.skovi.rowHits, e.2 < 3) (hawaits : AwaitsRepair s col) (hdone : f.done = true) (hbad : f.failed = true)
    (hgolden : golden = true) : Aborts s (goOnRepair s col r) col false ∧
      ∀ h ∈ ((goOnRepair s col r).part col).images, h.digest = (s.part col).job.digest → h.st = .broken := by
  obtain ⟨rec, hend⟩ := endRefetch_golden_failed hf r hdone hbad hgolden
  rw [goOnRepair_ends htodo hend (todo_rest htodo), fwFault]
  have hvectors := fwEvent_onlyVectors (fwLog (dropTransfers s (fun w => w == .refetch col g golden)) rec) rec.colour.toNat 3
  have hkept := fwEvent_partsKept (fwLog (dropTransfers s (fun w => w == .refetch col g golden)) rec) rec.colour.toNat 3 col
  have hlogged : (fwLog (dropTransfers s (fun w => w == .refetch col g golden)) rec).part col = s.part col := rfl
  have hhits : (fwLog (dropTransfers s (fun w => w == .refetch col g golden)) rec).skovi.rowHits = s.skovi.rowHits := rfl
  generalize fwLog (dropTransfers s (fun w => w == .refetch col g golden)) rec = u at hvectors hkept hlogged hhits ⊢
  generalize fwEvent u rec.colour.toNat 3 = w at hvectors hkept ⊢
  rw [hlogged] at hkept
  have hrows' : ∀ e ∈ w.skovi.rowHits, e.2 < 3 := by
    rw [hvectors, hhits]
    exact hrows
  obtain ⟨hlive, -, hfree⟩ := hawaits
  obtain ⟨haborts, hbroken⟩ := endRepair_broken hrows' (col := col) (by rw [hkept]; exact hlive) (by rw [hkept]; exact hfree)
    (r := { r with todo := r.todo.filter (fun y => y != (g, golden)), failed := true }) rfl
  rw [hkept] at hbroken
  unfold Aborts at haborts ⊢
  rw [hkept] at haborts
  exact ⟨haborts, hbroken⟩

end

/-- STEP_REPAIR of a colour, clause by clause (R349, R357 to R360). -/
theorem exec_stepRepair {s : State} (c : BitVec 4) (hclocked : Clocked s) (hup : s.skovi.up = true) (hrows : ∀ e ∈ s.skovi.rowHits, e.2 < 3) :
    let col := c.toNat
    let y := s.part col
    let j := Instr.stepRepair c .overPorts
    (¬ AwaitsRepair s col → exec j s = .next s) ∧
    (y.repair = none → (s.log.capq ≠ [] ∨ s.log.waiting ≠ []) → exec j s = .next s) ∧
    (AwaitsRepair s col → y.repair = none → y.job.fromWatch = false → s.log.capq = [] → s.log.waiting = [] → s.skovi.records = [] →
      (∀ k ∈ s.jobCores col, (s.core k).settledStep) →
      (y.again → ∃ t, exec j s = .next t ∧ Replays s t col) ∧ (¬ y.again → ∃ t, exec j s = .next t ∧ Aborts s t col true)) ∧
    (∀ (r : Repair) (g : Nat) (golden : Bool) (f : Transfer), AwaitsRepair s col → y.repair = some r → r.failed = false → r.todo = [(g, golden)] →
      s.transfersOf (.refetch col g golden) = [f] →
      (f.done = false → ∃ t, exec j s = .next t ∧ t.mem = s.mem ∧ (t.part col).repair = some r ∧ t.cores = s.cores) ∧
      (f.done = true → f.failed = false → y.again → (∀ k ∈ s.jobCores col, (s.core k).chans = [] ∧ (s.core k).credits = []) →
        ∃ t, exec j s = .next t ∧ Replays s t col ∧
          ∀ a, t.byteAt a = if g * 64 ≤ a ∧ a < g * 64 + 64 then (takePad 64 f.bytes).getD (a - g * 64) 0 else s.byteAt a) ∧
      (f.done = true → f.failed = true → golden = false → (s.transfersOf (.refetch col g true)) = [] →
        ∃ t, exec j s = .next t ∧ (t.part col).repair = some { r with todo := [(g, true)] } ∧ t.mem = s.mem) ∧
      (f.done = true → f.failed = true → golden = true → ∃ t, exec j s = .next t ∧ Aborts s t col false ∧
        ∀ h ∈ (t.part col).images, h.digest = y.job.digest → h.st = .broken)) := by
  refine ⟨exec_stepRepair_idle hclocked hup c, exec_stepRepair_queued hclocked hup c,
    fun hawaits hr hw hcapq hwaiting hrecords hsettled => ?_, fun r g golden f hawaits hr hfailed htodo hf => ?_⟩
  · have hexec := exec_stepRepair_begins hclocked hup c hawaits hr hw hcapq hwaiting hrecords hsettled
    exact ⟨fun hagain => ⟨_, hexec, (endRepair_replays hrows hagain rfl).1⟩, fun hagain => ⟨_, hexec, endRepair_aborts hrows hawaits hagain rfl rfl⟩⟩
  · have hexec := exec_stepRepair_goesOn hclocked hup c hawaits hr
    refine ⟨fun hdone => ⟨_, hexec, ?_⟩, fun hdone hok hagain hidle => ⟨_, hexec, ?_⟩, fun hdone hbad hgolden _ => ⟨_, hexec, ?_⟩,
      fun hdone hbad hgolden => ⟨_, hexec, ?_⟩⟩
    · rw [goOnRepair_waits htodo hf hdone, part_repairOpen]
      exact ⟨rfl, rfl, rfl⟩
    · exact goOnRepair_replays htodo hf hrows hfailed hdone hok hagain hidle
    · exact goOnRepair_asks_golden htodo hf hdone hbad hgolden
    · exact goOnRepair_aborts htodo hf hrows hawaits hdone hbad hgolden

/-! ### JOB_LAUNCH that begins -/

/-- JOB_LAUNCH answers the first of checks 1 to 4 that fails, goes on at once on this die alone, or asks the other dies (R347). -/
theorem exec_jobLaunch {s : State} {mb : Fin 16} {i : BitVec 16} {p : List Byte} (h : Begins s mb i 0x120 [(0, 36, 0xFF), (40, 8, 0xFF)] p)
    (tests : List ArrayReport) :
    let dies : Word := BitVec.ofNat 64 (leField p 40 8)
    let x := s.part mb.val
    let j := Instr.jobLaunch mb i .overPorts tests
    let gives := fun (st : BitVec 16) => exec j s = .next (responded s mb.val i st [])
    (x.image (BitVec.ofNat 256 (leField p 0 32)) = none → gives 0x0204) ∧
    ∀ g, x.image (BitVec.ofNat 256 (leField p 0 32)) = some g →
      (g.st ≠ .committed → gives 0x0206) ∧
      (g.st = .committed → x.job.live = true → gives 0x0205) ∧
      (g.st = .committed → x.job.live = false → (bit dies s.ownId.toNat = false ∨ field dies 60 4 ≠ 0) → gives 0x0101) ∧
      (g.st = .committed → x.job.live = false → bit dies s.ownId.toNat = true → field dies 60 4 = 0 →
        (s.diesOk dies = false → gives 0x0301) ∧
        (s.diesOk dies = true → s.launchAsked p = [] → exec j s = exec j (serve (toPhase s mb.val i 1) mb.val)) ∧
        (s.diesOk dies = true → s.launchAsked p ≠ [] → ∃ t c, exec j s = .next t ∧ t.atWork mb.val i 0x120 = some c ∧
          c.awaited = (s.launchAsked p).map (BitVec.ofNat 6) ∧
          c.replies = [] ∧ t.cores = s.cores ∧ t.parts = s.parts ∧ t.tx.length = s.tx.length + (s.launchAsked p).length ∧
          ∀ k : Nat, k < (s.launchAsked p).length → ∃ m, t.tx[s.tx.length + k]? = some { msg := m, port := none } ∧
            m.dst = BitVec.ofNat 6 ((s.launchAsked p).getD k 0) ∧ m.op = 6 ∧
            m.data = [0x34, BitVec.ofNat 8 mb.val] ++ leBytes 2 (s.skovi.seqno.toNat + k) ++ leBytes 4 (leField p 32 4) ++ leBytes 32 (leField p 0 32) ++
              leBytes 8 (leField p 40 8))) := by
  have hj := jobLaunch_waits mb i tests
  refine ⟨fun hnone => hj.exec_refused h.1 h.2.1 (beginLaunch_unknown hnone), fun g hg => ?_⟩
  obtain ⟨hstate, hbusy, hfield, hdies⟩ := launchFirst_eq s mb.val g (BitVec.ofNat 64 (leField p 40 8))
  have hrefused : ∀ {st : BitVec 16}, launchFirst s mb.val g (BitVec.ofNat 64 (leField p 40 8)) = st → st ≠ 0 →
      exec (.jobLaunch mb i .overPorts tests) s = .next (responded s mb.val i st []) := fun hst hne =>
    hj.exec_refused h.1 h.2.1 ((beginLaunch_refused hg (by rwa [hst])).trans (by rw [hst]))
  refine ⟨fun hc => hrefused (hstate hc) (by decide), fun hc hl => hrefused (hbusy hc hl) (by decide),
    fun hc hl hb => hrefused (hfield hc hl hb) (by decide), fun hc hl hb hf => ⟨fun hd => ?_, fun hd hfar => ?_, fun hd hfar => ?_⟩⟩
  · exact hrefused ((hdies hc hl hb hf).trans (if_neg (Bool.eq_false_iff.mp hd))) (by decide)
  · exact exec_jobLaunch_alone h tests hg ((hdies hc hl hb hf).trans (if_pos hd)) hfar
  · exact exec_jobLaunch_asks h tests hg ((hdies hc hl hb hf).trans (if_pos hd)) hfar

/-- Settles O54: a launch by its checks and its steps, a replay core by core, an abort by the reset that it begins. -/
theorem jobsLaunchReplayAndAbort : Obligations.JobsLaunchReplayAndAbort := by
  unfold Obligations.JobsLaunchReplayAndAbort
  intro s mb i p
  refine ⟨fun h tests => exec_jobLaunch h tests, fun hclocked hup c tests hc => exec_jobLaunch_atWork hclocked hup tests hc, exec_jobAbort,
    fun h => ⟨(exec_jobStatus h).1, fun hid => ⟨(exec_jobStatus h).2 hid, jobReport_fields s mb.val⟩⟩, partTelemetry_concludes s mb i,
    exec_partTelemetry, fun c hclocked hup hrows => exec_stepRepair c hclocked hup hrows⟩

end Sys2Proof.Machine
end

section
/-!
SUPPORT. The memory in its canonical form along every step (R128, R129; assumption 15): the rules of the commands put together, O3
and O4.
-/
namespace Sys2Proof.Machine

/-- A CCLK cycle leaves the memory. -/
@[simp] theorem tick_mem (s : State) : (tick s).mem = s.mem := by
  unfold tick
  split
  · rfl
  · split
    · rfl
    · split <;> rfl

/-- Every command keeps the memory canonical: the rule of its own meaning. -/
theorem exec_keeps : ∀ (i : Instr) (s : State), s.mem.wf = true → Keeps (exec i s)
  | .mastFrame src colour slot, s, h => execMastFrame_wf src colour slot s h
  | .holdoverEntry, s, h => execHoldoverEntry_wf s h
  | .extrapolatedStroke, s, h => execExtrapolatedStroke_wf s h
  | .mastLostEntry, s, h => execMastLostEntry_wf s h
  | .periodChangeEffective, s, h => execPeriodChangeEffective_wf s h
  | .bookingFire, s, h => execBookingFire_wf s h
  | .refreshSlice v upper, s, h => execRefreshSlice_wf v upper s h
  | .portEnable p, s, h => execPortEnable_wf p s h
  | .trainingComplete p r, s, h => execTrainingComplete_wf p r s h
  | .initResend p path, s, h => execInitResend_wf p path s h
  | .initReceive p path counts echo, s, h => execInitReceive_wf p path counts echo s h
  | .msgFlitReceive p path flit, s, h => execMsgFlitReceive_wf p path flit s h
  | .nakReceive p path seq t, s, h => execNakReceive_wf p path seq t s h
  | .nopReceive p path t, s, h => execNopReceive_wf p path t s h
  | .replayTimer p path, s, h => execReplayTimer_wf p path s h
  | .ackTrailerDue p path, s, h => execAckTrailerDue_wf p path s h
  | .idleNop p, s, h => execIdleNop_wf p s h
  | .flitTransmit p path, s, h => execFlitTransmit_wf p path s h
  | .retrainEntry p, s, h => execRetrainEntry_wf p s h
  | .retrainAttemptDone p ok lanes, s, h => execRetrainAttemptDone_wf p ok lanes s h
  | .linkDown p, s, h => execLinkDown_wf p s h
  | .queuedMessageReroute, s, h => execQueuedMessageReroute_wf s h
  | .sidebandUp p, s, h => execSidebandUp_wf p s h
  | .sidebandDown p, s, h => execSidebandDown_wf p s h
  | .sidebandSilence p, s, h => execSidebandSilence_wf p s h
  | .linkStateMessage p, s, h => execLinkStateMessage_wf p s h
  | .vc3PathMove p, s, h => execVc3PathMove_wf p s h
  | .requestTimeout tag, s, h => execRequestTimeout_wf tag s h
  | .writeMessage m, s, h => execWriteMessage_wf m s h
  | .readMessage m, s, h => execReadMessage_wf m s h
  | .ledgerMessage m, s, h => execLedgerMessage_wf m s h
  | .readDataReceive m, s, h => execReadDataReceive_wf m s h
  | .writeAckReceive m, s, h => execWriteAckReceive_wf m s h
  | .fenceProbe m, s, h => execFenceProbe_wf m s h
  | .ctrlFlitReceive m, s, h => execCtrlFlitReceive_wf m s h
  | .pennantLinkReceive p ll pn, s, h => execPennantLinkReceive_wf p ll pn s h
  | .confirmReqReceive p src pn, s, h => execConfirmReqReceive_wf p src pn s h
  | .confirmAckReceive p src pn, s, h => execConfirmAckReceive_wf p src pn s h
  | .fencePennantReceive pn, s, h => execFencePennantReceive_wf pn s h
  | .reinstatePennantReceive pn, s, h => execReinstatePennantReceive_wf pn s h
  | .pennantPeriodicSend p, s, h => execPennantPeriodicSend_wf p s h
  | .pennantTriggeredSend p, s, h => execPennantTriggeredSend_wf p s h
  | .partnerSilence p, s, h => execPartnerSilence_wf p s h
  | .handshakeTimeout id, s, h => execHandshakeTimeout_wf id s h
  | .confirmHoldExpiry id, s, h => execConfirmHoldExpiry_wf id s h
  | .epochIncrement, s, h => execEpochIncrement_wf s h
  | .assignerTakeover, s, h => execAssignerTakeover_wf s h
  | .idAssignRound, s, h => execIdAssignRound_wf s h
  | .routeRecompute, s, h => execRouteRecompute_wf s h
  | .corePowerUpDone c, s, h => execCorePowerUpDone_wf c s h
  | .layerPowerUpDone l, s, h => execLayerPowerUpDone_wf l s h
  | .icacheFill c, s, h => execIcacheFill_wf c s h
  | .add c f, s, h => execAdd_wf c f s h
  | .sub c f, s, h => execSub_wf c f s h
  | .and c f, s, h => execAnd_wf c f s h
  | .or c f, s, h => execOr_wf c f s h
  | .xor c f, s, h => execXor_wf c f s h
  | .shl c f, s, h => execShl_wf c f s h
  | .shr c f, s, h => execShr_wf c f s h
  | .sra c f, s, h => execSra_wf c f s h
  | .min c f, s, h => execMin_wf c f s h
  | .max c f, s, h => execMax_wf c f s h
  | .minu c f, s, h => execMinu_wf c f s h
  | .maxu c f, s, h => execMaxu_wf c f s h
  | .seq c f, s, h => execSeq_wf c f s h
  | .slt c f, s, h => execSlt_wf c f s h
  | .sltu c f, s, h => execSltu_wf c f s h
  | .lih c f, s, h => execLih_wf c f s h
  | .sld c f, s, h => execSld_wf c f s h
  | .sst c f, s, h => execSst_wf c f s h
  | .sldc c f, s, h => execSldc_wf c f s h
  | .beq c f, s, h => execBeq_wf c f s h
  | .bne c f, s, h => execBne_wf c f s h
  | .blt c f, s, h => execBlt_wf c f s h
  | .bge c f, s, h => execBge_wf c f s h
  | .bltu c f, s, h => execBltu_wf c f s h
  | .bgeu c f, s, h => execBgeu_wf c f s h
  | .jmp c f, s, h => execJmp_wf c f s h
  | .jmpr c f, s, h => execJmpr_wf c f s h
  | .loop c f, s, h => execLoop_wf c f s h
  | .csrr c f, s, h => execCsrr_wf c f s h
  | .csrw c f, s, h => execCsrw_wf c f s h
  | .waitAll c f, s, h => execWaitAll_wf c f s h
  | .waitAny c f, s, h => execWaitAny_wf c f s h
  | .waitBar c f, s, h => execWaitBar_wf c f s h
  | .waitBook c f, s, h => execWaitBook_wf c f s h
  | .waitFill c f, s, h => execWaitFill_wf c f s h
  | .waitComplete c, s, h => execWaitComplete_wf c s h
  | .signal c f, s, h => execSignal_wf c f s h
  | .arrive c f, s, h => execArrive_wf c f s h
  | .fenceC c f, s, h => execFenceC_wf c f s h
  | .fenceD c f, s, h => execFenceD_wf c f s h
  | .fenceP c f, s, h => execFenceP_wf c f s h
  | .fenceComplete c, s, h => execFenceComplete_wf c s h
  | .cinv c f, s, h => execCinv_wf c f s h
  | .book c f, s, h => execBook_wf c f s h
  | .bookrd c f, s, h => execBookrd_wf c f s h
  | .bookrds c f, s, h => execBookrds_wf c f s h
  | .stepBegin c f, s, h => execStepBegin_wf c f s h
  | .stepEnd c f, s, h => execStepEnd_wf c f s h
  | .halt c f, s, h => execHalt_wf c f s h
  | .haltSettle c, s, h => execHaltSettle_wf c s h
  | .matAcc c f w1, s, h => execMatAcc_wf c f w1 s h
  | .matFull c f w1, s, h => execMatFull_wf c f w1 s h
  | .maclr c f, s, h => execMaclr_wf c f s h
  | .madrain c f, s, h => execMadrain_wf c f s h
  | .maadd c f, s, h => execMaadd_wf c f s h
  | .mastat c f, s, h => execMastat_wf c f s h
  | .maTileStart c a, s, h => execMaTileStart_wf c a s h
  | .maDrain c a, s, h => execMaDrain_wf c a s h
  | .setvl c f, s, h => execSetvl_wf c f s h
  | .vld c f, s, h => execVld_wf c f s h
  | .vst c f, s, h => execVst_wf c f s h
  | .vmov c f, s, h => execVmov_wf c f s h
  | .vadd c f, s, h => execVadd_wf c f s h
  | .vsub c f, s, h => execVsub_wf c f s h
  | .vmul c f, s, h => execVmul_wf c f s h
  | .vfma c f, s, h => execVfma_wf c f s h
  | .vdiv c f, s, h => execVdiv_wf c f s h
  | .vsqrt c f, s, h => execVsqrt_wf c f s h
  | .vmin c f, s, h => execVmin_wf c f s h
  | .vmax c f, s, h => execVmax_wf c f s h
  | .vand c f, s, h => execVand_wf c f s h
  | .vor c f, s, h => execVor_wf c f s h
  | .vxor c f, s, h => execVxor_wf c f s h
  | .vshl c f, s, h => execVshl_wf c f s h
  | .vshr c f, s, h => execVshr_wf c f s h
  | .vcmp c f, s, h => execVcmp_wf c f s h
  | .vmask c f, s, h => execVmask_wf c f s h
  | .vpopc c f, s, h => execVpopc_wf c f s h
  | .vcvt c f, s, h => execVcvt_wf c f s h
  | .vcompress c f, s, h => execVcompress_wf c f s h
  | .vexpand c f, s, h => execVexpand_wf c f s h
  | .vscan c f, s, h => execVscan_wf c f s h
  | .vscanseg c f, s, h => execVscanseg_wf c f s h
  | .vtrn c f, s, h => execVtrn_wf c f s h
  | .vacc c f, s, h => execVacc_wf c f s h
  | .veStart c, s, h => execVeStart_wf c s h
  | .rclr c f, s, h => execRclr_wf c f s h
  | .rsum c f, s, h => execRsum_wf c f s h
  | .rrd c f, s, h => execRrd_wf c f s h
  | .rxst c f, s, h => execRxst_wf c f s h
  | .rxadd c f, s, h => execRxadd_wf c f s h
  | .rmax c f, s, h => execRmax_wf c f s h
  | .rmin c f, s, h => execRmin_wf c f s h
  | .ror c f, s, h => execRor_wf c f s h
  | .ruStart c, s, h => execRuStart_wf c s h
  | .sucfg c f, s, h => execSucfg_wf c f s h
  | .sutab c f, s, h => execSutab_wf c f s h
  | .suflt c f, s, h => execSuflt_wf c f s h
  | .susel c f, s, h => execSusel_wf c f s h
  | .sutopk c f, s, h => execSutopk_wf c f s h
  | .suscan c f w1, s, h => execSuscan_wf c f w1 s h
  | .suStart c, s, h => execSuStart_wf c s h
  | .engineInstructionComplete c e, s, h => execEngineInstructionComplete_wf c e s h
  | .mvcfg c f, s, h => execMvcfg_wf c f s h
  | .mvpost c f, s, h => execMvpost_wf c f s h
  | .mvrel c f, s, h => execMvrel_wf c f s h
  | .descriptorStart c ch, s, h => execDescriptorStart_wf c ch s h
  | .moverPieceStart c ch, s, h => execMoverPieceStart_wf c ch s h
  | .descriptorComplete c ch, s, h => execDescriptorComplete_wf c ch s h
  | .descriptorHalt c ch, s, h => execDescriptorHalt_wf c ch s h
  | .windowGrant w, s, h => execWindowGrant_wf w s h
  | .windowGrantSlot src colour slot, s, h => execWindowGrantSlot_wf src colour slot s h
  | .windowReleaseSlot src colour slot, s, h => execWindowReleaseSlot_wf src colour slot s h
  | .piecePerformed, s, h => execPiecePerformed_wf s h
  | .barrierArrivalSlot c colour slot, s, h => execBarrierArrivalSlot_wf c colour slot s h
  | .counterLocalComplete n, s, h => execCounterLocalComplete_wf n s h
  | .dieArrivalSlot src colour slot, s, h => execDieArrivalSlot_wf src colour slot s h
  | .hoistSlotMember src colour slot, s, h => execHoistSlotMember_wf src colour slot s h
  | .hoistReceive c slot, s, h => execHoistReceive_wf c slot s h
  | .signalSlotReceive src colour slot, s, h => execSignalSlotReceive_wf src colour slot s h
  | .interruptCoalesce, s, h => execInterruptCoalesce_wf s h
  | .interruptSend, s, h => execInterruptSend_wf s h
  | .partitionDrainEnd colour, s, h => execPartitionDrainEnd_wf colour s h
  | .mbWrite m, s, h => execMbWrite_wf m s h
  | .mbRead m, s, h => execMbRead_wf m s h
  | .reqTailWrite mb v, s, h => execReqTailWrite_wf mb v s h
  | .rspHeadWrite mb v, s, h => execRspHeadWrite_wf mb v s h
  | .doorbell mb, s, h => execDoorbell_wf mb s h
  | .mailboxPoll mb, s, h => execMailboxPoll_wf mb s h
  | .commandAccept mb, s, h => execCommandAccept_wf mb s h
  | .mbNotify mb, s, h => execMbNotify_wf mb s h
  | .mbPost mb slot, s, h => execMbPost_wf mb slot s h
  | .heartbeatTick, s, h => execHeartbeatTick_wf s h
  | .skoviRestart cause, s, h => execSkoviRestart_wf cause s h
  | .skoviRestartDone, s, h => execSkoviRestartDone_wf s h
  | .identify mb ix, s, h => execIdentify_wf mb ix s h
  | .fwInfo mb ix, s, h => execFwInfo_wf mb ix s h
  | .fwStage mb ix image, s, h => execFwStage_wf mb ix image s h
  | .fwActivate mb ix, s, h => execFwActivate_wf mb ix s h
  | .fwActivateFallback, s, h => execFwActivateFallback_wf s h
  | .dieState mb ix, s, h => execDieState_wf mb ix s h
  | .warmReset mb ix, s, h => execWarmReset_wf mb ix s h
  | .warmResetPerform, s, h => execWarmResetPerform_wf s h
  | .mastConfig mb ix, s, h => execMastConfig_wf mb ix s h
  | .mastStatus mb ix, s, h => execMastStatus_wf mb ix s h
  | .linkStatus mb ix, s, h => execLinkStatus_wf mb ix s h
  | .linkReset mb ix, s, h => execLinkReset_wf mb ix s h
  | .peerTable mb ix sent, s, h => execPeerTable_wf mb ix sent s h
  | .dieFence mb ix, s, h => execDieFence_wf mb ix s h
  | .dieReinstate mb ix, s, h => execDieReinstate_wf mb ix s h
  | .partCreate mb ix, s, h => execPartCreate_wf mb ix s h
  | .partDestroy mb ix, s, h => execPartDestroy_wf mb ix s h
  | .partReset mb ix, s, h => execPartReset_wf mb ix s h
  | .partQuery mb ix, s, h => execPartQuery_wf mb ix s h
  | .qosSet mb ix, s, h => execQosSet_wf mb ix s h
  | .powerPlan mb ix, s, h => execPowerPlan_wf mb ix s h
  | .telemetry mb ix sent, s, h => execTelemetry_wf mb ix sent s h
  | .errlogRead mb ix sent, s, h => execErrlogRead_wf mb ix sent s h
  | .errlogClear mb ix, s, h => execErrlogClear_wf mb ix s h
  | .arrayMap mb ix, s, h => execArrayMap_wf mb ix s h
  | .debugChallenge mb ix, s, h => execDebugChallenge_wf mb ix s h
  | .debugUnlock mb ix, s, h => execDebugUnlock_wf mb ix s h
  | .debugChallengeExpiry, s, h => execDebugChallengeExpiry_wf s h
  | .imageStage mb ix man share lends, s, h => execImageStage_wf mb ix man share lends s h
  | .imageCommit mb ix, s, h => execImageCommit_wf mb ix s h
  | .imageQuery mb ix, s, h => execImageQuery_wf mb ix s h
  | .imageEvict mb ix, s, h => execImageEvict_wf mb ix s h
  | .rqCreate mb ix, s, h => execRqCreate_wf mb ix s h
  | .rqBind mb ix, s, h => execRqBind_wf mb ix s h
  | .jobLaunch mb ix checks retests, s, h => execJobLaunch_wf mb ix checks retests s h
  | .jobAbort mb ix, s, h => execJobAbort_wf mb ix s h
  | .jobStatus mb ix, s, h => execJobStatus_wf mb ix s h
  | .indexAttach mb ix, s, h => execIndexAttach_wf mb ix s h
  | .indexDetach mb ix, s, h => execIndexDetach_wf mb ix s h
  | .intrConfig mb ix, s, h => execIntrConfig_wf mb ix s h
  | .replayPolicy mb ix, s, h => execReplayPolicy_wf mb ix s h
  | .partTelemetry mb ix sent, s, h => execPartTelemetry_wf mb ix sent s h
  | .peerReply m, s, h => execPeerReply_wf m s h
  | .lendReq m, s, h => execLendReq_wf m s h
  | .lendRelease m, s, h => execLendRelease_wf m s h
  | .auditSnap m, s, h => execAuditSnap_wf m s h
  | .launchCheck m, s, h => execLaunchCheck_wf m s h
  | .jobEvent m, s, h => execJobEvent_wf m s h
  | .peerRequestResend die seqno, s, h => execPeerRequestResend_wf die seqno s h
  | .stepRepair colour refetch, s, h => execStepRepair_wf colour refetch s h
  | .capqPop, s, h => execCapqPop_wf s h
  | .hlCtrlReset p, s, h => execHlCtrlReset_wf p s h
  | .hlCtrlDisable p, s, h => execHlCtrlDisable_wf p s h
  | .hlCtrlEnable p, s, h => execHlCtrlEnable_wf p s h
  | .mastPeriodWrite period effective, s, h => execMastPeriodWrite_wf period effective s h
  | .dbgRead ctrl, s, h => execDbgRead_wf ctrl s h
  | .dbgWrite ctrl, s, h => execDbgWrite_wf ctrl s h
  | .cuRun c, s, h => execCuRun_wf c s h
  | .cuStop c, s, h => execCuStop_wf c s h
  | .cuCoreReset c, s, h => execCuCoreReset_wf c s h
  | .cuEngineReset c e, s, h => execCuEngineReset_wf c e s h
  | .cuReplay c, s, h => execCuReplay_wf c s h
  | .registerWrite addr data, s, h => execRegisterWrite_wf addr data s h
  | .porstAssert, s, _ => execPorstAssert_wf s
  | .porstRelease testMode, s, h => execPorstRelease_wf testMode s h
  | .fwReq p m, s, h => execFwReq_wf p m s h
  | .fwData p m, s, h => execFwData_wf p m s h
  | .fwReqResend, s, h => execFwReqResend_wf s h
  | .bootSourceRetry, s, h => execBootSourceRetry_wf s h
  | .bootStageDone r, s, h => execBootStageDone_wf r s h
  | .refclkLoss, s, h => execRefclkLoss_wf s h
  | .refclkReturn, s, h => execRefclkReturn_wf s h
  | .thermalUpdate temps power, s, h => execThermalUpdate_wf temps power s h
  | .thermtrip sensor, s, h => execThermtrip_wf sensor s h
  | .railsReturn, s, h => execRailsReturn_wf s h
  | .bypass, s, h => execBypass_wf s h
  | .idcode, s, h => execIdcode_wf s h
  | .sample, s, h => execSample_wf s h
  | .bootstat, s, h => execBootstat_wf s h
  | .preload, s, h => execPreload_wf s h
  | .extest, s, h => execExtest_wf s h
  | .hlloop, s, h => execHlloop_wf s h
  | .stacksel l, s, h => execStacksel_wf l s h
  | .mbist, s, h => execMbist_wf s h
  | .corescan, s, h => execCorescan_wf s h
  | .partnerTrainingRequest p ask, s, h => execPartnerTrainingRequest_wf p ask s h
  | .constantCacheFill c, s, h => execConstantCacheFill_wf c s h
  | .debugAccessComplete, s, h => execDebugAccessComplete_wf s h
  | .illegalOpcode c w0 w1, s, h => execIllegalOpcode_wf c w0 w1 s h
  | .unknownOpcodeCommand mb ix, s, h => execUnknownOpcodeCommand_wf mb ix s h

/-- Settles O3: the memory after reset lists no byte. -/
theorem resetMemoryIsCanonical : Obligations.ResetMemoryIsCanonical := reset_wf

/-- Settles O4: a cycle of the clock leaves the memory, and every command keeps it canonical. -/
theorem everyStepKeepsMemoryCanonical : Obligations.EveryStepKeepsMemoryCanonical := by
  unfold Obligations.EveryStepKeepsMemoryCanonical
  intro s t hwf hstep
  cases hp : s.pending with
  | nil =>
    rw [step_nil hp] at hstep
    cases hstep
    rwa [tick_mem]
  | cons i rest =>
    rw [step, hp] at hstep
    exact exec_keeps i { s with pending := rest } hwf t hstep

end Sys2Proof.Machine
end

section
/-!
SUPPORT. The commands of a partition for its queues and indices (R120, R244 to R246, R344 to R346): what firmware's own reads leave,
RQ_CREATE, RQ_BIND, INDEX_ATTACH and INDEX_DETACH.
-/
namespace Sys2Proof.Machine

open Sys2Proof.Stated

/-! ### Firmware's reads (R120; assumption 127) -/

/-- From s to t only the log changes. -/
def OnlyLog (s t : State) : Prop := t = { s with log := t.log }

theorem OnlyLog.foldl {α : Type} {f : State → α → State} (hf : ∀ s x, OnlyLog s (f s x)) (l : List α) (s : State) : OnlyLog s (l.foldl f s) :=
  List.foldlRecOn (motive := OnlyLog s) l f rfl fun u hu x _ => by
    have hx := hf u x
    unfold OnlyLog at *
    rw [hx, hu]

theorem detectRemote_onlyLog (s : State) (colour : BitVec 4) (a n : Nat) (peer : Option (BitVec 6)) : OnlyLog s (detectRemote s colour a n peer) := by
  rw [detectRemote]
  refine OnlyLog.foldl (fun s g => ?_) _ _
  rfl

theorem fwReads_onlyLog (s : State) (rs : List (Nat × Nat)) : OnlyLog s (fwReads s rs) := by
  rw [fwReads]
  refine OnlyLog.foldl (fun s r => ?_) _ _
  exact detectRemote_onlyLog ..

/-- Memory without a failed granule or row logs nothing (R118, R120). -/
theorem fwReads_sound {s : State} (hbad : s.mem.bad = []) (hcm : s.mem.cmBad = []) (rs : List (Nat × Nat)) : fwReads s rs = s := by
  have hread : ∀ a n, detectRemote s 0 a n none = s := fun a n => by
    rw [detectRemote, State.failedIn, hbad, hcm]
    rfl
  exact foldl_eq_self fun r _ => hread r.1 r.2

theorem bytesAt_of_mem {s t : State} (h : t.mem = s.mem) (a n : Nat) : t.bytesAt a n = s.bytesAt a n :=
  bytesAt_congr a n fun _ _ _ => by rw [State.byteAt, State.byteAt, h]

/-! ### Request queues (R344, R345) -/

section
variable {s : State} {mb : Fin 16} {i : BitVec 16} {p : List Byte}

/-- The queue that RQ_CREATE records. -/
def queueOf (mb : Nat) (p : List Byte) : ReqQueue :=
  { used := true, colour := BitVec.ofNat 4 mb, core := leField p 1 1, base := leField p 8 8, entryLog2 := leField p 16 1, depthLog2 := leField p 17 1 }

/-- The ring of a queue lies in the core memory of a core of the partition, with sizes in range. -/
def ReqQueue.Fits (r : ReqQueue) (x : Partn) : Prop :=
  r.core < 48 ∧ bit x.cores r.core = true ∧ 6 ≤ r.entryLog2 ∧ r.entryLog2 ≤ 12 ∧ 1 ≤ r.depthLog2 ∧ r.depthLog2 ≤ 12 ∧
    cmBase r.core ≤ r.base ∧ r.base + r.bytes ≤ cmBase r.core + 0x600000

/-- The check of RQ_CREATE that a ring fails. -/
def ReqQueue.unfit (r : ReqQueue) (x : Partn) : Bool :=
  48 ≤ r.core || !bit x.cores r.core || r.entryLog2 < 6 || 12 < r.entryLog2 || r.depthLog2 < 1 || 12 < r.depthLog2 ||
    r.base < cmBase r.core || cmBase r.core + 0x600000 < r.base + r.bytes

theorem ReqQueue.unfit_eq_false {r : ReqQueue} {x : Partn} : r.unfit x = false ↔ r.Fits x := by
  simp only [ReqQueue.unfit, ReqQueue.Fits, Bool.or_eq_false_iff, decide_eq_false_iff_not, Bool.not_eq_false', not_lt, not_le, and_assoc]

/-- The die with the queue that RQ_CREATE records. -/
def withQueue (s : State) (mb : Nat) (p : List Byte) : State := { s with queues := Table.set {} s.queues (leField p 0 1) (queueOf mb p) }

/-- RQ_CREATE by its checks, in order. -/
theorem exec_rqCreate (h : Runs s mb i 0x110 [(0, 2, 0x3F), (8, 10, 0xFF)] p) :
    let col := mb.val
    let x := s.part col
    let y := s.rqueue (leField p 0 1)
    let t := withQueue s col p
    let gives := fun (u : State) (st : BitVec 16) => exec (.rqCreate mb i) s = .next (responded u col i st [])
    (¬ (queueOf col p).Fits x → gives s 0x0101) ∧
    ((queueOf col p).Fits x → y.used = true → gives s (if y.colour.toNat = col then 0x0203 else 0x0202)) ∧
    ((queueOf col p).Fits x → y.used = false → x.job.live = true → gives s 0x0205) ∧
    ((queueOf col p).Fits x → y.used = false → x.job.live = false →
      (64 < (regionTable t col x).length → gives s 0x0201) ∧
      ((regionTable t col x).length ≤ 64 → gives { t with regions := Table.set [] s.regions col (regionTable t col x) } 0)) := by
  intro col x y t gives
  have hexec : exec (.rqCreate mb i) s = .next (serve (
      if (queueOf col p).unfit x then answer s col i 0x0101 []
      else if y.used && y.colour.toNat != col then answer s col i 0x0202 []
      else if y.used then answer s col i 0x0203 []
      else if x.job.live then answer s col i 0x0205 []
      else if 64 < (regionTable t col x).length then answer s col i 0x0201 []
      else answer { t with regions := Table.set [] s.regions col (regionTable t col x) } col i 0 []) col) := by
    rw [show exec (.rqCreate mb i) s = execRqCreate mb i s from rfl, execRqCreate, live_runCmd_of_Runs h]
    rfl
  simp only [gives, hexec, responded, ← ReqQueue.unfit_eq_false]
  refine ⟨fun hbad => ?_, fun hfits hused => ?_, fun hfits hused hlive => ?_, fun hfits hused hlive => ⟨fun hmany => ?_, fun hroom => ?_⟩⟩
  · rw [if_pos (by simpa using hbad)]
  · by_cases hcol : y.colour.toNat = col <;> simp [hfits, hused, hcol]
  · simp [hfits, hused, hlive]
  · simp [hfits, hused, hlive, hmany]
  · simp [hfits, hused, hlive, Nat.not_lt.mpr hroom]

/-- RQ_BIND by its checks, in order; a binding reads HEAD of the ring. -/
theorem exec_rqBind (h : Runs s mb i 0x111 [(0, 1, 0x3F), (1, 1, 0x01), (2, 2, 0xFF)] p) :
    let col := mb.val
    let q := leField p 0 1
    let rows := leField p 2 2
    let r := s.rqueue q
    let form := 1 ≤ rows ∧ rows ≤ 4096
    let mine := r.used = true ∧ r.colour.toNat = col
    let busy := (s.part col).declares (fun y => y.queues.contains (BitVec.ofNat 6 q)) = true
    let gives := fun (t : State) (st : BitVec 16) => exec (.rqBind mb i) s = .next (responded t col i st [])
    (¬ form → gives s 0x0101) ∧
    (form → ¬ mine → gives s 0x0204) ∧
    (form → mine → busy → gives s 0x0205) ∧
    (form → mine → ¬ busy → leField p 1 1 = 1 → gives (s.setRqueue q { r with bound := false, rows := 0, cut := 0 }) 0) ∧
    (form → mine → ¬ busy → leField p 1 1 ≠ 1 → gives ((fwReads s [(r.base + 8, 2)]).setRqueue q
      { r with bound := true, rows := rows, cut := BitVec.ofNat 16 (leNat (s.bytesAt (r.base + 8) 2)) }) 0) := by
  intro col q rows r form mine busy gives
  have hform : (rows = 0 || 4096 < rows) = true ↔ ¬ form := by
    simp only [form, Bool.or_eq_true, decide_eq_true_eq]
    omega
  have hmine : (!r.used || r.colour.toNat != col) = true ↔ ¬ mine := by
    simp only [mine, Bool.or_eq_true, Bool.not_eq_true', ← Bool.not_eq_true, bne_iff_ne, ne_eq, not_and_or]
  have hbytes : (fwReads s [(r.base + 8, 2)]).bytesAt (r.base + 8) 2 = s.bytesAt (r.base + 8) 2 := bytesAt_of_mem (by rw [fwReads_onlyLog]) _ _
  have hexec : exec (.rqBind mb i) s = .next (serve (
      if (rows = 0 || 4096 < rows) = true then answer s col i 0x0101 []
      else if (!r.used || r.colour.toNat != col) = true then answer s col i 0x0204 []
      else if busy then answer s col i 0x0205 []
      else
        let u := if (leField p 1 1 == 1) = true then s else fwReads s [(r.base + 8, 2)]
        answer (u.setRqueue q (if (leField p 1 1 == 1) = true then { r with bound := false, rows := 0, cut := 0 }
          else { r with bound := true, rows := rows, cut := BitVec.ofNat 16 (leNat (u.bytesAt (r.base + 8) 2)) })) col i 0 []) col) := by
    rw [show exec (.rqBind mb i) s = execRqBind mb i s from rfl, execRqBind, live_runCmd_of_Runs h]
    rfl
  simp only [gives, hexec, responded, hform, hmine]
  refine ⟨fun hbad => ?_, fun hok hnot => ?_, fun hok hown hbusy => ?_, fun hok hown hidle hun => ?_, fun hok hown hidle hun => ?_⟩
  · rw [if_pos hbad]
  · rw [if_neg (not_not_intro hok), if_pos hnot]
  · rw [if_neg (not_not_intro hok), if_neg (not_not_intro hown), if_pos hbusy]
  · rw [if_neg (not_not_intro hok), if_neg (not_not_intro hown), if_neg hidle]
    simp only [hun, beq_self_eq_true, if_true]
  · rw [if_neg (not_not_intro hok), if_neg (not_not_intro hown), if_neg hidle]
    simp only [beq_eq_false_iff_ne.mpr hun, Bool.false_eq_true, if_false, hbytes]

end

/-! ### Indices (R244 to R246, R346) -/

/-- The check of an index share reads memory, the partition and the die's own ID (R245). -/
theorem indexOk_of_onlyLog {s t : State} (h : OnlyLog s t) (col a : Nat) : indexOk t col a = indexOk s col a := by
  have hbytes : ∀ b n, t.bytesAt b n = s.bytesAt b n := bytesAt_of_mem (by rw [h])
  have howns : ∀ pga n, t.owns col pga n = s.owns col pga n := fun _ _ => by rw [h]; rfl
  have hid : t.ownId = s.ownId := by rw [h]; rfl
  have hdir : ∀ e l, t.dirEntry e l = s.dirEntry e l := fun _ _ => hbytes ..
  have hentry : ∀ cb e, entryOk t col cb e = entryOk s col cb e := fun _ _ => by rw [entryOk, entryOk, howns, howns]
  rw [indexOk, indexOk]
  simp only [hbytes, hdir, howns, hid, hentry]

section
variable {s : State} {mb : Fin 16} {i : BitVec 16} {p : List Byte}

/-- The vectors of all lists of a share, as its directory tells (Table 12-3). -/
def shareVectors (s : State) (h : List Byte) : Nat := (List.range (leField h 8 4)).foldl (fun m l => m + leField (s.dirEntry h l) 21 3) 0

/-- INDEX_ATTACH keeps the header of a share that passes its checks. -/
theorem exec_indexAttach (h : Runs s mb i 0x130 [(0, 1, 0x0F), (8, 8, 0xFF)] p) :
    let col := mb.val
    let x := s.part col
    let n := leField p 0 1
    let a := leField p 8 8
    let u := fwReads s (indexReads s col a)
    let gives := fun (t : State) (st : BitVec 16) (b : List Byte) => exec (.indexAttach mb i) s = .next (responded t col i st b)
    (Table.get [] x.indices n ≠ [] → gives s 0x0203 []) ∧
    (Table.get [] x.indices n = [] → indexOk s col a = false → gives u 0x0307 []) ∧
    (Table.get [] x.indices n = [] → indexOk s col a = true →
      gives (u.modPart col (fun y => { y with indices := Table.set [] y.indices n (s.bytesAt a 64) })) 0
        (leBytes 4 (leField (s.bytesAt a 64) 8 4) ++ leBytes 4 0 ++ leBytes 8 (shareVectors u (s.bytesAt a 64)))) := by
  intro col x n a u gives
  have hu : OnlyLog s u := fwReads_onlyLog ..
  have hbytes : u.bytesAt a 64 = s.bytesAt a 64 := bytesAt_of_mem (by rw [hu]) _ _
  have hexec : exec (.indexAttach mb i) s = .next (serve (
      if Table.get [] x.indices n != [] then answer s col i 0x0203 []
      else if !indexOk u col a then answer u col i 0x0307 []
      else answer (u.modPart col (fun y => { y with indices := Table.set [] y.indices n (u.bytesAt a 64) })) col i 0
        (leBytes 4 (leField (u.bytesAt a 64) 8 4) ++ leBytes 4 0 ++ leBytes 8 (shareVectors u (u.bytesAt a 64)))) col) := by
    rw [show exec (.indexAttach mb i) s = execIndexAttach mb i s from rfl, execIndexAttach, live_runCmd_of_Runs h]
    rfl
  simp only [gives, hexec, responded, hbytes, indexOk_of_onlyLog hu]
  refine ⟨fun hused => ?_, fun hfree hbad => ?_, fun hfree hok => ?_⟩
  · rw [if_pos (bne_iff_ne.mpr hused)]
  · simp [hfree, hbad]
  · simp [hfree, hok]

/-- INDEX_DETACH removes an index that no job of the partition declares. -/
theorem exec_indexDetach (h : Runs s mb i 0x131 [(0, 1, 0x0F)] p) :
    let col := mb.val
    let x := s.part col
    let n := leField p 0 1
    let busy := x.declares (fun y => y.indices.contains (BitVec.ofNat 4 n)) = true
    let gives := fun (t : State) (st : BitVec 16) => exec (.indexDetach mb i) s = .next (responded t col i st [])
    (Table.get [] x.indices n = [] → gives s 0x0204) ∧
    (Table.get [] x.indices n ≠ [] → busy → gives s 0x0202) ∧
    (Table.get [] x.indices n ≠ [] → ¬ busy → gives (s.modPart col (fun y => { y with indices := Table.set [] y.indices n [] })) 0) := by
  intro col x n busy gives
  have hexec : exec (.indexDetach mb i) s = .next (serve (
      if Table.get [] x.indices n == [] then answer s col i 0x0204 []
      else if busy then answer s col i 0x0202 []
      else answer (s.modPart col (fun y => { y with indices := Table.set [] y.indices n [] })) col i 0 []) col) := by
    rw [show exec (.indexDetach mb i) s = execIndexDetach mb i s from rfl, execIndexDetach, live_runCmd_of_Runs h]
    rfl
  simp only [gives, hexec, responded, beq_iff_eq]
  refine ⟨fun hnone => ?_, fun hsome hbusy => ?_, fun hsome hidle => ?_⟩
  · rw [if_pos hnone]
  · rw [if_neg hsome, if_pos hbusy]
  · rw [if_neg hsome, if_neg hidle]

end

end Sys2Proof.Machine
end

section
/-!
SUPPORT. INTR_CONFIG and REPLAY_POLICY (R284, R286, R337, R349), and the settlement of PartitionCommandsKeepTheirRecords.
-/
namespace Sys2Proof.Machine

open Sys2Proof.Stated

/-! ### Vectors installed (R284, R286) -/

/-- A message that a vector forms takes its count, and changes no other vector (R286). -/
theorem formIntr_vectors (s : State) (col v w : Nat) : ∃ c, Table.get {} ((formIntr s col v).part col).vectors w =
    { Table.get {} (s.part col).vectors w with count := c } ∧ (w ≠ v → c = (Table.get {} (s.part col).vectors w).count) := by
  unfold formIntr
  dsimp only
  split
  · exact ⟨_, rfl, fun _ => rfl⟩
  · show ∃ c, Table.get {} ((s.setPart col _).part col).vectors w = _ ∧ _
    rw [State.part_setPart_same, Table.get_set]
    split
    · next hw =>
      subst hw
      exact ⟨0, rfl, fun h => absurd rfl h⟩
    · exact ⟨_, rfl, fun _ => rfl⟩

/-- A vector as an entry names it (Table 14-4). -/
def Vector.Named (y : Vector) (e : List Byte) : Prop :=
  y.src.toNat = leField e 0 1 % 4 ∧ y.mask = (leField e 0 1 / 4 % 2 == 1) ∧ y.coal = (leField e 0 1 / 8 % 2 == 1) ∧
    y.core.toNat = leField e 1 1 ∧ y.flag.toNat = leField e 2 1 ∧ y.event.toNat = leField e 3 1

/-- An entry that is not refused is what the vector that takes it is. -/
theorem Vector.install_named {p : Partn} {e : List Byte} (h : vectorBad p e = false) (now : Word) (x : Vector) (c : BitVec 32) :
    ({ x.install now e with count := c } : Vector).Named e := by
  simp only [vectorBad, Bool.or_eq_false_iff, bne_eq_false_iff_eq, beq_eq_false_iff_ne] at h
  obtain ⟨⟨⟨⟨⟨⟨-, -⟩, hcore⟩, hflag⟩, -⟩, -⟩, -⟩ := h
  have hevent := leField_lt e 3 1
  refine ⟨?_, rfl, rfl, ?_, ?_, ?_⟩ <;> simp only [Vector.install, BitVec.toNat_ofNat] <;> omega

/-- The die with one vector of a colour taking an entry. -/
def withVector (s : State) (col : Nat) (x : Nat × List Byte) : State :=
  s.modPart col (fun p => { p with vectors := Table.set {} p.vectors x.1 ((Table.get {} p.vectors x.1).install s.mast.stroke x.2) })

theorem installVector_eq (col : Nat) (s : State) (x : Nat × List Byte) : installVector col s x =
    if (Table.get {} ((withVector s col x).part col).vectors x.1).coal then withVector s col x else formIntr (withVector s col x) col x.1 := rfl

theorem withVector_vectors (s : State) (col : Nat) (x : Nat × List Byte) (w : Nat) : Table.get {} ((withVector s col x).part col).vectors w =
    if w = x.1 then (Table.get {} (s.part col).vectors x.1).install s.mast.stroke x.2 else Table.get {} (s.part col).vectors w := by
  rw [withVector, State.part_modPart_same, Table.get_set]

/-- An entry changes the vector that takes it, and no other. -/
theorem installVector_vectors (col : Nat) (s : State) (x : Nat × List Byte) :
    (∀ w, w ≠ x.1 → Table.get {} ((installVector col s x).part col).vectors w = Table.get {} (s.part col).vectors w) ∧
    (∀ p, vectorBad p x.2 = false → (Table.get {} ((installVector col s x).part col).vectors x.1).Named x.2) := by
  rw [installVector_eq]
  split
  · refine ⟨fun w hw => by rw [withVector_vectors, if_neg hw], fun p hp => ?_⟩
    rw [withVector_vectors, if_pos rfl]
    exact Vector.install_named hp _ _ _
  · refine ⟨fun w hw => ?_, fun p hp => ?_⟩
    · obtain ⟨c, hc, hsame⟩ := formIntr_vectors (withVector s col x) col x.1 w
      rw [hc, hsame hw, withVector_vectors, if_neg hw]
    · obtain ⟨c, hc, -⟩ := formIntr_vectors (withVector s col x) col x.1 x.1
      rw [hc, withVector_vectors, if_pos rfl]
      exact Vector.install_named hp _ _ _

/-- Entries of different vectors: each vector takes its own, and every other stays as it is. -/
theorem foldl_installVector (col : Nat) (l : List (Nat × List Byte)) (hl : (l.map (fun x => x.1)).Nodup) (s : State) :
    (∀ w, w ∉ l.map (fun x => x.1) → Table.get {} ((l.foldl (installVector col) s).part col).vectors w = Table.get {} (s.part col).vectors w) ∧
    (∀ x ∈ l, ∀ p, vectorBad p x.2 = false → (Table.get {} ((l.foldl (installVector col) s).part col).vectors x.1).Named x.2) := by
  induction l generalizing s with
  | nil => exact ⟨fun _ _ => rfl, fun x hx => absurd hx List.not_mem_nil⟩
  | cons x l ih =>
    rw [List.map_cons, List.nodup_cons] at hl
    obtain ⟨hother, hnamed⟩ := ih hl.2 (installVector col s x)
    refine ⟨fun w hw => ?_, fun y hy p hp => ?_⟩
    · rw [List.map_cons, List.mem_cons, not_or] at hw
      rw [List.foldl_cons, hother w hw.2, (installVector_vectors col s x).1 w hw.1]
    · obtain rfl | hy := List.mem_cons.mp hy
      · rw [List.foldl_cons, hother _ hl.1]
        exact (installVector_vectors col s y).2 p hp
      · exact hnamed y hy p hp

/-! ### The commands -/

section
variable {s : State} {mb : Fin 16} {i : BitVec 16} {p : List Byte}

/-- The entry k of INTR_CONFIG. -/
def intrEntry (p : List Byte) (k : Nat) : List Byte := (p.drop (8 + 8 * k)).take 8

/-- The entries of INTR_CONFIG, each with the vector that takes it. -/
def intrEntries (p : List Byte) : List (Nat × List Byte) := (List.range (leField p 1 1)).map (fun k => (leField p 0 1 + k, intrEntry p k))

/-- INTR_CONFIG installs all of its entries or none. -/
theorem exec_intrConfig (h : Runs s mb i 0x140 [(0, 1, 0x3F), (1, 1, 0xFF), (8, 8 * Nat.min 29 (leField p 1 1), 0xFF)] p) :
    let col := mb.val
    let first := leField p 0 1
    let n := leField p 1 1
    let good := 1 ≤ n ∧ n ≤ 29 ∧ first + n ≤ 64 ∧ ∀ k, k < n → vectorBad (s.part col) (intrEntry p k) = false
    (¬ good → exec (.intrConfig mb i) s = .next (responded s col i 0x0101 [])) ∧
    (good → exec (.intrConfig mb i) s = .next (responded ((intrEntries p).foldl (installVector col) s) col i 0 [])) := by
  intro col first n good
  have hexec : exec (.intrConfig mb i) s = .next (serve (
      if n = 0 || 29 < n || 64 < first + n || (intrEntries p).any (fun e => vectorBad (s.part col) e.2) then answer s col i 0x0101 []
      else answer ((intrEntries p).foldl (installVector col) s) col i 0 []) col) := by
    rw [show exec (.intrConfig mb i) s = execIntrConfig mb i s from rfl, execIntrConfig, live_of_Clocked h.1.1, runCmd_of_Runs h rfl]
    rfl
  have hgood : (n = 0 || 29 < n || 64 < first + n || (intrEntries p).any (fun e => vectorBad (s.part col) e.2)) = false ↔ good := by
    simp only [good, intrEntries, Bool.or_eq_false_iff, decide_eq_false_iff_not, not_lt, List.any_eq_false, List.forall_mem_map, List.mem_range,
      Bool.not_eq_true, and_assoc, Nat.one_le_iff_ne_zero]
    rfl
  rw [hexec]
  refine ⟨fun hbad => ?_, fun hok => ?_⟩
  · rw [if_pos (by rw [← Bool.not_eq_false]; exact mt hgood.mp hbad)]
    rfl
  · rw [if_neg (by rw [hgood.mpr hok]; decide)]
    rfl

/-- REPLAY_POLICY is in force at once, or with a job at its next step boundary. -/
theorem exec_replayPolicy (h : Runs s mb i 0x150 [(0, 3, 0xFF)] p) :
    let col := mb.val
    let x := s.part col
    let mode := leField p 0 1
    let most := leField p 1 1
    let again := leField p 2 1
    let good := (mode = 0 ∧ most = 0 ∨ mode = 1 ∧ 1 ≤ most ∧ most ≤ 3) ∧ again ≤ 15
    (¬ good → exec (.replayPolicy mb i) s = .next (responded s col i 0x0101 [])) ∧
    (good → exec (.replayPolicy mb i) s = .next (responded (s.setPart col (if x.job.live then { x with policyNext := some (mode == 1, most, again) }
        else { x with replay := mode == 1, maxReplay := most, restartsMax := again, policyNext := none })) col i 0 [])) := by
  intro col x mode most again good
  have hexec : exec (.replayPolicy mb i) s = .next (serve (
      if 1 < mode || (mode = 0 && most != 0) || (mode = 1 && (most = 0 || 3 < most)) || 15 < again then answer s col i 0x0101 []
      else answer (s.setPart col (if x.job.live then { x with policyNext := some (mode == 1, most, again) }
        else { x with replay := mode == 1, maxReplay := most, restartsMax := again, policyNext := none })) col i 0 []) col) := by
    rw [show exec (.replayPolicy mb i) s = execReplayPolicy mb i s from rfl, execReplayPolicy, live_runCmd_of_Runs h]
    rfl
  have hbad : (1 < mode || (mode = 0 && most != 0) || (mode = 1 && (most = 0 || 3 < most)) || 15 < again) = true ↔ ¬ good := by
    simp only [good, Bool.or_eq_true, Bool.and_eq_true, decide_eq_true_eq, bne_iff_ne]
    omega
  simp only [hexec, hbad]
  refine ⟨fun h => ?_, fun h => ?_⟩
  · rw [if_pos h]
    rfl
  · rw [if_neg (not_not_intro h)]
    rfl

end

/-- Settles O52: each command by its checks, in order, and by the record that it keeps. -/
theorem partitionCommandsKeepTheirRecords : Obligations.PartitionCommandsKeepTheirRecords := by
  unfold Obligations.PartitionCommandsKeepTheirRecords
  intro s mb i p
  refine ⟨exec_rqCreate, exec_rqBind, fun h => ?_, exec_indexDetach, fun h => ?_, exec_replayPolicy⟩
  · obtain ⟨hused, hbad, hkept⟩ := exec_indexAttach h
    have hpart : (fwReads s (indexReads s mb.val (leField p 8 8))).part mb.val = s.part mb.val := by rw [fwReads_onlyLog]; rfl
    refine ⟨fun q hm hc => fwReads_sound hm hc q, hused, hbad, fun hfree hok => ⟨_, _, hkept hfree hok, rfl, ?_, ?_, fun m hm => ?_, ?_⟩⟩
    · rw [State.part_modPart_same, hpart]
    · rw [State.part_modPart_same, Table.get_set_same]
    · rw [State.part_modPart_same, hpart, Table.get_set_other _ _ _ _ _ hm]
    · rw [List.append_assoc, leField_head, Nat.mod_eq_of_lt (leField_lt ..)]
  · obtain ⟨hbad, hgood⟩ := exec_intrConfig h
    have hkeys : (intrEntries p).map (fun x => x.1) = (List.range (leField p 1 1)).map (leField p 0 1 + ·) := List.map_map ..
    have hdistinct : ((intrEntries p).map (fun x => x.1)).Nodup := by
      rw [hkeys]
      exact List.nodup_range.map fun _ _ => Nat.add_left_cancel
    obtain ⟨hother, hnamed⟩ := foldl_installVector mb.val (intrEntries p) hdistinct s
    refine ⟨hbad, fun hok => ⟨_, hgood hok, fun k hk => ?_, fun v hv => hother v ?_⟩⟩
    · obtain ⟨-, -, -, hentries⟩ := hok
      exact hnamed (leField p 0 1 + k, intrEntry p k) (List.mem_map.mpr ⟨k, List.mem_range.mpr hk, rfl⟩) _ (hentries k hk)
    · rw [hkeys, List.mem_map]
      rintro ⟨k, hk, rfl⟩
      rw [List.mem_range] at hk
      omega

end Sys2Proof.Machine
end

section
/-!
SUPPORT. What the operations on images leave of the die (R338 to R343): the image of a partition by its digest, ranges borrowed or
not, reservations released, and share bytes copied.
-/
namespace Sys2Proof.Machine

open Sys2Proof.Stated

/-! ### Images of a partition by digest -/

theorem Partn.image_digest {p : Partn} {d : BitVec 256} {g : Image} (h : p.image d = some g) : g.digest = d := by
  have hfound := List.find?_some h
  exact beq_iff_eq.mp hfound

section
variable {d : BitVec 256} {f : Image → Image} (hf : ∀ g : Image, g.digest = d → (f g).digest = d)
include hf

theorem digest_ite (g : Image) : (if g.digest == d then f g else g).digest = d ↔ g.digest = d := by
  by_cases hg : g.digest = d
  · simp [hg, hf g hg]
  · simp [hg]

/-- An image changed under its digest is found under it. -/
theorem Partn.image_modImage (p : Partn) : (p.modImage d f).image d = (p.image d).map f := by
  have hsame : (fun g : Image => g.digest == d) ∘ (fun g => if g.digest == d then f g else g) = fun g => g.digest == d :=
    funext fun g => Bool.eq_iff_iff.mpr (by simpa only [Function.comp_apply, beq_iff_eq] using digest_ite hf g)
  rw [Partn.image, Partn.image, Partn.modImage, List.find?_map, hsame]
  exact Option.map_congr fun g hg => if_pos (List.find?_some hg)

/-- An image that is changed under its digest and then leaves is gone. -/
theorem Partn.filter_modImage (p : Partn) : (p.modImage d f).images.filter (fun g => g.digest != d) = p.images.filter (fun g => g.digest != d) := by
  have hsame : (fun g : Image => g.digest != d) ∘ (fun g => if g.digest == d then f g else g) = fun g => g.digest != d :=
    funext fun g => Bool.eq_iff_iff.mpr (by simpa only [Function.comp_apply, bne_iff_ne] using not_congr (digest_ite hf g))
  rw [Partn.modImage, List.filter_map, hsame]
  refine (List.map_congr_left fun g hg => if_neg ?_).trans (List.map_id _)
  simpa using (List.mem_filter.mp hg).2

end

/-- Where no image had its digest, a change of a new image is of that one alone. -/
theorem Partn.modImage_append {p : Partn} {d : BitVec 256} (h : p.image d = none) {g : Image} (hg : g.digest = d) (f : Image → Image) :
    ({ p with images := p.images ++ [g] } : Partn).modImage d f = { p with images := p.images ++ [f g] } := by
  have himages : p.images.map (fun x => if x.digest == d then f x else x) = p.images :=
    (List.map_congr_left fun x hx => if_neg (List.find?_eq_none.mp h x hx)).trans p.images.map_id
  simp only [Partn.modImage, List.map_append, himages, List.map_cons, List.map_nil, hg, beq_self_eq_true, if_true]

@[simp] theorem part_modImage (s : State) (mb : Nat) (c : Cmd) (f : Image → Image) :
    (modImage s mb c f).part mb = (s.part mb).modImage (digestOf c.payload) f := State.part_modPart_same ..

@[simp] theorem part_dropImage (s : State) (mb : Nat) (d : BitVec 256) :
    (dropImage s mb d).part mb = { s.part mb with images := (s.part mb).images.filter (fun g => g.digest != d) } := State.part_modPart_same ..

/-! ### Ranges borrowed (R340) -/

theorem takeBorrow_zero (ws : List DeclWeights) : takeBorrow ws 0 = (ws, []) := by
  induction ws with
  | nil => rfl
  | cons w ws ih =>
    rw [takeBorrow, List.foldr_cons, ← takeBorrow, ih]
    rfl

section
variable {g : Image} (h : g.borrowed = 0)
include h

theorem Image.localRanges_whole : g.localRanges = g.role.image := by rw [Image.localRanges, h, takeBorrow_zero]

theorem Image.farRanges_whole : g.farRanges = [] := by rw [Image.farRanges, h, takeBorrow_zero]

/-- An image that borrows nothing wants nothing of a lender. -/
theorem Image.wants_whole : g.wants = 0 := by
  rw [Image.wants, h]
  exact Nat.zero_sub _

/-- It has no bytes for other dies. -/
theorem farBytes_whole (share : List Byte) : farBytes g share = [] := by
  rw [farBytes, Image.farRanges_whole h]
  suffices hfold : ∀ (l : List DeclWeights) (x : List Byte), (l.foldl (fun (acc : List Byte × List Byte) w =>
      (if ([] : List DeclWeights).contains w then acc.1 ++ takePad w.range.len acc.2 else acc.1, acc.2.drop w.range.len)) ([], x)).1 = [] from hfold ..
  intro l
  induction l with
  | nil => exact fun _ => rfl
  | cons w l ih => exact fun x => ih (x.drop w.range.len)

theorem copyFar_whole (s : State) (mb : Nat) (i : BitVec 16) (share : List Byte) : copyFar s mb i g share = s := by
  rw [copyFar, farBytes_whole h]
  rfl

end

/-! ### Reservations and share bytes -/

/-- A release to each lender, none of which is asked for a command (R321, R340). -/
theorem releaseLends_leaves (col : Nat) (d : BitVec 256) (ls : List Lend) (s : State) : OnlyAsks s (releaseLends s col d ls) ∧
    (releaseLends s col d ls).skovi.peers.length = s.skovi.peers.length + ls.length := by
  induction ls generalizing s with
  | nil => exact ⟨rfl, rfl⟩
  | cons l ls ih =>
    obtain ⟨hrest, hpeers⟩ := ih (fwRequest s l.die 0x32 (BitVec.ofNat 4 col) 0 (leBytes 32 d.toNat ++ leBytes 2 0))
    have hask : OnlyAsks s (fwRequest s l.die 0x32 (BitVec.ofNat 4 col) 0 (leBytes 32 d.toNat ++ leBytes 2 0)) := rfl
    refine ⟨hask.trans hrest, hpeers.trans ?_⟩
    rw [show (fwRequest s l.die 0x32 (BitVec.ofNat 4 col) 0 (leBytes 32 d.toNat ++ leBytes 2 0)).skovi.peers.length = s.skovi.peers.length + 1 from
      List.length_append, List.length_cons]
    omega

/-- From s to t only memory changes. -/
def OnlyMemory (s t : State) : Prop := t = { s with mem := t.mem }

theorem OnlyMemory.trans {s t u : State} (h : OnlyMemory s t) (h' : OnlyMemory t u) : OnlyMemory s u := by
  unfold OnlyMemory at *
  rw [h', h]

theorem copyLocal_onlyMemory (g : Image) (s : State) (x : Nat × List Byte) : OnlyMemory s (copyLocal g s x) := by
  rw [copyLocal]
  refine List.foldlRecOn (motive := fun acc : State × Nat => OnlyMemory s acc.1) g.role.image _ rfl fun acc hacc w _ => ?_
  dsimp only
  split
  · exact hacc
  · exact hacc.trans rfl

theorem foldl_copyLocal_onlyMemory (g : Image) (l : List (Nat × List Byte)) (s : State) : OnlyMemory s (l.foldl (copyLocal g) s) :=
  List.foldlRecOn (motive := OnlyMemory s) l _ rfl fun _ hu x _ => hu.trans (copyLocal_onlyMemory g _ x)

/-- The bytes of a share that is one range of this die go to that range (R339). -/
theorem byteAt_copyLocal_one {g : Image} (h : g.borrowed = 0) {w : DeclWeights} (hw : g.role.image = [w]) {share : List Byte}
    (hlen : w.range.len = share.length) (s : State) (a : Nat) : (copyLocal g s (0, share)).byteAt a =
      if w.range.base ≤ a ∧ a < w.range.base + w.range.len then share.getD (a - w.range.base) 0 else s.byteAt a := by
  rw [copyLocal, hw, Image.farRanges_whole h]
  simp only [List.foldl_cons, List.foldl_nil, hlen, Nat.zero_add, Nat.max_self, Nat.min_self, Nat.sub_zero, Nat.add_zero, List.drop_zero, List.take_length]
  split
  · next hempty =>
    have hnil : share = [] := by simpa using hempty
    simp [hnil]
  · exact byteAt_memWrite ..

end Sys2Proof.Machine
end

section
/-!
SUPPORT. IMAGE_STAGE by its phases (R338 to R341, R343; assumption 129): how it begins, the manifest checked, lenders asked, the share
read and copied.
-/
namespace Sys2Proof.Machine

open Sys2Proof.Stated

theorem imageStage_waits (mb : Fin 16) (i : BitVec 16) (man : Option Manifest) : Waits (.imageStage mb i man .overPorts .overPorts) mb i 0x100
    ([(0, 32, 0xFF), (64, 1, 0x3F), (65, 1, 0x01), (66, 6, 0), (72, 8, 0xFF)] ++ bulkBits 32 ++ bulkBits 48)
    (fun s => beginStage s mb.val i) (stageNext mb.val man) := fun _ => rfl

/-! ### The beginning (R338) -/

/-- IMAGE_STAGE refuses a bad reference, a digest that is there and a fifth image; else it fetches the manifest. -/
theorem exec_imageStage_begins {s : State} {mb : Fin 16} {i : BitVec 16} {p : List Byte}
    (h : Begins s mb i 0x100 ([(0, 32, 0xFF), (64, 1, 0x3F), (65, 1, 0x01), (66, 6, 0), (72, 8, 0xFF)] ++ bulkBits 32 ++ bulkBits 48) p)
    (man : Option Manifest) :
    let j := Instr.imageStage mb i man .overPorts .overPorts
    let x := s.part mb.val
    let gives := fun (st : BitVec 16) => exec j s = .next (responded s mb.val i st [])
    ((s.bulk p 32 = none ∨ s.bulk p 48 = none) → gives 0x0101) ∧
    ∀ rm rs : BulkRef, s.bulk p 32 = some rm → s.bulk p 48 = some rs →
      ((x.image (digestOf p)).isSome = true → gives 0x0203) ∧
      (x.image (digestOf p) = none → 4 ≤ x.images.length → gives 0x0201) ∧
      (x.image (digestOf p) = none → x.images.length < 4 → Fetches j s mb.val i 0x100 rm 1) := by
  intro j x gives
  have hrefused : ∀ {st : BitVec 16}, beginStage s mb.val i p = answer s mb.val i st [] → gives st :=
    fun hst => (imageStage_waits mb i man).exec_refused h.1 h.2.1 hst
  refine ⟨fun hnone => hrefused ?_, fun rm rs hrm hrs => ?_⟩
  · rw [beginStage]
    obtain hnone | hnone := hnone
    · rw [hnone]
      rfl
    · rw [hnone]
      cases s.bulk p 32 <;> rfl
  · have hbegin : beginStage s mb.val i p = if (x.image (digestOf p)).isSome then answer s mb.val i 0x0203 []
        else if 4 ≤ x.images.length then answer s mb.val i 0x0201 [] else readBulk s mb.val i rm 1 := by
      rw [beginStage, hrm, hrs]
      rfl
    refine ⟨fun hsome => hrefused (hbegin.trans (if_pos hsome)), fun hnone hfull => hrefused ?_, fun hnone hroom => ?_⟩
    · rw [hbegin, hnone, if_pos hfull]
      rfl
    · refine (imageStage_waits mb i man).fetches h Nat.one_ne_zero ?_
      rw [hbegin, hnone, if_neg (Nat.not_le.mpr hroom)]
      rfl

/-! ### A command in a phase -/

/-- The command at index i of a mailbox is at work in phase n. -/
def InPhase (t : State) (mb : Nat) (i : BitVec 16) (n : Nat) : Prop := ∃ y ∈ (t.mailbox mb).accepted, y.idx = i ∧ y.running = true ∧ y.phase = n

theorem InPhase.of_mailboxes {s t : State} {mb : Nat} {i : BitVec 16} {n : Nat} (h : InPhase s mb i n) (ht : t.mailboxes = s.mailboxes) :
    InPhase t mb i n := by
  unfold InPhase State.mailbox at *
  rwa [ht]

/-- A mailbox has accepted a command of index i. -/
def Accepted (s : State) (mb : Nat) (i : BitVec 16) : Prop := ∃ y ∈ (s.mailbox mb).accepted, y.idx = i

/-- A command that is accepted goes to a phase, whatever else it then takes. -/
theorem toPhase_inPhase {s : State} {mb : Nat} {i : BitVec 16} (h : Accepted s mb i) (n : Nat) : InPhase (toPhase s mb i n) mb i n := by
  obtain ⟨y, hy, rfl⟩ := h
  rw [InPhase, toPhase, modCmd_accepted]
  exact ⟨_, List.mem_map_of_mem hy, by rw [atIndex, if_pos (beq_self_eq_true _)]; exact ⟨rfl, rfl, rfl⟩⟩

theorem readBulk_inPhase {s : State} {mb : Nat} {i : BitVec 16} (h : Accepted s mb i) (r : BulkRef) (n : Nat) :
    InPhase (readBulk s mb i r n) mb i n :=
  (toPhase_inPhase h n).of_mailboxes (by rw [readBulk, (startTransfer_onlySends ..).1])

theorem atWork_found {s : State} {mb : Nat} {i : BitVec 16} {op : Nat} {c : Cmd} (h : s.atWork mb i op = some c) :
    Accepted s mb i ∧ c.idx = i := by
  have hfound := List.find?_some h
  simp only [Bool.and_eq_true, beq_iff_eq] at hfound
  obtain ⟨⟨⟨⟨hidx, -⟩, -⟩, -⟩, -⟩ := hfound
  exact ⟨⟨c, List.mem_of_find?_eq_some h, hidx⟩, hidx⟩

section
variable {s : State} {mb : Nat} {c : Cmd} {g : Image}

/-! ### The share is asked for (R339, R341) -/

/-- The share is read, and the image notes how long a pass over its borrowed bytes takes. -/
theorem askShare_leaves (hc : Accepted s mb c.idx) (hr : (s.bulk c.payload 48).isSome = true) (g : Image) :
    InPhase (askShare s mb c g) mb c.idx 3 ∧
    (askShare s mb c g).part mb = (s.part mb).modImage (digestOf c.payload) (fun h => { h with passNs := passNs s h.borrowed h.lends }) := by
  obtain ⟨r, hr⟩ := Option.isSome_iff_exists.mp hr
  rw [askShare, hr]
  set u := modImage (dropTransfers s (fun w => w == .cmd mb c.idx)) mb c (fun h => { h with passNs := passNs s h.borrowed h.lends }) with hu
  have hpart : u.part mb = (s.part mb).modImage (digestOf c.payload) (fun h => { h with passNs := passNs s h.borrowed h.lends }) := by
    rw [hu, part_modImage]
    rfl
  have hmem : Accepted u mb c.idx := hc
  clear_value u
  refine ⟨readBulk_inPhase hmem r 3, ?_⟩
  show (readBulk u mb c.idx r 3).part mb = _
  rw [readBulk, State.part, (startTransfer_onlySends ..).1]
  exact hpart

/-! ### Phase 2: lenders (R340) -/

/-- A stage that leaves nothing: reservations released, and the image gone. -/
def stageUndone (s : State) (mb : Nat) (g : Image) : State := dropImage (releaseLends s mb g.digest g.lends) mb g.digest

theorem stageUndone_leaves (s : State) (mb : Nat) (g : Image) :
    (stageUndone s mb g).part mb = { s.part mb with images := (s.part mb).images.filter (fun x => x.digest != g.digest) } ∧
    (stageUndone s mb g).skovi.peers.length = s.skovi.peers.length + g.lends.length ∧ (stageUndone s mb g).mem = s.mem := by
  obtain ⟨hasks, hpeers⟩ := releaseLends_leaves mb g.digest g.lends s
  have hpart : (releaseLends s mb g.digest g.lends).part mb = s.part mb := by
    rw [hasks]
    rfl
  have hmem : (releaseLends s mb g.digest g.lends).mem = s.mem := by rw [hasks]
  exact ⟨by rw [stageUndone, part_dropImage, hpart], hpeers, hmem⟩

/-- The die with what the lender asked last has granted. -/
def stageGranted (s : State) (mb : Nat) (c : Cmd) (g : Image) : State := modImage s mb c (fun _ => g.granted c.replies)

/-- The die after the next lender is asked. -/
def lenderAsked (s : State) (mb : Nat) (c : Cmd) (g : Image) (e : Nat) (l : List Nat) : State :=
  fwAsk (modCmd (toPhase s mb c.idx 2) mb c.idx (fun c => { c with asks := l, awaited := [BitVec.ofNat 6 e] })) (some (mb, c.idx)) (BitVec.ofNat 6 e)
    0x31 (BitVec.ofNat 4 mb) 0 (leBytes 32 g.digest.toNat ++ leBytes 2 g.wants)

/-- With enough granted the share is read, else the next lender is asked, and without one the stage leaves nothing. -/
theorem stageLend_eq (s : State) (mb : Nat) (c : Cmd) (g : Image) : stageLend s mb c g =
    if (g.granted c.replies).wants = 0 then askShare (stageGranted s mb c g) mb c (g.granted c.replies)
    else match c.asks with
      | [] => finishCmd (stageUndone (stageGranted s mb c g) mb (g.granted c.replies)) mb c 0x0201 c.report
      | e :: l => lenderAsked (stageGranted s mb c g) mb c (g.granted c.replies) e l := rfl

section
variable (hg : (s.part mb).image (digestOf c.payload) = some g)
include hg

theorem stageGranted_image {f : Image → Image} (hf : ∀ x, (f x).digest = x.digest) :
    (((stageGranted s mb c g).part mb).modImage (digestOf c.payload) f).image (digestOf c.payload) = some (f (g.granted c.replies)) := by
  have hd : (g.granted c.replies).digest = digestOf c.payload := show g.digest = _ from Partn.image_digest hg
  rw [stageGranted, part_modImage, Partn.image_modImage fun x hx => (hf x).trans hx, Partn.image_modImage fun _ _ => hd, hg]
  rfl

theorem stageUndone_granted : let t := stageUndone (stageGranted s mb c g) mb (g.granted c.replies)
    t.part mb = { s.part mb with images := (s.part mb).images.filter (fun h => h.digest != digestOf c.payload) } ∧
    t.skovi.peers.length = s.skovi.peers.length + (g.granted c.replies).lends.length := by
  have hd : (g.granted c.replies).digest = digestOf c.payload := show g.digest = _ from Partn.image_digest hg
  obtain ⟨hpart, hpeers, -⟩ := stageUndone_leaves (stageGranted s mb c g) mb (g.granted c.replies)
  refine ⟨?_, hpeers⟩
  rw [hpart, hd, stageGranted, part_modImage, Partn.filter_modImage fun _ _ => hd]
  rfl

end

theorem lenderAsked_leaves (hmb : mb < 16) (hc : Accepted s mb c.idx) (g : Image) (e : Nat) (l : List Nat) :
    InPhase (lenderAsked s mb c g e l) mb c.idx 2 ∧ ∃ m, (lenderAsked s mb c g e l).tx = s.tx ++ [{ msg := m, port := none }] ∧
      m.dst = BitVec.ofNat 6 e ∧ m.op = 6 ∧
      m.data = [0x31, BitVec.ofNat 8 mb] ++ leBytes 2 s.skovi.seqno.toNat ++ leBytes 4 0 ++ leBytes 32 g.digest.toNat ++ leBytes 2 g.wants := by
  have hcolour : (BitVec.ofNat 4 mb).setWidth 8 = BitVec.ofNat 8 mb := by
    refine BitVec.eq_of_toNat_eq ?_
    simp only [BitVec.toNat_setWidth, BitVec.toNat_ofNat]
    omega
  have hphase : InPhase (modCmd (toPhase s mb c.idx 2) mb c.idx (fun c => { c with asks := l, awaited := [BitVec.ofNat 6 e] })) mb c.idx 2 := by
    obtain ⟨y, hy, hi⟩ := hc
    rw [InPhase, modCmd_toPhase_accepted, ← hi]
    exact ⟨_, List.mem_map_of_mem hy, by rw [atIndex, if_pos (beq_self_eq_true _)]; exact ⟨rfl, rfl, rfl⟩⟩
  refine ⟨hphase.of_mailboxes rfl, _, rfl, rfl, rfl, ?_⟩
  rw [← hcolour]
  exact (List.append_assoc ..).symm

/-! ### Phase 1: the manifest (R338) -/

theorem roleSuits_iff (s : State) (mb : Nat) (m : Manifest) (r : Role) : roleSuits s mb m r = true ↔
    (0x0040, 0xB1, 0x0204) ∈ m.accepts ∧ r.cores &&& ~~~ (s.part mb).cores = 0 ∧ r.layers &&& ~~~ s.mem.layersOn = 0 := by
  simp only [roleSuits, Bool.and_eq_true, List.contains_iff_mem, beq_iff_eq, and_assoc]

/-- A manifest that has been read is refused for its signature, its digest, its role or what the role needs; else it is sized. -/
theorem stageManifest_read (hf : s.cmdFailed mb c = false) {m : Manifest} (hm : m.bytes = s.cmdBytes mb c) : stageManifest s mb c (some m) =
    if !Config.keyHashVerify Config.imgKeyHash (Config.sha384 m.bytes) m.sig then finishCmd s mb c 0x0401 []
    else if m.digest != digestOf c.payload then finishCmd s mb c 0x0403 []
    else match m.roles.find? (fun r => r.number.toNat == leField c.payload 64 1) with
      | none => finishCmd s mb c 0x0305 []
      | some r => if roleSuits s mb m r then sizeImage s mb c m r else finishCmd s mb c 0x0305 [] := by
  simp only [stageManifest, hf, hm, bne_self_eq_false, Bool.false_eq_true, if_false]
  rfl

theorem bitsOf_zero (w : Nat) : bitsOf 0 w = [] := by
  rw [bitsOf]
  exact List.filter_eq_nil_iff.mpr fun k _ => by simp

/-- The image that IMAGE_STAGE begins with, whole on this die. -/
def wholeImage (c : Cmd) (m : Manifest) (r : Role) : Image :=
  { digest := m.digest, st := .staging, man := m, role := r, need := roleNeed r
    granules := granulesFor (r.image.map (fun w => w.range) ++ r.state), golden := (c.payload.drop 48).take 16 }

/-- Bytes that the partition has free (R338). -/
def State.freeBytes (s : State) (mb : Nat) : Nat := (s.part mb).freeGranules.length * 0x10000000

/-- An image too large for its partition, without BORROW or without a lender, is refused with its sizes. -/
theorem sizeImage_short {r : Role} (hshort : s.freeBytes mb < roleNeed r) (hlenders : leField c.payload 65 1 = 0 ∨ leField c.payload 72 8 = 0)
    (m : Manifest) : sizeImage s mb c m r =
      finishCmd s mb c 0x0201 (leBytes 8 (roleNeed r) ++ leBytes 8 (s.freeBytes mb) ++ leBytes 8 (roleNeed r - s.freeBytes mb)) := by
  rw [sizeImage]
  refine if_pos ?_
  have hnone : leField c.payload 72 8 = 0 → (bitsOf (leField c.payload 72 8) 64).isEmpty = true := fun h => by
    rw [h, bitsOf_zero]
    rfl
  rw [Bool.and_eq_true, decide_eq_true_eq, Bool.or_eq_true, Bool.or_eq_true, decide_eq_true_eq]
  exact ⟨hshort, .inl (hlenders.imp id hnone)⟩

/-- An image that fits is staged whole where its granules are free. -/
theorem sizeImage_fits {r : Role} (hfits : roleNeed r ≤ s.freeBytes mb) (m : Manifest) : sizeImage s mb c m r =
    if !(wholeImage c m r).granules.all (fun k => (s.part mb).freeGranules.contains k) then finishCmd s mb c 0x0305 []
    else
      let report := leBytes 8 (roleNeed r) ++ leBytes 8 (s.freeBytes mb) ++ leBytes 8 (roleNeed r - s.freeBytes mb)
      let asks := (bitsOf (leField c.payload 72 8) 64).filter (fun d => d != s.ownId.toNat && (s.die d).st == .verified && !(s.die d).fenced)
      stageLend ((modCmd s mb c.idx (fun x => { x with asks := asks, report := report })).modPart mb
          (fun p => { p with images := p.images ++ [wholeImage c m r] })) mb
        { c with asks := asks, report := report, replies := [] } (wholeImage c m r) := by
  have hroom : ¬ s.freeBytes mb < roleNeed r := Nat.not_lt.mpr hfits
  have hborrow : ∀ n, (if roleNeed r ≤ (s.part mb).freeGranules.length * granuleBytes then 0 else n) = 0 := fun n => if_pos hfits
  rw [sizeImage]
  simp only [hborrow]
  rw [if_neg (by rw [Bool.and_eq_true, decide_eq_true_eq]; exact fun h => hroom h.1), Image.localRanges_whole rfl]
  rfl

/-- An image that is staged whole is in STAGING while its share is read. -/
theorem sizeImage_staged {m : Manifest} {r : Role} (hc : Accepted s mb c.idx) (hfits : roleNeed r ≤ s.freeBytes mb)
    (hfree : ∀ k ∈ (wholeImage c m r).granules, k ∈ (s.part mb).freeGranules) (hd : m.digest = digestOf c.payload)
    (hnew : (s.part mb).image m.digest = none) (hr : (s.bulk c.payload 48).isSome = true) :
    InPhase (sizeImage s mb c m r) mb c.idx 3 ∧
    (sizeImage s mb c m r).part mb = { s.part mb with images := (s.part mb).images ++ [wholeImage c m r] } := by
  have hall : (wholeImage c m r).granules.all (fun k => (s.part mb).freeGranules.contains k) = true := by simpa using hfree
  rw [sizeImage_fits hfits, hall]
  simp only [Bool.not_true, Bool.false_eq_true, if_false]
  generalize leBytes 8 (roleNeed r) ++ leBytes 8 (s.freeBytes mb) ++ leBytes 8 (roleNeed r - s.freeBytes mb) = report
  generalize (bitsOf (leField c.payload 72 8) 64).filter (fun d => d != s.ownId.toNat && (s.die d).st == .verified && !(s.die d).fenced) = asks
  set u := (modCmd s mb c.idx (fun x => { x with asks := asks, report := report })).modPart mb
    (fun p => { p with images := p.images ++ [wholeImage c m r] }) with hu
  have hcu : Accepted u mb c.idx := by
    obtain ⟨y, hy, hi⟩ := hc
    have hacc : (u.mailbox mb).accepted = (s.mailbox mb).accepted.map (atIndex c.idx fun x => { x with asks := asks, report := report }) :=
      modCmd_accepted ..
    rw [Accepted, hacc]
    exact ⟨_, List.mem_map_of_mem hy, by rw [atIndex, if_pos (beq_iff_eq.mpr hi)]; exact hi⟩
  have hpart : u.part mb = { s.part mb with images := (s.part mb).images ++ [wholeImage c m r] } := by
    rw [hu, State.part_modPart_same]
    rfl
  have hbulk : (u.bulk c.payload 48).isSome = true := hr
  clear_value u
  set x : Cmd := { c with asks := asks, report := report, replies := [] }
  have hnone : (s.part mb).image (digestOf c.payload) = none := hd ▸ hnew
  have hdw : (wholeImage c m r).digest = digestOf c.payload := hd
  have hgranted : (stageGranted u mb x (wholeImage c m r)).part mb = { s.part mb with images := (s.part mb).images ++ [wholeImage c m r] } := by
    rw [stageGranted, part_modImage, hpart]
    exact Partn.modImage_append hnone hdw _
  obtain ⟨hphase, hstaged⟩ := askShare_leaves (s := stageGranted u mb x (wholeImage c m r)) (c := x) hcu hbulk ((wholeImage c m r).granted x.replies)
  rw [stageLend_eq, if_pos (Image.wants_whole rfl)]
  refine ⟨hphase, ?_⟩
  rw [hstaged, hgranted]
  refine (Partn.modImage_append hnone hdw _).trans ?_
  have hpass : ∀ u : State, passNs u (wholeImage c m r).borrowed (wholeImage c m r).lends = 0 := fun _ =>
    show ceilDiv 0 (224 * Nat.max 1 0) = 0 by decide
  rw [hpass]
  rfl

/-! ### Phases 3 and 4: the share (R339, R340, R343) -/

/-- The die with the local ranges of a share written. -/
def shareCopied (s : State) (mb : Nat) (c : Cmd) (g : Image) : State :=
  toPhase (dropTransfers (copyLocal g s (0, s.cmdBytes mb c)) (fun w => w == .cmd mb c.idx)) mb c.idx 4

/-- A share is copied where its read and its digest are good; a failed read leaves what has come, a wrong digest nothing. -/
theorem stageShare_eq (s : State) (mb : Nat) (c : Cmd) (g : Image) : stageShare s mb c g =
    if s.cmdFailed mb c then finishCmd (((s.transfersOf (.cmd mb c.idx)).flatMap (fun t => t.got)).foldl (copyLocal g) s) mb c 0x0501 []
    else if Config.sha384 (s.cmdBytes mb c) != g.role.shareSha then finishCmd (stageUndone s mb g) mb c 0x0403 []
    else if g.borrowed = 0 then stageDone (copyFar (shareCopied s mb c g) mb c.idx g (s.cmdBytes mb c)) mb c g
    else copyFar (shareCopied s mb c g) mb c.idx g (s.cmdBytes mb c) := rfl

theorem shareCopied_leaves (hc : Accepted s mb c.idx) (g : Image) : InPhase (shareCopied s mb c g) mb c.idx 4 ∧
    (shareCopied s mb c g).parts = s.parts ∧ (shareCopied s mb c g).transfersOf (.cmd mb c.idx) = [] ∧
    (shareCopied s mb c g).mem = (copyLocal g s (0, s.cmdBytes mb c)).mem := by
  have hcopy := copyLocal_onlyMemory g s (0, s.cmdBytes mb c)
  rw [shareCopied]
  generalize copyLocal g s (0, s.cmdBytes mb c) = u at hcopy ⊢
  have hcu : Accepted u mb c.idx := by
    rw [hcopy]
    exact hc
  refine ⟨toPhase_inPhase (s := dropTransfers u _) hcu 4, by rw [hcopy]; rfl, ?_, rfl⟩
  show (u.skovi.transfers.filter _).filter _ = []
  rw [List.filter_filter]
  exact List.filter_eq_nil_iff.mpr fun t _ => by simp

theorem copyFar_onlySends (s : State) (mb : Nat) (i : BitVec 16) (g : Image) (share : List Byte) : OnlySends s (copyFar s mb i g share) := by
  rw [copyFar]
  exact List.foldlRecOn (motive := OnlySends s) _ _ ⟨rfl, List.prefix_rfl⟩ fun u hu k _ => hu.trans (startTransfer_onlySends ..)

/-- A stage that ends well leaves its image STAGED. -/
theorem stageDone_good (hf : s.cmdFailed mb c = false) (g : Image) :
    stageDone s mb c g = finishCmd (modImage s mb c (fun g => { g with st := .staged })) mb c 0 (c.report ++ stageReport g) := by
  rw [stageDone, hf]
  rfl

theorem modImage_staged (hg : (s.part mb).image (digestOf c.payload) = some g) :
    ((modImage s mb c (fun g => { g with st := .staged })).part mb).image (digestOf c.payload) = some { g with st := .staged } := by
  rw [part_modImage, Partn.image_modImage (f := fun g => { g with st := .staged }) fun _ h => h, hg]
  rfl

/-- A good share of an image that borrows nothing ends the stage. -/
theorem stageShare_whole (hc : Accepted s mb c.idx) (hf : s.cmdFailed mb c = false) (hsha : Config.sha384 (s.cmdBytes mb c) = g.role.shareSha)
    (hwhole : g.borrowed = 0) : stageShare s mb c g =
      finishCmd (modImage (shareCopied s mb c g) mb c (fun g => { g with st := .staged })) mb c 0 (c.report ++ stageReport g) := by
  obtain ⟨-, -, htransfers, -⟩ := shareCopied_leaves hc g
  rw [stageShare_eq, hf, hsha, if_neg (by decide), if_neg (by simp), if_pos hwhole, copyFar_whole hwhole, stageDone_good]
  rw [State.cmdFailed, htransfers]
  rfl

/-- A good share of an image that borrows goes on to its lenders. -/
theorem stageShare_borrowed (hf : s.cmdFailed mb c = false) (hsha : Config.sha384 (s.cmdBytes mb c) = g.role.shareSha)
    (hfar : g.borrowed ≠ 0) : stageShare s mb c g = copyFar (shareCopied s mb c g) mb c.idx g (s.cmdBytes mb c) := by
  rw [stageShare_eq, hf, hsha, if_neg (by decide), if_neg (by simp), if_neg hfar]

end

end Sys2Proof.Machine
end

section
/-!
SUPPORT. IMAGE_COMMIT, IMAGE_EVICT and IMAGE_QUERY (R342, R343).
-/
namespace Sys2Proof.Machine

open Sys2Proof.Stated

section
variable {s : State} {mb : Fin 16} {i : BitVec 16} {p : List Byte}

/-! ### IMAGE_COMMIT -/

/-- A partition with one image COMMITTED. -/
def Partn.committed (x : Partn) (d : BitVec 256) : Partn := x.modImage d (fun h => { h with st := .committed })

theorem exec_imageCommit (h : Runs s mb i 0x101 [(0, 32, 0xFF)] p) :
    let x := s.part mb.val
    let y := x.committed (digestOf p)
    let gives := fun (t : State) (st : BitVec 16) (b : List Byte) => exec (.imageCommit mb i) s = .next (responded t mb.val i st b)
    (x.image (digestOf p) = none → gives s 0x0204 []) ∧
    ∀ g, x.image (digestOf p) = some g →
      (g.st ≠ .staged → gives s 0x0206 []) ∧
      (g.st = .staged → x.job.live = true → gives s 0x0205 []) ∧
      (g.st = .staged → x.job.live = false →
        (64 < (regionTable (s.setPart mb.val y) mb.val y).length → gives s 0x0201 []) ∧
        ((regionTable (s.setPart mb.val y) mb.val y).length ≤ 64 →
          gives (rebuildRegions (s.setPart mb.val y) mb.val) 0 [if g.borrowed = 0 then 0 else 1])) := by
  intro x y gives
  have hexec : exec (.imageCommit mb i) s = .next (serve (
      match x.image (digestOf p) with
      | none => answer s mb.val i 0x0204 []
      | some g =>
        let u := s.setPart mb.val (x.committed g.digest)
        if g.st != .staged then answer s mb.val i 0x0206 []
        else if x.job.live then answer s mb.val i 0x0205 []
        else if 64 < (regionTable u mb.val (u.part mb.val)).length then answer s mb.val i 0x0201 []
        else answer (rebuildRegions u mb.val) mb.val i 0 [b8 (b01 (g.borrowed != 0))]) mb.val) := by
    rw [show exec (.imageCommit mb i) s = execImageCommit mb i s from rfl, execImageCommit, live_runCmd_of_Runs h]
    rfl
  refine ⟨fun hnone => hexec.trans (by rw [hnone]; rfl), fun g hg => ?_⟩
  have hpart : (s.setPart mb.val y).part mb.val = y := State.part_setPart_same ..
  have hborrow : b8 (b01 (g.borrowed != 0)) = if g.borrowed = 0 then 0 else 1 := by
    by_cases hb : g.borrowed = 0 <;> simp [hb, b01, b8]
  rw [hg] at hexec
  simp only [Partn.image_digest hg, hborrow] at hexec
  rw [show x.committed (digestOf p) = y from rfl, hpart] at hexec
  refine ⟨fun hst => ?_, fun hst hlive => ?_, fun hst hlive => ⟨fun hlong => ?_, fun hfits => ?_⟩⟩
  · refine hexec.trans ?_
    rw [if_pos (by simpa using hst)]
    rfl
  all_goals rw [hst, if_neg (by decide)] at hexec
  · refine hexec.trans ?_
    rw [if_pos hlive]
    rfl
  · refine hexec.trans ?_
    rw [hlive, if_neg (by decide), if_pos hlong]
    rfl
  · refine hexec.trans ?_
    rw [hlive, if_neg (by decide), if_neg (Nat.not_lt.mpr hfits)]
    rfl

/-! ### IMAGE_EVICT -/

/-- Bytes of ranges that are zeroed are zero. -/
theorem byteAt_foldl_zeroRange_of_mem {l : List Range} {x : Range} (hx : x ∈ l) (s : State) {a : Nat} (hlo : x.base ≤ a)
    (hhi : a < x.base + x.len) : (l.foldl (fun s (x : Range) => zeroRange s x.base x.len) s).byteAt a = 0 := by
  induction l generalizing s with
  | nil => cases hx
  | cons y l ih =>
    obtain rfl | hx := List.mem_cons.mp hx
    · refine byteAt_foldl_zeroRange l ?_
      rw [byteAt_zeroRange, if_pos ⟨hlo, hhi⟩]
    · exact ih hx _

/-- An image that leaves: its record and region entries go, its lenders are told, its ranges are zero. -/
theorem evictImage_leaves (s : State) (col : Nat) (g : Image) : let t := evictImage s col g
    t.part col = { s.part col with images := (s.part col).images.filter (fun h => h.digest != g.digest) } ∧
    t.regionsOf col = regionTable t col (t.part col) ∧ t.skovi.peers.length = s.skovi.peers.length + g.lends.length ∧
    ∀ x ∈ g.localRanges.map (fun w => w.range) ++ g.role.state, ∀ a, x.base ≤ a → a < x.base + x.len → t.byteAt a = 0 := by
  set z := (g.localRanges.map (fun w => w.range) ++ g.role.state).foldl (fun s (x : Range) => zeroRange s x.base x.len) s with hz
  have hevict : evictImage s col g = rebuildRegions (dropImage (releaseLends z col g.digest g.lends) col g.digest) col := rfl
  have hzero : ∀ x ∈ g.localRanges.map (fun w => w.range) ++ g.role.state, ∀ a, x.base ≤ a → a < x.base + x.len → z.byteAt a = 0 :=
    fun x hx a hlo hhi => byteAt_foldl_zeroRange_of_mem hx s hlo hhi
  have honly : OnlyMemory s z := List.foldlRecOn (motive := OnlyMemory s) _ _ rfl fun _ hu _ _ => hu.trans rfl
  clear_value z
  obtain ⟨hasks, hpeers⟩ := releaseLends_leaves col g.digest g.lends z
  rw [hevict]
  generalize releaseLends z col g.digest g.lends = u at hasks hpeers ⊢
  have hpart : u.part col = s.part col := by rw [hasks, honly]; rfl
  have hmem : u.mem = z.mem := by rw [hasks]
  refine ⟨?_, Table.get_set_same .., hpeers.trans (by rw [honly]), fun x hx a hlo hhi => ?_⟩
  · rw [show (rebuildRegions (dropImage u col g.digest) col).part col = (dropImage u col g.digest).part col from rfl, part_dropImage, hpart]
  · refine Eq.trans ?_ (hzero x hx a hlo hhi)
    rw [State.byteAt, State.byteAt, ← hmem]
    rfl

theorem exec_imageEvict (h : Runs s mb i 0x103 [(0, 32, 0xFF)] p) :
    let x := s.part mb.val
    let gives := fun (t : State) (st : BitVec 16) => exec (.imageEvict mb i) s = .next (responded t mb.val i st [])
    (x.image (digestOf p) = none → gives s 0x0204) ∧
    ∀ g, x.image (digestOf p) = some g →
      (x.job.live = true → x.job.digest = digestOf p → gives s 0x0202) ∧
      ((x.job.live = false ∨ x.job.digest ≠ digestOf p) → gives (evictImage s mb.val g) 0) := by
  intro x gives
  have hexec : exec (.imageEvict mb i) s = .next (serve (
      match x.image (digestOf p) with
      | none => answer s mb.val i 0x0204 []
      | some g => if x.job.live && x.job.digest == g.digest then answer s mb.val i 0x0202 [] else answer (evictImage s mb.val g) mb.val i 0 []) mb.val) := by
    rw [show exec (.imageEvict mb i) s = execImageEvict mb i s from rfl, execImageEvict, live_runCmd_of_Runs h]
    rfl
  refine ⟨fun hnone => hexec.trans (by rw [hnone]; rfl), fun g hg => ?_⟩
  have hused : (x.job.live && x.job.digest == g.digest) = true ↔ x.job.live = true ∧ x.job.digest = digestOf p := by
    rw [Partn.image_digest hg, Bool.and_eq_true, beq_iff_eq]
  rw [hg] at hexec
  refine ⟨fun hlive hdigest => ?_, fun hfree => ?_⟩
  · refine hexec.trans ?_
    simp only [if_pos (hused.mpr ⟨hlive, hdigest⟩)]
    rfl
  · have hidle : ¬ (x.job.live = true ∧ x.job.digest = digestOf p) := by
      rintro ⟨hlive, hdigest⟩
      obtain hfree | hfree := hfree
      · rw [hlive] at hfree
        cases hfree
      · exact hfree hdigest
    refine hexec.trans ?_
    simp only [if_neg (mt hused.mp hidle)]
    rfl

/-! ### IMAGE_QUERY -/

theorem exec_imageQuery (h : Runs s mb i 0x102 [(0, 32, 0xFF)] p) :
    let x := s.part mb.val
    let d := digestOf p
    let gives := fun (st : BitVec 16) (b : List Byte) => exec (.imageQuery mb i) s = .next (responded s mb.val i st b)
    (d = 0 → gives 0 (takePad 128 (x.images.flatMap (fun g => leBytes 32 g.digest.toNat)))) ∧
    (d ≠ 0 → x.image d = none → gives 0x0204 []) ∧
    (∀ g, d ≠ 0 → x.image d = some g → gives 0 g.report) := by
  intro x d gives
  have hexec : exec (.imageQuery mb i) s = .next (serve (
      if d = 0 then answer s mb.val i 0 (takePad 128 (x.images.flatMap (fun g => leBytes 32 g.digest.toNat)))
      else match x.image d with
        | some g => answer s mb.val i 0 g.report
        | none => answer s mb.val i 0x0204 []) mb.val) := by
    rw [show exec (.imageQuery mb i) s = execImageQuery mb i s from rfl, execImageQuery, live_runCmd_of_Runs h]
    rfl
  refine ⟨fun hd => ?_, fun hd hnone => ?_, fun g hd hg => ?_⟩
  · refine hexec.trans ?_
    rw [if_pos hd]
    rfl
  · refine hexec.trans ?_
    rw [if_neg hd, hnone]
    rfl
  · refine hexec.trans ?_
    rw [if_neg hd, hg]
    rfl

end

end Sys2Proof.Machine
end

section
/-!
SUPPORT. What IMAGE_STAGE leaves as each of its phases ends (R338 to R341, R343).
-/
namespace Sys2Proof.Machine

open Sys2Proof.Stated

section
variable {s : State} {mb : Fin 16} {j : Instr} {c : Cmd} {g : Image}

/-- Phase 1: the manifest. -/
theorem exec_stageManifest {man : Option Manifest} (hexec : exec j s = .next (stageManifest s mb.val c man)) (hc : Accepted s mb.val c.idx) :
    let x := s.part mb.val
    let ends := fun (st : BitVec 16) (b : List Byte) => exec j s = .next (finishCmd s mb.val c st b)
    (s.cmdFailed mb.val c = true → ends 0x0501 []) ∧
    (s.cmdFailed mb.val c = false → man = none → ends 0x0401 []) ∧
    ∀ m : Manifest, s.cmdFailed mb.val c = false → man = some m →
      (m.bytes ≠ s.cmdBytes mb.val c → exec j s = .next s) ∧
      (m.bytes = s.cmdBytes mb.val c →
        let signed := Config.keyHashVerify Config.imgKeyHash (Config.sha384 m.bytes) m.sig = true
        let role := m.roles.find? (fun r => r.number.toNat == leField c.payload 64 1)
        (¬ signed → ends 0x0401 []) ∧
        (signed → m.digest ≠ digestOf c.payload → ends 0x0403 []) ∧
        (signed → m.digest = digestOf c.payload → role = none → ends 0x0305 []) ∧
        (∀ r : Role, signed → m.digest = digestOf c.payload → role = some r →
          let suits := (0x0040, 0xB1, 0x0204) ∈ m.accepts ∧ r.cores &&& ~~~ x.cores = 0 ∧ r.layers &&& ~~~ s.mem.layersOn = 0
          let need := roleNeed r
          let free := s.freeBytes mb.val
          let w := wholeImage c m r
          (¬ suits → ends 0x0305 []) ∧
          (suits → free < need → (leField c.payload 65 1 = 0 ∨ leField c.payload 72 8 = 0) →
            ends 0x0201 (leBytes 8 need ++ leBytes 8 free ++ leBytes 8 (need - free))) ∧
          (suits → need ≤ free → (∃ k ∈ w.granules, k ∉ x.freeGranules) → ends 0x0305 []) ∧
          (suits → need ≤ free → (∀ k ∈ w.granules, k ∈ x.freeGranules) → x.image m.digest = none → (s.bulk c.payload 48).isSome = true →
            ∃ t, exec j s = .next t ∧ t.part mb.val = { x with images := x.images ++ [w] } ∧ InPhase t mb.val c.idx 3))) := by
  intro x ends
  have hends : ∀ {st : BitVec 16} {b : List Byte}, stageManifest s mb.val c man = finishCmd s mb.val c st b → ends st b :=
    fun h => hexec.trans (congrArg _ h)
  refine ⟨fun hf => hends ?_, fun hf hman => hends ?_, fun m hf hman => ⟨fun hbytes => ?_, fun hbytes => ?_⟩⟩
  · rw [stageManifest.eq_def, hf]
    rfl
  · rw [stageManifest.eq_def, hf, hman]
    rfl
  · rw [hexec, stageManifest.eq_def, hf, hman]
    simp only [Bool.false_eq_true, if_false, bne_iff_ne, ne_eq, hbytes, not_false_eq_true, if_true]
  subst hman
  intro signed role
  have hread := stageManifest_read hf hbytes
  refine ⟨fun hsig => hends ?_, fun hsig hd => hends ?_, fun hsig hd hrole => hends ?_, fun r hsig hd hrole => ?_⟩
  · rw [hread, if_pos (by simpa [signed] using hsig)]
  all_goals rw [show Config.keyHashVerify Config.imgKeyHash (Config.sha384 m.bytes) m.sig = true from hsig, if_neg (by decide)] at hread
  · rw [hread, if_pos (by simpa using hd)]
  all_goals rw [hd, if_neg (by simp), show m.roles.find? (fun r => r.number.toNat == leField c.payload 64 1) = _ from hrole] at hread
  · exact hread
  intro suits need free w
  refine ⟨fun hsuits => hends ?_, fun hsuits hshort hlenders => hends ?_, fun hsuits hfits hfull => hends ?_,
    fun hsuits hfits hfree hnew hbulk => ?_⟩
  · exact hread.trans (if_neg (mt (roleSuits_iff ..).mp hsuits))
  all_goals replace hread := hread.trans (if_pos ((roleSuits_iff ..).mpr hsuits))
  · rw [hread, sizeImage_short hshort hlenders]
  · obtain ⟨k, hk, hout⟩ := hfull
    have hall : (wholeImage c m r).granules.all (fun k => (s.part mb.val).freeGranules.contains k) = false :=
      List.all_eq_false.mpr ⟨k, hk, by simpa using hout⟩
    rw [hread, sizeImage_fits hfits, hall]
    rfl
  · obtain ⟨hphase, hpart⟩ := sizeImage_staged hc hfits hfree hd hnew hbulk
    exact ⟨_, hexec.trans (congrArg _ hread), hpart, hphase⟩

/-- Phase 2: what the lender asked last has granted. -/
theorem exec_stageLend (hexec : exec j s = .next (stageLend s mb.val c g)) (hc : Accepted s mb.val c.idx)
    (hg : (s.part mb.val).image (digestOf c.payload) = some g) :
    let h := g.granted c.replies
    (h.wants = 0 → (s.bulk c.payload 48).isSome = true → ∃ t, exec j s = .next t ∧ InPhase t mb.val c.idx 3 ∧
      (t.part mb.val).image (digestOf c.payload) = some { h with passNs := passNs s h.borrowed h.lends }) ∧
    (h.wants ≠ 0 → c.asks = [] → ∃ t, exec j s = .next (finishCmd t mb.val c 0x0201 c.report) ∧
      t.part mb.val = { s.part mb.val with images := (s.part mb.val).images.filter (fun h => h.digest != digestOf c.payload) } ∧
      t.skovi.peers.length = s.skovi.peers.length + h.lends.length) ∧
    (∀ (e : Nat) (l : List Nat), h.wants ≠ 0 → c.asks = e :: l → ∃ t m, exec j s = .next t ∧ InPhase t mb.val c.idx 2 ∧
      t.tx = s.tx ++ [{ msg := m, port := none }] ∧ m.dst = BitVec.ofNat 6 e ∧ m.op = 6 ∧
      m.data = [0x31, BitVec.ofNat 8 mb.val] ++ leBytes 2 s.skovi.seqno.toNat ++ leBytes 4 0 ++ leBytes 32 g.digest.toNat ++ leBytes 2 h.wants) := by
  intro h
  have hgranted : Accepted (stageGranted s mb.val c g) mb.val c.idx := hc
  rw [stageLend_eq] at hexec
  refine ⟨fun hwants hbulk => ?_, fun hwants hasks => ?_, fun e l hwants hasks => ?_⟩
  · rw [if_pos hwants] at hexec
    obtain ⟨hphase, hpart⟩ := askShare_leaves hgranted hbulk h
    refine ⟨_, hexec, hphase, ?_⟩
    rw [hpart]
    exact stageGranted_image hg fun _ => rfl
  · rw [if_neg hwants, hasks] at hexec
    obtain ⟨hpart, hpeers⟩ := stageUndone_granted hg
    exact ⟨_, hexec, hpart, hpeers⟩
  · rw [if_neg hwants, hasks] at hexec
    obtain ⟨hphase, m, htx, hdst, hop, hdata⟩ := lenderAsked_leaves mb.isLt hgranted h e l
    exact ⟨_, m, hexec, hphase, htx, hdst, hop, hdata⟩

/-- Phase 3: the share. -/
theorem exec_stageShare (hexec : exec j s = .next (stageShare s mb.val c g)) (hc : Accepted s mb.val c.idx)
    (hg : (s.part mb.val).image (digestOf c.payload) = some g) :
    (s.cmdFailed mb.val c = true → ∃ t, exec j s = .next (finishCmd t mb.val c 0x0501 []) ∧ OnlyMemory s t) ∧
    (s.cmdFailed mb.val c = false → Config.sha384 (s.cmdBytes mb.val c) ≠ g.role.shareSha →
      ∃ t, exec j s = .next (finishCmd t mb.val c 0x0403 []) ∧
        t.part mb.val = { s.part mb.val with images := (s.part mb.val).images.filter (fun h => h.digest != digestOf c.payload) } ∧ t.mem = s.mem) ∧
    (s.cmdFailed mb.val c = false → Config.sha384 (s.cmdBytes mb.val c) = g.role.shareSha → g.borrowed = 0 →
      ∃ t, exec j s = .next (finishCmd t mb.val c 0 (c.report ++ stageReport g)) ∧
        (t.part mb.val).image (digestOf c.payload) = some { g with st := .staged } ∧
        ∀ w, g.role.image = [w] → w.range.len = (s.cmdBytes mb.val c).length → ∀ a, t.byteAt a =
          if w.range.base ≤ a ∧ a < w.range.base + w.range.len then (s.cmdBytes mb.val c).getD (a - w.range.base) 0 else s.byteAt a) ∧
    (s.cmdFailed mb.val c = false → Config.sha384 (s.cmdBytes mb.val c) = g.role.shareSha → g.borrowed ≠ 0 →
      ∃ t, exec j s = .next t ∧ InPhase t mb.val c.idx 4 ∧ t.parts = s.parts) := by
  obtain ⟨hphase, hparts, -, hmem⟩ := shareCopied_leaves hc g
  refine ⟨fun hf => ?_, fun hf hsha => ?_, fun hf hsha hwhole => ?_, fun hf hsha hfar => ?_⟩
  · rw [stageShare_eq, if_pos hf] at hexec
    exact ⟨_, hexec, foldl_copyLocal_onlyMemory ..⟩
  · rw [stageShare_eq, hf, if_neg (by decide), if_pos (by simpa using hsha)] at hexec
    obtain ⟨hpart, -, hkept⟩ := stageUndone_leaves s mb.val g
    rw [Partn.image_digest hg] at hpart
    exact ⟨_, hexec, hpart, hkept⟩
  · rw [stageShare_whole hc hf hsha hwhole] at hexec
    refine ⟨_, hexec, modImage_staged (by rwa [State.part, hparts]), fun w hw hlen a => ?_⟩
    rw [← byteAt_copyLocal_one hwhole hw hlen s a, State.byteAt, State.byteAt, ← hmem]
    rfl
  · rw [stageShare_borrowed hf hsha hfar] at hexec
    have hsends := copyFar_onlySends (shareCopied s mb.val c g) mb.val c.idx g (s.cmdBytes mb.val c)
    exact ⟨_, hexec, hphase.of_mailboxes (by rw [hsends.1]), by rw [hsends.1]; exact hparts⟩

/-- Phase 4: the borrowed ranges. -/
theorem exec_stageDone (hexec : exec j s = .next (stageDone s mb.val c g)) (hg : (s.part mb.val).image (digestOf c.payload) = some g) :
    (s.cmdFailed mb.val c = true → exec j s = .next (finishCmd s mb.val c 0x0501 [])) ∧
    (s.cmdFailed mb.val c = false → ∃ t, exec j s = .next (finishCmd t mb.val c 0 (c.report ++ stageReport g)) ∧
      t = { s with parts := t.parts } ∧ (t.part mb.val).image (digestOf c.payload) = some { g with st := .staged }) := by
  refine ⟨fun hf => ?_, fun hf => ?_⟩
  · rw [hexec, stageDone, hf]
    rfl
  · rw [stageDone_good hf] at hexec
    exact ⟨_, hexec, rfl, modImage_staged hg⟩

end

/-- After the manifest IMAGE_STAGE goes on with the image that it has begun. -/
theorem stageNext_image {s : State} {mb : Nat} {c : Cmd} {g : Image} (hphase : c.phase ≠ 1)
    (hg : (s.part mb).image (digestOf c.payload) = some g) (man : Option Manifest) :
    stageNext mb man s c = if c.phase = 2 then stageLend s mb c g else if c.phase = 3 then stageShare s mb c g else stageDone s mb c g := by
  rw [stageNext, if_neg hphase, hg]

/-- Settles O53: IMAGE_STAGE phase by phase, and the three commands that act at once. -/
theorem imagesAreStagedCommittedAndEvicted : Obligations.ImagesAreStagedCommittedAndEvicted := by
  unfold Obligations.ImagesAreStagedCommittedAndEvicted
  intro s mb i p col x d gives
  refine ⟨exec_imageStage_begins, fun hclocked hup man c hwork => ?_, fun h => ?_, fun h => ?_, exec_imageQuery⟩
  · obtain ⟨hc, rfl⟩ := atWork_found hwork
    have hwaits := imageStage_waits mb c.idx man
    have hexec (hready : s.cmdReady col c = true) := hwaits.exec_ready hclocked hup hwork hready
    refine ⟨hwaits.exec_waiting hclocked hup hwork, fun hready hphase => ?_,
      fun hready g hg => ⟨fun hphase => ?_, fun hphase => ?_, fun hphase => ?_⟩⟩
    · refine exec_stageManifest ?_ hc
      rw [hexec hready, stageNext, if_pos hphase]
    all_goals have hexec := (hexec hready).trans (congrArg _ (stageNext_image (by rw [hphase]; decide) hg man))
    · rw [if_pos hphase] at hexec
      exact exec_stageLend hexec hc hg
    · rw [if_neg (by rw [hphase]; decide), if_pos hphase] at hexec
      exact exec_stageShare hexec hc hg
    · rw [if_neg (by rw [hphase]; decide), if_neg (by rw [hphase]; decide)] at hexec
      exact exec_stageDone hexec hg
  · obtain ⟨hnone, hsome⟩ := exec_imageCommit h
    refine ⟨hnone, fun g hg => ?_⟩
    obtain ⟨hstate, hbusy, hidle⟩ := hsome g hg
    refine ⟨hstate, hbusy, fun hst hlive => ⟨(hidle hst hlive).1, fun hfits => ⟨_, (hidle hst hlive).2 hfits, rfl, State.part_setPart_same .., ?_⟩⟩⟩
    rw [rebuildRegions, State.regionsOf, Table.get_set_same, State.part_setPart_same]
    rfl
  · obtain ⟨hnone, hsome⟩ := exec_imageEvict h
    refine ⟨hnone, fun g hg => ⟨(hsome g hg).1, fun hfree => ?_⟩⟩
    obtain ⟨hpart, hregions, hpeers, hzero⟩ := evictImage_leaves s col g
    rw [Partn.image_digest hg] at hpart
    exact ⟨_, (hsome g hg).2 hfree, hpart, hregions, hpeers,
      fun w hw => hzero w.range (List.mem_append_left _ (List.mem_map_of_mem hw)), fun w hw => hzero w (List.mem_append_right _ hw)⟩

end Sys2Proof.Machine
end

section
/-!
SUPPORT. How POWER_PLAN begins, and a die whose table of cores lists a core twice (R335).
-/
namespace Sys2Proof.Machine

open Sys2Proof.Stated

/-- A command that is answered is among those finished. -/
theorem mem_finished_responded (s : State) (mb : Nat) (i st : BitVec 16) (b : List Byte) : i ∈ ((responded s mb i st b).mailbox mb).finished := by
  have hserved : (responded s mb i st b).mailbox mb = (answer s mb i st b).mailbox mb := by
    rw [responded, serve]
    split <;> rfl
  rw [hserved, answer, State.mailbox_modMailbox_same]
  dsimp only
  split
  · next hlisted => exact List.contains_iff_mem.mp hlisted
  · exact List.mem_append_right _ List.mem_cons_self

/-! ### The beginning of a plan -/

/-- The layers that a plan keeps or adds. -/
def planLayers (p : List Byte) : BitVec 12 := BitVec.ofNat 12 (leField p 0 2)

/-- The cores that a plan keeps or adds. -/
def planCores (p : List Byte) : BitVec 48 := BitVec.ofNat 48 (leField p 8 6)

/-- The die with the cores, layers and ports down that a plan leaves out. -/
def planDown (s : State) (p : List Byte) : State :=
  let u := ((List.range 48).filter (fun c => (s.core c).on && !bit (planCores p) c)).foldl coreDown s
  let u := ((List.range 12).filter (fun l => bit u.mem.layersOn l && !bit (planLayers p) l)).foldl layerDown u
  ([0, 1, 2, 3] : List PortId).foldl (fun u q => if leField p 16 1 / 2 ^ q.val % 2 = 1 then u else portDisable u q) u

/-- The die with a plan begun: what it adds is powering up, and its command runs. -/
def planBegun (s : State) (mb : Nat) (i : BitVec 16) (p : List Byte) : State :=
  let u := planDown s p
  let u := { u with mem := { u.mem with
    layersUp := planLayers p &&& ~~~ s.mem.layersOn
    coresUp := planCores p &&& ~~~ BitVec.ofNat 48 s.coresOn } }
  u.modMailbox mb (fun b => { b with accepted := b.accepted.map (fun (c : Cmd) => if c.idx == i then { c with running := true } else c) })

/-- A plan that enables a port and takes nothing in use begins. -/
theorem exec_powerPlan_begins {s : State} {mb : Fin 16} {i : BitVec 16} {p : List Byte}
    (h : Runs s mb i 0x71 [(0, 1, 0xFF), (1, 1, 0x0F), (8, 6, 0xFF), (16, 1, 0x0F)] p) (hports : leField p 16 1 ≠ 0)
    (hfree : planInUse s (planLayers p) (planCores p) = false) :
    exec (.powerPlan mb i) s = .next (serve (settlePlan (planBegun s mb.val i p)) mb.val) := by
  have hexec : exec (.powerPlan mb i) s = .next (serve (
      if leField p 16 1 = 0 then answer s mb.val i 0x0101 []
      else if planInUse s (planLayers p) (planCores p) then answer s mb.val i 0x0202 []
      else settlePlan (planBegun s mb.val i p)) mb.val) := by
    rw [show exec (.powerPlan mb i) s = execPowerPlan mb i s from rfl, execPowerPlan, live_runCmd_of_Runs h]
    rfl
  rw [hexec, if_neg hports, hfree]
  rfl

/-- A plan that has a core to power up does not end yet. -/
theorem settlePlan_of_coresUp {s : State} (h : s.mem.coresUp ≠ 0) : settlePlan s = s := by
  have hwaits : (s.mem.layersUp != 0 || s.mem.coresUp != 0) = true := Bool.or_eq_true_iff.mpr (.inr (bne_iff_ne.mpr h))
  rw [settlePlan, if_pos hwaits]

/-! ### A core listed twice -/

/-- The plan that keeps core 0 and every port in power, and no layer. -/
def planCore0 : List Byte := leBytes 2 0 ++ leBytes 6 0 ++ leBytes 6 1 ++ [0, 0, 15]

/-- A die with that plan in mailbox 0, and with core 0 in power; its table of cores lists core 0 twice. -/
def core0Twice : State where
  boot := { porstLow := false }
  skovi := { up := true }
  cores := [(0, { on := true }), (0, { on := true })]
  mailboxes := [(0, { st := .ready, accepted := [{ idx := 0, bytes := leBytes 2 0x71 ++ leBytes 2 0 ++ leBytes 2 17 ++ [0, 0, 2, 0] ++ leBytes 6 0 ++ planCore0 }] })]

theorem core0Twice_runs : Runs core0Twice 0 0 0x71 [(0, 1, 0xFF), (1, 1, 0x0F), (8, 6, 0xFF), (16, 1, 0x0F)] planCore0 := by decide +kernel

/-- The two entries of core 0 add up to the bit of core 1. -/
theorem core0Twice_coresOn : core0Twice.coresOn = 2 := by decide

/-- So the plan waits for core 0 to power up, and is not answered. -/
theorem exec_powerPlan_core0Twice : exec (.powerPlan 0 0) core0Twice = .next (planBegun core0Twice 0 0 planCore0) := by
  have hup : (planBegun core0Twice 0 0 planCore0).mem.coresUp = planCores planCore0 &&& ~~~ BitVec.ofNat 48 core0Twice.coresOn := rfl
  rw [exec_powerPlan_begins core0Twice_runs (by decide) (by decide)]
  show Host.Outcome.next (settlePlan (planBegun core0Twice 0 0 planCore0)) = _
  rw [settlePlan_of_coresUp (by rw [hup, core0Twice_coresOn]; decide)]

/-- Refutes O50: a plan that adds nothing is not answered where the table of cores lists a core twice, which no clause excludes. What
is in power is read as a sum over that table (`core0Twice_coresOn`), so the plan takes core 0 for one that must still power up, while
the statement reads core 0 as on. -/
theorem not_powerPlansPowerLayersAndCores : ¬ Obligations.PowerPlansPowerLayersAndCores := by
  unfold Obligations.PowerPlansPowerLayersAndCores
  intro h
  obtain ⟨hplan, -⟩ := h core0Twice (by decide)
  obtain ⟨-, -, -, hanswered⟩ := hplan 0 0 planCore0 core0Twice_runs
  obtain ⟨t, hexec, -⟩ := hanswered (by decide) (by decide) (by decide) (by decide) (by decide)
  have hlisted : 0 ∈ ((responded t (0 : Fin 16).val 0 0 t.planReport).mailbox 0).finished := mem_finished_responded ..
  rw [exec_powerPlan_core0Twice] at hexec
  injection hexec with hexec
  rw [← hexec] at hlisted
  exact absurd hlisted (by decide)

end Sys2Proof.Machine
end

section
/-!
SUPPORT. The checks of an access (R135): what each check asks, what decides once the entry is known, and O24.
-/
namespace Sys2Proof.Machine

/-! ### The entry that covers an access (R135 check 3) -/

/-- An entry covers an access that is valid and lies in its pages. -/
theorem Region.covers_iff (r : Region) (a n : Nat) :
    r.covers a n = true ↔ bit r.attrs 0 = true ∧ r.base * 4096 ≤ a ∧ a + n ≤ (r.last + 1) * 4096 := by
  simp [Region.covers, and_assoc]

/-- The entry found covers the access. -/
theorem covers_of_regionAt {s : State} {colour a n : Nat} {r : Region} (h : s.regionAt colour a n = some r) : r.covers a n = true :=
  List.find?_some (p := fun r : Region => r.covers a n) h

/-- Where the table lists an entry that covers the access, one is found. -/
theorem regionAt_ne_none {s : State} {colour a n : Nat} {r : Region} (hr : r ∈ s.regionsOf colour) (h : r.covers a n = true) :
    s.regionAt colour a n ≠ none := fun hnone =>
  List.find?_eq_none.mp hnone r hr h

/-! ### Credit windows (R135 check 6) -/

/-- A window holds every byte of an access. -/
def Window.holds (w : Window) (a n : Nat) : Prop := w.valid = true ∧ w.base ≤ a ∧ a + n ≤ w.base + w.len

/-- A write to a CRED entry passes by a window of its colour that it names, or by a window of the core that makes it. -/
theorem credOk_iff (s : State) (agent win : Option Nat) (colour a n : Nat) :
    s.credOk agent win colour a n = true ↔
      (∃ w, win = some w ∧ (s.window w).holds a n ∧ (s.window w).colour.toNat = colour) ∨
      (∃ c, agent = some c ∧ ∃ e ∈ s.windows, e.2.holds a n ∧ e.2.owner = c) := by
  unfold State.credOk
  rw [Bool.or_eq_true]
  refine or_congr ?_ ?_
  · cases win with
    | none => simp
    | some w => simp [Window.holds]; tauto
  · cases agent with
    | none => simp
    | some c =>
      simp only [List.any_eq_true, Bool.and_eq_true, decide_eq_true_eq, beq_iff_eq, Option.some.injEq, exists_eq_left', Window.holds]
      exact exists_congr fun e => and_congr_right' (by tauto)

/-! ### An access to memory (R135) -/

section
variable {s : State} {colour a n : Nat} {agent win : Option Nat} {w : Bool}
variable (hn : 0 < n) (hplace : s.place a n = .sm ∨ ∃ c, s.place a n = .cm c)

include hn hplace

/-- Colour 0 passes (R135 check 2). -/
theorem check_colour_zero : s.check 0 agent win w a n = .ok := by
  rw [State.check, if_neg (by omega)]
  rcases hplace with h | ⟨c, h⟩ <;> rw [h] <;> rfl

/-- Without an entry that covers the access it is refused (R135 check 3). -/
theorem check_no_entry (hcol : colour ≠ 0) (h : s.regionAt colour a n = none) : s.check colour agent win w a n = .refused := by
  rw [State.check, if_neg (by omega)]
  rcases hplace with hp | ⟨c, hp⟩ <;> simp [hp, hcol, h]

/-- A read is decided by RD of the entry (R135 check 4). -/
theorem check_read {r : Region} (hcol : colour ≠ 0) (h : s.regionAt colour a n = some r) :
    s.check colour agent win false a n = if r.rd then .ok else .refused := by
  rw [State.check, if_neg (by omega)]
  rcases hplace with hp | ⟨c, hp⟩ <;> simp [hp, hcol, h]

/-- A write is decided by WR and PRIV of the entry, then by its credit (R135 checks 5 and 6). -/
theorem check_write {r : Region} (hcol : colour ≠ 0) (h : s.regionAt colour a n = some r) :
    s.check colour agent win true a n =
      if !r.wr || r.priv then .refused else if r.cred && !s.credOk agent win colour a n then .refused else .ok := by
  rw [State.check, if_neg (by omega)]
  rcases hplace with hp | ⟨c, hp⟩ <;> simp [hp, hcol, h]

/-- A read passes where the entry has RD. -/
theorem check_read_ok_iff {r : Region} (hcol : colour ≠ 0) (h : s.regionAt colour a n = some r) :
    s.check colour agent win false a n = .ok ↔ bit r.attrs 1 = true := by
  rw [check_read hn hplace hcol h, Region.rd]
  cases bit r.attrs 1 <;> simp

/-- A write passes where the entry has WR and no PRIV, and where the credit of a CRED entry lets it. -/
theorem check_write_ok_iff {r : Region} (hcol : colour ≠ 0) (h : s.regionAt colour a n = some r) :
    s.check colour agent win true a n = .ok ↔
      bit r.attrs 2 = true ∧ bit r.attrs 6 = false ∧ (bit r.attrs 5 = true → s.credOk agent win colour a n = true) := by
  rw [check_write hn hplace hcol h, Region.wr, Region.priv, Region.cred]
  cases bit r.attrs 2 <;> cases bit r.attrs 6 <;> simp

end

/-- Settles O24: each check of R135 in its order; the entry found covers the access, and its RD, WR, PRIV and CRED decide. -/
theorem accessChecksAnswerByTheRegionTable : Obligations.AccessChecksAnswerByTheRegionTable := by
  unfold Obligations.AccessChecksAnswerByTheRegionTable
  intro s colour agent win a n
  refine ⟨fun _ => rfl, fun hn => ⟨fun _ => check_unmapped (by omega), fun _ => check_ctl (by omega),
    fun _ hopen => check_colour_zero hn hopen, fun _ hopen hcol => check_no_entry hn hopen hcol,
    fun r hopen hcol hentry => ?_, fun r hr hvalid hbase hlast => ?_⟩⟩
  · obtain ⟨hvalid, hbase, hlast⟩ := (r.covers_iff a n).mp (covers_of_regionAt hentry)
    refine ⟨hvalid, hbase, hlast, check_read_ok_iff hn hopen hcol hentry, ?_⟩
    rw [check_write_ok_iff hn hopen hcol hentry, credOk_iff]
    rfl
  · exact regionAt_ne_none hr ((r.covers_iff a n).mpr ⟨hvalid, hbase, hlast⟩)

end Sys2Proof.Machine
end

section
/-!
SUPPORT. The fill of the instruction cache (R148, R180), and O8: a core that its die lists twice.
-/
namespace Sys2Proof.Machine

open Sys2Proof.Stated

/-- A line that the colour may read and that passes its check is put in front of the cache's lines, after the fill is closed. -/
theorem exec_icacheFill_of_ok {s : State} {c : CoreId} {l : Nat} (h : Clocked s) (hfill : (s.core c.val).icFill = some (l, false))
    (hcheck : s.check (s.core c.val).colour.toNat (some c.val) none false (l * 64) 64 = .ok) (hdet : s.detects (l * 64) 64 = false) :
    exec (.icacheFill c) s = .next ((s.setCore c.val { s.core c.val with icFill := none }).modCore c.val
      (fun k => { k with icache := (l :: k.icache).take icLines, icBad := k.icBad.filter (· != l) })) := by
  rw [show exec (.icacheFill c) s = execIcacheFill c s from rfl, execIcacheFill, live_of_Clocked h]
  simp only [hfill, hcheck, hdet, Bool.false_eq_true, if_false]

/-- A core at its default but for the fill of line 0, which it waits for. -/
def fillingCore : Core := { icFill := some (0, false) }

/-- A die with layer 0 in power, whose table of cores lists core 0 twice. -/
def fillingTwice : State where
  boot := { porstLow := false }
  mem := { layersOn := 1 }
  cores := [(0, fillingCore), (0, fillingCore)]

/-- What ICACHE_FILL leaves of that core. -/
def filledCore : Core := { icache := [0] }

theorem filledCore_ne_default : filledCore ≠ {} := fun h => List.cons_ne_nil 0 [] (congrArg Core.icache h)

/-- With its fill closed core 0 is at its default, and both its entries leave the table. -/
theorem fillingTwice_fillClosed :
    fillingTwice.setCore 0 { fillingTwice.core 0 with icFill := none } = { fillingTwice with cores := [] } :=
  congrArg (fun t => { fillingTwice with cores := t }) (if_pos rfl)

/-- So the filled core is the only one listed. -/
theorem exec_icacheFill_fillingTwice : exec (.icacheFill 0) fillingTwice = .next { fillingTwice with cores := [(0, filledCore)] } := by
  rw [exec_icacheFill_of_ok (l := 0) (by decide) (by decide) (by decide) (by decide)]
  show Host.Outcome.next ((fillingTwice.setCore 0 { fillingTwice.core 0 with icFill := none }).modCore 0 _) = _
  rw [fillingTwice_fillClosed]
  exact congrArg (fun t => Host.Outcome.next { fillingTwice with cores := t }) (if_neg filledCore_ne_default)

/-- The filled core written to the first entry leaves the second. -/
theorem withCore_fillingTwice : withCore fillingTwice 0 filledCore = { fillingTwice with cores := [(0, filledCore), (0, fillingCore)] } :=
  congrArg (fun t => { fillingTwice with cores := t }) (if_neg filledCore_ne_default)

/-- Refutes O8: where the table of cores lists a core twice, which no clause excludes, ICACHE_FILL of a core that is at its default once
the fill is closed takes both entries out and lists the core once (`exec_icacheFill_fillingTwice`), while the statement writes the first
entry and keeps the second (`withCore_fillingTwice`). -/
theorem not_readOnlyCachesFillAndServe : ¬ Obligations.ReadOnlyCachesFillAndServe := by
  unfold Obligations.ReadOnlyCachesFillAndServe
  intro h
  obtain ⟨-, -, hfill, -⟩ := h fillingTwice 0 ⟨0, 0, 0, 0, 0⟩
  have hexec := (exec_icacheFill_fillingTwice.symm.trans (hfill 0 (by decide) (by decide) (by decide) (by decide))).trans
    (congrArg Host.Outcome.next withCore_fillingTwice)
  injection hexec with hexec
  exact absurd (congrArg (fun s : State => s.cores.length) hexec) (by decide)

end Sys2Proof.Machine
end

section
/-!
SUPPORT. Fences and CINV (R145, R146, R149): what a fence leaves of its core at issue and at its end, and O11.
-/
namespace Sys2Proof.Machine

open Sys2Proof.Stated

/-! ### The end of a fence (R145, R146) -/

/-- The core after its fence: it runs, a failed write or probe has failed the step, and FENCE.P has cleared the mask. -/
def Core.fenceEnded (k : Core) (h : Hold) : Core := { k with
  st := .run, hold := none, fenceBad := false, probesSent := false
  csr := { k.csr with stepFail := k.csr.stepFail || k.fenceBad }
  eaMask := if h == .fenceP then 0 else k.eaMask }

/-- The end of a fence changes its core alone. -/
theorem fenceEnd_eq_withCore (s : State) (c : CoreId) (h : Hold) :
    fenceEnd s c.val h = withCore s c ((s.core c.val).fenceEnded h) := rfl

/-- A fence that issues ends at once where nothing is outstanding, and holds the core elsewhere. -/
theorem fenceOp_eq_withCore {s : State} {c : CoreId} (hon : (s.core c.val).on = true) (h : Hold) :
    fenceOp s c.val h = withCore s c
      (if fenceClear s c.val h then (passed (s.core c.val) 8).fenceEnded h else waiting (s.core c.val) h) := by
  have hend : fenceEnd (issued s c.val) c.val h = withCore s c ((passed (s.core c.val) 8).fenceEnded h) := by
    rw [fenceEnd, issued, modCore_modCore hon hon, modCore_eq_withCore, advance_short]
    rfl
  have hhold : s.modCore c.val (fun k => k.holdFor h) = withCore s c (waiting (s.core c.val) h) := by
    rw [modCore_eq_withCore, Core.holdFor, advance_short]
    rfl
  rw [fenceOp, hend, hhold, apply_ite (withCore s c)]

/-! ### Fences at issue -/

/-- The fields of an instruction that uses none but bits of X are in order. -/
theorem fence_fields {f : Fields} (hd : f.d = 0) (ha : f.a = 0) (hb : f.b = 0) (hi : f.imm = 0) {x : Nat}
    (hx : f.x &&& ~~~ BitVec.ofNat 3 x = 0) : f.only false false false x 0 = true := by
  simp [Fields.only, hd, ha, hb, hi, hx]

section
variable {s : State} {c : CoreId} {f : Fields} (h : Issues s c []) (hf : f.only false false false 0 0 = true)

include h hf

/-- A fence that may issue has the effect of its kind. -/
theorem live_fenceOp (x : Hold) :
    live s (issue c.val false (f.only false false false 0 0) [] (fun s => fenceOp s c.val x)) = .next (withCore s c
      (if fenceClear s c.val x then (passed (s.core c.val) 8).fenceEnded x else waiting (s.core c.val) x)) := by
  rw [live_issue_of_Issues h hf, fenceOp_eq_withCore (Core.on_of_issuing h.1.2.1)]

theorem exec_fenceC_of_Issues : exec (.fenceC c f) s = .next (withCore s c
    (if fenceCHolds s c.val then (passed (s.core c.val) 8).fenceEnded .fenceC else waiting (s.core c.val) .fenceC)) :=
  live_fenceOp h hf .fenceC

theorem exec_fenceD_of_Issues : exec (.fenceD c f) s = .next (withCore s c
    (if fenceDHolds s c.val then (passed (s.core c.val) 8).fenceEnded .fenceD else waiting (s.core c.val) .fenceD)) :=
  live_fenceOp h hf .fenceD

/-- FENCE.P passes at once only where no die is in the mask. -/
theorem exec_fenceP_of_Issues : exec (.fenceP c f) s = .next (withCore s c
    (if fenceDHolds s c.val ∧ (s.core c.val).eaMask = 0 then (passed (s.core c.val) 8).fenceEnded .fenceP
      else waiting (s.core c.val) .fenceP)) := by
  have hclear : (fenceDHolds s c.val ∧ (s.core c.val).eaMask = 0) ↔ fenceClear s c.val .fenceP = true := by simp [fenceClear]
  simp only [hclear]
  exact live_fenceOp h hf .fenceP

end

/-- A core whose mask is empty keeps it empty at the end of FENCE.P. -/
theorem fenceEnded_fenceP_of_mask {k : Core} (h : k.eaMask = 0) : k.fenceEnded .fenceP = k.fenceEnded .fenceC := by
  simp [Core.fenceEnded, h]

/-! ### CINV (R149) -/

/-- A core with the caches that X names emptied, and their fills in flight marked to be discarded. -/
def Core.invalidated (k : Core) (x : BitVec 3) : Core := { k with
  icache := if bit x 0 then [] else k.icache, icBad := if bit x 0 then [] else k.icBad
  icFill := if bit x 0 then k.icFill.map (fun p => (p.1, true)) else k.icFill
  ccache := if bit x 1 then [] else k.ccache, ccBad := if bit x 1 then [] else k.ccBad
  ccFill := if bit x 1 then k.ccFill.map (fun p => (p.1, p.2.1, p.2.2.1, true)) else k.ccFill }

/-- A CINV that names a cache leaves the core past it, with those caches invalidated. -/
theorem exec_cinv_of_Issues {s : State} {c : CoreId} {f : Fields} (h : Issues s c []) (hf : f.only false false false 3 0 = true)
    (hx : f.x ≠ 0) : exec (.cinv c f) s = .next (withCore s c ((passed (s.core c.val) 8).invalidated f.x)) := by
  rw [show exec (.cinv c f) s = execCinv c f s from rfl, execCinv, live_issue_of_Issues h hf]
  simp only [if_neg hx, modCore_eq_withCore, advance_short, Core.invalidated]
  cases bit f.x 0 <;> cases bit f.x 1 <;> rfl

/-! ### FENCE_COMPLETE (R145, R146) -/

section
variable {s : State} {c : CoreId} (h : Clocked s)

include h

theorem exec_fenceComplete_fenceC (hhold : (s.core c.val).hold = some .fenceC) (hdone : fenceCHolds s c.val = true) :
    exec (.fenceComplete c) s = .next (withCore s c ((s.core c.val).fenceEnded .fenceC)) := by
  rw [show exec (.fenceComplete c) s = execFenceComplete c s from rfl, execFenceComplete, live_of_Clocked h]
  simp only [hhold, hdone, if_true, fenceEnd_eq_withCore]

theorem exec_fenceComplete_fenceD (hhold : (s.core c.val).hold = some .fenceD) (hdone : fenceDHolds s c.val = true) :
    exec (.fenceComplete c) s = .next (withCore s c ((s.core c.val).fenceEnded .fenceD)) := by
  rw [show exec (.fenceComplete c) s = execFenceComplete c s from rfl, execFenceComplete, live_of_Clocked h]
  simp only [hhold, hdone, if_true, fenceEnd_eq_withCore]

/-- FENCE.P ends once all its probes are answered. -/
theorem exec_fenceComplete_fenceP (hhold : (s.core c.val).hold = some .fenceP) (hdone : fenceDHolds s c.val = true)
    (hsent : (s.core c.val).probesSent = true) (hprobes : probesDone s c.val = true) :
    exec (.fenceComplete c) s = .next (withCore s c ((s.core c.val).fenceEnded .fenceP)) := by
  rw [show exec (.fenceComplete c) s = execFenceComplete c s from rfl, execFenceComplete, live_of_Clocked h]
  simp [hhold, hdone, hsent, hprobes, fenceEnd_eq_withCore]

/-- FENCE.P sends its probes once it has a TAG for each die of its mask that is not ABSENT. -/
theorem exec_fenceComplete_sends (hhold : (s.core c.val).hold = some .fenceP) (hdone : fenceDHolds s c.val = true)
    (hsent : (s.core c.val).probesSent = false)
    (htags : ((bitsSet (s.core c.val).eaMask).filter (fun d => (s.die d).st != .absent)).length ≤ s.freeTags c.val) :
    exec (.fenceComplete c) s = .next (((bitsSet (s.core c.val).eaMask).foldl (sendProbe c.val) s).modCore c.val
      (fun k => { k with probesSent := true })) := by
  rw [show exec (.fenceComplete c) s = execFenceComplete c s from rfl, execFenceComplete, live_of_Clocked h]
  simp [hhold, hdone, hsent, htags]

end

/-- A requester that takes a TAG next has one free (R88). -/
theorem freeTags_pos_of_freshTag {s : State} {r : Nat} {g : BitVec 12} (h : freshTag s r = some g) : 0 < s.freeTags r := by
  rw [State.freeTags, List.length_pos_iff]
  intro hnil
  simp [freshTag, hnil] at h

/-- The probe to a die that is not ABSENT is a WRITE of no bytes, remembered under its TAG (R144, R146). -/
theorem sendProbe_present {s : State} {c : Nat} {d : BitVec 6} {g : BitVec 12} (hdie : (s.die d.toNat).st ≠ .absent)
    (htag : freshTag s c = some g) :
    sendProbe c s d.toNat =
      send { s with reqs := s.reqs ++ [{ tag := g, die := d, colour := s.colourOf c, kind := .fence c, win := none }] }
        (plainMsg s d (s.colourOf c) opWrite 0 g) := by
  rw [sendProbe, if_neg (by simpa using hdie), htag, BitVec.ofNat_toNat, BitVec.setWidth_eq]

/-- Settles O11: a fence by what it waits for at its issue and at its end, FENCE.P by its probes too, and CINV by the caches it names. -/
theorem fencesAndCinvOrderTheCore : Obligations.FencesAndCinvOrderTheCore := by
  unfold Obligations.FencesAndCinvOrderTheCore
  intro s c f
  refine ⟨fun h hd ha hb hi => ⟨fun hx => ?_, fun hlt hx => ?_⟩, fun h => ⟨?_, ?_, ?_, ?_⟩⟩
  · have hf := fence_fields (x := 0) hd ha hb hi (by simp [hx])
    refine ⟨exec_fenceC_of_Issues h hf, exec_fenceD_of_Issues h hf, ?_⟩
    rw [exec_fenceP_of_Issues h hf]
    split
    case isTrue hclear =>
      have hmask : (passed (s.core c.val) 8).eaMask = 0 := hclear.2
      rw [fenceEnded_fenceP_of_mask hmask]
      rfl
    case isFalse => rfl
  · have hmask : f.x &&& ~~~ BitVec.ofNat 3 3 = 0 := by
      revert hlt
      generalize f.x = x
      revert x
      decide
    exact exec_cinv_of_Issues h (fence_fields hd ha hb hi hmask) hx
  · exact exec_fenceComplete_fenceC h
  · exact exec_fenceComplete_fenceD h
  · intro d g hhold hdone hsent hmask hdie htag
    have htags : ((bitsSet (s.core c.val).eaMask).filter (fun d => (s.die d).st != .absent)).length ≤ s.freeTags c.val := by
      rw [hmask]
      exact (List.length_filter_le _ _).trans (freeTags_pos_of_freshTag htag)
    rw [exec_fenceComplete_sends h hhold hdone hsent htags, hmask, List.foldl_cons, List.foldl_nil, sendProbe_present hdie htag]
    rfl
  · exact exec_fenceComplete_fenceP h

end Sys2Proof.Machine
end

section
/-!
SUPPORT. Mailbox windows (R304 to R307): what a write of a register or of request slots leaves of a mailbox, what becomes of a
message by its gate and its form, and O44.
-/
namespace Sys2Proof.Machine

open Sys2Proof.Stated

/-! ### One mailbox changed -/

/-- A change of a mailbox changes it alone. -/
theorem onlyMailbox_modMailbox (s : State) (mb : Nat) (f : Mailbox → Mailbox) :
    OnlyMailbox s (s.modMailbox mb f) mb (f (s.mailbox mb)) :=
  ⟨rfl, State.mailbox_modMailbox_same .., fun m hm => by rw [State.mailbox_modMailbox, if_neg hm]⟩

/-- A window is shut to the host where no partition stands behind it (R306). -/
theorem shut_iff (s : State) (mb : Nat) : s.shut mb = true ↔ ¬ HostMayWrite s mb := by
  simp [State.shut]

/-- A write to a shut window sets BAD_ACCESS (R306). -/
theorem hostWrite_shut {s : State} {mb : Nat} (h : ¬ HostMayWrite s mb) (off : Nat) (data : List Byte) :
    hostWrite s mb off data = s.modMailbox mb (·.raise 2) := by
  simp only [hostWrite, (shut_iff s mb).mpr h, if_true]

/-- A write to a window that the host may write is the mailbox's own (R306). -/
theorem hostWrite_open {s : State} {mb : Nat} (h : HostMayWrite s mb) (off : Nat) (data : List Byte) :
    hostWrite s mb off data = s.modMailbox mb (·.write off data) := by
  have hopen : s.shut mb = false := Bool.eq_false_iff.mpr fun hshut => (shut_iff s mb).mp hshut h
  simp only [hostWrite, hopen, Bool.false_eq_true, if_false]

/-- Only its mailbox changes with a host's write to a shut window (R306). -/
theorem onlyMailbox_hostWrite_shut {s : State} {mb : Nat} (h : ¬ HostMayWrite s mb) (off : Nat) (data : List Byte) :
    OnlyMailbox s (hostWrite s mb off data) mb ((s.mailbox mb).raise 2) := by
  rw [hostWrite_shut h]
  exact onlyMailbox_modMailbox ..

/-- Only its mailbox changes with a host's write to an open window (R306). -/
theorem onlyMailbox_hostWrite_open {s : State} {mb : Nat} (h : HostMayWrite s mb) (off : Nat) (data : List Byte) :
    OnlyMailbox s (hostWrite s mb off data) mb ((s.mailbox mb).write off data) := by
  rw [hostWrite_open h]
  exact onlyMailbox_modMailbox ..

/-! ### Writes of a mailbox (R306, R307, R393) -/

/-- A write of all 8 bytes of a register is that register's (R307). -/
theorem Mailbox.write_register (b : Mailbox) {off : Nat} (hoff : 0x8000 ≤ off) (h8 : off % 8 = 0) (v : Word) :
    b.write off (leBytes 8 v.toNat) = b.writeReg off v := by
  have hring : (((List.range 8).map (· + off)).zip (leBytes 8 v.toNat)).filter (fun (x : Nat × Byte) => x.1 < 0x8000) = [] := by
    refine List.filter_eq_nil_iff.mpr fun x hx => ?_
    obtain ⟨i, -, hi⟩ := List.mem_map.mp (List.of_mem_zip hx).1
    simp only [decide_eq_true_eq]
    omega
  have hfirst : Nat.max 0x8000 (off / 8 * 8) = off := by
    rw [show off / 8 * 8 = off by omega]
    exact Nat.max_eq_right hoff
  have hwords : (off + 8 + 7 - off) / 8 = 1 := by omega
  have hvalue : BitVec.ofNat 64 (leNat ((leBytes 8 v.toNat).take 8)) = v := by
    rw [List.take_of_length_le (by simp), leNat_leBytes, Nat.mod_eq_of_lt (show v.toNat < 256 ^ 8 from v.isLt),
      BitVec.ofNat_toNat, BitVec.setWidth_eq]
  simp only [Mailbox.write, leBytes_length, hring, hfirst, hwords, List.foldl_nil]
  simp [writeWord, hvalue]

/-- REQ_TAIL takes a value in range, and TAIL_OVER is set for any other (R307). -/
theorem Mailbox.write_reqTail (b : Mailbox) (v : Word) :
    let x : BitVec 16 := v.setWidth 16
    b.write 0x8010 (leBytes 8 v.toNat) =
      if (x - b.reqHead).toNat ≤ 64 ∧ (x - b.reqSeen).toNat ≤ (x - b.reqHead).toNat then { b with reqTail := x } else b.raise 0 := by
  rw [b.write_register (by decide) (by decide)]
  show b.writeTail (v.setWidth 16) = _
  simp only [Mailbox.writeTail, Bool.and_eq_true, decide_eq_true_eq]

/-- RSP_HEAD takes a value in range, and HEAD_OVER is set for any other (R307). -/
theorem Mailbox.write_rspHead (b : Mailbox) (v : Word) :
    let x : BitVec 16 := v.setWidth 16
    b.write 0x8030 (leBytes 8 v.toNat) =
      if (x - b.rspHead).toNat ≤ (b.rspTail - b.rspHead).toNat then { b with rspHead := x } else b.raise 1 :=
  b.write_register (by decide) (by decide) v

/-- DOORBELL rings (R317). -/
theorem Mailbox.write_doorbell (b : Mailbox) : b.write 0x8038 (leBytes 8 0) = { b with bell := true } :=
  b.write_register (by decide) (by decide) 0

/-- Bytes put into slots that the host owns are written one after the other (R306). -/
theorem Mailbox.foldl_writeRam (d : List Byte) (b : Mailbox) (off : Nat) (hring : off + d.length ≤ 0x4000)
    (hown : ∀ x < off + d.length, off ≤ x → b.skoviOwns (x / 256) = false) :
    ((List.range' off d.length).zip d).foldl Mailbox.writeRam b = { b with ram := putBytes b.ram off d } := by
  induction d generalizing b off with
  | nil => rfl
  | cons v d ih =>
    simp only [List.length_cons] at hring hown
    have hfree : b.skoviOwns (off / 256) = false := hown off (by omega) le_rfl
    have hfirst : b.writeRam (off, v) = { b with ram := Table.set 0 b.ram off v } := by
      simp only [Mailbox.writeRam, hfree, Bool.or_false]
      exact if_neg (by simp; omega)
    have hrest := ih { b with ram := Table.set 0 b.ram off v } (off + 1) (by omega) fun x hx hlo => hown x (by omega) (by omega)
    rw [List.length_cons, List.range'_succ, List.zip_cons_cons, List.foldl_cons, hfirst, hrest]
    rfl

/-- A write into request slots that the host owns puts its bytes there, and touches no register (R306). -/
theorem Mailbox.write_ring (b : Mailbox) {off : Nat} {d : List Byte} (hring : off + d.length ≤ 0x4000)
    (hown : ∀ x < off + d.length, off ≤ x → b.skoviOwns (x / 256) = false) :
    b.write off d = { b with ram := putBytes b.ram off d } := by
  have hall : (((List.range d.length).map (· + off)).zip d).filter (fun (x : Nat × Byte) => x.1 < 0x8000) =
      (List.range' off d.length).zip d := by
    have hrange : (List.range d.length).map (· + off) = List.range' off d.length := by
      rw [List.range'_eq_map_range]
      exact List.map_congr_left fun i _ => Nat.add_comm ..
    rw [hrange]
    refine List.filter_eq_self.mpr fun x hx => ?_
    have hx' := List.mem_range'_1.mp (List.of_mem_zip hx).1
    simp only [decide_eq_true_eq]
    omega
  have hwords : (off + d.length + 7 - Nat.max 0x8000 (off / 8 * 8)) / 8 = 0 := by
    have hmax : 0x8000 ≤ Nat.max 0x8000 (off / 8 * 8) := Nat.le_max_left ..
    omega
  simp only [Mailbox.write, hall, hwords]
  exact Mailbox.foldl_writeRam d b off hring hown

/-- What the window reads after bytes are put into its request ring. -/
theorem Mailbox.byte_putBytes (b : Mailbox) {off : Nat} {d : List Byte} (hring : off + d.length ≤ 0x4000) (y : Nat) :
    Mailbox.byte { b with ram := putBytes b.ram off d } y = if off ≤ y ∧ y < off + d.length then d.getD (y - off) 0 else b.byte y := by
  by_cases hy : y < 0x8000
  · simp only [Mailbox.byte, if_pos hy, get_putBytes]
  · rw [if_neg (by omega)]
    simp only [Mailbox.byte, if_neg hy]
    rfl

/-! ### The window and the gate of a message (R136) -/

/-- An address in window mb is one of mailbox mb. -/
theorem mbOf_window {mb : Fin 16} {a : Nat} (hlo : mbBase mb.val ≤ a) (hhi : a < mbBase mb.val + 0x10000) : mbOf a = some mb.val := by
  have hmb := mb.isLt
  simp only [mbBase] at hlo hhi
  rw [mbOf, if_pos (by simp; omega)]
  exact congrArg some (by omega)

/-- The gate admits a Hub's message of colour 0 or of the window's own colour (R136). -/
theorem mbGate_admits {s : State} {m : Msg} {mb : Fin 16} (hrole : (s.die m.src.toNat).role = 1)
    (hcol : m.colour = 0 ∨ m.colour.toNat = mb.val) (hlo : mbBase mb.val ≤ m.addr.toNat) (hhi : m.addr.toNat < mbBase mb.val + 0x10000) :
    mbGate s m = some mb.val := by
  rw [mbGate, mbOf_window hlo hhi]
  exact if_pos (by simpa [hrole] using hcol)

/-- The gate admits no message but a Hub's (R136). -/
theorem mbGate_other {s : State} {m : Msg} (hrole : (s.die m.src.toNat).role ≠ 1) : mbGate s m = none := by
  rw [mbGate]
  cases mbOf m.addr.toNat with
  | none => rfl
  | some mb =>
    refine if_neg fun h => hrole ?_
    simp only [Bool.and_eq_true, beq_iff_eq] at h
    exact h.1

/-! ### The form of a message (R304) -/

/-- The first byte of a message is its MTYPE. -/
theorem leField_first (t : Byte) (l : List Byte) : leField (t :: l) 0 1 = t.toNat := by
  simp [leField, takePad, leNat]

/-- An MB_WRITE of 1 to 4,096 bytes inside its window is in form. -/
theorem mbForm_write {m : Msg} {mb : Nat} {d : List Byte} (hdata : m.data = [0x10, 0, 0, 0, 0, 0, 0, 0] ++ d) (hbad : m.bad = false)
    (hhi : m.addr.toNat + d.length ≤ mbBase mb + 0x10000) (hpos : 1 ≤ d.length) (hmax : d.length ≤ 4096) :
    mbForm m mb = some d.length := by
  have htype : leField m.data 0 1 = 0x10 := by rw [hdata]; exact leField_first ..
  have hrsv : leField m.data 1 7 = 0 := by rw [hdata]; exact leField_mid [0x10] [0, 0, 0, 0, 0, 0, 0] d
  have hlen : m.data.length = d.length + 8 := by simp [hdata]
  simp only [mbForm, htype, hrsv, hlen, hbad]
  have hne : d ≠ [] := List.ne_nil_of_length_pos hpos
  exact if_neg (by simpa using ⟨⟨hne, hmax⟩, hhi⟩)

/-- An MB_READ of 1 to 4,096 bytes inside its window is in form. -/
theorem mbForm_read {m : Msg} {mb n : Nat} (hdata : m.data = [0x11, 0] ++ leBytes 2 n ++ [0, 0, 0, 0]) (hbad : m.bad = false)
    (hhi : m.addr.toNat + n ≤ mbBase mb + 0x10000) (hpos : 1 ≤ n) (hmax : n ≤ 4096) : mbForm m mb = some n := by
  have htype : leField m.data 0 1 = 0x11 := by rw [hdata]; exact leField_first ..
  have hn : leField m.data 2 2 = n := by
    have hmid := leField_mid [0x11, 0] (leBytes 2 n) [0, 0, 0, 0]
    rw [leNat_leBytes, leBytes_length, ← List.append_assoc, Nat.mod_eq_of_lt (by omega)] at hmid
    rw [hdata]
    exact hmid
  have hrsv1 : leField m.data 1 1 = 0 := by rw [hdata]; exact leField_mid [0x11] [0] _
  have hrsv4 : leField m.data 4 4 = 0 := by
    rw [hdata]
    exact leField_mid ([0x11, 0] ++ leBytes 2 n) [0, 0, 0, 0] []
  have hlen : m.data.length = 8 := by rw [hdata]; rfl
  simp only [mbForm, htype, hn, hrsv1, hrsv4, hlen, hbad]
  exact if_neg (by simp; omega)

/-- A message that carries nothing behind its header is a malformed one, unless it reads. -/
theorem mbForm_empty {m : Msg} (mb : Nat) (hlen : m.data.length ≤ 8) (hread : leField m.data 0 1 ≠ 0x11) : mbForm m mb = none := by
  have hnone : m.data.length - 8 = 0 := by omega
  simp only [mbForm, if_neg hread, hnone]
  exact if_pos (by simp)

/-! ### A mailbox message (R304, R305) -/

/-- A Pennant is no mailbox message (R411). -/
theorem mailboxMessage_pennant {m : Msg} (h : leField m.data 0 1 = 1) (s : State) : mailboxMessage s m = s := by
  simp [mailboxMessage, h]

/-- A message behind another of its mailbox waits (R305). -/
theorem mailboxMessage_behind {s : State} {m : Msg} (h : s.mailBehind m = true) : mailboxMessage s m = s := by
  simp [mailboxMessage, h]

/-- The second of two messages for one window is behind the first (R305). -/
theorem mailBehind_second {s : State} {m : Msg} {a a' : Arrived} {mb : Fin 16} (harr : s.arrived = [a, a']) (ha' : a'.msg = m)
    (hne : a.msg ≠ m) (hop : a.msg.op = 6) (htype : leField a.msg.data 0 1 ≠ 1) (hfirst : mbOf a.msg.addr.toNat = some mb.val)
    (hsecond : mbOf m.addr.toNat = some mb.val) : s.mailBehind m = true := by
  simp [State.mailBehind, mbAddressed, harr, ha', hne, hop, htype, hfirst, hsecond, opMgmt]

section
variable {s : State} {m : Msg} (harr : s.arrived = [])

include harr

/-- A read in form is answered with the window's bytes (R304). -/
theorem mailboxMessage_read {mb n : Nat} (hread : leField m.data 0 1 = 0x11) (hgate : mbGate s m = some mb)
    (hform : mbForm m mb = some n) :
    mailboxMessage s m = mbReply s m 0 ((s.mailbox mb).bytes (m.addr.toNat - mbBase mb) n) := by
  simp only [mailboxMessage, hread, State.mailBehind, harr, takeMsg_of_arrived_nil harr, hgate, hform]
  rfl

variable (htype : leField m.data 0 1 ≠ 1)

include htype

/-- A message that the gate turns away is logged and refused (R136). -/
theorem mailboxMessage_refused (hgate : mbGate s m = none) :
    mailboxMessage s m = mbReply (raiseUnit s fColourRefused m.colour 16 (some m.src) 0) m 3 [] := by
  simp only [mailboxMessage, htype, State.mailBehind, harr, takeMsg_of_arrived_nil harr, hgate]
  rfl

variable {mb : Nat} (hgate : mbGate s m = some mb)

include hgate

/-- A malformed message sets BAD_MESSAGE and is logged (R304). -/
theorem mailboxMessage_malformed (hform : mbForm m mb = none) :
    mailboxMessage s m = mbReply (raiseUnit (s.modMailbox mb (·.raise 3)) fMailboxProtocol m.colour 16 (some m.src) 0) m 5 [] := by
  simp only [mailboxMessage, htype, State.mailBehind, harr, takeMsg_of_arrived_nil harr, hgate, hform]
  rfl

/-- A write in form is the host's write (R305). -/
theorem mailboxMessage_write {n : Nat} (hread : leField m.data 0 1 ≠ 0x11) (hform : mbForm m mb = some n) :
    mailboxMessage s m = mbReply (hostWrite s mb (m.addr.toNat - mbBase mb) (m.data.drop 8)) m 0 [] := by
  simp only [mailboxMessage, htype, State.mailBehind, harr, takeMsg_of_arrived_nil harr, hgate, hform, if_neg hread]
  rfl

end

/-- The answer of a mailbox message leaves where the source is there, or is reached over the sideband (R103, R304). -/
theorem mbReply_reached {s : State} {m : Msg} (h : (s.die m.src.toNat).st ≠ .absent ∨ (s.die m.src.toNat).sbReach = true)
    (status : BitVec 4) (data : List Byte) :
    mbReply s m status data = { s with tx := s.tx ++
      [answerTo m 6 status ([if leField m.data 0 1 = 0x11 then 0x12 else 0x13, 0, 0, 0, 0, 0, 0, 0] ++ data)] } := by
  rw [mbReply, answerMsg, if_neg]
  · rfl
  · simp only [Bool.and_eq_true, beq_iff_eq]
    rintro ⟨hst, hsb⟩
    rcases h with hpresent | hreach
    · exact hpresent hst
    · simp [hreach] at hsb

section
variable {s : State} {m : Msg} {mb : Fin 16} (hclk : Clocked s)

include hclk

/-- Both commands perform the message that waits (R304, R305). -/
theorem exec_mailboxMessage :
    exec (.mbWrite m) s = .next (mailboxMessage s m) ∧ exec (.mbRead m) s = .next (mailboxMessage s m) := by
  rw [show exec (.mbWrite m) s = execMbWrite m s from rfl, show exec (.mbRead m) s = execMbRead m s from rfl,
    execMbWrite, execMbRead, live_of_Clocked hclk]
  exact ⟨rfl, rfl⟩

/-- REQ_TAIL_WRITE is a host's write of REQ_TAIL (R307). -/
theorem exec_reqTailWrite (v : Word) : exec (.reqTailWrite mb v) s = .next (hostWrite s mb.val 0x8010 (leBytes 8 v.toNat)) := by
  rw [show exec (.reqTailWrite mb v) s = execReqTailWrite mb v s from rfl, execReqTailWrite, live_of_Clocked hclk]

/-- RSP_HEAD_WRITE is a host's write of RSP_HEAD (R307). -/
theorem exec_rspHeadWrite (v : Word) : exec (.rspHeadWrite mb v) s = .next (hostWrite s mb.val 0x8030 (leBytes 8 v.toNat)) := by
  rw [show exec (.rspHeadWrite mb v) s = execRspHeadWrite mb v s from rfl, execRspHeadWrite, live_of_Clocked hclk]

/-- DOORBELL is a host's write of the register of that name (R317). -/
theorem exec_doorbell : exec (.doorbell mb) s = .next (hostWrite s mb.val 0x8038 (leBytes 8 0)) := by
  rw [show exec (.doorbell mb) s = execDoorbell mb s from rfl, execDoorbell, live_of_Clocked hclk]

/-- A Hub's MB_WRITE in form is the host's write, and is acknowledged (R305). -/
theorem exec_mbWrite_of_HubMessage {d : List Byte} (hdata : m.data = [0x10, 0, 0, 0, 0, 0, 0, 0] ++ d)
    (hhub : HubMessage s m mb.val d.length) :
    exec (.mbWrite m) s = .next { hostWrite s mb.val (m.addr.toNat - mbBase mb.val) d with
      tx := s.tx ++ [answerTo m 6 0 [0x13, 0, 0, 0, 0, 0, 0, 0]] } := by
  obtain ⟨hbad, harr, hrole, hway, hcol, hlo, hhi, hpos, hmax⟩ := hhub
  have htype : leField m.data 0 1 = 0x10 := by rw [hdata]; exact leField_first ..
  have hread : leField m.data 0 1 ≠ 0x11 := by rw [htype]; decide
  have hgate : mbGate s m = some mb.val := mbGate_admits hrole hcol hlo (by omega)
  have hdrop : m.data.drop 8 = d := by rw [hdata]; rfl
  rw [(exec_mailboxMessage hclk).1,
    mailboxMessage_write harr (by rw [htype]; decide) hgate hread (mbForm_write hdata hbad hhi hpos hmax), hdrop,
    mbReply_reached (s := hostWrite ..) hway, if_neg hread]
  rfl

/-- A Hub's MB_READ in form is answered with the window's bytes (R304). -/
theorem exec_mbRead_of_HubMessage {n : Nat} (hdata : m.data = [0x11, 0] ++ leBytes 2 n ++ [0, 0, 0, 0]) (hhub : HubMessage s m mb.val n) :
    exec (.mbRead m) s = .next { s with tx := s.tx ++
      [answerTo m 6 0 ([0x12, 0, 0, 0, 0, 0, 0, 0] ++ (s.mailbox mb.val).bytes (m.addr.toNat - mbBase mb.val) n)] } := by
  obtain ⟨hbad, harr, hrole, hway, hcol, hlo, hhi, hpos, hmax⟩ := hhub
  have hread : leField m.data 0 1 = 0x11 := by rw [hdata]; exact leField_first ..
  have hgate : mbGate s m = some mb.val := mbGate_admits hrole hcol hlo (by omega)
  rw [(exec_mailboxMessage hclk).2, mailboxMessage_read harr hread hgate (mbForm_read hdata hbad hhi hpos hmax),
    mbReply_reached hway, if_pos hread]

/-- A message of no Hub is logged and refused whole (R136). -/
theorem exec_mbWrite_refused (harr : s.arrived = []) (hdie : (s.die m.src.toNat).st ≠ .absent) (hread : leField m.data 0 1 ≠ 0x11)
    (htype : leField m.data 0 1 ≠ 1) (hrole : (s.die m.src.toNat).role ≠ 1) :
    exec (.mbWrite m) s = .next { raiseUnit s fColourRefused m.colour 16 (some m.src) 0 with
      tx := s.tx ++ [answerTo m 6 3 [0x13, 0, 0, 0, 0, 0, 0, 0]] } := by
  rw [(exec_mailboxMessage hclk).1, mailboxMessage_refused harr htype (mbGate_other hrole), mbReply_reached (s := raiseUnit ..) (.inl hdie),
    if_neg hread]
  rfl

/-- A Hub's message with nothing behind its header sets BAD_MESSAGE, is logged, and is answered as malformed (R304). -/
theorem exec_mbWrite_malformed (harr : s.arrived = []) (hdie : (s.die m.src.toNat).st ≠ .absent) (hread : leField m.data 0 1 ≠ 0x11)
    (htype : leField m.data 0 1 ≠ 1) (hgate : mbGate s m = some mb.val) (hlen : m.data.length ≤ 8) :
    exec (.mbWrite m) s = .next { raiseUnit (s.modMailbox mb.val (·.raise 3)) fMailboxProtocol m.colour 16 (some m.src) 0 with
      tx := s.tx ++ [answerTo m 6 5 [0x13, 0, 0, 0, 0, 0, 0, 0]] } := by
  rw [(exec_mailboxMessage hclk).1, mailboxMessage_malformed harr htype hgate (mbForm_empty mb.val hlen hread),
    mbReply_reached (s := raiseUnit (s.modMailbox ..) ..) (.inl hdie), if_neg hread]
  rfl

end

/-- Settles O44: each register by its own write, and each message by its turn, its gate, its form and what it then does. -/
theorem mailboxWindowsTakeTheHostsWrites : Obligations.MailboxWindowsTakeTheHostsWrites := by
  unfold Obligations.MailboxWindowsTakeTheHostsWrites
  intro s mb hclk
  refine ⟨fun hshut v => ⟨?_, ?_, ?_⟩, fun hopen v => ⟨?_, ?_, ?_⟩, fun m d hdata hhub => ⟨fun hopen hring hown => ?_, fun hshut => ?_⟩,
    fun m n hdata hhub => exec_mbRead_of_HubMessage hclk hdata hhub, fun i _ => rfl, fun m htype => ?_,
    fun m a a' harr ha' hne hop htype hlo hhi hlo' hhi' => ?_,
    fun m harr hdie hread htype => ⟨fun hrole => ?_, fun hlen hrole hcol hlo hhi => ?_⟩⟩
  · exact ⟨_, exec_reqTailWrite hclk v, onlyMailbox_hostWrite_shut hshut ..⟩
  · exact ⟨_, exec_rspHeadWrite hclk v, onlyMailbox_hostWrite_shut hshut ..⟩
  · exact ⟨_, exec_doorbell hclk, onlyMailbox_hostWrite_shut hshut ..⟩
  · exact ⟨_, exec_reqTailWrite hclk v, Mailbox.write_reqTail _ v ▸ onlyMailbox_hostWrite_open hopen ..⟩
  · exact ⟨_, exec_rspHeadWrite hclk v, Mailbox.write_rspHead _ v ▸ onlyMailbox_hostWrite_open hopen ..⟩
  · exact ⟨_, exec_doorbell hclk, Mailbox.write_doorbell _ ▸ onlyMailbox_hostWrite_open hopen ..⟩
  · refine ⟨_, _, exec_mbWrite_of_HubMessage hclk hdata hhub, onlyMailbox_hostWrite_open hopen .., ?_, fun y => ?_⟩
    · rw [Mailbox.write_ring _ hring hown]
    · rw [Mailbox.write_ring _ hring hown]
      exact Mailbox.byte_putBytes _ hring y
  · exact ⟨_, exec_mbWrite_of_HubMessage hclk hdata hhub, onlyMailbox_hostWrite_shut hshut ..⟩
  · have hexec := exec_mailboxMessage (m := m) hclk
    rwa [mailboxMessage_pennant htype] at hexec
  · have hexec := exec_mailboxMessage (m := m) hclk
    rwa [mailboxMessage_behind (mailBehind_second harr ha' hne hop htype (mbOf_window hlo hhi) (mbOf_window hlo' hhi'))] at hexec
  · exact ⟨_, exec_mbWrite_refused hclk harr hdie hread htype hrole, rfl⟩
  · refine ⟨_, exec_mbWrite_malformed hclk harr hdie hread htype (mbGate_admits hrole hcol hlo hhi) hlen, ?_, rfl⟩
    exact State.mailbox_modMailbox_same s mb.val (·.raise 3)

end Sys2Proof.Machine
end

section
/-!
SUPPORT. An engine reset of a mover (R175, R198): the occupancy record of a window that it settles may be refused, and O57.
-/
namespace Sys2Proof.Machine

open Sys2Proof.Stated

/-- Core 0 of colour 1 in power, which owns window 0 with one filled unit not yet released. The occupancy record lies in the core's own
memory, and no region of the colour covers it. -/
def occUncovered : State where
  boot := { porstLow := false }
  cores := [(0, { on := true, colour := 1 })]
  windows := [(0, { valid := true, colour := 1, owner := 0, base := 0x8000001000, len := 0x1000, occ := 0x8000000000, filled := 1 })]

/-- The record that the settled window writes is refused (R135). -/
theorem occUncovered_check : occUncovered.check 1 (some 0) none true 0x8000000000 8 = .refused := by decide

/-- So an engine reset of the mover raises F_COLOUR_REFUSED on its core (R166, R175, R353). -/
theorem resetEngine_occUncovered : ((resetEngine occUncovered 0 5).core 0).csr.fault = fColourRefused := by decide

theorem exec_cuEngineReset_occUncovered : exec (.cuEngineReset 0 5) occUncovered = .next (resetEngine occUncovered 0 5) := rfl

/-- Refutes O57: an engine reset of the mover writes the occupancy record of a window that the core owns, and where the region table
refuses that write the core's FAULT takes the code (`resetEngine_occUncovered`), while the statement keeps every CSR but STEP_FAIL. -/
theorem not_coreControlsActInTheirStates : ¬ Obligations.CoreControlsActInTheirStates := by
  unfold Obligations.CoreControlsActInTheirStates
  intro h
  obtain ⟨-, hon⟩ := h occUncovered 0 (by decide)
  obtain ⟨-, -, -, -, -, -, -, hengine, -⟩ := hon rfl
  obtain ⟨t, hexec, -, -, hcsr, -⟩ := hengine 5 (by decide)
  injection exec_cuEngineReset_occUncovered.symm.trans hexec with hreset
  have hfault : ((resetEngine occUncovered 0 5).core 0).csr.fault = 0 := hreset ▸ congrArg Csr.fault hcsr
  rw [resetEngine_occUncovered] at hfault
  exact absurd hfault (by decide)

end Sys2Proof.Machine
end

section
/-!
SUPPORT. The mover's instructions at issue (R153, R154, R172, R185, R187): a full queue, an instruction that takes its slot of the queue,
and O26.
-/
namespace Sys2Proof.Machine

open Sys2Proof.Stated

/-! ### One core changed -/

/-- With core c replaced only core c changes. -/
theorem withCore_onlyCore (s : State) (c : CoreId) (k : Core) : OnlyCore s (withCore s c k) c k :=
  ⟨rfl, State.core_setCore_same s c.val k, fun d hd => (State.core_setCore s c.val d k).trans (if_neg hd)⟩

/-- Two changes of a core in power are one. -/
theorem modCore_modCore_eq_withCore {s : State} {c : CoreId} {f g : Core → Core} (hf : (f (s.core c.val)).on = true)
    (hg : (g (f (s.core c.val))).on = true) : (s.modCore c.val f).modCore c.val g = withCore s c (g (f (s.core c.val))) := by
  rw [modCore_modCore hf hg, modCore_eq_withCore]

/-! ### Held in the CU (R177, R188) -/

theorem heldData_eq_withCore (s : State) (c : CoreId) : heldData s c.val = withCore s c (heldByData (s.core c.val)) := by
  rw [heldData, modCore_eq_withCore]
  congr 1
  simp only [Csr.countHeldData, Csr.setWrap, bump32, heldByData, beq_iff_eq]
  split <;> rfl

theorem heldQueue_eq_withCore (s : State) (c : CoreId) : heldQueue s c.val = withCore s c (heldByQueue (s.core c.val)) := by
  rw [heldQueue, modCore_eq_withCore]
  congr 1
  simp only [Csr.countHeldQueue, Csr.setWrap, bump32, heldByQueue, beq_iff_eq]
  split <;> rfl

/-! ### The mover's queue (R185, R187) -/

/-- The die once an MV instruction has taken its slot of the mover's queue. -/
def takeMv (c : CoreId) (op : EOp) (f : Fields) (s : State) : State := s.modCore c.val (takenMv · op f)

theorem takeMv_eq_withCore (s : State) (c : CoreId) (op : EOp) (f : Fields) : takeMv c op f s = withCore s c (takenMv (s.core c.val) op f) := rfl

/-- A full queue of the mover holds an MV instruction. -/
theorem mvIssue_full {s : State} {c : CoreId} {op : EOp} {f : Fields} {eff : (State → State) → State → State}
    (h : ¬ ((s.core c.val).queue 5).length < 16) : mvIssue c.val op f eff s = withCore s c (heldByQueue (s.core c.val)) := by
  rw [mvIssue, if_pos (Nat.not_lt.mp h), heldQueue_eq_withCore]

/-- With room in the queue an MV instruction has its effect, which takes the slot. -/
theorem mvIssue_room {s : State} {c : CoreId} {op : EOp} {f : Fields} {eff : (State → State) → State → State}
    (h : ((s.core c.val).queue 5).length < 16) : mvIssue c.val op f eff s = eff (takeMv c op f) s := by
  rw [mvIssue, if_neg (Nat.not_le.mpr h)]
  simp only [advance_short]
  rfl

/-! ### MVCFG (R153) -/

section
variable {s : State} {c : CoreId} {f : Fields} (h : Issues s c [f.a, f.b]) (hf : f.only false true true 0 0xF = true)

/-- What MVCFG requires of the rings, the depth and the channel (R153). -/
abbrev CfgGood (s : State) (c : CoreId) (f : Fields) : Prop :=
  let k := s.core c.val
  let h := k.chan f.imm.toNat
  let ring := (field (k.sreg f.a.toNat) 0 32).toNat
  let cring := (field (k.sreg f.a.toNat) 32 32).toNat
  let lg := (k.sreg f.b.toNat).toNat
  1 ≤ lg ∧ lg ≤ 10 ∧ ring % 64 = 0 ∧ cring % 16 = 0 ∧ ring + 64 * 2 ^ lg ≤ 0x600000 ∧ cring + 16 * 2 ^ lg ≤ 0x600000 ∧
    h.head = h.tail ∧ h.posted = [] ∧ ringGuarded s c.val (cmBase c.val + ring) (64 * 2 ^ lg) = true ∧
    ringGuarded s c.val (cmBase c.val + cring) (16 * 2 ^ lg) = true

/-- The channel as MVCFG leaves it. -/
def cfgChan (c : CoreId) (k : Core) (f : Fields) : Chan :=
  { k.chan f.imm.toNat with
    set := true, ring := cmBase c.val + (field (k.sreg f.a.toNat) 0 32).toNat, cring := cmBase c.val + (field (k.sreg f.a.toNat) 32 32).toNat
    depthLog2 := (k.sreg f.b.toNat).toNat, head := 0, tail := 0 }

include h hf

theorem exec_mvcfg_full (hfull : ¬ ((s.core c.val).queue 5).length < 16) :
    exec (.mvcfg c f) s = .next (withCore s c (heldByQueue (s.core c.val))) := by
  rw [show exec (.mvcfg c f) s = execMvcfg c f s from rfl, execMvcfg, live_issue_of_Issues h hf, mvIssue_full hfull]

variable (hroom : ((s.core c.val).queue 5).length < 16)
include hroom

/-- MVCFG with room configures its channel, or raises F_MV_CONFIG where a requirement is broken. -/
theorem exec_mvcfg_room : exec (.mvcfg c f) s = .next (if CfgGood s c f then
    withCore s c ((takenMv (s.core c.val) .mvcfg f).setChan f.imm.toNat (cfgChan c (s.core c.val) f)) else raiseP s c.val fMvConfig 0 0) := by
  have hon : (s.core c.val).on = true := Core.on_of_issuing h.1.2.1
  rw [show exec (.mvcfg c f) s = execMvcfg c f s from rfl, execMvcfg, live_issue_of_Issues h hf, mvIssue_room hroom]
  dsimp only
  rw [takeMv, modCore_modCore_eq_withCore (by exact hon) (by exact hon)]
  rw [if_congr (Q := ¬ CfgGood s c f) ?_ rfl rfl, ite_not]
  · rfl
  · rw [← not_iff_not, not_not]
    simp [CfgGood, Nat.one_le_iff_ne_zero, and_assoc]

end

/-! ### MVPOST (R154, R157, R172) -/

/-- A read of own memory that is allowed and detects nothing gives its bytes (R118, R135). -/
theorem fetchOpnd_cm_of_ok {s : State} {c a n : Nat} (unit : Nat) (hcheck : s.check (s.colourOf c).toNat (some c) none false a n = .ok)
    (hdetects : s.detects a n = false) : fetchOpnd s c (.cm a) 0 n unit = (s.bytesAt a n, s) := by
  simp [fetchOpnd, badOpnd, readOpnd, hcheck, hdetects]

/-- A core that may issue runs (R185). -/
theorem Core.st_of_issuing {k : Core} (h : k.issuing = true) : k.st = .run := by
  simp only [Core.issuing, Bool.and_eq_true, beq_iff_eq] at h
  exact h.1.1.2

/-- The slot of a channel's ring that its next MVPOST reads. -/
def Chan.nextSlot (h : Chan) : Nat := h.ring + h.tail.toNat % h.depth * 64

/-- The core with a descriptor posted behind the others of its channel, its ranges in the scoreboard. -/
def Core.posting (k : Core) (f : Fields) (d : Desc) (rs : List Rng) : Core :=
  let n := f.imm.toNat
  let h := k.chan n
  let es := entriesOf (16 + n) rs
  { ((takenMv k .mvpost f).setChan n { h with tail := h.tail + 1, posted := h.posted ++ [{ index := h.tail, desc := d, entries := es }] }) with
    sb := k.sb ++ es }

/-- An MVPOST that has its slot of the mover's queue posts its descriptor. -/
theorem postDesc_takeMv {s : State} {c : CoreId} (hon : (s.core c.val).on = true) (f : Fields) (d : Desc) (rs : List Rng) :
    postDesc (takeMv c .mvpost f s) c.val f.imm.toNat d rs = withCore s c ((s.core c.val).posting f d rs) := by
  rw [postDesc, takeMv, modCore_modCore_eq_withCore (by exact hon) (by exact hon)]
  rfl

section
variable {s : State} {c : CoreId} {f : Fields} (h : Issues s c []) (hf : f.only false false false 0 0xF = true)
include h hf

theorem exec_mvpost_full (hfull : ¬ ((s.core c.val).queue 5).length < 16) :
    exec (.mvpost c f) s = .next (withCore s c (heldByQueue (s.core c.val))) := by
  rw [show exec (.mvpost c f) s = execMvpost c f s from rfl, execMvpost, live_issue_of_Issues h hf, mvIssue_full hfull]

variable (hroom : ((s.core c.val).queue 5).length < 16)
include hroom

/-- A channel that no MVCFG has configured posts nothing. -/
theorem exec_mvpost_unset (hset : ((s.core c.val).chan f.imm.toNat).set = false) :
    exec (.mvpost c f) s = .next (raiseP s c.val fMvConfig 0 0) := by
  rw [show exec (.mvpost c f) s = execMvpost c f s from rfl, execMvpost, live_issue_of_Issues h hf, mvIssue_room hroom]
  simp only [hset, Bool.not_false, if_true, refuse]

variable (hset : ((s.core c.val).chan f.imm.toNat).set = true)
include hset

/-- A full ring holds MVPOST. -/
theorem exec_mvpost_ringFull (hring : ((s.core c.val).chan f.imm.toNat).depth ≤
      (((s.core c.val).chan f.imm.toNat).tail - ((s.core c.val).chan f.imm.toNat).head).toNat) :
    exec (.mvpost c f) s = .next (withCore s c (heldByQueue (s.core c.val))) := by
  rw [show exec (.mvpost c f) s = execMvpost c f s from rfl, execMvpost, live_issue_of_Issues h hf, mvIssue_room hroom]
  simp only [hset, Bool.not_true, Bool.false_eq_true, if_false, hring, if_true, heldQueue_eq_withCore]

variable (hring : (((s.core c.val).chan f.imm.toNat).tail - ((s.core c.val).chan f.imm.toNat).head).toNat <
  ((s.core c.val).chan f.imm.toNat).depth)
include hring

/-- A slot that is still being written holds MVPOST. -/
theorem exec_mvpost_slotPending
    (hslot : (s.core c.val).blocked (rngOf s c.val (.cm ((s.core c.val).chan f.imm.toNat).nextSlot) 0 63 false) = true) :
    exec (.mvpost c f) s = .next (withCore s c (heldByData (s.core c.val))) := by
  rw [Chan.nextSlot] at hslot
  rw [show exec (.mvpost c f) s = execMvpost c f s from rfl, execMvpost, live_issue_of_Issues h hf, mvIssue_room hroom]
  simp only [hset, Bool.not_true, Bool.false_eq_true, if_false, Nat.not_le.mpr hring, hslot, if_true, heldData_eq_withCore]

variable {slot : Nat} (hnext : ((s.core c.val).chan f.imm.toNat).nextSlot = slot)
  (hslot : (s.core c.val).blocked (rngOf s c.val (.cm slot) 0 63 false) = false)
  (hcheck : s.check (s.colourOf c.val).toNat (some c.val) none false slot 64 = .ok) (hdetects : s.detects slot 64 = false)
  {d : Desc} (hd : Desc.decode (s.bytesAt slot 64) = d)
include hnext hslot hcheck hdetects hd

/-- An MVPOST that reads its slot goes on by the descriptor's checks, then by its ranges. -/
theorem exec_mvpost_read : exec (.mvpost c f) s = .next (match d.check s c.val with
    | some e => raiseP s c.val e 0 0
    | none => if (s.core c.val).waitsFor (d.ranges s c.val) then withCore s c (heldByData (s.core c.val))
      else withCore s c ((s.core c.val).posting f d (d.ranges s c.val))) := by
  rw [Chan.nextSlot] at hnext
  have hrun : ((s.core c.val).st != .run) = false := by rw [Core.st_of_issuing h.1.2.1]; rfl
  rw [show exec (.mvpost c f) s = execMvpost c f s from rfl, execMvpost, live_issue_of_Issues h hf, mvIssue_room hroom]
  simp only [hset, Bool.not_true, Bool.false_eq_true, if_false, Nat.not_le.mpr hring, hnext, hslot, fetchOpnd_cm_of_ok 0 hcheck hdetects, hd, hrun,
    heldData_eq_withCore, postDesc_takeMv (Core.on_of_issuing h.1.2.1), refuse] <;> cases d.check s c.val <;> rfl

theorem exec_mvpost_refused {e : BitVec 16} (hfail : d.check s c.val = some e) : exec (.mvpost c f) s = .next (raiseP s c.val e 0 0) :=
  (exec_mvpost_read h hf hroom hset hring hnext hslot hcheck hdetects hd).trans (by rw [hfail])

theorem exec_mvpost_held (hpass : d.check s c.val = none)
    (hwaits : (s.core c.val).blocked (d.ranges s c.val) = true ∨ 64 < (s.core c.val).sb.length + (d.ranges s c.val).length) :
    exec (.mvpost c f) s = .next (withCore s c (heldByData (s.core c.val))) := by
  have hheld : (s.core c.val).waitsFor (d.ranges s c.val) = true := Bool.or_eq_true_iff.mpr (hwaits.imp_right decide_eq_true)
  rw [exec_mvpost_read h hf hroom hset hring hnext hslot hcheck hdetects hd, hpass]
  exact congrArg _ (if_pos hheld)

theorem exec_mvpost_posts (hpass : d.check s c.val = none) (hfree : (s.core c.val).blocked (d.ranges s c.val) = false)
    (hfew : (s.core c.val).sb.length + (d.ranges s c.val).length ≤ 64) :
    exec (.mvpost c f) s = .next (withCore s c ((s.core c.val).posting f d (d.ranges s c.val))) := by
  have hposts : (s.core c.val).waitsFor (d.ranges s c.val) = false :=
    Bool.or_eq_false_iff.mpr ⟨hfree, decide_eq_false (Nat.not_lt.mpr hfew)⟩
  rw [exec_mvpost_read h hf hroom hset hring hnext hslot hcheck hdetects hd, hpass]
  exact congrArg _ (if_neg (Bool.eq_false_iff.mp hposts))

end

/-! ### O26 -/

/-- A short instruction that may issue and reads no scalar register. -/
theorem issues_nil {s : State} {c : CoreId} (h : MayIssue s c false) : Issues s c [] := ⟨h, rfl⟩

/-- Settles O26: by the room in the mover's queue, then MVCFG by its requirements, and MVPOST by its ring, its slot, the checks of its
descriptor and the descriptor's ranges. -/
theorem moverInstructionsConfigureAndPost : Obligations.MoverInstructionsConfigureAndPost := by
  unfold Obligations.MoverInstructionsConfigureAndPost
  intro s c f h
  have h' := issues_nil h
  dsimp only
  refine ⟨fun hpend hf => ⟨exec_mvcfg_full ⟨h, hpend⟩ hf, fun hroom hgood => ?_, fun hroom hbad => ?_⟩,
    fun hf => ⟨exec_mvpost_full h' hf, exec_mvpost_unset h' hf, fun hroom hset hring => exec_mvpost_ringFull h' hf hroom hset hring,
      fun hroom hset hring => ⟨exec_mvpost_slotPending h' hf hroom hset hring, fun hslot hcheck hdetects => ?_⟩⟩⟩
  · exact ⟨_, (exec_mvcfg_room ⟨h, hpend⟩ hf hroom).trans (congrArg _ (if_pos hgood)), withCore_onlyCore ..⟩
  · exact (exec_mvcfg_room ⟨h, hpend⟩ hf hroom).trans (congrArg _ (if_neg hbad))
  · exact ⟨fun _ => exec_mvpost_refused h' hf hroom hset hring rfl hslot hcheck hdetects rfl,
      exec_mvpost_held h' hf hroom hset hring rfl hslot hcheck hdetects rfl,
      exec_mvpost_posts h' hf hroom hset hring rfl hslot hcheck hdetects rfl⟩

end Sys2Proof.Machine
end

section
/-!
SUPPORT. Descriptors that start and end (R152, R161, R162): the posted descriptor that is changed among those of its channel, the record
that ends it, and O27.
-/
namespace Sys2Proof.Machine

open Sys2Proof.Stated

/-! ### The first of a kind in a list -/

/-- Where none ahead is of a kind, the first of the kind is the one that is changed. -/
theorem mapFirst_append_cons {α : Type} {p : α → Bool} {l : List α} {x : α} (hl : ∀ y ∈ l, p y = false) (hx : p x = true) (f : α → α)
    (m : List α) : mapFirst p f (l ++ x :: m) = l ++ f x :: m := by
  induction l with
  | nil => exact if_pos hx
  | cons y l ih =>
    have hy : p y = false := hl y List.mem_cons_self
    rw [List.cons_append, mapFirst, hy, ih fun z hz => hl z (List.mem_cons_of_mem _ hz)]
    rfl

/-- Where none ahead is of a kind, the first of the kind is the one that is found. -/
theorem find?_append_cons {α : Type} {p : α → Bool} {l : List α} {x : α} (hl : ∀ y ∈ l, p y = false) (hx : p x = true) (m : List α) :
    (l ++ x :: m).find? p = some x := by
  rw [List.find?_append, List.find?_eq_none.mpr fun y hy => by simp [hl y hy], List.find?_cons_of_pos hx]
  rfl

/-! ### Channels of a core -/

/-- A channel replaced reads as it was put. -/
@[simp] theorem Core.chan_setChan_same (k : Core) (n : Nat) (h : Chan) : (k.setChan n h).chan n = h := Table.get_set_same ..

/-- A channel not replaced reads as before. -/
theorem Core.chan_setChan_other (k : Core) {n m : Nat} (h : Chan) (hm : m ≠ n) : (k.setChan n h).chan m = k.chan m :=
  Table.get_set_other _ _ _ _ _ hm

/-- A channel that has descriptors is no channel at its default. -/
theorem Chan.ne_default_of_posted {h : Chan} (hp : h.posted ≠ []) : h ≠ {} := by
  rintro rfl
  exact hp rfl

/-- Of two channels put one after the other at a number the second stays. -/
theorem Core.setChan_setChan (k : Core) (n : Nat) {h h' : Chan} (hp : h.posted ≠ []) (hp' : h'.posted ≠ []) :
    (k.setChan n h).setChan n h' = k.setChan n h' :=
  congrArg (fun t => { k with chans := t })
    (Table.set_set_of_ne ({} : Chan) k.chans n h h' (Chan.ne_default_of_posted hp) (Chan.ne_default_of_posted hp'))

/-- The core of a command that changes one core by a function. -/
theorem modCore_onlyCore (s : State) (c : CoreId) (f : Core → Core) : OnlyCore s (s.modCore c.val f) c (f (s.core c.val)) :=
  withCore_onlyCore s c _

/-- The one core that changed changes again. -/
theorem onlyCore_modCore {s t : State} {c : CoreId} {k : Core} (h : OnlyCore s t c k) (f : Core → Core) :
    OnlyCore s (t.modCore c.val f) c (f k) := by
  obtain ⟨hrest, hcore, hother⟩ := h
  refine ⟨?_, hcore ▸ State.core_modCore_same .., fun d hd => (State.core_modCore t c.val d f).trans ((if_neg hd).trans (hother d hd))⟩
  rw [hrest]
  rfl

/-! ### The descriptor of an index (R152, R173) -/

section
variable {ahead rest : List Posted} {p : Posted}

/-- No descriptor ahead has the index of p. -/
abbrev FirstOfIndex (ahead : List Posted) (p : Posted) : Prop := ∀ x ∈ ahead, x.index ≠ p.index

/-- A change of the descriptor of an index. -/
theorem Chan.modPosted_first {h : Chan} (hposted : h.posted = ahead ++ p :: rest) (hfirst : FirstOfIndex ahead p) (g : Posted → Posted) :
    h.modPosted p.index g = { h with posted := ahead ++ g p :: rest } := by
  rw [Chan.modPosted, hposted, mapFirst_append_cons (fun y hy => beq_false_of_ne (hfirst y hy)) (beq_self_eq_true _)]

/-- The scoreboard entries that a descriptor's progress frees (R173). -/
def Posted.frees (p : Posted) (e : SbEntry) : Bool := p.outst == 0 && (p.allSent || p.fail.isSome) || p.allSent && !e.write

/-- A core whose channel n is h, once the entries that h's descriptor of an index frees have left it and the scoreboard. -/
def Core.settled (k : Core) (n : Nat) (idx : BitVec 16) : Core :=
  match (k.chan n).posted.find? (fun p => p.index == idx) with
  | none => k
  | some p =>
    { (k.setChan n ((k.chan n).modPosted idx (fun q => { q with entries := q.entries.filter (fun e => !p.frees e) }))) with
      sb := freeEntries k.sb (p.entries.filter p.frees) }

theorem freeSettled_eq (s : State) (c n : Nat) (idx : BitVec 16) : freeSettled s c n idx = s.modCore c (·.settled n idx) := rfl

theorem Core.settled_first {k : Core} {n : Nat} (hposted : (k.chan n).posted = ahead ++ p :: rest) (hfirst : FirstOfIndex ahead p) :
    k.settled n p.index =
      { (k.setChan n { k.chan n with posted := ahead ++ { p with entries := p.entries.filter (fun e => !p.frees e) } :: rest }) with
        sb := freeEntries k.sb (p.entries.filter p.frees) } := by
  have hfound : (k.chan n).posted.find? (fun x => x.index == p.index) = some p := by
    rw [hposted, find?_append_cons (fun y hy => beq_false_of_ne (hfirst y hy)) (beq_self_eq_true _)]
  simp only [Core.settled, hfound, Chan.modPosted_first hposted hfirst]

end

/-! ### DESCRIPTOR_START (R152) -/

/-- A descriptor as it starts: a MARK has no piece to send. -/
def Posted.begun (p : Posted) : Posted := { p with started := true, allSent := p.desc.op == 6 }

section
variable {s : State} {c : CoreId} {ch : Fin 16} (h : Clocked s)
include h

/-- A HALTED channel starts nothing. -/
theorem exec_descriptorStart_halted (hhalted : ((s.core c.val).chan ch.val).halted = true) : exec (.descriptorStart c ch) s = .next s := by
  rw [show exec (.descriptorStart c ch) s = execDescriptorStart c ch s from rfl, execDescriptorStart, live_of_Clocked h]
  simp only [hhalted, Bool.true_or, if_true]

variable (hrun : ((s.core c.val).chan ch.val).halted = false) {ahead rest : List Posted} {p : Posted}
  (hposted : ((s.core c.val).chan ch.val).posted = ahead ++ p :: rest) (hstarted : ∀ x ∈ ahead, x.started = true) (hnext : p.started = false)
  (hsent : ∀ x ∈ ahead, x.allSent = true ∧ x.fail = none)
include hrun hposted hstarted hnext hsent

/-- The next descriptor starts once those ahead have sent their last pieces. -/
theorem exec_descriptorStart_next : exec (.descriptorStart c ch) s = .next
    (freeSettled (modChan s c.val ch.val (·.modPosted p.index Posted.begun)) c.val ch.val p.index) := by
  have hahead : ((s.core c.val).chan ch.val).posted.takeWhile (·.started) = ahead := by
    rw [hposted, List.takeWhile_append_of_pos hstarted, List.takeWhile_cons_of_neg (by simp [hnext]), List.append_nil]
  have hready : ahead.any (fun x => !x.allSent || x.fail.isSome) = false := List.any_eq_false.mpr fun x hx => by simp [hsent x hx]
  have hdrop : ((s.core c.val).chan ch.val).posted.drop ahead.length = p :: rest := by rw [hposted, List.drop_left]
  rw [show exec (.descriptorStart c ch) s = execDescriptorStart c ch s from rfl, execDescriptorStart, live_of_Clocked h]
  simp only [hahead, hready, hdrop, hrun, Bool.or_self, Bool.false_eq_true, if_false]
  rfl

end

/-- As it starts a MARK frees every entry, and any other descriptor none (R173). -/
theorem Posted.frees_begun {p : Posted} (houtst : p.outst = 0) (hfail : p.fail = none) : p.begun.frees = fun _ => decide (p.desc.op = 6) := by
  funext e
  simp only [Posted.frees, Posted.begun, houtst, hfail, beq_eq_decide]
  generalize decide (p.desc.op = 6) = mark
  cases mark <;> rfl

/-- What the start of a descriptor leaves of its core: a MARK frees its entries at once, any other keeps them. -/
theorem descriptorStart_onlyCore {s : State} {c : CoreId} {n : Nat} {ahead rest : List Posted} {p : Posted}
    (hposted : ((s.core c.val).chan n).posted = ahead ++ p :: rest) (hfirst : FirstOfIndex ahead p) (houtst : p.outst = 0)
    (hfail : p.fail = none) :
    OnlyCore s (freeSettled (modChan s c.val n (·.modPosted p.index Posted.begun)) c.val n p.index) c
      { ((s.core c.val).setChan n { (s.core c.val).chan n with posted := ahead ++
            { p with started := true, allSent := decide (p.desc.op = 6), entries := if p.desc.op = 6 then [] else p.entries } :: rest }) with
          sb := if p.desc.op = 6 then freeEntries (s.core c.val).sb p.entries else (s.core c.val).sb } := by
  have hbegun := Chan.modPosted_first hposted hfirst Posted.begun
  have hstart := onlyCore_modCore (modCore_onlyCore s c fun k => k.setChan n ((k.chan n).modPosted p.index Posted.begun))
    (·.settled n p.begun.index)
  rw [hbegun, Core.settled_first (p := p.begun) (by rw [Core.chan_setChan_same]) hfirst, Core.chan_setChan_same,
    Core.setChan_setChan _ _ (by simp) (by simp)] at hstart
  have hkept : p.begun.entries.filter (fun e => !p.begun.frees e) = if p.desc.op = 6 then [] else p.entries := by
    rw [Posted.frees_begun houtst hfail]
    by_cases hop : p.desc.op = 6 <;>
      simp only [hop, decide_true, decide_false, Bool.not_true, Bool.not_false, List.filter_false, List.filter_true, if_true, if_false, Posted.begun]
  have hfreed : freeEntries (s.core c.val).sb (p.begun.entries.filter p.begun.frees) =
      if p.desc.op = 6 then freeEntries (s.core c.val).sb p.entries else (s.core c.val).sb := by
    rw [Posted.frees_begun houtst hfail]
    by_cases hop : p.desc.op = 6 <;>
      simp only [hop, decide_true, decide_false, List.filter_false, List.filter_true, if_true, if_false, Posted.begun, freeEntries, List.foldl_nil]
  rw [hkept, show ((s.core c.val).setChan n _).sb = (s.core c.val).sb from rfl, hfreed] at hstart
  exact hstart

/-! ### The record that ends a descriptor (R161, R162) -/

/-- A write to own memory that is allowed puts its bytes (R119, R135). -/
theorem writeOpnd_cm_of_ok {s : State} {c a : Nat} {data : List Byte}
    (hcheck : s.check (s.colourOf c).toNat (some c) none true a data.length = .ok) :
    writeOpnd s c (.cm a) 0 data false = (memWrite s a data).1 := by
  simp [writeOpnd, hcheck]

/-- The 16 bytes of a completion record (Table 8-5). -/
def Posted.record (p : Posted) (st : Byte) : List Byte := leBytes 2 p.index.toNat ++ [st, 0] ++ leBytes 4 p.desc.tag.toNat ++ leBytes 8 p.bytesOk

theorem Posted.record_length (p : Posted) (st : Byte) : (p.record st).length = 16 := by simp [Posted.record]

/-- The place of a descriptor's record in the completion ring (R161). -/
def Chan.recordAt (h : Chan) (p : Posted) : Nat := h.cring + p.index.toNat % h.depth * 16

/-- The die with the record written and the descriptor gone from its channel. -/
def recorded (s : State) (c n : Nat) (p : Posted) (st : Byte) : State :=
  modChan (memWrite s (((s.core c).chan n).recordAt p) (p.record st)).1 c n
    (fun h => { h with head := h.head + 1, posted := h.posted.drop 1, halted := h.halted || st != 0 })

/-- The slot that signals one flag of a core (Table 13-4). -/
theorem signalSlot_flag (core : Nat) (flag : BitVec 6) :
    signalSlot core (BitVec.ofNat 64 (2 ^ flag.toNat)) = BitVec.ofNat 128 (core + 2 ^ flag.toNat * 2 ^ 64) := by
  have hflag : 2 ^ flag.toNat < 2 ^ 64 := Nat.pow_lt_pow_right (by decide) flag.isLt
  rw [signalSlot, BitVec.toNat_ofNat, Nat.mod_eq_of_lt hflag]

section
variable {s : State} {c : CoreId} {n : Nat} {p : Posted} (st : Byte)
  (hcheck : s.check (s.core c.val).colour.toNat (some c.val) none true (((s.core c.val).chan n).recordAt p) 16 = .ok)

include hcheck in
/-- An allowed record is written, and with SIGV a signal leaves. -/
theorem writeRecord_of_ok : writeRecord s c.val n p st =
    if p.desc.sigv then meshSignal (recorded s c.val n p st) c.val (s.core c.val).colour p.desc.sigCore.toNat
      (BitVec.ofNat 128 (p.desc.sigCore.toNat + 2 ^ p.desc.sigFlag.toNat * 2 ^ 64))
    else recorded s c.val n p st := by
  have hput := writeOpnd_cm_of_ok (s := s) (c := c.val) (data := p.record st) (by rw [Posted.record_length]; exact hcheck)
  have hcolour : (recorded s c.val n p st).colourOf c.val = (s.core c.val).colour := by
    rw [State.colourOf, recorded, modChan, State.core_modCore_same]
    rfl
  rw [writeRecord]
  rw [← Chan.recordAt, ← Posted.record, hput, ← recorded, hcolour, signalSlot_flag]

/-- What the record leaves of the die but its signal. -/
theorem recorded_spec {rest : List Posted} (hposted : ((s.core c.val).chan n).posted = p :: rest) :
    let t := recorded s c.val n p st
    let h := (s.core c.val).chan n
    let a := h.recordAt p
    (∀ y, t.byteAt y = if a ≤ y ∧ y < a + 16 then (p.record st).getD (y - a) 0 else s.byteAt y) ∧
    (t.core c.val).chan n = { h with head := h.head + 1, posted := rest, halted := h.halted || st != 0 } ∧
    (∀ m, m ≠ n → (t.core c.val).chan m = (s.core c.val).chan m) ∧ (∀ d : Nat, d ≠ c.val → t.core d = s.core d) ∧ t.mesh = s.mesh := by
  dsimp only
  have hkept : (memWrite s (((s.core c.val).chan n).recordAt p) (p.record st)).1.core c.val = s.core c.val := rfl
  have hcore := State.core_modCore_same (memWrite s (((s.core c.val).chan n).recordAt p) (p.record st)).1 c.val
    (fun k => k.setChan n { k.chan n with head := (k.chan n).head + 1, posted := (k.chan n).posted.drop 1, halted := (k.chan n).halted || st != 0 })
  refine ⟨fun y => ?_, ?_, fun m hm => ?_, fun d hd => ?_, rfl⟩
  · have hbyte := byteAt_memWrite s (((s.core c.val).chan n).recordAt p) (p.record st) y
    rw [Posted.record_length] at hbyte
    exact hbyte
  · refine (congrArg (·.chan n) hcore).trans ((Core.chan_setChan_same ..).trans ?_)
    rw [hkept, hposted]
    rfl
  · exact (congrArg (·.chan m) hcore).trans (Core.chan_setChan_other _ _ hm)
  · exact (State.core_modCore _ c.val d _).trans (if_neg hd)

include hcheck in
/-- The record goes to its slot of the completion ring, and the signal of SIGV to its core. -/
theorem writeRecord_written {rest : List Posted} (hposted : ((s.core c.val).chan n).posted = p :: rest) :
    RecordWritten s (writeRecord s c.val n p st) c n p rest st := by
  obtain ⟨hbytes, hchan, hchans, hcores, hmesh⟩ := recorded_spec (n := n) st hposted
  rw [writeRecord_of_ok st hcheck]
  split
  · next hsigv =>
    refine ⟨hbytes, hchan, hchans, hcores, ?_⟩
    rw [if_pos hsigv, ← hmesh]
    rfl
  · next hsigv =>
    refine ⟨hbytes, hchan, hchans, hcores, ?_⟩
    rw [if_neg hsigv, List.append_nil, hmesh]

end

/-! ### DESCRIPTOR_COMPLETE and DESCRIPTOR_HALT (R161, R162) -/

section
variable {s : State} {c : CoreId} {ch : Fin 16} (h : Clocked s) (hrun : ((s.core c.val).chan ch.val).halted = false) {p : Posted}
  {rest : List Posted} (hposted : ((s.core c.val).chan ch.val).posted = p :: rest) (houtst : p.outst = 0)
include h hrun hposted houtst

/-- With every piece settled and no probe to send the record carries OK. -/
theorem exec_descriptorComplete_ok (hstarted : p.started = true) (hsent : p.allSent = true) (hfail : p.fail = none)
    (hprobed : p.desc.probe = false ∨ p.probed = true ∨ p.dies = 0) :
    exec (.descriptorComplete c ch) s = .next (writeRecord s c.val ch.val p 0) := by
  have hquiet : (p.desc.probe && !p.probed && p.dies != 0) = false := by
    rcases hprobed with hprobe | hprobe | hprobe <;> simp [hprobe]
  rw [show exec (.descriptorComplete c ch) s = execDescriptorComplete c ch s from rfl, execDescriptorComplete, live_of_Clocked h]
  simp only [hposted, hrun, hstarted, hsent, houtst, hfail, hquiet]
  rfl

/-- After a failure whose pieces have settled the record carries its status. -/
theorem exec_descriptorHalt_failed {st : Byte} (hfail : p.fail = some st) :
    exec (.descriptorHalt c ch) s = .next (writeRecord s c.val ch.val p st) := by
  rw [show exec (.descriptorHalt c ch) s = execDescriptorHalt c ch s from rfl, execDescriptorHalt, live_of_Clocked h]
  simp only [hposted, hrun, houtst, hfail]
  rfl

end

/-! ### O27 -/

/-- Settles O27: a descriptor starts behind those that have sent their last pieces, and ends with the record of its outcome. -/
theorem descriptorsStartAndComplete : Obligations.DescriptorsStartAndComplete := by
  unfold Obligations.DescriptorsStartAndComplete
  intro s c ch
  dsimp only
  intro h
  refine ⟨fun ahead rest p hrun hposted hahead hnext hsent houtst hfail => ?_, exec_descriptorStart_halted h,
    fun p rest hposted hrun houtst hcheck => ⟨fun hstarted hsent hfail hprobed => ?_, fun st hst hfail => ?_⟩⟩
  · exact ⟨_, exec_descriptorStart_next h hrun hposted (fun x hx => (hahead x hx).1) hnext fun x hx => ⟨(hahead x hx).2.1, (hahead x hx).2.2.1⟩,
      descriptorStart_onlyCore hposted (fun x hx => (hahead x hx).2.2.2) houtst hfail⟩
  · exact ⟨_, exec_descriptorComplete_ok h hrun hposted houtst hstarted hsent hfail hprobed, writeRecord_written 0 hcheck hposted⟩
  · exact ⟨_, exec_descriptorHalt_failed h hrun hposted houtst hfail, writeRecord_written st hcheck hposted⟩

end Sys2Proof.Machine
end

section
/-!
SUPPORT. Windows and their credits (R163 to R168, R170): what a release, a grant, their slots and a landed piece leave, and O30.
-/
namespace Sys2Proof.Machine

open Sys2Proof.Stated

/-! ### A window and its occupancy record (R25, R166) -/

/-- A window whose occupancy record may be written is put with its record. -/
theorem putWindow_of_ok {s : State} {n : Nat} {w : Window}
    (hcheck : (s.setWindow n w).check w.colour.toNat (some w.owner) none true w.occ 8 = .ok) :
    putWindow s n w = (memWrite (s.setWindow n w) w.occ w.occBytes).1 := by
  rw [putWindow]
  simp only [hcheck]

/-! ### MVREL (R166) -/

/-- The window once u units of it are released. -/
def Window.releasing (w : Window) (u : Nat) : Window := { w with released := w.released + BitVec.ofNat 32 u, free := w.free + u }

section
variable {s : State} {c : CoreId} {f : Fields} (h : Issues s c [f.a]) (hf : f.only false true false 0 0xFF = true)
include h hf

theorem exec_mvrel_full (hfull : ¬ ((s.core c.val).queue 5).length < 16) :
    exec (.mvrel c f) s = .next (withCore s c (heldByQueue (s.core c.val))) := by
  rw [show exec (.mvrel c f) s = execMvrel c f s from rfl, execMvrel, live_issue_of_Issues h hf, mvIssue_full hfull]

variable (hroom : ((s.core c.val).queue 5).length < 16)
include hroom

/-- Only the owner of a window releases its units. -/
theorem exec_mvrel_foreign (hforeign : (s.window f.imm.toNat).valid = false ∨ (s.window f.imm.toNat).owner ≠ c.val) :
    exec (.mvrel c f) s = .next (raiseP s c.val fIllegalOp 0 0) := by
  have hrefused : (!(s.window f.imm.toNat).valid || (s.window f.imm.toNat).owner != c.val) = true := by
    rcases hforeign with hvalid | howner
    · simp [hvalid]
    · simp [howner]
  rw [show exec (.mvrel c f) s = execMvrel c f s from rfl, execMvrel, live_issue_of_Issues h hf, mvIssue_room hroom]
  simp only [hrefused, if_true, refuse]

variable {w : Window} (hw : s.window f.imm.toNat = w) (hvalid : w.valid = true) (howner : w.owner = c.val)
include hw hvalid howner

/-- What the owner's MVREL does, by what holds it and by its units. -/
theorem exec_mvrel_owned {u : Nat} (hu : (field ((s.core c.val).sreg f.a.toNat) 0 20).toNat = u) : exec (.mvrel c f) s = .next (
    if (s.core c.val).waitsFor (rngOf s c.val (.cm w.base) 0 (w.len - 1 : Nat) true) then withCore s c (heldByData (s.core c.val))
    else if (w.filled - w.released).toNat < u then raiseP s c.val fCreditUnderflow 6 0
    else if u = 0 then takeMv c .mvrel f s
    else takeMv c .mvrel f (putWindow s f.imm.toNat (w.releasing u))) := by
  have hown : (!w.valid || w.owner != c.val) = false := by simp [hvalid, howner]
  rw [show exec (.mvrel c f) s = execMvrel c f s from rfl, execMvrel, live_issue_of_Issues h hf, mvIssue_room hroom]
  simp only [hw, hown, hu, Bool.false_eq_true, if_false, heldData_eq_withCore]
  rfl

theorem exec_mvrel_held (hholds : (s.core c.val).waitsFor (rngOf s c.val (.cm w.base) 0 (w.len - 1 : Nat) true) = true) :
    exec (.mvrel c f) s = .next (withCore s c (heldByData (s.core c.val))) := by
  rw [exec_mvrel_owned h hf hroom hw hvalid howner rfl, if_pos hholds]

variable (hgoes : (s.core c.val).waitsFor (rngOf s c.val (.cm w.base) 0 (w.len - 1 : Nat) true) = false)
include hgoes

theorem exec_mvrel_none (hzero : (field ((s.core c.val).sreg f.a.toNat) 0 20).toNat = 0) :
    exec (.mvrel c f) s = .next (withCore s c (takenMv (s.core c.val) .mvrel f)) := by
  rw [exec_mvrel_owned h hf hroom hw hvalid howner hzero, if_neg (Bool.eq_false_iff.mp hgoes), if_neg (Nat.not_lt_zero _), if_pos rfl,
    takeMv_eq_withCore]

variable {u : Nat} (hu : (field ((s.core c.val).sreg f.a.toNat) 0 20).toNat = u)
include hu

theorem exec_mvrel_underflow (hmore : (w.filled - w.released).toNat < u) :
    exec (.mvrel c f) s = .next (raiseP s c.val fCreditUnderflow 6 0) := by
  rw [exec_mvrel_owned h hf hroom hw hvalid howner hu, if_neg (Bool.eq_false_iff.mp hgoes), if_pos hmore]

theorem exec_mvrel_releases (hpos : 0 < u) (hfew : u ≤ (w.filled - w.released).toNat)
    (hcheck : (s.setWindow f.imm.toNat (w.releasing u)).check w.colour.toNat (some c.val) none true w.occ 8 = .ok) :
    exec (.mvrel c f) s = .next (withCore (memWrite (s.setWindow f.imm.toNat (w.releasing u)) w.occ (w.releasing u).occBytes).1 c
      (takenMv (s.core c.val) .mvrel f)) := by
  rw [exec_mvrel_owned h hf hroom hw hvalid howner hu, if_neg (Bool.eq_false_iff.mp hgoes), if_neg (Nat.not_lt.mpr hfew), if_neg hpos.ne',
    putWindow_of_ok (by rw [← howner] at hcheck; exact hcheck), takeMv_eq_withCore]
  rfl

end

/-! ### Grants, slots and landed pieces (R164 to R168, R170) -/

/-- The kinds of slots of the model and of the statements are the same. -/
theorem isSlot_eq_slotOf (ty : Byte) (src : BitVec 6) (colour : BitVec 4) (slot : Slot) : isSlot ty src colour slot = slotOf ty src colour slot := rfl

/-- The die after a window has granted u units to the sender entry at a position (R165, R167). -/
def granted (s : State) (n : BitVec 8) (i : Nat) (e : Sender) (u : Nat) : State :=
  sendSlot
    { (s.setWindow n.toNat { s.window n.toNat with free := (s.window n.toNat).free - u, rr := i + 1 }) with
      senders := setAt s.senders i { e with out := e.out + u, granted := e.granted + BitVec.ofNat 32 u } }
    e.die 2 (s.window n.toNat).colour e.core.toNat (windowSlot n e.core.toNat u)

/-- A window that is installed and has units free may grant them. -/
theorem grants_of_free {w : Window} (hvalid : w.valid = true) (hfree : 0 < w.free) : (!w.valid || decide (w.free = 0)) = false := by
  simp [hvalid, hfree.ne']

/-- The units of a grant (R165). -/
def grantUnits (w : Window) (e : Sender) : Nat := Nat.min (Nat.min w.free (e.share - e.out)) 0xFFFFF

/-- The window once a piece of it is performed (R166). -/
def Window.filling (w : Window) (u : Nat) : Window := { w with filled := w.filled + BitVec.ofNat 32 u }

/-- The die once the oldest landed piece is no more outstanding at its sender's entry (R166). -/
def settledPiece (s : State) (l : Landed) (rest : List Landed) : State :=
  modSender { s with landed := rest } l.win l.die l.core
    (fun e => { e with out := sub20 e.out l.units, settled := e.settled + BitVec.ofNat 32 l.units })

/-- The units of a performed piece fill a window that knows their sender. -/
theorem fillUnits_of_sender {s : State} {win : BitVec 8} {die core : BitVec 6} (u : Nat) (hvalid : (s.window win.toNat).valid = true)
    (hsender : s.hasSender win die core = true) :
    fillUnits s win die core u = putWindow (modSender s win die core
      (fun e => { e with out := sub20 e.out u, settled := e.settled + BitVec.ofNat 32 u })) win.toNat ((s.window win.toNat).filling u) :=
  if_neg (by simp [hvalid, hsender])

section
variable {s : State} (h : Clocked s)
include h

/-- A window that is not installed or has nothing free grants nothing. -/
theorem exec_windowGrant_idle {n : BitVec 8} (hidle : (s.window n.toNat).valid = false ∨ (s.window n.toNat).free = 0) :
    exec (.windowGrant n) s = .next s := by
  rw [show exec (.windowGrant n) s = execWindowGrant n s from rfl, execWindowGrant, live_of_Clocked h]
  exact congrArg _ (if_pos (by simpa using hidle))

variable {n : BitVec 8} (hvalid : (s.window n.toNat).valid = true) (hfree : 0 < (s.window n.toNat).free)

include hvalid hfree in
/-- Where no sender has room in its share nothing is granted. -/
theorem exec_windowGrant_noSender (hnone : nextSender s n (s.window n.toNat).rr = none) : exec (.windowGrant n) s = .next s := by
  rw [show exec (.windowGrant n) s = execWindowGrant n s from rfl, execWindowGrant, live_of_Clocked h]
  simp only [grants_of_free hvalid hfree, Bool.false_eq_true, if_false, hnone]

include hvalid hfree in
/-- The next sender is granted what is free, up to its share. -/
theorem exec_windowGrant_some {i : Nat} {e : Sender} (hnext : nextSender s n (s.window n.toNat).rr = some (i, e)) :
    exec (.windowGrant n) s = .next (granted s n i e (grantUnits (s.window n.toNat) e)) := by
  rw [show exec (.windowGrant n) s = execWindowGrant n s from rfl, execWindowGrant, live_of_Clocked h]
  simp only [grants_of_free hvalid hfree, Bool.false_eq_true, if_false, hnext]
  rfl

variable {src : BitVec 6} {colour : BitVec 4} {slot : Slot}

/-- A grant or release slot that is not on the mesh does nothing. -/
theorem exec_windowGrantSlot_absent (hwaits : ¬ Stated.Waits s (slotOf 2 src colour slot)) : exec (.windowGrantSlot src colour slot) s = .next s := by
  rw [show exec (.windowGrantSlot src colour slot) s = execWindowGrantSlot src colour slot s from rfl, execWindowGrantSlot, live_of_Clocked h,
    isSlot_eq_slotOf, takeMesh_of_not_waits hwaits]

theorem exec_windowReleaseSlot_absent (hwaits : ¬ Stated.Waits s (slotOf 3 src colour slot)) :
    exec (.windowReleaseSlot src colour slot) s = .next s := by
  rw [show exec (.windowReleaseSlot src colour slot) s = execWindowReleaseSlot src colour slot s from rfl, execWindowReleaseSlot,
    live_of_Clocked h, isSlot_eq_slotOf, takeMesh_of_not_waits hwaits]

/-- The credit entry that a grant raises. -/
def Core.credited (k : Core) (own src : BitVec 6) (n : BitVec 8) (e : Credit) (u : Nat) : Core :=
  { (k.noteWaits own e) with
    credits := mapFirst (fun q => q.die == src && q.win == n)
      (fun q => { q with held := q.held + u, received := q.received + BitVec.ofNat 32 u }) k.credits }

section
variable (hwaits : Stated.Waits s (slotOf 2 src colour slot)) {core : BitVec 6} {u : Nat} (hslot : winOf slot = (n, core, u))
include hwaits hslot

/-- A grant raises HELD of the core's entry. -/
theorem exec_windowGrantSlot_credited {e : Credit} (hcredit : (s.core core.toNat).credit src n = some e)
    (hquiet : s.resetting colour.toNat = false) (hcolour : (s.core core.toNat).colour = colour) (hbarred : e.barred = false) :
    exec (.windowGrantSlot src colour slot) s = .next ((taken s (slotOf 2 src colour slot)).setCore core.toNat
      ((s.core core.toNat).credited s.ownId src n e u)) := by
  rw [show exec (.windowGrantSlot src colour slot) s = execWindowGrantSlot src colour slot s from rfl, execWindowGrantSlot, live_of_Clocked h,
    isSlot_eq_slotOf, takeMesh_of_waits hwaits]
  have hcore : (taken s (slotOf 2 src colour slot)).core core.toNat = s.core core.toNat := rfl
  have hreset : (taken s (slotOf 2 src colour slot)).resetting colour.toNat = false := hquiet
  simp only [hslot, hcore, hcredit, hreset, hcolour, hbarred, bne_self_eq_false, Bool.or_self, Bool.false_eq_true, if_false]
  rfl

/-- A grant that finds no entry is dropped. -/
theorem exec_windowGrantSlot_dropped (hcredit : (s.core core.toNat).credit src n = none) :
    exec (.windowGrantSlot src colour slot) s =
      .next { (taken s (slotOf 2 src colour slot)) with slotsDropped := s.slotsDropped + 1 } := by
  rw [show exec (.windowGrantSlot src colour slot) s = execWindowGrantSlot src colour slot s from rfl, execWindowGrantSlot, live_of_Clocked h,
    isSlot_eq_slotOf, takeMesh_of_waits hwaits]
  have hcore : (taken s (slotOf 2 src colour slot)).core core.toNat = s.core core.toNat := rfl
  simp only [hslot, hcore, hcredit]
  rfl

end

section
variable (hwaits : Stated.Waits s (slotOf 3 src colour slot)) {core : BitVec 6} {u : Nat} (hslot : winOf slot = (n, core, u))
include hwaits hslot

/-- The units that a sender returns are free again. -/
theorem exec_windowReleaseSlot_returned (hvalid : (s.window n.toNat).valid = true) (hcolour : (s.window n.toNat).colour = colour)
    (hquiet : s.resetting colour.toNat = false) (hsender : s.hasSender n src core = true) :
    exec (.windowReleaseSlot src colour slot) s = .next
      ((modSender (taken s (slotOf 3 src colour slot)) n src core
        (fun e => { e with out := sub20 e.out u, returned := e.returned + BitVec.ofNat 32 u })).setWindow n.toNat
        { s.window n.toNat with free := (s.window n.toNat).free + u }) := by
  rw [show exec (.windowReleaseSlot src colour slot) s = execWindowReleaseSlot src colour slot s from rfl, execWindowReleaseSlot,
    live_of_Clocked h, isSlot_eq_slotOf, takeMesh_of_waits hwaits]
  have hwindow : (taken s (slotOf 3 src colour slot)).window n.toNat = s.window n.toNat := rfl
  have hreset : (taken s (slotOf 3 src colour slot)).resetting colour.toNat = false := hquiet
  have hknown : (taken s (slotOf 3 src colour slot)).hasSender n src core = true := hsender
  simp only [hslot, hwindow, hreset, hknown, hvalid, hcolour, bne_self_eq_false, Bool.not_true, Bool.or_self, Bool.false_eq_true, if_false]

/-- A release slot of no sender is dropped. -/
theorem exec_windowReleaseSlot_dropped (hsender : s.hasSender n src core = false) :
    exec (.windowReleaseSlot src colour slot) s =
      .next { (taken s (slotOf 3 src colour slot)) with slotsDropped := s.slotsDropped + 1 } := by
  rw [show exec (.windowReleaseSlot src colour slot) s = execWindowReleaseSlot src colour slot s from rfl, execWindowReleaseSlot,
    live_of_Clocked h, isSlot_eq_slotOf, takeMesh_of_waits hwaits]
  have hunknown : (taken s (slotOf 3 src colour slot)).hasSender n src core = false := hsender
  simp only [hslot, hunknown, Bool.not_false, Bool.or_true, if_true]
  rfl

end

/-- The oldest landed piece fills its window. -/
theorem exec_piecePerformed_filled {l : Landed} {rest : List Landed} (hlanded : s.landed = l :: rest)
    (hvalid : (s.window l.win.toNat).valid = true) (hsender : s.hasSender l.win l.die l.core = true) :
    exec .piecePerformed s = .next (putWindow (settledPiece s l rest) l.win.toNat ((s.window l.win.toNat).filling l.units)) := by
  rw [show exec .piecePerformed s = execPiecePerformed s from rfl, execPiecePerformed, live_of_Clocked h]
  simp only [hlanded]
  exact congrArg _ (fillUnits_of_sender (s := { s with landed := rest }) l.units hvalid hsender)

end

/-! ### O30 -/

/-- Settles O30: the owner's release by its units, the grant by its window and senders, each slot by the entry it finds, and a landed
piece. -/
theorem windowsReleaseAndGrant : Obligations.WindowsReleaseAndGrant := by
  unfold Obligations.WindowsReleaseAndGrant
  refine ⟨fun s => ⟨fun c f h hpend hf => ?_, fun n h => ?_⟩, fun s src colour slot h => ?_⟩
  · have h' : Issues s c [f.a] := ⟨h, hpend⟩
    exact ⟨exec_mvrel_full h' hf, fun hroom hvalid howner => ⟨exec_mvrel_held h' hf hroom rfl hvalid howner,
      exec_mvrel_none h' hf hroom rfl hvalid howner, fun hgoes => exec_mvrel_underflow h' hf hroom rfl hvalid howner hgoes rfl,
      fun hgoes => exec_mvrel_releases h' hf hroom rfl hvalid howner hgoes rfl⟩, exec_mvrel_foreign h' hf⟩
  · exact ⟨exec_windowGrant_idle h, fun _ _ hvalid hfree => exec_windowGrant_some h hvalid hfree⟩
  · exact ⟨exec_windowGrantSlot_absent h, exec_windowReleaseSlot_absent h,
      fun hwaits => ⟨fun _ => exec_windowGrantSlot_credited h hwaits rfl, exec_windowGrantSlot_dropped h hwaits rfl⟩,
      fun hwaits => ⟨exec_windowReleaseSlot_returned h hwaits rfl, exec_windowReleaseSlot_dropped h hwaits rfl⟩,
      fun l rest hlanded hvalid hsender hcheck =>
        (exec_piecePerformed_filled h hlanded hvalid hsender).trans (congrArg _ (putWindow_of_ok hcheck))⟩

end Sys2Proof.Machine
end

section
/-!
SUPPORT. The books of a window (R163, R165, R166, R168): the units that its senders have outstanding, and O29.
-/
namespace Sys2Proof.Machine

open Sys2Proof.Stated

/-! ### Units outstanding at the senders of a window -/

/-- The units of a window that its senders have outstanding. -/
def outUnits (l : List Sender) (n : BitVec 8) : Nat := ((l.filter (fun e => e.win == n)).map (fun e => e.out)).sum

theorem unitsOf_eq (s : State) (n : BitVec 8) : unitsOf s n =
    (s.window n.toNat).free + outUnits s.senders n + ((s.window n.toNat).filled - (s.window n.toNat).released).toNat := rfl

theorem outUnits_cons_own {e : Sender} {n : BitVec 8} (h : e.win = n) (l : List Sender) : outUnits (e :: l) n = e.out + outUnits l n := by
  simp [outUnits, h]

theorem outUnits_cons_other {e : Sender} {n : BitVec 8} (h : e.win ≠ n) (l : List Sender) : outUnits (e :: l) n = outUnits l n := by
  simp [outUnits, h]

/-- Whether a sender is the window's or not, it adds the same on both sides. -/
theorem outUnits_cons_congr (x : Sender) {n : BitVec 8} {l m : List Sender} {a b : Nat} (h : outUnits l n + a = outUnits m n + b) :
    outUnits (x :: l) n + a = outUnits (x :: m) n + b := by
  by_cases hx : x.win = n
  · rw [outUnits_cons_own hx, outUnits_cons_own hx]
    omega
  · rw [outUnits_cons_other hx, outUnits_cons_other hx, h]

/-- A sender has no more outstanding than all of its window's. -/
theorem out_le_outUnits {l : List Sender} {e : Sender} (he : e ∈ l) : e.out ≤ outUnits l e.win :=
  List.le_sum_of_mem (List.mem_map_of_mem (List.mem_filter.mpr ⟨he, beq_self_eq_true _⟩))

/-- One sender of a window replaced by its position. -/
theorem outUnits_setAt {l : List Sender} {i : Nat} {e e' : Sender} {n : BitVec 8} (hi : l[i]? = some e) (he : e.win = n) (he' : e'.win = n) :
    outUnits (setAt l i e') n + e.out = outUnits l n + e'.out := by
  induction l generalizing i with
  | nil => cases hi
  | cons x l ih =>
    cases i with
    | zero =>
      obtain rfl : x = e := Option.some.inj hi
      rw [setAt, outUnits_cons_own he', outUnits_cons_own he]
      omega
    | succ i => exact outUnits_cons_congr x (ih hi)

/-- The first sender of a kind replaced, where the kind is of the window. -/
theorem outUnits_mapFirst {l : List Sender} {p : Sender → Bool} {e : Sender} {n : BitVec 8} (f : Sender → Sender) (hfind : l.find? p = some e)
    (hwin : ∀ x, p x = true → x.win = n) (hkeep : ∀ x, (f x).win = x.win) :
    outUnits (mapFirst p f l) n + e.out = outUnits l n + (f e).out := by
  induction l with
  | nil => cases hfind
  | cons x l ih =>
    rw [mapFirst]
    by_cases hx : p x = true
    · rw [List.find?_cons_of_pos hx] at hfind
      obtain rfl : x = e := Option.some.inj hfind
      rw [if_pos hx, outUnits_cons_own ((hkeep x).trans (hwin x hx)), outUnits_cons_own (hwin x hx)]
      omega
    · rw [List.find?_cons_of_neg hx] at hfind
      rw [if_neg hx]
      exact outUnits_cons_congr x (ih hfind)

/-- A 20-bit count less what it counts (R163). -/
theorem sub20_of_le {x u : Nat} (hx : x < 2 ^ 20) (hu : u ≤ x) : sub20 x u = x - u := by
  rw [sub20]
  omega

/-- A count of units moved on by u, with room for them (R163). -/
theorem filled_add {f r : BitVec 32} {u : Nat} (h : (f - r).toNat + u < 2 ^ 32) : (f + BitVec.ofNat 32 u - r).toNat = (f - r).toNat + u := by
  have hsub : f + BitVec.ofNat 32 u - r = (f - r) + BitVec.ofNat 32 u := by
    rw [BitVec.sub_eq_add_neg, BitVec.sub_eq_add_neg, BitVec.add_assoc, BitVec.add_comm (BitVec.ofNat 32 u), BitVec.add_assoc]
  rw [hsub, BitVec.toNat_add, BitVec.toNat_ofNat, Nat.mod_eq_of_lt (show u < 2 ^ 32 by omega), Nat.mod_eq_of_lt h]

/-! ### The sender entry of a slot or piece -/

section
variable {s : State} {n : BitVec 8} {die core : BitVec 6} {e : Sender}
  (hfind : s.senders.find? (fun x => x.win == n && x.die == die && x.core == core) = some e)
include hfind

theorem hasSender_of_find : s.hasSender n die core = true := by
  have hkind := List.find?_some hfind
  exact List.any_eq_true.mpr ⟨e, List.mem_of_find?_eq_some hfind, hkind⟩

theorem win_of_find : e.win = n := by
  have hkind := List.find?_some hfind
  simp only [Bool.and_eq_true, beq_iff_eq] at hkind
  exact hkind.1.1

/-- Units that leave the books of a sender. -/
theorem outUnits_modSender (g : Sender → Sender) (hkeep : ∀ x, (g x).win = x.win) :
    outUnits (modSender s n die core g).senders n + e.out = outUnits s.senders n + (g e).out :=
  outUnits_mapFirst g hfind (fun x hx => by simp only [Bool.and_eq_true, beq_iff_eq] at hx; exact hx.1.1) hkeep

theorem out_le_of_find : e.out ≤ outUnits s.senders n := by
  have hle := out_le_outUnits (List.mem_of_find?_eq_some hfind)
  rwa [win_of_find hfind] at hle

end

/-! ### Grants (R165) -/

/-- The next sender of a window is one of its entries with room in its share. -/
theorem nextSender_some {s : State} {n : BitVec 8} {rr i : Nat} {e : Sender} (h : nextSender s n rr = some (i, e)) :
    s.senders[i]? = some e ∧ e.win = n ∧ e.out < e.share := by
  rw [nextSender] at h
  split at h
  · next j hj =>
    obtain ⟨x, hx, hpair⟩ := Option.map_eq_some_iff.mp h
    obtain ⟨rfl, rfl⟩ := Prod.mk.inj hpair
    have hkind := List.find?_some hj
    simp only [hx, Bool.and_eq_true, beq_iff_eq, decide_eq_true_eq] at hkind
    exact ⟨hx, hkind.1, hkind.2⟩
  · cases h

/-- A grant moves units from FREE to OUT. -/
theorem unitsOf_granted {s : State} {n : BitVec 8} {rr i : Nat} {e : Sender} (hnext : nextSender s n rr = some (i, e)) {u : Nat}
    (hu : u ≤ (s.window n.toNat).free) : unitsOf (granted s n i e u) n = unitsOf s n := by
  obtain ⟨hi, hwin, -⟩ := nextSender_some hnext
  have hout := outUnits_setAt (e' := { e with out := e.out + u, granted := e.granted + BitVec.ofNat 32 u }) hi hwin hwin
  obtain ⟨hbooks, -⟩ := sendSlot_onlyBooks
    { (s.setWindow n.toNat { s.window n.toNat with free := (s.window n.toNat).free - u, rr := i + 1 }) with
      senders := setAt s.senders i { e with out := e.out + u, granted := e.granted + BitVec.ofNat 32 u } }
    e.die 2 (s.window n.toNat).colour e.core.toNat (windowSlot n e.core.toNat u)
  rw [← granted] at hbooks
  have hwindow : (granted s n i e u).window n.toNat = { s.window n.toNat with free := (s.window n.toNat).free - u, rr := i + 1 } := by
    rw [hbooks]
    exact State.window_setWindow_same ..
  have hsenders : (granted s n i e u).senders = setAt s.senders i { e with out := e.out + u, granted := e.granted + BitVec.ofNat 32 u } := by
    rw [hbooks]
  rw [unitsOf_eq, unitsOf_eq, hwindow, hsenders]
  dsimp only at hout ⊢
  omega

/-- A grant is of no more than is free. -/
theorem grantUnits_le (w : Window) (e : Sender) : grantUnits w e ≤ w.free := (Nat.min_le_left _ _).trans (Nat.min_le_left _ _)

/-! ### O29 -/

/-- What putting a window and its record leaves of the books. -/
theorem putWindow_books (s : State) (n : Nat) (w : Window) :
    (putWindow s n w).window n = w ∧ (putWindow s n w).senders = s.senders ∧ (putWindow s n w).landed = s.landed := by
  rw [putWindow]
  split
  · exact ⟨State.window_setWindow_same .., rfl, rfl⟩
  · exact ⟨State.window_setWindow_same .., rfl, rfl⟩

/-- Settles O29: a grant, a landed piece and a returned credit each move as many units as they take. -/
theorem windowUnitsBalance : Obligations.WindowUnitsBalance := by
  unfold Obligations.WindowUnitsBalance
  intro s n e h hvalid hout
  refine ⟨?_, fun l rest hlanded hwin hfew hroom hfind => ?_, fun src colour slot hslot hfew hwaits hquiet hcolour hfind => ?_⟩
  · by_cases hfree : (s.window n.toNat).free = 0
    · exact ⟨s, exec_windowGrant_idle h (.inr hfree), rfl⟩
    · cases hnext : nextSender s n (s.window n.toNat).rr with
      | none => exact ⟨s, exec_windowGrant_noSender h hvalid (Nat.pos_of_ne_zero hfree) hnext, rfl⟩
      | some x => exact ⟨_, exec_windowGrant_some h hvalid (Nat.pos_of_ne_zero hfree) hnext, unitsOf_granted hnext (grantUnits_le ..)⟩
  · subst hwin
    have hmoved := outUnits_modSender (s := { s with landed := rest }) hfind
      (fun e => { e with out := sub20 e.out l.units, settled := e.settled + BitVec.ofNat 32 l.units }) (fun _ => rfl)
    have hle := out_le_of_find hfind
    obtain ⟨hwindow, hsenders, hrest⟩ := putWindow_books (settledPiece s l rest) l.win.toNat ((s.window l.win.toNat).filling l.units)
    refine ⟨_, exec_piecePerformed_filled h hlanded hvalid (hasSender_of_find hfind), ?_, hrest⟩
    rw [unitsOf_eq] at hroom
    rw [unitsOf_eq, unitsOf_eq, hwindow, hsenders, settledPiece, Window.filling]
    dsimp only at hmoved ⊢
    rw [filled_add (by omega)]
    rw [sub20_of_le hout hfew] at hmoved
    omega
  · have hmoved := outUnits_modSender (s := taken s (slotOf 3 src colour slot)) hfind
      (fun x => { x with out := sub20 x.out (field slot 32 20).toNat, returned := x.returned + BitVec.ofNat 32 (field slot 32 20).toNat })
      (fun _ => rfl)
    refine ⟨_, exec_windowReleaseSlot_returned h hwaits hslot hvalid hcolour hquiet (hasSender_of_find hfind), ?_, ?_⟩
    · rw [unitsOf_eq, unitsOf_eq, State.window_setWindow_same, State.setWindow_senders]
      dsimp only at hmoved ⊢
      rw [sub20_of_le hout hfew] at hmoved
      have hsame : outUnits (taken s (slotOf 3 src colour slot)).senders n = outUnits s.senders n := rfl
      omega
    · rw [State.window_setWindow_same]

end Sys2Proof.Machine
end

section
/-!
SUPPORT. Matrix arrays that start and drain, and engine instructions that complete (R173, R176, R210, R211, R213, R216, R406), and O23.
-/
namespace Sys2Proof.Machine

open Sys2Proof.Stated

/-! ### Arrays of a core -/

/-- An array replaced reads as it was put. -/
@[simp] theorem Core.array_setArray_same (k : Core) (a : Nat) (x : MArray) : (k.setArray a x).array a = x := Table.get_set_same ..

/-! ### MA_TILE_START of MACLR and MASTAT (R210, R216, Table 10-8) -/

/-- The die whose array's oldest queued instruction has left its queue. -/
def popped (s : State) (c a : Nat) (rest : List QInstr) : State :=
  s.setCore c { s.core c with queues := Table.set [] (s.core c).queues a rest }

section
variable {s : State} {c : CoreId} {a : Fin 2} (h : Clocked s) (hidle : ((s.core c.val).array a.val).cur = none) {q : QInstr}
  {rest : List QInstr} (hqueue : (s.core c.val).queue a.val = q :: rest)
include h hidle hqueue

/-- An array without a FULL MAT in progress starts the oldest instruction of its queue, or waits for its banks. -/
theorem exec_maTileStart_idle : exec (.maTileStart c a) s =
    .next (if banksFree ((s.core c.val).array a.val) q then startMa (popped s c.val a.val rest) c.val a.val q else s) := by
  rw [show exec (.maTileStart c a) s = execMaTileStart c a s from rfl, execMaTileStart, live_of_Clocked h]
  simp only [hidle, hqueue]
  rfl

/-- MACLR waits while its bank is read out. -/
theorem exec_maTileStart_maclr_waits (hop : q.op = .maclr) (hdue : ((s.core c.val).array a.val).drainDue (bankOf q.f) = true) :
    exec (.maTileStart c a) s = .next s := by
  rw [exec_maTileStart_idle h hidle hqueue, if_neg]
  simp [banksFree, hop, hdue]

theorem exec_maTileStart_maclr (hop : q.op = .maclr) (hfree : ((s.core c.val).array a.val).drainDue (bankOf q.f) = false) :
    exec (.maTileStart c a) s = .next (startMa (popped s c.val a.val rest) c.val a.val q) := by
  rw [exec_maTileStart_idle h hidle hqueue, if_pos]
  simp [banksFree, hop, hfree]

theorem exec_maTileStart_mastat (hop : q.op = .mastat) :
    exec (.maTileStart c a) s = .next (startMa (popped s c.val a.val rest) c.val a.val q) := by
  rw [exec_maTileStart_idle h hidle hqueue, if_pos]
  simp [banksFree, hop]

end

section
variable (s : State) (c : CoreId) (a : Nat) {q : QInstr} (rest : List QInstr)

theorem popped_onlyCore :
    OnlyCore s (popped s c.val a rest) c { s.core c.val with queues := Table.set [] (s.core c.val).queues a rest } := withCore_onlyCore ..

/-- MACLR clears its bank and records WE, OPC and STRIP. -/
theorem startMa_maclr (hop : q.op = .maclr) : OnlyCore s (startMa (popped s c.val a rest) c.val a q) c
    ((started (s.core c.val) a rest q q.sres).setArray a (((s.core c.val).array a).setBank (bankOf q.f)
      { we := field q.f.imm 0 10, opc := field q.f.imm 10 3, strip := bit q.f.imm 13, recorded := true })) := by
  have hbank : Bank.cleared (field q.f.imm 0 10) (field q.f.imm 10 3).toNat (bit q.f.imm 13) =
      { we := field q.f.imm 0 10, opc := field q.f.imm 10 3, strip := bit q.f.imm 13, recorded := true } := by
    simp [Bank.cleared]
  simp only [startMa, hop, hbank]
  exact onlyCore_modCore (onlyCore_modCore (popped_onlyCore s c a rest) _) _

/-- MASTAT takes its value. -/
theorem startMa_mastat (hop : q.op = .mastat) : OnlyCore s (startMa (popped s c.val a rest) c.val a q) c
    (started (s.core c.val) a rest q (mastatValue ((s.core c.val).array a) (bankOf q.f) (field q.f.imm 0 2).toNat)) := by
  obtain ⟨-, hcore, -⟩ := popped_onlyCore s c a rest
  have harray : ((popped s c.val a rest).core c.val).array a = (s.core c.val).array a := by rw [hcore]; rfl
  have hstart : startMa (popped s c.val a rest) c.val a q = toRunning (popped s c.val a rest) c.val a
      { q with sres := mastatValue ((s.core c.val).array a) (bankOf q.f) (field q.f.imm 0 2).toNat } := by
    simp only [startMa, hop, harray]
  rw [hstart]
  exact onlyCore_modCore (popped_onlyCore s c a rest) _

end

/-! ### MA_DRAIN (R211, R213, R216) -/

/-- From s to t no core's started instructions change. -/
def KeepsRunning (s t : State) : Prop := ∀ d, (t.core d).running = (s.core d).running

namespace KeepsRunning

variable {s t u : State}

theorem of_eq (h : t.cores = s.cores) : KeepsRunning s t := fun d => by rw [State.core, State.core, h]

theorem trans (h : KeepsRunning s t) (h' : KeepsRunning t u) : KeepsRunning s u := fun d => (h' d).trans (h d)

theorem modCore (s : State) (c : Nat) {f : Core → Core} (hf : ∀ k, (f k).running = k.running) : KeepsRunning s (s.modCore c f) := fun d => by
  rw [State.core_modCore]
  split
  · next hd => rw [hd, hf]
  · rfl

theorem foldl {α : Type} {f : State → α → State} (hf : ∀ s x, KeepsRunning s (f s x)) (l : List α) (s : State) : KeepsRunning s (l.foldl f s) :=
  List.foldlRecOn (motive := KeepsRunning s) l f (.of_eq rfl) fun _ hu x _ => hu.trans (hf _ x)

end KeepsRunning

theorem raiseCore_keepsRunning (s : State) (c : Nat) (code : BitVec 16) (unit : Nat) (detail : BitVec 16) :
    KeepsRunning s (raiseCore s c code unit detail) := by
  have hfault : KeepsRunning s (setFault s (BitVec.ofNat 6 c).toNat code) := .modCore _ _ fun _ => rfl
  exact hfault.trans (.of_eq rfl)

theorem raiseP_keepsRunning (s : State) (c : Nat) (code : BitVec 16) (unit : Nat) (detail : BitVec 16) :
    KeepsRunning s (raiseP s c code unit detail) := by
  have hfailed : KeepsRunning (raiseCore s c code unit detail) (failStep (raiseCore s c code unit detail) c) := .modCore _ _ fun _ => rfl
  have hhalted : KeepsRunning (failStep (raiseCore s c code unit detail) c) (raiseP s c code unit detail) := .modCore _ _ fun _ => rfl
  exact (raiseCore_keepsRunning s c code unit detail).trans (hfailed.trans hhalted)

theorem writeOpnd_keepsRunning (s : State) (c : Nat) (o : Opnd) (off : Int) (data : List Byte) (poison : Bool) :
    KeepsRunning s (writeOpnd s c o off data poison) := by
  cases o with
  | ob b x => exact .modCore s c (f := fun k => { k with ob := _, obBad := _ }) fun _ => rfl
  | cm x =>
    rw [writeOpnd]
    dsimp only
    split
    · split <;> exact .of_eq rfl
    · exact raiseP_keepsRunning _ _ _ _ _

theorem drainCell_keepsRunning (c a : Nat) (d : Drain) (o : Opnd) (i : Nat) (s : State) (j : Nat) : KeepsRunning s (drainCell c a d o i s j) := by
  rw [drainCell]
  split
  · exact (writeOpnd_keepsRunning _ _ _ _ _ _).trans (.modCore _ c fun _ => rfl)
  · exact writeOpnd_keepsRunning _ _ _ _ _ _

/-- The die once the rows of a drain are written. -/
def drainRows (s : State) (c a : Nat) (d : Drain) : State :=
  match decodeOpnd s c d.dst with
  | .error _ => s
  | .ok o => (List.range d.rows).foldl (fun s i => (List.range d.cols).foldl (drainCell c a d o i) s) s

theorem drainRows_keepsRunning (s : State) (c a : Nat) (d : Drain) : KeepsRunning s (drainRows s c a d) := by
  rw [drainRows]
  split
  · exact .of_eq rfl
  · exact .foldl (fun _ i => .foldl (fun _ _ => drainCell_keepsRunning _ _ _ _ _ _ _) _ _) _ _

/-- Bytes written into an operand buffer are put at their place. -/
theorem writeOpnd_ob (s : State) (c b x : Nat) (off : Int) (data : List Byte) (poison : Bool) :
    ((writeOpnd s c (.ob b x) off data poison).core c).ob = putBytes (s.core c).ob (b * 0x40000 + ((x : Int) + off).toNat) data :=
  congrArg Core.ob (State.core_setCore_same s c _)

/-- One RAW128 element for an operand buffer puts the cell's 16 bytes there (R213, R214). -/
theorem drainRows_raw {s : State} {c a : Nat} {d : Drain} {b o : Nat} (hdst : decodeOpnd s c d.dst = .ok (.ob b o)) (hrows : d.rows = 1)
    (hcols : d.cols = 1) (hdf : d.df = 0) : ((drainRows s c a d).core c).ob = putBytes (s.core c).ob (b * 0x40000 + (o + d.off))
      (leBytes 16 ((Table.get {} (((s.core c).array a).bank d.bank).cells 0).raw (((s.core c).array a).bank d.bank).opc).toNat) := by
  have hplace : ((o : Int) + ((d.off + 0 * d.stride + 0 * drainSize 0 : Nat) : Int)).toNat = o + d.off := by omega
  have hcell : drainRows s c a d = drainCell c a d (.ob b o) 0 s 0 := by
    simp only [drainRows, hdst, hrows, hcols, List.range_one, List.foldl_cons, List.foldl_nil]
  rw [hcell, ← hplace, ← writeOpnd_ob, drainCell, hdf]
  rfl

/-- The die once a drain whose rows are written has left the due ones; the last of its instruction lets it complete (R216). -/
def drainEnd (s : State) (c a : Nat) (d : Drain) (rest : List Drain) : State :=
  let s := s.modCore c (fun k => k.setArray a { k.array a with drains := rest })
  if d.final then toRunning s c a d.q else s

theorem exec_maDrain_cons {s : State} {c : CoreId} {a : Fin 2} (h : Clocked s) {d : Drain} {rest : List Drain}
    (hdrains : ((s.core c.val).array a.val).drains = d :: rest) :
    exec (.maDrain c a) s = .next (drainEnd (drainRows s c.val a.val d) c.val a.val d rest) := by
  rw [show exec (.maDrain c a) s = execMaDrain c a s from rfl, execMaDrain, live_of_Clocked h]
  simp only [hdrains]
  rfl

/-- What the end of a drain leaves of its core. -/
theorem drainEnd_core (s : State) (c a : Nat) (d : Drain) (rest : List Drain) :
    (drainEnd s c a d rest).core c = { (s.core c).setArray a { (s.core c).array a with drains := rest } with
      running := if d.final then Table.set [] (s.core c).running a ((s.core c).run a ++ [d.q]) else (s.core c).running } := by
  cases hfinal : d.final
  · simp only [drainEnd, hfinal, Bool.false_eq_true, if_false, State.core_modCore_same]
    rfl
  · simp only [drainEnd, hfinal, if_true, toRunning, State.core_modCore_same]
    rfl

/-! ### ENGINE_INSTRUCTION_COMPLETE (R173, R176, R233, R406) -/

/-- The number of an engine's queue. -/
def engineIndex : Engine → Nat
  | .ma0 => 0
  | .ma1 => 1
  | .ve => 2
  | .ru => 3
  | .su => 4
  | .mv => 5

/-- The core with the results of an instruction, which are pending no more (R176, R233). -/
def Core.takeResults (k : Core) (q : QInstr) : Core :=
  let k := match q.sdest with
    | some d => { (k.setSreg d q.sres) with pendS := eraseOnce d k.pendS }
    | none => k
  match q.mdest with
  | some m => { k with pendM := eraseOnce m k.pendM }
  | none => k

/-- The core once the oldest started instruction of queue i has left with its results. -/
def Core.completing (k : Core) (i : Nat) (q : QInstr) (rest : List QInstr) : Core :=
  { k with
    running := Table.set [] k.running i rest
    sb := freeEntries k.sb q.entries
    sregs := match q.sdest with
      | some d => if d = 0 then k.sregs else Table.set 0 k.sregs d q.sres
      | none => k.sregs
    pendS := match q.sdest with
      | some d => eraseOnce d k.pendS
      | none => k.pendS
    pendM := match q.mdest with
      | some m => eraseOnce m k.pendM
      | none => k.pendM }

theorem takeResults_completing (k : Core) (i : Nat) (q : QInstr) (rest : List QInstr) : { k.takeResults q with
    running := Table.set [] (k.takeResults q).running i rest, sb := freeEntries (k.takeResults q).sb q.entries } = k.completing i q rest := by
  unfold Core.takeResults Core.completing Core.setSreg
  cases q.sdest with
  | none => cases q.mdest <;> rfl
  | some d => by_cases hd : d = 0 <;> cases q.mdest <;> simp only [hd, if_true, if_false]

/-- The die once the oldest started instruction of queue i, if there is one, has completed. -/
def completeOldest (c i : Nat) (s : State) : State :=
  match (s.core c).run i with
  | [] => s
  | q :: rest =>
    let k := (s.core c).takeResults q
    s.setCore c ({ k with running := Table.set [] k.running i rest, sb := freeEntries k.sb q.entries }).settleStop

/-- A STOP that drains a core ends once nothing is left (R406). -/
theorem settleStop_eq (k : Core) : k.settleStop =
    if k.drainStop = true ∧ k.drained = true then { k with st := .stopped, drainStop := false, hold := none } else k := by
  simp only [Core.settleStop, Bool.and_eq_true]

theorem exec_engineInstructionComplete_cons {s : State} {c : CoreId} {e : Engine} (h : Clocked s) {q : QInstr} {rest : List QInstr}
    (hrun : (s.core c.val).run (engineIndex e) = q :: rest) :
    exec (.engineInstructionComplete c e) s = .next (withCore s c ((s.core c.val).completing (engineIndex e) q rest).settleStop) := by
  have hexec : exec (.engineInstructionComplete c e) s = live s (completeOldest c.val (engineIndex e)) := by cases e <;> rfl
  rw [hexec, live_of_Clocked h]
  simp only [completeOldest, hrun, takeResults_completing]
  rfl

/-! ### O23 -/

/-- Settles O23: an idle array by the instruction at its queue's head, a drain by its rows and its end, and a completion by what the
instruction wrote. -/
theorem matrixArraysStartDrainAndComplete : Obligations.MatrixArraysStartDrainAndComplete := by
  unfold Obligations.MatrixArraysStartDrainAndComplete
  refine ⟨fun s c a => ?_, fun s c e q rest => ?_⟩
  · dsimp only
    intro h
    refine ⟨fun q rest hidle hqueue => ⟨fun hop hfree => ⟨_, exec_maTileStart_maclr h hidle hqueue hop hfree, startMa_maclr s c a.val rest hop⟩,
      fun hop => ⟨_, exec_maTileStart_mastat h hidle hqueue hop, startMa_mastat s c a.val rest hop⟩,
      exec_maTileStart_maclr_waits h hidle hqueue⟩, fun d rest hdrains => ⟨_, exec_maDrain_cons h hdrains, ?_⟩⟩
    rw [drainEnd_core]
    refine ⟨congrArg MArray.drains (Core.array_setArray_same ..), ?_, fun b o hdst hrows hcols hdf _ => drainRows_raw hdst hrows hcols hdf⟩
    rw [Core.run, drainRows_keepsRunning s c.val a.val d c.val]
    cases d.final
    · exact (List.append_nil _).symm
    · exact Table.get_set_same ..
  · dsimp only
    intro h hrun
    have hrun' : (s.core c.val).run (engineIndex e) = q :: rest := by cases e <;> exact hrun
    have hexec := exec_engineInstructionComplete_cons h hrun'
    rw [settleStop_eq] at hexec
    cases e <;> exact hexec

end Sys2Proof.Machine
end
